-- ==== Sys2Proof/Word.lean ====
section
/-!
DEFINITION. The native words of the Oceivin (R5, R11): every register and every fabric address is 24 bits wide.
-/

namespace Sys2Proof

/-- A register or queue word, R5. -/
abbrev Word := BitVec 24

/-- A control-fabric word address, R11: block code in bits [23:20], offset in bits [19:0]. -/
abbrev Addr := BitVec 24

/-- A byte of a packet, a frame or a memory. -/
abbrev Byte := BitVec 8

/-- A complex value of a datapath, in the units that its user names; a C24 sample is one in units of 2^-10 (R5, R205). -/
structure Cx where
  re : Int
  im : Int
  deriving DecidableEq, Repr, Inhabited

/-- A sample or symbol in both polarisations. -/
structure Dual where
  x : Cx
  y : Cx
  deriving DecidableEq, Repr, Inhabited

end Sys2Proof
end

