-- ==== Sys2Proof/Syntax.lean ====
section
/-!
DEFINITION. The commands of the model: `Instr`, one constructor per row of the operation table, and the plain-data
operands that the rows carry. The model takes commands and events from outside; what only the world outside can
decide (a power reading, a received packet, the verdict of a physical measurement) is an operand.
-/

namespace Sys2Proof

/-- The strap pins of the table "Straps" (R547): OSCDLY[1:0], ROLE[1:0], TWIN_SIDE, NOPCIE and TMODE. -/
structure Straps where
  oscdly   : Fin 4
  role     : Fin 4
  twinSide : Bool
  noPcie   : Bool
  tmode    : Bool
  deriving DecidableEq, Repr

/-- Who waits for a fabric access (R52): the host, a sequencer, a request that a Poryon tunnel has brought to a port, or a
remote-fabric window of this device. -/
inductive Requester where
  | host
  | seq (q : Fin 16)
  | tunnel (p : Fin 6)
  | window (w : Fin 4)
  deriving DecidableEq, Repr

/-- Why a pending MSI-X vector becomes signalable (R172): the vector is unmasked, the Function Mask is cleared,
MSI-X is enabled, or the link returns. -/
inductive MsixCause where
  | unmask | functionUnmask | enable | linkReturn
  deriving DecidableEq, Repr

/-- The trims measured for one converter, before the clamp of R181: gain, offset and skew in their steps. -/
structure TrimMeasure where
  gain   : Int
  offset : Int
  skew   : Int
  deriving DecidableEq, Repr

/-- What MATCH and the check of WAKING step 4 measure of one interleave slice over 2^16 samples (R178, R180): the sum of its
trimmed codes in units of 2^-20 LSB, and the sum of their squares. -/
structure CodeStats where
  sum     : Int
  squares : Nat
  deriving DecidableEq, Repr

/-- MATCH of one ADC: the trims that the spare has been given, and what it and the incumbent measure (R178). -/
structure MatchResult where
  trims     : TrimMeasure
  spare     : CodeStats
  incumbent : CodeStats
  deriving DecidableEq, Repr

/-- A PCIe capability of the table "PCIe capabilities" (R151). -/
inductive PcieCap where
  | express | power | msix | sriov | ari | aer | serial | dataLink | phy16 | phy32 | phy64 | margining
  | msi | ats | pasid | pri | tph | ltr | l1Substates | resizableBar | ide | doe
  deriving DecidableEq, Repr

/-- A register of a function's configuration space (R151 to R153): what the PCIe capabilities hold that the manual names. -/
inductive CfgReg where
  | id               -- Vendor ID and Device ID
  | bar (n : Fin 6)  -- a base address register
  | vfBar (n : Fin 6)  -- a VF base address register, in SR-IOV
  | vfDevice         -- VF Device ID, in SR-IOV
  | sriov            -- VF Enable, in SR-IOV
  | numVfs           -- NumVFs, in SR-IOV
  | vfPlace          -- first VF offset and VF stride, in SR-IOV
  | ari              -- next function number, in ARI
  | power            -- Power Management control and status
  | msix             -- MSI-X message control
  | device           -- Device Control
  | deviceCaps       -- Device Capabilities: the payload supported
  | deviceCaps2      -- Device Capabilities 2: 10-bit tags
  | totalVfs         -- InitialVFs and TotalVFs, in SR-IOV
  | header (c : PcieCap)  -- the header of a capability: its ID, and a version for an extended one
  | aer              -- uncorrectable error status, in Advanced Error Reporting
  | serialLow        -- Device Serial Number, bits 31 to 0
  | serialHigh       -- Device Serial Number, bits 63 to 32
  deriving DecidableEq, Repr

/-- What a request of the host addresses (R151, R153, R157): the control window BAR0, the user page of a function, or a
register of its configuration space. -/
inductive HostSpace where
  | bar0
  | user (f : Fin 16)
  | config (f : Fin 16) (r : CfgReg)
  deriving DecidableEq, Repr

/-- A step of the table "WAKING steps" (R35); the converter check carries what each interleave slice of each ADC measures
(R180). -/
inductive WakeStep where
  | powerRamp | synthLock | trimLoad
  | converterCheck (stats : List (List CodeStats))
  deriving DecidableEq, Repr

/-- The code of GLB_SLICE_STAT.wake_step. -/
def WakeStep.code : WakeStep → Nat
  | .powerRamp => 1
  | .synthLock => 2
  | .trimLoad => 3
  | .converterCheck _ => 4

/-- What a line capture can wait for (R201): the firing of a timer, or a device event. -/
inductive CapTrig where
  | timer (n : Fin 16)
  | event (e : Fin 256)
  deriving DecidableEq, Repr

/-- One instant of the four ADCs of a slice: 8-bit codes (R176). -/
structure AdcSample where
  xi : BitVec 8
  xq : BitVec 8
  yi : BitVec 8
  yq : BitVec 8
  deriving DecidableEq, Repr

/-- A spread symbol that TDL has decided (R292): the superframe symbol position of its first symbol, its bit, the complex
gain of a chip in each polarisation in C24 units, and its despread SNR in 0.25 dB. -/
structure TdlDecision where
  start : Nat
  bit   : Bool
  gain  : Dual
  snr   : Nat
  deriving DecidableEq, Repr

/-- A candidate of one correlator bank (R288, R289): spreading factor code, peak in 0.25 dB on equalised samples; on raw samples the
correlation powers of X and Y in 1/256 of the noise power, and the carrier offset in Hz; timing in chips, and the errors of its
16-symbol start word. -/
structure TdlDetect where
  sf        : Nat
  peak      : Nat
  raw       : Nat × Nat
  offset    : Int
  chip      : Int
  startErrs : Nat
  deriving DecidableEq, Repr

/-- What a slice meets over one frame: the residual of the far end's tendril in 1/64 dB (tap 10 of R233), and the samples of its
converters where RXD forms no block of them. DESIGN CHOICE (log 17). -/
structure FrameFacts where
  tendril : Word
  samples : List AdcSample
  deriving DecidableEq, Repr

/-- The host-side receive condition of a port (R384, R389): PCS lock, high BER, received Local and Remote Fault, signal
and clock of its lanes. -/
structure HostSide where
  pcs   : Bool
  hiBer : Bool
  lf    : Bool
  rf    : Bool
  sig   : Bool
  cdr   : Bool
  deriving DecidableEq, Repr

/-- The commands and events of the Oceivin: one constructor for each row of the operation table, in its order.
DESIGN CHOICE (log 9). -/
inductive Instr where
  /-- COLD_START: VDDAON is applied or returns above 0.70 V, and everything is reset, always-on memory included. (R56) -/
  | coldStart (st : Straps)
  /-- VDDAON_LOW: VDDAON stays below 0.70 V for 1 µs and holds the whole device in reset. (R549) -/
  | vddaonLow
  /-- PERST_N_ASSERT: PERST_N is asserted while powered and causes a fundamental reset; the AON domain survives. (R56) -/
  | perstNAssert
  /-- PERST_N_DEASSERT: PERST_N deasserts, the straps latch, and the OSCDLY count starts on the fallback oscillator. (R54) -/
  | perstNDeassert (st : Straps)
  /-- OSCDLY_EXPIRY: The OSCDLY delay ends; with the host clock present, AON switches to it and the main loop starts, otherwise the count restarts. (R41) -/
  | oscdlyExpiry (present : Bool)
  /-- MAIN_LOOP_LOCK: The main loop locks; CFC, SQC and HSC start, and PCIe training begins. (R54) -/
  | mainLoopLock
  /-- BOOTSTRAP_IMAGE_VERIFY: The first bootstrap image is read and verified; if it fails, the second is tried. (R55) -/
  | bootstrapImageVerify (cask : Option (Bool × Fin 65))
  /-- POWER_UP_COMPLETE: Calibration and RESCUE are loaded, fast clocks stop, and the device reaches DORMANT with boot_done set. (R54) -/
  | powerUpComplete (rescue : Option (List (Addr × Word)))
  /-- REQ_DORMANT: A write of DORMANT to GLB_MODE.req preempts every program and drains every slice, then fast clocks stop. (R33) -/
  | reqDormant
  /-- REQ_PREPARE: A write of PREPARE to GLB_MODE.req starts or refuses the transition to PREPARE that the current mode allows. (R33) -/
  | reqPrepare
  /-- REQ_SERVICE: A write of SERVICE to GLB_MODE.req enters SERVICE if CURRENT is valid and the pair state allows it. (R33) -/
  | reqService
  /-- REQ_SHADOW: A write of SHADOW to GLB_MODE.req enters SHADOW when the pair state is JOINING or STANDBY. (R33) -/
  | reqShadow
  /-- REQ_PROVING: A write of PROVING to GLB_MODE.req enters PROVING from PREPARE. (R33) -/
  | reqProving
  /-- REQ_RECOVERY: A write of RECOVERY to GLB_MODE.req is always refused. (R32) -/
  | reqRecovery
  /-- REQ_PREVIOUS_MODE: In RECOVERY, a write to req of the mode that prev holds returns to that mode once CURRENT is re-applied. (R33) -/
  | reqPreviousMode
  /-- MODE_TRANSITION_END: A mode transition completes, busy clears, and any held request is acted on in the next cycle. (R31) -/
  | modeTransitionEnd
  /-- SLICE_ENABLE_HELD_WAKE: An enable held during DRAINING starts WAKING in the next AON cycle after DARK is reached. (R38) -/
  | sliceEnableHeldWake (i : Fin 8)
  /-- WAKING_COMPLETE: A slice completes the WAKING steps and becomes LIT. (R35) -/
  | wakingComplete (i : Fin 8) (done : WakeStep)
  /-- WAKE_TIMEOUT: A slice is still WAKING 5 ms after leaving DARK; wake_fail is set, SLICE_WAKE_FAIL is raised, and the slice drains. (R35) -/
  | wakeTimeout (i : Fin 8)
  /-- DRAIN_COMPLETE: The drain steps end, the slice becomes DARK, and last_drain is recorded. (R37) -/
  | drainComplete (i : Fin 8) (us : BitVec 16)
  /-- HOSTCLK_COAST: The main loop loses its input and coasts to its lowest frequency, setting main_coast. (R46) -/
  | hostclkCoast
  /-- HOSTCLK_FAIL_DECLARE: Five short monitor windows declare host-clock failure; clocks switch to fallback, NMI_N asserts, and RECOVERY is entered except in DORMANT. (R46) -/
  | hostclkFailDeclare
  /-- HOSTCLK_RETURN: The host clock stays in its window for the OSCDLY delay, the domains switch back, and PCIe retrains. (R50) -/
  | hostclkReturn
  /-- HOSTCLK_FAIL_CLEAR: Host software writes 1 to TIM_CLK_STAT.hostclk_fail, which releases NMI_N. (R50) -/
  | hostclkFailClear
  /-- SSC_PERIOD_END: At the end of a modulation period, a pending change to TIM_CLK_SSC takes effect. (R44) -/
  | sscPeriodEnd
  /-- GATE_CLOSE_REQUEST: A gate asked to close waits for the fabric access in progress, then closes. (R52) -/
  | gateCloseRequest (b : Fin 16) (busy : Bool)
  /-- FABRIC_ACCESS_TIMEOUT: The fabric timeout of 2,048 CFC cycles expires; the requester gets an error response and the block interface resets. (R52) -/
  | fabricAccessTimeout (b : Fin 16) (addr : Addr) (requester : Requester)
  /-- FABRIC_WRITE: A write to a register that has no row of its own applies each field's class behaviour. (R6) -/
  | fabricWrite (addr : Addr) (value : Word)
  /-- CROSSING_RESET: One side of a domain crossing enters reset; the crossing is FLUSHED and items in flight are discarded. (R57) -/
  | crossingReset (x : Nat) (sideB : Bool) (items : Nat)
  /-- CROSSING_REQ: Side B receives the REQ token, clears its pointers and returns ACK. (R57) -/
  | crossingReq (x : Nat)
  /-- CROSSING_ACK: Side A receives ACK and the crossing opens. (R57) -/
  | crossingAck (x : Nat)
  /-- CROSSING_REQ_RESEND: An unanswered REQ is sent again after 256 cycles of the slower clock. (R58) -/
  | crossingReqResend (x : Nat)
  /-- CC_RESET_CMD: A write of 1 to GLB_RST_CMD.cc performs a control-complex reset. (R532) -/
  | ccResetCmd
  /-- CC_WATCHDOG_EXPIRY: The AON watchdog expires after 1 s without a kick and causes a control-complex reset. (R60) -/
  | ccWatchdogExpiry (within60s : Bool)
  /-- EXECUTIVE_RESTART: The executive restarts, closes the in-flight table with ABORTED_RESET, and re-applies CURRENT or PREVIOUS. (R81) -/
  | executiveRestart
  /-- SLICE_RESET_CMD: A write of 1 to GLB_RST_CMD.slice resets the datapath of the named LIT slice. (R536) -/
  | sliceResetCmd (i : Fin 8)
  /-- FRAME_PULSE_WATCHDOG: A slice frame pulse is missing for 256 µs and the slice datapath is reset. (R536) -/
  | framePulseWatchdog (i : Fin 8) (within1s : Bool)
  /-- DP_STALL: A pipeline stage holds input with no output for 256 cycles, and its contents are discarded. (R535) -/
  | dpStall (b : Fin 16) (i : Fin 8) (stage : BitVec 8)
  /-- SHARED_STAGE_WATCHDOG: A shared stage gives no pulse for 4 ms, and the shared datapath is reset. (R537) -/
  | sharedStageWatchdog (b : Fin 16) (within10s : Bool)
  /-- DP_SLICE_HOLD_END: The 1 s hold ends and the slice re-locks. (R537) -/
  | dpSliceHoldEnd (i : Fin 8)
  /-- THERMAL_FAULT: The junction stays above +110 °C for 10 ms, and the device enters RECOVERY with every slice draining. (R538) -/
  | thermalFault
  /-- THERMAL_CLEAR: The temperature falls below +100 °C, which clears THERMAL. (R540) -/
  | thermalClear
  /-- RECOVERY_RESTART: The restart delay expires with every fault cleared, and the executive dispatches RECOVER. (R540) -/
  | recoveryRestart (aged : Nat)
  /-- GIVEN_UP_CLEAR: Host software writes 1 to given_up, and restarts by the device resume. (R541) -/
  | givenUpClear
  /-- HOST_SILENCE_EXPIRY: No host activity occurs for silence seconds; unatt is set and HOST_SILENT is raised. (R534) -/
  | hostSilenceExpiry
  /-- HOST_ACTIVITY: A PF memory request clears unatt and raises HOST_SILENT with bit 23 at 0. (R534) -/
  | hostActivity
  /-- PACKET_DISPATCH: The executive dispatches a dispatchable packet to the lowest-numbered idle sequencer, or rejects it. (R69) -/
  | packetDispatch
  /-- PACKET_TIMEOUT: A dispatched packet is still incomplete at pkt_to, and the program is aborted with PKT_SHORT. (R71) -/
  | packetTimeout (q : Fin 16)
  /-- BUDGET_EXPIRY: The program budget expires, and the program is aborted with fault BUDGET. (R72) -/
  | budgetExpiry (q : Fin 16)
  /-- SQ_WATCHDOG_EXPIRY: The sequencer watchdog expires after 200 ms and resets the sequencer with outcome ABORTED_RESET. (R73) -/
  | sqWatchdogExpiry (q : Fin 16)
  /-- HOST_ABORT: A write of go to SEQ_ABORT_CMD aborts the matching program as PREEMPTED, or sets nomatch. (R84) -/
  | hostAbort (func : Fin 16)
  /-- LOAD_BEGIN: SEQ_LOAD_CMD.begin opens a load session and clears the instruction store. (R64) -/
  | loadBegin (withVerify : Bool)
  /-- LOAD_DATA: A write to SEQ_LOAD_DATA stores one image word and advances SEQ_LOAD_ADDR. (R64) -/
  | loadData (w : Word)
  /-- LOAD_VERIFY: SEQ_LOAD_CMD.verify closes the session and starts the image check. (R64) -/
  | loadVerify (withBegin : Bool)
  /-- LOAD_VERIFY_DONE: The image check ends, and the result and program-set identifier are set. (R64) -/
  | loadVerifyDone
  /-- TRAP: TRAP faults with TRAP and ends the program ABORTED_FAULT. (R108) -/
  | trap (q : Fin 16)
  /-- ILLEGAL_OPCODE: An undefined opcode or reserved field faults with ILLEGAL. (R92) -/
  | illegalOpcode (q : Fin 16)
  /-- ADD: Wa takes Wb plus Wc. (R100) -/
  | add (q : Fin 16)
  /-- ADDI: Wa takes Wb plus imm6. (R100) -/
  | addi (q : Fin 16)
  /-- SUB: Wa takes Wb minus Wc. (R100) -/
  | sub (q : Fin 16)
  /-- SUBI: Wa takes Wb minus imm6. (R100) -/
  | subi (q : Fin 16)
  /-- MULL: Wa takes the low 24 bits of the product. (R100) -/
  | mull (q : Fin 16)
  /-- MULH: Wa takes the high 24 bits of the product. (R100) -/
  | mulh (q : Fin 16)
  /-- AND: Wa takes Wb AND Wc. (R100) -/
  | and (q : Fin 16)
  /-- OR: Wa takes Wb OR Wc. (R100) -/
  | or (q : Fin 16)
  /-- XOR: Wa takes Wb XOR Wc. (R100) -/
  | xor (q : Fin 16)
  /-- NOT: Wa takes NOT Wb. (R100) -/
  | not (q : Fin 16)
  /-- SHL: Wa takes Wb shifted left by n. (R102) -/
  | shl (q : Fin 16)
  /-- SHR: Wa takes Wb shifted right by n with zero fill. (R102) -/
  | shr (q : Fin 16)
  /-- SAR: Wa takes Wb shifted right by n with sign fill. (R102) -/
  | sar (q : Fin 16)
  /-- ROT: Wa takes Wb rotated left by n modulo 24. (R100) -/
  | rot (q : Fin 16)
  /-- CMP: Sets the flags of Wb minus Wc. (R101) -/
  | cmp (q : Fin 16)
  /-- CMPI: Sets the flags of Wb minus imm6. (R101) -/
  | cmpi (q : Fin 16)
  /-- MIN: Wa takes the lesser of Wb and Wc. (R100) -/
  | min (q : Fin 16)
  /-- MAX: Wa takes the greater of Wb and Wc. (R100) -/
  | max (q : Fin 16)
  /-- MOV: Wa takes Wb. (R103) -/
  | mov (q : Fin 16)
  /-- LDI: Wa takes the extension word. (R103) -/
  | ldi (q : Fin 16)
  /-- LDL: Wa takes a local scratch word, waiting for a packet word that has not arrived. (R90) -/
  | ldl (q : Fin 16)
  /-- STL: A local scratch word takes Wa. (R90) -/
  | stl (q : Fin 16)
  /-- FRD: Reads one fabric word into Wa. (R105) -/
  | frd (q : Fin 16)
  /-- FWR: Writes Wa to one fabric word. (R105) -/
  | fwr (q : Fin 16)
  /-- FRMW: Performs a masked read-modify-write of one fabric word, indivisibly. (R106) -/
  | frmw (q : Fin 16)
  /-- FPOLL: Starts polling a fabric word until a masked match or the timeout. (R107) -/
  | fpoll (q : Fin 16)
  /-- FPOLL_READ: A further poll read issues 16 CFC cycles after the previous response and ends FPOLL on a match. (R107) -/
  | fpollRead (q : Fin 16)
  /-- BR: Branches unconditionally. (R108) -/
  | br (q : Fin 16)
  /-- BZ: Branches if Z is 1. (R108) -/
  | bz (q : Fin 16)
  /-- BNZ: Branches if Z is 0. (R108) -/
  | bnz (q : Fin 16)
  /-- BN: Branches if N is 1. (R108) -/
  | bn (q : Fin 16)
  /-- BC: Branches if C is 1. (R108) -/
  | bc (q : Fin 16)
  /-- BT: If T is 1, clears T and branches. (R108) -/
  | bt (q : Fin 16)
  /-- CALL: Saves the return address in W15 and branches. (R108) -/
  | call (q : Fin 16)
  /-- RET: Jumps to the address in Wb. (R108) -/
  | ret (q : Fin 16)
  /-- LOOP: Decrements Wa and branches while it is nonzero. (R108) -/
  | loop (q : Fin 16)
  /-- HALT: Ends the program COMPLETE with no result words. (R109) -/
  | halt (q : Fin 16)
  /-- CLAIM: Acquires a resource in ascending order, or starts waiting for it. (R75) -/
  | claim (q : Fin 16)
  /-- CLAIM_GRANT: A freed resource is granted to the waiter that the arbiter chooses. (R76) -/
  | claimGrant (n : Fin 256)
  /-- FREE: Releases a held resource. (R75) -/
  | free (q : Fin 16)
  /-- YIELD: Issues nothing for (m + 1) × 32 cycles. (R110) -/
  | yield (q : Fin 16)
  /-- WAITE: Waits for an event's pending bit. (R112) -/
  | waite (q : Fin 16)
  /-- WAITE_COMPLETE: The awaited event is pending; the bit clears and the data word goes to Wa. (R112) -/
  | waiteComplete (q : Fin 16)
  /-- WAITT: Waits until device time reaches a target, or completes at once if the target is late. (R114) -/
  | waitt (q : Fin 16)
  /-- WAITT_COMPLETE: Device time reaches the target and WAITT completes. (R114) -/
  | waittComplete (q : Fin 16)
  /-- SIGNAL: Raises a program event with data Wa in every running sequencer. (R113) -/
  | signal (q : Fin 16)
  /-- BLOCKING_TIMEOUT: A blocking instruction's timeout expires; T is set and the program continues. (R96) -/
  | blockingTimeout (q : Fin 16)
  /-- STEP: Writes a STEP record. (R115) -/
  | step (q : Fin 16)
  /-- JREC: Writes a NOTE record. (R115) -/
  | jrec (q : Fin 16)
  /-- DONE: Ends the program COMPLETE with up to 63 result words. (R109) -/
  | done (q : Fin 16)
  /-- VSTG: Merges a masked value into one STAGED V-class field. (R116) -/
  | vstg (q : Fin 16)
  /-- VCMT: Requests a commit of STAGED at a boundary; it is accepted with a serial or refused. (R117) -/
  | vcmt (q : Fin 16)
  /-- VABT: Either resets STAGED to CURRENT or withdraws the pending commit. (R118) -/
  | vabt (q : Fin 16)
  /-- SEND: Waits for room and writes one packet to a Poryon port or the response ring. (R120) -/
  | send (q : Fin 16)
  /-- SEND_ROOM: The destination queue has room, and the waiting SEND writes its packet. (R120) -/
  | sendRoom (q : Fin 16)
  /-- RECV: Starts taking one packet from a Poryon receive queue. (R121) -/
  | recv (q : Fin 16)
  /-- RECV_COMPLETE: The last word of the packet has been taken, and its length goes to Wa. (R121) -/
  | recvComplete (q : Fin 16)
  /-- TNOW: Reads device time into Wa and Wb. (R115) -/
  | tnow (q : Fin 16)
  /-- STAGE_GO: VTG_STG_CMD.go applies the masked merge to STAGED. (R128) -/
  | stageGo (andRead : Bool)
  /-- STAGE_READ: VTG_STG_CMD.read copies a STAGED value into VTG_STG_DATA. (R128) -/
  | stageRead
  /-- VTG_RET: VTG_CMD.ret starts a return to PREVIOUS, or sets nomatch. (R140) -/
  | vtgRet
  /-- VTG_ACCEPT: VTG_CMD.accept ends probation as passed. (R138) -/
  | vtgAccept
  /-- VTG_FAIL: VTG_CMD.fail is a host-declared probation failure while host_en is 1. (R136) -/
  | vtgFail
  /-- VTG_WITHDRAW: VTG_CMD.withdraw withdraws a commit that is not yet ARMED. (R134) -/
  | vtgWithdraw
  /-- VTG_RESET_STAGED: VTG_CMD.reset_staged copies CURRENT into STAGED. (R126) -/
  | vtgResetStaged
  /-- VTG_LOAD_ARCH: VTG_CMD.load_arch copies the selected archived image into STAGED. (R144) -/
  | vtgLoadArch
  /-- VTG_LOAD_RESCUE: VTG_CMD.load_rescue copies RESCUE into STAGED. (R144) -/
  | vtgLoadRescue
  /-- VTG_RELEASE: VTG_CMD.release moves a HELD domain commit to ARMED. (R146) -/
  | vtgRelease
  /-- VTG_DOM_RET: VTG_CMD.dom_ret starts a return with cause DOMAIN. (R148) -/
  | vtgDomRet
  /-- VALIDATION_DONE: Validation ends, and the commit goes to LOADING or fails with the lowest failure code. (R131) -/
  | validationDone
  /-- LOADING_DONE: The blocks have loaded their second banks, and the commit goes on to NEGOTIATING, HELD or ARMED. (R128) -/
  | loadingDone (memErr : Bool) (ahead : Nat)
  /-- DOMAIN_RELEASE_DEADLINE: A HELD domain commit misses its release deadline and fails with DOMAIN. (R146) -/
  | domainReleaseDeadline
  /-- COMMIT_TAKE_EFFECT: At the boundary every block switches bank, the images and serials move, and probation starts. (R133) -/
  | commitTakeEffect (bnd : Fin 4)
  /-- PROBATION_CHECK_INTERVAL: A 100 ms check interval ends and the uncorrected-block and deadline-miss thresholds are judged. (R137) -/
  | probationCheckInterval
  /-- PROBATION_END: The probation window expires without failure, and the state becomes IDLE. (R138) -/
  | probationEnd
  /-- RETURN_TAKE_EFFECT: At the return boundary CURRENT takes PREVIOUS, and VTG_RETURN and VTG_DONE are raised. (R141) -/
  | returnTakeEffect (superframe : Bool)
  /-- PUSH_WINDOW_WRITE: A DW written to the push window pushes one word into the function's command queue. (R158) -/
  | pushWindowWrite (f : Fin 16) (dws : List (BitVec 32 × Bool))
  /-- POP_WINDOW_READ: A DW read from the pop window pops one word from the response ring. (R159) -/
  | popWindowRead (f : Fin 16) (n : Nat)
  /-- QUEUE_PUSH: A word is pushed into a queue; a first word is admitted whole or refused. (R164) -/
  | queuePush (q : Fin 41) (w : Word) (len : Nat) (withPop : Bool)
  /-- QUEUE_RESET: HIF_Q_CFG.reset empties the queue in one cycle. (R169) -/
  | queueReset (q : Fin 41)
  /-- PEAK_READ: A read of HIF_Q_PEAK returns the peak and resets it to the count. (R167) -/
  | peakRead (q : Fin 41)
  /-- BAR0_ACCESS: A BAR0 request accesses consecutive fabric words; errors set HIF_ERR_STAT. (R154) -/
  | bar0Access (space : HostSpace) (write : Bool) (addr : Addr) (dws : List (BitVec 32 × Bool))
  /-- FUNCTION_LEVEL_RESET: An FLR resets the function's queues and DMA, and preempts its programs. (R160) -/
  | functionLevelReset (f : Fin 16)
  /-- DMA_ENABLE: Setting HIF_DMA_CFG.en starts draining the queue into the host ring. (R175) -/
  | dmaEnable (d : Fin 18)
  /-- DMA_PACKET_WRITE: A packet that fits in the host ring is written by DMA and its notice is sent. (R174) -/
  | dmaPacketWrite (d : Fin 18) (err : Bool)
  /-- EVENT_OCCURRENCE: An event sets its pending bit and is delivered to sequencers, MSI-X and the pins. (R542) -/
  | eventOccurrence (e : Fin 256) (data : Word)
  /-- MSIX_PENDING_SEND: A pending vector becomes signalable and sends one message. (R172) -/
  | msixPendingSend (f : Fin 16) (v : Nat) (why : MsixCause)
  /-- RECAL_RUN_CMD: CNV_RECAL_CMD.run raises the command cause or is refused. (R184) -/
  | recalRunCmd (i : Fin 8)
  /-- RECAL_ABORT_CMD: CNV_RECAL_CMD.abort ends the run and starts a restore rotation. (R188) -/
  | recalAbortCmd (i : Fin 8)
  /-- CONVERTER_TEMP_READING: The 10 ms temperature reading can raise the temperature cause. (R184) -/
  | converterTempReading (i : Fin 8) (temp : BitVec 10)
  /-- RECAL_INTERVAL_EXPIRY: The recalibration interval passes and raises the interval cause. (R184) -/
  | recalIntervalExpiry (i : Fin 8)
  /-- CAL_ENGINE_GRANT: A calibration engine is granted, and the run or restore rotation starts. (R187) -/
  | calEngineGrant
  /-- SPARE_MATCH_END: MATCH ends; the spare takes over, MATCH repeats, or the phase is skipped. (R178) -/
  | spareMatchEnd (i : Fin 8) (adcs : List MatchResult)
  /-- RUN_STEP_HAND_BACK: The offline slice returns with new trims at HAND BACK. (R178) -/
  | runStepHandBack (i : Fin 8) (measured : Option (List TrimMeasure × List Int))
  /-- RUN_COMPLETE: At the frame boundary after the last HAND BACK, the new generation is in force. (R190) -/
  | runComplete (i : Fin 8) (dac : List TrimMeasure)
  /-- RESTORE_ROTATION_COMPLETE: The restore rotation ends with PREVIOUS's trims in force. (R197) -/
  | restoreRotationComplete (i : Fin 8)
  /-- CASK_SAVE: A generation is erased, programmed and read back in the cask, repeated once on failure. (R192) -/
  | caskSave (i : Fin 8) (verified : Bool)
  /-- CLIP_WINDOW: A 1 ms window ends and raises CNV_CLIP if the clip fraction was exceeded. (R200) -/
  | clipWindow (i : Fin 8) (codes : List (Fin 4 × Fin 65 × BitVec 8))
  /-- CAPTURE_GO: CNV_CAP_CMD.go arms a capture, or is refused. (R201) -/
  | captureGo (i : Fin 8)
  /-- CAPTURE_STOP: CNV_CAP_CMD.stop ends the capture. (R204) -/
  | captureStop (i : Fin 8)
  /-- CAPTURE_TRIGGER: The trigger arrives and the post-trigger instants are recorded. (R201) -/
  | captureTrigger (trig : CapTrig)
  /-- CAPTURE_SEGMENT_DRAINED: A segment has drained to the cellar; the engine re-arms or raises CNV_CAP_DONE. (R202) -/
  | captureSegmentDrained (codes : List AdcSample)
  /-- ACQ_SIGNAL_DETECT: Received power stays above −24 dB for 10 µs and CD starts. (R225) -/
  | acqSignalDetect (i : Fin 8)
  /-- CD_SCAN_END: The CD scan ends and the bulk value is set. (R208) -/
  | cdScanEnd (i : Fin 8) (coarse fine : List Nat) (peak : Int)
  /-- CLOCK_LOCK: Timing locks and BLIND starts. (R210) -/
  | clockLock (i : Fin 8) (off : Int)
  /-- SINGULARITY_CHECK: Every 4,096 symbols in BLIND, a converged singularity is corrected. (R215) -/
  | singularityCheck (i : Fin 8) (corrMilli : Nat)
  /-- BLIND_CONVERGED: CMA converges and PILOT_SYNC starts. (R213) -/
  | blindConverged (i : Fin 8) (dgd : Nat) (cd : Int)
  /-- PILOT_SYNC_FOUND: The pilot sequence is found and confirmed, and CARRIER starts. (R217) -/
  | pilotSyncFound (i : Fin 8) (samples : List AdcSample)
  /-- CARRIER_LOCK: Pilot SNR holds for 16 frames; TRACK starts and RXD_TRACK is raised. (R232) -/
  | carrierLock (i : Fin 8)
  /-- ACQ_STATE_LIMIT: An acquisition state reaches its limit; fails counts and CD is re-entered. (R227) -/
  | acqStateLimit (i : Fin 8)
  /-- INPUT_LOSS: Power stays below −30 dB for 10 µs and the slice enters HOLD. (R228) -/
  | inputLoss (i : Fin 8)
  /-- INPUT_RETURN: Power returns within the HOLD limit, and PILOT_SYNC is re-entered. (R228) -/
  | inputReturn (i : Fin 8)
  /-- HOLD_EXPIRY: The HOLD limit ends and the slice enters SIGNAL. (R228) -/
  | holdExpiry (i : Fin 8)
  /-- TRACK_SNR_LOSS: Pilot SNR stays below 0 dB for 64 frames and BLIND is re-entered. (R229) -/
  | trackSnrLoss (i : Fin 8)
  /-- ACQ_RESTART: RXD_ACQ_CMD.restart sends the slice to SIGNAL. (R230) -/
  | acqRestart (i : Fin 8)
  /-- CYCLE_SLIP: A pilot finds the phase estimate off by more than π/4; it is corrected and counted. (R219) -/
  | cycleSlip (i : Fin 8) (y : Bool) (err : Int)
  /-- TX_FRAME_BOUNDARY: At each frame boundary the mask attenuation and the output amplitude are updated. (R244) -/
  | txFrameBoundary (i : Fin 8) (psd : List (Nat × Nat))
  /-- RATE_MUTE_START: 16 frames before a baud-change boundary, the rate cause is set. (R250) -/
  | rateMuteStart (i : Fin 8)
  /-- SYNTH_RELOCK: The slice synthesiser relocks at the new rate, and the rate cause clears. (R250) -/
  | synthRelock (i : Fin 8)
  /-- BLOCK_ARRIVAL: An LLR block arrives at the pool and takes a context, its deadline and its guarantee. (R267) -/
  | blockArrival (i : Fin 8) (samples : List AdcSample)
  /-- ITERATION_SLOT: In each slot, free engines take the highest-ranked blocks and blocks leave for the first cause that holds. (R269) -/
  | iterationSlot
  /-- REORDER_RELEASE: Decided blocks are released to the outer decoder in arrival order. (R272) -/
  | reorderRelease (i : Fin 8)
  /-- BLOCK_SYNC_TRIAL: 16 blocks under a hypothesis are judged; block alignment locks or the next hypothesis is tried. (R260) -/
  | blockSyncTrial (i : Fin 8)
  /-- BLOCK_SYNC_LOST: 64 unconverged blocks in a row return the alignment to SEARCH. (R260) -/
  | blockSyncLost (i : Fin 8)
  /-- OUTER_GROUP_DECODE: A group of 16 outer codewords is decoded and delivered to LFR. (R263) -/
  | outerGroupDecode (i : Fin 8)
  /-- MARGIN_INTERVAL: Every 10 ms the pre-FEC BER and FEC_MARGIN are computed. (R277) -/
  | marginInterval (i : Fin 8)
  /-- TENDRIL_PACKET_START: At a grid point, the next waiting packet is chosen and sent. (R286) -/
  | tendrilPacketStart (i : Fin 8)
  /-- TENDRIL_PACKET_SENT: The last spread symbol of a packet leaves the transmitter. (R298) -/
  | tendrilPacketSent (i : Fin 8)
  /-- HELLO_INTERVAL: The HELLO interval expires and a HELLO is queued. (R287) -/
  | helloInterval (i : Fin 8)
  /-- TENDRIL_DETECTION: A correlator detection starts, pre-empts, or is discarded. (R290) -/
  | tendrilDetection (i : Fin 8) (cands : List TdlDetect)
  /-- TENDRIL_HEADER_DECODE: The four header codewords are decoded; a bad header ends the reception. (R291) -/
  | tendrilHeaderDecode (i : Fin 8) (decided : List TdlDecision)
  /-- TENDRIL_RECEPTION_END: A reception ends and the packet is checked by CRC and for a repeat. (R291) -/
  | tendrilReceptionEnd (i : Fin 8) (decided : List TdlDecision)
  /-- HELLO: A good HELLO is received. (R293) -/
  | hello (i : Fin 8)
  /-- PROPOSE: A received PROPOSE is accepted, refused or held. (R296) -/
  | propose (i : Fin 8)
  /-- ACCEPT: A received ACCEPT completes the agreement when its own ACCEPT has been sent. (R298) -/
  | accept (i : Fin 8)
  /-- REFUSE: A received REFUSE fails the commit with NO_ACK. (R296) -/
  | refuse (i : Fin 8)
  /-- CANCEL: A received CANCEL fails, returns or later returns the matching commit. (R300) -/
  | cancel (i : Fin 8)
  /-- RETURN: A received RETURN starts a FAR_END return of the vintage agreed under that change id. (R301) -/
  | returnMsg (i : Fin 8)
  /-- SWITCH: A received SWITCH raises TDL_SWITCH. (R302) -/
  | switch (i : Fin 8)
  /-- MAILBOX_PACKET_RX: A good host-type packet goes to the receive mailbox, or is dropped. (R294) -/
  | mailboxPacketRx (i : Fin 8)
  /-- PROPOSAL_HOLD_EXPIRY: The hold ends without a matching commit, and REFUSE reason 1 is sent. (R296) -/
  | proposalHoldExpiry (i : Fin 8)
  /-- PROPOSE_RETRY: Every retry superframes, an unaccepted PROPOSE is sent again. (R295) -/
  | proposeRetry (i : Fin 8)
  /-- AGREEMENT_CUTOFF: At B − 2 with agreements incomplete, the commit fails with NO_ACK. (R298) -/
  | agreementCutoff
  /-- MAILBOX_GO: TDL_MB_TX_CMD.go queues the mailbox packet, or is refused. (R294) -/
  | mailboxGo (i : Fin 8)
  /-- MAILBOX_RELEASE: TDL_MB_RX_STAT.release empties the receive mailbox. (R294) -/
  | mailboxRelease (i : Fin 8)
  /-- FAS_CANDIDATE_CHECK: A FAS candidate is tested at the next positions, and IF is declared or the candidate rejected. (R316) -/
  | fasCandidateCheck (i : Fin 8)
  /-- OUT_OF_FRAME: oof_n failed FAS tests declare OOF. (R317) -/
  | outOfFrame (i : Fin 8)
  /-- MULTIFRAME_ALIGN: Consecutive MFAS values reach IM, or mf_n failures declare OOM. (R318) -/
  | multiframeAlign (i : Fin 8)
  /-- FALSE_LOCK: false_n frames fail the MFAS rule before IM, and false lock is declared. (R319) -/
  | falseLock (i : Fin 8)
  /-- SFC_ADOPT: Consistent received SFC values are adopted. (R320) -/
  | sfcAdopt (i : Fin 8)
  /-- DELAY_BLOCK_RX: A multiframe delay block passes its CRC-16 and the round trip is computed. (R314) -/
  | delayBlockRx (i : Fin 8) (rxRef : BitVec 32)
  /-- DEFECT_EVALUATION: At each receive frame boundary, the defects, SSF and SD are evaluated. (R322) -/
  | defectEvaluation (i : Fin 8) (fr : FrameFacts)
  /-- SSF_HOLDOFF_EXPIRY: SSF holds for the hold-off, and a switch request is raised. (R325) -/
  | ssfHoldoffExpiry (i : Fin 8)
  /-- TX_SUPERFRAME_BOUNDARY: The transmit superframe counter increments, and scheduled line changes take effect. (R311) -/
  | txSuperframeBoundary (i : Fin 8)
  /-- MEMBER_NUMBERING_ADOPT: Two agreeing valid records set a member's multiframe numbering. (R338) -/
  | memberNumberingAdopt (c : Fin 512) (m : Fin 8) (arr : Int)
  /-- MEASURING_END: MEASURING ends, D_c is set and the channel becomes ALIGNED. (R340) -/
  | measuringEnd (c : Fin 512) (late : Bool)
  /-- DC_GROWTH_STEP: D_c grows by one frame toward covering a late member. (R342) -/
  | dcGrowthStep (c : Fin 512)
  /-- OUTPUT_FRAME_READ: At read time a frame is delivered, repaired from the other leg, or marked absent. (R346) -/
  | outputFrameRead (c : Fin 512) (errs : List (BitVec 29 × Fin 68 × BitVec 8))
  /-- SELECTOR_EVALUATION: At each output frame boundary, the selector takes the highest request and selects a leg. (R347) -/
  | selectorEvaluation (c : Fin 512)
  /-- PS_CLEAR: Code CLEAR ends any command in force. (R348) -/
  | psClear (c : Fin 512)
  /-- PS_LOCKOUT: Code LO applies lockout to leg A. (R348) -/
  | psLockout (c : Fin 512)
  /-- PS_FORCED_SWITCH: Code FS forces selection of leg B. (R348) -/
  | psForcedSwitch (c : Fin 512)
  /-- PS_MANUAL_A: Code MS_A manually selects leg A. (R348) -/
  | psManualA (c : Fin 512)
  /-- PS_MANUAL_B: Code MS_B manually selects leg B. (R348) -/
  | psManualB (c : Fin 512)
  /-- REALIGN: MAP_CH_CMD.realign sends the channel to MEASURING. (R340) -/
  | realign (c : Fin 512)
  /-- WTR_EXPIRY: The wait-to-restore timer expires and leg A is selected again. (R349) -/
  | wtrExpiry (c : Fin 512)
  /-- MEMBER_MISMATCH: Three bad records in a row declare a member mismatched. (R351) -/
  | memberMismatch (c : Fin 512) (m : Fin 8)
  /-- CHANNEL_MESSAGE_VERIFY: A channel record arrives; the message verifies, fails or is unverified, and dAUTH is judged. (R372) -/
  | channelMessageVerify (c : Fin 512)
  /-- KEY_LOAD_SLOT: CIP_UP_KEY_CMD op 0 unwraps a key into a slot. (R367) -/
  | keyLoadSlot (f : Fin 16)
  /-- KEY_ERASE_SLOT: CIP_UP_KEY_CMD op 1 zeroes a slot and marks it empty. (R369) -/
  | keyEraseSlot (f : Fin 16)
  /-- KEK_LOAD: CIP_UP_KEY_CMD op 2 loads a VF's KEK, from the PF only. (R366) -/
  | kekLoad (f : Fin 16)
  /-- KEK_ERASE: CIP_UP_KEY_CMD op 3 erases a VF's KEK, from the PF only. (R368) -/
  | kekErase (f : Fin 16)
  /-- MSG_QUEUE_GO: CIP_UP_MSG_CMD.go queues a message descriptor, or is refused when 8 are pending. (R374) -/
  | msgQueueGo (f : Fin 16)
  /-- MSG_SERVICE_GRANT: The engine is granted to a function's message, and processing starts. (R375) -/
  | msgServiceGrant (host : List (BitVec 58 × BitVec 32)) (err : Bool)
  /-- MSG_SERVICE_END: A service message ends and its response is placed. (R376) -/
  | msgServiceEnd (f : Fin 16) (err : Bool)
  /-- CLIENT_FRAME_RX: A client frame is received, marked as needed, and mapped into GFP. (R380) -/
  | clientFrameRx (k : Fin 576) (frame : List Byte) (err : Bool) (fecCorr fecUnc : Nat)
  /-- CLIENT_FRAME_EGRESS: A frame leaves to the host, with its PTP correction applied. (R393) -/
  | clientFrameEgress (k : Fin 576)
  /-- CLIENT_MGMT_PERIOD: Every 100 ms a management frame is sent while the host-side fault holds. (R384) -/
  | clientMgmtPeriod (k : Fin 576)
  /-- CLIENT_INDICATION_EXPIRY: A received indication lapses 300 ms after its last arrival. (R384) -/
  | clientIndicationExpiry (k : Fin 576) (upi : BitVec 8)
  /-- EGRESS_REPLACEMENT: At each output frame boundary, what the client sends to the host is chosen. (R385) -/
  | egressReplacement (k : Fin 576)
  /-- CALENDAR_SWITCH: The FlexE calendar-switch handshake completes. (R387) -/
  | calendarSwitch (g : Fin 16) (tx rx ohLock mismatch : Bool)
  /-- LANE_DEEP_EXIT: A lane finishes leaving DEEP, and any held state request takes effect. (R389) -/
  | laneDeepExit (l : Fin 64)
  /-- CELLAR_TRAIN: Channel training starts on entry to PREPARE. (R400) -/
  | cellarTrain
  /-- CELLAR_RETRAIN: CEL_CMD.retrain trains all channels, or is refused. (R400) -/
  | cellarRetrain
  /-- CELLAR_TRAIN_DONE: Training ends; avail is set, or CEL_TRAIN_FAIL is raised. (R400) -/
  | cellarTrainDone (ok dense : BitVec 8)
  /-- ACC_READ: CEL_ACC op 0 reads a 64-byte block. (R416) -/
  | accRead (errs : List (Fin 68 × BitVec 8))
  /-- ACC_WRITE: CEL_ACC op 1 writes a block with computed check bytes. (R416) -/
  | accWrite
  /-- ACC_RAW_WRITE: CEL_ACC op 2 writes data and check bytes as given, in PROVING only. (R417) -/
  | accRawWrite
  /-- ACC_DONE: A window command completes within 50 µs. (R416) -/
  | accDone
  /-- TOUCH_GO: CEL_TOUCH_CMD.go starts reading every valid block of a range. (R415) -/
  | touchGo (errs : List (BitVec 29 × Fin 68 × BitVec 8))
  /-- CEL_TOUCH_DONE: A TOUCH ends and raises CEL_TOUCH_DONE. (R415) -/
  | celTouchDone
  /-- PPR_GO: CEL_PPR_CMD.go requests post-package repair of a row. (R419) -/
  | pprGo (resource : Bool)
  /-- CEL_PPR_DONE: The repair ends with a status, and CEL_PPR_DONE is raised. (R419) -/
  | celPprDone (clean : Bool)
  /-- MEM_INJ_ARM: CEL_MEM_INJ.arm arms symbol inversion for the next write of a memory class. (R417) -/
  | memInjArm
  /-- CAND_GATE_100MS: A 100 ms frequency result updates a candidate's qualification. (R439) -/
  | candGate100ms (i : Fin 16) (off : BitVec 24)
  /-- CAND_GATE_1MS: At the 1 ms gate the hard limit is checked and the selector chooses. (R442) -/
  | candGate1ms (offs : List (Fin 16 × BitVec 24))
  /-- CAND_WTR_EXPIRY: A candidate finishes WTR and becomes QUALIFIED. (R440) -/
  | candWtrExpiry (i : Fin 16)
  /-- CAND_AVAIL_LOSS: A candidate loses availability, becomes UNAVAILABLE, and TIM_CAND_FAIL is raised. (R440) -/
  | candAvailLoss (i : Fin 16)
  /-- SEL_HOLDOFF_EXPIRY: The hold-off ends and the selector takes the best candidate. (R443) -/
  | selHoldoffExpiry
  /-- SEL_FORCE: TIM_SEL_CMD FORCE selects an available candidate. (R444) -/
  | selForce
  /-- SEL_MANUAL: TIM_SEL_CMD MANUAL selects a qualified candidate. (R444) -/
  | selManual
  /-- SEL_CLEAR: TIM_SEL_CMD CLEAR returns the selector to automatic selection. (R444) -/
  | selClear
  /-- SEL_LOCKED: The phase error stays within ±2 ns for 1 s, and the selector becomes LOCKED. (R445) -/
  | selLocked
  /-- PHASE_STEP_GO: TIM_PHS_CMD.go adds to the remaining phase step, and slewing begins. (R450) -/
  | phaseStepGo
  /-- PHASE_SLEW_DONE: The remaining step reaches 0 and busy clears. (R450) -/
  | phaseSlewDone
  /-- TOD_SET: TIM_TOD_CMD.set loads device time. (R453) -/
  | todSet
  /-- TOD_ADJ: TIM_TOD_CMD.adj adds a signed offset to device time. (R453) -/
  | todAdj
  /-- TOD_WRAP: Device time wraps, and TIM_WRAP is raised when enabled. (R452) -/
  | todWrap
  /-- TIMER_ARM: TIM_TMR_CTL.arm arms a timer, which fires at once if its target is late. (R454) -/
  | timerArm (n : Fin 16)
  /-- TIMER_DISARM: TIM_TMR_CTL.disarm stops a timer without a firing. (R455) -/
  | timerDisarm (n : Fin 16)
  /-- TIMER_FIRE: A timer reaches its target and applies its action, then re-arms if periodic. (R455) -/
  | timerFire (n : Fin 16)
  /-- LTC_MULTIFRAME: A valid delay block steps or trims device time toward the far end. (R456) -/
  | ltcMultiframe
  /-- LINK_ATTEMPT_START: A port starts a bring-up attempt. (R465) -/
  | linkAttemptStart (p : Fin 6)
  /-- IDENT: A received IDENT makes the port LINKED, or MISMATCH. (R465) -/
  | ident (p : Fin 6)
  /-- LINK_ATTEMPT_TIMEOUT: An attempt ends without LINKED; fails counts and backoff or ABSENT follows. (R466) -/
  | linkAttemptTimeout (p : Fin 6)
  /-- ATTEMPT_SIGNAL_LOSS: A loss of signal during an attempt restarts the attempt. (R466) -/
  | attemptSignalLoss (p : Fin 6)
  /-- LINK_BACKOFF_EXPIRY: The backoff wait ends and the next attempt starts. (R466) -/
  | linkBackoffExpiry (p : Fin 6)
  /-- ABSENT_PROBE: Every 10 s, or on signal detect, an ABSENT port probes. (R468) -/
  | absentProbe (p : Fin 6)
  /-- MISMATCH_RETRY: 10 s after MISMATCH, the port tries again. (R467) -/
  | mismatchRetry (p : Fin 6)
  /-- LINK_LOSS: A LINKED port loses signal or alignment, and PRY_LINK_DOWN is raised. (R469) -/
  | linkLoss (p : Fin 6)
  /-- PORYON_FRAME_RX: A link frame is received, checked and assembled into its message. (R462) -/
  | poryonFrameRx (p : Fin 6) (content : List Byte) (codes : Bool)
  /-- MESSAGE: A complete MESSAGE is placed in the port's receive queue, or dropped. (R464) -/
  | message (p : Fin 6)
  /-- HEARTBEAT_SEND: Every 250 µs, a twin sends HEARTBEAT on TWIN. (R479) -/
  | heartbeatSend
  /-- HEARTBEAT: A HEARTBEAT is received from the partner or the manager. (R479) -/
  | heartbeat (p : Fin 6)
  /-- TWIN_HEARTBEAT_LOSS: No heartbeat for 1 ms declares the partner lost, leading to takeover or SOLO. (R479) -/
  | twinHeartbeatLoss
  /-- PEER_ACTIVE_ASSERT: An ACTIVE device sees PEER_ACTIVE with no heartbeat and is deposed. (R480) -/
  | peerActiveAssert
  /-- TAKEOVER_FULL_AMPLITUDE: The new ACTIVE reaches full amplitude and becomes SOLO. (R473) -/
  | takeoverFullAmplitude
  /-- TWIN_RELEASE: PRY_TWIN_CMD.release starts a commanded release, or is refused. (R482) -/
  | twinRelease
  /-- RELEASE_ACK_TIMEOUT: No acknowledgement within 2 ms ends the release refused. (R482) -/
  | releaseAckTimeout
  /-- RELEASE_BOUNDARY: At superframe S, the ACTIVE role moves between the twins. (R482) -/
  | releaseBoundary
  /-- TWIN_DETACH: PRY_TWIN_CMD.detach ends the pair and both become SOLO. (R473) -/
  | twinDetach
  /-- TWIN_RESYNC: PRY_TWIN_CMD.resync resends the whole mirror set. (R475) -/
  | twinResync
  /-- PAIR: A received PAIR message carries join, release or resynchronisation control. (R474) -/
  | pair
  /-- JOIN_TIMEOUT: 60 s in JOINING returns the pair to SOLO. (R473) -/
  | joinTimeout
  /-- MIRROR: The STANDBY receives and applies a mirror item, or requests a resync on a gap. (R477) -/
  | mirror
  /-- DOMAIN: A DOMAIN message assigns or releases a worker's number. (R486) -/
  | domain (p : Fin 6)
  /-- MANAGER_HEARTBEAT_SEND: Every 10 ms the manager sends HEARTBEAT on each linked DN port. (R487) -/
  | managerHeartbeatSend
  /-- MANAGER_LOSS: No manager heartbeat for 50 ms orphans the worker and raises MGR_LOST. (R487) -/
  | managerLoss
  /-- EVENT: A TELEM EVENT is forwarded up, or placed in the manager's telemetry stream. (R489) -/
  | event (p : Fin 6)
  /-- RFW_READ: PRY_RFW_CMD.go with op 0 starts a remote read. (R490) -/
  | rfwRead (w : Fin 4)
  /-- RFW_WRITE: PRY_RFW_CMD.go with op 1 starts a remote write. (R490) -/
  | rfwWrite (w : Fin 4)
  /-- RESPONSE: A TUNNEL RESPONSE ends the transaction, or is discarded if it is late. (R491) -/
  | response (p : Fin 6)
  /-- RFW_TIMEOUT: No response by PRY_RFW_CFG.to ends the transaction with TIMEOUT. (R491) -/
  | rfwTimeout (w : Fin 4)
  /-- TUNNEL_REQUEST_RX: A TUNNEL READ or WRITE is served at the target, or forwarded by number. (R490) -/
  | tunnelRequestRx (p : Fin 6)
  /-- MON_SEQ_GO: MON_SEQ_CTL.go, or its timer, starts all sequences. (R495) -/
  | monSeqGo
  /-- MON_SEQ_STOP: MON_SEQ_CTL.stop ends the sequences after the conversion in progress. (R495) -/
  | monSeqStop
  /-- ACC_SNAP: MON_ACC_CMD.snap copies the accumulators to the read bank. (R499) -/
  | accSnap
  /-- INJECTION_TRIGGER: An injection slot is triggered or arms. (R502) -/
  | injectionTrigger (q : Fin 16)
  /-- INJECTION_DONE: A burst completes and MON_INJ_DONE is raised. (R503) -/
  | injectionDone (q : Fin 16)
  /-- INJECTION_MISSED: A held injection passes its deadline and is dropped as MISSED. (R506) -/
  | injectionMissed (q : Fin 16)
  /-- BG_CAL_TURN: A background calibration turn moves through MATCH, TAKE and HAND BACK. (R504) -/
  | bgCalTurn
  /-- FG_CAL_START: MON_CAL_CMD.fg starts foreground calibration of the masked converters. (R505) -/
  | fgCalStart
  /-- FG_CAL_END: Foreground calibration ends after 256 µs, and held injections are served. (R505) -/
  | fgCalEnd
  /-- MSYNC_FALL: A falling edge on MSYNC resets every decimation chain. (R510) -/
  | msyncFall
  /-- SYNC_GO: MON_SYNC_CMD.go drives MSYNC low for 200 ns. (R510) -/
  | syncGo
  /-- DC_RESP_REQUEST: A write to MON_DC_RESP.r starts, holds or replaces a cross-fade. (R511) -/
  | dcRespRequest (c : Fin 64) (r : Fin 32) (fade : BitVec 10)
  /-- DC_FADE_END: A cross-fade ends and any held request starts. (R511) -/
  | dcFadeEnd (c : Fin 64)
  /-- COUNTER_WINDOW_BOUNDARY: At each window boundary the counters are latched into the snapshot bank. (R514) -/
  | counterWindowBoundary
  /-- MON_SNAP: Latched values reach the snapshot bank, the sequence increments and MON_SNAP is raised. (R514) -/
  | monSnap
  /-- COUNTER_SELECT: A write to MON_CNT_SEL latches a live counter. (R517) -/
  | counterSelect (v : Word)
  /-- SENTINEL_PASS_START: At each interval, a pass measures the 96 sentinel sites. (R519) -/
  | sentinelPassStart
  /-- SENTINEL_PASS_END: A pass ends, MON_AGE_STAT updates and AGE_PASS is raised. (R519) -/
  | sentinelPassEnd (sites : List (Option (Nat × Nat))) (eyes : List Nat)
  /-- AGEING_RECORD_WRITE: Every 24 h, or on request for DORMANT, an ageing record is written to the cask. (R521) -/
  | ageingRecordWrite (hours : Nat) (ok1 ok2 : Bool)
  /-- AVS_VOUT: A changed vreq is sent over AVSBus and confirmed, retried up to 8 times. (R522) -/
  | avsVout (ok : Bool)
  /-- CASK_WIN_READ: GLB_CASK_WIN op 0 reads three bytes of the cask. (R555) -/
  | caskWinRead
  /-- CASK_WIN_PROGRAM: GLB_CASK_WIN op 1 programs three bytes of the cask. (R555) -/
  | caskWinProgram
  /-- CASK_WIN_ERASE: GLB_CASK_WIN op 2 erases a 4 KiB sector of the cask. (R555) -/
  | caskWinErase
  /-- FES_WRITE: GLB_FES_CMD.go with op 0 sends a write frame to the front end, with retries. (R557) -/
  | fesWrite (i : Fin 8)
  /-- FES_READ: GLB_FES_CMD.go with op 1 sends a read frame to the front end, with retries. (R557) -/
  | fesRead (i : Fin 8)
  /-- OTP_PROG: The JTAG instruction OTP_PROG programs the device KEK or the owner key hash. (R556) -/
  | otpProg (field : Byte) (value : BitVec 384) (vpp tck : Bool)
  /-- UP_RECEIVER_FIRST_LOCK: On a worker without PCIe, the first lock of the UP port receiver is t0 of power-up, starts the OSCDLY count and latches the straps. (R54) -/
  | upReceiverFirstLock (st : Straps)
  /-- HOST_CLOCK_FOUND: During power-up the fallback monitor first finds the host clock inside its window, and the OSCDLY delay is counted again from that moment. (R41) -/
  | hostClockFound
  /-- CANDIDATE_AVAILABLE: A reference candidate whose source condition comes to hold becomes available and enters WTR. (R440) -/
  | candidateAvailable (i : Fin 16)
  /-- HOST_SIDE_CONDITION_CHANGE: A client port gains or loses PCS lock, high BER, or a received Local or Remote Fault on its host-side receive lanes. (R384) -/
  | hostSideConditionChange (p : Fin 64) (h : HostSide)
  /-- PORT_IDLE_TIMEOUT: A LINKED Poryon port with no frame to send for idle µs, and keep at 0, enters P-QUIET. (R471) -/
  | portIdleTimeout (p : Fin 6)
  /-- CONVERSION_CLOCK_EDGE: At each 20 MHz conversion clock edge the monitor converters sample, update accumulators, over-range and dirty counts, and feed the decimation chains, detectors and telemetry. (R497) -/
  | conversionClockEdge (codes : List Int)
  /-- CASK_WIN_DONE: A cask window read, program or erase finishes at the flash, busy clears, and err is set if the flash status failed. (R555) -/
  | caskWinDone (err : Bool)
  /-- FES_FRAME_DONE: A front-end SPI frame, with its retries, ends; busy clears, read data lands in GLB_FES_DATA or err is set. (R557) -/
  | fesFrameDone (i : Fin 8) (tries : List (BitVec 24 × Byte))
  /-- CAPTURE_SEGMENT_FILLED: The 512 × post instants after the trigger have been recorded, and the segment moves from filling to draining. (R202) -/
  | captureSegmentFilled
  deriving DecidableEq, Repr

end Sys2Proof
end

