-- ==== Sys2Proof/Decode.lean ====
section
/-!
DEFINITION. The operation table gives no row any bits: the block's commands reach it as operands, never as words, so no word
spells one. (The Tsuile words of chapter 04, which the block's own sequencers fetch, are read in Machine/Tsuile.lean.)
-/

namespace Sys2Proof

/-- The command that a word spells by the table's bits: none, as the table gives no row bits. DESIGN CHOICE (log 34). -/
def decodeTableWord (_nbits _w : Nat) : Option Instr := none

end Sys2Proof
end

