-- ==== Sys2Proof/Config.lean ====
section
/-!
DEFINITION. What the spec leaves open, as constants without a body: the free values, and the functions of outside
standards that the spec names and does not give (FIPS 180-4, FIPS 186-5, FIPS 197, NIST SP 800-38D, RFC 3394).
Nothing can be proved of a value of any of them, so a claim holds whatever they are (notes/assumptions/2.md, 3.md).
-/

namespace Sys2Proof

/-- Free value number n, 24 bits: a value that the spec does not state (notes/assumptions/2.md). DESIGN CHOICE (log 2). -/
opaque Config.freeWord : Nat → BitVec 24

/-- Whether the device rounds num/den up where no rule states the rounding. DESIGN CHOICE (log 2). -/
opaque Config.roundUp : Int → Nat → Bool

/-- Free choice number n: a yes or no that the spec does not state. DESIGN CHOICE (log 2). -/
opaque Config.freeBool : Nat → Bool

/-- The library programs of the program set with this identifier are Sorwick's own code (R62): the device does not check it,
and no rule says which identifiers are. DESIGN CHOICE (log 39). -/
opaque Config.sorwickSet : Nat → Bool

/-- SHA-384 of a byte string (FIPS 180-4, named by R63 and R554): 384 bits. DESIGN CHOICE (log 3). -/
opaque Config.sha384 : List (BitVec 8) → BitVec 384

/-- ECDSA P-384 verification (FIPS 186-5, R63): public key (X, Y), message digest, signature (r, s). DESIGN CHOICE (log 3). -/
opaque Config.ecdsaP384 : BitVec 384 → BitVec 384 → BitVec 384 → BitVec 384 → BitVec 384 → Bool

/-- AES-256 of one block (FIPS 197): key, plaintext block. DESIGN CHOICE (log 3). -/
opaque Config.aes256 : BitVec 256 → BitVec 128 → BitVec 128

/-- The inverse of AES-256 of one block (FIPS 197): key, ciphertext block. DESIGN CHOICE (log 3). -/
opaque Config.aes256Inv : BitVec 256 → BitVec 128 → BitVec 128

/-- The PCI Vendor ID of Sorwick (R152): the manual does not print it. DESIGN CHOICE (log 3). -/
opaque Config.vendorId : BitVec 16

/-- Product in GF(2^128) of GHASH (NIST SP 800-38D). DESIGN CHOICE (log 3). -/
opaque Config.ghashMul : BitVec 128 → BitVec 128 → BitVec 128

/-- FEC_MARGIN where no bit, or half of the bits or more, were corrected: Q has no value there (R277). Corrected bits, sent
bits. DESIGN CHOICE (log 2). -/
opaque Config.marginOpen : Nat → Nat → BitVec 12

/-- A ratio in dB one of whose powers is 0 (R216, R220, R233). DESIGN CHOICE (log 2). -/
opaque Config.ratioOpen : Nat → Nat → BitVec 24

/-- Wavelength of the carrier of a slice, in pm (R207): the optics outside set it. DESIGN CHOICE (log 17). -/
opaque Config.carrierPm : Nat → Nat

/-- The power that counts as ADC full scale, in units of 2^-20 (taps 6 and 7 of R233). DESIGN CHOICE (log 17). -/
opaque Config.adcFullScale : Nat

/-! Signal processing of real numbers (chapters 08 and 09): the manual says what each stage computes and prints neither
coefficients nor loop filters nor the rounding inside it. Samples are C24 values, in units of 2^-10, unless said otherwise. -/

/-- The overlap-save filter of R207 for a bulk value in ps/nm at a wavelength in pm and a symbol rate in GBd, on one
polarisation: the samples before, and the samples to filter; results in units of 2^-20. DESIGN CHOICE (log 17). -/
opaque Config.cdFilter : Int → Nat → Nat → List Cx → List Cx → List Cx

/-- The clock offset in 2^-10 ppm that a timing loop with a bandwidth of num/den Hz reaches over samples, from the one before
them (R210). DESIGN CHOICE (log 17). -/
opaque Config.timingStep : Nat → Nat → Int → List Dual → Int

/-- Samples interpolated to the far end's symbol clock at a clock offset (R210); results in units of 2^-20.
DESIGN CHOICE (log 17). -/
opaque Config.interpolate : Int → List Dual → List Dual

/-- Decision-directed refinement of the phase of data symbols of a constellation code (R218); results in units of 2^-20.
DESIGN CHOICE (log 17). -/
opaque Config.refine : Nat → List Dual → List Dual

/-- The frequency-domain gain stage of R244: the amplitude factor, in units of 2^-64, at each frequency in units of 2^-20 R,
and the samples; results in the unit of the samples. DESIGN CHOICE (log 17). -/
opaque Config.gainStage : (Int → Int) → List Dual → List Dual

/-- The update of one parity check in a layer of the inner decoder: what its bits tell it, and what it tells each of them, LLRs in
units of 2^-10 (R252, R266). DESIGN CHOICE (log 17). -/
opaque Config.checkUpdate : List Int → List Int

/-- The word of the parity-check ROM at (rate, row, entry), R252: the manual does not print the ROM. DESIGN CHOICE (log 3). -/
opaque Config.pcmRom : Nat → Nat → Nat → BitVec 24

/-- Byte b of the sector in which the save number n of a calibration generation failed (R192): no rule says what the cells hold.
DESIGN CHOICE (log 2). -/
opaque Config.freeSample : Nat → Nat → BitVec 8

/-- Bank and row of a check group: the manual gives no mapping (CEL_ELOG_CE, CEL_ELOG_UE). DESIGN CHOICE (log 2). -/
opaque Config.cellarRow : Nat → BitVec 21

/-- The phase from which dither reference k starts, in 1/40,000,000 of a turn (R498): the manual gives none.
DESIGN CHOICE (log 2). -/
opaque Config.ditherStart : Nat → Nat

/-- Coefficient k of compensator response r, 1 to 31, in units of 2^-23 (R509): the manual names the responses of the ROM and
prints no coefficient. DESIGN CHOICE (log 2). -/
opaque Config.compRom : Nat → Nat → BitVec 24

/-- Factory baseline of sentinel site k, in 0.1 ppm (R518): the manual does not give its place in the cask factory data.
DESIGN CHOICE (log 2). -/
opaque Config.siteBaseline : Nat → BitVec 23

/-- The hash of the manufacturer's public key, fused in OTP (R554): the manual does not print it. DESIGN CHOICE (log 3). -/
opaque Config.makerKeyHash : BitVec 384

end Sys2Proof
end

