-- ==== Sys2Proof/Machine/Tab.lean ====
section
/-!
DEFINITION. Sparse tables: the one canonical form in which the state holds everything that the spec replicates
(registers, memories, per-slice and per-channel records): a list of (index, value) pairs with rising indices
and no entry equal to the value that an unlisted index reads as.
-/

namespace Sys2Proof.Machine

/-- A sparse table of `α`: (index, value) pairs. DEDUCED (log 35). -/
abbrev Tab (α : Type) := List (Nat × α)

/-- The value at index `n`, `d` where nothing is listed. DEDUCED (log 35). -/
def tabGet {α : Type} (d : α) : Tab α → Nat → α
  | [], _ => d
  | (k, v) :: t, n => if k = n then v else tabGet d t n

/-- Every entry of index `n` removed. -/
def tabErase {α : Type} : Tab α → Nat → Tab α
  | [], _ => []
  | (k, v) :: t, n => if k = n then tabErase t n else (k, v) :: tabErase t n

/-- The entry (n, v) in its place, replacing an entry of the same index. -/
def tabIns {α : Type} : Tab α → Nat → α → Tab α
  | [], n, v => [(n, v)]
  | (k, w) :: t, n, v =>
    if n = k then (n, v) :: t else if n < k then (n, v) :: (k, w) :: t else (k, w) :: tabIns t n v

/-- A write: the value that an unlisted index reads as removes the entry. DEDUCED (log 35). -/
def tabPut {α : Type} [DecidableEq α] (d : α) (t : Tab α) (n : Nat) (v : α) : Tab α :=
  if v = d then tabErase t n else tabIns t n v

/-- The canonical form: indices rising strictly from `lo`, no entry equal to `d`. -/
def tabWfFrom {α : Type} [DecidableEq α] (d : α) : Nat → Tab α → Bool
  | _, [] => true
  | lo, (k, v) :: t => decide (lo ≤ k) && decide (v ≠ d) && tabWfFrom d (k + 1) t

/-- The canonical form of a table. DEDUCED (log 35). -/
def tabWf {α : Type} [DecidableEq α] (d : α) (t : Tab α) : Bool := tabWfFrom d 0 t

end Sys2Proof.Machine
end

