-- ==== Sys2Proof/Machine/Regs.lean ====
section
/-!
DEFINITION. The register fields of the fabric, one definition per field, from the field tables of the chapters (R5, R6, R10, R11, R573):
address of the register at index 0, the stride of each index (outermost first), the bit range, the class and the reset value.
A field is named <register>_<field> as the manual names them.
-/

namespace Sys2Proof.Machine

/-- Register classes, R6. -/
inductive Cls where
  | vintage | live | status | command | kept
  deriving DecidableEq, Repr

/-- One field of a (possibly replicated) register: R10, R11, R573. `dims` gives, for each index, outermost first, its first value, its last value and its address stride. -/
structure Fld where
  addr  : Nat
  dims  : List (Nat × Nat × Nat)
  hi    : Nat
  lo    : Nat
  cls   : Cls
  reset : List Nat → Nat

/-- A register: its name, its address at index 0, its index dimensions and its fields. -/
structure Reg where
  name   : String
  addr   : Nat
  dims   : List (Nat × Nat × Nat)
  fields : List Fld

/-- A reset value that no index changes. -/
def resetK (n : Nat) : List Nat → Nat := fun _ => n

/-- A reset value for index 0 and another for every other index (the solera defaults of function 0). -/
def resetF0 (a b : Nat) : List Nat → Nat
  | 0 :: _ => a
  | _ => b

/-- GLB_FAULT_EN: 1 for each F-class event of the table "Device events" (R542). -/
def faultEnReset : List Nat → Nat
  | [0] => 0x062F32
  | [1] => 0x151026
  | [2] => 0x780007
  | [3] => 0x000020
  | [4] => 0x000000
  | [5] => 0x000000
  | _ => 0

/-- HIF_EVT_MAP.en: 1 for e < 128 (R171). -/
def evtMapEnReset : List Nat → Nat
  | [e] => if e < 128 then 1 else 0
  | _ => 0

/-- HIF_EVT_MAP.vec: 16 + e (R171). -/
def evtMapVecReset : List Nat → Nat
  | [e] => 16 + e
  | _ => 0

/-- CEL_SOL_CFG.weight: 8, 4, 2, 1 for k = 3, 4, 5, 6 (R434). -/
def celWeightReset : List Nat → Nat
  | [3] => 8
  | [4] => 4
  | [5] => 2
  | _ => 1

/-- CEL_SOL_CFG.entry: 2 for k = 3, else 0. -/
def celEntryReset : List Nat → Nat
  | [3] => 2
  | _ => 0

/-- TXD_PE_COEF: 0x1000 for k = 16, else 0. -/
def peCoefReset : List Nat → Nat
  | [_, _, k] => if k = 16 then 0x1000 else 0
  | _ => 0

/-- The 128 root-raised-cosine coefficients of R281 (12-bit two's complement), k = 0 to 127. -/
def rrcCoef : List Nat :=
  [2047, 2045, 2041, 2035, 2028, 2018, 2006, 1993, 1978, 1961, 1942, 1921, 1899, 1875, 1849, 1822]
  ++ [1793, 1762, 1731, 1698, 1663, 1627, 1590, 1552, 1513, 1473, 1432, 1390, 1347, 1303, 1259, 1214]
  ++ [1169, 1123, 1077, 1031, 984, 937, 890, 843, 797, 750, 704, 658, 612, 567, 522, 478]
  ++ [434, 391, 349, 308, 267, 227, 189, 151, 114, 79, 45, 11, 4075, 4044, 4015, 3987]
  ++ [3960, 3934, 3910, 3887, 3865, 3845, 3826, 3809, 3793, 3778, 3764, 3753, 3742, 3733, 3725, 3718]
  ++ [3713, 3709, 3706, 3704, 3703, 3704, 3706, 3709, 3712, 3717, 3723, 3730, 3737, 3745, 3755, 3764]
  ++ [3775, 3786, 3798, 3810, 3823, 3836, 3850, 3864, 3878, 3893, 3908, 3923, 3938, 3953, 3968, 3983]
  ++ [3998, 4013, 4028, 4043, 4057, 4071, 4085, 3, 16, 29, 41, 53, 65, 76, 87, 97]

/-- TDL_TX_FILT: the reset value that R281 gives for k. -/
def txFiltReset : List Nat → Nat
  | [_, k] => rrcCoef.getD k 0
  | _ => 0

namespace F

def GLB_IDENT_part : Fld := ⟨0x000000, [], 23, 16, .status, resetK 200⟩
def GLB_IDENT_slice_mask : Fld := ⟨0x000000, [], 15, 8, .status, resetK 0xFF⟩
def GLB_IDENT_rev_letter : Fld := ⟨0x000000, [], 7, 4, .status, resetK 1⟩
def GLB_IDENT_rev_digit : Fld := ⟨0x000000, [], 3, 0, .status, resetK 1⟩
def GLB_STRAP_oscdly : Fld := ⟨0x000001, [], 23, 22, .status, resetK 0⟩
def GLB_STRAP_role : Fld := ⟨0x000001, [], 21, 20, .status, resetK 0⟩
def GLB_STRAP_twin_side : Fld := ⟨0x000001, [], 19, 19, .status, resetK 0⟩
def GLB_STRAP_nopcie : Fld := ⟨0x000001, [], 18, 18, .status, resetK 0⟩
def GLB_TEMP_temp : Fld := ⟨0x000002, [], 23, 14, .status, resetK 0⟩
def GLB_TEMP_sensor : Fld := ⟨0x000002, [], 13, 9, .status, resetK 0⟩
def GLB_CASK_STAT_present : Fld := ⟨0x000003, [], 23, 23, .status, resetK 0⟩
def GLB_CASK_STAT_dtr : Fld := ⟨0x000003, [], 22, 22, .status, resetK 0⟩
def GLB_CASK_STAT_dir_bad : Fld := ⟨0x000003, [], 21, 21, .kept, resetK 0⟩
def GLB_CASK_STAT_rescue_rom : Fld := ⟨0x000003, [], 20, 20, .status, resetK 0⟩
def GLB_CASK_STAT_size : Fld := ⟨0x000003, [], 19, 12, .status, resetK 0⟩
def GLB_MODE_req : Fld := ⟨0x000010, [], 23, 21, .live, resetK 0⟩
def GLB_MODE_mode : Fld := ⟨0x000010, [], 20, 18, .status, resetK 0⟩
def GLB_MODE_prev : Fld := ⟨0x000010, [], 17, 15, .status, resetK 0⟩
def GLB_MODE_busy : Fld := ⟨0x000010, [], 14, 14, .status, resetK 0⟩
def GLB_MODE_refused : Fld := ⟨0x000010, [], 13, 13, .kept, resetK 0⟩
def GLB_MODE_boot_done : Fld := ⟨0x000010, [], 12, 12, .status, resetK 1⟩
def GLB_MODE_boot_img : Fld := ⟨0x000010, [], 11, 11, .status, resetK 0⟩
def GLB_MODE_no_image : Fld := ⟨0x000010, [], 10, 10, .status, resetK 0⟩
def GLB_RST_CAUSE_cold : Fld := ⟨0x000011, [], 23, 23, .kept, resetK 0⟩
def GLB_RST_CAUSE_fund : Fld := ⟨0x000011, [], 22, 22, .kept, resetK 0⟩
def GLB_RST_CAUSE_cc : Fld := ⟨0x000011, [], 21, 21, .kept, resetK 0⟩
def GLB_RST_CAUSE_sq : Fld := ⟨0x000011, [], 20, 20, .kept, resetK 0⟩
def GLB_RST_CAUSE_slice : Fld := ⟨0x000011, [], 19, 19, .kept, resetK 0⟩
def GLB_RST_CMD_cc : Fld := ⟨0x000012, [], 23, 23, .command, resetK 0⟩
def GLB_RST_CMD_slice : Fld := ⟨0x000012, [], 22, 22, .command, resetK 0⟩
def GLB_RST_CMD_sel : Fld := ⟨0x000012, [], 21, 19, .live, resetK 0⟩
def GLB_SLICE_CTL_en : Fld := ⟨0x000018, [(0, 7, 1)], 23, 23, .vintage, resetK 0⟩
def GLB_SLICE_STAT_state : Fld := ⟨0x000020, [(0, 7, 1)], 23, 22, .status, resetK 0⟩
def GLB_SLICE_STAT_wake_pending : Fld := ⟨0x000020, [(0, 7, 1)], 21, 21, .status, resetK 0⟩
def GLB_SLICE_STAT_wake_fail : Fld := ⟨0x000020, [(0, 7, 1)], 20, 20, .kept, resetK 0⟩
def GLB_SLICE_STAT_fused_off : Fld := ⟨0x000020, [(0, 7, 1)], 19, 19, .status, resetK 0⟩
def GLB_SLICE_STAT_wake_step : Fld := ⟨0x000020, [(0, 7, 1)], 18, 16, .status, resetK 0⟩
def GLB_SLICE_STAT_last_drain : Fld := ⟨0x000020, [(0, 7, 1)], 15, 0, .status, resetK 0⟩
def GLB_HOST_CFG_silence : Fld := ⟨0x000030, [], 23, 16, .live, resetK 60⟩
def GLB_HOST_STAT_unatt : Fld := ⟨0x000031, [], 23, 23, .status, resetK 0⟩
def GLB_REC_CFG_delay : Fld := ⟨0x000032, [], 23, 12, .live, resetK 0⟩
def GLB_REC_CFG_unatt_delay : Fld := ⟨0x000032, [], 11, 4, .live, resetK 60⟩
def GLB_REC_CFG_max : Fld := ⟨0x000032, [], 3, 2, .live, resetK 3⟩
def GLB_REC_CFG_policy : Fld := ⟨0x000032, [], 1, 0, .live, resetK 0⟩
def GLB_REC_STAT_cause : Fld := ⟨0x000033, [], 23, 21, .status, resetK 0⟩
def GLB_REC_STAT_given_up : Fld := ⟨0x000033, [], 20, 20, .kept, resetK 0⟩
def GLB_REC_STAT_entries : Fld := ⟨0x000033, [], 19, 12, .status, resetK 0⟩
def GLB_DP_STAT_stalls : Fld := ⟨0x000035, [], 23, 12, .status, resetK 0⟩
def GLB_DP_STAT_shared : Fld := ⟨0x000035, [], 11, 4, .status, resetK 0⟩
def GLB_EVT_PEND_bits : Fld := ⟨0x000040, [(0, 5, 1)], 23, 0, .kept, resetK 0⟩
def GLB_FAULT_EN_bits : Fld := ⟨0x000048, [(0, 5, 1)], 23, 0, .live, faultEnReset⟩
def GLB_CASK_WIN_ADDR_addr : Fld := ⟨0x000050, [], 23, 0, .live, resetK 0⟩
def GLB_CASK_WIN_DATA_data : Fld := ⟨0x000051, [], 23, 0, .live, resetK 0⟩
def GLB_CASK_WIN_CMD_go : Fld := ⟨0x000052, [], 23, 23, .command, resetK 0⟩
def GLB_CASK_WIN_CMD_op : Fld := ⟨0x000052, [], 22, 21, .live, resetK 0⟩
def GLB_CASK_WIN_CMD_busy : Fld := ⟨0x000052, [], 20, 20, .status, resetK 0⟩
def GLB_CASK_WIN_CMD_refused : Fld := ⟨0x000052, [], 19, 19, .kept, resetK 0⟩
def GLB_CASK_WIN_CMD_err : Fld := ⟨0x000052, [], 18, 18, .kept, resetK 0⟩
def GLB_CASK_WIN_CMD_addr_hi : Fld := ⟨0x000052, [], 17, 16, .live, resetK 0⟩
def GLB_FES_CFG_div : Fld := ⟨0x000100, [(0, 7, 4)], 23, 18, .live, resetK 3⟩
def GLB_FES_CFG_retry : Fld := ⟨0x000100, [(0, 7, 4)], 17, 14, .live, resetK 2⟩
def GLB_FES_ADDR_addr : Fld := ⟨0x000101, [(0, 7, 4)], 22, 0, .live, resetK 0⟩
def GLB_FES_DATA_data : Fld := ⟨0x000102, [(0, 7, 4)], 23, 0, .live, resetK 0⟩
def GLB_FES_CMD_go : Fld := ⟨0x000103, [(0, 7, 4)], 23, 23, .command, resetK 0⟩
def GLB_FES_CMD_op : Fld := ⟨0x000103, [(0, 7, 4)], 22, 22, .live, resetK 0⟩
def GLB_FES_CMD_cs : Fld := ⟨0x000103, [(0, 7, 4)], 21, 21, .live, resetK 0⟩
def GLB_FES_CMD_busy : Fld := ⟨0x000103, [(0, 7, 4)], 20, 20, .status, resetK 0⟩
def GLB_FES_CMD_err : Fld := ⟨0x000103, [(0, 7, 4)], 19, 19, .kept, resetK 0⟩
def GLB_FES_CMD_refused : Fld := ⟨0x000103, [(0, 7, 4)], 18, 18, .kept, resetK 0⟩
def TIM_CLK_STAT_main_lock : Fld := ⟨0x100000, [], 23, 23, .status, resetK 0⟩
def TIM_CLK_STAT_main_coast : Fld := ⟨0x100000, [], 22, 22, .kept, resetK 0⟩
def TIM_CLK_STAT_on_fallback : Fld := ⟨0x100000, [], 21, 21, .status, resetK 0⟩
def TIM_CLK_STAT_hostclk_fail : Fld := ⟨0x100000, [], 20, 20, .kept, resetK 0⟩
def TIM_CLK_STAT_oscdly : Fld := ⟨0x100000, [], 19, 18, .status, resetK 0⟩
def TIM_CLK_STAT_hostclk_good : Fld := ⟨0x100000, [], 17, 17, .status, resetK 1⟩
def TIM_CLK_SSC_en : Fld := ⟨0x100001, [], 23, 23, .live, resetK 0⟩
def TIM_CLK_SSC_depth : Fld := ⟨0x100001, [], 22, 19, .live, resetK 0⟩
def TIM_CLK_SSC_rate : Fld := ⟨0x100001, [], 18, 13, .live, resetK 25⟩
def TIM_CAND_CFG_prio : Fld := ⟨0x100010, [(0, 15, 1)], 23, 20, .vintage, resetK 0⟩
def TIM_CAND_CFG_ql : Fld := ⟨0x100010, [(0, 15, 1)], 19, 16, .vintage, resetK 11⟩
def TIM_CAND_CFG_yard : Fld := ⟨0x100010, [(0, 15, 1)], 15, 15, .vintage, resetK 0⟩
def TIM_CAND_CFG_holdoff : Fld := ⟨0x100010, [(0, 15, 1)], 14, 8, .vintage, resetK 5⟩
def TIM_CAND_CFG_wtr : Fld := ⟨0x100010, [(0, 15, 1)], 7, 1, .vintage, resetK 30⟩
def TIM_CAND_LIM_soft : Fld := ⟨0x100020, [(0, 15, 1)], 23, 12, .vintage, resetK 500⟩
def TIM_CAND_LIM_hard : Fld := ⟨0x100020, [(0, 15, 1)], 11, 0, .vintage, resetK 1000⟩
def TIM_CAND_STAT_state : Fld := ⟨0x100030, [(0, 15, 1)], 23, 21, .status, resetK 1⟩
def TIM_CAND_STAT_ql_used : Fld := ⟨0x100030, [(0, 15, 1)], 20, 17, .status, resetK 11⟩
def TIM_CAND_STAT_soft_hit : Fld := ⟨0x100030, [(0, 15, 1)], 16, 16, .kept, resetK 0⟩
def TIM_CAND_STAT_hard_hit : Fld := ⟨0x100030, [(0, 15, 1)], 15, 15, .kept, resetK 0⟩
def TIM_CAND_STAT_lost : Fld := ⟨0x100030, [(0, 15, 1)], 14, 14, .kept, resetK 0⟩
def TIM_CAND_OFF_off : Fld := ⟨0x100040, [(0, 15, 1)], 23, 0, .status, resetK 8388608⟩
def TIM_CAND_QLRX_valid : Fld := ⟨0x100050, [(0, 15, 1)], 23, 23, .live, resetK 0⟩
def TIM_CAND_QLRX_code : Fld := ⟨0x100050, [(0, 15, 1)], 22, 19, .live, resetK 0⟩
def TIM_SEL_CFG_revert : Fld := ⟨0x100060, [], 23, 23, .vintage, resetK 1⟩
def TIM_SEL_CFG_ql_en : Fld := ⟨0x100060, [], 22, 22, .vintage, resetK 1⟩
def TIM_SEL_CFG_bw : Fld := ⟨0x100060, [], 21, 18, .vintage, resetK 3⟩
def TIM_SEL_CFG_win : Fld := ⟨0x100060, [], 17, 12, .vintage, resetK 10⟩
def TIM_SEL_CMD_go : Fld := ⟨0x100061, [], 23, 23, .command, resetK 0⟩
def TIM_SEL_CMD_code : Fld := ⟨0x100061, [], 22, 21, .live, resetK 0⟩
def TIM_SEL_CMD_cand : Fld := ⟨0x100061, [], 20, 17, .live, resetK 0⟩
def TIM_SEL_CMD_refused : Fld := ⟨0x100061, [], 16, 16, .kept, resetK 0⟩
def TIM_SEL_STAT_state : Fld := ⟨0x100062, [], 23, 21, .status, resetK 7⟩
def TIM_SEL_STAT_sel : Fld := ⟨0x100062, [], 20, 17, .status, resetK 0⟩
def TIM_SEL_STAT_cmd : Fld := ⟨0x100062, [], 16, 15, .status, resetK 0⟩
def TIM_SEL_STAT_switched : Fld := ⟨0x100062, [], 14, 14, .kept, resetK 0⟩
def TIM_SEL_STAT_switches : Fld := ⟨0x100062, [], 13, 0, .status, resetK 0⟩
def TIM_SEL_LOCK_lock : Fld := ⟨0x100063, [], 23, 8, .live, resetK 0⟩
def TIM_REFIN_CFG_freq : Fld := ⟨0x100064, [], 23, 16, .vintage, resetK 0⟩
def TIM_PHS_AMT_amt : Fld := ⟨0x100070, [], 23, 4, .live, resetK 0⟩
def TIM_PHS_CMD_go : Fld := ⟨0x100071, [], 23, 23, .command, resetK 0⟩
def TIM_PHS_CMD_busy : Fld := ⟨0x100071, [], 22, 22, .status, resetK 0⟩
def TIM_PHS_CMD_clamp : Fld := ⟨0x100071, [], 21, 21, .kept, resetK 0⟩
def TIM_PHS_REM_rem : Fld := ⟨0x100072, [], 23, 4, .status, resetK 0⟩
def TIM_TOD_CFG_wrap_en : Fld := ⟨0x100080, [], 23, 23, .live, resetK 0⟩
def TIM_TOD_INC_H_inc : Fld := ⟨0x100081, [], 8, 0, .live, resetK 409⟩
def TIM_TOD_INC_L_inc : Fld := ⟨0x100082, [], 23, 0, .live, resetK 10066330⟩
def TIM_TOD_NS_H_value : Fld := ⟨0x100083, [], 23, 0, .status, resetK 0⟩
def TIM_TOD_NS_L_value : Fld := ⟨0x100084, [], 23, 0, .status, resetK 0⟩
def TIM_TOD_FRAC_value : Fld := ⟨0x100085, [], 23, 0, .status, resetK 0⟩
def TIM_TOD_SET_H_value : Fld := ⟨0x100086, [], 23, 0, .live, resetK 0⟩
def TIM_TOD_SET_L_value : Fld := ⟨0x100087, [], 23, 0, .live, resetK 0⟩
def TIM_TOD_ADJ_value : Fld := ⟨0x100088, [], 23, 0, .live, resetK 0⟩
def TIM_TOD_CMD_set : Fld := ⟨0x100089, [], 23, 23, .command, resetK 0⟩
def TIM_TOD_CMD_adj : Fld := ⟨0x100089, [], 22, 22, .command, resetK 0⟩
def TIM_TOD_CMD_inexact : Fld := ⟨0x100089, [], 21, 21, .status, resetK 0⟩
def TIM_TMR_CFG_action : Fld := ⟨0x100100, [(0, 15, 8)], 23, 22, .live, resetK 0⟩
def TIM_TMR_CFG_prg : Fld := ⟨0x100100, [(0, 15, 8)], 21, 10, .live, resetK 0⟩
def TIM_TMR_CFG_width : Fld := ⟨0x100100, [(0, 15, 8)], 9, 2, .live, resetK 0⟩
def TIM_TMR_TGT_H_value : Fld := ⟨0x100101, [(0, 15, 8)], 23, 0, .live, resetK 0⟩
def TIM_TMR_TGT_L_value : Fld := ⟨0x100102, [(0, 15, 8)], 23, 0, .live, resetK 0⟩
def TIM_TMR_PER_value : Fld := ⟨0x100103, [(0, 15, 8)], 23, 0, .live, resetK 0⟩
def TIM_TMR_CTL_arm : Fld := ⟨0x100104, [(0, 15, 8)], 23, 23, .command, resetK 0⟩
def TIM_TMR_CTL_disarm : Fld := ⟨0x100104, [(0, 15, 8)], 22, 22, .command, resetK 0⟩
def TIM_TMR_CTL_armed : Fld := ⟨0x100104, [(0, 15, 8)], 21, 21, .status, resetK 0⟩
def TIM_TMR_CTL_late : Fld := ⟨0x100104, [(0, 15, 8)], 20, 20, .kept, resetK 0⟩
def TIM_TMR_CTL_fired : Fld := ⟨0x100104, [(0, 15, 8)], 19, 19, .kept, resetK 0⟩
def TIM_TMR_CTL_refused : Fld := ⟨0x100104, [(0, 15, 8)], 18, 18, .kept, resetK 0⟩
def TIM_LTC_CFG_en : Fld := ⟨0x100200, [], 23, 23, .live, resetK 0⟩
def TIM_LTC_CFG_slice : Fld := ⟨0x100200, [], 22, 20, .live, resetK 0⟩
def TIM_LTC_CFG_step_thr : Fld := ⟨0x100200, [], 19, 12, .live, resetK 10⟩
def TIM_LTC_ASYM_asym : Fld := ⟨0x100201, [], 23, 0, .live, resetK 0⟩
def TIM_LTC_STAT_lock : Fld := ⟨0x100202, [], 23, 23, .status, resetK 0⟩
def TIM_LTC_STAT_steps : Fld := ⟨0x100202, [], 19, 12, .status, resetK 0⟩
def TIM_LTC_OFF_off : Fld := ⟨0x100203, [], 23, 0, .status, resetK 0⟩
def CNV_STAT_temp : Fld := ⟨0x200000, [(0, 7, 131072)], 23, 14, .status, resetK 0⟩
def CNV_STAT_run_active : Fld := ⟨0x200000, [(0, 7, 131072)], 13, 13, .status, resetK 0⟩
def CNV_STAT_restore_active : Fld := ⟨0x200000, [(0, 7, 131072)], 12, 12, .status, resetK 0⟩
def CNV_STAT_pending : Fld := ⟨0x200000, [(0, 7, 131072)], 11, 11, .status, resetK 0⟩
def CNV_STAT_gen_bad : Fld := ⟨0x200000, [(0, 7, 131072)], 10, 10, .kept, resetK 0⟩
def CNV_STAT_save_fail : Fld := ⟨0x200000, [(0, 7, 131072)], 9, 9, .kept, resetK 0⟩
def CNV_STAT_phase_skip : Fld := ⟨0x200000, [(0, 7, 131072)], 8, 8, .kept, resetK 0⟩
def CNV_STAT_trim_sat : Fld := ⟨0x200000, [(0, 7, 131072)], 7, 7, .kept, resetK 0⟩
def CNV_STAT_dac_clip : Fld := ⟨0x200000, [(0, 7, 131072)], 6, 3, .kept, resetK 0⟩
def CNV_GEN_CFG_use : Fld := ⟨0x200001, [(0, 7, 131072)], 23, 23, .vintage, resetK 0⟩
def CNV_RECAL_CFG_temp_step : Fld := ⟨0x200002, [(0, 7, 131072)], 23, 20, .vintage, resetK 3⟩
def CNV_RECAL_CFG_interval : Fld := ⟨0x200002, [(0, 7, 131072)], 19, 8, .vintage, resetK 1440⟩
def CNV_RECAL_CMD_run : Fld := ⟨0x200003, [(0, 7, 131072)], 23, 23, .command, resetK 0⟩
def CNV_RECAL_CMD_abort : Fld := ⟨0x200003, [(0, 7, 131072)], 22, 22, .command, resetK 0⟩
def CNV_RECAL_CMD_refused : Fld := ⟨0x200003, [(0, 7, 131072)], 21, 21, .kept, resetK 0⟩
def CNV_RECAL_STAT_phase : Fld := ⟨0x200004, [(0, 7, 131072)], 23, 18, .status, resetK 0⟩
def CNV_RECAL_STAT_stage : Fld := ⟨0x200004, [(0, 7, 131072)], 17, 16, .status, resetK 0⟩
def CNV_RECAL_STAT_cause : Fld := ⟨0x200004, [(0, 7, 131072)], 15, 12, .status, resetK 0⟩
def CNV_GEN_NEW_serial : Fld := ⟨0x200005, [(0, 7, 131072)], 23, 0, .status, resetK 0⟩
def CNV_GEN_PREV_serial : Fld := ⟨0x200006, [(0, 7, 131072)], 23, 0, .status, resetK 0⟩
def CNV_ADC_STAT_spare_pos : Fld := ⟨0x200010, [(0, 7, 131072), (0, 3, 1)], 23, 17, .status, resetK 64⟩
def CNV_ADC_STAT_spare_used : Fld := ⟨0x200010, [(0, 7, 131072), (0, 3, 1)], 16, 16, .status, resetK 0⟩
def CNV_ADC_STAT_failed_slice : Fld := ⟨0x200010, [(0, 7, 131072), (0, 3, 1)], 15, 9, .status, resetK 0⟩
def CNV_ADC_STAT_ovr : Fld := ⟨0x200010, [(0, 7, 131072), (0, 3, 1)], 8, 8, .kept, resetK 0⟩
def CNV_CLIP_CFG_k : Fld := ⟨0x200018, [(0, 7, 131072)], 23, 19, .live, resetK 0⟩
def CNV_ADC_TRIM_A_gain : Fld := ⟨0x200100, [(0, 7, 131072), (0, 3, 256), (0, 64, 2)], 23, 12, .status, resetK 0⟩
def CNV_ADC_TRIM_A_offset : Fld := ⟨0x200100, [(0, 7, 131072), (0, 3, 256), (0, 64, 2)], 11, 2, .status, resetK 0⟩
def CNV_ADC_TRIM_B_skew : Fld := ⟨0x200101, [(0, 7, 131072), (0, 3, 256), (0, 64, 2)], 23, 12, .status, resetK 0⟩
def CNV_DAC_TAP_trim : Fld := ⟨0x200600, [(0, 7, 131072), (0, 3, 64), (0, 32, 1)], 23, 12, .status, resetK 0⟩
def CNV_DAC_TRIM_A_gain : Fld := ⟨0x200700, [(0, 7, 131072), (0, 3, 2)], 23, 12, .status, resetK 0⟩
def CNV_DAC_TRIM_A_offset : Fld := ⟨0x200700, [(0, 7, 131072), (0, 3, 2)], 11, 4, .status, resetK 0⟩
def CNV_DAC_TRIM_B_skew : Fld := ⟨0x200701, [(0, 7, 131072), (0, 3, 2)], 23, 12, .status, resetK 0⟩
def CNV_CAP_CFG_src : Fld := ⟨0x200800, [(0, 7, 131072)], 23, 22, .live, resetK 0⟩
def CNV_CAP_CFG_trig : Fld := ⟨0x200800, [(0, 7, 131072)], 21, 20, .live, resetK 0⟩
def CNV_CAP_CFG_timer : Fld := ⟨0x200800, [(0, 7, 131072)], 19, 16, .live, resetK 0⟩
def CNV_CAP_CFG_event : Fld := ⟨0x200800, [(0, 7, 131072)], 15, 8, .live, resetK 0⟩
def CNV_CAP_LEN_post : Fld := ⟨0x200801, [(0, 7, 131072)], 23, 12, .live, resetK 2048⟩
def CNV_CAP_LEN_segs : Fld := ⟨0x200801, [(0, 7, 131072)], 11, 0, .live, resetK 1⟩
def CNV_CAP_CMD_go : Fld := ⟨0x200802, [(0, 7, 131072)], 23, 23, .command, resetK 0⟩
def CNV_CAP_CMD_stop : Fld := ⟨0x200802, [(0, 7, 131072)], 22, 22, .command, resetK 0⟩
def CNV_CAP_CMD_refused : Fld := ⟨0x200802, [(0, 7, 131072)], 21, 21, .kept, resetK 0⟩
def CNV_CAP_STAT_state : Fld := ⟨0x200803, [(0, 7, 131072)], 23, 22, .status, resetK 0⟩
def CNV_CAP_STAT_trunc : Fld := ⟨0x200803, [(0, 7, 131072)], 21, 21, .kept, resetK 0⟩
def CNV_CAP_STAT_missed : Fld := ⟨0x200803, [(0, 7, 131072)], 20, 20, .kept, resetK 0⟩
def CNV_CAP_STAT_hb : Fld := ⟨0x200803, [(0, 7, 131072)], 19, 19, .kept, resetK 0⟩
def CNV_CAP_STAT_pre_short : Fld := ⟨0x200803, [(0, 7, 131072)], 18, 18, .kept, resetK 0⟩
def CNV_CAP_STAT_done : Fld := ⟨0x200803, [(0, 7, 131072)], 11, 0, .status, resetK 0⟩
def CNV_CAP_TIME_H_value : Fld := ⟨0x200804, [(0, 7, 131072)], 23, 0, .status, resetK 0⟩
def CNV_CAP_TIME_L_value : Fld := ⟨0x200805, [(0, 7, 131072)], 23, 0, .status, resetK 0⟩
def CNV_CAP_SF_value : Fld := ⟨0x200806, [(0, 7, 131072)], 23, 0, .status, resetK 0⟩
def CNV_SOL_CFG_weight : Fld := ⟨0x200808, [(0, 7, 131072)], 23, 20, .live, resetK 4⟩
def CNV_SOL_CFG_age : Fld := ⟨0x200808, [(0, 7, 131072)], 19, 12, .live, resetK 10⟩
def RXD_ACQ_STAT_state : Fld := ⟨0x300000, [(0, 7, 131072)], 23, 20, .status, resetK 0⟩
def RXD_ACQ_STAT_los : Fld := ⟨0x300000, [(0, 7, 131072)], 19, 19, .status, resetK 0⟩
def RXD_ACQ_STAT_fails : Fld := ⟨0x300000, [(0, 7, 131072)], 18, 11, .status, resetK 0⟩
def RXD_ACQ_CMD_restart : Fld := ⟨0x300001, [(0, 7, 131072)], 23, 23, .command, resetK 0⟩
def RXD_EVT_sat : Fld := ⟨0x300002, [(0, 7, 131072)], 23, 23, .kept, resetK 0⟩
def RXD_EVT_cd_clamp : Fld := ⟨0x300002, [(0, 7, 131072)], 22, 22, .kept, resetK 0⟩
def RXD_EVT_singular : Fld := ⟨0x300002, [(0, 7, 131072)], 21, 21, .kept, resetK 0⟩
def RXD_EVT_slip : Fld := ⟨0x300002, [(0, 7, 131072)], 20, 20, .kept, resetK 0⟩
def RXD_EVT_acq_fail : Fld := ⟨0x300002, [(0, 7, 131072)], 19, 19, .kept, resetK 0⟩
def RXD_EVT_mode_bad : Fld := ⟨0x300002, [(0, 7, 131072)], 18, 18, .kept, resetK 0⟩
def RXD_CD_EST_cd : Fld := ⟨0x300003, [(0, 7, 131072)], 23, 0, .status, resetK 0⟩
def RXD_MODE_CFG_baud : Fld := ⟨0x300010, [(0, 7, 131072)], 23, 21, .vintage, resetK 7⟩
def RXD_MODE_CFG_const : Fld := ⟨0x300010, [(0, 7, 131072)], 20, 18, .vintage, resetK 0⟩
def RXD_MODE_CFG_entropy : Fld := ⟨0x300010, [(0, 7, 131072)], 17, 9, .vintage, resetK 0⟩
def RXD_MODE_CFG_pilot : Fld := ⟨0x300010, [(0, 7, 131072)], 8, 7, .vintage, resetK 0⟩
def RXD_CD_CFG_cd : Fld := ⟨0x300011, [(0, 7, 131072)], 23, 0, .vintage, resetK 0⟩
def RXD_CD_SCAN_mode : Fld := ⟨0x300012, [(0, 7, 131072)], 23, 22, .vintage, resetK 1⟩
def RXD_CD_SCAN_span : Fld := ⟨0x300012, [(0, 7, 131072)], 21, 12, .vintage, resetK 30⟩
def RXD_CD_SCAN_step : Fld := ⟨0x300012, [(0, 7, 131072)], 11, 0, .vintage, resetK 20⟩
def RXD_CR_CFG_bw : Fld := ⟨0x300013, [(0, 7, 131072)], 23, 21, .vintage, resetK 2⟩
def RXD_EQ_CFG_taps : Fld := ⟨0x300014, [(0, 7, 131072)], 23, 22, .vintage, resetK 1⟩
def RXD_EQ_CFG_mu_cma : Fld := ⟨0x300014, [(0, 7, 131072)], 21, 18, .vintage, resetK 3⟩
def RXD_EQ_CFG_mu_lms : Fld := ⟨0x300014, [(0, 7, 131072)], 17, 14, .vintage, resetK 4⟩
def RXD_CAR_CFG_win : Fld := ⟨0x300015, [(0, 7, 131072)], 23, 21, .vintage, resetK 3⟩
def RXD_TDC_CFG_en : Fld := ⟨0x300016, [(0, 7, 131072)], 23, 23, .vintage, resetK 1⟩
def RXD_TDC_CFG_conf : Fld := ⟨0x300016, [(0, 7, 131072)], 22, 19, .vintage, resetK 6⟩
def RXD_LLR_CFG_scale : Fld := ⟨0x300017, [(0, 7, 131072)], 23, 17, .vintage, resetK 64⟩
def RXD_LLR_CFG_nvar_win : Fld := ⟨0x300017, [(0, 7, 131072)], 16, 13, .vintage, resetK 4⟩
def RXD_MON_value : Fld := ⟨0x300020, [(0, 7, 131072), (0, 15, 1)], 23, 0, .status, resetK 8388608⟩
def TXD_STAT_muted : Fld := ⟨0x400000, [(0, 7, 131072)], 23, 23, .status, resetK 1⟩
def TXD_STAT_m_mode : Fld := ⟨0x400000, [(0, 7, 131072)], 22, 22, .status, resetK 1⟩
def TXD_STAT_m_slice : Fld := ⟨0x400000, [(0, 7, 131072)], 21, 21, .status, resetK 1⟩
def TXD_STAT_m_force : Fld := ⟨0x400000, [(0, 7, 131072)], 20, 20, .status, resetK 0⟩
def TXD_STAT_m_mask : Fld := ⟨0x400000, [(0, 7, 131072)], 19, 19, .status, resetK 0⟩
def TXD_STAT_m_rate : Fld := ⟨0x400000, [(0, 7, 131072)], 18, 18, .status, resetK 0⟩
def TXD_STAT_limiting : Fld := ⟨0x400000, [(0, 7, 131072)], 17, 17, .status, resetK 0⟩
def TXD_STAT_mask_alarm : Fld := ⟨0x400000, [(0, 7, 131072)], 16, 16, .kept, resetK 0⟩
def TXD_STAT_pe_clamp : Fld := ⟨0x400000, [(0, 7, 131072)], 15, 15, .kept, resetK 0⟩
def TXD_STAT_mode_bad : Fld := ⟨0x400000, [(0, 7, 131072)], 14, 14, .kept, resetK 0⟩
def TXD_MUTE_force : Fld := ⟨0x400001, [(0, 7, 131072)], 23, 23, .live, resetK 0⟩
def TXD_MUTE_mask_mute : Fld := ⟨0x400001, [(0, 7, 131072)], 22, 22, .live, resetK 0⟩
def TXD_MODE_CFG_baud : Fld := ⟨0x400010, [(0, 7, 131072)], 23, 21, .vintage, resetK 7⟩
def TXD_MODE_CFG_const : Fld := ⟨0x400010, [(0, 7, 131072)], 20, 18, .vintage, resetK 0⟩
def TXD_MODE_CFG_entropy : Fld := ⟨0x400010, [(0, 7, 131072)], 17, 9, .vintage, resetK 0⟩
def TXD_MODE_CFG_pilot : Fld := ⟨0x400010, [(0, 7, 131072)], 8, 7, .vintage, resetK 0⟩
def TXD_PS_CFG_rolloff : Fld := ⟨0x400011, [(0, 7, 131072)], 23, 18, .vintage, resetK 10⟩
def TXD_DAC_CFG_gain : Fld := ⟨0x400018, [(0, 7, 131072), (0, 3, 1)], 23, 12, .vintage, resetK 2048⟩
def TXD_MASK_level : Fld := ⟨0x400040, [(0, 7, 131072), (0, 63, 1)], 23, 16, .vintage, resetK 127⟩
def TXD_MASK_ATT_att : Fld := ⟨0x400080, [(0, 7, 131072), (0, 63, 1)], 23, 17, .status, resetK 0⟩
def TXD_PE_COEF_coef : Fld := ⟨0x400100, [(0, 7, 131072), (0, 3, 64), (0, 32, 1)], 23, 10, .vintage, peCoefReset⟩
def FEC_CODE_CFG_rate : Fld := ⟨0x500000, [(0, 7, 131072)], 23, 22, .vintage, resetK 1⟩
def FEC_POOL_SLICE_guar : Fld := ⟨0x500001, [(0, 7, 131072)], 23, 19, .vintage, resetK 6⟩
def FEC_POOL_SLICE_weight : Fld := ⟨0x500001, [(0, 7, 131072)], 18, 15, .vintage, resetK 4⟩
def FEC_POOL_SLICE_deadline : Fld := ⟨0x500001, [(0, 7, 131072)], 14, 8, .vintage, resetK 32⟩
def FEC_STAT_sync : Fld := ⟨0x500002, [(0, 7, 131072)], 23, 22, .status, resetK 0⟩
def FEC_STAT_hyp : Fld := ⟨0x500002, [(0, 7, 131072)], 21, 20, .status, resetK 0⟩
def FEC_STAT_beta : Fld := ⟨0x500002, [(0, 7, 131072)], 19, 8, .status, resetK 0⟩
def FEC_GEFF_geff : Fld := ⟨0x500003, [(0, 7, 131072)], 23, 11, .status, resetK 0⟩
def FEC_EVT_unconv : Fld := ⟨0x500004, [(0, 7, 131072)], 23, 23, .kept, resetK 0⟩
def FEC_EVT_dlm : Fld := ⟨0x500004, [(0, 7, 131072)], 22, 22, .kept, resetK 0⟩
def FEC_EVT_evict : Fld := ⟨0x500004, [(0, 7, 131072)], 21, 21, .kept, resetK 0⟩
def FEC_EVT_bypass : Fld := ⟨0x500004, [(0, 7, 131072)], 20, 20, .kept, resetK 0⟩
def FEC_EVT_uncorr : Fld := ⟨0x500004, [(0, 7, 131072)], 19, 19, .kept, resetK 0⟩
def FEC_EVT_sync_lost : Fld := ⟨0x500004, [(0, 7, 131072)], 18, 18, .kept, resetK 0⟩
def FEC_EVT_dm_bad : Fld := ⟨0x500004, [(0, 7, 131072)], 17, 17, .kept, resetK 0⟩
def FEC_MARGIN_margin : Fld := ⟨0x500005, [(0, 7, 131072)], 23, 12, .status, resetK 0⟩
def FEC_MARGIN_valid : Fld := ⟨0x500005, [(0, 7, 131072)], 11, 11, .status, resetK 0⟩
def FEC_POOL_CFG_age_step : Fld := ⟨0x510000, [], 23, 16, .vintage, resetK 32⟩
def FEC_POOL_CFG_need_thr : Fld := ⟨0x510000, [], 15, 4, .vintage, resetK 64⟩
def FEC_POOL_STAT_scale : Fld := ⟨0x510001, [], 23, 15, .status, resetK 256⟩
def FEC_POOL_STAT_scaled : Fld := ⟨0x510001, [], 14, 14, .status, resetK 0⟩
def FEC_POOL_STAT_engines : Fld := ⟨0x510001, [], 13, 7, .status, resetK 0⟩
def FEC_POOL_CTX_value : Fld := ⟨0x510002, [], 23, 11, .status, resetK 0⟩
def FEC_POOL_PEAK_value : Fld := ⟨0x510003, [], 23, 11, .status, resetK 0⟩
def FEC_PCM_ADDR_rate : Fld := ⟨0x510010, [], 23, 22, .live, resetK 0⟩
def FEC_PCM_ADDR_row : Fld := ⟨0x510010, [], 21, 15, .live, resetK 0⟩
def FEC_PCM_ADDR_ent : Fld := ⟨0x510010, [], 14, 9, .live, resetK 0⟩
def FEC_PCM_DATA_col : Fld := ⟨0x510011, [], 23, 15, .status, resetK 0⟩
def FEC_PCM_DATA_shift : Fld := ⟨0x510011, [], 14, 9, .status, resetK 0⟩
def FEC_PCM_DATA_last : Fld := ⟨0x510011, [], 8, 8, .status, resetK 0⟩
def FEC_PCM_DATA_valid : Fld := ⟨0x510011, [], 7, 7, .status, resetK 0⟩
def TDL_TX_CFG_en : Fld := ⟨0x600000, [(0, 7, 131072)], 23, 23, .vintage, resetK 1⟩
def TDL_TX_CFG_level : Fld := ⟨0x600000, [(0, 7, 131072)], 22, 19, .vintage, resetK 10⟩
def TDL_TX_CFG_sf : Fld := ⟨0x600000, [(0, 7, 131072)], 18, 17, .vintage, resetK 0⟩
def TDL_TX_CFG_hello : Fld := ⟨0x600000, [(0, 7, 131072)], 16, 9, .vintage, resetK 1⟩
def TDL_RX_CFG_sf_mask : Fld := ⟨0x600002, [(0, 7, 131072)], 23, 20, .vintage, resetK 15⟩
def TDL_RX_CFG_raw_en : Fld := ⟨0x600002, [(0, 7, 131072)], 19, 19, .vintage, resetK 1⟩
def TDL_RX_CFG_det_thr : Fld := ⟨0x600002, [(0, 7, 131072)], 18, 13, .vintage, resetK 16⟩
def TDL_RX_CFG_cap_margin : Fld := ⟨0x600002, [(0, 7, 131072)], 12, 7, .vintage, resetK 12⟩
def TDL_RX_STAT_rx : Fld := ⟨0x600003, [(0, 7, 131072)], 23, 23, .status, resetK 0⟩
def TDL_RX_STAT_sf : Fld := ⟨0x600003, [(0, 7, 131072)], 22, 21, .status, resetK 0⟩
def TDL_RX_STAT_src : Fld := ⟨0x600003, [(0, 7, 131072)], 20, 20, .status, resetK 0⟩
def TDL_RX_STAT_snr : Fld := ⟨0x600003, [(0, 7, 131072)], 19, 12, .status, resetK 0⟩
def TDL_EVT_crc : Fld := ⟨0x600004, [(0, 7, 131072)], 23, 23, .kept, resetK 0⟩
def TDL_EVT_hdr : Fld := ⟨0x600004, [(0, 7, 131072)], 22, 22, .kept, resetK 0⟩
def TDL_EVT_preempt : Fld := ⟨0x600004, [(0, 7, 131072)], 21, 21, .kept, resetK 0⟩
def TDL_EVT_missed : Fld := ⟨0x600004, [(0, 7, 131072)], 20, 20, .kept, resetK 0⟩
def TDL_EVT_mb_drop : Fld := ⟨0x600004, [(0, 7, 131072)], 19, 19, .kept, resetK 0⟩
def TDL_EVT_mb_refused : Fld := ⟨0x600004, [(0, 7, 131072)], 18, 18, .kept, resetK 0⟩
def TDL_EVT_refused : Fld := ⟨0x600004, [(0, 7, 131072)], 17, 17, .kept, resetK 0⟩
def TDL_AGR_CFG_lead : Fld := ⟨0x600010, [(0, 7, 131072)], 23, 12, .live, resetK 32⟩
def TDL_AGR_CFG_retry : Fld := ⟨0x600010, [(0, 7, 131072)], 11, 8, .live, resetK 4⟩
def TDL_AGR_CFG_hold : Fld := ⟨0x600010, [(0, 7, 131072)], 7, 0, .live, resetK 64⟩
def TDL_AGR_ID_value : Fld := ⟨0x600011, [(0, 7, 131072)], 23, 0, .live, resetK 0⟩
def TDL_AGR_BND_value : Fld := ⟨0x600012, [(0, 7, 131072)], 23, 0, .status, resetK 0⟩
def TDL_AGR_PEER_value : Fld := ⟨0x600013, [(0, 7, 131072)], 23, 0, .status, resetK 0⟩
def TDL_PROP_ID_value : Fld := ⟨0x600014, [(0, 7, 131072)], 23, 0, .status, resetK 0⟩
def TDL_PROP_BND_value : Fld := ⟨0x600015, [(0, 7, 131072)], 23, 0, .status, resetK 0⟩
def TDL_PROP_KND_value : Fld := ⟨0x600016, [(0, 7, 131072)], 23, 0, .status, resetK 0⟩
def TDL_PROP_SUM_value : Fld := ⟨0x600017, [(0, 7, 131072)], 23, 0, .status, resetK 0⟩
def TDL_PROP_STAT_held : Fld := ⟨0x600018, [(0, 7, 131072)], 23, 23, .status, resetK 0⟩
def TDL_MB_TX_CMD_go : Fld := ⟨0x600020, [(0, 7, 131072)], 23, 23, .command, resetK 0⟩
def TDL_MB_TX_CMD_busy : Fld := ⟨0x600020, [(0, 7, 131072)], 22, 22, .status, resetK 0⟩
def TDL_MB_TX_CMD_type : Fld := ⟨0x600020, [(0, 7, 131072)], 21, 14, .live, resetK 128⟩
def TDL_MB_TX_CMD_len : Fld := ⟨0x600020, [(0, 7, 131072)], 13, 6, .live, resetK 0⟩
def TDL_MB_RX_STAT_full : Fld := ⟨0x600021, [(0, 7, 131072)], 23, 23, .status, resetK 0⟩
def TDL_MB_RX_STAT_release : Fld := ⟨0x600021, [(0, 7, 131072)], 22, 22, .command, resetK 0⟩
def TDL_MB_RX_STAT_type : Fld := ⟨0x600021, [(0, 7, 131072)], 21, 14, .status, resetK 0⟩
def TDL_MB_RX_STAT_len : Fld := ⟨0x600021, [(0, 7, 131072)], 13, 6, .status, resetK 0⟩
def TDL_MB_RX_SRC_serial : Fld := ⟨0x600022, [(0, 7, 131072)], 23, 0, .status, resetK 0⟩
def TDL_TX_FILT_coef : Fld := ⟨0x600080, [(0, 7, 131072), (0, 127, 1)], 23, 12, .vintage, txFiltReset⟩
def TDL_MB_TX_bytes : Fld := ⟨0x600100, [(0, 7, 131072), (0, 79, 1)], 23, 0, .live, resetK 0⟩
def TDL_MB_RX_bytes : Fld := ⟨0x600180, [(0, 7, 131072), (0, 79, 1)], 23, 0, .status, resetK 0⟩
def LFR_STAT_state : Fld := ⟨0x700000, [(0, 7, 131072)], 23, 22, .status, resetK 0⟩
def LFR_STAT_im : Fld := ⟨0x700000, [(0, 7, 131072)], 21, 21, .status, resetK 0⟩
def LFR_STAT_sf_ok : Fld := ⟨0x700000, [(0, 7, 131072)], 20, 20, .status, resetK 0⟩
def LFR_STAT_dlos : Fld := ⟨0x700000, [(0, 7, 131072)], 19, 19, .status, resetK 0⟩
def LFR_STAT_dlob : Fld := ⟨0x700000, [(0, 7, 131072)], 18, 18, .status, resetK 0⟩
def LFR_STAT_dlof : Fld := ⟨0x700000, [(0, 7, 131072)], 17, 17, .status, resetK 0⟩
def LFR_STAT_dlom : Fld := ⟨0x700000, [(0, 7, 131072)], 16, 16, .status, resetK 0⟩
def LFR_STAT_dunc : Fld := ⟨0x700000, [(0, 7, 131072)], 15, 15, .status, resetK 0⟩
def LFR_STAT_ddeg : Fld := ⟨0x700000, [(0, 7, 131072)], 14, 14, .status, resetK 0⟩
def LFR_STAT_dbdi : Fld := ⟨0x700000, [(0, 7, 131072)], 13, 13, .status, resetK 0⟩
def LFR_STAT_ssf : Fld := ⟨0x700000, [(0, 7, 131072)], 12, 12, .status, resetK 0⟩
def LFR_STAT_sd : Fld := ⟨0x700000, [(0, 7, 131072)], 11, 11, .status, resetK 0⟩
def LFR_STAT_rdi_tx : Fld := ⟨0x700000, [(0, 7, 131072)], 10, 10, .status, resetK 0⟩
def LFR_EVT_false_lock : Fld := ⟨0x700001, [(0, 7, 131072)], 23, 23, .kept, resetK 0⟩
def LFR_EVT_sfc_bad : Fld := ⟨0x700001, [(0, 7, 131072)], 22, 22, .kept, resetK 0⟩
def LFR_EVT_tsm_mis : Fld := ⟨0x700001, [(0, 7, 131072)], 21, 21, .kept, resetK 0⟩
def LFR_EVT_dly_bad : Fld := ⟨0x700001, [(0, 7, 131072)], 20, 20, .kept, resetK 0⟩
def LFR_RX_SFC_count : Fld := ⟨0x700002, [(0, 7, 131072)], 23, 0, .status, resetK 0⟩
def LFR_TX_SFC_count : Fld := ⟨0x700003, [(0, 7, 131072)], 23, 0, .status, resetK 0⟩
def LFR_FRAME_LEN_f : Fld := ⟨0x700004, [(0, 7, 131072)], 23, 0, .status, resetK 0⟩
def LFR_FRAME_LONG_long : Fld := ⟨0x700005, [(0, 7, 131072)], 23, 10, .status, resetK 0⟩
def LFR_DLY_RT_rt : Fld := ⟨0x700006, [(0, 7, 131072)], 23, 0, .status, resetK 0⟩
def LFR_TX_CFG_rate : Fld := ⟨0x700010, [(0, 7, 131072)], 23, 19, .vintage, resetK 4⟩
def LFR_TX_CTL_force_rdi : Fld := ⟨0x700011, [(0, 7, 131072)], 23, 23, .live, resetK 0⟩
def LFR_ALIGN_CFG_next_chk : Fld := ⟨0x700012, [(0, 7, 131072)], 23, 22, .vintage, resetK 1⟩
def LFR_ALIGN_CFG_srch_err : Fld := ⟨0x700012, [(0, 7, 131072)], 21, 20, .vintage, resetK 0⟩
def LFR_ALIGN_CFG_keep_err : Fld := ⟨0x700012, [(0, 7, 131072)], 19, 17, .vintage, resetK 4⟩
def LFR_ALIGN_CFG_oof_n : Fld := ⟨0x700012, [(0, 7, 131072)], 16, 13, .vintage, resetK 5⟩
def LFR_ALIGN_CFG_mf_n : Fld := ⟨0x700012, [(0, 7, 131072)], 12, 9, .vintage, resetK 5⟩
def LFR_ALIGN_CFG_false_n : Fld := ⟨0x700012, [(0, 7, 131072)], 8, 4, .vintage, resetK 8⟩
def LFR_DEF_CFG_lof_t : Fld := ⟨0x700013, [(0, 7, 131072)], 23, 20, .vintage, resetK 3⟩
def LFR_DEF_CFG_lom_t : Fld := ⟨0x700013, [(0, 7, 131072)], 19, 16, .vintage, resetK 3⟩
def LFR_DEF_CFG_holdoff : Fld := ⟨0x700013, [(0, 7, 131072)], 15, 9, .vintage, resetK 0⟩
def LFR_DEF_CFG_rdi_en : Fld := ⟨0x700013, [(0, 7, 131072)], 8, 8, .vintage, resetK 1⟩
def LFR_DEG_CFG_deg_m : Fld := ⟨0x700014, [(0, 7, 131072)], 23, 20, .vintage, resetK 7⟩
def LFR_DEG_CFG_deg_thr : Fld := ⟨0x700014, [(0, 7, 131072)], 19, 10, .vintage, resetK 293⟩
def LFR_DEG_CFG_unc_k : Fld := ⟨0x700014, [(0, 7, 131072)], 9, 5, .vintage, resetK 10⟩
def LFR_DEG_CFG_unc_m : Fld := ⟨0x700014, [(0, 7, 131072)], 4, 1, .vintage, resetK 3⟩
def MAP_CFG_grow_k : Fld := ⟨0x800000, [], 23, 20, .vintage, resetK 8⟩
def MAP_STAT_chip_used : Fld := ⟨0x800001, [], 23, 4, .status, resetK 0⟩
def MAP_CEL_STAT_cel_ctx : Fld := ⟨0x800002, [], 23, 10, .status, resetK 0⟩
def MAP_CH_CFG_tx_on : Fld := ⟨0x801000, [(0, 511, 1)], 23, 23, .vintage, resetK 0⟩
def MAP_CH_CFG_rx_on : Fld := ⟨0x801000, [(0, 511, 1)], 22, 22, .vintage, resetK 0⟩
def MAP_CH_CFG_size : Fld := ⟨0x801000, [(0, 511, 1)], 21, 9, .vintage, resetK 0⟩
def MAP_CH_CFG_prot : Fld := ⟨0x801000, [(0, 511, 1)], 8, 8, .vintage, resetK 0⟩
def MAP_CH_CFG_allow : Fld := ⟨0x801000, [(0, 511, 1)], 7, 4, .vintage, resetK 2⟩
def MAP_CH_CFG_guard : Fld := ⟨0x801000, [(0, 511, 1)], 3, 2, .vintage, resetK 1⟩
def MAP_CH_PS_revert : Fld := ⟨0x801200, [(0, 511, 1)], 23, 23, .vintage, resetK 1⟩
def MAP_CH_PS_wtr : Fld := ⟨0x801200, [(0, 511, 1)], 22, 13, .vintage, resetK 300⟩
def MAP_CH_PS_sd_en : Fld := ⟨0x801200, [(0, 511, 1)], 12, 12, .vintage, resetK 1⟩
def MAP_CH_STAT_align : Fld := ⟨0x801400, [(0, 511, 1)], 23, 22, .status, resetK 0⟩
def MAP_CH_STAT_csf : Fld := ⟨0x801400, [(0, 511, 1)], 21, 21, .status, resetK 0⟩
def MAP_CH_STAT_sel : Fld := ⟨0x801400, [(0, 511, 1)], 20, 20, .status, resetK 0⟩
def MAP_CH_STAT_req : Fld := ⟨0x801400, [(0, 511, 1)], 19, 16, .status, resetK 0⟩
def MAP_CH_STAT_wtr_run : Fld := ⟨0x801400, [(0, 511, 1)], 15, 15, .status, resetK 0⟩
def MAP_CH_STAT_a_fail : Fld := ⟨0x801400, [(0, 511, 1)], 14, 14, .status, resetK 0⟩
def MAP_CH_STAT_b_fail : Fld := ⟨0x801400, [(0, 511, 1)], 13, 13, .status, resetK 0⟩
def MAP_CH_STAT_a_sd : Fld := ⟨0x801400, [(0, 511, 1)], 12, 12, .status, resetK 0⟩
def MAP_CH_STAT_b_sd : Fld := ⟨0x801400, [(0, 511, 1)], 11, 11, .status, resetK 0⟩
def MAP_CH_CMD_go : Fld := ⟨0x801600, [(0, 511, 1)], 23, 23, .command, resetK 0⟩
def MAP_CH_CMD_code : Fld := ⟨0x801600, [(0, 511, 1)], 22, 20, .live, resetK 0⟩
def MAP_CH_CMD_realign : Fld := ⟨0x801600, [(0, 511, 1)], 19, 19, .command, resetK 0⟩
def MAP_CH_CMD_refused : Fld := ⟨0x801600, [(0, 511, 1)], 18, 18, .kept, resetK 0⟩
def MAP_CH_FAR_req : Fld := ⟨0x801800, [(0, 511, 1)], 23, 20, .status, resetK 0⟩
def MAP_CH_FAR_sel_mem : Fld := ⟨0x801800, [(0, 511, 1)], 19, 17, .status, resetK 0⟩
def MAP_CH_FAR_valid : Fld := ⟨0x801800, [(0, 511, 1)], 16, 16, .status, resetK 0⟩
def MAP_CH_DLY_dc : Fld := ⟨0x801A00, [(0, 511, 1)], 23, 11, .status, resetK 0⟩
def MAP_MEM_CFG_en : Fld := ⟨0x802000, [(0, 511, 8), (0, 7, 1)], 23, 23, .vintage, resetK 0⟩
def MAP_MEM_CFG_slice : Fld := ⟨0x802000, [(0, 511, 8), (0, 7, 1)], 22, 20, .vintage, resetK 0⟩
def MAP_MEM_CFG_leg : Fld := ⟨0x802000, [(0, 511, 8), (0, 7, 1)], 19, 19, .vintage, resetK 0⟩
def MAP_MEM_CFG_route : Fld := ⟨0x802000, [(0, 511, 8), (0, 7, 1)], 18, 18, .vintage, resetK 0⟩
def MAP_MEM_STAT_fail : Fld := ⟨0x803000, [(0, 511, 8), (0, 7, 1)], 23, 23, .status, resetK 0⟩
def MAP_MEM_STAT_dskew : Fld := ⟨0x803000, [(0, 511, 8), (0, 7, 1)], 22, 22, .kept, resetK 0⟩
def MAP_MEM_STAT_mism : Fld := ⟨0x803000, [(0, 511, 8), (0, 7, 1)], 21, 21, .kept, resetK 0⟩
def MAP_MEM_STAT_ok_num : Fld := ⟨0x803000, [(0, 511, 8), (0, 7, 1)], 20, 20, .status, resetK 0⟩
def MAP_MEM_STAT_skew : Fld := ⟨0x803000, [(0, 511, 8), (0, 7, 1)], 19, 0, .status, resetK 0⟩
def MAP_SLOT_tx_en : Fld := ⟨0x810000, [(0, 7, 8192), (0, 8191, 1)], 23, 23, .vintage, resetK 0⟩
def MAP_SLOT_tx_ch : Fld := ⟨0x810000, [(0, 7, 8192), (0, 8191, 1)], 22, 14, .vintage, resetK 0⟩
def MAP_SLOT_rx_en : Fld := ⟨0x810000, [(0, 7, 8192), (0, 8191, 1)], 13, 13, .vintage, resetK 0⟩
def MAP_SLOT_rx_ch : Fld := ⟨0x810000, [(0, 7, 8192), (0, 8191, 1)], 12, 4, .vintage, resetK 0⟩
def CIP_STAT_dev_kek : Fld := ⟨0x900000, [], 23, 23, .status, resetK 0⟩
def CIP_STAT_kek : Fld := ⟨0x900000, [], 22, 8, .status, resetK 0⟩
def CIP_SOL_CFG_guar : Fld := ⟨0x900100, [(0, 15, 1)], 23, 18, .live, resetF0 10 0⟩
def CIP_SOL_CFG_weight : Fld := ⟨0x900100, [(0, 15, 1)], 17, 14, .live, resetK 4⟩
def CIP_SOL_CFG_entry : Fld := ⟨0x900100, [(0, 15, 1)], 13, 12, .live, resetF0 1 0⟩
def CIP_SOL_STAT_scaled : Fld := ⟨0x900110, [], 23, 23, .status, resetK 0⟩
def CIP_SOL_STAT_sum : Fld := ⟨0x900110, [], 22, 13, .status, resetK 10⟩
def CIP_SLOT_GRANT_func : Fld := ⟨0x900400, [(0, 127, 1)], 23, 20, .live, resetK 0⟩
def CIP_CH_CFG_side : Fld := ⟨0x900800, [(0, 511, 1)], 23, 23, .vintage, resetK 0⟩
def CIP_CH_CFG_auth_n : Fld := ⟨0x900800, [(0, 511, 1)], 22, 19, .vintage, resetK 2⟩
def CIP_CH_KEY_epoch : Fld := ⟨0x901000, [(0, 511, 2), (0, 1, 1)], 23, 23, .vintage, resetK 0⟩
def CIP_CH_KEY_slot0 : Fld := ⟨0x901000, [(0, 511, 2), (0, 1, 1)], 22, 12, .vintage, resetK 0⟩
def CIP_CH_KEY_slot1 : Fld := ⟨0x901000, [(0, 511, 2), (0, 1, 1)], 10, 0, .vintage, resetK 0⟩
def CIP_CH_STAT_dauth : Fld := ⟨0x901800, [(0, 511, 1)], 23, 23, .status, resetK 0⟩
def CIP_CH_STAT_tx_epoch : Fld := ⟨0x901800, [(0, 511, 1)], 22, 22, .status, resetK 0⟩
def CIP_CH_STAT_rx_epoch : Fld := ⟨0x901800, [(0, 511, 1)], 21, 21, .status, resetK 0⟩
def CIP_CH_STAT_auth_fail : Fld := ⟨0x901800, [(0, 511, 1)], 20, 20, .kept, resetK 0⟩
def CIP_CH_STAT_ctr_mis : Fld := ⟨0x901800, [(0, 511, 1)], 19, 19, .kept, resetK 0⟩
def CIP_CH_STAT_epoch_mis : Fld := ⟨0x901800, [(0, 511, 1)], 18, 18, .kept, resetK 0⟩
def CIP_CH_MFC_H_count : Fld := ⟨0x902000, [(0, 511, 4), (0, 1, 2)], 23, 0, .status, resetK 0⟩
def CIP_CH_MFC_L_count : Fld := ⟨0x902001, [(0, 511, 4), (0, 1, 2)], 23, 0, .status, resetK 0⟩
def CIP_SLOT_STAT_full : Fld := ⟨0x904000, [(0, 2047, 1)], 23, 23, .status, resetK 0⟩
def CIP_SLOT_STAT_use : Fld := ⟨0x904000, [(0, 2047, 1)], 22, 21, .status, resetK 0⟩
def CIP_SLOT_STAT_func : Fld := ⟨0x904000, [(0, 2047, 1)], 20, 17, .status, resetK 0⟩
def CIP_SLOT_STAT_in_use : Fld := ⟨0x904000, [(0, 2047, 1)], 16, 16, .status, resetK 0⟩
def CIP_SLOT_KCV_kcv : Fld := ⟨0x904800, [(0, 2047, 1)], 23, 0, .status, resetK 0⟩
def CIP_UP_KEY_DATA_bytes : Fld := ⟨0x906000, [(0, 15, 128), (0, 13, 1)], 23, 0, .live, resetK 0⟩
def CIP_UP_KEY_CMD_go : Fld := ⟨0x906010, [(0, 15, 128)], 23, 23, .command, resetK 0⟩
def CIP_UP_KEY_CMD_op : Fld := ⟨0x906010, [(0, 15, 128)], 22, 21, .live, resetK 0⟩
def CIP_UP_KEY_CMD_slot : Fld := ⟨0x906010, [(0, 15, 128)], 20, 10, .live, resetK 0⟩
def CIP_UP_KEY_CMD_use : Fld := ⟨0x906010, [(0, 15, 128)], 9, 8, .live, resetK 0⟩
def CIP_UP_KEY_CMD_func : Fld := ⟨0x906010, [(0, 15, 128)], 7, 4, .live, resetK 0⟩
def CIP_UP_KEY_CMD_status : Fld := ⟨0x906010, [(0, 15, 128)], 3, 0, .status, resetK 0⟩
def CIP_UP_DESC_word : Fld := ⟨0x906020, [(0, 15, 128), (0, 19, 1)], 23, 0, .live, resetK 0⟩
def CIP_UP_MSG_CMD_go : Fld := ⟨0x906040, [(0, 15, 128)], 23, 23, .command, resetK 0⟩
def CIP_UP_MSG_CMD_pending : Fld := ⟨0x906040, [(0, 15, 128)], 22, 19, .status, resetK 0⟩
def CIP_UP_MSG_CMD_refused : Fld := ⟨0x906040, [(0, 15, 128)], 18, 18, .kept, resetK 0⟩
def CLI_LANE_STAT_pstate : Fld := ⟨0xA00000, [(0, 63, 1)], 23, 22, .status, resetK 2⟩
def CLI_LANE_STAT_sig : Fld := ⟨0xA00000, [(0, 63, 1)], 21, 21, .status, resetK 0⟩
def CLI_LANE_STAT_cdr : Fld := ⟨0xA00000, [(0, 63, 1)], 20, 20, .status, resetK 0⟩
def CLI_LANE_STAT_exit_pend : Fld := ⟨0xA00000, [(0, 63, 1)], 19, 19, .status, resetK 0⟩
def CLI_PTP_CFG_tc_en : Fld := ⟨0xA00080, [], 23, 23, .vintage, resetK 0⟩
def CLI_PTP_CFG_eth : Fld := ⟨0xA00080, [], 22, 22, .vintage, resetK 1⟩
def CLI_PTP_CFG_v4 : Fld := ⟨0xA00080, [], 21, 21, .vintage, resetK 1⟩
def CLI_PTP_CFG_v6 : Fld := ⟨0xA00080, [], 20, 20, .vintage, resetK 1⟩
def CLI_REF_SEL_lane0 : Fld := ⟨0xA00081, [], 23, 18, .vintage, resetK 0⟩
def CLI_REF_SEL_lane1 : Fld := ⟨0xA00081, [], 17, 12, .vintage, resetK 1⟩
def CLI_PORT_CFG_en : Fld := ⟨0xA00100, [(0, 63, 1)], 23, 23, .vintage, resetK 0⟩
def CLI_PORT_CFG_type : Fld := ⟨0xA00100, [(0, 63, 1)], 22, 21, .vintage, resetK 0⟩
def CLI_PORT_CFG_lrate : Fld := ⟨0xA00100, [(0, 63, 1)], 20, 19, .vintage, resetK 2⟩
def CLI_PORT_CFG_flexe : Fld := ⟨0xA00100, [(0, 63, 1)], 18, 18, .vintage, resetK 0⟩
def CLI_PORT_CFG_grp : Fld := ⟨0xA00100, [(0, 63, 1)], 17, 14, .vintage, resetK 0⟩
def CLI_PORT_CFG_ch : Fld := ⟨0xA00100, [(0, 63, 1)], 13, 5, .vintage, resetK 0⟩
def CLI_PORT_CFG_keep : Fld := ⟨0xA00100, [(0, 63, 1)], 4, 4, .live, resetK 0⟩
def CLI_PORT_STAT_pcs_lock : Fld := ⟨0xA00140, [(0, 63, 1)], 23, 23, .status, resetK 0⟩
def CLI_PORT_STAT_hi_ber : Fld := ⟨0xA00140, [(0, 63, 1)], 22, 22, .status, resetK 0⟩
def CLI_PORT_STAT_lf_rx : Fld := ⟨0xA00140, [(0, 63, 1)], 21, 21, .status, resetK 0⟩
def CLI_PORT_STAT_rf_rx : Fld := ⟨0xA00140, [(0, 63, 1)], 20, 20, .status, resetK 0⟩
def CLI_PORT_STAT_lf_tx : Fld := ⟨0xA00140, [(0, 63, 1)], 19, 19, .status, resetK 0⟩
def CLI_PORT_STAT_fec_unc : Fld := ⟨0xA00140, [(0, 63, 1)], 18, 18, .kept, resetK 0⟩
def CLI_PORT_STAT_drop : Fld := ⟨0xA00140, [(0, 63, 1)], 17, 17, .kept, resetK 0⟩
def CLI_FXG_CFG_en : Fld := ⟨0xA00200, [(0, 15, 1)], 23, 23, .vintage, resetK 0⟩
def CLI_FXG_CFG_num : Fld := ⟨0xA00200, [(0, 15, 1)], 22, 3, .vintage, resetK 1⟩
def CLI_FXG_STAT_tx_cal : Fld := ⟨0xA00210, [(0, 15, 1)], 23, 23, .status, resetK 0⟩
def CLI_FXG_STAT_rx_cal : Fld := ⟨0xA00210, [(0, 15, 1)], 22, 22, .status, resetK 0⟩
def CLI_FXG_STAT_sw_pend : Fld := ⟨0xA00210, [(0, 15, 1)], 21, 21, .status, resetK 0⟩
def CLI_FXG_STAT_oh_lock : Fld := ⟨0xA00210, [(0, 15, 1)], 20, 20, .status, resetK 0⟩
def CLI_FXG_STAT_mismatch : Fld := ⟨0xA00210, [(0, 15, 1)], 19, 19, .kept, resetK 0⟩
def CLI_FXC_CFG_en : Fld := ⟨0xA00400, [(0, 511, 1)], 23, 23, .vintage, resetK 0⟩
def CLI_FXC_CFG_ch : Fld := ⟨0xA00400, [(0, 511, 1)], 22, 14, .vintage, resetK 0⟩
def CLI_FXC_ID_id : Fld := ⟨0xA00600, [(0, 511, 1)], 23, 8, .vintage, resetK 0⟩
def CLI_FXG_CAL_used : Fld := ⟨0xA10000, [(0, 15, 1024), (0, 639, 1)], 23, 23, .vintage, resetK 0⟩
def CLI_FXG_CAL_client : Fld := ⟨0xA10000, [(0, 15, 1024), (0, 639, 1)], 22, 14, .vintage, resetK 0⟩
def CEL_STAT_avail : Fld := ⟨0xB00000, [], 23, 23, .status, resetK 0⟩
def CEL_STAT_ch_ok : Fld := ⟨0xB00000, [], 22, 15, .status, resetK 0⟩
def CEL_STAT_density : Fld := ⟨0xB00000, [], 14, 14, .status, resetK 0⟩
def CEL_STAT_mix : Fld := ⟨0xB00000, [], 13, 13, .kept, resetK 0⟩
def CEL_STAT_arch_lost : Fld := ⟨0xB00000, [], 12, 12, .kept, resetK 0⟩
def CEL_STAT_jarc_lost : Fld := ⟨0xB00000, [], 11, 11, .kept, resetK 0⟩
def CEL_CFG_rate : Fld := ⟨0xB00001, [], 23, 18, .vintage, resetK 32⟩
def CEL_CFG_dsk : Fld := ⟨0xB00001, [], 17, 13, .vintage, resetK 24⟩
def CEL_ADM_STAT_max_ctx : Fld := ⟨0xB00002, [], 23, 10, .status, resetK 0⟩
def CEL_CAP_STAT_segs : Fld := ⟨0xB00003, [], 23, 10, .status, resetK 0⟩
def CEL_CMD_retrain : Fld := ⟨0xB00004, [], 23, 23, .command, resetK 0⟩
def CEL_CMD_refused : Fld := ⟨0xB00004, [], 22, 22, .kept, resetK 0⟩
def CEL_ACC_ADDR_H_addr : Fld := ⟨0xB00010, [], 4, 0, .live, resetK 0⟩
def CEL_ACC_ADDR_L_addr : Fld := ⟨0xB00011, [], 23, 0, .live, resetK 0⟩
def CEL_ACC_CMD_go : Fld := ⟨0xB00012, [], 23, 23, .command, resetK 0⟩
def CEL_ACC_CMD_op : Fld := ⟨0xB00012, [], 22, 21, .live, resetK 0⟩
def CEL_ACC_CMD_refused : Fld := ⟨0xB00012, [], 20, 20, .kept, resetK 0⟩
def CEL_ACC_CMD_busy : Fld := ⟨0xB00012, [], 19, 19, .status, resetK 0⟩
def CEL_ACC_CMD_result : Fld := ⟨0xB00012, [], 18, 16, .status, resetK 0⟩
def CEL_ACC_CMD_sym : Fld := ⟨0xB00012, [], 15, 9, .status, resetK 0⟩
def CEL_ACC_DATA_bytes : Fld := ⟨0xB00020, [(0, 21, 1)], 23, 0, .live, resetK 0⟩
def CEL_ACC_CHK_bytes : Fld := ⟨0xB00040, [], 23, 0, .live, resetK 0⟩
def CEL_ACC_CHK3_byte : Fld := ⟨0xB00041, [], 23, 16, .live, resetK 0⟩
def CEL_TOUCH_BASE_mib : Fld := ⟨0xB00050, [], 23, 9, .live, resetK 0⟩
def CEL_TOUCH_LEN_mib : Fld := ⟨0xB00051, [], 23, 9, .live, resetK 0⟩
def CEL_TOUCH_CMD_go : Fld := ⟨0xB00052, [], 23, 23, .command, resetK 0⟩
def CEL_TOUCH_CMD_busy : Fld := ⟨0xB00052, [], 22, 22, .status, resetK 0⟩
def CEL_TOUCH_CMD_refused : Fld := ⟨0xB00052, [], 21, 21, .kept, resetK 0⟩
def CEL_PPR_ADDR_ch : Fld := ⟨0xB00060, [], 23, 21, .live, resetK 0⟩
def CEL_PPR_ADDR_bank : Fld := ⟨0xB00060, [], 20, 17, .live, resetK 0⟩
def CEL_PPR_ADDR_row : Fld := ⟨0xB00060, [], 16, 0, .live, resetK 0⟩
def CEL_PPR_CMD_go : Fld := ⟨0xB00061, [], 23, 23, .command, resetK 0⟩
def CEL_PPR_CMD_status : Fld := ⟨0xB00061, [], 22, 20, .status, resetK 0⟩
def CEL_ELOG_CE_ch : Fld := ⟨0xB00070, [], 23, 21, .status, resetK 0⟩
def CEL_ELOG_CE_bank : Fld := ⟨0xB00070, [], 20, 17, .status, resetK 0⟩
def CEL_ELOG_CE_row : Fld := ⟨0xB00070, [], 16, 0, .status, resetK 0⟩
def CEL_ELOG_UE_ch : Fld := ⟨0xB00071, [], 23, 21, .status, resetK 0⟩
def CEL_ELOG_UE_bank : Fld := ⟨0xB00071, [], 20, 17, .status, resetK 0⟩
def CEL_ELOG_UE_row : Fld := ⟨0xB00071, [], 16, 0, .status, resetK 0⟩
def CEL_MEM_INJ_arm : Fld := ⟨0xB00080, [], 23, 23, .command, resetK 0⟩
def CEL_MEM_INJ_cls : Fld := ⟨0xB00080, [], 22, 19, .live, resetK 0⟩
def CEL_MEM_INJ_sym0 : Fld := ⟨0xB00080, [], 18, 14, .live, resetK 0⟩
def CEL_MEM_INJ_sym1 : Fld := ⟨0xB00080, [], 13, 9, .live, resetK 0⟩
def CEL_MEM_INJ_two : Fld := ⟨0xB00080, [], 8, 8, .live, resetK 0⟩
def CEL_SOL_CFG_weight : Fld := ⟨0xB00090, [(3, 6, 1)], 23, 20, .live, celWeightReset⟩
def CEL_SOL_CFG_entry : Fld := ⟨0xB00090, [(3, 6, 1)], 19, 18, .live, celEntryReset⟩
def CEL_SOL_CFG_age : Fld := ⟨0xB00090, [(3, 6, 1)], 17, 10, .live, resetK 16⟩
def SEQ_EXEC_CFG_pkt_to : Fld := ⟨0xC00000, [], 23, 16, .live, resetK 100⟩
def SEQ_EXEC_STAT_alive : Fld := ⟨0xC00001, [], 23, 23, .status, resetK 0⟩
def SEQ_EXEC_STAT_idle_sq : Fld := ⟨0xC00001, [], 22, 19, .status, resetK 0⟩
def SEQ_EXEC_STAT_rejected : Fld := ⟨0xC00001, [], 18, 7, .status, resetK 0⟩
def SEQ_ABORT_CMD_go : Fld := ⟨0xC00002, [], 23, 23, .command, resetK 0⟩
def SEQ_ABORT_CMD_func : Fld := ⟨0xC00002, [], 22, 19, .live, resetK 0⟩
def SEQ_ABORT_CMD_nomatch : Fld := ⟨0xC00002, [], 18, 18, .kept, resetK 0⟩
def SEQ_ABORT_TAG_tag : Fld := ⟨0xC00003, [], 23, 0, .live, resetK 0⟩
def SEQ_SQ_STAT_state : Fld := ⟨0xC00010, [(1, 15, 1)], 23, 22, .status, resetK 0⟩
def SEQ_SQ_STAT_func : Fld := ⟨0xC00010, [(1, 15, 1)], 21, 18, .status, resetK 0⟩
def SEQ_SQ_STAT_program : Fld := ⟨0xC00010, [(1, 15, 1)], 17, 6, .status, resetK 0⟩
def SEQ_SQ_TAG_tag : Fld := ⟨0xC00020, [(1, 15, 1)], 23, 0, .status, resetK 0⟩
def SEQ_SQ_PC_z : Fld := ⟨0xC00030, [(1, 15, 1)], 23, 23, .status, resetK 0⟩
def SEQ_SQ_PC_n : Fld := ⟨0xC00030, [(1, 15, 1)], 22, 22, .status, resetK 0⟩
def SEQ_SQ_PC_c : Fld := ⟨0xC00030, [(1, 15, 1)], 21, 21, .status, resetK 0⟩
def SEQ_SQ_PC_v : Fld := ⟨0xC00030, [(1, 15, 1)], 20, 20, .status, resetK 0⟩
def SEQ_SQ_PC_t : Fld := ⟨0xC00030, [(1, 15, 1)], 19, 19, .status, resetK 0⟩
def SEQ_SQ_PC_pc : Fld := ⟨0xC00030, [(1, 15, 1)], 18, 0, .status, resetK 0⟩
def SEQ_CLAIM_STAT_held : Fld := ⟨0xC00100, [(0, 255, 1)], 23, 23, .status, resetK 0⟩
def SEQ_CLAIM_STAT_sq : Fld := ⟨0xC00100, [(0, 255, 1)], 22, 19, .status, resetK 0⟩
def SEQ_CLAIM_STAT_waiters : Fld := ⟨0xC00100, [(0, 255, 1)], 18, 15, .status, resetK 0⟩
def VTG_STAT_state : Fld := ⟨0xC00200, [], 23, 21, .status, resetK 0⟩
def VTG_STAT_bd : Fld := ⟨0xC00200, [], 20, 18, .status, resetK 0⟩
def VTG_STAT_line : Fld := ⟨0xC00200, [], 17, 17, .status, resetK 0⟩
def VTG_STAT_domain : Fld := ⟨0xC00200, [], 16, 16, .status, resetK 0⟩
def VTG_STAT_prev_valid : Fld := ⟨0xC00200, [], 15, 15, .status, resetK 0⟩
def VTG_STAT_staged_diff : Fld := ⟨0xC00200, [], 14, 14, .status, resetK 0⟩
def VTG_STAT_last_fail : Fld := ⟨0xC00200, [], 13, 10, .status, resetK 0⟩
def VTG_STAT_last_ret : Fld := ⟨0xC00200, [], 9, 6, .status, resetK 0⟩
def VTG_STAT_returned : Fld := ⟨0xC00200, [], 5, 5, .kept, resetK 0⟩
def VTG_STAT_late : Fld := ⟨0xC00200, [], 4, 4, .status, resetK 0⟩
def VTG_SERIAL_CUR_serial : Fld := ⟨0xC00201, [], 23, 0, .status, resetK 0⟩
def VTG_SERIAL_PREV_serial : Fld := ⟨0xC00202, [], 23, 0, .status, resetK 0⟩
def VTG_SERIAL_PEND_serial : Fld := ⟨0xC00203, [], 23, 0, .status, resetK 0⟩
def VTG_CMD_ret : Fld := ⟨0xC00204, [], 23, 23, .command, resetK 0⟩
def VTG_CMD_accept : Fld := ⟨0xC00204, [], 22, 22, .command, resetK 0⟩
def VTG_CMD_fail : Fld := ⟨0xC00204, [], 21, 21, .command, resetK 0⟩
def VTG_CMD_withdraw : Fld := ⟨0xC00204, [], 20, 20, .command, resetK 0⟩
def VTG_CMD_reset_staged : Fld := ⟨0xC00204, [], 19, 19, .command, resetK 0⟩
def VTG_CMD_load_arch : Fld := ⟨0xC00204, [], 18, 18, .command, resetK 0⟩
def VTG_CMD_load_rescue : Fld := ⟨0xC00204, [], 17, 17, .command, resetK 0⟩
def VTG_CMD_release : Fld := ⟨0xC00204, [], 16, 16, .command, resetK 0⟩
def VTG_CMD_dom_ret : Fld := ⟨0xC00204, [], 15, 15, .command, resetK 0⟩
def VTG_CMD_nomatch : Fld := ⟨0xC00204, [], 14, 14, .kept, resetK 0⟩
def VTG_ARCH_SEL_serial : Fld := ⟨0xC00205, [], 23, 0, .live, resetK 0⟩
def VTG_ARCH_STAT_count : Fld := ⟨0xC00206, [], 23, 17, .status, resetK 0⟩
def VTG_DOM_CFG_dom : Fld := ⟨0xC00207, [], 23, 23, .live, resetK 0⟩
def VTG_PROB_CFG_window : Fld := ⟨0xC00208, [], 23, 12, .vintage, resetK 60⟩
def VTG_PROB_CFG_judge_mask : Fld := ⟨0xC00208, [], 11, 4, .vintage, resetK 0⟩
def VTG_PROB_CFG_wdog_en : Fld := ⟨0xC00208, [], 3, 3, .vintage, resetK 1⟩
def VTG_PROB_CFG_host_en : Fld := ⟨0xC00208, [], 2, 2, .vintage, resetK 1⟩
def VTG_PROB_THR_ucb_thr : Fld := ⟨0xC00209, [], 23, 20, .vintage, resetK 0⟩
def VTG_PROB_THR_dlm_thr : Fld := ⟨0xC00209, [], 19, 16, .vintage, resetK 0⟩
def VTG_PROB_STAT_elapsed : Fld := ⟨0xC0020A, [], 23, 12, .status, resetK 0⟩
def VTG_STG_ADDR_value : Fld := ⟨0xC0020C, [], 23, 0, .live, resetK 0⟩
def VTG_STG_MASK_value : Fld := ⟨0xC0020D, [], 23, 0, .live, resetK 0⟩
def VTG_STG_DATA_value : Fld := ⟨0xC0020E, [], 23, 0, .live, resetK 0⟩
def VTG_STG_CMD_go : Fld := ⟨0xC0020F, [], 23, 23, .command, resetK 0⟩
def VTG_STG_CMD_read : Fld := ⟨0xC0020F, [], 22, 22, .command, resetK 0⟩
def VTG_STG_CMD_err : Fld := ⟨0xC0020F, [], 21, 21, .kept, resetK 0⟩
def SEQ_SOL_CFG_weight : Fld := ⟨0xC00300, [(0, 15, 1)], 23, 20, .live, resetF0 8 1⟩
def SEQ_SOL_CFG_entry : Fld := ⟨0xC00300, [(0, 15, 1)], 19, 18, .live, resetF0 1 0⟩
def SEQ_SOL_RES_res : Fld := ⟨0xC00310, [], 23, 22, .live, resetK 1⟩
def SEQ_SOL_RES_age : Fld := ⟨0xC00310, [], 21, 14, .live, resetK 10⟩
def SEQ_LOAD_ADDR_addr : Fld := ⟨0xC00400, [], 19, 0, .live, resetK 0⟩
def SEQ_LOAD_DATA_word : Fld := ⟨0xC00401, [], 23, 0, .live, resetK 0⟩
def SEQ_LOAD_CMD_begin : Fld := ⟨0xC00402, [], 23, 23, .command, resetK 0⟩
def SEQ_LOAD_CMD_verify : Fld := ⟨0xC00402, [], 22, 22, .command, resetK 0⟩
def SEQ_LOAD_CMD_busy : Fld := ⟨0xC00402, [], 21, 21, .status, resetK 0⟩
def SEQ_LOAD_CMD_result : Fld := ⟨0xC00402, [], 20, 18, .status, resetK 0⟩
def SEQ_PSET_ID_id : Fld := ⟨0xC00403, [], 23, 0, .status, resetK 1⟩
def SEQ_PSET_CFG_id : Fld := ⟨0xC00404, [], 23, 0, .vintage, resetK 1⟩
def HIF_ERR_STAT_fabric : Fld := ⟨0xD00000, [], 23, 23, .kept, resetK 0⟩
def HIF_ERR_STAT_be : Fld := ⟨0xD00000, [], 22, 22, .kept, resetK 0⟩
def HIF_ERR_ADDR_addr : Fld := ⟨0xD00001, [], 23, 0, .status, resetK 0⟩
def HIF_Q_CFG_thr : Fld := ⟨0xD01000, [(0, 40, 8)], 23, 12, .live, resetK 8⟩
def HIF_Q_CFG_reset : Fld := ⟨0xD01000, [(0, 40, 8)], 11, 11, .command, resetK 0⟩
def HIF_Q_CFG_wm : Fld := ⟨0xD01000, [(0, 40, 8)], 9, 0, .live, resetK 0⟩
def HIF_Q_STAT_count : Fld := ⟨0xD01001, [(0, 40, 8)], 23, 9, .status, resetK 0⟩
def HIF_Q_STAT_notice : Fld := ⟨0xD01001, [(0, 40, 8)], 8, 8, .kept, resetK 0⟩
def HIF_Q_STAT_wm_hit : Fld := ⟨0xD01001, [(0, 40, 8)], 7, 7, .kept, resetK 0⟩
def HIF_Q_PEAK_peak : Fld := ⟨0xD01002, [(0, 40, 8)], 23, 9, .status, resetK 0⟩
def HIF_Q_OVF_pkts : Fld := ⟨0xD01003, [(0, 40, 8)], 23, 12, .status, resetK 0⟩
def HIF_Q_OVF_words : Fld := ⟨0xD01003, [(0, 40, 8)], 11, 0, .status, resetK 0⟩
def HIF_DMA_ADDR_H_addr : Fld := ⟨0xD02000, [(0, 17, 8)], 23, 0, .live, resetK 0⟩
def HIF_DMA_ADDR_L_addr : Fld := ⟨0xD02001, [(0, 17, 8)], 23, 0, .live, resetK 0⟩
def HIF_DMA_CFG_en : Fld := ⟨0xD02002, [(0, 17, 8)], 23, 23, .live, resetK 0⟩
def HIF_DMA_CFG_err : Fld := ⟨0xD02002, [(0, 17, 8)], 22, 22, .kept, resetK 0⟩
def HIF_DMA_CFG_size : Fld := ⟨0xD02002, [(0, 17, 8)], 21, 17, .live, resetK 10⟩
def HIF_DMA_HEAD_count : Fld := ⟨0xD02003, [(0, 17, 8)], 20, 0, .live, resetK 0⟩
def HIF_DMA_TAIL_count : Fld := ⟨0xD02004, [(0, 17, 8)], 20, 0, .status, resetK 0⟩
def HIF_EVT_MAP_en : Fld := ⟨0xD03000, [(0, 255, 1)], 23, 23, .live, evtMapEnReset⟩
def HIF_EVT_MAP_func : Fld := ⟨0xD03000, [(0, 255, 1)], 22, 19, .live, resetK 0⟩
def HIF_EVT_MAP_vec : Fld := ⟨0xD03000, [(0, 255, 1)], 18, 10, .live, evtMapVecReset⟩
def MON_SEQ_CTL_go : Fld := ⟨0xE00000, [], 23, 23, .command, resetK 0⟩
def MON_SEQ_CTL_stop : Fld := ⟨0xE00000, [], 22, 22, .command, resetK 0⟩
def MON_SEQ_CTL_running : Fld := ⟨0xE00000, [], 21, 21, .status, resetK 0⟩
def MON_SEQ_CTL_tmr_en : Fld := ⟨0xE00000, [], 20, 20, .live, resetK 0⟩
def MON_SEQ_CTL_timer : Fld := ⟨0xE00000, [], 19, 16, .live, resetK 0⟩
def MON_SEQ_CFG_mask : Fld := ⟨0xE00010, [(0, 15, 1)], 23, 16, .live, resetK 255⟩
def MON_PRV_CFG_en : Fld := ⟨0xE00020, [(0, 7, 1)], 23, 23, .live, resetK 0⟩
def MON_PRV_CFG_sel : Fld := ⟨0xE00020, [(0, 7, 1)], 22, 19, .live, resetK 0⟩
def MON_CAL_CFG_bg_en : Fld := ⟨0xE00030, [], 23, 23, .live, resetK 1⟩
def MON_CAL_CFG_bg_pos : Fld := ⟨0xE00030, [], 21, 17, .status, resetK 0⟩
def MON_CAL_CMD_fg : Fld := ⟨0xE00031, [], 23, 23, .command, resetK 0⟩
def MON_CAL_CMD_busy : Fld := ⟨0xE00031, [], 22, 22, .status, resetK 0⟩
def MON_CAL_CMD_mask : Fld := ⟨0xE00031, [], 15, 0, .live, resetK 0⟩
def MON_TDAC_CFG_en : Fld := ⟨0xE00038, [], 23, 23, .live, resetK 0⟩
def MON_TDAC_CFG_min : Fld := ⟨0xE00038, [], 22, 16, .live, resetK 0⟩
def MON_TDAC_CFG_code : Fld := ⟨0xE00038, [], 15, 6, .live, resetK 512⟩
def MON_DR_CFG_freq : Fld := ⟨0xE0003C, [(0, 3, 1)], 23, 0, .live, resetK 1000⟩
def MON_INJ_CFG_min : Fld := ⟨0xE00040, [(0, 15, 4)], 23, 17, .live, resetK 0⟩
def MON_INJ_CFG_len : Fld := ⟨0xE00040, [(0, 15, 4)], 16, 9, .live, resetK 0⟩
def MON_INJ_CFG_trig : Fld := ⟨0xE00040, [(0, 15, 4)], 8, 7, .live, resetK 0⟩
def MON_INJ_CFG_dl : Fld := ⟨0xE00040, [(0, 15, 4)], 6, 0, .live, resetK 100⟩
def MON_INJ_CMD_go : Fld := ⟨0xE00041, [(0, 15, 4)], 23, 23, .command, resetK 0⟩
def MON_INJ_CMD_timer : Fld := ⟨0xE00041, [(0, 15, 4)], 22, 19, .live, resetK 0⟩
def MON_INJ_CMD_event : Fld := ⟨0xE00041, [(0, 15, 4)], 18, 11, .live, resetK 0⟩
def MON_INJ_STAT_status : Fld := ⟨0xE00042, [(0, 15, 4)], 23, 22, .status, resetK 0⟩
def MON_INJ_STAT_merged : Fld := ⟨0xE00042, [(0, 15, 4)], 21, 14, .status, resetK 0⟩
def MON_INJ_STAT_time_hi : Fld := ⟨0xE00042, [(0, 15, 4)], 13, 6, .status, resetK 0⟩
def MON_INJ_TIME_L_time_lo : Fld := ⟨0xE00043, [(0, 15, 4)], 23, 0, .status, resetK 0⟩
def MON_ACC_CMD_snap : Fld := ⟨0xE00080, [], 23, 23, .command, resetK 0⟩
def MON_ACC_CMD_clr : Fld := ⟨0xE00080, [], 22, 22, .live, resetK 1⟩
def MON_ACC_CMD_auto : Fld := ⟨0xE00080, [], 21, 21, .live, resetK 0⟩
def MON_IN_CFG_dr : Fld := ⟨0xE00100, [(0, 127, 1)], 23, 22, .live, resetK 0⟩
def MON_IN_STAT_ovr : Fld := ⟨0xE00180, [(0, 127, 1)], 23, 23, .kept, resetK 0⟩
def MON_IN_STAT_sat : Fld := ⟨0xE00180, [(0, 127, 1)], 22, 22, .kept, resetK 0⟩
def MON_IN_STAT_test : Fld := ⟨0xE00180, [(0, 127, 1)], 21, 21, .status, resetK 0⟩
def MON_INJ_RES_word : Fld := ⟨0xE00200, [(0, 15, 8), (0, 7, 1)], 23, 0, .status, resetK 0⟩
def MON_ACC_word : Fld := ⟨0xE10000, [(0, 127, 16), (0, 15, 1)], 23, 0, .status, resetK 0⟩
def MON_DC_CFG_src : Fld := ⟨0xE20000, [(0, 63, 16)], 23, 23, .live, resetK 0⟩
def MON_DC_CFG_sel : Fld := ⟨0xE20000, [(0, 63, 16)], 22, 16, .live, resetK 0⟩
def MON_DC_CFG_order : Fld := ⟨0xE20000, [(0, 63, 16)], 15, 14, .live, resetK 0⟩
def MON_DC_CFG_dec : Fld := ⟨0xE20000, [(0, 63, 16)], 13, 2, .live, resetK 3⟩
def MON_DC_CFG_tel : Fld := ⟨0xE20000, [(0, 63, 16)], 1, 1, .live, resetK 0⟩
def MON_DC_SHI_shift : Fld := ⟨0xE20001, [(0, 63, 16)], 23, 4, .live, resetK 0⟩
def MON_DC_SHC_shift : Fld := ⟨0xE20002, [(0, 63, 16)], 23, 4, .live, resetK 0⟩
def MON_DC_RESP_r : Fld := ⟨0xE20003, [(0, 63, 16)], 23, 19, .live, resetK 0⟩
def MON_DC_RESP_fade : Fld := ⟨0xE20003, [(0, 63, 16)], 18, 9, .live, resetK 64⟩
def MON_DC_DET_wrms : Fld := ⟨0xE20004, [(0, 63, 16)], 23, 20, .live, resetK 8⟩
def MON_DC_DET_att : Fld := ⟨0xE20004, [(0, 63, 16)], 19, 16, .live, resetK 2⟩
def MON_DC_DET_rel : Fld := ⟨0xE20004, [(0, 63, 16)], 15, 12, .live, resetK 8⟩
def MON_DC_STAT_r_now : Fld := ⟨0xE20005, [(0, 63, 16)], 23, 19, .status, resetK 0⟩
def MON_DC_STAT_fading : Fld := ⟨0xE20005, [(0, 63, 16)], 18, 18, .status, resetK 0⟩
def MON_DC_STAT_held : Fld := ⟨0xE20005, [(0, 63, 16)], 17, 17, .status, resetK 0⟩
def MON_DC_STAT_sat : Fld := ⟨0xE20005, [(0, 63, 16)], 16, 16, .kept, resetK 0⟩
def MON_DC_STAT_unsettled : Fld := ⟨0xE20005, [(0, 63, 16)], 15, 15, .status, resetK 1⟩
def MON_DC_OUT_value : Fld := ⟨0xE20006, [(0, 63, 16)], 23, 0, .status, resetK 0⟩
def MON_DC_SEQ_value : Fld := ⟨0xE20007, [(0, 63, 16)], 23, 0, .status, resetK 0⟩
def MON_DC_PEAK_value : Fld := ⟨0xE20008, [(0, 63, 16)], 23, 0, .status, resetK 0⟩
def MON_DC_RMS_value : Fld := ⟨0xE20009, [(0, 63, 16)], 23, 0, .status, resetK 0⟩
def MON_DC_ENV_value : Fld := ⟨0xE2000A, [(0, 63, 16)], 23, 0, .status, resetK 0⟩
def MON_SYNC_CMD_go : Fld := ⟨0xE21000, [], 23, 23, .command, resetK 0⟩
def MON_SYNC_CMD_tmr_en : Fld := ⟨0xE21000, [], 22, 22, .live, resetK 0⟩
def MON_SYNC_CMD_timer : Fld := ⟨0xE21000, [], 21, 18, .live, resetK 0⟩
def MON_CNT_CFG_en : Fld := ⟨0xE30000, [], 23, 23, .live, resetK 0⟩
def MON_CNT_CFG_tmr_en : Fld := ⟨0xE30000, [], 22, 22, .live, resetK 0⟩
def MON_CNT_CFG_timer : Fld := ⟨0xE30000, [], 21, 18, .live, resetK 0⟩
def MON_CNT_CFG_win : Fld := ⟨0xE30000, [], 15, 0, .live, resetK 1000⟩
def MON_SNAP_STAT_seq : Fld := ⟨0xE30001, [], 23, 0, .status, resetK 0⟩
def MON_CNT_SEL_value : Fld := ⟨0xE30002, [], 23, 0, .live, resetK 0⟩
def MON_CNT_LIVE_H_value : Fld := ⟨0xE30003, [], 23, 0, .status, resetK 0⟩
def MON_CNT_LIVE_L_value : Fld := ⟨0xE30004, [], 23, 0, .status, resetK 0⟩
def MON_GRANT_blocks : Fld := ⟨0xE30100, [(1, 15, 1)], 23, 8, .vintage, resetK 0⟩
def MON_BW_PORT_mbps : Fld := ⟨0xE31000, [(0, 63, 2), (0, 1, 1)], 23, 0, .status, resetK 0⟩
def MON_BW_FXC_mbps : Fld := ⟨0xE31100, [(0, 511, 2), (0, 1, 1)], 23, 0, .status, resetK 0⟩
def MON_BW_CH_mbps : Fld := ⟨0xE31500, [(0, 511, 2), (0, 1, 1)], 23, 0, .status, resetK 0⟩
def MON_BW_SLICE_mbps : Fld := ⟨0xE31900, [(0, 7, 2), (0, 1, 1)], 23, 0, .status, resetK 0⟩
def MON_CNT_SNAP_value : Fld := ⟨0xE40000, [(0, 16383, 2), (0, 1, 1)], 23, 0, .status, resetK 0⟩
def MON_AGE_CFG_interval : Fld := ⟨0xE50000, [], 23, 12, .vintage, resetK 60⟩
def MON_AGE_CFG_eye_en : Fld := ⟨0xE50000, [], 11, 11, .vintage, resetK 1⟩
def MON_AGE_VDD_vreq : Fld := ⟨0xE50001, [], 23, 14, .vintage, resetK 450⟩
def MON_AGE_VDD_base : Fld := ⟨0xE50001, [], 13, 4, .status, resetK 450⟩
def MON_AGE_STAT_worst : Fld := ⟨0xE50002, [], 23, 7, .status, resetK 0⟩
def MON_AGE_STAT_site : Fld := ⟨0xE50002, [], 6, 0, .status, resetK 0⟩
def MON_AGE_STAT2_avs_fail : Fld := ⟨0xE50003, [], 23, 23, .kept, resetK 0⟩
def MON_AGE_STAT2_hist_fail : Fld := ⟨0xE50003, [], 22, 22, .kept, resetK 0⟩
def MON_AGE_SITE_shift : Fld := ⟨0xE50100, [(0, 95, 1)], 23, 1, .status, resetK 0⟩
def MON_AGE_SITE_stale : Fld := ⟨0xE50100, [(0, 95, 1)], 0, 0, .status, resetK 1⟩
def MON_AGE_EYE_open : Fld := ⟨0xE50200, [(0, 75, 1)], 23, 12, .status, resetK 0⟩
def MON_AGE_EYE_stale : Fld := ⟨0xE50200, [(0, 75, 1)], 11, 11, .status, resetK 1⟩
def MON_AGE_BIAS_en : Fld := ⟨0xE50300, [(0, 15, 1)], 23, 23, .live, resetK 0⟩
def MON_AGE_BIAS_min : Fld := ⟨0xE50300, [(0, 15, 1)], 22, 16, .live, resetK 0⟩
def MON_AGE_POL_m_low : Fld := ⟨0xE50400, [], 23, 16, .live, resetK 32⟩
def MON_AGE_POL_m_high : Fld := ⟨0xE50400, [], 15, 8, .live, resetK 128⟩
def MON_AGE_POL_estep : Fld := ⟨0xE50400, [], 7, 4, .live, resetK 4⟩
def MON_AGE_POL_follow : Fld := ⟨0xE50400, [], 3, 3, .live, resetK 0⟩
def MON_AGE_POL2_ppm_step : Fld := ⟨0xE50401, [], 23, 12, .live, resetK 250⟩
def MON_AGE_POL2_vmax : Fld := ⟨0xE50401, [], 11, 2, .live, resetK 520⟩
def MON_AGE_POL3_window : Fld := ⟨0xE50402, [], 23, 12, .live, resetK 60⟩
def MON_AGE_POL3_ucb : Fld := ⟨0xE50402, [], 11, 8, .live, resetK 4⟩
def MON_AGE_POL3_backoff : Fld := ⟨0xE50402, [], 7, 0, .live, resetK 24⟩
def MON_AGE_POL4_cal_drop : Fld := ⟨0xE50403, [], 23, 16, .live, resetK 16⟩
def MON_AGE_POL4_cal_hold : Fld := ⟨0xE50403, [], 15, 8, .live, resetK 24⟩
def MON_AGE_POL4_cal_watch : Fld := ⟨0xE50403, [], 7, 0, .live, resetK 2⟩
def MON_AGE_SLC_e_min : Fld := ⟨0xE50410, [(0, 7, 1)], 23, 15, .live, resetK 128⟩
def MON_AGE_SLC_e_max : Fld := ⟨0xE50410, [(0, 7, 1)], 14, 6, .live, resetK 383⟩
def MON_AGE_SLC_plan_en : Fld := ⟨0xE50410, [(0, 7, 1)], 5, 5, .live, resetK 1⟩
def MON_AGE_PLAN_kind : Fld := ⟨0xE50420, [], 23, 21, .live, resetK 0⟩
def MON_AGE_PLAN_slices : Fld := ⟨0xE50420, [], 20, 13, .live, resetK 0⟩
def MON_AGE_PLAN_result : Fld := ⟨0xE50420, [], 12, 11, .live, resetK 0⟩
def MON_AGE_PLAN_blocked : Fld := ⟨0xE50420, [], 10, 3, .live, resetK 0⟩
def MON_AGE_PSER_serial : Fld := ⟨0xE50421, [], 23, 0, .live, resetK 0⟩
def MON_AGE_MREF_margin : Fld := ⟨0xE50430, [(0, 7, 1)], 23, 12, .live, resetK 0⟩
def MON_AGE_MREF_valid : Fld := ⟨0xE50430, [(0, 7, 1)], 11, 11, .live, resetK 0⟩
def MON_AGE_MREF_held_runs : Fld := ⟨0xE50430, [(0, 7, 1)], 10, 3, .live, resetK 0⟩
def MON_AGE_GREF_serial : Fld := ⟨0xE50438, [(0, 7, 1)], 23, 0, .live, resetK 0⟩
def PRY_PORT_CFG_en : Fld := ⟨0xF00000, [(0, 5, 16)], 23, 23, .vintage, resetK 1⟩
def PRY_PORT_CFG_keep : Fld := ⟨0xF00000, [(0, 5, 16)], 22, 22, .live, resetK 0⟩
def PRY_PORT_CFG_idle : Fld := ⟨0xF00000, [(0, 5, 16)], 21, 14, .live, resetK 16⟩
def PRY_PORT_STAT_state : Fld := ⟨0xF00001, [(0, 5, 16)], 23, 21, .status, resetK 0⟩
def PRY_PORT_STAT_pwr : Fld := ⟨0xF00001, [(0, 5, 16)], 20, 19, .status, resetK 2⟩
def PRY_PORT_STAT_fails : Fld := ⟨0xF00001, [(0, 5, 16)], 18, 15, .status, resetK 0⟩
def PRY_PORT_STAT_lost : Fld := ⟨0xF00001, [(0, 5, 16)], 14, 14, .kept, resetK 0⟩
def PRY_PORT_STAT_los : Fld := ⟨0xF00001, [(0, 5, 16)], 13, 13, .kept, resetK 0⟩
def PRY_PORT_PEER_serial : Fld := ⟨0xF00002, [(0, 5, 16)], 23, 0, .status, resetK 0⟩
def PRY_PORT_PINFO_info : Fld := ⟨0xF00003, [(0, 5, 16)], 23, 0, .status, resetK 0⟩
def PRY_TWIN_CFG_mark_en : Fld := ⟨0xF00100, [], 23, 23, .live, resetK 1⟩
def PRY_TWIN_CFG_take_en : Fld := ⟨0xF00100, [], 22, 22, .live, resetK 1⟩
def PRY_TWIN_STAT_pair : Fld := ⟨0xF00101, [], 23, 22, .status, resetK 0⟩
def PRY_TWIN_STAT_active : Fld := ⟨0xF00101, [], 21, 21, .status, resetK 0⟩
def PRY_TWIN_STAT_side : Fld := ⟨0xF00101, [], 20, 20, .status, resetK 0⟩
def PRY_TWIN_STAT_peer_active : Fld := ⟨0xF00101, [], 19, 19, .status, resetK 0⟩
def PRY_TWIN_STAT_ready : Fld := ⟨0xF00101, [], 18, 18, .status, resetK 0⟩
def PRY_TWIN_STAT_mirror_ok : Fld := ⟨0xF00101, [], 17, 17, .status, resetK 0⟩
def PRY_TWIN_STAT_lost : Fld := ⟨0xF00101, [], 16, 16, .kept, resetK 0⟩
def PRY_TWIN_STAT_deposed : Fld := ⟨0xF00101, [], 15, 15, .kept, resetK 0⟩
def PRY_TWIN_STAT_refused : Fld := ⟨0xF00101, [], 14, 14, .kept, resetK 0⟩
def PRY_TWIN_STAT_reason : Fld := ⟨0xF00101, [], 13, 10, .status, resetK 0⟩
def PRY_TWIN_CMD_release : Fld := ⟨0xF00102, [], 23, 23, .command, resetK 0⟩
def PRY_TWIN_CMD_detach : Fld := ⟨0xF00102, [], 22, 22, .command, resetK 0⟩
def PRY_TWIN_CMD_resync : Fld := ⟨0xF00102, [], 21, 21, .command, resetK 0⟩
def PRY_DOM_CFG_role : Fld := ⟨0xF00200, [], 23, 22, .vintage, resetK 0⟩
def PRY_DOM_STAT_dom : Fld := ⟨0xF00201, [], 23, 18, .status, resetK 0⟩
def PRY_DOM_STAT_depth : Fld := ⟨0xF00201, [], 17, 16, .status, resetK 0⟩
def PRY_DOM_STAT_mgr_ok : Fld := ⟨0xF00201, [], 15, 15, .status, resetK 0⟩
def PRY_DOM_STAT_mgr_lost : Fld := ⟨0xF00201, [], 14, 14, .kept, resetK 0⟩
def PRY_DOM_STAT_full : Fld := ⟨0xF00201, [], 13, 13, .kept, resetK 0⟩
def PRY_DOM_STAT_members : Fld := ⟨0xF00201, [], 12, 6, .status, resetK 1⟩
def PRY_DOM_MAP_serial : Fld := ⟨0xF00240, [(1, 63, 1)], 23, 0, .vintage, resetK 0⟩
def PRY_DOM_NODE_present : Fld := ⟨0xF00280, [(0, 63, 1)], 23, 23, .status, resetK 0⟩
def PRY_DOM_NODE_depth : Fld := ⟨0xF00280, [(0, 63, 1)], 22, 21, .status, resetK 0⟩
def PRY_DOM_NODE_parent : Fld := ⟨0xF00280, [(0, 63, 1)], 20, 15, .status, resetK 0⟩
def PRY_DOM_NODE_dn : Fld := ⟨0xF00280, [(0, 63, 1)], 14, 13, .status, resetK 0⟩
def PRY_DOM_SER_serial : Fld := ⟨0xF002C0, [(0, 63, 1)], 23, 0, .status, resetK 0⟩
def PRY_RFW_CFG_to : Fld := ⟨0xF00300, [], 23, 16, .live, resetK 100⟩
def PRY_RFW_ADDR_value : Fld := ⟨0xF00310, [(0, 3, 4)], 23, 0, .live, resetK 0⟩
def PRY_RFW_DATA_value : Fld := ⟨0xF00311, [(0, 3, 4)], 23, 0, .live, resetK 0⟩
def PRY_RFW_CMD_go : Fld := ⟨0xF00312, [(0, 3, 4)], 23, 23, .command, resetK 0⟩
def PRY_RFW_CMD_op : Fld := ⟨0xF00312, [(0, 3, 4)], 22, 22, .live, resetK 0⟩
def PRY_RFW_CMD_dom : Fld := ⟨0xF00312, [(0, 3, 4)], 21, 16, .live, resetK 0⟩
def PRY_RFW_CMD_busy : Fld := ⟨0xF00312, [(0, 3, 4)], 15, 15, .status, resetK 0⟩
def PRY_RFW_CMD_status : Fld := ⟨0xF00312, [(0, 3, 4)], 14, 13, .status, resetK 0⟩
def PRY_RFW_CMD_refused : Fld := ⟨0xF00312, [(0, 3, 4)], 12, 12, .kept, resetK 0⟩

end F

namespace R

def GLB_IDENT : Reg := ⟨"GLB_IDENT", 0x000000, [], [F.GLB_IDENT_part, F.GLB_IDENT_slice_mask, F.GLB_IDENT_rev_letter, F.GLB_IDENT_rev_digit]⟩
def GLB_STRAP : Reg := ⟨"GLB_STRAP", 0x000001, [], [F.GLB_STRAP_oscdly, F.GLB_STRAP_role, F.GLB_STRAP_twin_side, F.GLB_STRAP_nopcie]⟩
def GLB_TEMP : Reg := ⟨"GLB_TEMP", 0x000002, [], [F.GLB_TEMP_temp, F.GLB_TEMP_sensor]⟩
def GLB_CASK_STAT : Reg := ⟨"GLB_CASK_STAT", 0x000003, [], [F.GLB_CASK_STAT_present, F.GLB_CASK_STAT_dtr, F.GLB_CASK_STAT_dir_bad, F.GLB_CASK_STAT_rescue_rom, F.GLB_CASK_STAT_size]⟩
def GLB_MODE : Reg := ⟨"GLB_MODE", 0x000010, [], [F.GLB_MODE_req, F.GLB_MODE_mode, F.GLB_MODE_prev, F.GLB_MODE_busy, F.GLB_MODE_refused, F.GLB_MODE_boot_done, F.GLB_MODE_boot_img, F.GLB_MODE_no_image]⟩
def GLB_RST_CAUSE : Reg := ⟨"GLB_RST_CAUSE", 0x000011, [], [F.GLB_RST_CAUSE_cold, F.GLB_RST_CAUSE_fund, F.GLB_RST_CAUSE_cc, F.GLB_RST_CAUSE_sq, F.GLB_RST_CAUSE_slice]⟩
def GLB_RST_CMD : Reg := ⟨"GLB_RST_CMD", 0x000012, [], [F.GLB_RST_CMD_cc, F.GLB_RST_CMD_slice, F.GLB_RST_CMD_sel]⟩
def GLB_SLICE_CTL : Reg := ⟨"GLB_SLICE_CTL", 0x000018, [(0, 7, 1)], [F.GLB_SLICE_CTL_en]⟩
def GLB_SLICE_STAT : Reg := ⟨"GLB_SLICE_STAT", 0x000020, [(0, 7, 1)], [F.GLB_SLICE_STAT_state, F.GLB_SLICE_STAT_wake_pending, F.GLB_SLICE_STAT_wake_fail, F.GLB_SLICE_STAT_fused_off, F.GLB_SLICE_STAT_wake_step, F.GLB_SLICE_STAT_last_drain]⟩
def GLB_HOST_CFG : Reg := ⟨"GLB_HOST_CFG", 0x000030, [], [F.GLB_HOST_CFG_silence]⟩
def GLB_HOST_STAT : Reg := ⟨"GLB_HOST_STAT", 0x000031, [], [F.GLB_HOST_STAT_unatt]⟩
def GLB_REC_CFG : Reg := ⟨"GLB_REC_CFG", 0x000032, [], [F.GLB_REC_CFG_delay, F.GLB_REC_CFG_unatt_delay, F.GLB_REC_CFG_max, F.GLB_REC_CFG_policy]⟩
def GLB_REC_STAT : Reg := ⟨"GLB_REC_STAT", 0x000033, [], [F.GLB_REC_STAT_cause, F.GLB_REC_STAT_given_up, F.GLB_REC_STAT_entries]⟩
def GLB_DP_STAT : Reg := ⟨"GLB_DP_STAT", 0x000035, [], [F.GLB_DP_STAT_stalls, F.GLB_DP_STAT_shared]⟩
def GLB_EVT_PEND : Reg := ⟨"GLB_EVT_PEND", 0x000040, [(0, 5, 1)], [F.GLB_EVT_PEND_bits]⟩
def GLB_FAULT_EN : Reg := ⟨"GLB_FAULT_EN", 0x000048, [(0, 5, 1)], [F.GLB_FAULT_EN_bits]⟩
def GLB_CASK_WIN_ADDR : Reg := ⟨"GLB_CASK_WIN_ADDR", 0x000050, [], [F.GLB_CASK_WIN_ADDR_addr]⟩
def GLB_CASK_WIN_DATA : Reg := ⟨"GLB_CASK_WIN_DATA", 0x000051, [], [F.GLB_CASK_WIN_DATA_data]⟩
def GLB_CASK_WIN_CMD : Reg := ⟨"GLB_CASK_WIN_CMD", 0x000052, [], [F.GLB_CASK_WIN_CMD_go, F.GLB_CASK_WIN_CMD_op, F.GLB_CASK_WIN_CMD_busy, F.GLB_CASK_WIN_CMD_refused, F.GLB_CASK_WIN_CMD_err, F.GLB_CASK_WIN_CMD_addr_hi]⟩
def GLB_FES_CFG : Reg := ⟨"GLB_FES_CFG", 0x000100, [(0, 7, 4)], [F.GLB_FES_CFG_div, F.GLB_FES_CFG_retry]⟩
def GLB_FES_ADDR : Reg := ⟨"GLB_FES_ADDR", 0x000101, [(0, 7, 4)], [F.GLB_FES_ADDR_addr]⟩
def GLB_FES_DATA : Reg := ⟨"GLB_FES_DATA", 0x000102, [(0, 7, 4)], [F.GLB_FES_DATA_data]⟩
def GLB_FES_CMD : Reg := ⟨"GLB_FES_CMD", 0x000103, [(0, 7, 4)], [F.GLB_FES_CMD_go, F.GLB_FES_CMD_op, F.GLB_FES_CMD_cs, F.GLB_FES_CMD_busy, F.GLB_FES_CMD_err, F.GLB_FES_CMD_refused]⟩
def TIM_CLK_STAT : Reg := ⟨"TIM_CLK_STAT", 0x100000, [], [F.TIM_CLK_STAT_main_lock, F.TIM_CLK_STAT_main_coast, F.TIM_CLK_STAT_on_fallback, F.TIM_CLK_STAT_hostclk_fail, F.TIM_CLK_STAT_oscdly, F.TIM_CLK_STAT_hostclk_good]⟩
def TIM_CLK_SSC : Reg := ⟨"TIM_CLK_SSC", 0x100001, [], [F.TIM_CLK_SSC_en, F.TIM_CLK_SSC_depth, F.TIM_CLK_SSC_rate]⟩
def TIM_CAND_CFG : Reg := ⟨"TIM_CAND_CFG", 0x100010, [(0, 15, 1)], [F.TIM_CAND_CFG_prio, F.TIM_CAND_CFG_ql, F.TIM_CAND_CFG_yard, F.TIM_CAND_CFG_holdoff, F.TIM_CAND_CFG_wtr]⟩
def TIM_CAND_LIM : Reg := ⟨"TIM_CAND_LIM", 0x100020, [(0, 15, 1)], [F.TIM_CAND_LIM_soft, F.TIM_CAND_LIM_hard]⟩
def TIM_CAND_STAT : Reg := ⟨"TIM_CAND_STAT", 0x100030, [(0, 15, 1)], [F.TIM_CAND_STAT_state, F.TIM_CAND_STAT_ql_used, F.TIM_CAND_STAT_soft_hit, F.TIM_CAND_STAT_hard_hit, F.TIM_CAND_STAT_lost]⟩
def TIM_CAND_OFF : Reg := ⟨"TIM_CAND_OFF", 0x100040, [(0, 15, 1)], [F.TIM_CAND_OFF_off]⟩
def TIM_CAND_QLRX : Reg := ⟨"TIM_CAND_QLRX", 0x100050, [(0, 15, 1)], [F.TIM_CAND_QLRX_valid, F.TIM_CAND_QLRX_code]⟩
def TIM_SEL_CFG : Reg := ⟨"TIM_SEL_CFG", 0x100060, [], [F.TIM_SEL_CFG_revert, F.TIM_SEL_CFG_ql_en, F.TIM_SEL_CFG_bw, F.TIM_SEL_CFG_win]⟩
def TIM_SEL_CMD : Reg := ⟨"TIM_SEL_CMD", 0x100061, [], [F.TIM_SEL_CMD_go, F.TIM_SEL_CMD_code, F.TIM_SEL_CMD_cand, F.TIM_SEL_CMD_refused]⟩
def TIM_SEL_STAT : Reg := ⟨"TIM_SEL_STAT", 0x100062, [], [F.TIM_SEL_STAT_state, F.TIM_SEL_STAT_sel, F.TIM_SEL_STAT_cmd, F.TIM_SEL_STAT_switched, F.TIM_SEL_STAT_switches]⟩
def TIM_SEL_LOCK : Reg := ⟨"TIM_SEL_LOCK", 0x100063, [], [F.TIM_SEL_LOCK_lock]⟩
def TIM_REFIN_CFG : Reg := ⟨"TIM_REFIN_CFG", 0x100064, [], [F.TIM_REFIN_CFG_freq]⟩
def TIM_PHS_AMT : Reg := ⟨"TIM_PHS_AMT", 0x100070, [], [F.TIM_PHS_AMT_amt]⟩
def TIM_PHS_CMD : Reg := ⟨"TIM_PHS_CMD", 0x100071, [], [F.TIM_PHS_CMD_go, F.TIM_PHS_CMD_busy, F.TIM_PHS_CMD_clamp]⟩
def TIM_PHS_REM : Reg := ⟨"TIM_PHS_REM", 0x100072, [], [F.TIM_PHS_REM_rem]⟩
def TIM_TOD_CFG : Reg := ⟨"TIM_TOD_CFG", 0x100080, [], [F.TIM_TOD_CFG_wrap_en]⟩
def TIM_TOD_INC_H : Reg := ⟨"TIM_TOD_INC_H", 0x100081, [], [F.TIM_TOD_INC_H_inc]⟩
def TIM_TOD_INC_L : Reg := ⟨"TIM_TOD_INC_L", 0x100082, [], [F.TIM_TOD_INC_L_inc]⟩
def TIM_TOD_NS_H : Reg := ⟨"TIM_TOD_NS_H", 0x100083, [], [F.TIM_TOD_NS_H_value]⟩
def TIM_TOD_NS_L : Reg := ⟨"TIM_TOD_NS_L", 0x100084, [], [F.TIM_TOD_NS_L_value]⟩
def TIM_TOD_FRAC : Reg := ⟨"TIM_TOD_FRAC", 0x100085, [], [F.TIM_TOD_FRAC_value]⟩
def TIM_TOD_SET_H : Reg := ⟨"TIM_TOD_SET_H", 0x100086, [], [F.TIM_TOD_SET_H_value]⟩
def TIM_TOD_SET_L : Reg := ⟨"TIM_TOD_SET_L", 0x100087, [], [F.TIM_TOD_SET_L_value]⟩
def TIM_TOD_ADJ : Reg := ⟨"TIM_TOD_ADJ", 0x100088, [], [F.TIM_TOD_ADJ_value]⟩
def TIM_TOD_CMD : Reg := ⟨"TIM_TOD_CMD", 0x100089, [], [F.TIM_TOD_CMD_set, F.TIM_TOD_CMD_adj, F.TIM_TOD_CMD_inexact]⟩
def TIM_TMR_CFG : Reg := ⟨"TIM_TMR_CFG", 0x100100, [(0, 15, 8)], [F.TIM_TMR_CFG_action, F.TIM_TMR_CFG_prg, F.TIM_TMR_CFG_width]⟩
def TIM_TMR_TGT_H : Reg := ⟨"TIM_TMR_TGT_H", 0x100101, [(0, 15, 8)], [F.TIM_TMR_TGT_H_value]⟩
def TIM_TMR_TGT_L : Reg := ⟨"TIM_TMR_TGT_L", 0x100102, [(0, 15, 8)], [F.TIM_TMR_TGT_L_value]⟩
def TIM_TMR_PER : Reg := ⟨"TIM_TMR_PER", 0x100103, [(0, 15, 8)], [F.TIM_TMR_PER_value]⟩
def TIM_TMR_CTL : Reg := ⟨"TIM_TMR_CTL", 0x100104, [(0, 15, 8)], [F.TIM_TMR_CTL_arm, F.TIM_TMR_CTL_disarm, F.TIM_TMR_CTL_armed, F.TIM_TMR_CTL_late, F.TIM_TMR_CTL_fired, F.TIM_TMR_CTL_refused]⟩
def TIM_LTC_CFG : Reg := ⟨"TIM_LTC_CFG", 0x100200, [], [F.TIM_LTC_CFG_en, F.TIM_LTC_CFG_slice, F.TIM_LTC_CFG_step_thr]⟩
def TIM_LTC_ASYM : Reg := ⟨"TIM_LTC_ASYM", 0x100201, [], [F.TIM_LTC_ASYM_asym]⟩
def TIM_LTC_STAT : Reg := ⟨"TIM_LTC_STAT", 0x100202, [], [F.TIM_LTC_STAT_lock, F.TIM_LTC_STAT_steps]⟩
def TIM_LTC_OFF : Reg := ⟨"TIM_LTC_OFF", 0x100203, [], [F.TIM_LTC_OFF_off]⟩
def CNV_STAT : Reg := ⟨"CNV_STAT", 0x200000, [(0, 7, 131072)], [F.CNV_STAT_temp, F.CNV_STAT_run_active, F.CNV_STAT_restore_active, F.CNV_STAT_pending, F.CNV_STAT_gen_bad, F.CNV_STAT_save_fail, F.CNV_STAT_phase_skip, F.CNV_STAT_trim_sat, F.CNV_STAT_dac_clip]⟩
def CNV_GEN_CFG : Reg := ⟨"CNV_GEN_CFG", 0x200001, [(0, 7, 131072)], [F.CNV_GEN_CFG_use]⟩
def CNV_RECAL_CFG : Reg := ⟨"CNV_RECAL_CFG", 0x200002, [(0, 7, 131072)], [F.CNV_RECAL_CFG_temp_step, F.CNV_RECAL_CFG_interval]⟩
def CNV_RECAL_CMD : Reg := ⟨"CNV_RECAL_CMD", 0x200003, [(0, 7, 131072)], [F.CNV_RECAL_CMD_run, F.CNV_RECAL_CMD_abort, F.CNV_RECAL_CMD_refused]⟩
def CNV_RECAL_STAT : Reg := ⟨"CNV_RECAL_STAT", 0x200004, [(0, 7, 131072)], [F.CNV_RECAL_STAT_phase, F.CNV_RECAL_STAT_stage, F.CNV_RECAL_STAT_cause]⟩
def CNV_GEN_NEW : Reg := ⟨"CNV_GEN_NEW", 0x200005, [(0, 7, 131072)], [F.CNV_GEN_NEW_serial]⟩
def CNV_GEN_PREV : Reg := ⟨"CNV_GEN_PREV", 0x200006, [(0, 7, 131072)], [F.CNV_GEN_PREV_serial]⟩
def CNV_ADC_STAT : Reg := ⟨"CNV_ADC_STAT", 0x200010, [(0, 7, 131072), (0, 3, 1)], [F.CNV_ADC_STAT_spare_pos, F.CNV_ADC_STAT_spare_used, F.CNV_ADC_STAT_failed_slice, F.CNV_ADC_STAT_ovr]⟩
def CNV_CLIP_CFG : Reg := ⟨"CNV_CLIP_CFG", 0x200018, [(0, 7, 131072)], [F.CNV_CLIP_CFG_k]⟩
def CNV_ADC_TRIM_A : Reg := ⟨"CNV_ADC_TRIM_A", 0x200100, [(0, 7, 131072), (0, 3, 256), (0, 64, 2)], [F.CNV_ADC_TRIM_A_gain, F.CNV_ADC_TRIM_A_offset]⟩
def CNV_ADC_TRIM_B : Reg := ⟨"CNV_ADC_TRIM_B", 0x200101, [(0, 7, 131072), (0, 3, 256), (0, 64, 2)], [F.CNV_ADC_TRIM_B_skew]⟩
def CNV_DAC_TAP : Reg := ⟨"CNV_DAC_TAP", 0x200600, [(0, 7, 131072), (0, 3, 64), (0, 32, 1)], [F.CNV_DAC_TAP_trim]⟩
def CNV_DAC_TRIM_A : Reg := ⟨"CNV_DAC_TRIM_A", 0x200700, [(0, 7, 131072), (0, 3, 2)], [F.CNV_DAC_TRIM_A_gain, F.CNV_DAC_TRIM_A_offset]⟩
def CNV_DAC_TRIM_B : Reg := ⟨"CNV_DAC_TRIM_B", 0x200701, [(0, 7, 131072), (0, 3, 2)], [F.CNV_DAC_TRIM_B_skew]⟩
def CNV_CAP_CFG : Reg := ⟨"CNV_CAP_CFG", 0x200800, [(0, 7, 131072)], [F.CNV_CAP_CFG_src, F.CNV_CAP_CFG_trig, F.CNV_CAP_CFG_timer, F.CNV_CAP_CFG_event]⟩
def CNV_CAP_LEN : Reg := ⟨"CNV_CAP_LEN", 0x200801, [(0, 7, 131072)], [F.CNV_CAP_LEN_post, F.CNV_CAP_LEN_segs]⟩
def CNV_CAP_CMD : Reg := ⟨"CNV_CAP_CMD", 0x200802, [(0, 7, 131072)], [F.CNV_CAP_CMD_go, F.CNV_CAP_CMD_stop, F.CNV_CAP_CMD_refused]⟩
def CNV_CAP_STAT : Reg := ⟨"CNV_CAP_STAT", 0x200803, [(0, 7, 131072)], [F.CNV_CAP_STAT_state, F.CNV_CAP_STAT_trunc, F.CNV_CAP_STAT_missed, F.CNV_CAP_STAT_hb, F.CNV_CAP_STAT_pre_short, F.CNV_CAP_STAT_done]⟩
def CNV_CAP_TIME_H : Reg := ⟨"CNV_CAP_TIME_H", 0x200804, [(0, 7, 131072)], [F.CNV_CAP_TIME_H_value]⟩
def CNV_CAP_TIME_L : Reg := ⟨"CNV_CAP_TIME_L", 0x200805, [(0, 7, 131072)], [F.CNV_CAP_TIME_L_value]⟩
def CNV_CAP_SF : Reg := ⟨"CNV_CAP_SF", 0x200806, [(0, 7, 131072)], [F.CNV_CAP_SF_value]⟩
def CNV_SOL_CFG : Reg := ⟨"CNV_SOL_CFG", 0x200808, [(0, 7, 131072)], [F.CNV_SOL_CFG_weight, F.CNV_SOL_CFG_age]⟩
def RXD_ACQ_STAT : Reg := ⟨"RXD_ACQ_STAT", 0x300000, [(0, 7, 131072)], [F.RXD_ACQ_STAT_state, F.RXD_ACQ_STAT_los, F.RXD_ACQ_STAT_fails]⟩
def RXD_ACQ_CMD : Reg := ⟨"RXD_ACQ_CMD", 0x300001, [(0, 7, 131072)], [F.RXD_ACQ_CMD_restart]⟩
def RXD_EVT : Reg := ⟨"RXD_EVT", 0x300002, [(0, 7, 131072)], [F.RXD_EVT_sat, F.RXD_EVT_cd_clamp, F.RXD_EVT_singular, F.RXD_EVT_slip, F.RXD_EVT_acq_fail, F.RXD_EVT_mode_bad]⟩
def RXD_CD_EST : Reg := ⟨"RXD_CD_EST", 0x300003, [(0, 7, 131072)], [F.RXD_CD_EST_cd]⟩
def RXD_MODE_CFG : Reg := ⟨"RXD_MODE_CFG", 0x300010, [(0, 7, 131072)], [F.RXD_MODE_CFG_baud, F.RXD_MODE_CFG_const, F.RXD_MODE_CFG_entropy, F.RXD_MODE_CFG_pilot]⟩
def RXD_CD_CFG : Reg := ⟨"RXD_CD_CFG", 0x300011, [(0, 7, 131072)], [F.RXD_CD_CFG_cd]⟩
def RXD_CD_SCAN : Reg := ⟨"RXD_CD_SCAN", 0x300012, [(0, 7, 131072)], [F.RXD_CD_SCAN_mode, F.RXD_CD_SCAN_span, F.RXD_CD_SCAN_step]⟩
def RXD_CR_CFG : Reg := ⟨"RXD_CR_CFG", 0x300013, [(0, 7, 131072)], [F.RXD_CR_CFG_bw]⟩
def RXD_EQ_CFG : Reg := ⟨"RXD_EQ_CFG", 0x300014, [(0, 7, 131072)], [F.RXD_EQ_CFG_taps, F.RXD_EQ_CFG_mu_cma, F.RXD_EQ_CFG_mu_lms]⟩
def RXD_CAR_CFG : Reg := ⟨"RXD_CAR_CFG", 0x300015, [(0, 7, 131072)], [F.RXD_CAR_CFG_win]⟩
def RXD_TDC_CFG : Reg := ⟨"RXD_TDC_CFG", 0x300016, [(0, 7, 131072)], [F.RXD_TDC_CFG_en, F.RXD_TDC_CFG_conf]⟩
def RXD_LLR_CFG : Reg := ⟨"RXD_LLR_CFG", 0x300017, [(0, 7, 131072)], [F.RXD_LLR_CFG_scale, F.RXD_LLR_CFG_nvar_win]⟩
def RXD_MON : Reg := ⟨"RXD_MON", 0x300020, [(0, 7, 131072), (0, 15, 1)], [F.RXD_MON_value]⟩
def TXD_STAT : Reg := ⟨"TXD_STAT", 0x400000, [(0, 7, 131072)], [F.TXD_STAT_muted, F.TXD_STAT_m_mode, F.TXD_STAT_m_slice, F.TXD_STAT_m_force, F.TXD_STAT_m_mask, F.TXD_STAT_m_rate, F.TXD_STAT_limiting, F.TXD_STAT_mask_alarm, F.TXD_STAT_pe_clamp, F.TXD_STAT_mode_bad]⟩
def TXD_MUTE : Reg := ⟨"TXD_MUTE", 0x400001, [(0, 7, 131072)], [F.TXD_MUTE_force, F.TXD_MUTE_mask_mute]⟩
def TXD_MODE_CFG : Reg := ⟨"TXD_MODE_CFG", 0x400010, [(0, 7, 131072)], [F.TXD_MODE_CFG_baud, F.TXD_MODE_CFG_const, F.TXD_MODE_CFG_entropy, F.TXD_MODE_CFG_pilot]⟩
def TXD_PS_CFG : Reg := ⟨"TXD_PS_CFG", 0x400011, [(0, 7, 131072)], [F.TXD_PS_CFG_rolloff]⟩
def TXD_DAC_CFG : Reg := ⟨"TXD_DAC_CFG", 0x400018, [(0, 7, 131072), (0, 3, 1)], [F.TXD_DAC_CFG_gain]⟩
def TXD_MASK : Reg := ⟨"TXD_MASK", 0x400040, [(0, 7, 131072), (0, 63, 1)], [F.TXD_MASK_level]⟩
def TXD_MASK_ATT : Reg := ⟨"TXD_MASK_ATT", 0x400080, [(0, 7, 131072), (0, 63, 1)], [F.TXD_MASK_ATT_att]⟩
def TXD_PE_COEF : Reg := ⟨"TXD_PE_COEF", 0x400100, [(0, 7, 131072), (0, 3, 64), (0, 32, 1)], [F.TXD_PE_COEF_coef]⟩
def FEC_CODE_CFG : Reg := ⟨"FEC_CODE_CFG", 0x500000, [(0, 7, 131072)], [F.FEC_CODE_CFG_rate]⟩
def FEC_POOL_SLICE : Reg := ⟨"FEC_POOL_SLICE", 0x500001, [(0, 7, 131072)], [F.FEC_POOL_SLICE_guar, F.FEC_POOL_SLICE_weight, F.FEC_POOL_SLICE_deadline]⟩
def FEC_STAT : Reg := ⟨"FEC_STAT", 0x500002, [(0, 7, 131072)], [F.FEC_STAT_sync, F.FEC_STAT_hyp, F.FEC_STAT_beta]⟩
def FEC_GEFF : Reg := ⟨"FEC_GEFF", 0x500003, [(0, 7, 131072)], [F.FEC_GEFF_geff]⟩
def FEC_EVT : Reg := ⟨"FEC_EVT", 0x500004, [(0, 7, 131072)], [F.FEC_EVT_unconv, F.FEC_EVT_dlm, F.FEC_EVT_evict, F.FEC_EVT_bypass, F.FEC_EVT_uncorr, F.FEC_EVT_sync_lost, F.FEC_EVT_dm_bad]⟩
def FEC_MARGIN : Reg := ⟨"FEC_MARGIN", 0x500005, [(0, 7, 131072)], [F.FEC_MARGIN_margin, F.FEC_MARGIN_valid]⟩
def FEC_POOL_CFG : Reg := ⟨"FEC_POOL_CFG", 0x510000, [], [F.FEC_POOL_CFG_age_step, F.FEC_POOL_CFG_need_thr]⟩
def FEC_POOL_STAT : Reg := ⟨"FEC_POOL_STAT", 0x510001, [], [F.FEC_POOL_STAT_scale, F.FEC_POOL_STAT_scaled, F.FEC_POOL_STAT_engines]⟩
def FEC_POOL_CTX : Reg := ⟨"FEC_POOL_CTX", 0x510002, [], [F.FEC_POOL_CTX_value]⟩
def FEC_POOL_PEAK : Reg := ⟨"FEC_POOL_PEAK", 0x510003, [], [F.FEC_POOL_PEAK_value]⟩
def FEC_PCM_ADDR : Reg := ⟨"FEC_PCM_ADDR", 0x510010, [], [F.FEC_PCM_ADDR_rate, F.FEC_PCM_ADDR_row, F.FEC_PCM_ADDR_ent]⟩
def FEC_PCM_DATA : Reg := ⟨"FEC_PCM_DATA", 0x510011, [], [F.FEC_PCM_DATA_col, F.FEC_PCM_DATA_shift, F.FEC_PCM_DATA_last, F.FEC_PCM_DATA_valid]⟩
def TDL_TX_CFG : Reg := ⟨"TDL_TX_CFG", 0x600000, [(0, 7, 131072)], [F.TDL_TX_CFG_en, F.TDL_TX_CFG_level, F.TDL_TX_CFG_sf, F.TDL_TX_CFG_hello]⟩
def TDL_RX_CFG : Reg := ⟨"TDL_RX_CFG", 0x600002, [(0, 7, 131072)], [F.TDL_RX_CFG_sf_mask, F.TDL_RX_CFG_raw_en, F.TDL_RX_CFG_det_thr, F.TDL_RX_CFG_cap_margin]⟩
def TDL_RX_STAT : Reg := ⟨"TDL_RX_STAT", 0x600003, [(0, 7, 131072)], [F.TDL_RX_STAT_rx, F.TDL_RX_STAT_sf, F.TDL_RX_STAT_src, F.TDL_RX_STAT_snr]⟩
def TDL_EVT : Reg := ⟨"TDL_EVT", 0x600004, [(0, 7, 131072)], [F.TDL_EVT_crc, F.TDL_EVT_hdr, F.TDL_EVT_preempt, F.TDL_EVT_missed, F.TDL_EVT_mb_drop, F.TDL_EVT_mb_refused, F.TDL_EVT_refused]⟩
def TDL_AGR_CFG : Reg := ⟨"TDL_AGR_CFG", 0x600010, [(0, 7, 131072)], [F.TDL_AGR_CFG_lead, F.TDL_AGR_CFG_retry, F.TDL_AGR_CFG_hold]⟩
def TDL_AGR_ID : Reg := ⟨"TDL_AGR_ID", 0x600011, [(0, 7, 131072)], [F.TDL_AGR_ID_value]⟩
def TDL_AGR_BND : Reg := ⟨"TDL_AGR_BND", 0x600012, [(0, 7, 131072)], [F.TDL_AGR_BND_value]⟩
def TDL_AGR_PEER : Reg := ⟨"TDL_AGR_PEER", 0x600013, [(0, 7, 131072)], [F.TDL_AGR_PEER_value]⟩
def TDL_PROP_ID : Reg := ⟨"TDL_PROP_ID", 0x600014, [(0, 7, 131072)], [F.TDL_PROP_ID_value]⟩
def TDL_PROP_BND : Reg := ⟨"TDL_PROP_BND", 0x600015, [(0, 7, 131072)], [F.TDL_PROP_BND_value]⟩
def TDL_PROP_KND : Reg := ⟨"TDL_PROP_KND", 0x600016, [(0, 7, 131072)], [F.TDL_PROP_KND_value]⟩
def TDL_PROP_SUM : Reg := ⟨"TDL_PROP_SUM", 0x600017, [(0, 7, 131072)], [F.TDL_PROP_SUM_value]⟩
def TDL_PROP_STAT : Reg := ⟨"TDL_PROP_STAT", 0x600018, [(0, 7, 131072)], [F.TDL_PROP_STAT_held]⟩
def TDL_MB_TX_CMD : Reg := ⟨"TDL_MB_TX_CMD", 0x600020, [(0, 7, 131072)], [F.TDL_MB_TX_CMD_go, F.TDL_MB_TX_CMD_busy, F.TDL_MB_TX_CMD_type, F.TDL_MB_TX_CMD_len]⟩
def TDL_MB_RX_STAT : Reg := ⟨"TDL_MB_RX_STAT", 0x600021, [(0, 7, 131072)], [F.TDL_MB_RX_STAT_full, F.TDL_MB_RX_STAT_release, F.TDL_MB_RX_STAT_type, F.TDL_MB_RX_STAT_len]⟩
def TDL_MB_RX_SRC : Reg := ⟨"TDL_MB_RX_SRC", 0x600022, [(0, 7, 131072)], [F.TDL_MB_RX_SRC_serial]⟩
def TDL_TX_FILT : Reg := ⟨"TDL_TX_FILT", 0x600080, [(0, 7, 131072), (0, 127, 1)], [F.TDL_TX_FILT_coef]⟩
def TDL_MB_TX : Reg := ⟨"TDL_MB_TX", 0x600100, [(0, 7, 131072), (0, 79, 1)], [F.TDL_MB_TX_bytes]⟩
def TDL_MB_RX : Reg := ⟨"TDL_MB_RX", 0x600180, [(0, 7, 131072), (0, 79, 1)], [F.TDL_MB_RX_bytes]⟩
def LFR_STAT : Reg := ⟨"LFR_STAT", 0x700000, [(0, 7, 131072)], [F.LFR_STAT_state, F.LFR_STAT_im, F.LFR_STAT_sf_ok, F.LFR_STAT_dlos, F.LFR_STAT_dlob, F.LFR_STAT_dlof, F.LFR_STAT_dlom, F.LFR_STAT_dunc, F.LFR_STAT_ddeg, F.LFR_STAT_dbdi, F.LFR_STAT_ssf, F.LFR_STAT_sd, F.LFR_STAT_rdi_tx]⟩
def LFR_EVT : Reg := ⟨"LFR_EVT", 0x700001, [(0, 7, 131072)], [F.LFR_EVT_false_lock, F.LFR_EVT_sfc_bad, F.LFR_EVT_tsm_mis, F.LFR_EVT_dly_bad]⟩
def LFR_RX_SFC : Reg := ⟨"LFR_RX_SFC", 0x700002, [(0, 7, 131072)], [F.LFR_RX_SFC_count]⟩
def LFR_TX_SFC : Reg := ⟨"LFR_TX_SFC", 0x700003, [(0, 7, 131072)], [F.LFR_TX_SFC_count]⟩
def LFR_FRAME_LEN : Reg := ⟨"LFR_FRAME_LEN", 0x700004, [(0, 7, 131072)], [F.LFR_FRAME_LEN_f]⟩
def LFR_FRAME_LONG : Reg := ⟨"LFR_FRAME_LONG", 0x700005, [(0, 7, 131072)], [F.LFR_FRAME_LONG_long]⟩
def LFR_DLY_RT : Reg := ⟨"LFR_DLY_RT", 0x700006, [(0, 7, 131072)], [F.LFR_DLY_RT_rt]⟩
def LFR_TX_CFG : Reg := ⟨"LFR_TX_CFG", 0x700010, [(0, 7, 131072)], [F.LFR_TX_CFG_rate]⟩
def LFR_TX_CTL : Reg := ⟨"LFR_TX_CTL", 0x700011, [(0, 7, 131072)], [F.LFR_TX_CTL_force_rdi]⟩
def LFR_ALIGN_CFG : Reg := ⟨"LFR_ALIGN_CFG", 0x700012, [(0, 7, 131072)], [F.LFR_ALIGN_CFG_next_chk, F.LFR_ALIGN_CFG_srch_err, F.LFR_ALIGN_CFG_keep_err, F.LFR_ALIGN_CFG_oof_n, F.LFR_ALIGN_CFG_mf_n, F.LFR_ALIGN_CFG_false_n]⟩
def LFR_DEF_CFG : Reg := ⟨"LFR_DEF_CFG", 0x700013, [(0, 7, 131072)], [F.LFR_DEF_CFG_lof_t, F.LFR_DEF_CFG_lom_t, F.LFR_DEF_CFG_holdoff, F.LFR_DEF_CFG_rdi_en]⟩
def LFR_DEG_CFG : Reg := ⟨"LFR_DEG_CFG", 0x700014, [(0, 7, 131072)], [F.LFR_DEG_CFG_deg_m, F.LFR_DEG_CFG_deg_thr, F.LFR_DEG_CFG_unc_k, F.LFR_DEG_CFG_unc_m]⟩
def MAP_CFG : Reg := ⟨"MAP_CFG", 0x800000, [], [F.MAP_CFG_grow_k]⟩
def MAP_STAT : Reg := ⟨"MAP_STAT", 0x800001, [], [F.MAP_STAT_chip_used]⟩
def MAP_CEL_STAT : Reg := ⟨"MAP_CEL_STAT", 0x800002, [], [F.MAP_CEL_STAT_cel_ctx]⟩
def MAP_CH_CFG : Reg := ⟨"MAP_CH_CFG", 0x801000, [(0, 511, 1)], [F.MAP_CH_CFG_tx_on, F.MAP_CH_CFG_rx_on, F.MAP_CH_CFG_size, F.MAP_CH_CFG_prot, F.MAP_CH_CFG_allow, F.MAP_CH_CFG_guard]⟩
def MAP_CH_PS : Reg := ⟨"MAP_CH_PS", 0x801200, [(0, 511, 1)], [F.MAP_CH_PS_revert, F.MAP_CH_PS_wtr, F.MAP_CH_PS_sd_en]⟩
def MAP_CH_STAT : Reg := ⟨"MAP_CH_STAT", 0x801400, [(0, 511, 1)], [F.MAP_CH_STAT_align, F.MAP_CH_STAT_csf, F.MAP_CH_STAT_sel, F.MAP_CH_STAT_req, F.MAP_CH_STAT_wtr_run, F.MAP_CH_STAT_a_fail, F.MAP_CH_STAT_b_fail, F.MAP_CH_STAT_a_sd, F.MAP_CH_STAT_b_sd]⟩
def MAP_CH_CMD : Reg := ⟨"MAP_CH_CMD", 0x801600, [(0, 511, 1)], [F.MAP_CH_CMD_go, F.MAP_CH_CMD_code, F.MAP_CH_CMD_realign, F.MAP_CH_CMD_refused]⟩
def MAP_CH_FAR : Reg := ⟨"MAP_CH_FAR", 0x801800, [(0, 511, 1)], [F.MAP_CH_FAR_req, F.MAP_CH_FAR_sel_mem, F.MAP_CH_FAR_valid]⟩
def MAP_CH_DLY : Reg := ⟨"MAP_CH_DLY", 0x801A00, [(0, 511, 1)], [F.MAP_CH_DLY_dc]⟩
def MAP_MEM_CFG : Reg := ⟨"MAP_MEM_CFG", 0x802000, [(0, 511, 8), (0, 7, 1)], [F.MAP_MEM_CFG_en, F.MAP_MEM_CFG_slice, F.MAP_MEM_CFG_leg, F.MAP_MEM_CFG_route]⟩
def MAP_MEM_STAT : Reg := ⟨"MAP_MEM_STAT", 0x803000, [(0, 511, 8), (0, 7, 1)], [F.MAP_MEM_STAT_fail, F.MAP_MEM_STAT_dskew, F.MAP_MEM_STAT_mism, F.MAP_MEM_STAT_ok_num, F.MAP_MEM_STAT_skew]⟩
def MAP_SLOT : Reg := ⟨"MAP_SLOT", 0x810000, [(0, 7, 8192), (0, 8191, 1)], [F.MAP_SLOT_tx_en, F.MAP_SLOT_tx_ch, F.MAP_SLOT_rx_en, F.MAP_SLOT_rx_ch]⟩
def CIP_STAT : Reg := ⟨"CIP_STAT", 0x900000, [], [F.CIP_STAT_dev_kek, F.CIP_STAT_kek]⟩
def CIP_SOL_CFG : Reg := ⟨"CIP_SOL_CFG", 0x900100, [(0, 15, 1)], [F.CIP_SOL_CFG_guar, F.CIP_SOL_CFG_weight, F.CIP_SOL_CFG_entry]⟩
def CIP_SOL_STAT : Reg := ⟨"CIP_SOL_STAT", 0x900110, [], [F.CIP_SOL_STAT_scaled, F.CIP_SOL_STAT_sum]⟩
def CIP_SLOT_GRANT : Reg := ⟨"CIP_SLOT_GRANT", 0x900400, [(0, 127, 1)], [F.CIP_SLOT_GRANT_func]⟩
def CIP_CH_CFG : Reg := ⟨"CIP_CH_CFG", 0x900800, [(0, 511, 1)], [F.CIP_CH_CFG_side, F.CIP_CH_CFG_auth_n]⟩
def CIP_CH_KEY : Reg := ⟨"CIP_CH_KEY", 0x901000, [(0, 511, 2), (0, 1, 1)], [F.CIP_CH_KEY_epoch, F.CIP_CH_KEY_slot0, F.CIP_CH_KEY_slot1]⟩
def CIP_CH_STAT : Reg := ⟨"CIP_CH_STAT", 0x901800, [(0, 511, 1)], [F.CIP_CH_STAT_dauth, F.CIP_CH_STAT_tx_epoch, F.CIP_CH_STAT_rx_epoch, F.CIP_CH_STAT_auth_fail, F.CIP_CH_STAT_ctr_mis, F.CIP_CH_STAT_epoch_mis]⟩
def CIP_CH_MFC_H : Reg := ⟨"CIP_CH_MFC_H", 0x902000, [(0, 511, 4), (0, 1, 2)], [F.CIP_CH_MFC_H_count]⟩
def CIP_CH_MFC_L : Reg := ⟨"CIP_CH_MFC_L", 0x902001, [(0, 511, 4), (0, 1, 2)], [F.CIP_CH_MFC_L_count]⟩
def CIP_SLOT_STAT : Reg := ⟨"CIP_SLOT_STAT", 0x904000, [(0, 2047, 1)], [F.CIP_SLOT_STAT_full, F.CIP_SLOT_STAT_use, F.CIP_SLOT_STAT_func, F.CIP_SLOT_STAT_in_use]⟩
def CIP_SLOT_KCV : Reg := ⟨"CIP_SLOT_KCV", 0x904800, [(0, 2047, 1)], [F.CIP_SLOT_KCV_kcv]⟩
def CIP_UP_KEY_DATA : Reg := ⟨"CIP_UP_KEY_DATA", 0x906000, [(0, 15, 128), (0, 13, 1)], [F.CIP_UP_KEY_DATA_bytes]⟩
def CIP_UP_KEY_CMD : Reg := ⟨"CIP_UP_KEY_CMD", 0x906010, [(0, 15, 128)], [F.CIP_UP_KEY_CMD_go, F.CIP_UP_KEY_CMD_op, F.CIP_UP_KEY_CMD_slot, F.CIP_UP_KEY_CMD_use, F.CIP_UP_KEY_CMD_func, F.CIP_UP_KEY_CMD_status]⟩
def CIP_UP_DESC : Reg := ⟨"CIP_UP_DESC", 0x906020, [(0, 15, 128), (0, 19, 1)], [F.CIP_UP_DESC_word]⟩
def CIP_UP_MSG_CMD : Reg := ⟨"CIP_UP_MSG_CMD", 0x906040, [(0, 15, 128)], [F.CIP_UP_MSG_CMD_go, F.CIP_UP_MSG_CMD_pending, F.CIP_UP_MSG_CMD_refused]⟩
def CLI_LANE_STAT : Reg := ⟨"CLI_LANE_STAT", 0xA00000, [(0, 63, 1)], [F.CLI_LANE_STAT_pstate, F.CLI_LANE_STAT_sig, F.CLI_LANE_STAT_cdr, F.CLI_LANE_STAT_exit_pend]⟩
def CLI_PTP_CFG : Reg := ⟨"CLI_PTP_CFG", 0xA00080, [], [F.CLI_PTP_CFG_tc_en, F.CLI_PTP_CFG_eth, F.CLI_PTP_CFG_v4, F.CLI_PTP_CFG_v6]⟩
def CLI_REF_SEL : Reg := ⟨"CLI_REF_SEL", 0xA00081, [], [F.CLI_REF_SEL_lane0, F.CLI_REF_SEL_lane1]⟩
def CLI_PORT_CFG : Reg := ⟨"CLI_PORT_CFG", 0xA00100, [(0, 63, 1)], [F.CLI_PORT_CFG_en, F.CLI_PORT_CFG_type, F.CLI_PORT_CFG_lrate, F.CLI_PORT_CFG_flexe, F.CLI_PORT_CFG_grp, F.CLI_PORT_CFG_ch, F.CLI_PORT_CFG_keep]⟩
def CLI_PORT_STAT : Reg := ⟨"CLI_PORT_STAT", 0xA00140, [(0, 63, 1)], [F.CLI_PORT_STAT_pcs_lock, F.CLI_PORT_STAT_hi_ber, F.CLI_PORT_STAT_lf_rx, F.CLI_PORT_STAT_rf_rx, F.CLI_PORT_STAT_lf_tx, F.CLI_PORT_STAT_fec_unc, F.CLI_PORT_STAT_drop]⟩
def CLI_FXG_CFG : Reg := ⟨"CLI_FXG_CFG", 0xA00200, [(0, 15, 1)], [F.CLI_FXG_CFG_en, F.CLI_FXG_CFG_num]⟩
def CLI_FXG_STAT : Reg := ⟨"CLI_FXG_STAT", 0xA00210, [(0, 15, 1)], [F.CLI_FXG_STAT_tx_cal, F.CLI_FXG_STAT_rx_cal, F.CLI_FXG_STAT_sw_pend, F.CLI_FXG_STAT_oh_lock, F.CLI_FXG_STAT_mismatch]⟩
def CLI_FXC_CFG : Reg := ⟨"CLI_FXC_CFG", 0xA00400, [(0, 511, 1)], [F.CLI_FXC_CFG_en, F.CLI_FXC_CFG_ch]⟩
def CLI_FXC_ID : Reg := ⟨"CLI_FXC_ID", 0xA00600, [(0, 511, 1)], [F.CLI_FXC_ID_id]⟩
def CLI_FXG_CAL : Reg := ⟨"CLI_FXG_CAL", 0xA10000, [(0, 15, 1024), (0, 639, 1)], [F.CLI_FXG_CAL_used, F.CLI_FXG_CAL_client]⟩
def CEL_STAT : Reg := ⟨"CEL_STAT", 0xB00000, [], [F.CEL_STAT_avail, F.CEL_STAT_ch_ok, F.CEL_STAT_density, F.CEL_STAT_mix, F.CEL_STAT_arch_lost, F.CEL_STAT_jarc_lost]⟩
def CEL_CFG : Reg := ⟨"CEL_CFG", 0xB00001, [], [F.CEL_CFG_rate, F.CEL_CFG_dsk]⟩
def CEL_ADM_STAT : Reg := ⟨"CEL_ADM_STAT", 0xB00002, [], [F.CEL_ADM_STAT_max_ctx]⟩
def CEL_CAP_STAT : Reg := ⟨"CEL_CAP_STAT", 0xB00003, [], [F.CEL_CAP_STAT_segs]⟩
def CEL_CMD : Reg := ⟨"CEL_CMD", 0xB00004, [], [F.CEL_CMD_retrain, F.CEL_CMD_refused]⟩
def CEL_ACC_ADDR_H : Reg := ⟨"CEL_ACC_ADDR_H", 0xB00010, [], [F.CEL_ACC_ADDR_H_addr]⟩
def CEL_ACC_ADDR_L : Reg := ⟨"CEL_ACC_ADDR_L", 0xB00011, [], [F.CEL_ACC_ADDR_L_addr]⟩
def CEL_ACC_CMD : Reg := ⟨"CEL_ACC_CMD", 0xB00012, [], [F.CEL_ACC_CMD_go, F.CEL_ACC_CMD_op, F.CEL_ACC_CMD_refused, F.CEL_ACC_CMD_busy, F.CEL_ACC_CMD_result, F.CEL_ACC_CMD_sym]⟩
def CEL_ACC_DATA : Reg := ⟨"CEL_ACC_DATA", 0xB00020, [(0, 21, 1)], [F.CEL_ACC_DATA_bytes]⟩
def CEL_ACC_CHK : Reg := ⟨"CEL_ACC_CHK", 0xB00040, [], [F.CEL_ACC_CHK_bytes]⟩
def CEL_ACC_CHK3 : Reg := ⟨"CEL_ACC_CHK3", 0xB00041, [], [F.CEL_ACC_CHK3_byte]⟩
def CEL_TOUCH_BASE : Reg := ⟨"CEL_TOUCH_BASE", 0xB00050, [], [F.CEL_TOUCH_BASE_mib]⟩
def CEL_TOUCH_LEN : Reg := ⟨"CEL_TOUCH_LEN", 0xB00051, [], [F.CEL_TOUCH_LEN_mib]⟩
def CEL_TOUCH_CMD : Reg := ⟨"CEL_TOUCH_CMD", 0xB00052, [], [F.CEL_TOUCH_CMD_go, F.CEL_TOUCH_CMD_busy, F.CEL_TOUCH_CMD_refused]⟩
def CEL_PPR_ADDR : Reg := ⟨"CEL_PPR_ADDR", 0xB00060, [], [F.CEL_PPR_ADDR_ch, F.CEL_PPR_ADDR_bank, F.CEL_PPR_ADDR_row]⟩
def CEL_PPR_CMD : Reg := ⟨"CEL_PPR_CMD", 0xB00061, [], [F.CEL_PPR_CMD_go, F.CEL_PPR_CMD_status]⟩
def CEL_ELOG_CE : Reg := ⟨"CEL_ELOG_CE", 0xB00070, [], [F.CEL_ELOG_CE_ch, F.CEL_ELOG_CE_bank, F.CEL_ELOG_CE_row]⟩
def CEL_ELOG_UE : Reg := ⟨"CEL_ELOG_UE", 0xB00071, [], [F.CEL_ELOG_UE_ch, F.CEL_ELOG_UE_bank, F.CEL_ELOG_UE_row]⟩
def CEL_MEM_INJ : Reg := ⟨"CEL_MEM_INJ", 0xB00080, [], [F.CEL_MEM_INJ_arm, F.CEL_MEM_INJ_cls, F.CEL_MEM_INJ_sym0, F.CEL_MEM_INJ_sym1, F.CEL_MEM_INJ_two]⟩
def CEL_SOL_CFG : Reg := ⟨"CEL_SOL_CFG", 0xB00090, [(3, 6, 1)], [F.CEL_SOL_CFG_weight, F.CEL_SOL_CFG_entry, F.CEL_SOL_CFG_age]⟩
def SEQ_EXEC_CFG : Reg := ⟨"SEQ_EXEC_CFG", 0xC00000, [], [F.SEQ_EXEC_CFG_pkt_to]⟩
def SEQ_EXEC_STAT : Reg := ⟨"SEQ_EXEC_STAT", 0xC00001, [], [F.SEQ_EXEC_STAT_alive, F.SEQ_EXEC_STAT_idle_sq, F.SEQ_EXEC_STAT_rejected]⟩
def SEQ_ABORT_CMD : Reg := ⟨"SEQ_ABORT_CMD", 0xC00002, [], [F.SEQ_ABORT_CMD_go, F.SEQ_ABORT_CMD_func, F.SEQ_ABORT_CMD_nomatch]⟩
def SEQ_ABORT_TAG : Reg := ⟨"SEQ_ABORT_TAG", 0xC00003, [], [F.SEQ_ABORT_TAG_tag]⟩
def SEQ_SQ_STAT : Reg := ⟨"SEQ_SQ_STAT", 0xC00010, [(1, 15, 1)], [F.SEQ_SQ_STAT_state, F.SEQ_SQ_STAT_func, F.SEQ_SQ_STAT_program]⟩
def SEQ_SQ_TAG : Reg := ⟨"SEQ_SQ_TAG", 0xC00020, [(1, 15, 1)], [F.SEQ_SQ_TAG_tag]⟩
def SEQ_SQ_PC : Reg := ⟨"SEQ_SQ_PC", 0xC00030, [(1, 15, 1)], [F.SEQ_SQ_PC_z, F.SEQ_SQ_PC_n, F.SEQ_SQ_PC_c, F.SEQ_SQ_PC_v, F.SEQ_SQ_PC_t, F.SEQ_SQ_PC_pc]⟩
def SEQ_CLAIM_STAT : Reg := ⟨"SEQ_CLAIM_STAT", 0xC00100, [(0, 255, 1)], [F.SEQ_CLAIM_STAT_held, F.SEQ_CLAIM_STAT_sq, F.SEQ_CLAIM_STAT_waiters]⟩
def VTG_STAT : Reg := ⟨"VTG_STAT", 0xC00200, [], [F.VTG_STAT_state, F.VTG_STAT_bd, F.VTG_STAT_line, F.VTG_STAT_domain, F.VTG_STAT_prev_valid, F.VTG_STAT_staged_diff, F.VTG_STAT_last_fail, F.VTG_STAT_last_ret, F.VTG_STAT_returned, F.VTG_STAT_late]⟩
def VTG_SERIAL_CUR : Reg := ⟨"VTG_SERIAL_CUR", 0xC00201, [], [F.VTG_SERIAL_CUR_serial]⟩
def VTG_SERIAL_PREV : Reg := ⟨"VTG_SERIAL_PREV", 0xC00202, [], [F.VTG_SERIAL_PREV_serial]⟩
def VTG_SERIAL_PEND : Reg := ⟨"VTG_SERIAL_PEND", 0xC00203, [], [F.VTG_SERIAL_PEND_serial]⟩
def VTG_CMD : Reg := ⟨"VTG_CMD", 0xC00204, [], [F.VTG_CMD_ret, F.VTG_CMD_accept, F.VTG_CMD_fail, F.VTG_CMD_withdraw, F.VTG_CMD_reset_staged, F.VTG_CMD_load_arch, F.VTG_CMD_load_rescue, F.VTG_CMD_release, F.VTG_CMD_dom_ret, F.VTG_CMD_nomatch]⟩
def VTG_ARCH_SEL : Reg := ⟨"VTG_ARCH_SEL", 0xC00205, [], [F.VTG_ARCH_SEL_serial]⟩
def VTG_ARCH_STAT : Reg := ⟨"VTG_ARCH_STAT", 0xC00206, [], [F.VTG_ARCH_STAT_count]⟩
def VTG_DOM_CFG : Reg := ⟨"VTG_DOM_CFG", 0xC00207, [], [F.VTG_DOM_CFG_dom]⟩
def VTG_PROB_CFG : Reg := ⟨"VTG_PROB_CFG", 0xC00208, [], [F.VTG_PROB_CFG_window, F.VTG_PROB_CFG_judge_mask, F.VTG_PROB_CFG_wdog_en, F.VTG_PROB_CFG_host_en]⟩
def VTG_PROB_THR : Reg := ⟨"VTG_PROB_THR", 0xC00209, [], [F.VTG_PROB_THR_ucb_thr, F.VTG_PROB_THR_dlm_thr]⟩
def VTG_PROB_STAT : Reg := ⟨"VTG_PROB_STAT", 0xC0020A, [], [F.VTG_PROB_STAT_elapsed]⟩
def VTG_STG_ADDR : Reg := ⟨"VTG_STG_ADDR", 0xC0020C, [], [F.VTG_STG_ADDR_value]⟩
def VTG_STG_MASK : Reg := ⟨"VTG_STG_MASK", 0xC0020D, [], [F.VTG_STG_MASK_value]⟩
def VTG_STG_DATA : Reg := ⟨"VTG_STG_DATA", 0xC0020E, [], [F.VTG_STG_DATA_value]⟩
def VTG_STG_CMD : Reg := ⟨"VTG_STG_CMD", 0xC0020F, [], [F.VTG_STG_CMD_go, F.VTG_STG_CMD_read, F.VTG_STG_CMD_err]⟩
def SEQ_SOL_CFG : Reg := ⟨"SEQ_SOL_CFG", 0xC00300, [(0, 15, 1)], [F.SEQ_SOL_CFG_weight, F.SEQ_SOL_CFG_entry]⟩
def SEQ_SOL_RES : Reg := ⟨"SEQ_SOL_RES", 0xC00310, [], [F.SEQ_SOL_RES_res, F.SEQ_SOL_RES_age]⟩
def SEQ_LOAD_ADDR : Reg := ⟨"SEQ_LOAD_ADDR", 0xC00400, [], [F.SEQ_LOAD_ADDR_addr]⟩
def SEQ_LOAD_DATA : Reg := ⟨"SEQ_LOAD_DATA", 0xC00401, [], [F.SEQ_LOAD_DATA_word]⟩
def SEQ_LOAD_CMD : Reg := ⟨"SEQ_LOAD_CMD", 0xC00402, [], [F.SEQ_LOAD_CMD_begin, F.SEQ_LOAD_CMD_verify, F.SEQ_LOAD_CMD_busy, F.SEQ_LOAD_CMD_result]⟩
def SEQ_PSET_ID : Reg := ⟨"SEQ_PSET_ID", 0xC00403, [], [F.SEQ_PSET_ID_id]⟩
def SEQ_PSET_CFG : Reg := ⟨"SEQ_PSET_CFG", 0xC00404, [], [F.SEQ_PSET_CFG_id]⟩
def HIF_ERR_STAT : Reg := ⟨"HIF_ERR_STAT", 0xD00000, [], [F.HIF_ERR_STAT_fabric, F.HIF_ERR_STAT_be]⟩
def HIF_ERR_ADDR : Reg := ⟨"HIF_ERR_ADDR", 0xD00001, [], [F.HIF_ERR_ADDR_addr]⟩
def HIF_Q_CFG : Reg := ⟨"HIF_Q_CFG", 0xD01000, [(0, 40, 8)], [F.HIF_Q_CFG_thr, F.HIF_Q_CFG_reset, F.HIF_Q_CFG_wm]⟩
def HIF_Q_STAT : Reg := ⟨"HIF_Q_STAT", 0xD01001, [(0, 40, 8)], [F.HIF_Q_STAT_count, F.HIF_Q_STAT_notice, F.HIF_Q_STAT_wm_hit]⟩
def HIF_Q_PEAK : Reg := ⟨"HIF_Q_PEAK", 0xD01002, [(0, 40, 8)], [F.HIF_Q_PEAK_peak]⟩
def HIF_Q_OVF : Reg := ⟨"HIF_Q_OVF", 0xD01003, [(0, 40, 8)], [F.HIF_Q_OVF_pkts, F.HIF_Q_OVF_words]⟩
def HIF_DMA_ADDR_H : Reg := ⟨"HIF_DMA_ADDR_H", 0xD02000, [(0, 17, 8)], [F.HIF_DMA_ADDR_H_addr]⟩
def HIF_DMA_ADDR_L : Reg := ⟨"HIF_DMA_ADDR_L", 0xD02001, [(0, 17, 8)], [F.HIF_DMA_ADDR_L_addr]⟩
def HIF_DMA_CFG : Reg := ⟨"HIF_DMA_CFG", 0xD02002, [(0, 17, 8)], [F.HIF_DMA_CFG_en, F.HIF_DMA_CFG_err, F.HIF_DMA_CFG_size]⟩
def HIF_DMA_HEAD : Reg := ⟨"HIF_DMA_HEAD", 0xD02003, [(0, 17, 8)], [F.HIF_DMA_HEAD_count]⟩
def HIF_DMA_TAIL : Reg := ⟨"HIF_DMA_TAIL", 0xD02004, [(0, 17, 8)], [F.HIF_DMA_TAIL_count]⟩
def HIF_EVT_MAP : Reg := ⟨"HIF_EVT_MAP", 0xD03000, [(0, 255, 1)], [F.HIF_EVT_MAP_en, F.HIF_EVT_MAP_func, F.HIF_EVT_MAP_vec]⟩
def MON_SEQ_CTL : Reg := ⟨"MON_SEQ_CTL", 0xE00000, [], [F.MON_SEQ_CTL_go, F.MON_SEQ_CTL_stop, F.MON_SEQ_CTL_running, F.MON_SEQ_CTL_tmr_en, F.MON_SEQ_CTL_timer]⟩
def MON_SEQ_CFG : Reg := ⟨"MON_SEQ_CFG", 0xE00010, [(0, 15, 1)], [F.MON_SEQ_CFG_mask]⟩
def MON_PRV_CFG : Reg := ⟨"MON_PRV_CFG", 0xE00020, [(0, 7, 1)], [F.MON_PRV_CFG_en, F.MON_PRV_CFG_sel]⟩
def MON_CAL_CFG : Reg := ⟨"MON_CAL_CFG", 0xE00030, [], [F.MON_CAL_CFG_bg_en, F.MON_CAL_CFG_bg_pos]⟩
def MON_CAL_CMD : Reg := ⟨"MON_CAL_CMD", 0xE00031, [], [F.MON_CAL_CMD_fg, F.MON_CAL_CMD_busy, F.MON_CAL_CMD_mask]⟩
def MON_TDAC_CFG : Reg := ⟨"MON_TDAC_CFG", 0xE00038, [], [F.MON_TDAC_CFG_en, F.MON_TDAC_CFG_min, F.MON_TDAC_CFG_code]⟩
def MON_DR_CFG : Reg := ⟨"MON_DR_CFG", 0xE0003C, [(0, 3, 1)], [F.MON_DR_CFG_freq]⟩
def MON_INJ_CFG : Reg := ⟨"MON_INJ_CFG", 0xE00040, [(0, 15, 4)], [F.MON_INJ_CFG_min, F.MON_INJ_CFG_len, F.MON_INJ_CFG_trig, F.MON_INJ_CFG_dl]⟩
def MON_INJ_CMD : Reg := ⟨"MON_INJ_CMD", 0xE00041, [(0, 15, 4)], [F.MON_INJ_CMD_go, F.MON_INJ_CMD_timer, F.MON_INJ_CMD_event]⟩
def MON_INJ_STAT : Reg := ⟨"MON_INJ_STAT", 0xE00042, [(0, 15, 4)], [F.MON_INJ_STAT_status, F.MON_INJ_STAT_merged, F.MON_INJ_STAT_time_hi]⟩
def MON_INJ_TIME_L : Reg := ⟨"MON_INJ_TIME_L", 0xE00043, [(0, 15, 4)], [F.MON_INJ_TIME_L_time_lo]⟩
def MON_ACC_CMD : Reg := ⟨"MON_ACC_CMD", 0xE00080, [], [F.MON_ACC_CMD_snap, F.MON_ACC_CMD_clr, F.MON_ACC_CMD_auto]⟩
def MON_IN_CFG : Reg := ⟨"MON_IN_CFG", 0xE00100, [(0, 127, 1)], [F.MON_IN_CFG_dr]⟩
def MON_IN_STAT : Reg := ⟨"MON_IN_STAT", 0xE00180, [(0, 127, 1)], [F.MON_IN_STAT_ovr, F.MON_IN_STAT_sat, F.MON_IN_STAT_test]⟩
def MON_INJ_RES : Reg := ⟨"MON_INJ_RES", 0xE00200, [(0, 15, 8), (0, 7, 1)], [F.MON_INJ_RES_word]⟩
def MON_ACC : Reg := ⟨"MON_ACC", 0xE10000, [(0, 127, 16), (0, 15, 1)], [F.MON_ACC_word]⟩
def MON_DC_CFG : Reg := ⟨"MON_DC_CFG", 0xE20000, [(0, 63, 16)], [F.MON_DC_CFG_src, F.MON_DC_CFG_sel, F.MON_DC_CFG_order, F.MON_DC_CFG_dec, F.MON_DC_CFG_tel]⟩
def MON_DC_SHI : Reg := ⟨"MON_DC_SHI", 0xE20001, [(0, 63, 16)], [F.MON_DC_SHI_shift]⟩
def MON_DC_SHC : Reg := ⟨"MON_DC_SHC", 0xE20002, [(0, 63, 16)], [F.MON_DC_SHC_shift]⟩
def MON_DC_RESP : Reg := ⟨"MON_DC_RESP", 0xE20003, [(0, 63, 16)], [F.MON_DC_RESP_r, F.MON_DC_RESP_fade]⟩
def MON_DC_DET : Reg := ⟨"MON_DC_DET", 0xE20004, [(0, 63, 16)], [F.MON_DC_DET_wrms, F.MON_DC_DET_att, F.MON_DC_DET_rel]⟩
def MON_DC_STAT : Reg := ⟨"MON_DC_STAT", 0xE20005, [(0, 63, 16)], [F.MON_DC_STAT_r_now, F.MON_DC_STAT_fading, F.MON_DC_STAT_held, F.MON_DC_STAT_sat, F.MON_DC_STAT_unsettled]⟩
def MON_DC_OUT : Reg := ⟨"MON_DC_OUT", 0xE20006, [(0, 63, 16)], [F.MON_DC_OUT_value]⟩
def MON_DC_SEQ : Reg := ⟨"MON_DC_SEQ", 0xE20007, [(0, 63, 16)], [F.MON_DC_SEQ_value]⟩
def MON_DC_PEAK : Reg := ⟨"MON_DC_PEAK", 0xE20008, [(0, 63, 16)], [F.MON_DC_PEAK_value]⟩
def MON_DC_RMS : Reg := ⟨"MON_DC_RMS", 0xE20009, [(0, 63, 16)], [F.MON_DC_RMS_value]⟩
def MON_DC_ENV : Reg := ⟨"MON_DC_ENV", 0xE2000A, [(0, 63, 16)], [F.MON_DC_ENV_value]⟩
def MON_SYNC_CMD : Reg := ⟨"MON_SYNC_CMD", 0xE21000, [], [F.MON_SYNC_CMD_go, F.MON_SYNC_CMD_tmr_en, F.MON_SYNC_CMD_timer]⟩
def MON_CNT_CFG : Reg := ⟨"MON_CNT_CFG", 0xE30000, [], [F.MON_CNT_CFG_en, F.MON_CNT_CFG_tmr_en, F.MON_CNT_CFG_timer, F.MON_CNT_CFG_win]⟩
def MON_SNAP_STAT : Reg := ⟨"MON_SNAP_STAT", 0xE30001, [], [F.MON_SNAP_STAT_seq]⟩
def MON_CNT_SEL : Reg := ⟨"MON_CNT_SEL", 0xE30002, [], [F.MON_CNT_SEL_value]⟩
def MON_CNT_LIVE_H : Reg := ⟨"MON_CNT_LIVE_H", 0xE30003, [], [F.MON_CNT_LIVE_H_value]⟩
def MON_CNT_LIVE_L : Reg := ⟨"MON_CNT_LIVE_L", 0xE30004, [], [F.MON_CNT_LIVE_L_value]⟩
def MON_GRANT : Reg := ⟨"MON_GRANT", 0xE30100, [(1, 15, 1)], [F.MON_GRANT_blocks]⟩
def MON_BW_PORT : Reg := ⟨"MON_BW_PORT", 0xE31000, [(0, 63, 2), (0, 1, 1)], [F.MON_BW_PORT_mbps]⟩
def MON_BW_FXC : Reg := ⟨"MON_BW_FXC", 0xE31100, [(0, 511, 2), (0, 1, 1)], [F.MON_BW_FXC_mbps]⟩
def MON_BW_CH : Reg := ⟨"MON_BW_CH", 0xE31500, [(0, 511, 2), (0, 1, 1)], [F.MON_BW_CH_mbps]⟩
def MON_BW_SLICE : Reg := ⟨"MON_BW_SLICE", 0xE31900, [(0, 7, 2), (0, 1, 1)], [F.MON_BW_SLICE_mbps]⟩
def MON_CNT_SNAP : Reg := ⟨"MON_CNT_SNAP", 0xE40000, [(0, 16383, 2), (0, 1, 1)], [F.MON_CNT_SNAP_value]⟩
def MON_AGE_CFG : Reg := ⟨"MON_AGE_CFG", 0xE50000, [], [F.MON_AGE_CFG_interval, F.MON_AGE_CFG_eye_en]⟩
def MON_AGE_VDD : Reg := ⟨"MON_AGE_VDD", 0xE50001, [], [F.MON_AGE_VDD_vreq, F.MON_AGE_VDD_base]⟩
def MON_AGE_STAT : Reg := ⟨"MON_AGE_STAT", 0xE50002, [], [F.MON_AGE_STAT_worst, F.MON_AGE_STAT_site]⟩
def MON_AGE_STAT2 : Reg := ⟨"MON_AGE_STAT2", 0xE50003, [], [F.MON_AGE_STAT2_avs_fail, F.MON_AGE_STAT2_hist_fail]⟩
def MON_AGE_SITE : Reg := ⟨"MON_AGE_SITE", 0xE50100, [(0, 95, 1)], [F.MON_AGE_SITE_shift, F.MON_AGE_SITE_stale]⟩
def MON_AGE_EYE : Reg := ⟨"MON_AGE_EYE", 0xE50200, [(0, 75, 1)], [F.MON_AGE_EYE_open, F.MON_AGE_EYE_stale]⟩
def MON_AGE_BIAS : Reg := ⟨"MON_AGE_BIAS", 0xE50300, [(0, 15, 1)], [F.MON_AGE_BIAS_en, F.MON_AGE_BIAS_min]⟩
def MON_AGE_POL : Reg := ⟨"MON_AGE_POL", 0xE50400, [], [F.MON_AGE_POL_m_low, F.MON_AGE_POL_m_high, F.MON_AGE_POL_estep, F.MON_AGE_POL_follow]⟩
def MON_AGE_POL2 : Reg := ⟨"MON_AGE_POL2", 0xE50401, [], [F.MON_AGE_POL2_ppm_step, F.MON_AGE_POL2_vmax]⟩
def MON_AGE_POL3 : Reg := ⟨"MON_AGE_POL3", 0xE50402, [], [F.MON_AGE_POL3_window, F.MON_AGE_POL3_ucb, F.MON_AGE_POL3_backoff]⟩
def MON_AGE_POL4 : Reg := ⟨"MON_AGE_POL4", 0xE50403, [], [F.MON_AGE_POL4_cal_drop, F.MON_AGE_POL4_cal_hold, F.MON_AGE_POL4_cal_watch]⟩
def MON_AGE_SLC : Reg := ⟨"MON_AGE_SLC", 0xE50410, [(0, 7, 1)], [F.MON_AGE_SLC_e_min, F.MON_AGE_SLC_e_max, F.MON_AGE_SLC_plan_en]⟩
def MON_AGE_PLAN : Reg := ⟨"MON_AGE_PLAN", 0xE50420, [], [F.MON_AGE_PLAN_kind, F.MON_AGE_PLAN_slices, F.MON_AGE_PLAN_result, F.MON_AGE_PLAN_blocked]⟩
def MON_AGE_PSER : Reg := ⟨"MON_AGE_PSER", 0xE50421, [], [F.MON_AGE_PSER_serial]⟩
def MON_AGE_MREF : Reg := ⟨"MON_AGE_MREF", 0xE50430, [(0, 7, 1)], [F.MON_AGE_MREF_margin, F.MON_AGE_MREF_valid, F.MON_AGE_MREF_held_runs]⟩
def MON_AGE_GREF : Reg := ⟨"MON_AGE_GREF", 0xE50438, [(0, 7, 1)], [F.MON_AGE_GREF_serial]⟩
def PRY_PORT_CFG : Reg := ⟨"PRY_PORT_CFG", 0xF00000, [(0, 5, 16)], [F.PRY_PORT_CFG_en, F.PRY_PORT_CFG_keep, F.PRY_PORT_CFG_idle]⟩
def PRY_PORT_STAT : Reg := ⟨"PRY_PORT_STAT", 0xF00001, [(0, 5, 16)], [F.PRY_PORT_STAT_state, F.PRY_PORT_STAT_pwr, F.PRY_PORT_STAT_fails, F.PRY_PORT_STAT_lost, F.PRY_PORT_STAT_los]⟩
def PRY_PORT_PEER : Reg := ⟨"PRY_PORT_PEER", 0xF00002, [(0, 5, 16)], [F.PRY_PORT_PEER_serial]⟩
def PRY_PORT_PINFO : Reg := ⟨"PRY_PORT_PINFO", 0xF00003, [(0, 5, 16)], [F.PRY_PORT_PINFO_info]⟩
def PRY_TWIN_CFG : Reg := ⟨"PRY_TWIN_CFG", 0xF00100, [], [F.PRY_TWIN_CFG_mark_en, F.PRY_TWIN_CFG_take_en]⟩
def PRY_TWIN_STAT : Reg := ⟨"PRY_TWIN_STAT", 0xF00101, [], [F.PRY_TWIN_STAT_pair, F.PRY_TWIN_STAT_active, F.PRY_TWIN_STAT_side, F.PRY_TWIN_STAT_peer_active, F.PRY_TWIN_STAT_ready, F.PRY_TWIN_STAT_mirror_ok, F.PRY_TWIN_STAT_lost, F.PRY_TWIN_STAT_deposed, F.PRY_TWIN_STAT_refused, F.PRY_TWIN_STAT_reason]⟩
def PRY_TWIN_CMD : Reg := ⟨"PRY_TWIN_CMD", 0xF00102, [], [F.PRY_TWIN_CMD_release, F.PRY_TWIN_CMD_detach, F.PRY_TWIN_CMD_resync]⟩
def PRY_DOM_CFG : Reg := ⟨"PRY_DOM_CFG", 0xF00200, [], [F.PRY_DOM_CFG_role]⟩
def PRY_DOM_STAT : Reg := ⟨"PRY_DOM_STAT", 0xF00201, [], [F.PRY_DOM_STAT_dom, F.PRY_DOM_STAT_depth, F.PRY_DOM_STAT_mgr_ok, F.PRY_DOM_STAT_mgr_lost, F.PRY_DOM_STAT_full, F.PRY_DOM_STAT_members]⟩
def PRY_DOM_MAP : Reg := ⟨"PRY_DOM_MAP", 0xF00240, [(1, 63, 1)], [F.PRY_DOM_MAP_serial]⟩
def PRY_DOM_NODE : Reg := ⟨"PRY_DOM_NODE", 0xF00280, [(0, 63, 1)], [F.PRY_DOM_NODE_present, F.PRY_DOM_NODE_depth, F.PRY_DOM_NODE_parent, F.PRY_DOM_NODE_dn]⟩
def PRY_DOM_SER : Reg := ⟨"PRY_DOM_SER", 0xF002C0, [(0, 63, 1)], [F.PRY_DOM_SER_serial]⟩
def PRY_RFW_CFG : Reg := ⟨"PRY_RFW_CFG", 0xF00300, [], [F.PRY_RFW_CFG_to]⟩
def PRY_RFW_ADDR : Reg := ⟨"PRY_RFW_ADDR", 0xF00310, [(0, 3, 4)], [F.PRY_RFW_ADDR_value]⟩
def PRY_RFW_DATA : Reg := ⟨"PRY_RFW_DATA", 0xF00311, [(0, 3, 4)], [F.PRY_RFW_DATA_value]⟩
def PRY_RFW_CMD : Reg := ⟨"PRY_RFW_CMD", 0xF00312, [(0, 3, 4)], [F.PRY_RFW_CMD_go, F.PRY_RFW_CMD_op, F.PRY_RFW_CMD_dom, F.PRY_RFW_CMD_busy, F.PRY_RFW_CMD_status, F.PRY_RFW_CMD_refused]⟩

end R

/-- The registers of block GLB (code 0x0). -/
def regsGLB : List Reg :=
  [R.GLB_IDENT, R.GLB_STRAP, R.GLB_TEMP, R.GLB_CASK_STAT, R.GLB_MODE, R.GLB_RST_CAUSE, R.GLB_RST_CMD, R.GLB_SLICE_CTL, R.GLB_SLICE_STAT, R.GLB_HOST_CFG, R.GLB_HOST_STAT, R.GLB_REC_CFG, R.GLB_REC_STAT, R.GLB_DP_STAT, R.GLB_EVT_PEND, R.GLB_FAULT_EN, R.GLB_CASK_WIN_ADDR, R.GLB_CASK_WIN_DATA, R.GLB_CASK_WIN_CMD, R.GLB_FES_CFG]
  ++ [R.GLB_FES_ADDR, R.GLB_FES_DATA, R.GLB_FES_CMD]

/-- The registers of block TIM (code 0x1). -/
def regsTIM : List Reg :=
  [R.TIM_CLK_STAT, R.TIM_CLK_SSC, R.TIM_CAND_CFG, R.TIM_CAND_LIM, R.TIM_CAND_STAT, R.TIM_CAND_OFF, R.TIM_CAND_QLRX, R.TIM_SEL_CFG, R.TIM_SEL_CMD, R.TIM_SEL_STAT, R.TIM_SEL_LOCK, R.TIM_REFIN_CFG, R.TIM_PHS_AMT, R.TIM_PHS_CMD, R.TIM_PHS_REM, R.TIM_TOD_CFG, R.TIM_TOD_INC_H, R.TIM_TOD_INC_L, R.TIM_TOD_NS_H, R.TIM_TOD_NS_L]
  ++ [R.TIM_TOD_FRAC, R.TIM_TOD_SET_H, R.TIM_TOD_SET_L, R.TIM_TOD_ADJ, R.TIM_TOD_CMD, R.TIM_TMR_CFG, R.TIM_TMR_TGT_H, R.TIM_TMR_TGT_L, R.TIM_TMR_PER, R.TIM_TMR_CTL, R.TIM_LTC_CFG, R.TIM_LTC_ASYM, R.TIM_LTC_STAT, R.TIM_LTC_OFF]

/-- The registers of block CNV (code 0x2). -/
def regsCNV : List Reg :=
  [R.CNV_STAT, R.CNV_GEN_CFG, R.CNV_RECAL_CFG, R.CNV_RECAL_CMD, R.CNV_RECAL_STAT, R.CNV_GEN_NEW, R.CNV_GEN_PREV, R.CNV_ADC_STAT, R.CNV_CLIP_CFG, R.CNV_ADC_TRIM_A, R.CNV_ADC_TRIM_B, R.CNV_DAC_TAP, R.CNV_DAC_TRIM_A, R.CNV_DAC_TRIM_B, R.CNV_CAP_CFG, R.CNV_CAP_LEN, R.CNV_CAP_CMD, R.CNV_CAP_STAT, R.CNV_CAP_TIME_H, R.CNV_CAP_TIME_L]
  ++ [R.CNV_CAP_SF, R.CNV_SOL_CFG]

/-- The registers of block RXD (code 0x3). -/
def regsRXD : List Reg :=
  [R.RXD_ACQ_STAT, R.RXD_ACQ_CMD, R.RXD_EVT, R.RXD_CD_EST, R.RXD_MODE_CFG, R.RXD_CD_CFG, R.RXD_CD_SCAN, R.RXD_CR_CFG, R.RXD_EQ_CFG, R.RXD_CAR_CFG, R.RXD_TDC_CFG, R.RXD_LLR_CFG, R.RXD_MON]

/-- The registers of block TXD (code 0x4). -/
def regsTXD : List Reg :=
  [R.TXD_STAT, R.TXD_MUTE, R.TXD_MODE_CFG, R.TXD_PS_CFG, R.TXD_DAC_CFG, R.TXD_MASK, R.TXD_MASK_ATT, R.TXD_PE_COEF]

/-- The registers of block FEC (code 0x5). -/
def regsFEC : List Reg :=
  [R.FEC_CODE_CFG, R.FEC_POOL_SLICE, R.FEC_STAT, R.FEC_GEFF, R.FEC_EVT, R.FEC_MARGIN, R.FEC_POOL_CFG, R.FEC_POOL_STAT, R.FEC_POOL_CTX, R.FEC_POOL_PEAK, R.FEC_PCM_ADDR, R.FEC_PCM_DATA]

/-- The registers of block TDL (code 0x6). -/
def regsTDL : List Reg :=
  [R.TDL_TX_CFG, R.TDL_RX_CFG, R.TDL_RX_STAT, R.TDL_EVT, R.TDL_AGR_CFG, R.TDL_AGR_ID, R.TDL_AGR_BND, R.TDL_AGR_PEER, R.TDL_PROP_ID, R.TDL_PROP_BND, R.TDL_PROP_KND, R.TDL_PROP_SUM, R.TDL_PROP_STAT, R.TDL_MB_TX_CMD, R.TDL_MB_RX_STAT, R.TDL_MB_RX_SRC, R.TDL_TX_FILT, R.TDL_MB_TX, R.TDL_MB_RX]

/-- The registers of block LFR (code 0x7). -/
def regsLFR : List Reg :=
  [R.LFR_STAT, R.LFR_EVT, R.LFR_RX_SFC, R.LFR_TX_SFC, R.LFR_FRAME_LEN, R.LFR_FRAME_LONG, R.LFR_DLY_RT, R.LFR_TX_CFG, R.LFR_TX_CTL, R.LFR_ALIGN_CFG, R.LFR_DEF_CFG, R.LFR_DEG_CFG]

/-- The registers of block MAP (code 0x8). -/
def regsMAP : List Reg :=
  [R.MAP_CFG, R.MAP_STAT, R.MAP_CEL_STAT, R.MAP_CH_CFG, R.MAP_CH_PS, R.MAP_CH_STAT, R.MAP_CH_CMD, R.MAP_CH_FAR, R.MAP_CH_DLY, R.MAP_MEM_CFG, R.MAP_MEM_STAT, R.MAP_SLOT]

/-- The registers of block CIP (code 0x9). -/
def regsCIP : List Reg :=
  [R.CIP_STAT, R.CIP_SOL_CFG, R.CIP_SOL_STAT, R.CIP_SLOT_GRANT, R.CIP_CH_CFG, R.CIP_CH_KEY, R.CIP_CH_STAT, R.CIP_CH_MFC_H, R.CIP_CH_MFC_L, R.CIP_SLOT_STAT, R.CIP_SLOT_KCV, R.CIP_UP_KEY_DATA, R.CIP_UP_KEY_CMD, R.CIP_UP_DESC, R.CIP_UP_MSG_CMD]

/-- The registers of block CLI (code 0xA). -/
def regsCLI : List Reg :=
  [R.CLI_LANE_STAT, R.CLI_PTP_CFG, R.CLI_REF_SEL, R.CLI_PORT_CFG, R.CLI_PORT_STAT, R.CLI_FXG_CFG, R.CLI_FXG_STAT, R.CLI_FXC_CFG, R.CLI_FXC_ID, R.CLI_FXG_CAL]

/-- The registers of block CEL (code 0xB). -/
def regsCEL : List Reg :=
  [R.CEL_STAT, R.CEL_CFG, R.CEL_ADM_STAT, R.CEL_CAP_STAT, R.CEL_CMD, R.CEL_ACC_ADDR_H, R.CEL_ACC_ADDR_L, R.CEL_ACC_CMD, R.CEL_ACC_DATA, R.CEL_ACC_CHK, R.CEL_ACC_CHK3, R.CEL_TOUCH_BASE, R.CEL_TOUCH_LEN, R.CEL_TOUCH_CMD, R.CEL_PPR_ADDR, R.CEL_PPR_CMD, R.CEL_ELOG_CE, R.CEL_ELOG_UE, R.CEL_MEM_INJ, R.CEL_SOL_CFG]

/-- The registers of block SEQ (code 0xC). -/
def regsSEQ : List Reg :=
  [R.SEQ_EXEC_CFG, R.SEQ_EXEC_STAT, R.SEQ_ABORT_CMD, R.SEQ_ABORT_TAG, R.SEQ_SQ_STAT, R.SEQ_SQ_TAG, R.SEQ_SQ_PC, R.SEQ_CLAIM_STAT, R.VTG_STAT, R.VTG_SERIAL_CUR, R.VTG_SERIAL_PREV, R.VTG_SERIAL_PEND, R.VTG_CMD, R.VTG_ARCH_SEL, R.VTG_ARCH_STAT, R.VTG_DOM_CFG, R.VTG_PROB_CFG, R.VTG_PROB_THR, R.VTG_PROB_STAT, R.VTG_STG_ADDR]
  ++ [R.VTG_STG_MASK, R.VTG_STG_DATA, R.VTG_STG_CMD, R.SEQ_SOL_CFG, R.SEQ_SOL_RES, R.SEQ_LOAD_ADDR, R.SEQ_LOAD_DATA, R.SEQ_LOAD_CMD, R.SEQ_PSET_ID, R.SEQ_PSET_CFG]

/-- The registers of block HIF (code 0xD). -/
def regsHIF : List Reg :=
  [R.HIF_ERR_STAT, R.HIF_ERR_ADDR, R.HIF_Q_CFG, R.HIF_Q_STAT, R.HIF_Q_PEAK, R.HIF_Q_OVF, R.HIF_DMA_ADDR_H, R.HIF_DMA_ADDR_L, R.HIF_DMA_CFG, R.HIF_DMA_HEAD, R.HIF_DMA_TAIL, R.HIF_EVT_MAP]

/-- The registers of block MON (code 0xE). -/
def regsMON : List Reg :=
  [R.MON_SEQ_CTL, R.MON_SEQ_CFG, R.MON_PRV_CFG, R.MON_CAL_CFG, R.MON_CAL_CMD, R.MON_TDAC_CFG, R.MON_DR_CFG, R.MON_INJ_CFG, R.MON_INJ_CMD, R.MON_INJ_STAT, R.MON_INJ_TIME_L, R.MON_ACC_CMD, R.MON_IN_CFG, R.MON_IN_STAT, R.MON_INJ_RES, R.MON_ACC, R.MON_DC_CFG, R.MON_DC_SHI, R.MON_DC_SHC, R.MON_DC_RESP]
  ++ [R.MON_DC_DET, R.MON_DC_STAT, R.MON_DC_OUT, R.MON_DC_SEQ, R.MON_DC_PEAK, R.MON_DC_RMS, R.MON_DC_ENV, R.MON_SYNC_CMD, R.MON_CNT_CFG, R.MON_SNAP_STAT, R.MON_CNT_SEL, R.MON_CNT_LIVE_H, R.MON_CNT_LIVE_L, R.MON_GRANT, R.MON_BW_PORT, R.MON_BW_FXC, R.MON_BW_CH, R.MON_BW_SLICE, R.MON_CNT_SNAP, R.MON_AGE_CFG]
  ++ [R.MON_AGE_VDD, R.MON_AGE_STAT, R.MON_AGE_STAT2, R.MON_AGE_SITE, R.MON_AGE_EYE, R.MON_AGE_BIAS, R.MON_AGE_POL, R.MON_AGE_POL2, R.MON_AGE_POL3, R.MON_AGE_POL4, R.MON_AGE_SLC, R.MON_AGE_PLAN, R.MON_AGE_PSER, R.MON_AGE_MREF, R.MON_AGE_GREF]

/-- The registers of block PRY (code 0xF). -/
def regsPRY : List Reg :=
  [R.PRY_PORT_CFG, R.PRY_PORT_STAT, R.PRY_PORT_PEER, R.PRY_PORT_PINFO, R.PRY_TWIN_CFG, R.PRY_TWIN_STAT, R.PRY_TWIN_CMD, R.PRY_DOM_CFG, R.PRY_DOM_STAT, R.PRY_DOM_MAP, R.PRY_DOM_NODE, R.PRY_DOM_SER, R.PRY_RFW_CFG, R.PRY_RFW_ADDR, R.PRY_RFW_DATA, R.PRY_RFW_CMD]

/-- The registers of the block with code `b`, R14. -/
def blockRegs : Nat → List Reg
  | 0 => regsGLB
  | 1 => regsTIM
  | 2 => regsCNV
  | 3 => regsRXD
  | 4 => regsTXD
  | 5 => regsFEC
  | 6 => regsTDL
  | 7 => regsLFR
  | 8 => regsMAP
  | 9 => regsCIP
  | 10 => regsCLI
  | 11 => regsCEL
  | 12 => regsSEQ
  | 13 => regsHIF
  | 14 => regsMON
  | 15 => regsPRY
  | _ => []

end Sys2Proof.Machine
end

