-- ==== Sys2Proof/Machine/StCore.lean ====
section
/-!
DEFINITION. The parts of the state that belong to the control side: modes, power-up and resets, crossings and gates,
queues, sequencers, claims, the executive, the loader, the vintage store and the host interface. Every part is plain
data. What a register field already holds (GLB_MODE.mode, GLB_SLICE_STAT.state, VTG_STAT.state ...) has its one home
in the register fields of `State.regs` and is not repeated here.
-/

namespace Sys2Proof.Machine

/-- Where power-up stands (R41, R54, R549). -/
inductive BootPhase where
  | held        -- VDDAON below 0.70 V: the whole device held in reset (R549)
  | perst       -- PERST_N asserted: fundamental reset (R56)
  | oscdly      -- the OSCDLY count runs on the fallback oscillator (R41)
  | waitClock   -- a count ended without a host clock; it restarts when the clock is found (R41)
  | mainLoop    -- t1 reached, the main loop locking (R54)
  | image       -- the main loop is locked; the bootstrap image comes next (R55)
  | loading     -- the program set is decided; calibration and RESCUE load (R54)
  | done        -- DORMANT reached, boot_done set (R54)
  deriving DecidableEq, Repr

/-- One domain crossing (R57, R58). -/
structure Crossing where
  flushed  : Bool   -- FLUSHED: pushes from the side not in reset are refused
  aInReset : Bool
  bInReset : Bool
  reqOut   : Bool   -- side A has sent REQ and has no ACK
  ackOut   : Bool   -- side B has returned ACK
  drops    : Nat    -- items discarded, the drop counter of R57
  deriving DecidableEq, Repr

/-- A crossing as it is after reset: open and empty. -/
def Crossing.open : Crossing := ⟨false, false, false, false, false, 0⟩

/-- The clock gate of one block (R51, R52). -/
structure Gate where
  closing : Bool    -- asked to close, waiting for the access in progress
  closed  : Bool
  deriving DecidableEq, Repr

/-- Modes, power-up, clocks and the fatal-fault bookkeeping (chapters 02 and 22). -/
structure Ctl where
  boot         : BootPhase
  hostClk      : Bool          -- the host clock is inside the monitor window
  heldReq      : Bool          -- a request written while busy waits in GLB_MODE.req (R31)
  transTo      : Option Nat    -- the mode that the transition in progress leads to
  nmi          : Bool          -- NMI_N asserted (R46, R50)
  tmode        : Bool          -- the strap TMODE as latched (R547)
  powerDown    : Bool          -- fast clocks stopped
  sscNow       : Nat × Nat × Nat  -- TIM_CLK_SSC en, depth and rate in effect (R44)
  drainShort   : Tab Bool      -- slice drains by step 3 of R37 alone (R39)
  faultsOpen   : List Nat      -- fatal causes since entry that have not cleared (R540)
  ccExpiries   : Nat           -- watchdog expiries counted in the current 60 s (R533)
  ccLoop       : Bool          -- the third expiry: RECOVERY when the executive restarts (R533)
  ccByWdog     : Bool          -- the reset in progress came from the watchdog (R577)
  ccPending    : Bool          -- a control-complex reset waits for the executive's restart (R532)
  rePrev       : Bool          -- that reset re-applies PREVIOUS (R139)
  restarts     : Nat           -- restarts by the device within the last hour (R541)
  recoverWord  : Option Nat    -- the RECOVER packet not yet dispatched: its policy word (R540)
  recoverRun   : Bool          -- a dispatched RECOVER has not ended
  sharedResets : Nat           -- shared resets within the current 10 s (R537)
  sharedLoop   : Bool          -- SHARED_LOOP in force: channels stay in CSF until exit (R538)
  sliceFires   : Tab Nat       -- frame-pulse watchdog firings within the current 1 s, per slice (R537)
  sliceHold    : Tab Bool      -- slice held in reset for 1 s (R537)
  crossings    : Tab Crossing
  gates        : Tab Gate      -- by block code
  otpSerial    : Word          -- 24-bit OTP serial identity (R151, R282)
  otpOwner     : Option (BitVec 384)  -- the owner key hash in OTP (R556)
  otpRefused   : Bool          -- the refusal bit of OTP_STAT (R556)
  otpKcv       : Nat           -- check value of the device KEK that OTP_STAT returns, 0 before its programming
  caskOp       : Option (Nat × Nat × Nat)  -- the cask-window operation in progress: op, byte address, data (R555)
  fesRun       : Tab (Option (Bool × Nat × Nat × Nat))  -- front-end frame in progress, per slice: read, cs, address, data
  fesSent      : Tab Nat       -- front-end frames sent, per slice (R557)
  fesOut       : Tab (List Bool)  -- what the master drives in the last command's frame, per slice (R557)
  deriving DecidableEq, Repr

/-- A packet in a queue: its stated length, how many of its words have arrived, the arrived words not yet popped, and
whether its notice waits for the DMA write. -/
structure QPkt where
  len     : Nat
  arrived : Nat
  words   : List Word
  note    : Bool     -- a notice that follows its DMA write (R166, R174)
  deriving DecidableEq, Repr

/-- One queue of the table "Queues" (R161 to R169). -/
structure Queue where
  pkts    : List QPkt      -- oldest first; only the last may be incomplete
  refuse  : Nat            -- words of a refused packet still to arrive (R164)
  discard : Nat            -- words of an ended program's packet still to discard (R71, R121)
  taker   : Option Nat     -- the sequencer taking the head packet (R70, R121)
  written : Nat            -- words that have landed, which gives each its place in the queue's memory
  deriving DecidableEq, Repr

/-- An empty queue. -/
def Queue.empty : Queue := ⟨[], 0, 0, none, 0⟩

/-- What a blocked sequencer waits for (R96, R99). -/
inductive Wait where
  | claim (n : Nat)                                        -- CLAIM of a held resource (R76)
  | event (ev a : Nat)                                     -- WAITE (R112)
  | time (target : BitVec 32)                              -- WAITT (R114)
  | poll (addr : Word) (a : Nat) (mask cmp : Word) (e : Bool) (last : Word)  -- FPOLL (R107)
  | send (base count dst : Nat)                            -- SEND (R120)
  | recv (a base max src : Nat) (got len : Nat) (started : Bool)             -- RECV (R121)
  | ldl (a addr : Nat)                                     -- LDL of a packet word not yet arrived (R90)
  | stl (a addr : Nat)                                     -- STL of one
  | done (base k : Nat)                                    -- DONE of one (R109)
  deriving DecidableEq, Repr

/-- SEQ_SQ_STAT.state. -/
inductive SqState where
  | idle | running | blocked | inReset
  deriving DecidableEq, Repr

/-- One event of a sequencer's event set (R111, R112). -/
structure EvSlot where
  pend   : Bool
  merged : Bool     -- two or more occurrences since the bit was last cleared
  data   : Word
  deriving DecidableEq, Repr

/-- The programmer's state of one sequencer and what the executive holds for its program (R87 to R115). -/
structure Seq where
  state    : SqState
  w        : Tab Word      -- W0 to W15
  z        : Bool
  n        : Bool
  c        : Bool
  v        : Bool
  t        : Bool
  pc       : BitVec 19
  scratch  : Tab Word      -- 16 K words
  events   : Tab EvSlot
  wait     : Option Wait
  func     : Nat
  program  : Nat
  tag      : Word
  recOk    : Bool
  budget   : Nat           -- in ms (R61)
  step     : Nat           -- last STEP record of the dispatch (R80)
  pktLen   : Nat
  pktGot   : Nat           -- packet words that have arrived in scratch (R70)
  pktQ     : Option Nat    -- the command queue that still feeds this packet
  slowUnits : Nat          -- 32-cycle units in which a YIELD issues nothing (R110)
  deriving DecidableEq, Repr

/-- A sequencer before its first dispatch. DESIGN CHOICE (log 6). -/
def Seq.idle : Seq :=
  { state := .idle, w := [], z := false, n := false, c := false, v := false, t := false, pc := 0, scratch := [],
    events := [], wait := none, func := 0, program := 0, tag := 0, recOk := false, budget := 50, step := 0,
    pktLen := 0, pktGot := 0, pktQ := none, slowUnits := 0 }

/-- One claimable resource (R75 to R77): its holder and those waiting, in order of arrival. -/
structure Claim where
  holder  : Option Nat
  waiters : List Nat
  deriving DecidableEq, Repr

/-- A resource that nobody holds. -/
def Claim.free : Claim := ⟨none, []⟩

/-- One waiting request of a solera use (R420 to R423). -/
structure Req where
  cls     : Nat
  src     : Nat
  entry   : Nat     -- entry tier
  age     : Nat     -- rounds waited unserved
  step    : Nat     -- age step A_k, in rounds
  deriving DecidableEq, Repr

/-- A solera use: its waiting requests in order of arrival, its credits (in 2^-16 of a grant), where the service cycle of
each tier stands (the class served last and its grants in the cycle), the credits of its capped classes, and the part of a round that
has passed, in 1/100 ns, where device time counts its rounds (R421, R422, R424, R427). -/
structure Solera where
  reqs    : List Req
  credit  : Tab Nat
  cursor  : Tab (Nat × Nat)
  caps    : Tab Nat
  frac    : Nat
  deriving DecidableEq, Repr

/-- A solera use with nothing waiting. -/
def Solera.empty : Solera := ⟨[], [], [], [], 0⟩

/-- An entry of the in-flight table (R81). -/
structure InFlight where
  tag     : Word
  program : Nat
  func    : Nat
  step    : Nat
  deriving DecidableEq, Repr

/-- The executive, the instruction store and the loader (chapter 03). -/
structure Exec where
  store     : Tab (Option Word)   -- 512 K-word instruction store; `none` is unwritten (R61, R64)
  session   : Bool                -- a load session is open (R64)
  loadBuf   : Tab (Option Word)   -- the loader's own buffer: words 0 to 2 and from n + 3 on
  claims    : Tab Claim
  inFlight  : Tab (Option InFlight)  -- by sequencer; always-on memory
  recvs     : Tab (List Nat)      -- sequencers whose RECV has begun no packet, per port code, in order of issue (R121)
  timerPkts : List (Nat × Bool × BitVec 32)  -- PROGRAM packets not yet dispatched: timer, late, target (R455)
  sol       : Solera              -- the sequencer use (R431)
  deriving DecidableEq, Repr

/-- An archived vintage image: the slot of ARCHIVE whose blocks hold it, and how many words it lists (R143, R403). -/
structure Archived where
  serial : Word
  failed : Bool
  slot   : Nat
  words  : Nat
  deriving DecidableEq, Repr

/-- The pending commit, beside what VTG_STAT and VTG_SERIAL_PEND hold. -/
structure Commit where
  image    : Tab Nat       -- STAGED as it was accepted
  target   : BitVec 32     -- device-time target of bd 0b100
  late     : Bool          -- it takes effect later than its target allows (R132)
  slices   : List Nat      -- the slices that it touches the line of (R129)
  deriving DecidableEq, Repr

/-- The vintage store (chapter 05). An image is a table of V-class field values by field key; an unlisted field has its
reset value. -/
structure Vintages where
  current    : Tab Nat
  staged     : Tab Nat
  previous   : Tab Nat         -- PREVIOUS while VTG_STAT.prev_valid reads 1; else the image that the last return left,
                               -- which a receive direction keeps until its own boundary (R301)
  rescue     : Tab Nat
  curDomain  : Bool            -- CURRENT came into force by a domain commit (R148)
  curValid   : Bool            -- CURRENT can be re-applied (R538, CURRENT_BAD)
  lastSerial : Word            -- last assigned serial, always-on memory (R125)
  archive    : List Archived   -- newest first, at most 64
  archCount  : Nat             -- VTG_ARCH_STAT.count; a STANDBY takes that of the mirror (R475)
  loading    : Option Nat      -- the serial of an archive load that waits for the cellar (R144, R398)
  commit     : Option Commit
  retCause   : Nat             -- cause of the return in progress (VTG_STAT.last_ret code)
  retLine    : Bool            -- the return touches the line
  lofExempt  : List Nat        -- slices out of frame when probation started (R136)
  ucb        : Tab Nat         -- uncorrected outer blocks in the check interval, per slice
  dlm        : Tab Nat         -- deadline misses in it
  probTicks  : Nat             -- 100 ms check intervals served
  deriving DecidableEq, Repr


/-- The host interface: the PCIe link, MSI-X and the DMA rings (chapter 06). -/
structure Hif where
  linkUp    : Bool
  msixEn    : Tab Bool          -- MSI-X Enable per function
  msixFMask : Tab Bool          -- MSI-X Function Mask per function
  msixTbl   : Tab (BitVec 32)   -- MSI-X table DWs, by (function * 512 + vector) * 4 + DW
  vecPend   : Tab Bool          -- pending-bit array, by function * 512 + vector
  sent      : Tab Nat           -- messages sent, by function * 512 + vector
  hostMem   : Tab (BitVec 32)   -- host memory written by DMA: the requester's function * 2^60 + the DW address
  dmaDone   : Tab Nat           -- words written by engine d since it was enabled, not reduced modulo 2^21
  popOut    : List (BitVec 32)  -- the DWs that the last host read returned
  cntPage   : Tab Word          -- page of the counter window in each function's user page (R516)
  bars      : Tab (BitVec 32)   -- base address registers of the PF, 0 to 5, and its VF BARs, 8 to 13 (R153)
  d3        : Tab Bool          -- the function is in D3hot (R151)
  devCtl    : Tab Nat           -- Device Control per function: payload size code + 8 * read request size code
  aer       : Tab (BitVec 32)   -- uncorrectable error status per function (Advanced Error Reporting)
  vfEnable  : Bool              -- VF Enable of the SR-IOV capability
  numVfs    : Nat               -- NumVFs of the SR-IOV capability
  deriving DecidableEq, Repr

end Sys2Proof.Machine
end

