-- ==== Sys2Proof/Machine/StCel.lean ====
section
/-!
DEFINITION. The parts of the state that belong to the cellar and to the checked on-chip memories (chapter 16).
-/

namespace Sys2Proof.Machine

/-- An armed injection (R417). -/
structure Inject where
  cls  : Nat
  sym0 : Nat
  sym1 : Nat
  two  : Bool
  deriving DecidableEq, Repr

/-- The cellar and the on-chip memory checks. -/
structure Cel where
  blocks   : Tab (List Nat)  -- stored symbols of a block, data 0 to 63 then check 0 to 3, by block address
  lines    : Tab Bool        -- the valid map, by 512-byte line (R409)
  trainDue : Bool            -- PREPARE has been entered from DORMANT and training has not started (R400)
  training : Bool
  jcount   : Nat             -- journal-archive records since the last fundamental reset (R406)
  inj      : Option Inject
  bad      : Tab (List Nat)  -- what has been added to the 27 symbols of an on-chip row's codeword, by class and row
  rows     : Tab Bool        -- valid bits of on-chip rows, by class and row (R409)
  sol      : Solera          -- the cellar's use of the arbiter: classes 1 to 6 of R428
  work     : Tab Nat         -- grants of 128 bytes that a class has still to be given, by class
  demand   : Nat             -- traffic of the routed contexts not yet a whole grant, in 2^-16 of a grant
  maint    : Nat             -- MAINT's part of a grant not yet taken, in 2^-16
  frac     : Nat             -- part of a controller cycle passed, in 1/20
  rings    : Tab (List (Nat × Nat))   -- DESKEW extents, (first unit of 40 bytes, units), of a receive context's ring (R403, R404)
  waiting  : List (Nat × List Nat)    -- archive and journal-archive writes that wait: data address and bytes (R398)
  hard     : Tab (List Nat)  -- what failed cells add to an on-chip row's codeword at every reading, by class and row (R411)
  deriving DecidableEq, Repr

def Cel.fresh : Cel := ⟨[], [], false, false, 0, none, [], [], Solera.empty, [], 0, 0, 0, [], [], []⟩

end Sys2Proof.Machine
end

