-- ==== Sys2Proof/Machine/StLine.lean ====
section
/-!
DEFINITION. The parts of the state that belong to the line slices: converters and their calibration, the capture engine,
receive acquisition, transmit amplitude and masks, the coding front ends and the decoder pool.
-/

namespace Sys2Proof.Machine

/-- A calibration generation (R190, R193). `trims` holds the trim fields of the slice by field key. -/
structure Gen where
  serial : Nat
  trims  : Tab Nat
  temp   : Int        -- start temperature, in 0.25 °C
  baud   : Nat        -- symbol rate code of the record
  skip   : Nat        -- skip mask
  time   : BitVec 32  -- device time at completion
  sfc    : Nat        -- superframe counter at completion
  deriving DecidableEq, Repr

/-- The factory-neutral trims: serial 0, all zero (R190). -/
def Gen.neutral : Gen := ⟨0, [], 0, 7, 0, 0, 0⟩

/-- The converters of one slice (chapter 07), beside their registers. -/
structure Conv where
  newest     : Gen
  previous   : Option Gen
  lastIssued : Nat             -- last serial issued; always-on memory (R190)
  work       : Tab Nat         -- trims measured in the run in progress, by field key
  workSkip   : Nat             -- its skip mask
  runTemp    : Int             -- its start temperature
  lastTemp   : Option Int      -- start temperature of the last completed run (R184)
  retried    : Nat             -- mask of the ADCs whose MATCH of this phase has been repeated (R179)
  goal       : Gen             -- what a restore rotation asked for brings back (R188, R197)
  rejected   : Bool            -- a return from use 1 has rejected NEWEST, and no later run has replaced it (R198)
  wait       : Option Bool     -- an engine is asked for: `true` for a restore rotation, `false` for a run
  cause      : Nat             -- cause of the pending or running run
  pendCauses : List Nat        -- causes merged into pending (R186)
  lateStep   : Bool            -- HAND BACK of phase 63 done; the final frame boundary is awaited (R183)
  replacing  : Bool            -- the run's generation replaces NEWEST and PREVIOUS is kept (R198)
  saves      : List Gen        -- generations waiting to be saved to the cask, oldest first (R192)
  saveRetry  : Bool            -- its save has failed once
  firstRate  : Bool            -- the first LIT is a rate cause: no valid record at power-up (R195)
  deriving DecidableEq, Repr

/-- The converters of a slice with an empty cask. DESIGN CHOICE (log 6). -/
def Conv.fresh : Conv :=
  { newest := Gen.neutral, previous := none, lastIssued := 0, work := [], workSkip := 0, runTemp := 0,
    lastTemp := none, retried := 0, goal := Gen.neutral, rejected := false, wait := none, cause := 0, pendCauses := [],
    lateStep := false, replacing := false, saves := [], saveRetry := false, firstRate := false }

/-- The one capture engine (R201 to R204). -/
structure Capture where
  slice    : Option (Fin 8)        -- the slice captured, while a capture is in progress
  segs     : Nat                   -- segments asked for
  src      : Nat                   -- source, trigger and instants after it, as the go found them
  trig     : Nat
  timer    : Nat
  event    : Nat
  post     : Nat
  armedAt  : BitVec 64             -- device time at which the ring of this segment began to fill
  handBack : Option (BitVec 64)    -- device time of the last HAND BACK since then (R203)
  dac      : List (List Nat)       -- the four DAC codes of each instant since then, oldest first, for that source
  deriving DecidableEq, Repr

/-- The capture engine with no capture in progress. -/
def Capture.idle : Capture := ⟨none, 0, 0, 0, 0, 0, 0, 0, none, []⟩

/-- The image that the receive direction's line-touching settings are taken from: the local boundary and the received
one differ by the path delay (R299). -/
inductive RxImg where
  | current    -- CURRENT
  | staged     -- the commit's image: the received boundary has come first
  | previous   -- PREVIOUS: the received boundary is still to come
  deriving DecidableEq, Repr

/-- A decided spread symbol as RXD holds it: `gain` is the sum over the last `n` spread symbols (R222, R292). -/
structure TdlReport where
  start : Nat
  sf    : Nat
  bit   : Bool
  gain  : Dual
  n     : Nat
  deriving DecidableEq, Repr

/-- What RXD has measured since the last frame (R219, R220, R233). -/
structure FrameMeas where
  pilots  : Nat        -- pilots demodulated
  errs    : Nat × Nat  -- error powers of X and Y at them (R220)
  phaseSq : Nat        -- squares of the phase errors found by the pilots of X and Y (R219)
  llrs    : Nat        -- LLRs formed
  llr     : Nat        -- their magnitudes
  samples : Nat        -- samples received
  power   : Nat × Nat  -- the power of X and Y in them, in units of 2^-20
  deriving DecidableEq, Repr

def FrameMeas.none : FrameMeas := ⟨0, (0, 0), 0, 0, 0, 0, (0, 0)⟩

/-- The adaptive state of one slice's receive chain (R206 to R224). -/
structure Dsp where
  gain     : Int × Int             -- AGC gain of X and Y in 2^-20 dB (R206)
  nco      : Int                   -- symbol clock offset in 2^-10 ppm (R210, R211)
  taps     : List (List Cx)        -- hxx, hxy, hyx, hyy in units of 2^-44 (R213)
  overlap  : List Dual             -- the last 16,384 samples into the bulk compensator (R207)
  past     : List Dual             -- the last 62 samples into the equaliser (R212)
  tapsWere : List (List Cx)        -- the taps at the last frame (R214)
  freq     : Int                   -- carrier frequency offset in Hz (R217)
  offset   : Bool                  -- CARRIER has made its coarse and fine estimate (R217)
  phase    : Int                   -- phase that the frequency offset has turned through, in 2^-16 rad (R217)
  pilots   : List Int × List Int   -- phases of the last pilots of X and of Y in 2^-16 rad, newest first (R218)
  errs     : List (Nat × Nat)      -- error powers of the last pilots of X and Y, newest first (R223)
  meas     : FrameMeas
  pos      : Nat                   -- superframe symbol position of the next symbol (R225, R231)
  inst     : Nat                   -- ADC phase of the next instant (R176)
  reports  : List TdlReport        -- decided spread symbols to cancel, newest first (R222, R292)
  gains    : List Dual             -- complex gains of the last spread symbols of the reception (R222)
  left     : Nat                   -- spread symbols left in the signal, counted as uncancelled (R222)
  low      : Nat × Nat             -- frames in a row with pilot SNR below 0 dB in X and in Y (R229)
  good     : Nat                   -- frames in a row with pilot SNR above 3 dB in both (R225)
  since    : BitVec 64             -- device time from which the limit of the acquisition state counts (R215, R227)
  deriving DecidableEq, Repr

/-- Before the first acquisition: every gain 0 dB, no offset, no filter. DESIGN CHOICE (log 17). -/
def Dsp.fresh : Dsp :=
  { gain := (0, 0), nco := 0, taps := [], overlap := [], past := [], tapsWere := [], freq := 0, offset := false, phase := 0,
    pilots := ([], []), errs := [], meas := FrameMeas.none, pos := 0, inst := 0, reports := [], gains := [], left := 0, low := (0, 0), good := 0, since := 0 }

/-- Receive acquisition of one slice, beside RXD_ACQ_STAT. -/
structure Rx where
  singulars : Nat      -- singularities corrected in this acquisition (R215)
  fullScan  : Bool     -- the next CD state scans as mode 1 (R227)
  posSet    : Bool     -- LFR has set the superframe symbol position (R231)
  linkRate  : Nat      -- ambient symbol rate code in force at the demapper
  img       : RxImg    -- where the settings of LFR, MAP and CIP come from (R299)
  rxd       : RxImg    -- where the settings of RXD and of the blocks that it forms come from (R231)
  due       : Option RxImg  -- what RXD goes over to at the first symbol of its next superframe (R231)
  dsp       : Dsp
  deriving DecidableEq, Repr

def Rx.fresh : Rx := ⟨0, false, false, 7, .current, .current, none, Dsp.fresh⟩

/-- Where a change of symbol rate, or a restart of R581, stands at the transmitter (R250, R581). -/
inductive RatePhase where
  | none
  | muting         -- the 16 frames before the boundary
  | relock         -- the synthesiser relocks
  | locked         -- relocked: the cause clears at the next frame boundary
  | restartRelock  -- a restart of R581 with a new symbol rate, relocking
  | restart        -- a restart of R581: the cause clears at the next transmit superframe boundary
  deriving DecidableEq, Repr

/-- Transmit amplitude and mask history of one slice. -/
structure Tx where
  amp      : Nat         -- output amplitude in 1/4,000 (1/16 is 250, 1/250 is 16), R249
  past     : Tab Nat     -- consecutive frames that a bin has stayed over its mask at 24 dB (R246)
  rate     : RatePhase
  newStart : Bool        -- a new block stream begins at the next transmit superframe (R257)
  first    : Bool        -- LIT and before its first transmit superframe (R311, R335)
  info     : List Bool   -- frame bits that wait for a whole group of the outer code (R262)
  labels   : List Bool   -- encoded bits that wait for a whole data symbol (R236)
  pos      : Nat         -- superframe symbol position of the next symbol (R239)
  shaped   : List Dual   -- the last 64 symbols formed, newest first: the pulse shaper's span (R242)
  fir      : List Dual   -- the last 32 samples into the pre-emphasis, newest first (R247)
  dac      : List (List Int)  -- codes that XI, XQ, YI and YQ put out over the last frame (R247, R249)
  sent     : Nat         -- DAC samples since the last 1 ms window (R200)
  clips    : List Nat    -- those of XI, XQ, YI and YQ whose pre-emphasis output was clamped to the code range (R200)
  deriving DecidableEq, Repr

def Tx.fresh : Tx := ⟨0, [], .none, true, true, [], [], 0, [], [], [], 0, [0, 0, 0, 0]⟩

/-- The format of a block: constellation code, entropy and LDPC rate code (R253, R254, R274). -/
structure CodeSet where
  const : Nat
  ent   : Nat
  rate  : Nat
  deriving DecidableEq, Repr

/-- The decoding state of a block (R252, R266): the a-posteriori LLRs of the mother codeword's columns, and what each check has told its
bits, in units of 2^-10. -/
structure Decoding where
  cols : List Int
  msgs : List (List Int)
  deriving DecidableEq, Repr

/-- One block in the decoder pool (R266 to R270). -/
structure Block where
  id       : Nat      -- arrival number
  slice    : Nat
  guar     : Nat      -- guaranteed iterations taken at arrival
  deadline : Nat      -- iteration slot at which the deadline falls
  iters    : Nat
  tier     : Nat      -- class-B tier
  age      : Nat      -- slots waited unserved since the tier last rose
  pos      : Nat      -- superframe symbol position of its first symbol (R225)
  first    : Bool     -- it begins an interleave group (R259)
  trial    : Nat × Nat -- the hypothesis that it was formed under, by Align.serial, and its place among that one's blocks (R260)
  code     : CodeSet  -- its format (R274)
  llrs     : List Int -- its LLRs in codeword order (R225, R253)
  state    : Decoding
  deriving DecidableEq, Repr

/-- A decided block waiting in a reorder store (R272), with its flags. -/
structure Decided where
  id     : Nat
  slice  : Nat
  unconv : Bool
  first  : Bool       -- it begins an interleave group (R259)
  locked : Bool       -- it was decoded in LOCKED (R260)
  lost   : Bool       -- the reorder store delivered it from an uncorrectable row: its group is outer-failed (R413)
  pos    : Nat        -- the tag of R225
  code   : CodeSet
  bits   : List Bool  -- decided bits of the sent codeword (R270)
  deriving DecidableEq, Repr

/-- The decoder pool (R266 to R275). -/
structure Pool where
  slot    : Nat              -- iteration slots passed
  nextId  : Nat
  blocks  : List Block       -- contexts held, by arrival
  store   : List Decided     -- the reorder stores, in order of leaving
  acc     : Tab Nat          -- accumulator of the fraction of g'_s, in 1/256 (R268)
  rr      : Tab (Nat × Nat)  -- weighted round robin of each class-B tier: slice served last, its grants
  margin  : Tab (Nat × Nat × Nat)  -- per slice since the last margin: corrected bits, converged and unconverged blocks (R277)
  deriving DecidableEq, Repr

/-- Block alignment of one slice, beside FEC_STAT (R260). -/
structure Align where
  serial  : Nat    -- hypotheses tried so far: the number of the one in use (R260)
  formed  : Nat    -- blocks formed under it
  trial   : Nat    -- of its first 16 blocks, those decoded
  good    : Nat    -- of them, converged
  bad     : Nat    -- unconverged in a row while LOCKED
  held    : List Decided  -- released blocks of the interleave groups in progress, in order (R262, R263)
  phase   : Nat    -- received superframes since the one in which the hypothesis holds, modulo 3 (R258, R260)
  deriving DecidableEq, Repr

def Align.fresh : Align := ⟨0, 0, 0, 0, 0, [], 2⟩

end Sys2Proof.Machine
end

