-- ==== Sys2Proof/Machine/StMap.lean ====
section
/-!
DEFINITION. The parts of the state that belong to MAP: members and channels, beside their registers (chapter 13).
-/

namespace Sys2Proof.Machine

/-- A channel record as a slice received it (R312). -/
structure ChanRecord where
  ch      : Nat
  valid   : Bool
  epoch   : Bool
  members : Nat          -- number of members less 1
  req     : Nat
  sel     : Nat
  ctr     : Nat
  tag     : BitVec 128
  deriving DecidableEq, Repr

/-- A member frame that MAP has stored (R338, R339). -/
structure MemFrame where
  id    : Nat                 -- its identity: 256 × multiframe number + MFAS
  mark  : Bool
  cel   : Bool                -- it was written through the cellar (R343)
  bits  : List Bool           -- the member's slots, where it was written on chip
  cells : List Nat            -- data addresses of its slots in DESKEW, and of its entry in SPILL, where through the cellar
  entry : Nat
  head : Option (List Bool)   -- bits 0 to 127 of the channel's record, in the frame that carries it
  rcd  : Option ChanRecord    -- that record
  deriving DecidableEq, Repr

/-- One member of a channel in receive, which is that on a slice (R331, R338 to R344, R354). -/
structure Mem where
  ctr    : Option Nat    -- multiframe counter of its last valid record
  num    : Bool          -- the numbering is adopted (R338)
  gap    : Bool          -- SSF has held since its records last agreed
  arr    : Int           -- arrival of its frames of one identity, in ns on the scale shared by the channel's members
  dskew  : Bool          -- dSKEW holds (R341)
  badRec : Nat           -- bad records in a row (R351)
  mism   : Bool          -- mismatched
  id     : Nat           -- identity of the last frame received (R338)
  store  : List MemFrame -- frames that wait for their read time, oldest first (R336, R339)
  deriving DecidableEq, Repr

def Mem.fresh : Mem := ⟨none, false, false, 0, false, 0, false, 0, []⟩

/-- One channel in receive (R340 to R349). -/
structure Chan where
  cmd    : Nat     -- command in force: 0 none, else the code of MAP_CH_CMD (R348)
  read   : Int     -- read time of a frame, in ns on the same scale (R339)
  frames : Nat     -- output frames since the last growth step (R342)
  img    : RxImg   -- the image that the channel's receive side is defined by (R299, R353)
  id     : Nat     -- identity of the next output frame (R339)
  dest   : RxImg   -- the image that slices have gone over to and the channel has not (R353)
  turns  : List (Nat × Option Nat)   -- those slices, with the identity of the first frame under it where the member is numbered (R353)
  renum  : Option (Nat × Nat)        -- from the next multiframe on: MAP's number of one, and its record's (R361)
  deriving DecidableEq, Repr

def Chan.fresh : Chan := ⟨0, 0, 0, .current, 0, .current, [], none⟩

end Sys2Proof.Machine
end

