-- ==== Sys2Proof/Machine/StCip.lean ====
section
/-!
DEFINITION. The parts of the state that belong to CIP: key slots, key-encryption keys, the run of each channel's
verifications and the message service (chapter 14). What CIP_SLOT_STAT and the counter registers hold is not repeated.
-/

namespace Sys2Proof.Machine

/-- What a key slot holds beside CIP_SLOT_STAT: the key, and its service counter (R359, R367). -/
structure KeySlot where
  key : BitVec 256
  ctr : Nat
  deriving DecidableEq, Repr

def KeySlot.empty : KeySlot := ⟨0, 0⟩

/-- What a received message is decrypted and judged with (R361, R363, R364): its number, the slot and epoch in force at its
beginning, its sender's side, and whether the slot's row could be read. -/
structure RxMsg where
  num   : Nat
  slot  : Nat
  epoch : Nat
  side  : Nat
  bad   : Bool
  deriving DecidableEq, Repr

def RxMsg.fresh : RxMsg := ⟨0, 0, 0, 0, false⟩

/-- The receive verification of one channel (R361, R372). -/
structure CipCh where
  num     : Option Nat   -- MAP's number of the multiframe whose record has come
  failRun : Nat
  okRun   : Nat
  misCtr  : Option Nat   -- record counter of the message before, where its counter mismatched
  msg     : RxMsg        -- the message of the multiframe in progress
  next    : Nat          -- identity of the frame that follows the last one delivered
  text    : List Bool    -- its ciphertext
  csf     : Bool         -- MAP held CSF in a frame of it (R373)
  last    : RxMsg        -- the message before, whose record is to come, and its ciphertext
  lastText : List Bool
  lastCsf : Bool
  aad     : List Bool    -- bits 0 to 127 of that record, and the record
  rcd     : Option ChanRecord
  out     : List Bool    -- plaintext of the last output frame
  deriving DecidableEq, Repr

def CipCh.fresh : CipCh := ⟨none, 0, 0, none, .fresh, 0, [], false, .fresh, [], false, [], none, []⟩

/-- The message that a channel sends in the multiframe in progress (R356, R357). -/
structure CipMsg where
  key   : BitVec 256
  nonce : Nat             -- 96 bits (R359)
  size  : Nat             -- slots of the channel
  aad   : List Bool       -- bits 0 to 127 of its channel record (R312)
  sent  : Nat             -- bits encrypted so far
  part  : List Bool       -- ciphertext bits that do not fill a block yet
  ghash : BitVec 128
  deriving DecidableEq, Repr

/-- The transmit side of one channel (R333, R356, R357). -/
structure CipTx where
  msg : Option CipMsg
  out : List Bool         -- ciphertext of the frame in progress, in the order of R333
  head : List Bool        -- the record that this multiframe carries, of the message before (R312)
  deriving DecidableEq, Repr

def CipTx.fresh : CipTx := ⟨none, [], []⟩

/-- A service message in progress (R374 to R377). -/
structure SvcRun where
  nonce  : Nat            -- 96 bits, 0 where none was consumed
  used   : Bool           -- a nonce was consumed
  done   : Nat            -- blocks processed, AAD first
  ghash  : BitVec 128
  reason : Nat            -- code of the table "Service reasons"
  past   : Bool           -- nothing remains but its response
  deriving DecidableEq, Repr

/-- The message service of one function. -/
structure Svc where
  queue : List (List Nat)   -- descriptors waiting, the first the one in progress
  run   : Option SvcRun
  deriving DecidableEq, Repr

def Svc.idle : Svc := ⟨[], none⟩

/-- CIP. -/
structure Cip where
  devKek : Option (BitVec 256)        -- OTP: the device KEK (R366, R556)
  keks   : Tab (Option (BitVec 256))  -- KEKs of VF1 to VF15
  slots  : Tab (Option KeySlot)       -- of the slots that have been loaded
  chans  : Tab CipCh
  tx     : Tab CipTx
  svc    : Tab Svc
  deriving DecidableEq, Repr

def Cip.fresh : Cip := ⟨none, [], [], [], [], []⟩

end Sys2Proof.Machine
end

