-- ==== Sys2Proof/Machine/StCli.lean ====
section
/-!
DEFINITION. The parts of the state that belong to CLI: clients, lanes and FlexE calendars (chapter 15).
-/

namespace Sys2Proof.Machine

/-- What a client sends to the host (R385); idle alone while its lanes have nothing else to send (R390). -/
inductive Egress where
  | frames | localFault | remoteFault | idle
  deriving DecidableEq, Repr

/-- One client: client p is port p, client 64 + x is FlexE client x. -/
structure Client where
  eg      : Egress
  ind2    : Bool          -- indications of received management frames (R384)
  ind4    : Bool
  ind5    : Bool
  buf     : List (Nat × List Nat)   -- the egress buffer, oldest first: UPI and payload (R383)
  out     : List Nat      -- last frame sent to the host, or what was sent of it where it was cut off
  start   : Option (BitVec 64)      -- device time at which it began to leave
  cut     : Bool          -- it was ended with an error control block (R385)
  gap     : Nat           -- average inter-packet gap after it, in bytes (R383)
  deriving DecidableEq, Repr

def Client.fresh : Client := ⟨.idle, false, false, false, [], [], none, false, 12⟩

/-- The GFP stream of one channel (R382). Payload areas are lists of bytes, type header and payload information. -/
structure Gfp where
  queue : List (List Nat)   -- payload areas that wait to be sent
  bytes : List Nat          -- of the frame being sent, what has not left
  scr   : Nat               -- the last 43 payload bits sent, scrambled
  rx    : List Nat          -- received bytes that are not delineated yet
  sync  : Nat               -- 0 hunting for a core header, 1 one found, 2 delineating
  dscr  : Nat               -- the last 43 payload bits received, before descrambling
  deriving DecidableEq, Repr

def Gfp.fresh : Gfp := ⟨[], [], 0, [], 0, 0⟩

/-- One lane, beside CLI_LANE_STAT: the state that it leaves DEEP for, and a held request (R388, R389). -/
structure Lane where
  target : Nat
  held   : Option Nat
  deriving DecidableEq, Repr

def Lane.fresh : Lane := ⟨0, none⟩

/-- The two calendars of a FlexE group, client + 1 by calendar slot, 0 where unused, and the one that a pending switch goes to;
CLI_FXG_STAT names the one in use in each direction (R387). -/
structure Calendar where
  a    : Tab Nat
  b    : Tab Nat
  next : Nat             -- 0 A, 1 B
  deriving DecidableEq, Repr

def Calendar.empty : Calendar := ⟨[], [], 0⟩

end Sys2Proof.Machine
end

