-- ==== Sys2Proof/Machine/StFrame.lean ====
section
/-!
DEFINITION. The parts of the state that belong to the tendril channel and the line frame of each slice (chapters 11
and 12), beside their registers.
-/

namespace Sys2Proof.Machine

/-- A tendril packet that waits to be sent: its type and its payload bytes (R282, R286). A HELLO gets its payload
when it starts. -/
structure TdlPkt where
  typ  : Nat
  body : List Nat
  deriving DecidableEq, Repr

/-- A packet reception in progress (R288 to R291). -/
structure TdlRx where
  sf     : Nat                  -- spreading factor code
  peak   : Nat                  -- correlation peak in 0.25 dB
  chip   : Int                  -- timing of the packet in chips
  header : Option (List Bool)   -- the 48 header bits, once decoded
  got    : List Bool            -- the spread symbols decided since the preamble
  deriving DecidableEq, Repr

/-- A good packet that has been received and not yet acted on. -/
structure TdlGood where
  typ    : Nat
  body   : List Nat
  src    : Nat      -- source serial identity
  isRep  : Bool     -- a repeat of the last good packet (R291)
  deriving DecidableEq, Repr

/-- The tendril of one slice. -/
structure Tdl where
  queue    : List TdlPkt               -- waiting packets, in the order they were queued
  sending  : Option TdlPkt             -- the packet that leaves the transmitter
  sent     : Int                       -- symbols of it that have left; negative before its grid point (R280)
  sendSf   : Nat                       -- its spreading factor code (R280)
  seqNo    : Nat                       -- next sequence number, modulo 64 (R282)
  rx       : Option TdlRx
  last     : Option (Nat × Nat)        -- source serial and sequence number of the last good packet (R291)
  inbox    : List TdlGood
  ownId    : Option Nat                -- change id of the pending commit, from NEGOTIATING on (R295)
  proposed : Bool                      -- a PROPOSE of the pending commit has been sent (R300)
  kinds    : Nat                       -- kinds word and summary of that PROPOSE (R293)
  summary  : Nat
  accRx    : Bool                      -- an ACCEPT of the own B is held (R298)
  accTx    : Bool                      -- an ACCEPT of the far end's proposal has been sent (R298)
  farB     : Option Nat                -- the far end's B that was accepted
  agreed   : Option Nat                -- agreed transmit boundary (R298, R313)
  rxAt     : Option Nat                -- received superframe that brings in the new receive settings (R299)
  curId    : Option Nat                -- change id under which CURRENT was agreed (R301)
  prevId   : Option Nat                -- change id under which PREVIOUS was agreed
  ownRet   : Option Nat                -- own return boundary (R140, R301)
  farRet   : Option Nat                -- far end's announced return boundary (R301)
  farCancel : Bool                     -- CANCEL came while ARMED: a return replaces the probation (R300)
  deriving DecidableEq, Repr

/-- The tendril of a slice before its first packet. -/
def Tdl.fresh : Tdl :=
  { queue := [], sending := none, sent := 0, sendSf := 0, seqNo := 0, rx := none, last := none, inbox := [], ownId := none, proposed := false, kinds := 0,
    summary := 0, accRx := false, accTx := false, farB := none, agreed := none, rxAt := none, curId := none, prevId := none,
    ownRet := none, farRet := none, farCancel := false }

/-- The line frame of one slice, beside LFR_STAT, LFR_RX_SFC and LFR_TX_SFC. Times are device time in ns. -/
structure Lfr where
  cand     : Option (Nat × Nat)        -- candidate, an index of `window`, and the checks it has passed (R316)
  excluded : Option Nat                -- the position about which the search tests none (R319), an index of `window`
  badFas   : Nat                       -- failed FAS tests in a row (R317)
  lastMf   : Option (Nat × Nat)        -- MFAS and MFI of the frame before (R318)
  badMf    : Nat                       -- frames in a row that differ from the expected values (R318)
  imSeen   : Bool                      -- IM has been reached since IF (R319)
  noIm     : Nat                       -- frames since IF that failed the MFAS rule (R319)
  sfc      : Option (Nat × Nat)        -- SFC of the multiframe before, with its MFI (R320)
  sfcBad   : Nat                       -- valid SFC values in a row that disagree (R320)
  since    : Tab (Option (BitVec 32))  -- start of the condition in progress: 0 OOF, 1 IF, 2 OOM, 3 IM
  uncTot   : Nat                       -- blocks of the 1 ms window in progress (R322)
  uncBad   : Nat                       -- of them, unconverged
  ms       : Nat                       -- start of that window in device time
  uncRun   : Nat                       -- windows in a row above the fraction
  uncOk    : Nat                       -- windows in a row at or below it
  errS     : Nat                       -- errored frames of the 1 s interval in progress (R323)
  sec      : Nat                       -- start of that interval in device time
  ssfInS   : Bool                      -- SSF held at some instant of it
  degRun   : Nat
  degOk    : Nat
  rdiRun   : Nat                       -- frames in a row with RDI 1, and with RDI 0
  rdiOk    : Nat
  reqSf    : Bool                      -- the switch request of R325 is raised to MAP
  dlyRx    : Option (BitVec 32 × BitVec 32)  -- last DTX with a valid check, and its receive reference instant (R310)
  dlyOk    : Bool                      -- the multiframe's delay block has passed its CRC-16 (R456)
  dlyRt    : BitVec 32                 -- the round trip of that block in ns (R314)
  txMfas   : Nat                       -- transmit overhead of the last frame built (R309)
  txMfi    : Nat
  txRec    : Nat
  txTsm    : Nat
  recAcc   : Nat                       -- uncorrectable outer codewords since the last frame built
  txDly    : BitVec 32 × BitVec 32 × BitVec 32   -- DTX, DEC and TURN of the multiframe being sent (R310)
  txPhase  : Nat                       -- superframes of the frame period that have passed, modulo 3 (R257, R258, R303)
  txBip    : List Bool                 -- the BIP-8 over the last frame built, sent in the next (R308)
  window   : List (Bool × Bool)        -- the last decoded bits, oldest first, each with its mark of R263 (R315, R323)
  next     : Nat                       -- index of `window` of the next position to test (R315 to R317)
  start    : Nat                       -- index of `window` at which the frame in hand starts
  tags     : List (Int × Nat)          -- blocks of `window`: the index of the first bit of each, and its tag (R225, R320)
  got      : List Bool                 -- the last frame received whole, descrambled (R307)
  gotErr   : Bool                      -- it is errored (R323)
  gotBip   : Nat                       -- its BIP-8 violations (R308)
  mdo      : Tab Nat                   -- MDO words of the multiframe being received, by MFAS (R310)
  deriving DecidableEq, Repr

/-- The line frame of a slice that has just become LIT. -/
def Lfr.fresh : Lfr :=
  { cand := none, excluded := none, badFas := 0, lastMf := none, badMf := 0, imSeen := false, noIm := 0, sfc := none,
    sfcBad := 0, since := [], uncTot := 0, uncBad := 0, ms := 0, uncRun := 0, uncOk := 0, errS := 0, sec := 0,
    ssfInS := false, degRun := 0, degOk := 0, rdiRun := 0, rdiOk := 0, reqSf := false, dlyRx := none, dlyOk := false, dlyRt := 0, txMfas := 0,
    txMfi := 0, txRec := 0, txTsm := 15, recAcc := 0, txDly := (0, 0, 0), txPhase := 0, txBip := [], window := [],
    next := 0, start := 0, tags := [], got := [], gotErr := false, gotBip := 0, mdo := [] }

/-- The transmit grid of MAP (R335): ticks of 1.6 ns since its last frame boundary, where no slice runs on it, and the number in its
superframe of the frame in progress, 0 to 4,095. -/
structure Grid where
  ticks : Nat
  frame : Nat
  deriving DecidableEq, Repr

end Sys2Proof.Machine
end

