-- ==== Sys2Proof/Machine/StMon.lean ====
section
/-!
DEFINITION. The parts of the state that belong to MON beside its registers: sequences, accumulators, injections,
decimation chains, counter windows and the ageing records (chapters 20 and 21). A converter code is kept nowhere but in
what R497 lets it update.
-/

namespace Sys2Proof.Machine

/-- Accumulators of an input or of an injection slot (R497, R498, R503). -/
structure Acc where
  sum    : Int
  sumSq  : Nat
  count  : Nat
  min    : Int
  max    : Int
  cosSum : Int
  sinSum : Int
  ovr    : Nat
  dirty  : Nat
  deriving DecidableEq, Repr

/-- Zeroed accumulators. DEDUCED (log 29). -/
def Acc.zero : Acc := ⟨0, 0, 0, 0, 0, 0, 0, 0, 0⟩

/-- An injection slot (R502 to R506). -/
structure Inj where
  armed : Bool                  -- waits for its device event
  trig  : Option (BitVec 32)    -- waiting or converting: the trigger instant
  held  : Bool                  -- it met a foreground calibration (R506)
  left  : Nat                   -- conversions still to take; 0 before its first
  began : Option (BitVec 32)    -- sampling instant of its first conversion
  acc   : Acc
  done  : Bool                  -- every conversion is taken
  deriving DecidableEq, Repr

def Inj.fresh : Inj := ⟨false, none, false, 0, none, Acc.zero, false⟩

/-- A decimation chain (R508 to R512). Integrators and combs are 48-bit words. -/
structure Dc where
  ints    : List Nat
  combs   : List Nat
  n       : Nat                 -- samples since the last output
  line    : List Int            -- last outputs of the combs, newest first: the compensator's delay line
  settle  : Nat                 -- outputs still unsettled
  fadeOld : Nat                 -- response faded from
  fadeLen : Nat
  fadeNow : Nat                 -- outputs of the cross-fade so far
  request : Option (Nat × Nat)  -- held request: response and fade length
  heldIn  : Bool                -- R501 since the last output
  lastIn  : Int                 -- last clean value of an RXD tap
  rmsSum  : Nat
  rmsN    : Nat
  deriving DecidableEq, Repr

/-- A chain after reset, with U outputs to settle. -/
def Dc.zero (u : Nat) : Dc := ⟨[0, 0, 0, 0, 0], [0, 0, 0, 0, 0], 0, [], u, 0, 0, 0, none, false, 0, 0, 0⟩

/-- A chain as reset leaves its settings: order 3, response 0. -/
def Dc.fresh : Dc := Dc.zero 4

/-- A run of MARGIN_PLAN on a sequencer that has decided on its plan and is acquiring its claims (R523). -/
structure PlanTask where
  mask   : Nat                  -- the slice mask of the packet
  kind   : Nat                  -- kind of the plan, 0 for none
  slices : List Nat             -- the slices that it plans, or follows a proposal on
  follow : Bool                 -- it follows the far end's proposal (R528)
  todo   : List Nat             -- claims still to acquire, ascending
  since  : BitVec 64            -- device time at which it began to wait for the first of them
  refs   : List (Nat × Nat × Nat)  -- slices in TRACK for which (a) did not hold: their margin and their generation, as read (R525)
  deriving DecidableEq, Repr

/-- What the margin planner and the library's event handler keep from one run to the next (R524 to R528). -/
structure Planner where
  tasks  : Tab (Option PlanTask)    -- by sequencer
  bars   : Tab Nat                  -- runs that a kind stays barred on a slice, by 8 * kind + slice
  low    : Tab Nat                  -- runs in a row with the margin below m_low, per slice
  high   : Tab Nat                  -- runs in a row with it above m_high
  dlm    : Tab Nat                  -- FEC_CNT_DLM at the last run
  blocks : Tab Nat                  -- FEC_CNT_BLK at the last run
  late   : Tab Nat                  -- blocks of 20 or more iterations at the last run
  watch  : List (Nat × Nat)         -- slices whose CNV_RUN_DONE is watched, with the time to go in 0.1 ns
  pkts   : List Nat                 -- slices for which the handler has submitted part 1, oldest first
  deriving DecidableEq, Repr

def Planner.fresh : Planner := ⟨[], [], [], [], [], [], [], [], []⟩

structure Mon where
  start   : Bool                      -- sequences start at the next conversion clock edge (R495)
  prv     : Tab (Option Nat)          -- privileged pairs of the running sequences: the input of pair j (R496)
  pos     : Tab Nat                   -- next position of each converter's sequence
  dirty   : Tab Nat                   -- dirty conversions still to come, per converter (R500)
  last    : Tab Int                   -- last clean sample of each input
  live    : Tab Acc
  bank    : Tab Acc                   -- the read bank
  inj     : Tab Inj
  injRes  : Tab Acc                   -- result sets of completed bursts
  bgStage : Nat                       -- background turn: 0 none, 1 MATCH, 2 TAKE (R504)
  bgNext  : Nat                       -- converter of the next turn
  fg      : Nat                       -- converters under foreground calibration, a bit each
  fgWait  : Option Nat                -- a foreground calibration that waits for injections: its mask
  fgHeld  : Option Nat                -- a request made during a foreground calibration (R506)
  tdacAt  : Tab (Option (BitVec 32))  -- last switch of an input to or from the test DAC (R507)
  msyncAt : Option (BitVec 32)        -- a falling edge of MSYNC not yet acted on
  msync   : Nat                       -- pulses that the device has driven on MSYNC
  edges   : Nat                       -- conversion clock edges that have passed
  phase   : Tab Nat                   -- what each dither reference has turned, in 1/40,000,000 of a turn (R498)
  dcs     : Tab Dc
  latch   : Option (Tab Nat)          -- counters latched at a window boundary (R514)
  snap    : Tab Nat                   -- the snapshot bank
  windows : Bool                      -- the first boundary has come at its timer
  ageDue  : Bool                      -- PREPARE entered and no pass made since (R519)
  agePass : Bool                      -- a sentinel pass is in progress
  recNext : Nat                       -- ageing record sequence of the next record (R521)
  recSlot : Nat                       -- its place in the ring, 0 to 4,095
  hours   : Nat                       -- powered hours at the last record
  recDue  : Bool                      -- DORMANT entered by request and no record written since
  low     : Tab (Option Int)          -- lowest valid FEC_MARGIN of each slice over the period
  ceBase  : Tab Nat                   -- CEL_CNT_CE of each cellar channel at the last record
  vddSent : Nat                       -- VDD request that the regulator confirmed last, in mV
  vddDue  : Option Nat                -- an AVSBus Vout command that waits: its value in mV
  vddTry  : Nat                       -- tries of it so far
  planner : Planner
  deriving DecidableEq, Repr

/-- MON after reset: nothing sampled. The regulator has confirmed the fused request during power-up (R550). -/
def Mon.fresh : Mon :=
  { start := false, prv := [], pos := [], dirty := [], last := [], live := [], bank := [], inj := [], injRes := [],
    bgStage := 1, bgNext := 1, fg := 0, fgWait := none, fgHeld := none, tdacAt := [], msyncAt := none, msync := 0,
    edges := 0, phase := [], dcs := [], latch := none, snap := [], windows := false, ageDue := false, agePass := false, recNext := 1,
    recSlot := 0, hours := 0, recDue := false, low := [], ceBase := [], vddSent := 750, vddDue := none, vddTry := 0,
    planner := Planner.fresh }

end Sys2Proof.Machine
end

