-- ==== Sys2Proof/Machine/StPry.lean ====
section
/-!
DEFINITION. The parts of the state that belong to PRY beside its registers: the Poryon ports, the twin pair, the domain
and the remote-fabric windows (chapter 19).
-/

namespace Sys2Proof.Machine

/-- A message of the Poryon link (R461, R463): class and kind, destination and source numbers, words of 24 bits. -/
structure PryMsg where
  cls   : Nat
  kind  : Nat
  dst   : Nat
  src   : Nat
  words : List Nat
  deriving DecidableEq, Repr

/-- One Poryon port, beside PRY_PORT_STAT. -/
structure Port where
  losses : Nat                  -- signal losses of the attempt in progress (R466)
  probe  : Bool                 -- the attempt is the probe of an ABSENT port (R468)
  rxSeq  : Tab Nat              -- frame sequence expected next, plus 1, by class; 0 before the first frame (R463)
  part   : Tab (Option PryMsg)  -- the open message of each class (R463)
  inbox  : List PryMsg          -- whole messages not yet acted on, oldest first
  lastTx : Tab (Option PryMsg)  -- the last message that each class has sent whole
  wait   : List (PryMsg × Nat)  -- messages not yet sent whole, in order of arrival, with the frames of each still to go (R433)
  asked  : Nat                  -- frames that have asked for the link
  sol    : Solera               -- the transmit direction's use of the arbiter, a request a frame (R433)
  quiet  : Option (Nat × Nat)   -- a class granted in P-QUIET, and the rounds of the exit still to pass (R471)
  txSeq  : Tab Nat              -- next frame sequence of each class, modulo 32 (R461)
  frame  : List Bool            -- content of the last frame sent, bit 0 first (R461)
  ident  : Nat                  -- ticks of 1.6 ns since the port in training last sent IDENT (R465)
  deriving DecidableEq, Repr

def Port.fresh : Port := ⟨0, false, [], [], [], [], [], 0, Solera.empty, none, [], [], 0⟩

/-- A commit that the mirror has announced to a STANDBY (R475, R477): its serial, boundary code, image, and (slice, own B,
far end's B) of each slice that it touches the line of. -/
structure MirrorCommit where
  serial : Nat
  bd     : Nat
  image  : Tab Nat
  slices : List (Nat × Nat × Nat)
  deriving DecidableEq, Repr

/-- The twin pair, the domain and the windows. -/
structure Pry where
  ports   : Tab Port
  beat    : Bool                 -- a heartbeat of the partner is held (R479, R480)
  beats   : Nat                  -- heartbeats sent, the count of HEARTBEAT w1
  orphan  : Bool                 -- own heartbeats carry the orphan bit (R487)
  relAt   : Option Nat           -- ACTIVE: transmit superframe S of a commanded release (R482)
  relAck  : Bool                 -- the partner has acknowledged it
  takeAt  : Option Nat           -- STANDBY: the S it has acknowledged
  mirSeq  : Nat                  -- next mirror sequence sent
  mirRx   : Option Nat           -- mirror sequence expected (R478)
  mirHave : List Nat             -- item types received of the set
  mirCom  : Option MirrorCommit  -- mirrored commit waiting for its boundary
  mirKeys : List Nat             -- slots that were unwrapped from the mirror (R484)
  peerCnt : Tab Nat              -- peer snapshot of the counters (R475)
  joinKey : Option (BitVec 256)  -- pair key of the join in progress or in force (R371, R474)
  mark    : Nat                  -- PAIR_MARK pulses sent (R483)
  hold    : Nat                  -- ticks of 1.6 ns for which a pulse still holds every client egress at idle (R483)
  syncRx  : Option (BitVec 32 × BitVec 32)  -- last DTX of a TIME frame and its receive instant (R476)
  txn     : Tab (Option (Nat × Bool))  -- id of a window's transaction in progress, and whether it is a write
  nextTxn : Nat
  below   : Tab (Option Nat)     -- DN port below which a worker of a serial identity is
  routes  : Tab (Option Nat)     -- DN port below which a domain number is (R490)
  frac    : Nat                  -- part of a link round of 64 bytes passed, in 1/64
  deriving DecidableEq, Repr

def Pry.fresh : Pry :=
  { ports := [], beat := false, beats := 0, orphan := false, relAt := none, relAck := false, takeAt := none, mirSeq := 0,
    mirRx := none, mirHave := [], mirCom := none, mirKeys := [], peerCnt := [], joinKey := none, mark := 0, hold := 0,
    syncRx := none, txn := [], nextTxn := 0, below := [], routes := [], frac := 0 }

end Sys2Proof.Machine
end

