-- ==== Sys2Proof/Machine/StTime.lean ====
section
/-!
DEFINITION. The state of TIM beside its registers: device time, the qualification of the reference candidates and the
line-spanning transparent clock (chapter 18).
-/

namespace Sys2Proof.Machine

structure Tim where
  now       : BitVec 64    -- device time: 32 bits of nanoseconds over 32 bits of fraction (R452)
  overGates : Tab Nat      -- consecutive 100 ms gates beyond the soft limit (R439)
  selValid  : Bool         -- a candidate is selected
  cmdCand   : Nat          -- candidate of the command in force (R444)
  trim      : Int          -- trim of the increment by the transparent clock, in 2^-32 ns (R456)
  ltcGood   : Nat          -- consecutive results within ±10 ns (R457)
  ltcMiss   : Nat          -- multiframes since the last valid result
  slew      : Nat          -- part of a picosecond slewed, in 1/125 ps (R450)
  trigPulse : Nat          -- length of the last TRIG_OUT pulse in units of 8 ns, 0 before the first (R455)
  deriving DecidableEq, Repr

/-- TIM as it is in DORMANT after a cold start. -/
def Tim.fresh : Tim := ⟨0, [], false, 0, 0, 0, 0, 0, 0⟩

end Sys2Proof.Machine
end

