-- ==== Sys2Proof/Machine/State.lean ====
section
/-!
DEFINITION. The state of the Oceivin, the reasons a step can stop, and the state after a cold start has reached
DORMANT (R10, R54). A field of class V lives in the images of the vintage store, a field of class L, S or K in `regs`;
everything that no register field holds is in the structured parts.
-/

namespace Sys2Proof.Machine

/-- Reasons a step stops with a fault. No rule of the spec stops the block, and no meaning raises this one.
DESIGN CHOICE (log 1). -/
inductive Fault where
  /-- Raised by no meaning: it stands here because the type needs a reason. Safe. -/
  | none
  deriving DecidableEq, Repr

/-- Reasons a step refuses a command. DESIGN CHOICE (log 1). -/
inductive Refusal where
  /-- The command has no meaning in this model yet; raised by arms of exec alone. Safe. -/
  | notModelled (mnemonic : String)
  deriving DecidableEq, Repr

/-- The whole state of the block. -/
structure State where
  pending  : List Instr              -- commands waiting, first in, first out
  regs     : Tab Nat                 -- L-, S- and K-class fields by field key, unlisted fields at their reset value
  counters : Tab Nat                 -- the 48-bit performance counters of R575
  ctl      : Ctl
  exec     : Exec
  seqs     : Tab Seq                 -- SQ0 to SQ15
  queues   : Tab Queue               -- queues 0 to 40
  vtg      : Vintages
  hif      : Hif
  tim      : Tim
  conv     : Tab Conv                -- per slice
  calEng   : Solera                  -- the calibration-engine use (R430)
  capture  : Capture
  rx       : Tab Rx                  -- per slice
  tx       : Tab Tx                  -- per slice
  pool     : Pool
  align    : Tab Align               -- per slice
  tdl      : Tab Tdl             -- per slice
  lfr      : Tab Lfr             -- per slice
  grid     : Grid
  mems     : Tab Mem             -- members, by 8c + slice
  chans    : Tab Chan            -- channels CH0 to CH511
  cip      : Cip
  svcSol   : Solera              -- the message-service use (R429)
  clients  : Tab Client          -- ports and FlexE clients
  gfp      : Tab Gfp             -- per channel
  lanes    : Tab Lane
  calendars : Tab Calendar       -- per FlexE group
  cel      : Cel
  pry      : Pry
  mon      : Mon
  cask     : Tab Nat                 -- bytes of the cask flash; 0xFF where nothing is programmed
  free     : Nat                     -- free values read so far: the model's own field, not the spec's
  deriving DecidableEq, Repr

/-- The control part of the state after a cold start has reached DORMANT.
DESIGN CHOICE (log 4). DESIGN CHOICE (log 5). DESIGN CHOICE (log 6). DESIGN CHOICE (log 14). DESIGN CHOICE (log 34). -/
def Ctl.reset : Ctl :=
  { boot := .done, hostClk := true, heldReq := false, transTo := none, nmi := false, tmode := false, powerDown := true,
    sscNow := (0, 0, 25), drainShort := [], faultsOpen := [], ccExpiries := 0, ccLoop := false, ccByWdog := false,
    ccPending := false, rePrev := false, restarts := 0, recoverWord := none, recoverRun := false, sharedResets := 0,
    sharedLoop := false, sliceFires := [], sliceHold := [], crossings := [], gates := [], otpSerial := 0,
    otpOwner := none, otpRefused := false, otpKcv := 0, caskOp := none, fesRun := [], fesSent := [], fesOut := [] }

/-- The executive's part: an instruction store of unwritten words (R93). -/
def Exec.reset : Exec :=
  { store := [], session := false, loadBuf := [], claims := [], inFlight := [], recvs := [], timerPkts := [],
    sol := Solera.empty }

/-- The vintage store after power-up: CURRENT and STAGED hold RESCUE, PREVIOUS is empty (R54, R126, R145). -/
def Vintages.reset : Vintages :=
  { current := [], staged := [], previous := [], rescue := [], curDomain := false, curValid := true,
    lastSerial := 0, archive := [], archCount := 0, loading := none,
    commit := none, retCause := 0, retLine := false, lofExempt := [], ucb := [], dlm := [],
    probTicks := 0 }

/-- The host interface after reset: the link is up, MSI-X disabled and every vector masked (R172); every function in D0, no
BAR placed and no VF enabled, as PCIe has it. PRESUMED (log 37). -/
def Hif.reset : Hif :=
  { linkUp := true, msixEn := [], msixFMask := [], msixTbl := [], vecPend := [], sent := [], hostMem := [],
    dmaDone := [], popOut := [], cntPage := [], bars := [], d3 := [], devCtl := [], aer := [], vfEnable := false,
    numVfs := 0 }

def Pool.reset : Pool := ⟨0, 0, [], [], [], [], []⟩

/-- The machine right after reset: a cold start has reached DORMANT with boot_done reading 1 (R10, R54). -/
def State.reset : State :=
  { pending := [], regs := [], counters := [], ctl := Ctl.reset, exec := Exec.reset, seqs := [], queues := [],
    vtg := Vintages.reset, hif := Hif.reset, tim := Tim.fresh, conv := [], calEng := Solera.empty,
    capture := Capture.idle, rx := [], tx := [], pool := Pool.reset, align := [], tdl := [], lfr := [], grid := ⟨0, 0⟩, mems := [], chans := [], cip := Cip.fresh, svcSol := Solera.empty, clients := [], gfp := [],
    lanes := [], calendars := [], cel := Cel.fresh,
    pry := Pry.fresh, mon := Mon.fresh, cask := [], free := 0 }

end Sys2Proof.Machine
end

