-- ==== Sys2Proof/Machine/Symbols.lean ====
section
/-!
DEFINITION. The Reed-Solomon codes of the cellar and of the on-chip memories (R407, R408).
-/

namespace Sys2Proof.Machine

/-- Doubling in GF(2^8) with x^8 + x^4 + x^3 + x^2 + 1. -/
def gfDouble (a : Nat) : Nat := if a < 128 then 2 * a else (2 * a) % 256 ^^^ 0x1D

/-- Product in GF(2^8) over the low `n` bits of `b`. -/
def gfMulBits : Nat → Nat → Nat → Nat
  | 0, _, _ => 0
  | n + 1, a, b => (if b % 2 = 1 then a else 0) ^^^ gfMulBits n (gfDouble a) (b / 2)

def gfMul (a b : Nat) : Nat := gfMulBits 8 a b

/-- α^n. -/
def gfPow : Nat → Nat
  | 0 => 1
  | n + 1 => gfDouble (gfPow n)

/-- The generator of r check symbols, coefficients from x^(r-1) down to x^0: (x - α^0) ... (x - α^(r-1)). -/
def rsGenerator : Nat → List Nat
  | 0 => []
  | r + 1 =>
    let g := 1 :: rsGenerator r
    let scaled := 0 :: g.map fun c => gfMul (gfPow r) c
    (List.zipWith (· ^^^ ·) (g ++ [0]) scaled).tail

/-- The check symbols of data symbols, highest degree first. -/
def rsCheck (r : Nat) (data : List Nat) : List Nat :=
  let g := rsGenerator r
  data.foldl (fun (reg : List Nat) d =>
    let f := d ^^^ reg.headD 0
    List.zipWith (· ^^^ ·) (reg.tail ++ [0]) (g.map fun c => gfMul f c)) (List.replicate r 0)

/-- Syndrome i of a stored word: its value at α^i. -/
def rsSyndrome (i : Nat) (w : List Nat) : Nat := w.foldl (fun v c => gfMul v (gfPow i) ^^^ c) 0

/-- What the decoder makes of a stored word of `n` symbols with r check symbols. -/
inductive RsResult where
  | clean
  | corrected (sym : Nat) (word : List Nat)   -- the symbol corrected, counted from the highest degree
  | poisoned
  deriving DecidableEq, Repr

/-- The decoder corrects any one symbol and detects the rest that it can (R407, R408). -/
def rsDecode (r : Nat) (w : List Nat) : RsResult :=
  let s := (List.range r).map fun i => rsSyndrome i w
  if s.all (· = 0) then .clean
  else
    let e := s.headD 0
    match (List.range w.length).find? fun k =>
        decide (e ≠ 0) && (List.range r).all fun i =>
          decide (s.getD i 0 = gfMul e (gfPow (i * (w.length - 1 - k) % 255))) with
    | some k => .corrected k (w.set k (w.getD k 0 ^^^ e))
    | none => .poisoned

end Sys2Proof.Machine
end

