-- ==== Sys2Proof/Machine/Ops.lean ====
section
/-!
DEFINITION. The named operations over registers, counters, events, pins, queues, the journal and the sequencers that
every meaning is built from.
-/

namespace Sys2Proof.Machine

/-- The outcome of a meaning. -/
abbrev Out := Host.Outcome State Fault Refusal

/-! ### Register fields -/

/-- The width of a field in bits. -/
def fldWidth (f : Fld) : Nat := f.hi - f.lo + 1

/-- The address offset of the instance that the indices name (R11, R573). -/
def idxOffset : List (Nat × Nat × Nat) → List Nat → Nat
  | (_, _, st) :: ds, i :: is => st * i + idxOffset ds is
  | _, _ => 0

/-- The fabric word address of the register instance that holds the field. -/
def fldAddr (f : Fld) (is : List Nat) : Nat := f.addr + idxOffset f.dims is

/-- The key of a field instance: its word address and its lowest bit. -/
def fldKey (f : Fld) (is : List Nat) : Nat := fldAddr f is * 32 + f.lo

/-- The value of a V-class field in an image. -/
def imgGet (m : Tab Nat) (f : Fld) (is : List Nat := []) : Nat := tabGet (f.reset is) m (fldKey f is)

/-- An image with one V-class field changed. -/
def imgPut (m : Tab Nat) (f : Fld) (v : Nat) (is : List Nat := []) : Tab Nat :=
  tabPut (f.reset is) m (fldKey f is) (v % 2 ^ fldWidth f)

/-- The value that a field of class L, S or K holds. -/
def State.rd (s : State) (f : Fld) (is : List Nat := []) : Nat := tabGet (f.reset is) s.regs (fldKey f is)

/-- The state with a field of class L, S or K holding `v`, reduced to the field's width. -/
def State.wr (s : State) (f : Fld) (v : Nat) (is : List Nat := []) : State :=
  { s with regs := tabPut (f.reset is) s.regs (fldKey f is) (v % 2 ^ fldWidth f) }

/-- A V-class field in force: its value in CURRENT (R133). -/
def State.cur (s : State) (f : Fld) (is : List Nat := []) : Nat := imgGet s.vtg.current f is

/-- A one-bit field as a truth value. -/
def State.bit (s : State) (f : Fld) (is : List Nat := []) : Bool := decide (s.rd f is ≠ 0)

/-- A one-bit V-class field in force as a truth value. -/
def State.curBit (s : State) (f : Fld) (is : List Nat := []) : Bool := decide (s.cur f is ≠ 0)

/-- The image of the pending commit; STAGED where none is pending. -/
def State.pendImg (s : State) : Tab Nat :=
  match s.vtg.commit with
  | some c => c.image
  | none => s.vtg.staged

/-- A line-touching receive setting of slice i in force in the receive direction (R133, R299). -/
def State.rxv (s : State) (f : Fld) (i : Nat) : Nat :=
  match (tabGet Rx.fresh s.rx i).img with
  | .current => s.cur f [i]
  | .staged => imgGet s.pendImg f [i]
  | .previous => imgGet s.vtg.previous f [i]

/-- A setting of slice i in force in RXD and in the blocks that it forms (R231, R274). -/
def State.rxdv (s : State) (f : Fld) (i : Nat) : Nat :=
  match (tabGet Rx.fresh s.rx i).rxd with
  | .current => s.cur f [i]
  | .staged => imgGet s.pendImg f [i]
  | .previous => imgGet s.vtg.previous f [i]

/-- A truth value as a bit. -/
def b2n : Bool → Nat
  | true => 1
  | false => 0

/-- Adds `n` to a field that saturates at `max`. -/
def State.addSat (s : State) (f : Fld) (n max : Nat) (is : List Nat := []) : State :=
  s.wr f (min max (s.rd f is + n)) is

/-- Adds `n` to performance counter `i` of R575, 48 bits wide. -/
def State.count (s : State) (i n : Nat) : State :=
  { s with counters := tabPut 0 s.counters i ((tabGet 0 s.counters i + n) % 2 ^ 48) }

/-- Applies `f` to the state for each member of a list, in order. -/
def forEach {α : Type} (f : α → State → State) : List α → State → State
  | [], s => s
  | a :: as, s => forEach f as (f a s)

/-- `a` at bits [hi:lo] of a number. -/
def bitsOf (w hi lo : Nat) : Nat := (w / 2 ^ lo) % 2 ^ (hi - lo + 1)

/-- A number read as two's complement of `n` bits. -/
def toSigned (n v : Nat) : Int := if v % 2 ^ n < 2 ^ (n - 1) then (v % 2 ^ n : Nat) else (v % 2 ^ n : Nat) - (2 ^ n : Nat)

/-- The two's complement of `n` bits of an integer. -/
def ofSigned (n : Nat) (i : Int) : Nat := (i % ((2 ^ n : Nat) : Int)).toNat

/-- An integer held between two limits. -/
def clampInt (lo hi i : Int) : Int := if i < lo then lo else if hi < i then hi else i

/-! ### Per-slice and per-sequencer records -/

def State.seq (s : State) (q : Nat) : Seq := tabGet Seq.idle s.seqs q
def State.setSeq (s : State) (q : Nat) (x : Seq) : State := { s with seqs := tabPut Seq.idle s.seqs q x }
def State.queue (s : State) (q : Nat) : Queue := tabGet Queue.empty s.queues q
def State.setQueue (s : State) (q : Nat) (x : Queue) : State := { s with queues := tabPut Queue.empty s.queues q x }
def State.conv1 (s : State) (i : Nat) : Conv := tabGet Conv.fresh s.conv i
def State.setConv (s : State) (i : Nat) (x : Conv) : State := { s with conv := tabPut Conv.fresh s.conv i x }
def State.rx1 (s : State) (i : Nat) : Rx := tabGet Rx.fresh s.rx i
def State.setRx (s : State) (i : Nat) (x : Rx) : State := { s with rx := tabPut Rx.fresh s.rx i x }
def State.tx1 (s : State) (i : Nat) : Tx := tabGet Tx.fresh s.tx i
def State.setTx (s : State) (i : Nat) (x : Tx) : State := { s with tx := tabPut Tx.fresh s.tx i x }
def State.align1 (s : State) (i : Nat) : Align := tabGet Align.fresh s.align i
def State.setAlign (s : State) (i : Nat) (x : Align) : State := { s with align := tabPut Align.fresh s.align i x }
def State.tdl1 (s : State) (i : Nat) : Tdl := tabGet Tdl.fresh s.tdl i
def State.setTdl (s : State) (i : Nat) (x : Tdl) : State := { s with tdl := tabPut Tdl.fresh s.tdl i x }
def State.lfr1 (s : State) (i : Nat) : Lfr := tabGet Lfr.fresh s.lfr i
def State.setLfr (s : State) (i : Nat) (x : Lfr) : State := { s with lfr := tabPut Lfr.fresh s.lfr i x }
def State.claim (s : State) (n : Nat) : Claim := tabGet Claim.free s.exec.claims n
def State.setClaim (s : State) (n : Nat) (x : Claim) : State :=
  { s with exec := { s.exec with claims := tabPut Claim.free s.exec.claims n x } }

/-- Working register Wr of a sequencer. -/
def Seq.reg (x : Seq) (r : Nat) : Word := tabGet 0 x.w r
/-- The sequencer with Wr holding `v`. -/
def Seq.setReg (x : Seq) (r : Nat) (v : Word) : Seq := { x with w := tabPut 0 x.w r v }
/-- Scratch word `a`. -/
def Seq.mem (x : Seq) (a : Nat) : Word := tabGet 0 x.scratch a
/-- The sequencer with scratch word `a` holding `v`. -/
def Seq.setMem (x : Seq) (a : Nat) (v : Word) : Seq := { x with scratch := tabPut 0 x.scratch a v }

/-- An event of a sequencer's event set. -/
def Seq.ev (x : Seq) (e : Nat) : EvSlot := tabGet ⟨false, false, 0⟩ x.events e
def Seq.setEv (x : Seq) (e : Nat) (v : EvSlot) : Seq := { x with events := tabPut ⟨false, false, 0⟩ x.events e v }

/-- A sequencer that is running a program: running or blocked (R111). -/
def Seq.live (x : Seq) : Bool :=
  match x.state with
  | .running | .blocked => true
  | .idle | .inReset => false

/-! ### Modes -/

def modeDormant : Nat := 0
def modePrepare : Nat := 1
def modeService : Nat := 2
def modeShadow : Nat := 3
def modeProving : Nat := 4
def modeRecovery : Nat := 5

/-- The mode in force (R30). -/
def State.mode (s : State) : Nat := s.rd F.GLB_MODE_mode

/-- Slice states of GLB_SLICE_STAT.state. -/
def slDark : Nat := 0
def slWaking : Nat := 1
def slLit : Nat := 2
def slDraining : Nat := 3

def State.sliceState (s : State) (i : Nat) : Nat := s.rd F.GLB_SLICE_STAT_state [i]
def State.lit (s : State) (i : Nat) : Bool := decide (s.sliceState i = slLit)

/-- The slice is disabled by fuse (R2). -/
def State.fused (s : State) (i : Nat) : Bool := decide (s.rd F.GLB_IDENT_slice_mask / 2 ^ i % 2 = 0)

/-- The device is a STANDBY twin in SHADOW. -/
def State.standby (s : State) : Bool := decide (s.mode = modeShadow)

/-- The probation clock runs: PROBATION outside RECOVERY (R139). -/
def State.probing (s : State) : Bool := decide (s.rd F.VTG_STAT_state = 6 ∧ s.mode ≠ modeRecovery)

/-- The line slices LS0 to LS7. -/
def slices8 : List Nat := [0, 1, 2, 3, 4, 5, 6, 7]

/-- The program sequencers SQ1 to SQ15. -/
def programSqs : List Nat := [1, 2, 3, 4, 5, 6, 7, 8, 9, 10, 11, 12, 13, 14, 15]

/-! ### Device time (R452) -/

/-- Device time: the 32-bit nanosecond count. -/
def State.time (s : State) : BitVec 32 := s.tim.now.extractLsb' 32 32

/-! ### Events (R111, R171, R172, R542) -/

/-- The PCIe link answers requests and sends: it is up and HSC has its clock (R46, R47). -/
def State.linkAnswers (s : State) : Bool := s.hif.linkUp && s.ctl.hostClk

/-- One vector can be signalled at once: link up, MSI-X enabled, neither the function nor the vector masked (R172). -/
def State.canSignal (s : State) (f v : Nat) : Bool :=
  s.linkAnswers && tabGet false s.hif.msixEn f && !tabGet false s.hif.msixFMask f
    && !(tabGet 1 s.hif.msixTbl ((f * 512 + v) * 4 + 3)).getLsbD 0

/-- Signals vector v of function f: one message, or the pending bit (R171, R172). -/
def State.signalVec (s : State) (f v : Nat) : State :=
  let k := f * 512 + v
  if s.canSignal f v && !tabGet false s.hif.vecPend k then
    { s with hif := { s.hif with sent := tabPut 0 s.hif.sent k (tabGet 0 s.hif.sent k + 1) } }
  else { s with hif := { s.hif with vecPend := tabPut false s.hif.vecPend k true } }

/-- A pending vector that can be signalled sends its one message (R172). -/
def State.sendPending (s : State) (f v : Nat) : State :=
  let k := f * 512 + v
  if tabGet false s.hif.vecPend k && s.canSignal f v then
    { s with hif := { s.hif with vecPend := tabPut false s.hif.vecPend k false,
                                 sent := tabPut 0 s.hif.sent k (tabGet 0 s.hif.sent k + 1) } }
  else s

/-- Every function sends what is pending and can be signalled (R172). -/
def State.sendAllPending (s : State) : State :=
  forEach (fun k t => t.sendPending (k / 512) (k % 512)) (s.hif.vecPend.map Prod.fst) s

/-- The last vector of a function's table: 271 for the PF, 15 for a VF (R170). -/
def lastVec (f : Nat) : Nat := if f = 0 then 271 else 15

/-- Delivery of event e to the host through HIF_EVT_MAP (R171). -/
def State.signalEvent (s : State) (e : Nat) : State :=
  if s.bit F.HIF_EVT_MAP_en [e] then
    let f := if e < 128 then 0 else s.rd F.HIF_EVT_MAP_func [e]
    let v := s.rd F.HIF_EVT_MAP_vec [e]
    if v ≤ lastVec f then s.signalVec f v else s
  else s

/-- Delivery of event e to one sequencer's event set (R111). -/
def Seq.deliver (x : Seq) (e : Nat) (data : Word) : Seq :=
  if x.live then x.setEv e ⟨true, (x.ev e).pend || (x.ev e).merged, data⟩ else x

/-- Delivery of event e to every sequencer that is running a program (R111). -/
def State.deliverSeqs (s : State) (e : Nat) (data : Word) : State :=
  forEach (fun q t => t.setSeq q ((t.seq q).deliver e data)) programSqs s

/-! ### Sending on the Poryon link (R461 to R464, R489) -/

def State.port (s : State) (p : Nat) : Port := tabGet Port.fresh s.pry.ports p
def State.setPort (s : State) (p : Nat) (x : Port) : State :=
  { s with pry := { s.pry with ports := tabPut Port.fresh s.pry.ports p x } }

/-- Position of counter j of port p (R575): FTX, FRX, CRC, MDROP, TDROP. -/
def pryCnt (p j : Nat) : Nat := 528 + 8 * p + j

/-- The port is LINKED. -/
def State.linked (s : State) (p : Nat) : Bool := decide (s.rd F.PRY_PORT_STAT_state [p] = 2)

/-- A port that is disabled goes down into P-DEEP; an enabled one is left to its attempts (R465, R471). -/
def State.portOff (s : State) (p : Nat) : State :=
  ((s.setPort p { Port.fresh with lastTx := (s.port p).lastTx, frame := (s.port p).frame }).wr F.PRY_PORT_STAT_state 0 [p]).wr F.PRY_PORT_STAT_pwr 2 [p]

/-- The device takes its host clock from the UP port: the strap NOPCIE with the role worker (R470, R547). -/
def State.upClocked (s : State) : Bool := decide (s.rd F.GLB_STRAP_nopcie = 1 ∧ s.rd F.GLB_STRAP_role = 1)

/-- The entry tier of a Poryon class: the table "Poryon classes" (R433). -/
def pryEntry (cls : Nat) : Nat := [0, 1, 2, 1, 0].getD cls 0

/-- The frames of a message, 18 words to a frame (R463). -/
def pryFrames (m : PryMsg) : Nat := max 1 ((m.words.length + 17) / 18)

/-- The frames of a message ask for the link, each a request of its class, with the age step of 256 rounds (R433). -/
def Port.ask (x : Port) (m : PryMsg) : Port :=
  let n := pryFrames m
  { x with
    wait := x.wait ++ [(m, n)], asked := x.asked + n,
    sol := { x.sol with reqs := x.sol.reqs ++ (List.range n).map fun k => ⟨m.cls, x.asked + k, pryEntry m.cls, 0, 256⟩ } }

/-- A message for the far end of port p: on a LINKED port its frames wait for the link, which the arbiter grants them (R433,
R463). -/
def State.pryTx (s : State) (p : Nat) (m : PryMsg) : State :=
  if s.linked p then s.setPort p ((s.port p).ask m) else s

/-- A worker forwards a device event up its tree (R489). -/
def State.forwardEvent (s : State) (e data : Nat) : State :=
  if e < 128 ∧ s.cur F.PRY_DOM_CFG_role = 1 ∧ s.bit F.HIF_EVT_MAP_en [e] = true then
    if s.linked 1 then
      s.pryTx 1 ⟨4, 0, 0, s.rd F.PRY_DOM_STAT_dom, [e, data % 2 ^ 24, s.time.toNat % 2 ^ 24]⟩
    else s.count (pryCnt 1 4) 1
  else s

/-! ### Values that the spec does not state -/

/-- The next free value, 24 bits wide. DESIGN CHOICE (log 2). -/
def State.takeWord (s : State) : Nat × State := ((Config.freeWord s.free).toNat, { s with free := s.free + 1 })

/-- num/den as an integer: exact where it divides, else one of the two neighbours, a free choice where no rule states
the rounding. DESIGN CHOICE (log 2). -/
def State.roundFree (s : State) (num : Int) (den : Nat) : Int × State :=
  let q := num / (max 1 den : Nat)
  if num % (max 1 den : Nat) = 0 then (q, s)
  else (if Config.freeBool s.free then q + 1 else q, { s with free := s.free + 1 })

/-! ### Injection slots (R502, R506) -/

def State.inj (s : State) (q : Nat) : Inj := tabGet Inj.fresh s.mon.inj q
def State.setInj (s : State) (q : Nat) (x : Inj) : State :=
  { s with mon := { s.mon with inj := tabPut Inj.fresh s.mon.inj q x } }

/-- The converter of an injection slot's input (R494). -/
def State.injConv (s : State) (q : Nat) : Nat := s.rd F.MON_INJ_CFG_min [q] / 8

/-- A slot is triggered: one that still waits or converts counts a merged trigger; one whose converter is under
foreground calibration is held (R502, R506). DEDUCED (log 29). -/
def State.injTrigger (s : State) (q : Nat) : State :=
  let x := s.inj q
  match x.trig with
  | some _ => s.addSat F.MON_INJ_STAT_merged 1 255 [q]
  | none =>
    let held := decide (s.mon.fg / 2 ^ s.injConv q % 2 = 1)
    (s.setInj q { Inj.fresh with trig := some s.time, held := held }).wr F.MON_INJ_STAT_status 0 [q]

/-- The slots that wait for device event e are triggered by its first occurrence. -/
def State.injEvent (s : State) (e : Nat) : State :=
  forEach (fun q t =>
    if (t.inj q).armed && decide (t.rd F.MON_INJ_CFG_trig [q] = 2 ∧ t.rd F.MON_INJ_CMD_event [q] = e) then
      (t.setInj q { t.inj q with armed := false }).injTrigger q
    else t) (List.range 16) s

/-! ### The trigger of a line capture (R201 to R203) -/

/-- Symbol rates in GBd by code, R16. -/
def baudOf (c : Nat) : Nat := [60, 90, 120, 150, 180, 200, 220, 240].getD c 240

/-- Instants sampled in an interval of device time, in 2^-32 ns, at 1.25 samples a symbol (R176). -/
def instantsIn (baud : Nat) (d : BitVec 64) : Nat := d.toNat * (5 * baudOf baud) / 4 / 2 ^ 32

/-- Instants before the trigger that the buffer leaves room for (R201). -/
def State.preWanted (s : State) : Nat := 2097152 - min 2097152 (512 * s.capture.post)

/-- The trigger of the segment: filling begins with the instants that have arrived since arming, or as many as there is
room for; the first segment records its instant; a HAND BACK among the instants kept sets hb (R201, R203).
DEDUCED (log 16). -/
def State.fireCapture (s : State) (i : Nat) : State :=
  let baud := s.cur F.RXD_MODE_CFG_baud [i]
  let want := s.preWanted
  let have' := instantsIn baud (s.tim.now - s.capture.armedAt)
  let s := s.wr F.CNV_CAP_STAT_state 2 [i]
  let s := if have' < want then s.wr F.CNV_CAP_STAT_pre_short 1 [i] else s
  let inside := match s.capture.handBack with
    | some t => decide (instantsIn baud (s.tim.now - t) < min want have')
    | none => false
  let s := if inside then s.wr F.CNV_CAP_STAT_hb 1 [i] else s
  if s.rd F.CNV_CAP_STAT_done [i] = 0 then
    ((s.wr F.CNV_CAP_TIME_H_value (s.time.toNat / 2 ^ 24) [i]).wr F.CNV_CAP_TIME_L_value (s.time.toNat % 2 ^ 24) [i]).wr
      F.CNV_CAP_SF_value (s.rd F.LFR_TX_SFC_count [i]) [i]
  else s

/-- A K bit of slice i is set; the device sets none while the slice is DARK (R53). -/
def State.stick (s : State) (f : Fld) (i : Nat) : State := if s.sliceState i = slDark then s else s.wr f 1 [i]

/-- An instant of the trigger kind (1 a timer's firing, 2 a device event) with number n: the armed capture that waits for it
is triggered; while a segment fills or drains it is missed. The go has latched what it waits for (R201, R202). DEDUCED (log 16). -/
def State.captureTrigger (s : State) (kind n : Nat) : State :=
  match s.capture.slice with
  | none => s
  | some i =>
    let want := if kind = 1 then s.capture.timer else s.capture.event
    if s.capture.trig = kind ∧ want = n then
      if s.rd F.CNV_CAP_STAT_state [i] = 1 then s.fireCapture i else s.stick F.CNV_CAP_STAT_missed i
    else s

/-! ### Requests for the cellar (R410, R428) -/

/-- The request that class k of the cellar makes, at its entry tier and age step; the classes with a guarantee are ranked by
their credit. -/
def State.celReq (s : State) (k : Nat) : Req :=
  if 3 ≤ k then ⟨k, 0, s.rd F.CEL_SOL_CFG_entry [k], 0, 16 * max 1 (s.rd F.CEL_SOL_CFG_age [k])⟩ else ⟨k, 0, 0, 0, 1⟩

/-- Class k has `n` more grants of 128 bytes to be given: its request stands while any is left. A class issues its next
access once the one before has been granted. DEDUCED (log 25). -/
def State.celAsk (s : State) (k n : Nat) : State :=
  if n = 0 then s
  else
    let c := s.cel
    let reqs := if c.sol.reqs.any (fun r => decide (r.cls = k)) then c.sol.reqs else c.sol.reqs ++ [s.celReq k]
    { s with cel := { c with work := tabPut 0 c.work k (tabGet 0 c.work k + n), sol := { c.sol with reqs := reqs } } }

/-- Class k has been given all that it asked for, or asks no more. -/
def State.celDrop (s : State) (k : Nat) : State :=
  let c := s.cel
  { s with cel := { c with work := tabPut 0 c.work k 0,
                           sol := { c.sol with reqs := c.sol.reqs.filter fun r => decide (r.cls ≠ k) } } }

/-- Grants of a check group of 1,088 bytes each, for whole groups written or read (R402, R410). -/
def groupGrants (groups : Nat) : Nat := (groups * 1088 + 127) / 128

/-- Grants of a write of one block or of a part of one (R410): 192 or 256 bytes where the line is valid, else 576 and up to
64 read. -/
def writeGrants (valid : Bool) : Nat := if valid then 2 else 5

/-! ### Pre-emphasis sums (R182, R247) -/

/-- The coefficient of tap k that the FIR of DAC d uses, and whether the sum was clamped (R182, R247). -/
def peSum (coef trim : Int) : Int × Bool :=
  let t := coef + trim
  (clampInt (-8192) 8191 t, decide (t < -8192 ∨ 8191 < t))

/-- Some tap of slice i whose coefficient and trim in force sum beyond the range sets pe_clamp (R247). -/
def State.peCheck (s : State) (i : Nat) : State :=
  if [0, 1, 2, 3].any fun d => (List.range 33).any fun k =>
      (peSum (toSigned 14 (s.cur F.TXD_PE_COEF_coef [i, d, k])) (toSigned 12 (s.rd F.CNV_DAC_TAP_trim [i, d, k]))).2
  then s.wr F.TXD_STAT_pe_clamp 1 [i] else s

/-- One occurrence of event e (R542): the pending bit of a device event, the sequencers, the host and the manager, the
injection slots and the capture that wait for it (R201, R502). -/
def State.raise (s : State) (e : Nat) (data : Nat) : State :=
  let s := if e < 128 then
      s.wr F.GLB_EVT_PEND_bits (s.rd F.GLB_EVT_PEND_bits [e / 24] ||| 2 ^ (e % 24)) [e / 24] else s
  ((((s.deliverSeqs e (BitVec.ofNat 24 data)).signalEvent e).forwardEvent e data).injEvent e).captureTrigger 2 e

/-- FAULT_N is asserted while a pending bit of an F-class event has its enable bit set (R542). The bits of
GLB_FAULT_EN's reset value are exactly the F-class events. -/
def State.faultAsserted (s : State) : Bool :=
  [0, 1, 2, 3, 4, 5].any fun j => decide (s.rd F.GLB_EVT_PEND_bits [j] &&& s.rd F.GLB_FAULT_EN_bits [j]
    &&& faultEnReset [j] ≠ 0)

/-! ### On-chip memory rows (R408, R409, R413, R417) -/

/-- The key of a row of a memory class. -/
def rowKey (cls row : Nat) : Nat := cls * 2 ^ 24 + row

/-- The symbols of a row that an injection inverts, as what is added to the codeword; the same symbol twice is not inverted. -/
def Inject.pattern (i : Inject) : List Nat :=
  (List.range 27).map fun k => (if k = i.sym0 then 255 else 0) ^^^ (if i.two ∧ k = i.sym1 then 255 else 0)

/-- A row of a memory class is stored, with what an armed injection of the class inverts of it (R409, R417). -/
def State.putRow (s : State) (cls row : Nat) : State :=
  let hit := s.cel.inj.any fun i => decide (i.cls = cls)
  { s with cel := { s.cel with
      rows := tabPut false s.cel.rows (rowKey cls row) true,
      bad := tabPut [] s.cel.bad (rowKey cls row) (if hit then (s.cel.inj.map Inject.pattern).getD [] else []),
      inj := if hit then none else s.cel.inj } }

/-- The symbols of two errors of a row together. -/
def addErrs (a b : List Nat) : List Nat := (List.range (max a.length b.length)).map fun k => a.getD k 0 ^^^ b.getD k 0

/-- What the decoder of R408 makes of a row: the code is linear, so what has been added to the codeword decides, in the stored
row and by failed cells (R411). DEDUCED (log 24). -/
def State.rowResult (s : State) (cls row : Nat) : RsResult :=
  rsDecode 3 (addErrs (tabGet [] s.cel.bad (rowKey cls row)) (tabGet [] s.cel.hard (rowKey cls row)))

/-- A write to a row of a memory class, of all of it or of a part: whether it takes place, and the state after it. A write to part
of a poisoned row is discarded, one to part of a row with a correctable error corrects it (R411, R413). DEDUCED (log 24). -/
def State.memWrite (s : State) (cls row : Nat) (whole : Bool) : Bool × State :=
  if whole then (true, s.putRow cls row)
  else
    match s.rowResult cls row with
    | .clean => (true, s.putRow cls row)
    | .corrected _ _ => (true, (s.count (664 + cls) 1).putRow cls row)
    | .poisoned => (false, s.count (680 + cls) 1)

/-- A read of a row of a memory class: whether it is poisoned, and the state after it (R409, R411, R413). DEDUCED (log 24). -/
def State.memRead (s : State) (cls row : Nat) : Bool × State :=
  let k := rowKey cls row
  if tabGet false s.cel.rows k = false then (false, s.count (696 + cls) 1)
  else
    match s.rowResult cls row with
    | .clean => (false, s)
    | .corrected _ _ => (false, ({ s with cel := { s.cel with bad := tabPut [] s.cel.bad k [] } }).count (664 + cls) 1)
    | .poisoned => (true, (s.count (680 + cls) 1).raise 0x32 cls)

/-- The row of a word of an image in the vintage store, eight words a row: image 0 CURRENT, 1 STAGED, 2 PREVIOUS, 3 RESCUE.
DEDUCED (log 24). -/
def vintRow (img a : Nat) : Nat := img * 2 ^ 21 + a / 8

/-- The image of the vintage store that a row key lies in, none for a row of another class. -/
def vintImage (k : Nat) : Option Nat := if k / 2 ^ 24 = 6 then some (k % 2 ^ 24 / 2 ^ 21) else none

/-- Images of the vintage store are written whole, each (image, the one it is a copy of; 4 for one that comes from outside the store):
a copy has the rows of its source, and an armed injection of the class meets the first of the images (R408, R417). DEDUCED (log 24). -/
def State.vintSet (s : State) (ds : List (Nat × Nat)) : State :=
  let new : Tab (List Nat) := ds.flatMap fun d =>
    (s.cel.bad.filter fun e => decide (vintImage e.1 = some d.2)).map fun e => (e.1 % 2 ^ 21 + rowKey 6 (d.1 * 2 ^ 21), e.2)
  let kept : Tab (List Nat) := s.cel.bad.filter fun e => decide (∀ d ∈ ds, vintImage e.1 ≠ some d.1)
  let s := { s with cel := { s.cel with
    bad := new.foldl (fun b (e : Nat × List Nat) => tabPut [] b e.1 e.2) kept,
    rows := new.foldl (fun r (e : Nat × List Nat) => tabPut false r e.1 true) s.cel.rows } }
  if s.cel.inj.any (fun (i : Inject) => decide (i.cls = 6)) then s.putRow 6 (vintRow ((ds.map Prod.fst).headD 0) 0) else s

/-- An image of the vintage store is read, the rows that have an error or a failed cell alone to any effect: whether a row of it is
poisoned, and the state after it (R411, R413). -/
def State.vintRead (s : State) (img : Nat) : Bool × State :=
  let worn := s.cel.hard.filter fun e => decide (vintImage e.1 = some img)
  let bad := s.cel.bad.filter fun e => decide (vintImage e.1 = some img ∧ ∀ w ∈ worn, w.1 ≠ e.1)
  let s := { s with cel := { s.cel with rows := worn.foldl (fun r e => tabPut false r e.1 true) s.cel.rows } }
  (bad ++ worn).foldl (fun r e => let q := r.2.memRead 6 (e.1 % 2 ^ 24); (r.1 || q.1, q.2)) (false, s)

/-- The row of a word of local scratch: eight words of 24 bits a row. DEDUCED (log 24). -/
def scratchRow (q a : Nat) : Nat := q * 2048 + a / 8

/-- The row of the in-flight entry of sequencer q, in always-on memory behind the journal ring. DEDUCED (log 24). -/
def inFlightRow (q : Nat) : Nat := 2 ^ 20 + q

/-- The memory class of a queue's words: the journal ring is always-on memory. -/
def queueClass (q : Nat) : Nat := if q = 32 then 7 else 8

/-! ### Queues (R161 to R169) -/

/-- The depth of queue q, R161. -/
def queueDepth (q : Nat) : Nat :=
  if q < 16 then 4096 else if q < 32 then 1024 else if q = 32 then 16384 else if q = 33 then 8192
  else if q = 34 then 16384 else 4096

/-- Words held (R166). -/
def Queue.held (x : Queue) : Nat := (x.pkts.map fun p => p.words.length).sum

/-- Places reserved for the words of admitted packets that have not arrived, those of a packet that is being discarded
included (R164). -/
def Queue.reserved (x : Queue) : Nat := (x.pkts.map fun p => p.len - p.arrived).sum + x.discard

/-- Free places (R164). -/
def queueFree (q : Nat) (x : Queue) : Nat := queueDepth q - x.held - x.reserved

/-- A length field in which 0 means 4,096 words (R66, R163). -/
def lenField (w : Word) : Nat := if w.toNat % 4096 = 0 then 4096 else w.toNat % 4096

/-- The length of a packet from its first word (R163); `given` is the length that a Poryon receiver records. -/
def packetLen (q : Nat) (w : Word) (given : Nat) : Nat :=
  if q = 32 then 4 else if 35 ≤ q then given else lenField w

/-- A queue raises notices in PREPARE, PROVING and RECOVERY (R166). -/
def State.noticing (s : State) : Bool :=
  decide (s.mode = modePrepare ∨ s.mode = modeProving ∨ s.mode = modeRecovery)

/-- The DMA engine that serves queue q, if any. -/
def dmaOf (q : Nat) : Option Nat := if 16 ≤ q ∧ q ≤ 33 then some (q - 16) else none

/-- DMA drains queue q into its host ring. -/
def State.dmaOn (s : State) (q : Nat) : Bool :=
  match dmaOf q with
  | some d => s.bit F.HIF_DMA_CFG_en [d]
  | none => false

/-- Where the notice of queue q goes: the table "Queues" of R161. -/
def State.sendNotice (s : State) (q : Nat) : State :=
  if q < 16 then s.raise (0x60 + q) q
  else if q < 32 then s.signalVec (q - 16) 0
  else if q = 32 then s.signalVec 0 4
  else if q = 33 then s.signalVec 0 5
  else if q = 34 then s
  else s.raise (0x70 + (q - 35)) q

/-- The notice of the packet that landed last waits for its DMA write; where en is cleared or an error stops the engine
first, that notice is not sent, which no rule states. DESIGN CHOICE (log 41). -/
def State.markNotice (s : State) (q : Nat) : State :=
  let x := s.queue q
  match x.pkts.reverse with
  | p :: ps => s.setQueue q { x with pkts := ps.reverse ++ [{ p with note := true }] }
  | [] => s

/-- The last word of a packet has landed (R166). With DMA on, the notice follows the DMA write (R174). -/
def State.notice (s : State) (q : Nat) : State :=
  if s.noticing then
    let s := s.wr F.HIF_Q_STAT_notice 1 [q]
    if s.dmaOn q then s.markNotice q else s.sendNotice q
  else s

/-- The function that a watermark of queue q is signalled to, with its vector (R170). -/
def wmVector (q : Nat) : Option (Nat × Nat) :=
  if q < 16 then some (q, 2) else if q < 32 then some (q - 16, 1) else none

/-- The peak and the watermark at the end of a cycle (R167, R168). The vectors 1 and 2 are signalled where wm_hit goes from 0 to
1, also where it was cleared with the count still at the mark; the manual names no edge. DESIGN CHOICE (log 41). -/
def State.queueMarks (s : State) (q : Nat) : State :=
  let n := (s.queue q).held
  let s := if s.rd F.HIF_Q_PEAK_peak [q] < n then s.wr F.HIF_Q_PEAK_peak n [q] else s
  let wm := s.rd F.HIF_Q_CFG_wm [q]
  if wm ≠ 0 ∧ 16 * wm ≤ n then
    let was := s.bit F.HIF_Q_STAT_wm_hit [q]
    let s := s.wr F.HIF_Q_STAT_wm_hit 1 [q]
    match wmVector q with
    | some (f, v) => if was then s else s.signalVec f v
    | none => s
  else s

/-- Refused words and packets (R164); both fields saturate at 4,095. -/
def State.refuseWords (s : State) (q pkts words : Nat) : State :=
  (s.addSat F.HIF_Q_OVF_pkts pkts 4095 [q]).addSat F.HIF_Q_OVF_words words 4095 [q]

/-- The packet whose words are still arriving, if any, with the packets before it. -/
def Queue.openPkt (x : Queue) : Option (List QPkt × QPkt) :=
  match x.pkts.reverse with
  | p :: ps => if p.arrived < p.len then some (ps.reverse, p) else none
  | [] => none

/-- The row of the word number `n` of queue q. -/
def queueRow (q n : Nat) : Nat := q * 4096 + n % queueDepth q / 8

/-- A word lands in the memory of queue q: a row of eight words is written anew with its first, and a word in a poisoned row is
discarded there (R413). DEDUCED (log 24). -/
def State.land (s : State) (q : Nat) (x : Queue) (ps : List QPkt) : State :=
  let s := (s.memWrite (queueClass q) (queueRow q x.written) (decide (x.written % 8 = 0))).2
  s.setQueue q { x with pkts := ps, written := x.written + 1 }

/-- One word arrives at a queue (R164): of a refused packet, of a packet being discarded, of an admitted packet, or
the first word of a new packet of `given` words where its first word does not say. -/
def State.arrive (s : State) (q : Nat) (w : Word) (given : Nat) : State :=
  let x := s.queue q
  if x.discard ≠ 0 then s.setQueue q { x with discard := x.discard - 1 }
  else if x.refuse ≠ 0 then (s.setQueue q { x with refuse := x.refuse - 1 }).refuseWords q 0 1
  else
    match x.openPkt with
    | some (ps, p) =>
      let p' : QPkt := { p with arrived := p.arrived + 1, words := p.words ++ [w] }
      let s := s.land q x (ps ++ [p'])
      if p'.arrived = p'.len then s.notice q else s
    | none =>
      let n := packetLen q w given
      if n ≤ queueFree q x then
        let s := s.land q x (x.pkts ++ [⟨n, 1, [w], false⟩])
        if n ≤ 1 then s.notice q else s
      else (s.setQueue q { x with refuse := n - 1 }).refuseWords q 1 1

/-- The word that the memory of queue q delivers for `w`, the oldest word held (R413): from a poisoned row, 0 and one
count of an overflow; from a poisoned row of the journal ring, a record's status reads 0xF. -/
def State.deliverWord (s : State) (q : Nat) (w : Word) : Word × State :=
  let x := s.queue q
  let n := x.written - x.held
  let r := s.memRead (queueClass q) (queueRow q n)
  if r.1 then
    if q = 32 then (if n % 4 = 2 then w ||| 0xF00000#24 else w, r.2) else (0, r.2.refuseWords q 0 1)
  else (w, r.2)

/-- Pops the oldest word of a queue: the word, whether it ends its packet, and the state after (R162). -/
def State.popWord (s : State) (q : Nat) : Option (Word × Bool × State) :=
  let x := s.queue q
  match x.pkts with
  | p :: ps =>
    match p.words with
    | w :: ws =>
      let d := s.deliverWord q w
      let last := decide (ws = [] ∧ p.arrived = p.len)
      some (d.1, last, d.2.setQueue q { x with pkts := if last then ps else { p with words := ws } :: ps })
    | [] => none
  | [] => none

/-- Pops up to `n` words of a queue. -/
def State.popWords (s : State) (q : Nat) : Nat → List Word × State
  | 0 => ([], s)
  | n + 1 =>
    match s.popWord q with
    | none => ([], s)
    | some (w, _, t) => let r := State.popWords t q n; (w :: r.1, r.2)

/-- The threshold at which a consumer may begin a packet (R163): HIF_Q_CFG.thr, 0 and 1 acting as 2. -/
def State.cutThrough (s : State) (q : Nat) : Nat := max 2 (s.rd F.HIF_Q_CFG_thr [q])

/-- The head packet of a queue that a consumer may begin (R67, R163). -/
def State.ready (s : State) (q : Nat) : Option QPkt :=
  match (s.queue q).pkts with
  | p :: _ => if p.arrived = p.len ∨ s.cutThrough q ≤ p.arrived then some p else none
  | [] => none

/-- A word goes to the scratch of sequencer q, unless its row is poisoned (R413). -/
def State.putScratch (s : State) (q a : Nat) (w : Word) : State :=
  let r := s.memWrite 5 (scratchRow q a) false
  if r.1 then r.2.setSeq q ((r.2.seq q).setMem a w) else r.2

/-- Copies words into consecutive scratch words. -/
def State.putWords (s : State) (q a : Nat) : List Word → State
  | [] => s
  | w :: ws => State.putWords (s.putScratch q a w) q (a + 1) ws

/-- Sequencer sq, which takes the head packet of queue q, receives words: a dispatched packet goes to scratch from
word 0 (R70), a RECV copies at most its count (R121). -/
def State.takeWords (s : State) (sq q : Nat) (ws : List Word) : State :=
  let x := s.seq sq
  if x.pktQ = some q then
    let s := s.putWords sq x.pktGot ws
    s.setSeq sq { s.seq sq with pktGot := x.pktGot + ws.length }
  else
    match x.wait with
    | some (.recv a base mx src got len _) =>
      let s := s.putWords sq (base + min got mx) (ws.take (mx - min got mx))
      s.setSeq sq { s.seq sq with wait := some (.recv a base mx src (got + ws.length) len true) }
    | _ => s

/-- Moves the arrived words of the head packet to its taker; a packet wholly taken leaves the queue. -/
def State.feed (s : State) (q : Nat) : State :=
  let x := s.queue q
  match x.taker, x.pkts with
  | some sq, p :: _ =>
    let r := s.popWords q p.words.length
    let s := r.2.takeWords sq q r.1
    if p.arrived = p.len then s.setQueue q { s.queue q with taker := none } else s
  | _, _ => s

/-- The packet that sequencer sq takes from queue q is left: its arrived words go, and its remaining words are
discarded as they arrive (R71, R121). -/
def State.dropTaken (s : State) (sq q : Nat) : State :=
  let x := s.queue q
  match x.pkts with
  | p :: ps =>
    if x.taker = some sq then
      s.setQueue q { x with pkts := ps, taker := none, discard := x.discard + (p.len - p.arrived) }
    else s
  | [] => s

/-- A packet word has arrived in the scratch of sequencer q, or lies at or beyond the packet's length (R90). -/
def Seq.arrivedAt (x : Seq) (a : Nat) : Bool := decide (min x.pktLen 4096 ≤ a ∨ a < x.pktGot)

/-- A sequencer that waits for packet words goes on once they are there: its instruction issues again (R90, R109). -/
def Seq.resume (x : Seq) : Seq :=
  let ready := match x.wait with
    | some (.ldl _ a) => x.arrivedAt a
    | some (.stl _ a) => x.arrivedAt a
    | some (.done base k) => (List.range k).all fun j => x.arrivedAt (base + j)
    | _ => false
  if ready then { x with wait := none, state := .running } else x

/-- One word is pushed into a queue: it is admitted or refused, and goes on to the sequencer that takes the packet. -/
def State.push (s : State) (q : Nat) (w : Word) (given : Nat) : State :=
  let taker := (s.queue q).taker
  let s := ((s.arrive q w given).queueMarks q).feed q
  match taker with
  | some sq => s.setSeq sq (s.seq sq).resume
  | none => s

/-- A whole packet is pushed, word after word. -/
def State.pushAll (s : State) (q : Nat) (ws : List Word) : State := forEach (fun w t => t.push q w ws.length) ws s

/-! ### The library's event handler (R525, R528) -/

/-- The loaded program set runs Sorwick's own library (R62). DESIGN CHOICE (log 39). -/
def State.sorwick (s : State) : Bool := Config.sorwickSet (s.rd F.SEQ_PSET_ID_id)

def State.setPlanner (s : State) (x : Planner) : State := { s with mon := { s.mon with planner := x } }

/-- CNV_RUN_DONE on slice i: with cal_watch nonzero the handler submits part 1 that many seconds later (R525). -/
def State.watchRun (s : State) (i : Nat) : State :=
  let w := s.rd F.MON_AGE_POL4_cal_watch
  let x := s.mon.planner
  s.setPlanner { x with watch := x.watch ++ (if s.sorwick && decide (w ≠ 0) then [(i, w * 10 ^ 10)] else []) }

/-- The planner follows a proposal of these kinds and this summary on slice i (R528): format, with or without other line
settings, that keeps the symbol rate and the LDPC rate. -/
def State.follows (s : State) (i kinds summary : Nat) : Bool :=
  s.bit F.MON_AGE_POL_follow && decide (kinds = 2 ^ 22 ∨ kinds = 2 ^ 22 + 2 ^ 17)
    && decide (summary / 2 ^ 18 % 8 = s.cur F.RXD_MODE_CFG_baud [i] ∧ summary / 4 % 4 = s.cur F.FEC_CODE_CFG_rate [i])

/-- TDL_PROPOSAL on slice i: for a proposal that the planner follows the handler submits part 1 (R528). -/
def State.watchProposal (s : State) (i : Nat) : State :=
  let x := s.mon.planner
  let yes := s.follows i (s.rd F.TDL_PROP_KND_value [i]) (s.rd F.TDL_PROP_SUM_value [i]) && s.sorwick
  s.setPlanner { x with pkts := x.pkts ++ (if yes then [i] else []) }

/-- The MSI-X capability of a function after a reset (R172). -/
def State.msixReset (s : State) (f : Nat) : State :=
  let other := fun (k : Nat) => decide (k / 512 ≠ f)
  { s with hif := { s.hif with msixEn := tabPut false s.hif.msixEn f false, msixFMask := tabPut false s.hif.msixFMask f false,
                               msixTbl := s.hif.msixTbl.filter fun e => other (e.1 / 4),
                               vecPend := s.hif.vecPend.filter fun e => other e.1 } }

/-- The PCIe link is down, which resets the MSI-X capability of every function: what occurs from here on stays pending until
Enable is set again and the vectors are unmasked (R46, R172). DEDUCED (log 15). -/
def State.linkDown (s : State) : State :=
  { forEach (fun f t => t.msixReset f) (List.range 16) s with hif := { (forEach (fun f t => t.msixReset f) (List.range 16) s).hif with linkUp := false } }

/-! ### Gates (R51 to R53) -/

/-- The blocks whose registers are replicated per slice, with the slice in offset bits [19:17] (R11). -/
def sliceBlock (b : Nat) : Bool := decide (2 ≤ b ∧ b ≤ 7)

/-- The gate of a block. -/
def State.gate (s : State) (b : Nat) : Gate := tabGet ⟨false, false⟩ s.ctl.gates b
def State.setGate (s : State) (b : Nat) (g : Gate) : State :=
  { s with ctl := { s.ctl with gates := tabPut ⟨false, false⟩ s.ctl.gates b g } }

/-- A block has work, which opens its gate: GLB, TIM, the loader and HIF answer in every mode; MON runs outside DORMANT, the
slice blocks while a slice is not DARK, MAP while one is LIT, CIP then and while a service message waits, CLI while a lane is
not DEEP, the cellar while a channel is trained or to be trained, Poryon while a port is not in P-DEEP (R51).
DEDUCED (log 10). -/
def State.hasWork (s : State) (b : Nat) : Bool :=
  match b with
  | 0 | 1 | 12 | 13 => true
  | 14 => decide (s.mode ≠ modeDormant)
  | 2 | 3 | 4 | 5 | 6 | 7 => slices8.any fun i => decide (s.sliceState i ≠ slDark)
  | 8 => slices8.any fun i => s.lit i
  | 9 => (slices8.any fun i => s.lit i) || (List.range 16).any fun f => decide (s.rd F.CIP_UP_MSG_CMD_pending [f] ≠ 0)
  | 10 => (List.range 64).any fun l => decide (s.rd F.CLI_LANE_STAT_pstate [l] ≠ 2)
  | 11 => s.bit F.CEL_STAT_avail || s.cel.trainDue || s.cel.training
  | _ => [0, 1, 2, 3, 4, 5].any fun p => decide (s.rd F.PRY_PORT_STAT_pwr [p] ≠ 2)

/-- A block without work is gated: by the close of its gate, or in DORMANT, where every fast clock stands; a gate that waits
for an access in progress is still open (R51, R52, R54). DEDUCED (log 10). -/
def State.blockGated (s : State) (b : Nat) : Bool :=
  ((s.gate b).closed || decide (s.mode = modeDormant)) && !s.hasWork b && !(s.gate b).closing

/-- The registers at an address belong to a power-gated block: its gate is closed and it has no work, or its slice is DARK;
the pool registers in FEC belong to no slice (R51, R53). DEDUCED (log 10). -/
def State.gatedAt (s : State) (a : Nat) : Bool :=
  let b := a / 2 ^ 20
  s.blockGated b || (sliceBlock b && decide (s.sliceState (a / 2 ^ 17 % 8) = slDark)
    && !decide (b = 5 ∧ 0x10000 ≤ a % 2 ^ 20 ∧ a % 2 ^ 20 < 0x20000))

/-- A gate that has been asked to close closes before a further access to its block is served (R52). -/
def State.settleGate (s : State) (b : Nat) : State :=
  if (s.gate b).closing then s.setGate b ⟨false, true⟩ else s

/-- A write of 1 to a command field of block b does `f`; while the block is gated it is discarded (R53). -/
def State.whenOpen (s : State) (b : Nat) (f : State → State) : State := if s.blockGated b then s else f s

/-! ### The mirror (R475) -/

/-- The device sends the mirror: it is the ACTIVE of a pair that is joining or paired. -/
def State.mirrors (s : State) : Bool :=
  decide (s.rd F.PRY_TWIN_STAT_pair = 1 ∨ s.rd F.PRY_TWIN_STAT_pair = 2) && s.bit F.PRY_TWIN_STAT_active

/-- The TWIN port, while it is LINKED and no frame of the class waits, takes the oldest packet of the mirror queue as one
MIRROR message, once it is whole: a message carries all its words (R163, R433, R475). DEDUCED (log 27). -/
def State.mirrorDrain (s : State) : State :=
  if s.linked 0 ∧ (s.port 0).wait.all (fun e => decide (e.1.cls ≠ 1)) = true then
    let x := s.queue 34
    match x.pkts with
    | [] => s
    | p :: ps =>
      if p.arrived ≠ p.len then s else
      (s.setQueue 34 { x with pkts := ps }).pryTx 0 ⟨1, 0, 0, s.rd F.PRY_DOM_STAT_dom, p.words.map BitVec.toNat⟩
  else s

/-- One mirror item goes into the mirror queue as one packet: its type and length, its sequence, its content. -/
def State.mirror (s : State) (typ : Nat) (content : List Nat) : State :=
  if s.mirrors then
    let ws := [typ * 2 ^ 16 + (content.length + 2) % 4096, s.pry.mirSeq] ++ content
    let s := s.pushAll 34 (ws.map (BitVec.ofNat 24))
    ({ s with pry := { s.pry with mirSeq := (s.pry.mirSeq + 1) % 2 ^ 24 } }).mirrorDrain
  else s

/-- What the mirror of a manager also carries (R492): the window configuration, and the number, the serial identity and the
PRY_DOM_NODE word of each present binding, in an item of its own. PRESUMED (log 40). -/
def State.mirrorDomain (s : State) : State :=
  if s.cur F.PRY_DOM_CFG_role = 2 then
    let on := (List.range 64).filter fun d => s.bit F.PRY_DOM_NODE_present [d]
    s.mirror 0x0A (s.rd F.PRY_RFW_CFG_to :: on.flatMap fun d =>
      [d, s.rd F.PRY_DOM_SER_serial [d],
       s.rd F.PRY_DOM_NODE_depth [d] * 2 ^ 21 + s.rd F.PRY_DOM_NODE_parent [d] * 2 ^ 15 + s.rd F.PRY_DOM_NODE_dn [d] * 2 ^ 13])
  else s

/-! ### The journal and responses (R79 to R83) -/

/-- Words 0 to 3 of a journal record, R79. -/
def recordWords (tag : Word) (program step status sq func fault : Nat) (t : BitVec 32) : List Word :=
  [tag, BitVec.ofNat 24 (program % 4096 * 4096 + step % 4096),
   BitVec.ofNat 24 (status * 2 ^ 20 + sq * 2 ^ 16 + func * 2 ^ 12 + fault * 2 ^ 8 + t.toNat / 2 ^ 24),
   BitVec.ofNat 24 (t.toNat % 2 ^ 24)]

end Sys2Proof.Machine
end

