-- ==== Sys2Proof/Machine/Converters.lean ====
section
/-!
DEFINITION. Line converters: trims, recalibration runs, restore rotations, generations, the cask records, clipping and
line capture (chapter 07, R176 to R204).
-/

namespace Sys2Proof.Machine

/-! ### Trims (R181, R183) -/

/-- The range of a signed field of `n` bits. -/
def clampBits (n : Nat) (i : Int) : Int := clampInt (-(2 ^ (n - 1) : Nat)) ((2 ^ (n - 1) : Nat) - 1) i

/-- A measured trim lies beyond its range (R181). -/
def overRange (n : Nat) (i : Int) : Bool := decide (clampBits n i ≠ i)

/-- Writes one signed trim into a trim table, clamped to its range. -/
def putTrim (m : Tab Nat) (f : Fld) (v : Int) (is : List Nat) : Tab Nat :=
  imgPut m f (ofSigned (fldWidth f) (clampBits (fldWidth f) v)) is

/-- The three trims of interleave slice k of ADC a. -/
def putAdcTrims (m : Tab Nat) (i a k : Nat) (t : TrimMeasure) : Tab Nat :=
  putTrim (putTrim (putTrim m F.CNV_ADC_TRIM_A_gain t.gain [i, a, k]) F.CNV_ADC_TRIM_A_offset t.offset [i, a, k])
    F.CNV_ADC_TRIM_B_skew t.skew [i, a, k]

/-- Some trim of a measurement is beyond its range; `ow` is the width of the offset trim. -/
def measureSat (ow : Nat) (t : TrimMeasure) : Bool :=
  overRange 12 t.gain || overRange ow t.offset || overRange 12 t.skew

/-- Copies one field instance from a trim table into force. -/
def State.applyTrim (s : State) (m : Tab Nat) (f : Fld) (is : List Nat) : State := s.wr f (imgGet m f is) is

/-- The ADC trims of phase p of ADC a come into force together (R183). -/
def State.applyAdc (s : State) (m : Tab Nat) (i a p : Nat) : State :=
  ((s.applyTrim m F.CNV_ADC_TRIM_A_gain [i, a, p]).applyTrim m F.CNV_ADC_TRIM_A_offset [i, a, p]).applyTrim m
    F.CNV_ADC_TRIM_B_skew [i, a, p]

/-- The DAC trims and tap trims of slice i. -/
def State.loadDacs (s : State) (m : Tab Nat) (i : Nat) : State :=
  forEach (fun d t =>
    let t := ((t.applyTrim m F.CNV_DAC_TRIM_A_gain [i, d]).applyTrim m F.CNV_DAC_TRIM_A_offset [i, d]).applyTrim m
      F.CNV_DAC_TRIM_B_skew [i, d]
    forEach (fun k t => t.applyTrim m F.CNV_DAC_TAP_trim [i, d, k]) (List.range 33) t) [0, 1, 2, 3] s

/-- The DAC trims and tap trims of slice i come into force together; a tap sum beyond its range sets pe_clamp (R183,
R247). -/
def State.applyDacs (s : State) (m : Tab Nat) (i : Nat) : State := (s.loadDacs m i).peCheck i

/-- The trim registers of slice i hold a whole generation. -/
def State.loadTrims (s : State) (i : Nat) (g : Gen) : State :=
  (forEach (fun a t => forEach (fun p t => t.applyAdc g.trims i a p) (List.range 65) t) [0, 1, 2, 3] s).loadDacs g.trims i

/-- WAKING step 3 loads the whole generation in use (R35, R189). -/
def State.loadGeneration (s : State) (i : Nat) (g : Gen) : State := (s.loadTrims i g).peCheck i

/-- The generation in use: NEWEST, or PREVIOUS where CNV_GEN_CFG.use names it or NEWEST has been rejected, the
factory-neutral trims where it is empty (R197, R198). -/
def State.genInUse (s : State) (i : Nat) : Gen :=
  let c := s.conv1 i
  if s.curBit F.CNV_GEN_CFG_use [i] || c.rejected then c.previous.getD Gen.neutral else c.newest

/-- The trims of slice i that are in force: its CNV trim registers. -/
def State.trimsInForce (s : State) (i : Nat) : Tab Nat :=
  let base := 0x200000 + 0x20000 * i
  s.regs.filter fun e => decide (base + 0x100 ≤ e.1 / 32 ∧ e.1 / 32 < base + 0x800)

/-! ### Causes and engines (R184 to R187, R430) -/

/-- The order of the table "Run causes": 0 is the highest. -/
def causeRank (c : Nat) : Nat :=
  if c = 3 then 0 else if c = 5 then 1 else if c = 4 then 2 else if c = 1 then 3 else 4

/-- The cause highest in the table among those that coincide (R184). -/
def topCause : List Nat → Nat
  | [] => 0
  | [c] => c
  | c :: cs => if causeRank c ≤ causeRank (topCause cs) then c else topCause cs

/-- The entry tier of a calibration request (R430). -/
def causeTier (c : Nat) : Nat := if c = 1 then 1 else if c = 2 then 0 else 2

/-- A run may start: the slice is LIT, the mode allows it and use reads 0 (R185). -/
def State.runAllowed (s : State) (i : Nat) : Bool :=
  s.lit i && decide (1 ≤ s.mode ∧ s.mode ≤ 4) && !s.curBit F.CNV_GEN_CFG_use [i]

/-- A run or a restore rotation is in progress. -/
def State.calBusy (s : State) (i : Nat) : Bool :=
  s.bit F.CNV_STAT_run_active [i] || s.bit F.CNV_STAT_restore_active [i]

/-- The age step of a slice's calibration request, in 1 ms rounds: units of 10 ms, 0 acting as 1 (R430). -/
def State.calAgeStep (s : State) (i : Nat) : Nat := 10 * max 1 (s.rd F.CNV_SOL_CFG_age [i])

/-- Puts a calibration request of slice i with entry tier `e`; a request that waits already takes the higher tier and
keeps its age (R430). -/
def State.askEngine (s : State) (i e : Nat) : State :=
  if s.calEng.reqs.any (fun r => r.cls = i) then
    { s with calEng := { s.calEng with reqs := s.calEng.reqs.map fun r =>
        if r.cls = i then { r with entry := max r.entry e } else r } }
  else { s with calEng := { s.calEng with reqs := s.calEng.reqs ++ [⟨i, i, e, 0, s.calAgeStep i⟩] } }

/-- The request of slice i leaves the use. -/
def State.dropAsk (s : State) (i : Nat) : State :=
  { s with calEng := { s.calEng with reqs := s.calEng.reqs.filter fun r => r.cls ≠ i } }

/-- A pending run asks for an engine as soon as R185 and R186 allow it. -/
def State.askRun (s : State) (i : Nat) : State :=
  let c := s.conv1 i
  if c.pendCauses ≠ [] ∧ s.runAllowed i = true ∧ s.calBusy i = false ∧ c.wait ≠ some true then
    (s.setConv i { c with wait := some false }).askEngine i (c.pendCauses.map causeTier |>.foldl max 0)
  else s

/-- A cause of R184 arises on slice i: it waits in pending until a run starts (R185, R186). DEDUCED (log 16). -/
def State.runCause (s : State) (i c : Nat) : State :=
  let x := s.conv1 i
  let s := s.setConv i { x with pendCauses := if c ∈ x.pendCauses then x.pendCauses else x.pendCauses ++ [c] }
  (s.wr F.CNV_STAT_pending 1 [i]).askRun i

/-- A restore rotation of slice i to the generation in use now is asked for (R188, R197), entry tier 3. -/
def State.askRestore (s : State) (i : Nat) : State :=
  (s.setConv i { s.conv1 i with wait := some true, goal := s.genInUse i }).askEngine i 3

/-- A HAND BACK while a segment of a capture of this slice fills sets hb; one before the trigger is remembered, since its
instant may be among those kept (R203). -/
def State.captureHandBack (s : State) (i : Nat) : State :=
  if s.capture.slice.map Fin.val = some i then
    if s.rd F.CNV_CAP_STAT_state [i] = 2 then s.wr F.CNV_CAP_STAT_hb 1 [i]
    else if s.rd F.CNV_CAP_STAT_state [i] = 1 then
      { s with capture := { s.capture with handBack := some s.tim.now } }
    else s
  else s

/-- The stage fields of a run or rotation that ends. -/
def State.calIdle (s : State) (i : Nat) : State :=
  (((s.wr F.CNV_STAT_run_active 0 [i]).wr F.CNV_STAT_restore_active 0 [i]).wr F.CNV_RECAL_STAT_stage 0 [i]).wr
    F.CNV_RECAL_STAT_phase 0 [i]

/-- A run ends without a generation: the offline slice is handed back with the trims it had, and a restore rotation of the
generation in use follows (R188). -/
def State.abortRun (s : State) (i : Nat) : State :=
  if s.bit F.CNV_STAT_run_active [i] then
    let s := if 2 ≤ s.rd F.CNV_RECAL_STAT_stage [i] ∧ (s.conv1 i).retried % 16 ≠ 15 then s.captureHandBack i else s
    let s := s.calIdle i
    (s.setConv i { s.conv1 i with work := [], workSkip := 0, lateStep := false, replacing := false }).askRestore i
  else s

/-- A slice leaves LIT: its run or rotation ends at once, with no generation and no restore (R189). -/
def State.calLeaveLit (s : State) (i : Nat) : State :=
  let s := (s.calIdle i).dropAsk i
  s.setConv i { s.conv1 i with work := [], workSkip := 0, lateStep := false, replacing := false, wait := none }

/-- MATCH of phase p begins (R178). -/
def State.beginMatch (s : State) (i p : Nat) : State :=
  let s := (s.wr F.CNV_RECAL_STAT_phase p [i]).wr F.CNV_RECAL_STAT_stage 1 [i]
  s.setConv i { s.conv1 i with retried := 0 }

/-- An engine is granted to slice i: its rotation or its run starts. A run measures on top of the trims in force, which a
skipped phase keeps (R179). -/
def State.startCal (s : State) (i : Nat) : State :=
  let c := s.conv1 i
  let s := s.dropAsk i
  if c.wait = some true then
    let s := s.setConv i { c with wait := none, lateStep := false }
    (s.wr F.CNV_STAT_restore_active 1 [i]).beginMatch i 0
  else
    let cause := topCause c.pendCauses
    let s := s.setConv i { c with wait := none, lateStep := false, work := s.trimsInForce i, workSkip := 0, pendCauses := [],
                                  cause := cause, replacing := c.rejected,
                                  runTemp := toSigned 10 (s.rd F.CNV_STAT_temp [i]) }
    let s := (s.wr F.CNV_STAT_run_active 1 [i]).wr F.CNV_STAT_pending 0 [i]
    (s.wr F.CNV_RECAL_STAT_cause cause [i]).beginMatch i 0

/-- RECAL_RUN_CMD: refused while use reads 1 or the slice is not LIT, pending unchanged; else cause 3 (R184, R185). A
command to a DARK slice is discarded (R53). -/
def execRecalRunCmd (i : Fin 8) (s : State) : Out :=
  .next (
    if s.sliceState i = slDark then s
    else if s.curBit F.CNV_GEN_CFG_use [i] || !s.lit i then s.wr F.CNV_RECAL_CMD_refused 1 [i]
    else s.runCause i 3)

/-- RECAL_ABORT_CMD (R188). -/
def execRecalAbortCmd (i : Fin 8) (s : State) : Out := .next (s.abortRun i)

/-- The temperature cause of R184 holds against the last completed run: a difference greater than the step. -/
def State.tempCause (s : State) (i : Nat) (temp : Int) : Bool :=
  match (s.conv1 i).lastTemp with
  | some t => decide ((4 * (s.cur F.CNV_RECAL_CFG_temp_step [i] + 1) : Nat) < (temp - t).natAbs)
  | none => false

/-- CONVERTER_TEMP_READING: the 10 ms reading, which can raise cause 1 (R184). -/
def execConverterTempReading (i : Fin 8) (temp : BitVec 10) (s : State) : Out :=
  let s := s.wr F.CNV_STAT_temp temp.toNat [i]
  .next (if s.tempCause i temp.toInt then s.runCause i 1 else s)

/-- RECAL_INTERVAL_EXPIRY: cause 2, unless the interval is disabled (R184). -/
def execRecalIntervalExpiry (i : Fin 8) (s : State) : Out :=
  .next (if s.cur F.CNV_RECAL_CFG_interval [i] = 0 then s else s.runCause i 2)

/-! ### The phases of a run (R178, R179) -/

/-- One skipped phase of ADC a: the flag and its event (R179). -/
def State.skipPhase (s : State) (i a p : Nat) : State :=
  (s.wr F.CNV_STAT_phase_skip 1 [i]).raise 0x11 (i * 2 ^ 21 + a * 2 ^ 19 + p)

/-- The ADCs of slice i that have no spare, as a mask: their phases are always skipped (R180). -/
def State.noSpare (s : State) (i : Nat) : Nat :=
  ([0, 1, 2, 3].map fun a => if s.bit F.CNV_ADC_STAT_spare_used [i, a] then 2 ^ a else 0).sum

/-- MATCH has trimmed the spare of ADC a: its trims are in force at once, and part of the run's generation (R178, R193). -/
def State.trimSpare (s : State) (i a : Nat) (m : TrimMeasure) : State :=
  let p := s.rd F.CNV_ADC_STAT_spare_pos [i, a]
  let s := if measureSat 10 m then s.wr F.CNV_STAT_trim_sat 1 [i] else s
  let c := s.conv1 i
  let s := if s.bit F.CNV_STAT_run_active [i] then s.setConv i { c with work := putAdcTrims c.work i a p m } else s
  s.applyAdc (putAdcTrims [] i a p m) i a p

/-- The mean of one slice lies within `num` / `den` LSB of the mean of `n` others whose sums are `sums`. -/
def meanWithin (num den n : Nat) (x sums : CodeStats) : Bool :=
  decide (den * (n * x.sum - sums.sum).natAbs ≤ num * n * 2 ^ 36)

/-- Its RMS lies between lo / den and hi / den of theirs. -/
def rmsWithin (lo hi den n : Nat) (x sums : CodeStats) : Bool :=
  decide (lo ^ 2 * sums.squares ≤ den ^ 2 * (n * x.squares) ∧ den ^ 2 * (n * x.squares) ≤ hi ^ 2 * sums.squares)

/-- MATCH has reached its limits: the means agree within 1/16 LSB, the RMS values within 2^-12 (R178). -/
def MatchResult.ok (m : MatchResult) : Bool :=
  meanWithin 1 16 1 m.spare m.incumbent && rmsWithin 4095 4097 4096 1 m.spare m.incumbent

/-- The ADCs of which a MATCH has not reached its limits, as a mask; one without a spare has none (R178 to R180). -/
def State.matchFails (s : State) (i : Nat) (adcs : List MatchResult) : Nat :=
  ([0, 1, 2, 3].map fun a =>
    if s.noSpare i / 2 ^ a % 2 = 0 ∧ (adcs[a]?.map MatchResult.ok).getD false = false then 2 ^ a else 0).sum

/-- SPARE_MATCH_END: `adcs` says what MATCH trimmed and measured for each ADC; a MATCH that has not reached its limits is
repeated once, for all four ADCs at a time; an ADC that fails the repeat skips the phase (R178, R179). Whether one that fails
only in the repeat has a repeat of its own no rule states: it has none. DEDUCED (log 16). DESIGN CHOICE (log 41). -/
def execSpareMatchEnd (i : Fin 8) (adcs : List MatchResult) (s : State) : Out :=
  .next (
    if s.rd F.CNV_RECAL_STAT_stage [i] = 1 then
      let c := s.conv1 i
      let dead := s.noSpare i
      let bad := s.matchFails i adcs
      let s := forEach (fun a t => if dead / 2 ^ a % 2 = 1 then t
        else t.trimSpare i a ((adcs[a]?.map MatchResult.trims).getD ⟨0, 0, 0⟩)) [0, 1, 2, 3] s
      let c := { c with work := (s.conv1 i).work }
      if bad ≠ 0 ∧ c.retried = 0 then s.setConv i { c with retried := bad }
      else
        let skip := bad ||| dead
        let s := s.setConv i { c with retried := skip, workSkip := c.workSkip ||| skip }
        let s := forEach (fun a t => if skip / 2 ^ a % 2 = 1 then t.skipPhase i a (s.rd F.CNV_RECAL_STAT_phase [i])
          else t) [0, 1, 2, 3] s
        s.wr F.CNV_RECAL_STAT_stage 2 [i]
    else s)

/-- CALIBRATE ends for phase p of slice i: the trims of each ADC that serves the phase, and one tap of each DAC in run steps
0 to 32, join the generation of the run; a trim beyond its range is clamped (R178, R181). -/
def State.measurePhase (s : State) (i p : Nat) (adc : List TrimMeasure) (taps : List Int) : State :=
  let s := forEach (fun a t =>
    if (t.conv1 i).retried / 2 ^ a % 2 = 1 then t
    else
      let m := adc.getD a ⟨0, 0, 0⟩
      let t := if measureSat 10 m then t.wr F.CNV_STAT_trim_sat 1 [i] else t
      t.setConv i { t.conv1 i with work := putAdcTrims (t.conv1 i).work i a p m }) [0, 1, 2, 3] s
  if p < 33 then
    forEach (fun d t =>
      let v := taps.getD d 0
      let t := if overRange 12 v then t.wr F.CNV_STAT_trim_sat 1 [i] else t
      t.setConv i { t.conv1 i with work := putTrim (t.conv1 i).work F.CNV_DAC_TAP_trim v [i, d, p] }) [0, 1, 2, 3] s
  else s

/-- HAND BACK of phase p: all three trims of each offline interleave slice come into force together (R183, R197). -/
def State.handBack (s : State) (i p : Nat) : State :=
  let c := s.conv1 i
  let m := if s.bit F.CNV_STAT_run_active [i] then c.work else c.goal.trims
  let s := forEach (fun a t => if c.retried / 2 ^ a % 2 = 1 then t else t.applyAdc m i a p) [0, 1, 2, 3] s
  let s := if c.retried % 16 = 15 then s else s.captureHandBack i
  if p < 63 then s.beginMatch i (p + 1)
  else (s.wr F.CNV_RECAL_STAT_stage 0 [i]).setConv i { s.conv1 i with lateStep := true }

/-- RUN_STEP_HAND_BACK: CALIBRATE or the load ends with what it `measured` and SETTLE begins, or, with none, SETTLE has
ended and the offline interleave slices of the phase return (R178, R181, R183). DEDUCED (log 16). -/
def execRunStepHandBack (i : Fin 8) (measured : Option (List TrimMeasure × List Int)) (s : State) : Out :=
  .next (
    let p := s.rd F.CNV_RECAL_STAT_phase [i]
    let st := s.rd F.CNV_RECAL_STAT_stage [i]
    if s.calBusy i then
      match measured with
      | some m =>
        if st = 2 then
          (if s.bit F.CNV_STAT_run_active [i] then s.measurePhase i p m.1 m.2 else s).wr F.CNV_RECAL_STAT_stage 3 [i]
        else s
      | none => if st = 3 then s.handBack i p else s
    else s)

/-- The serial after `n`: 1 follows 0xFF_FFFF (R190). -/
def nextSerial (n : Nat) : Nat := if n % 2 ^ 24 = 0xFFFFFF then 1 else n % 2 ^ 24 + 1

/-- What a run or rotation leaves behind: the causes that arose meanwhile start a run at once where R185 allows it; a
temperature cause is judged again (R186). -/
def State.afterCal (s : State) (i : Nat) : State :=
  let c := s.conv1 i
  let keep := c.pendCauses.filter fun k => k ≠ 1 || s.tempCause i (toSigned 10 (s.rd F.CNV_STAT_temp [i]))
  let s := s.setConv i { c with pendCauses := keep }
  (s.wr F.CNV_STAT_pending (if keep = [] then 0 else 1) [i]).askRun i

/-- RUN_COMPLETE: at the frame boundary after the last HAND BACK the new generation is in force, becomes NEWEST, raises
CNV_RUN_DONE and goes on to be saved (R183, R190, R198). DEDUCED (log 16). -/
def execRunComplete (i : Fin 8) (dac : List TrimMeasure) (s : State) : Out :=
  .next (
    let c := s.conv1 i
    if s.bit F.CNV_STAT_run_active [i] = true ∧ c.lateStep = true then
      let s := forEach (fun d t =>
        let m := dac.getD d ⟨0, 0, 0⟩
        let t := if measureSat 8 m then t.wr F.CNV_STAT_trim_sat 1 [i] else t
        let w := putTrim (putTrim (putTrim (t.conv1 i).work F.CNV_DAC_TRIM_A_gain m.gain [i, d])
          F.CNV_DAC_TRIM_A_offset m.offset [i, d]) F.CNV_DAC_TRIM_B_skew m.skew [i, d]
        t.setConv i { t.conv1 i with work := w }) [0, 1, 2, 3] s
      let c := s.conv1 i
      let s := s.applyDacs c.work i
      let serial := nextSerial c.lastIssued
      let g : Gen := ⟨serial, c.work, c.runTemp, s.cur F.RXD_MODE_CFG_baud [i], c.workSkip, s.time,
        s.rd F.LFR_TX_SFC_count [i]⟩
      let prev := if c.replacing then c.previous else some c.newest
      let s := s.calIdle i
      let s := s.setConv i { c with newest := g, previous := prev, lastIssued := serial, work := [], workSkip := 0,
                                    lastTemp := some c.runTemp, lateStep := false, replacing := false,
                                    rejected := false, saves := c.saves ++ [g] }
      let s := (s.wr F.CNV_GEN_NEW_serial serial [i]).wr F.CNV_GEN_PREV_serial ((prev.map Gen.serial).getD 0) [i]
      ((s.raise 0x10 (i * 2 ^ 21 + serial % 2 ^ 21)).watchRun i).afterCal i
    else s)

/-- RESTORE_ROTATION_COMPLETE: at the frame boundary after the last HAND BACK the generation that the rotation restores is in
force throughout (R183, R197). -/
def execRestoreRotationComplete (i : Fin 8) (s : State) : Out :=
  .next (
    if s.bit F.CNV_STAT_restore_active [i] = true ∧ (s.conv1 i).lateStep = true then
      let s := (s.applyDacs (s.conv1 i).goal.trims i).calIdle i
      (s.setConv i { s.conv1 i with lateStep := false }).afterCal i
    else s)

/-! ### Cask records (R192 to R195) -/

/-- CRC-32 of the IEEE 802.3 frame check sequence over one more byte, on the reflected register (R194). -/
def crc32Byte (c : BitVec 32) (b : Nat) : BitVec 32 :=
  let step (c : BitVec 32) : BitVec 32 := if c.getLsbD 0 then (c >>> 1) ^^^ 0xEDB88320#32 else c >>> 1
  step (step (step (step (step (step (step (step (c ^^^ BitVec.ofNat 32 b))))))))

/-- The frame check sequence of a byte string. -/
def crc32 (bs : List Nat) : BitVec 32 := ~~~ (bs.foldl crc32Byte 0xFFFFFFFF#32)

/-- The four bytes of a frame check sequence in frame order. -/
def fcsBytes (c : BitVec 32) : List Nat :=
  [c.toNat % 256, c.toNat / 2 ^ 8 % 256, c.toNat / 2 ^ 16 % 256, c.toNat / 2 ^ 24]

/-- A 24-bit word, most significant byte first. -/
def word3 (n : Nat) : List Nat := [n / 2 ^ 16 % 256, n / 2 ^ 8 % 256, n % 256]

/-- The register image of a trim register of the generation. -/
def trimImage (m : Tab Nat) (fs : List Fld) (is : List Nat) : Nat :=
  (fs.map fun f => imgGet m f is * 2 ^ f.lo).sum

/-- The 1,996 bytes of a record before its CRC (R193). -/
def recordBody (i : Nat) (g : Gen) : List Nat :=
  let head := [1, i * 2 ^ 5, 0] ++ word3 g.serial
    ++ [g.time.toNat / 2 ^ 24, g.time.toNat / 2 ^ 16 % 256, g.time.toNat / 2 ^ 8 % 256, g.time.toNat % 256]
    ++ word3 g.sfc
  let t := ofSigned 10 g.temp * 2 ^ 14 + g.baud * 2 ^ 11 + g.skip * 2 ^ 7
  let adc := [0, 1, 2, 3].flatMap fun a => (List.range 65).flatMap fun k =>
    word3 (trimImage g.trims [F.CNV_ADC_TRIM_A_gain, F.CNV_ADC_TRIM_A_offset] [i, a, k])
      ++ word3 (trimImage g.trims [F.CNV_ADC_TRIM_B_skew] [i, a, k])
  let taps := [0, 1, 2, 3].flatMap fun d => (List.range 33).flatMap fun k =>
    word3 (trimImage g.trims [F.CNV_DAC_TAP_trim] [i, d, k])
  let dac := [0, 1, 2, 3].flatMap fun d =>
    word3 (trimImage g.trims [F.CNV_DAC_TRIM_A_gain, F.CNV_DAC_TRIM_A_offset] [i, d])
      ++ word3 (trimImage g.trims [F.CNV_DAC_TRIM_B_skew] [i, d])
  head ++ word3 t ++ adc ++ taps ++ dac

/-- The 2,000 bytes of a calibration record (R193, R194). -/
def recordBytes (i : Nat) (g : Gen) : List Nat := recordBody i g ++ fcsBytes (crc32 (recordBody i g))

/-- A byte of the cask, 0xFF where nothing is programmed. -/
def State.caskByte (s : State) (a : Nat) : Nat := tabGet 0xFF s.cask a

/-- `n` bytes of the cask from address `a`. -/
def State.caskBytes (s : State) (a n : Nat) : List Nat := (List.range n).map fun k => s.caskByte (a + k)

/-- Programs bytes from address `a` (a programmed bit can only fall: R555 erases first). -/
def State.caskProgram (s : State) (a : Nat) : List Nat → State
  | [] => s
  | b :: bs => State.caskProgram { s with cask := tabPut 0xFF s.cask a (s.caskByte a &&& b % 256) } (a + 1) bs

/-- Erases the 4 KiB sector at `a`. -/
def State.caskErase (s : State) (a : Nat) : State :=
  { s with cask := s.cask.filter fun e => e.1 < a || a + 4096 ≤ e.1 }

/-- The serial of the record in a sector, where the record is valid (R194). -/
def State.recordSerial (s : State) (a : Nat) : Option Nat :=
  let body := s.caskBytes a 1996
  if s.caskByte a = 1 ∧ s.caskBytes (a + 1996) 4 = fcsBytes (crc32 body) then
    some (s.caskByte (a + 3) * 2 ^ 16 + s.caskByte (a + 4) * 2 ^ 8 + s.caskByte (a + 5))
  else none

/-- Serial a is ahead of serial b by 1 to 2^23 - 1, modulo 2^24 (R195). -/
def serialAhead (a b : Nat) : Bool :=
  let d := (a + 2 ^ 24 - b % 2 ^ 24) % 2 ^ 24
  decide (1 ≤ d ∧ d < 2 ^ 23)

/-- A 24-bit word of the cask, most significant byte first. -/
def State.caskWord (s : State) (a : Nat) : Nat := s.caskByte a * 2 ^ 16 + s.caskByte (a + 1) * 2 ^ 8 + s.caskByte (a + 2)

/-- The areas in the directory's order with default start and size (R553): factory data, calibration, ageing, RESCUE,
image 0, image 1. -/
def caskAreas : List (Nat × Nat) :=
  [(0x010000, 0x10000), (0x020000, 0x18000), (0x040000, 0x40000), (0x100000, 0x100000), (0x200000, 0x200000),
   (0x400000, 0x200000)]

/-- The starts that the directory in the first sector names, as byte addresses. -/
def State.dirStarts (s : State) : List Nat := (List.range 6).map fun k => s.caskWord (4 + 3 * k)

/-- The extents of the areas and of the directory itself, for given starts. -/
def areaExtents (starts : List Nat) : List (Nat × Nat) :=
  (0, 4096) :: List.zipWith (fun a (e : Nat × Nat) => (a, a + e.2)) starts caskAreas

/-- The flash size in bytes. -/
def State.caskSize (s : State) : Nat := s.rd F.GLB_CASK_STAT_size * 2 ^ 20

/-- The directory is valid (R553). -/
def State.dirValid (s : State) : Bool :=
  let es := areaExtents s.dirStarts
  decide (s.caskWord 0 = 0x4F4356 ∧ s.caskByte 3 = 1 ∧ s.caskBytes 24 4 = fcsBytes (crc32 (s.caskBytes 0 24)))
    && es.all (fun e => decide (e.1 % 4096 = 0 ∧ e.2 ≤ s.caskSize))
    && (List.range 7).all fun i => (List.range i).all fun j =>
      let x := es.getD i (0, 0)
      let y := es.getD j (0, 0)
      decide (x.2 ≤ y.1 ∨ y.2 ≤ x.1)

/-- The start of area k: the directory's, or the default where it is invalid (R553). -/
def State.areaStart (s : State) (k : Nat) : Nat :=
  if s.dirValid then s.dirStarts.getD k 0 else (caskAreas.getD k (0, 0)).1

/-- The sector that a save erases: one without a valid record, else the one whose record is oldest (R192). -/
def State.saveSector (s : State) (base : Nat) : Nat :=
  let pick := fun (b : Nat) (best : Nat) =>
    match s.recordSerial b, s.recordSerial best with
    | none, some _ => b
    | some x, some y => if serialAhead y x then b else best
    | _, none => best
  pick (base + 2 * 4096) (pick (base + 4096) base)

/-- What a program operation whose check fails leaves in the erased sector: no rule says which bytes, but that they are no
valid record. DESIGN CHOICE (log 2). -/
def State.failedSector (s : State) (sec : Nat) : State :=
  let t := (s.caskErase sec).caskProgram sec ((List.range 2000).map fun b => (Config.freeSample s.free b).toNat)
  let t := if (t.recordSerial sec).isSome then s.caskErase sec else t
  { t with free := s.free + 1 }

/-- CASK_SAVE's own effect in the calibration area: erase, program, read back; a failed check repeats the
whole save once, and a second failure gives up with CNV_SAVE_FAIL (R192). DEDUCED (log 16). -/
def State.saveGeneration (s : State) (i : Nat) (verified : Bool) : State :=
  let c := s.conv1 i
  match c.saves with
  | [] => s
  | g :: gs =>
    let sec := s.saveSector (s.areaStart 1 + 3 * i * 4096)
    if verified then
      ((s.caskErase sec).caskProgram sec (recordBytes i g)).setConv i { c with saves := gs, saveRetry := false }
    else if c.saveRetry then
      let s := (s.failedSector sec).setConv i { c with saves := gs, saveRetry := false }
      (s.stick F.CNV_STAT_save_fail i).raise 0x12 (i * 2 ^ 21 + g.serial % 2 ^ 21)
    else (s.failedSector sec).setConv i { c with saveRetry := true }

/-! ### Clipping (R200) -/

/-- The interleave slice of ADC a that is offline: the spare, from TAKE to HAND BACK the incumbent of the phase in progress,
and one that the spare has replaced (R177, R178, R180). -/
def State.offlineSlice (s : State) (i a : Nat) : Nat :=
  if s.bit F.CNV_ADC_STAT_spare_used [i, a] then s.rd F.CNV_ADC_STAT_failed_slice [i, a]
  else if 2 ≤ s.rd F.CNV_RECAL_STAT_stage [i] ∧ (s.conv1 i).retried / 2 ^ a % 2 = 0 then s.rd F.CNV_RECAL_STAT_phase [i]
  else s.rd F.CNV_ADC_STAT_spare_pos [i, a]

/-- An 8-bit code at +127 or -128 (R200). -/
def clippedCode (c : BitVec 8) : Bool := decide (c = 0x7F#8 ∨ c = 0x80#8)

/-- The codes of ADC a that its serving slices gave in a window (R200). -/
def State.servingCodes (s : State) (i a : Nat) (codes : List (Fin 4 × Fin 65 × BitVec 8)) : List (BitVec 8) :=
  (codes.filter fun c => decide (c.1.val = a ∧ c.2.1.val ≠ s.offlineSlice i a)).map fun c => c.2.2

/-- Samples and clipped samples of each converter in a window: ADCs 0 to 3, then DACs 0 to 3 as the transmitter counted
them (R200). -/
def State.clipCounts (s : State) (i : Nat) (codes : List (Fin 4 × Fin 65 × BitVec 8)) : List (Nat × Nat) :=
  ([0, 1, 2, 3].map fun a => ((s.servingCodes i a codes).length, (s.servingCodes i a codes).countP clippedCode))
    ++ [0, 1, 2, 3].map fun d => ((s.tx1 i).sent, (s.tx1 i).clips.getD d 0)

/-- CLIP_WINDOW: 1 ms of a LIT slice ends; `codes` are the ADC codes of the window, each with its interleave slice. The DAC
samples were counted, and their flags set, as they were sent (R200, R247). -/
def execClipWindow (i : Fin 8) (codes : List (Fin 4 × Fin 65 × BitVec 8)) (s : State) : Out :=
  .next (
    if s.lit i then
      let ns := s.clipCounts i codes
      let s := forEach (fun a t =>
        let n := (ns.getD a (0, 0)).2
        if n = 0 then t else (t.count (8 * i + a) n).wr F.CNV_ADC_STAT_ovr 1 [i, a]) [0, 1, 2, 3] s
      let s := s.setTx i { s.tx1 i with sent := 0, clips := [0, 0, 0, 0] }
      let k := s.rd F.CNV_CLIP_CFG_k [i]
      if k ≠ 0 ∧ ns.any (fun n => decide (n.1 < n.2 * 2 ^ k)) = true then s.raise 0x13 (i * 2 ^ 21) else s
    else s)

/-! ### Line capture (R201 to R204) -/

/-- The capture ends: CNV_CAP_DONE with the segments written (R202). -/
def State.endCapture (s : State) (i : Nat) : State :=
  let s := { (s.celDrop 5).wr F.CNV_CAP_STAT_state 0 [i] with capture := Capture.idle }
  s.raise 0x14 (i * 2 ^ 21 + s.rd F.CNV_CAP_STAT_done [i])

/-- The engine arms for a segment of slice i: the ring begins to fill; where the go itself is the trigger, codes 0b00 and 0b11, it is
that of every segment, as nothing else could be (R201, R202). DESIGN CHOICE (log 41). -/
def State.armCapture (s : State) (i : Nat) : State :=
  let s := { s.wr F.CNV_CAP_STAT_state 1 [i] with
    capture := { s.capture with armedAt := s.tim.now, handBack := none, dac := [] } }
  if s.capture.trig = 0 ∨ s.capture.trig = 3 then s.fireCapture i else s

/-- CAPTURE_GO: refused while another capture is in progress or the slice is not LIT; else the capture arms with the source, trigger
and lengths that the registers hold now (R201). A go to a DARK slice is discarded (R53). DEDUCED (log 16). -/
def execCaptureGo (i : Fin 8) (s : State) : Out :=
  .next (
    if s.sliceState i = slDark then s
    else if s.capture.slice ≠ none ∨ s.lit i = false then s.wr F.CNV_CAP_CMD_refused 1 [i]
    else
      let cfg := fun (f : Fld) => s.rd f [i]
      let s := { s with capture :=
        { slice := some i, segs := max 1 (cfg F.CNV_CAP_LEN_segs), src := cfg F.CNV_CAP_CFG_src, trig := cfg F.CNV_CAP_CFG_trig,
          timer := cfg F.CNV_CAP_CFG_timer, event := cfg F.CNV_CAP_CFG_event, post := cfg F.CNV_CAP_LEN_post,
          armedAt := s.tim.now, handBack := none, dac := [] } }
      (s.wr F.CNV_CAP_STAT_done 0 [i]).armCapture i)

/-- CAPTURE_TRIGGER: the firing of a timer, or the occurrence of an event, that the capture may wait for (R201, R202). -/
def execCaptureTrigger (trig : CapTrig) (s : State) : Out :=
  .next (match trig with
    | .timer n => s.captureTrigger 1 n
    | .event e => s.captureTrigger 2 e)

/-- The segment of slice i, in the rows of the capture buffer, drains: 8,192 check groups in the arbiter's class CAPTURE (R202, R405,
R408, R428). -/
def State.drainSegment (s : State) (i : Nat) : State :=
  ((s.memWrite 1 0 true).2.wr F.CNV_CAP_STAT_state 3 [i]).celAsk 5 (groupGrants 8192)

/-- CAPTURE_SEGMENT_FILLED: the segment moves from filling to draining (R202). -/
def execCaptureSegmentFilled (s : State) : Out :=
  .next (
    match s.capture.slice with
    | none => s
    | some i => if s.rd F.CNV_CAP_STAT_state [i] = 2 then s.drainSegment i else s)

/-- The capture of slice i ends: a segment being filled drains with what it holds, truncated (R204). -/
def State.stopCapture (s : State) (i : Nat) : State :=
  if s.capture.slice.map Fin.val = some i then
    let st := s.rd F.CNV_CAP_STAT_state [i]
    if st = 1 then s.endCapture i
    else
      let s := { s with capture := { s.capture with segs := s.rd F.CNV_CAP_STAT_done [i] + 1 } }
      if st = 2 then (s.drainSegment i).wr F.CNV_CAP_STAT_trunc 1 [i] else s
  else s

/-- CAPTURE_STOP (R204). -/
def execCaptureStop (i : Fin 8) (s : State) : Out := .next (s.stopCapture i)

end Sys2Proof.Machine
end

