-- ==== Sys2Proof/Machine/Blocks.lean ====
section
/-!
DEFINITION. The cellar as a store of blocks: its address map, when it serves, and reading and writing a block (R398, R400 to R403,
R407, R409 to R412).
-/

namespace Sys2Proof.Machine

/-! ### Address map (R402, R403, R405) -/

/-- Data bytes and MiB of the cellar: 16 Gb or 24 Gb devices. -/
def cellarBytes (dense : Bool) : Nat := if dense then 24253931520 else 16169287680
def cellarMib (dense : Bool) : Nat := cellarBytes dense / 2 ^ 20

/-- The cellar channel and check group of a block address (data address / 64). -/
def blockChannel (b : Nat) : Nat := b / 16 % 8
def blockGroup (b : Nat) : Nat := b / 128

/-- The DESKEW region in MiB for a value of dsk. -/
def deskewMib (dsk : Nat) : Nat := 64 * min 24 dsk

/-- The region of a block address: SPILL, ARCHIVE, JOURNAL, DESKEW, CAPTURE. -/
def regionOf (dsk b : Nat) : Nat :=
  let m := b / 2 ^ 14
  if m < 64 then 0 else if m < 128 then 1 else if m < 144 then 2 else if m < 144 + deskewMib dsk then 3 else 4

/-- Capture segments of 8 MiB (R405). -/
def captureSegs (dense : Bool) (dsk : Nat) : Nat := (cellarMib dense - 144 - deskewMib dsk) / 8

/-- The channels are in self-refresh: in DORMANT, and on the fallback oscillator (R401). -/
def State.celAsleep (s : State) : Bool := decide (s.mode = modeDormant) || s.bit F.TIM_CLK_STAT_on_fallback

/-- Accesses wait while the channels train at a new rate or a repair runs (R398, R419). -/
def State.celWaits (s : State) : Bool := s.cel.training || decide (s.rd F.CEL_PPR_CMD_status = 1)

/-- The cellar serves accesses: trained, not training, not under repair and not in self-refresh (R398, R400, R401, R419). -/
def State.celServes (s : State) : Bool :=
  s.bit F.CEL_STAT_avail && !s.celWaits && !s.celAsleep

/-! ### Stored blocks (R402, R409 to R412) -/

/-- A block of 68 zero symbols, which is a codeword. -/
def zeroBlock : List Nat := List.replicate 68 0

/-- The stored symbols of a block. -/
def State.stored (s : State) (b : Nat) : List Nat :=
  let d := tabGet [] s.cel.blocks b
  if d = [] then zeroBlock else d

/-- The line of a block is valid (R409). -/
def State.lineValid (s : State) (b : Nat) : Bool := tabGet false s.cel.lines (b / 8)

/-- A block stored as given, its line valid. -/
def State.putBlock (s : State) (b : Nat) (w : List Nat) : State :=
  { s with cel := { s.cel with blocks := tabPut [] s.cel.blocks b w, lines := tabPut false s.cel.lines (b / 8) true } }

/-- A write that reaches a line not yet valid fills it with zeros (R410). -/
def State.openLine (s : State) (b : Nat) : State :=
  if s.lineValid b then s
  else
    let s := { s with cel := { s.cel with
      blocks := s.cel.blocks.filter (fun e => decide (e.1 / 8 ≠ b / 8)),
      lines := tabPut false s.cel.lines (b / 8) true } }
    s.count 661 1

/-- The location of a block for CEL_ELOG: bank and row are free (notes/assumptions/2.md). DESIGN CHOICE (log 2). -/
def blockLoc (b : Nat) : Nat := (Config.cellarRow (blockGroup b)).toNat

/-- A corrected read is counted and logged (R411). -/
def State.celCorrected (s : State) (region ch loc : Nat) : State :=
  let s := s.count (576 + 8 * region + ch) 1
  ((s.wr F.CEL_ELOG_CE_ch ch).wr F.CEL_ELOG_CE_bank (loc / 2 ^ 17)).wr F.CEL_ELOG_CE_row loc

/-- A poisoned read is counted, logged and signalled (R412). -/
def State.celPoisoned (s : State) (region ch loc : Nat) : State :=
  let s := s.count (616 + 8 * region + ch) 1
  let s := ((s.wr F.CEL_ELOG_UE_ch ch).wr F.CEL_ELOG_UE_bank (loc / 2 ^ 17)).wr F.CEL_ELOG_UE_row loc
  s.raise 0x31 (region * 2 ^ 21 + ch * 2 ^ 18)

/-- The region of a block under the CEL_CFG in force. -/
def State.celRegion (s : State) (b : Nat) : Nat := regionOf (s.cur F.CEL_CFG_dsk) b

/-- Symbol errors, (symbol, error) pairs, that a read meets in a stored word. -/
def disturb (w : List Nat) : List (Nat × Nat) → List Nat
  | [] => w
  | (k, e) :: es => disturb (w.set k (w.getD k 0 ^^^ e % 256)) es

/-- Reads a block: result code of CEL_ACC_CMD, corrected symbol, data, and the state after correction and write-back
(R409, R411, R412). -/
def State.readBlock (s : State) (b : Nat) (errs : List (Nat × Nat)) : Nat × Nat × List Nat × State :=
  let region := s.celRegion b
  if !s.lineValid b then (3, 0, List.replicate 64 0, s.count (656 + region) 1)
  else
    let w := disturb (s.stored b) errs
    match rsDecode 4 w with
    | .clean => (0, 0, w.take 64, s)
    | .corrected k w => (1, k, w.take 64, (s.putBlock b w).celCorrected region (blockChannel b) (blockLoc b))
    | .poisoned => (2, 0, w.take 64, (s.putBlock b w).celPoisoned region (blockChannel b) (blockLoc b))

/-- The errors that a read meets in block b, of those listed by block address. -/
def errsAt (errs : List (Nat × Nat × Nat)) (b : Nat) : List (Nat × Nat) := (errs.filter fun e => decide (e.1 = b)).map Prod.snd

/-- Reads blocks in order: the blocks' data, how many were corrected, whether one was poisoned or in a line not valid, and the
state after it. -/
def State.readBlocks (s : State) (errs : List (Nat × Nat × Nat)) : List Nat → Tab (List Nat) × Nat × Bool × State
  | [] => ([], 0, false, s)
  | b :: bs =>
    let r := s.readBlock b (errsAt errs b)
    let q := State.readBlocks r.2.2.2 errs bs
    (tabPut [] q.1 b r.2.2.1, q.2.1 + b2n (decide (r.1 = 1)), q.2.2.1 || decide (2 ≤ r.1), q.2.2.2)

/-- The blocks of `n` bytes from data address `a` on. -/
def blocksOf (a n : Nat) : List Nat := (List.range ((a % 64 + n + 63) / 64)).map (a / 64 + ·)

/-- `n` bytes from data address `a` on, out of the data of their blocks. -/
def bytesAt (data : Tab (List Nat)) (a n : Nat) : List Nat :=
  (((blocksOf a n).flatMap fun b => tabGet [] data b).drop (a % 64)).take n

/-- Whole blocks from block b on, in whole check groups, which reach no line that they do not fill (R410). -/
def State.writeGroups (s : State) (b : Nat) (bytes : List Nat) : State :=
  forEach (fun k t =>
    let d := ((bytes.drop (64 * k)).take 64 ++ List.replicate 64 0).take 64
    t.putBlock (b + k) (d ++ rsCheck 4 d)) (List.range (16 * ((bytes.length + 1023) / 1024))) s

/-- A part of a check group that MAP writes, which it holds whole: the group's lines are valid; a block takes a new content from its
first byte on, and keeps the error of a stored one until then (R410, R412). DESIGN CHOICE (log 41). -/
def State.writeRing (s : State) (b off : Nat) (bytes : List Nat) : State :=
  let old := s.stored b
  let data := old.take 64
  let new := (data.take off ++ bytes ++ data.drop (off + bytes.length)).take 64
  let diff := List.zipWith (· ^^^ ·) data new
  let w := if off = 0 then new ++ rsCheck 4 new else List.zipWith (· ^^^ ·) old (diff ++ rsCheck 4 diff)
  let s := s.putBlock b w
  { s with cel := { s.cel with lines := tabPut false s.cel.lines (b / 8 ^^^ 1) true } }

/-- Bytes that MAP writes at data address `a`, over at most two blocks. -/
def State.writeRings (s : State) (a : Nat) (bytes : List Nat) : State :=
  let k := 64 - a % 64
  let s := s.writeRing (a / 64) (a % 64) (bytes.take k)
  if bytes.length ≤ k then s else s.writeRing (a / 64 + 1) 0 (bytes.drop k)

/-- Writes a whole block with computed check bytes (R410, R412). -/
def State.writeBlock (s : State) (b : Nat) (data : List Nat) : State :=
  (s.openLine b).putBlock b (data ++ rsCheck 4 data)

/-- Writes `bytes` at byte `off` of a block: a write of part of a poisoned block is discarded and counted (R410 to R412). -/
def State.writePart (s : State) (b off : Nat) (bytes : List Nat) : State :=
  let s := s.openLine b
  let old := s.stored b
  let put := fun (t : State) (w : List Nat) =>
    let d := (w.take 64).take off ++ bytes ++ (w.take 64).drop (off + bytes.length)
    t.putBlock b (d ++ rsCheck 4 d)
  match rsDecode 4 old with
  | .clean => put s old
  | .corrected _ w => put (s.celCorrected (s.celRegion b) (blockChannel b) (blockLoc b)) w
  | .poisoned => s.count (616 + 8 * s.celRegion b + blockChannel b) 1

end Sys2Proof.Machine
end

