-- ==== Sys2Proof/Machine/Codes.lean ====
section
/-!
DEFINITION. Bit strings and the codes that the manual gives in numbers: shift registers, cyclic checks, the extended
Golay code and the tendril's packet format (chapters 11 and 12). A bit string is a list, the first bit sent first.
-/

namespace Sys2Proof.Machine

/-- The `n` bits of a number, most significant first. -/
def toBits : Nat → Nat → List Bool
  | 0, _ => []
  | n + 1, v => decide (v / 2 ^ n % 2 = 1) :: toBits n v

/-- The number that a bit string spells, most significant bit first. -/
def ofBits (bs : List Bool) : Nat := bs.foldl (fun v b => 2 * v + (if b then 1 else 0)) 0

/-- Bytes as bits, each most significant bit first. -/
def byteBits (bs : List Nat) : List Bool := bs.flatMap (toBits 8)

/-- Parity of the bits of `r` that `taps` selects. -/
def parityOf (n r taps : Nat) : Bool := (toBits n (r &&& taps)).foldl xor false

/-- One step of a Fibonacci shift register of n stages; stage k is bit k - 1, the tap mask names the polynomial's
exponents, and the output bit is the last stage: output and next state. -/
def lfsrStep (n taps r : Nat) : Bool × Nat :=
  (decide (r / 2 ^ (n - 1) % 2 = 1), (2 * r + (if parityOf n r taps then 1 else 0)) % 2 ^ n)

/-- The first `k` output bits of the register from state `r`. -/
def lfsrBits (n taps : Nat) : Nat → Nat → List Bool
  | 0, _ => []
  | k + 1, r => (lfsrStep n taps r).1 :: lfsrBits n taps k (lfsrStep n taps r).2

/-- One bit into a cyclic check of `n` bits with polynomial `poly` (the leading term left out). -/
def crcStep (n poly c : Nat) (b : Bool) : Nat :=
  let top := decide (c / 2 ^ (n - 1) % 2 = 1)
  let c' := 2 * c % 2 ^ n
  if xor top b then c' ^^^ poly else c'

/-- The check over a bit string, from an initial value. -/
def crcBits (n poly init : Nat) (bs : List Bool) : Nat := bs.foldl (crcStep n poly) init

/-- CRC-32 of the IEEE 802.3 frame check sequence over a bit string (R282). -/
def fcs32 (bs : List Bool) : Nat := crcBits 32 0x04C11DB7 0xFFFFFFFF bs ^^^ 0xFFFFFFFF

/-- CRC-8 of SFC and of the serial, x^8 + x^2 + x + 1 (R310). -/
def crc8 (bs : List Bool) : Nat := crcBits 8 0x07 0 bs

/-- CRC-16 of the delay block, x^16 + x^12 + x^5 + 1 from 0xFFFF (R310). -/
def crc16 (bs : List Bool) : Nat := crcBits 16 0x1021 0xFFFF bs

/-! ### Spreading (R278 to R280) -/

/-- The spreading factor of a code: 256, 1,024, 4,096, 16,384 (R278). -/
def spreading (sf : Nat) : Nat := 2 ^ (8 + 2 * sf)

/-- Taps of the spreading polynomial of n stages, x^k at bit k - 1 (R279). -/
def spreadTaps (sf : Nat) : Nat := [0xB8, 0x240, 0x829, 0x2221].getD sf 0xB8

/-- The chip bits of a spread symbol (R279): N - 1 output bits from all ones, then 0. -/
def chipBits (sf : Nat) : List Bool :=
  lfsrBits (8 + 2 * sf) (spreadTaps sf) (spreading sf - 1) (2 ^ (8 + 2 * sf) - 1) ++ [false]

/-! ### Packets (R282 to R285) -/

/-- The 48 header bits (R282). -/
def headerBits (serial typ len seq : Nat) : List Bool :=
  toBits 24 serial ++ toBits 8 typ ++ toBits 8 len ++ toBits 6 seq ++ toBits 2 0

/-- Header and body of a packet, the body padded to whole groups of 12 bits (R282). -/
def packetBits (serial typ seq : Nat) (payload : List Nat) : List Bool :=
  let h := headerBits serial typ payload.length seq ++ byteBits payload
  let b := h ++ toBits 32 (fcs32 h)
  b ++ List.replicate ((12 - b.length % 12) % 12) false

/-- Codewords of a packet of L payload bytes (R283). -/
def codewords (l : Nat) : Nat := 4 + (8 * l + 32 + 11) / 12

/-- Length of a packet in spread symbols (R285). -/
def packetSymbols (l : Nat) : Nat := 64 + 27 * codewords l

/-- The extended Golay codeword of a 12-bit group (R283). -/
def golay (m : List Bool) : List Bool :=
  let p := toBits 11 (crcBits 11 0x475 0 m)
  let w := m ++ p
  w ++ [w.foldl xor false]

/-- Row k of the parity part of the Golay generator: the parity of the word with the one information bit k. -/
def golayRow (k : Nat) : Nat := ofBits ((golay ((List.range 12).map fun j => decide (j = k))).drop 12)

/-- A 12-bit word times the parity part, and times its transpose, which is its inverse: the code is self-dual. -/
def golayMul (v : Nat) : Nat :=
  ((List.range 12).filter fun k => decide (v / 2 ^ (11 - k) % 2 = 1)).foldl (fun r k => r ^^^ golayRow k) 0
def golayBack (v : Nat) : Nat := ofBits ((List.range 12).map fun j => parityOf 12 v (golayRow j))

/-- The ones among 12 bits. -/
def ones12 (v : Nat) : Nat := (toBits 12 v).count true

/-- The errors in the information bits of a received word of this syndrome, none where the word is four errors away from
every codeword that is nearest to it (R283, R291). -/
def golayError (syn : Nat) : Option Nat :=
  let back := golayBack syn
  let unit := fun k => 2 ^ (11 - k)
  if ones12 syn ≤ 3 then some 0
  else if ones12 back ≤ 3 then some back
  else match (List.range 12).find? fun k => decide (ones12 (syn ^^^ golayRow k) ≤ 2) with
    | some k => some (unit k)
    | none => ((List.range 12).find? fun k => decide (ones12 (back ^^^ golayBack (unit k)) ≤ 2)).map fun k =>
        back ^^^ golayBack (unit k)

/-- The information bits of a received Golay codeword, of which up to three bits are wrong; none for one that is
uncorrectable (R283, R291). DEDUCED (log 19). -/
def golayDecode (w : List Bool) : Option (List Bool) :=
  let u := ofBits (w.take 12)
  (golayError (golayMul u ^^^ ofBits (w.drop 12))).map fun e => toBits 12 (u ^^^ e)

/-- Groups of `n` bits. -/
def groupsOf {α : Type} (n : Nat) : Nat → List α → List (List α)
  | 0, _ => []
  | k + 1, bs => bs.take n :: groupsOf n k (bs.drop n)

/-- A block of codewords read column by column (R284). -/
def columns (rows : List (List Bool)) : List Bool :=
  (List.range 24).flatMap fun c => rows.map fun r => r.getD c false

/-- The coded bits of a packet, interleaved: block 0 is codewords 0 to 3, then blocks of up to 8 (R284). -/
def interleaved (ws : List (List Bool)) : List Bool :=
  columns (ws.take 4) ++ ((groupsOf 8 ((ws.length - 4 + 7) / 8) (ws.drop 4)).flatMap columns)

/-- The `r` codewords of a block read column by column (R284). -/
def rowsOf (r : Nat) (bs : List Bool) : List (List Bool) :=
  (List.range r).map fun j => (List.range 24).map fun c => bs.getD (c * r + j) false

/-- The codewords of `n` body codewords' coded bits (R284). -/
def bodyRows (n : Nat) (bs : List Bool) : List (List Bool) :=
  (groupsOf 192 ((n + 7) / 8) (bs.take (24 * n))).flatMap fun g => rowsOf (g.length / 24) g

/-- The coded bits among the spread symbols after the preamble: every ninth is a pilot (R285). -/
def withoutPilots (bs : List Bool) : List Bool := (groupsOf 9 (bs.length / 9) bs).flatMap fun g => g.take 8

/-- The header that the first four codewords spell, none where one of them is uncorrectable (R282, R291). -/
def headerOf (coded : List Bool) : Option (List Bool) := ((rowsOf 4 (coded.take 96)).mapM golayDecode).map List.flatten

/-- The body bits of `n` codewords; an uncorrectable one gives its bits as they came. DESIGN CHOICE (log 41). -/
def bodyOf (n : Nat) (coded : List Bool) : List Bool :=
  (bodyRows n (coded.drop 96)).flatMap fun w => (golayDecode w).getD (w.take 12)

/-- A pilot 0 after every 8 coded bits (R285). -/
def withPilots (bs : List Bool) : List Bool := (groupsOf 8 (bs.length / 8) bs).flatMap fun g => g ++ [false]

/-- The preamble: 48 zeros and the start word 0xE5A3 (R285). -/
def preamble : List Bool := toBits 64 0xE5A3

/-- The bits of all spread symbols of a packet, in the order sent (R285). -/
def packetSpread (serial typ seq : Nat) (payload : List Nat) : List Bool :=
  let bs := packetBits serial typ seq payload
  preamble ++ withPilots (interleaved ((groupsOf 12 (bs.length / 12) bs).map golay))

/-- A 24-bit payload word, most significant byte first (R293). -/
def wordBytes (n : Nat) : List Nat := [n / 2 ^ 16 % 256, n / 2 ^ 8 % 256, n % 256]

/-- Payload word k of a payload. -/
def payWord (body : List Nat) (k : Nat) : Nat :=
  body.getD (3 * k) 0 * 2 ^ 16 + body.getD (3 * k + 1) 0 * 2 ^ 8 + body.getD (3 * k + 2) 0

/-! ### The line frame (R305 to R308) -/

/-- The FAS (R305). -/
def fasWord : Nat := 0x3A5C96E10F4B

/-- The first `k` bits of the frame scrambler, x^23 + x^18 + 1 from all ones (R307). DEDUCED (log 18). -/
def scrambleBits (k : Nat) : List Bool := lfsrBits 23 0x420000 k (2 ^ 23 - 1)

/-- A frame with every bit from offset 48 scrambled; the same operation descrambles (R307). -/
def scramble (frame : List Bool) : List Bool :=
  frame.take 48 ++ List.zipWith xor (frame.drop 48) (scrambleBits (frame.length - 48))

/-- Bit i of the BIP-8 of a scrambled frame (R308): makes the count of ones even. -/
def bip8Bit (frame : List Bool) (i : Nat) : Bool :=
  ((List.range ((frame.length - 48 - i + 7) / 8)).map fun k => frame.getD (48 + i + 8 * k) false).foldl xor false

/-- The BIP-8 of a scrambled frame. -/
def bip8 (frame : List Bool) : List Bool := (List.range 8).map (bip8Bit frame)

end Sys2Proof.Machine
end

