-- ==== Sys2Proof/Machine/Candidates.lean ====
section
/-!
DEFINITION. What a reference candidate and the selector are, and a candidate's change of state (chapter 18, R436 to R448). The
choice of the selector stands in Time.lean.
-/

namespace Sys2Proof.Machine

/-- Candidates 0 to 15. -/
def candidates : List Nat := List.range 16

/-- TIM_CAND_STAT.state. -/
def candUnavailable : Nat := 1
def candDisqualified : Nat := 2
def candWtr : Nat := 3
def candQualified : Nat := 4
def candAlarm : Nat := 5

def State.candState (s : State) (i : Nat) : Nat := s.rd F.TIM_CAND_STAT_state [i]

/-- TIM_SEL_STAT.state. -/
def selFreeRun : Nat := 0
def selAcquiring : Nat := 1
def selLocked : Nat := 2
def selHoldOff : Nat := 3
def selLockedAlarm : Nat := 4
def selNotRunning : Nat := 7

def State.selState (s : State) : Nat := s.rd F.TIM_SEL_STAT_state

/-- Candidate i is the selected one. -/
def State.isSelected (s : State) (i : Nat) : Bool := s.tim.selValid && decide (s.rd F.TIM_SEL_STAT_sel = i)

/-- The yardstick of candidate i is REFCLK (R438). -/
def State.onRefclk (s : State) (i : Nat) : Bool :=
  !s.curBit F.TIM_CAND_CFG_yard [i] || !s.tim.selValid || s.isSelected i

/-- No measurement against REFCLK is made any more: the offsets read so (R441). -/
def State.unmeasured (s : State) : State :=
  forEach (fun i t => if t.onRefclk i then t.wr F.TIM_CAND_OFF_off 0x800000 [i] else t) candidates s

/-- QUALIFIED or ALARM. -/
def State.candGood (s : State) (i : Nat) : Bool := decide (s.candState i = candQualified ∨ s.candState i = candAlarm)

/-- Candidate i is locked out in TIM_SEL_LOCK. -/
def State.lockedOut (s : State) (i : Nat) : Bool := decide (s.rd F.TIM_SEL_LOCK_lock / 2 ^ i % 2 = 1)

/-- The condition of the command in force (R444): 1 FORCE, 2 MANUAL. -/
def State.cmdHolds (s : State) (code i : Nat) : Bool :=
  decide (s.cur F.TIM_CAND_CFG_prio [i] ≠ 0) &&
    (if code = 1 then decide (s.candState i ≠ candUnavailable) else s.candGood i && !s.lockedOut i)

/-- The command in force ends for its condition (R444). -/
def State.cmdFails (s : State) : State := (s.wr F.TIM_SEL_STAT_cmd 0).wr F.TIM_SEL_CMD_refused 1

/-- A candidate's state changes: the selector's state follows that of the selected candidate (R443, R451). -/
def State.candStep (s : State) (i st : Nat) : State :=
  let s := s.wr F.TIM_CAND_STAT_state st [i]
  let sel := s.selState
  if s.isSelected i then
    let code := s.rd F.TIM_SEL_STAT_cmd
    let held := decide (code ≠ 0) && s.cmdHolds code i
    if s.candGood i then
      if sel = selHoldOff then s.wr F.TIM_SEL_STAT_state selAcquiring
      else if sel = selLocked ∧ st = candAlarm then s.wr F.TIM_SEL_STAT_state selLockedAlarm
      else if sel = selLockedAlarm ∧ st = candQualified then s.wr F.TIM_SEL_STAT_state selLocked
      else s
    else if held then (if sel = selLockedAlarm then s.wr F.TIM_SEL_STAT_state selLocked else s)
    else
      let s := if code ≠ 0 then s.cmdFails else s
      if sel = selNotRunning then s else s.wr F.TIM_SEL_STAT_state selHoldOff
  else s

/-- The candidate of a source that is lost: UNAVAILABLE at once, whatever its state (R440, R448). -/
def State.candLost (s : State) (i : Nat) : State :=
  if s.candState i = candUnavailable then s
  else
    let s := (s.wr F.TIM_CAND_STAT_lost 1 [i]).wr F.TIM_CAND_OFF_off 0x800000 [i]
    (s.candStep i candUnavailable).raise 0x39 i

end Sys2Proof.Machine
end

