-- ==== Sys2Proof/Machine/Real.lean ====
section
/-!
DEFINITION. Real numbers in fixed point, in units of 2^-64: roots, exponential, logarithm, sine, cosine and arc tangent. The rules
of chapters 08 to 10 name real functions; their last digits here are the model's own. DESIGN CHOICE (log 17).
-/

namespace Sys2Proof.Machine

/-- Rounding of num/den to the nearest integer, ties away from zero (R205). -/
def roundAway (num : Int) (den : Nat) : Int :=
  if 0 ≤ num then ((2 * num.natAbs + den) / (2 * den) : Nat) else -((2 * num.natAbs + den) / (2 * den) : Nat)

/-- One of the two neighbours of num/den, where no rule states the rounding. DESIGN CHOICE (log 2). -/
def roundOpen (num : Int) (den : Nat) : Int :=
  num / den + (if num % den ≠ 0 ∧ Config.roundUp num den = true then 1 else 0)

/-- The whole part of a square root, bit by bit. -/
def isqrt (n : Nat) : Nat :=
  (List.range (Nat.log2 n / 2 + 1)).reverse.foldl (fun r k => if (r + 2 ^ k) ^ 2 ≤ n then r + 2 ^ k else r) 0

/-- One of the two neighbours of √n, where no rule states the rounding. DESIGN CHOICE (log 2). -/
def sqrtOpen (n : Nat) : Nat :=
  let r := isqrt n
  r + (if r ^ 2 ≠ n ∧ Config.roundUp n 2 = true then 1 else 0)

/-! ### Units of 2^-64 -/

def fxOne : Int := 2 ^ 64
def fxPi : Int := 57952155664616982739
def fxLn2 : Int := 12786308645202655660
def fxLn10 : Int := 42475197918399869020

def fxMul (a b : Int) : Int := a * b / 2 ^ 64
def fxDiv (a b : Int) : Int := a * 2 ^ 64 / b
def fxSqrt (a : Int) : Int := isqrt (a.toNat * 2 ^ 64)

/-- e^x: the Taylor series of the rest after whole powers of 2. -/
def fxExp (x : Int) : Int :=
  let k := x / fxLn2
  let r := x - k * fxLn2
  let v := (List.range 28).reverse.foldl (fun acc (n : Nat) => fxOne + fxMul r acc / (n + 1)) fxOne
  if 0 ≤ k then v * 2 ^ k.toNat else v / 2 ^ (-k).toNat

/-- ln x of a positive x: twice the series of artanh at (m - 1)/(m + 1), with m from 1 to 2. -/
def fxLn (x : Int) : Int :=
  let e := Nat.log2 x.toNat
  let m : Int := if 64 ≤ e then x / 2 ^ (e - 64) else x * 2 ^ (64 - e)
  let z := fxDiv (m - fxOne) (m + fxOne)
  let q := fxMul z z
  let s := (List.range 24).reverse.foldl (fun acc (n : Nat) => fxOne / (2 * n + 1) + fxMul q acc) 0
  2 * fxMul z s + ((e : Int) - 64) * fxLn2

/-- An angle brought between -π and π. -/
def fxTurn (θ : Int) : Int := θ - 2 * fxPi * roundAway θ (2 * fxPi).toNat

/-- cos θ and sin θ, by their Taylor series. -/
def fxCos (θ : Int) : Int :=
  let q := fxMul (fxTurn θ) (fxTurn θ)
  (List.range 20).reverse.foldl (fun acc (n : Nat) => fxOne - fxMul q acc / ((2 * n + 1) * (2 * n + 2))) fxOne
def fxSin (θ : Int) : Int :=
  let q := fxMul (fxTurn θ) (fxTurn θ)
  fxMul (fxTurn θ) ((List.range 20).reverse.foldl (fun acc (n : Nat) => fxOne - fxMul q acc / ((2 * n + 2) * (2 * n + 3))) fxOne)

/-- arctan t of t from -1 to 1: the angle is halved three times, and then its series. -/
def fxAtan (t : Int) : Int :=
  let half := fun (v : Int) => fxDiv v (fxOne + fxSqrt (fxOne + fxMul v v))
  let v := half (half (half t))
  let q := fxMul v v
  8 * fxMul v ((List.range 24).reverse.foldl (fun acc (n : Nat) => fxOne / (2 * n + 1) - fxMul q acc) 0)

/-- The angle of (x, y), from -π to π; that of (0, 0) is 0. -/
def fxAtan2 (y x : Int) : Int :=
  if x = 0 ∧ y = 0 then 0
  else if y.natAbs ≤ x.natAbs then
    let a := fxAtan (fxDiv y x)
    if 0 ≤ x then a else if 0 ≤ y then a + fxPi else a - fxPi
  else (if 0 ≤ y then fxPi / 2 else -(fxPi / 2)) - fxAtan (fxDiv x y)

/-- 10 log10 of a ratio of positive numbers. -/
def fxDb (num den : Nat) : Int := fxDiv (10 * (fxLn (num * fxOne) - fxLn (den * fxOne))) fxLn10

/-- The amplitude factor 10^(g/20) of a gain in dB. -/
def fxAmplitude (g : Int) : Int := fxExp (fxMul g fxLn10 / 20)

/-! ### The complementary error function, in units of 2^-256 (R277) -/

/-- erfc x = 1 - 2/√π (x - x^3/3 + x^5/(2! 5) - …), for x from 0 to 8. -/
def erfc256 (x : Int) : Int :=
  let one : Int := 2 ^ 256
  let q := x * x / one
  let s := (List.range 400).foldl (fun (acc : Int × Int) (n : Nat) =>
    (acc.1 + acc.2 / (2 * n + 1), -(acc.2 * q / one / (n + 1)))) (0, x)
  one - 130657381209852114387528029350014196574164286124850014242073919076264802271586 * s.1 / one

/-- The x from 0 to 8 with erfc x = v: half an interval at a time. -/
def erfcInv256 (v : Int) : Int :=
  (List.range 260).foldl (fun (x : Int) (k : Nat) =>
    let y := x + 2 ^ (259 - k) / 2
    if v ≤ erfc256 y then y else x) 0

end Sys2Proof.Machine
end

