-- ==== Sys2Proof/Machine/Signal.lean ====
section
/-!
DEFINITION. The numbers of a slice's signal that both directions share: C24 arithmetic, constellations and their labels,
pilots, the tendril waveform and the geometry of a block (R205, R235 to R241, R253 to R255, R278 to R281).
-/

namespace Sys2Proof.Machine

/-! ### C24 arithmetic (R205) -/

/-- A C24 component num/den in Q2.10: rounded, then saturated to 12 bits; the flag is saturation (R205). -/
def toQ210 (num : Int) (den : Nat) : Int × Bool :=
  let r := roundAway (1024 * num) den
  (clampInt (-2048) 2047 r, decide (r < -2048 ∨ 2047 < r))

def Cx.add (a b : Cx) : Cx := ⟨a.re + b.re, a.im + b.im⟩
def Cx.sub (a b : Cx) : Cx := ⟨a.re - b.re, a.im - b.im⟩
def Cx.mul (a b : Cx) : Cx := ⟨a.re * b.re - a.im * b.im, a.re * b.im + a.im * b.re⟩
def Cx.conj (a : Cx) : Cx := ⟨a.re, -a.im⟩
def Cx.scale (k : Int) (a : Cx) : Cx := ⟨k * a.re, k * a.im⟩
/-- The power of a complex value. -/
def Cx.power (a : Cx) : Nat := a.re.natAbs ^ 2 + a.im.natAbs ^ 2

/-- The sum of a list of complex values. -/
def cxSum (l : List Cx) : Cx := l.foldl Cx.add ⟨0, 0⟩

/-- The C24 value of v/den, and how many of its components saturate (R205). -/
def c24 (v : Cx) (den : Nat) : Cx × Nat :=
  let a := toQ210 v.re den
  let b := toQ210 v.im den
  (⟨a.1, b.1⟩, b2n a.2 + b2n b.2)

/-- The C24 value of both polarisations. -/
def dual24 (d : Dual) (den : Nat) : Dual × Nat :=
  let a := c24 d.x den
  let b := c24 d.y den
  (⟨a.1, b.1⟩, a.2 + b.2)

/-- Samples between two stages, with the components that have saturated so far. -/
abbrev Signal := List Dual × Nat

/-- A stage's results, num/den each, become C24; the saturations of the first `own` count (R205). -/
def Signal.round (x : Signal) (own : Nat) (f : List Dual → List Dual) (den : Nat) : Signal :=
  let r := (f x.1).map fun d => dual24 d den
  (r.map Prod.fst, x.2 + ((r.take own).map Prod.snd).sum)

/-- Two polarisations as one list. -/
def dualOf (xs ys : List Cx) : List Dual := List.zipWith Dual.mk xs ys

/-! ### Angles and levels -/

/-- exp(-jθ) for θ in 2^-16 rad, in units of 2^-30. -/
def rotor (θ : Int) : Cx := ⟨roundAway (fxCos (θ * 2 ^ 48)) (2 ^ 34), -roundAway (fxSin (θ * 2 ^ 48)) (2 ^ 34)⟩

/-- The angle of a complex value in 2^-16 rad, from -π to π. -/
def angle (v : Cx) : Int := roundAway (fxAtan2 v.im v.re) (2 ^ 48)

/-- The phase in 2^-16 rad that a carrier offset in Hz turns through in n symbols (R217). -/
def spin (freq : Int) (baud n : Nat) : Int := roundAway (freq * n * 2 * fxPi) (baudOf baud * 10 ^ 9 * 2 ^ 48)

/-- A power ratio in 1/64 dB, free where one of the powers is 0 (R216, R220, R233). -/
def ratioDb (num den : Nat) : Int :=
  if num = 0 ∨ den = 0 then (Config.ratioOpen num den).toInt else roundOpen (64 * fxDb num den) (2 ^ 64)

/-! ### Constellations (R235 to R238) -/

/-- Pilot period by code: 3 acts as 2 (R217, RXD_MODE_CFG). -/
def pilotOf (c : Nat) : Nat := if c = 0 then 32 else if c = 1 then 64 else 128

/-- The constellation that a code acts as: codes 5 to 7 act as 0. -/
def constActs (c : Nat) : Nat := if c ≤ 4 then c else 0

/-- The entropy that a value acts as for constellation c: the nearest end of the range of a PCS format. -/
def entropyActs (c e : Nat) : Nat :=
  if c = 3 then (clampInt 128 255 e).toNat else if c = 4 then (clampInt 192 383 e).toNat else e

/-- A mode word holds a value that acts as another (RXD_EVT.mode_bad, R235). -/
def modeBad (c e p : Nat) : Bool := decide (4 < c) || decide (entropyActs (constActs c) e ≠ e) || decide (p = 3)

/-- A format is shaped: PCS over 16-QAM or over 64-QAM. -/
def isPcs (c : Nat) : Bool := decide (constActs c = 3 ∨ constActs c = 4)

/-- Label bits of one polarisation's data symbol, m of R236. -/
def labelBits (c : Nat) : Nat := if constActs c = 0 then 2 else if constActs c = 1 ∨ constActs c = 3 then 4 else 6

/-- Amplitude of a 16-QAM amplitude label bit, and of a 64-QAM pair with the more significant bit first (R236). -/
def amp16 (b : Bool) : Int := if b then 3 else 1
def amp64 : Bool → Bool → Int
  | false, false => 1
  | false, true => 3
  | true, true => 5
  | true, false => 7

/-- The sign of a label bit: 0 is positive. -/
def signOf (b : Bool) : Int := if b then -1 else 1

/-- The point (I, Q) of one polarisation's label, before scaling (R236). -/
def labelPoint (c : Nat) (b : List Bool) : Int × Int :=
  let g := fun k => b.getD k false
  let sI := signOf (g 0)
  let sQ := signOf (g 1)
  if labelBits c = 2 then (sI, sQ)
  else if labelBits c = 4 then (sI * amp16 (g 2), sQ * amp16 (g 3))
  else (sI * amp64 (g 2) (g 3), sQ * amp64 (g 4) (g 5))

/-- Amplitude label bits of an amplitude: one bit for 16-QAM, two for 64-QAM (R236). -/
def ampLabel (c a : Nat) : List Bool :=
  if labelBits c = 4 then [decide (a = 3)] else [decide (5 ≤ a), decide (a = 3 ∨ a = 5)]

/-- The mean power of a uniform constellation before scaling: 2, 10 or 42. -/
def meanPower (c : Nat) : Nat := if labelBits c = 2 then 2 else if labelBits c = 4 then 10 else 42

/-- The amplitude set of a PCS format (R255): {1, 3, 5, 7} for 64-QAM, {1, 3} for 16-QAM. -/
def ampSet (c : Nat) : List Nat := if constActs c = 4 then [1, 3, 5, 7] else [1, 3]

/-- The sums of exp(-ν a^2) and of a^2 exp(-ν a^2) over the amplitudes of a component (R238). -/
def boltzmann (amps : List Nat) (ν : Int) : Int × Int :=
  let w := fun (a : Nat) => fxExp (-(ν * (a * a : Nat)))
  ((amps.map w).sum, (amps.map fun a => (a * a : Nat) * w a).sum)

/-- The entropy in bits of the points of one polarisation: twice that of a component, a sign bit and an amplitude, whose nats
are ln Σ + ν E(a^2) (R238). -/
def shapedEntropy (amps : List Nat) (ν : Int) : Int :=
  let z := boltzmann amps ν
  2 * (fxOne + fxDiv (fxLn z.1 + fxMul ν (fxDiv z.2 z.1)) fxLn2)

/-- ν of the Maxwell-Boltzmann distribution whose entropy is e/64 bits: the entropy falls as ν rises, and an interval from 0 to
64 is halved (R238). -/
def shapedNu (c e : Nat) : Int :=
  (List.range 70).foldl (fun (x : Int) (k : Nat) =>
    let y := x + 2 ^ (69 - k)
    if (entropyActs (constActs c) e : Int) * 2 ^ 58 ≤ shapedEntropy (ampSet c) y then y else x) 0

/-- The component of amplitude a of a PCS format in C24 units: a √(0.125 / E(a^2)) under the distribution in force, rounded to the
nearest value (R205, R237, R238). -/
def shapedLevel (c e a : Nat) : Nat :=
  let z := boltzmann (ampSet c) (shapedNu c e)
  (roundAway (1024 * a * fxSqrt (fxDiv (fxOne / 8) (fxDiv z.2 z.1))) (2 ^ 64)).toNat

/-- The size of the component of amplitude a, in C24 units: mean power 0.25 under the distribution in force, rounded to the
nearest value (R205, R237). 512 a / √E is rounded by an exact integer square root. -/
def componentLevel (c e a : Nat) : Nat :=
  if isPcs c then shapedLevel c e a
  else (isqrt (4 * (512 * a) ^ 2 / meanPower c) + 1) / 2

/-- A component of a point, scaled. -/
def scaledComponent (c e : Nat) (v : Int) : Int :=
  if v < 0 then -(componentLevel c e v.natAbs : Int) else componentLevel c e v.natAbs

/-- The C24 point of one polarisation's label (R236, R237). -/
def mappedPoint (c e : Nat) (b : List Bool) : Cx :=
  let p := labelPoint c b
  ⟨scaledComponent c e p.1, scaledComponent c e p.2⟩

/-! ### Pilots (R239, R240) -/

/-- A symbol position of the superframe that carries a pilot (R239). -/
def isPilot (pos period : Nat) : Bool := decide (pos % period = 0)

/-- One step of the PRBS-31 generator x^31 + x^28 + 1 (R240): the output bit and the next state. -/
def prbs31 (r : BitVec 31) : Bool × BitVec 31 :=
  let b := xor (r.getLsbD 30) (r.getLsbD 27)
  (b, (r <<< 1) ||| (if b then 1#31 else 0#31))

/-- The first n output bits of the generator from a state. -/
def prbs31Bits : Nat → BitVec 31 → List Bool
  | 0, _ => []
  | n + 1, r => (prbs31 r).1 :: prbs31Bits n (prbs31 r).2

/-- The generator state loaded at the first symbol of each superframe: X or Y (R240). -/
def pilotSeed (y : Bool) : BitVec 31 := if y then 0x2AAAAAAA#31 else 0x7FFFFFFF#31

/-- The (I, Q) signs of pilot n of the superframe (R240). -/
def pilotPoint (y : Bool) (n : Nat) : Int × Int :=
  let bs := prbs31Bits (2 * n + 2) (pilotSeed y)
  (signOf (bs.getD (2 * n) false), signOf (bs.getD (2 * n + 1) false))

/-- The pilot at a symbol position as a C24 value of power 0.25, the power of a QPSK point (R240). -/
def pilotAt (y : Bool) (period pos : Nat) : Cx :=
  let p := pilotPoint y (pos / period)
  ⟨scaledComponent 0 0 p.1, scaledComponent 0 0 p.2⟩

/-- Symbols of a superframe: 4,194,304 R (R231, R280). -/
def superframeSymbols (baud : Nat) : Nat := 4194304 * baudOf baud

/-! ### The tendril waveform (R278 to R281) -/

/-- One chip of a spread symbol that carries a bit: +1 or -1 (R279). -/
def chipSign (sf : Nat) (bit : Bool) (k : Nat) : Int := signOf (xor bit ((chipBits sf).getD k false))

/-- The shaped waveform of one spread symbol at its symbol period n, which may lie outside it: every chip impulse, in the
middle of its 64 symbol periods, through the symmetric FIR of 256 taps (R281). DEDUCED (log 19). -/
def spreadWave (filt : Nat → Int) (sf : Nat) (bit : Bool) (n : Int) : Int :=
  ((List.range (spreading sf)).map fun (k : Nat) =>
    let d := n - (64 * (k : Int) + 32)
    let j := if 0 ≤ d then d.toNat else (-d - 1).toNat
    if j < 128 then chipSign sf bit k * filt j else 0).sum

/-- Symbol positions from a to b round the superframe of length len, as the shorter signed distance. -/
def posDiff (len a b : Nat) : Int :=
  let d := (b + len - a % len) % len
  if 2 * d < len then d else (d : Int) - len

/-! ### Blocks and label positions (R225, R253) -/

/-- Data symbols of one LLR block of 24,576 values (R225, R253). -/
def blockSymbols (c : Nat) : Nat := 24576 / (2 * labelBits c)

/-- Amplitude positions A of a block (R253). -/
def ampPositions (c : Nat) : Nat := if labelBits c = 2 then 0 else if labelBits c = 4 then 12288 else 16384

/-- The codeword position of label bit b of polarisation y of data symbol k of a block: the sign list after the amplitude
list (R253). -/
def codewordPlace (c k : Nat) (y : Bool) (b : Nat) : Nat :=
  if b < 2 then ampPositions c + 4 * k + 2 * b2n y + b
  else (2 * (labelBits c - 2)) * k + (labelBits c - 2) * b2n y + (b - 2)

/-- A block's label bits in output order: the label of X, then of Y, of each data symbol (R236). -/
def labelOrder (c : Nat) : List (Nat × Bool × Nat) :=
  (List.range (blockSymbols c)).flatMap fun k => [false, true].flatMap fun y => (List.range (labelBits c)).map fun b => (k, y, b)

/-- Codeword bits in the order of the encoded stream (R236, R253). -/
def toLabels (c : Nat) (w : List Bool) : List Bool :=
  (labelOrder c).map fun p => w.getD (codewordPlace c p.1 p.2.1 p.2.2) false

/-- Values in output order put into codeword order (R253): the value of codeword position n is the one whose label bit has
that position. -/
def toCodeword (c : Nat) (vs : List Int) : List Int :=
  let m := labelBits c
  (List.range 24576).map fun n =>
    let p := if ampPositions c ≤ n then
        let r := n - ampPositions c
        2 * m * (r / 4) + m * (r / 2 % 2) + r % 2
      else
        let r := n
        2 * m * (r / (2 * (m - 2))) + m * (r / (m - 2) % 2) + 2 + r % (m - 2)
    vs.getD p 0

end Sys2Proof.Machine
end

