-- ==== Sys2Proof/Machine/Receive.lean ====
section
/-!
DEFINITION. Receive equalisation and carrier recovery: the scan of the bulk compensator, the equaliser's taps, and the
acquisition state machine (chapter 08, R206 to R233). What RXD does with the samples of a block stands in Chain.lean.
-/

namespace Sys2Proof.Machine

/-! ### The bulk compensator (R207 to R209) -/

/-- CD range by symbol rate code in ps/nm, at 1,550 nm (R207). -/
def cdRange (c : Nat) : Nat := [454300, 201900, 113500, 72600, 50400, 40800, 33700, 28300].getD c 28300

/-- The whole ps/nm of the range at a wavelength λ in pm: it scales by (1,550 nm / λ)^2 (R207). -/
def cdRangeAt (pm c : Nat) : Int := ((cdRange c * 1550000 ^ 2 / pm ^ 2 : Nat) : Int)

/-- The bulk value that a configured value acts as at a wavelength in pm (R207). -/
def cdActs (pm baud : Nat) (cd : Int) : Int := clampInt (-(cdRangeAt pm baud)) (cdRangeAt pm baud) cd

/-- The interval of a scan, clipped by the compensator's range; a local scan lies about the value that cd acts as (R207, R208). -/
def cdInterval (pm baud mode : Nat) (cd span : Int) : Int × Int :=
  let mid := if mode = 2 then cdActs pm baud cd else 0
  (cdActs pm baud (mid - span), cdActs pm baud (mid + span))

/-- Coarse candidates of a scan interval, `step` apart (R208). -/
def cdCandidates (lo hi : Int) (step : Nat) : Nat := (hi - lo).toNat / step + 1

/-- Length of a scan in samples: the coarse candidates and 65 more, 2^16 samples each (R208). -/
def cdScanSamples (n : Nat) : Nat := (n + 65) * 65536

/-- The first of the `n` candidates with the greatest metric (R208). -/
def bestMetric (n : Nat) (m : List Nat) : Nat :=
  (List.range n).foldl (fun b k => if m.getD b 0 < m.getD k 0 then k else b) 0

/-- The result of a scan: the best coarse candidate, then the best of 65 candidates step/64 apart about it, then `peak`,
the interpolation of the metric to 1 ps/nm, which lies between the neighbours of that candidate and in the interval (R208).
DEDUCED (log 18). The coarse candidates lie upward from the low end of the clipped interval, where its width is no multiple of
the step. DESIGN CHOICE (log 41). -/
def cdScan (iv : Int × Int) (step : Nat) (coarse fine : List Nat) (peak : Int) : Int :=
  let c := iv.1 + (step : Int) * bestMetric (cdCandidates iv.1 iv.2 step) coarse
  let at64 := fun (k : Int) => 64 * c + (k - 32) * step
  let j : Int := bestMetric 65 fine
  clampInt iv.1 iv.2 (clampInt (at64 (max 0 (j - 1)) / 64) (-(-(at64 (min 64 (j + 1))) / 64)) peak)

/-! ### The equaliser's taps (R212 to R216) -/

/-- Equaliser taps by code (R212). -/
def eqTaps (c : Nat) : Nat := [23, 31, 47, 63].getD c 63

/-- The equaliser of n taps undoes a DGD in fs with a residual dispersion in ps/nm: DGD × R and |ΔCD| × 8.0137e-6 × R^2 symbol
periods together are (n - 7) / 2.5 at most (R212). -/
def spreadFits (n baud dgd : Nat) (resid : Int) : Bool :=
  decide (dgd * baudOf baud * 10 ^ 4 + resid.natAbs * 80137 * baudOf baud ^ 2 ≤ (n - 7) * (4 * 10 ^ 9))

/-- Step exponents k_cma and k_lms (R213). -/
def stepExp (mu : Nat) : Nat := mu + 8

/-- A filter of n taps from one of another odd length: the common taps about the centre, zeros outside (R216). -/
def resizeTaps (n : Nat) (h : List Cx) : List Cx :=
  (List.range n).map fun k => if n / 2 ≤ k + h.length / 2 then h.getD (k + h.length / 2 - n / 2) ⟨0, 0⟩ else ⟨0, 0⟩

/-- On entry to BLIND: hxx and hyy a unit centre tap, hxy and hyx zero, in units of 2^-44 (R213). -/
def unitTaps (n : Nat) : List (List Cx) :=
  let u := resizeTaps n [⟨2 ^ 44, 0⟩]
  let z := resizeTaps n []
  [u, z, z, u]

/-- Time reversal and conjugation of a filter. -/
def reversedConj (h : List Cx) : List Cx := h.reverse.map Cx.conj

/-- The correction of a singularity: hyx and hyy from hxy and hxx, negated in hyx (R215). -/
def fixSingular (t : List (List Cx)) : List (List Cx) :=
  let h := fun k => t.getD k []
  [h 0, h 1, (reversedConj (h 1)).map (Cx.scale (-1)), reversedConj (h 0)]

/-! ### The acquisition state machine (R225 to R232) -/

def acqIdle : Nat := 0
def acqSignal : Nat := 1
def acqCd : Nat := 2
def acqClock : Nat := 3
def acqBlind : Nat := 4
def acqPilotSync : Nat := 5
def acqCarrier : Nat := 6
def acqTrack : Nat := 7
def acqHold : Nat := 8

/-- RXD_ACQ_STAT.state of slice i. -/
def State.acq (s : State) (i : Nat) : Nat := s.rd F.RXD_ACQ_STAT_state [i]

/-- The symbol rate code of slice i's receiver in force. -/
def State.rxBaud (s : State) (i : Nat) : Nat := s.rxdv F.RXD_MODE_CFG_baud i

/-- The adaptive state of slice i's receive chain. -/
def State.dsp1 (s : State) (i : Nat) : Dsp := (s.rx1 i).dsp
def State.setDsp (s : State) (i : Nat) (d : Dsp) : State := s.setRx i { s.rx1 i with dsp := d }

/-- The block alignment of a slice that leaves TRACK (R260). -/
def State.syncNone (s : State) (i : Nat) : State :=
  (s.wr F.FEC_STAT_sync 0 [i]).setAlign i Align.fresh

/-- Monitor taps measured in a state (R233). -/
def tapMeasured (t st : Nat) : Bool :=
  match t with
  | 0 | 1 | 2 | 11 => decide (st = 6 ∨ st = 7)
  | 3 | 5 => decide (3 ≤ st ∧ st ≤ 7)
  | 4 | 8 | 9 => decide (4 ≤ st ∧ st ≤ 7)
  | 6 | 7 => decide (1 ≤ st ∧ st ≤ 8)
  | 10 | 12 => decide (st = 7)
  | _ => false

/-- The framer goes out of frame: multiframe alignment and the received superframe count end with it (R317, R318, R320). -/
def State.frameOut (s : State) (i : Nat) : State :=
  let l := s.lfr1 i
  let s := if s.rd F.LFR_STAT_state [i] = 2 then s.count (464 + 8 * i + 3) 1 else s
  let s := ((s.wr F.LFR_STAT_state 0 [i]).wr F.LFR_STAT_im 0 [i]).wr F.LFR_STAT_sf_ok 0 [i]
  s.setLfr i { l with cand := none, badFas := 0, lastMf := none, badMf := 0, imSeen := false, noIm := 0, sfc := none,
                      sfcBad := 0, rdiRun := 0, rdiOk := 0 }

/-- No monitor tap of slice i is measured (R233). -/
def State.clearTaps (s : State) (i : Nat) : State :=
  forEach (fun t u => u.wr F.RXD_MON_value 0x800000 [i, t]) (List.range 16) s

/-- What a new acquisition state does to the chain: its limit counts from now, runs of frames start again, and BLIND begins
with unit centre taps (R213, R227). -/
def State.enterDsp (s : State) (i st : Nat) : State :=
  let d := { s.dsp1 i with since := s.tim.now, low := (0, 0), good := 0, offset := decide (st ≠ acqCarrier) && (s.dsp1 i).offset }
  s.setDsp i (if st = acqBlind then { d with taps := unitTaps (eqTaps (s.cur F.RXD_EQ_CFG_taps [i])) } else d)

/-- The slice enters an acquisition state. Leaving TRACK raises RXD_LOST unless the slice goes to IDLE, block alignment falls
to NONE, the framer out of frame, and the recovered clock is no candidate; in IDLE no tap is measured (R211, R232, R233,
R260, R317). -/
def State.toAcq (s : State) (i st : Nat) : State :=
  let was := s.acq i
  let s := s.wr F.RXD_ACQ_STAT_state st [i]
  let s := s.wr F.RXD_ACQ_STAT_los (if st = acqHold then 1 else 0) [i]
  let s := if st ≤ acqCd then s.setRx i { s.rx1 i with posSet := false } else s
  let s := if was = acqCd then s.setRx i { s.rx1 i with fullScan := false } else s
  let s := s.enterDsp i st
  let s := if st = acqIdle then s.clearTaps i else s
  if was = acqTrack ∧ st ≠ acqTrack then
    let s := ((s.syncNone i).frameOut i).candLost (4 + i)
    if st = acqIdle then s else s.raise 0x19 (i * 2 ^ 21)
  else s

/-- The slice becomes LIT: SIGNAL, with the fails count of this LIT at 0. -/
def State.acqLit (s : State) (i : Nat) : State :=
  ((s.setRx i { Rx.fresh with linkRate := s.rxBaud i }).wr F.RXD_ACQ_STAT_fails 0 [i]).toAcq i acqSignal

/-- Acquisition restarts from SIGNAL from any state except IDLE (R230). -/
def State.acqRestart (s : State) (i : Nat) : State := if s.acq i = acqIdle then s else s.toAcq i acqSignal

/-- CD is entered: a new acquisition. -/
def State.enterCd (s : State) (i : Nat) : State :=
  let s := s.toAcq i acqCd
  s.setRx i { s.rx1 i with singulars := 0 }

/-- A state ends acquisition as a failure: CD again, which after a failure in mode 2 scans as mode 1 (R227). -/
def State.acqFail (s : State) (i : Nat) : State :=
  let s := (s.addSat F.RXD_ACQ_STAT_fails 1 255 [i]).wr F.RXD_EVT_acq_fail 1 [i]
  let s := s.enterCd i
  if s.cur F.RXD_CD_SCAN_mode [i] = 2 then s.setRx i { s.rx1 i with fullScan := true } else s

/-- Nanoseconds since slice i entered its acquisition state, or since BLIND's limit restarted (R215, R227). -/
def State.acqNs (s : State) (i : Nat) : Nat := (s.tim.now - (s.dsp1 i).since).toNat / 2 ^ 32

/-- The limit of an acquisition state in ns, none where the table gives no time (the table "Acquisition states"). -/
def acqLimit (st : Nat) : Option Nat :=
  if st = acqBlind then some 2000000
  else if st = acqClock ∨ st = acqPilotSync ∨ st = acqCarrier ∨ st = acqHold then some 1000000
  else none

/-- The limit of slice i's acquisition state has passed. -/
def State.acqOver (s : State) (i : Nat) : Bool := (acqLimit (s.acq i)).any fun n => decide (n ≤ s.acqNs i)

/-- A move of the state machine that is made only from one state. -/
def State.acqMove (s : State) (i frm dest : Nat) : State := if s.acq i = frm then s.toAcq i dest else s

/-- The mode of the scan that this CD state makes: 3 acts as 1, and after a failure mode 2 scans as mode 1 (R208, R227). -/
def State.scanMode (s : State) (i : Nat) : Nat :=
  let m := s.cur F.RXD_CD_SCAN_mode [i]
  if m = 3 then 1 else if m = 2 ∧ (s.rx1 i).fullScan = true then 1 else m

/-- The configured bulk value. -/
def State.cdConfigured (s : State) (i : Nat) : Int := toSigned 24 (s.cur F.RXD_CD_CFG_cd [i])

/-- The interval and the coarse step of slice i's scan: span and step 0 act as 1 (R208). -/
def State.scanInterval (s : State) (i : Nat) : Int × Int :=
  cdInterval (Config.carrierPm i) (s.rxBaud i) (s.scanMode i) (s.cdConfigured i) (1000 * (max 1 (s.cur F.RXD_CD_SCAN_span [i]) : Nat))
def State.scanStep (s : State) (i : Nat) : Nat := 10 * max 1 (s.cur F.RXD_CD_SCAN_step [i])

/-- The scan of slice i has run its length; a fixed value has none (R208). -/
def State.scanDone (s : State) (i : Nat) : Bool :=
  let iv := s.scanInterval i
  decide (s.scanMode i = 0) ||
    decide (cdScanSamples (cdCandidates iv.1 iv.2 (s.scanStep i)) ≤ instantsIn (s.rxBaud i) (s.tim.now - (s.dsp1 i).since))

/-- The bulk value that CD ends with: the configured value in mode 0, else the scan's result (R207, R208). -/
def State.bulkValue (s : State) (i : Nat) (coarse fine : List Nat) (peak : Int) : Int :=
  if s.scanMode i = 0 then cdActs (Config.carrierPm i) (s.rxBaud i) (s.cdConfigured i)
  else cdScan (s.scanInterval i) (s.scanStep i) coarse fine peak

/-- Block alignment enters SEARCH with hypothesis 0 on TRACK (R260). -/
def State.syncSearch (s : State) (i : Nat) : State :=
  ((s.wr F.FEC_STAT_sync 1 [i]).wr F.FEC_STAT_hyp 0 [i]).setAlign i Align.fresh

/-! ### Commits and the receiver -/

/-- The configured CD value of slice i lies beyond the range of its symbol rate (R207). -/
def State.cdBeyond (s : State) (i : Nat) : Bool :=
  decide (cdActs (Config.carrierPm i) (s.cur F.RXD_MODE_CFG_baud [i]) (s.cdConfigured i) ≠ s.cdConfigured i)

/-- A mode value in force at the receiver of slice i that acts as another sets mode_bad (R235). -/
def State.rxMode (s : State) (i : Nat) : State :=
  if modeBad (s.cur F.RXD_MODE_CFG_const [i]) (s.cur F.RXD_MODE_CFG_entropy [i]) (s.cur F.RXD_MODE_CFG_pilot [i])
  then s.wr F.RXD_EVT_mode_bad 1 [i] else s

/-- The receiver of slice i starts to work with the values in force: cd_clamp and mode_bad (R207, R235). DEDUCED (log 18). -/
def State.rxCheck (s : State) (i : Nat) : State :=
  (if s.cdBeyond i then s.wr F.RXD_EVT_cd_clamp 1 [i] else s).rxMode i

/-- The equaliser's filters take the length in force (R216). -/
def State.resizeEq (s : State) (i : Nat) : State :=
  let d := s.dsp1 i
  let n := eqTaps (s.cur F.RXD_EQ_CFG_taps [i])
  s.setDsp i { d with taps := d.taps.map (resizeTaps n) }

/-- What a commit does at its boundary to the receiver of slice i beside the agreed settings: cd_clamp where it brings a
value beyond the range into force, mode_bad, and the equaliser's length; on a DARK slice nothing sets a kept bit (R53, R207,
R216, R235). `old` is the outgoing CURRENT. -/
def State.rxCommit (s : State) (old : Tab Nat) (i : Nat) : State :=
  let ch := fun (f : Fld) => decide (imgGet old f [i] ≠ s.cur f [i])
  if s.sliceState i = slDark then s
  else
    let s := if ch F.RXD_EQ_CFG_taps then s.resizeEq i else s
    if ch F.RXD_CD_CFG_cd || ch F.RXD_MODE_CFG_baud then s.rxCheck i else s.rxMode i

/-- A field of slice i that RXD reads otherwise once it works with image `img`. -/
def State.rxdChanges (s : State) (img : RxImg) (i : Nat) (f : Fld) : Bool :=
  decide (s.rxdv f i ≠ (s.setRx i { s.rx1 i with rxd := img }).rxdv f i)

/-- A new block stream of the far end begins with the superframe that RXD enters: its first data symbol is that of a block and of an
interleave group, hypothesis 0, and a trial in progress starts again (R257, R259, R260). DEDUCED (log 18). -/
def State.newBlocks (s : State) (i : Nat) : State :=
  let a := s.align1 i
  (s.wr F.FEC_STAT_hyp 0 [i]).setAlign i { a with serial := a.serial + 1, formed := 0, trial := 0, good := 0, phase := 0 }

/-- RXD goes over to image `img` now: a changed symbol rate restarts from SIGNAL (R231). -/
def State.rxdGo (s : State) (img : RxImg) (i : Nat) : State :=
  let t := s.setRx i { s.rx1 i with rxd := img, due := none }
  let ch := s.rxdChanges img i
  if ch F.RXD_MODE_CFG_baud then t.acqRestart i
  else if s.lit i && [F.RXD_MODE_CFG_const, F.RXD_MODE_CFG_entropy, F.RXD_MODE_CFG_pilot, F.FEC_CODE_CFG_rate].any ch then t.newBlocks i
  else t

/-- RXD of a LIT slice is to go over to image `img` with the superframe that begins: a changed symbol rate restarts at once; a changed
shaping, or block stream, goes on at the first symbol of the new superframe, which RXD counts, or, where LFR has not set the symbol
position, at once, a changed shaping from PILOT_SYNC (R231, R299). DEDUCED (log 18). -/
def State.rxdNext (s : State) (img : RxImg) (i : Nat) : State :=
  let ch := s.rxdChanges img i
  let shape := [F.RXD_MODE_CFG_const, F.RXD_MODE_CFG_entropy, F.RXD_MODE_CFG_pilot].any ch
  if s.lit i && !ch F.RXD_MODE_CFG_baud && (shape || ch F.FEC_CODE_CFG_rate) then
    if (s.rx1 i).posSet then s.setRx i { s.rx1 i with due := some img }
    else
      let t := s.rxdGo img i
      if shape && decide (s.acq i ≠ acqIdle) then t.toAcq i acqPilotSync else t
  else s.rxdGo img i

/-- What an image is called once the local boundary has passed: the new settings are CURRENT, the old ones PREVIOUS. -/
def RxImg.atLocal : RxImg → RxImg
  | .current => .previous
  | _ => .current

end Sys2Proof.Machine
end

