-- ==== Sys2Proof/Machine/Estimate.lean ====
section
/-!
DEFINITION. What RXD estimates from its samples and its taps: AGC, the timing loop's bandwidth, the constant-modulus algorithm, the
pilot position, the carrier offset, and the monitor values of the tap matrix (chapter 08, R206 to R220, R233).
-/

namespace Sys2Proof.Machine

/-! ### Gain and clock (R206, R210) -/

/-- The AGC gain in 2^-20 dB after n samples of total power `power` in units of 2^-20: it approaches the gain at which the mean power
is 0.25, from -12 dB to +24 dB, with a time constant of 2^16 symbols, 81,920 samples (R206). DEDUCED (log 18). -/
def agcNext (g : Int) (n power : Nat) : Int :=
  let want := if power = 0 then 24 * 2 ^ 20 else clampInt (-12 * 2 ^ 20) (24 * 2 ^ 20) (roundAway (fxDb (n * 2 ^ 18) power) (2 ^ 44))
  let kept := fxExp (-((n : Int) * fxOne / 81920))
  clampInt (-12 * 2 ^ 20) (24 * 2 ^ 20) (want + fxMul (g - want) kept)

/-- The amplitude factor of a gain in 2^-20 dB, in units of 2^-32 (R206). -/
def agcFactor (g : Int) : Int := fxAmplitude (g * 2 ^ 44) / 2 ^ 32

/-- The bandwidth of the timing loop in Hz: R × 2^-(14 + k) GHz (R210). -/
def loopBandwidth (baud k : Nat) : Nat × Nat := (baudOf baud * 10 ^ 9, 2 ^ (14 + k))

/-! ### The equaliser (R212, R213) -/

/-- A filter over the samples before and the samples, at one place: newest sample last. -/
def firAt (h : List Cx) (xs : List Cx) (place : Nat) : Cx :=
  cxSum ((List.range h.length).map fun k => Cx.mul (h.getD k ⟨0, 0⟩) (xs.getD (place + k) ⟨0, 0⟩))

/-- The butterfly at one place, in units of 2^-54 (R212): h holds hxx, hxy, hyx and hyy. -/
def butterfly (h : List (List Cx)) (xs ys : List Cx) (place : Nat) : Dual :=
  let f := fun k => h.getD k []
  ⟨Cx.add (firAt (f 0) xs place) (firAt (f 1) ys place), Cx.add (firAt (f 2) xs place) (firAt (f 3) ys place)⟩

/-- What an error adds to the four filters of n taps at one place: its product with the conjugate of each input, times num/den
(R213). -/
def tapStep (num den : Nat) (xs ys : List Cx) (n place : Nat) (e : Dual) : List (List Cx) :=
  let one := fun (v : Cx) (l : List Cx) => (List.range n).map fun t =>
    let p := Cx.mul v (Cx.conj (l.getD (place + t) ⟨0, 0⟩))
    (⟨roundAway (num * p.re) den, roundAway (num * p.im) den⟩ : Cx)
  [one e.x xs, one e.x ys, one e.y xs, one e.y ys]

/-- The sum of two sets of filters. -/
def tapsAdd (a b : List (List Cx)) : List (List Cx) := List.zipWith (List.zipWith Cx.add) a b

/-- The error of the constant-modulus algorithm at an output v in C24 units: v (0.25 - |v|^2), in units of 2^-30; its modulus is the
mean power of R206. DESIGN CHOICE (log 17). -/
def cmaError (v : Cx) : Cx := Cx.scale (2 ^ 18 - (Cx.power v : Int)) v

/-- The constant-modulus algorithm with step 2^-k over the places of the symbols: the filters after it (R213). -/
def cmaRun (k : Nat) (xs ys : List Cx) (n : Nat) (places : List Nat) (taps : List (List Cx)) : List (List Cx) :=
  places.foldl (fun t p =>
    let v := (dual24 (butterfly t xs ys p) (2 ^ 54)).1
    tapsAdd t (tapStep (2 ^ 4) (2 ^ k) xs ys n p ⟨cmaError v.x, cmaError v.y⟩)) taps

/-! ### The pilot position and the carrier offset (R217) -/

/-- The pilots among n symbols from position `pos` on, turned back by their known values, one polarisation. -/
def pilotProducts (y : Bool) (period baud pos n : Nat) (z : List Cx) : List Cx :=
  ((List.range n).filter fun j => isPilot (pos + j) period).map fun j =>
    Cx.mul (z.getD j ⟨0, 0⟩) (Cx.conj (pilotAt y period ((pos + j) % superframeSymbols baud)))

/-- The sum of the products of neighbours: it adds up whatever the carrier offset is. -/
def progress (ps : List Cx) : Cx := cxSum (List.zipWith (fun a b => Cx.mul b (Cx.conj a)) ps (ps.drop 1))

/-- The correlation with the pilot sequence if the first symbol lies at `pos`, over 4,096 pilots of both polarisations (R217). -/
def syncMetric (period baud pos : Nat) (z : List Dual) : Nat :=
  let n := 4096 * period
  let one := fun (y : Bool) (l : List Cx) => Cx.power (progress (pilotProducts y period baud pos n l))
  one false (z.map Dual.x) + one true (z.map Dual.y)

/-- The position in the superframe at which the correlation peaks (R217). -/
def syncPosition (period baud : Nat) (z : List Dual) : Nat :=
  (List.range (superframeSymbols baud)).foldl
    (fun b p => if syncMetric period baud b z < syncMetric period baud p z then p else b) 0

/-- The position found by correlation over 4,096 pilots, where that over the next 4,096 confirms it (R217, the table "Acquisition
states"). -/
def syncFound (period baud : Nat) (z : List Dual) : Option Nat :=
  let p := syncPosition period baud z
  if syncPosition period baud (z.drop (4096 * period)) = (p + 4096 * period) % superframeSymbols baud then some p else none

/-- The spectrum of the fourth power of the symbols at four times an offset in Hz (R217). -/
def fourthPower (baud : Nat) (f : Int) (z : List Cx) : Nat :=
  let four := fun (v : Cx) => Cx.mul (Cx.mul v v) (Cx.mul v v)
  Cx.power (cxSum ((List.range z.length).map fun n => Cx.mul (four (z.getD n ⟨0, 0⟩)) (rotor (spin (4 * f) baud n))))

/-- The coarse estimate in Hz: the peak of that spectrum over the offsets within R/8, R/(8 N) apart for N symbols (R217).
DESIGN CHOICE (log 17). -/
def coarseOffset (baud : Nat) (z : List Dual) : Int :=
  let at' := fun (k : Nat) => ((k : Int) - z.length) * (baudOf baud * 10 ^ 9) / (8 * max 1 z.length)
  let metric := fun (f : Int) => fourthPower baud f (z.map Dual.x) + fourthPower baud f (z.map Dual.y)
  (List.range (2 * z.length + 1)).foldl (fun b k => if metric b < metric (at' k) then at' k else b) (at' 0)

/-- The change of the offset in Hz that the phase progression of the pilots of both polarisations shows (R217). -/
def offsetStep (period baud : Nat) (px py : List Cx) : Int :=
  let θ := fxAtan2 (Cx.add (progress px) (progress py)).im (Cx.add (progress px) (progress py)).re
  roundAway (θ * (baudOf baud * 10 ^ 9)) (2 * fxPi * period).toNat

/-- The offset in Hz after n symbols: it follows the pilots at up to 200 MHz/ms, within 5.0 GHz (R217). -/
def offsetNext (baud n : Nat) (f step : Int) : Int :=
  let most : Int := 200 * n / baudOf baud
  clampInt (-5000000000) 5000000000 (f + clampInt (-most) most step)

/-! ### The tap matrix (R209, R214, R216) -/

/-- The response of a filter at num/5 of the sample rate, and that of n h(n), in units of 2^-74: their ratio is the group
delay. -/
def tapResponse (h : List Cx) (num : Int) : Cx × Cx :=
  let term := fun (k : Nat) => Cx.mul (h.getD k ⟨0, 0⟩) (rotor (roundAway (2 * fxPi * num * k) (5 * 2 ^ 48)))
  (cxSum ((List.range h.length).map term), cxSum ((List.range h.length).map fun (k : Nat) => Cx.scale k (term k)))

/-- The response of the four filters, a 2 × 2 matrix by rows, and that of their delays. -/
def tapResponses (t : List (List Cx)) (num : Int) : List Cx × List Cx :=
  let r := [0, 1, 2, 3].map fun k => tapResponse (t.getD k []) num
  (r.map Prod.fst, r.map Prod.snd)

/-- The determinant of a 2 × 2 matrix by rows. -/
def det2 (m : List Cx) : Cx :=
  let e := fun k => m.getD k ⟨0, 0⟩
  Cx.sub (Cx.mul (e 0) (e 3)) (Cx.mul (e 1) (e 2))

/-- The trace of adj(m) g. -/
def adjTrace (m g : List Cx) : Cx :=
  let e := fun k => m.getD k ⟨0, 0⟩
  let f := fun k => g.getD k ⟨0, 0⟩
  Cx.sub (Cx.add (Cx.mul (e 3) (f 0)) (Cx.mul (e 0) (f 3))) (Cx.add (Cx.mul (e 1) (f 2)) (Cx.mul (e 2) (f 1)))

/-- The sum of the group delays of both polarisations at num/5 of the sample rate, in 2^-16 samples. -/
def delaySum (t : List (List Cx)) (num : Int) : Int :=
  let r := tapResponses t num
  let d := det2 r.1
  roundAway ((Cx.mul (adjTrace r.1 r.2) (Cx.conj d)).re * 2 ^ 16) (Cx.power d)

/-- The residual dispersion in ps/nm that the taps undo: the difference of the group delays R/4 above and below the carrier, at
800/R ps a sample, over the 0.0080137 nm/GHz × R/2 between them (R207, R209). DESIGN CHOICE (log 17). -/
def tapResidual (baud : Nat) (t : List (List Cx)) : Int :=
  roundOpen ((delaySum t 1 - delaySum t (-1)) * (800 * 10 ^ 7)) (2 ^ 16 * 80137 * baudOf baud ^ 2)

/-- A square root of a complex number, in its unit's root. -/
def cxSqrt (z : Cx) : Cx :=
  let r : Int := isqrt (Cx.power z)
  ⟨isqrt ((r + z.re) / 2).toNat, (if 0 ≤ z.im then 1 else -1) * (isqrt ((r - z.re) / 2).toNat : Int)⟩

/-- DGD in 0.01 ps at the carrier: the difference of the two group delays, the eigenvalues of the delay matrix, at 800/R ps a sample
(R216). DESIGN CHOICE (log 17). -/
def tapDgd (baud : Nat) (t : List (List Cx)) : Int :=
  let r := tapResponses t 0
  let d := det2 r.1
  let tr := adjTrace r.1 r.2
  let root := cxSqrt (Cx.sub (Cx.mul tr tr) (Cx.scale 4 (Cx.mul d (det2 r.2))))
  roundOpen ((Cx.mul root (Cx.conj d)).re.natAbs * 80000) (Cx.power d * baudOf baud)

/-- PDL in 1/64 dB at the carrier: the ratio of the squares of the two singular values (R216). DESIGN CHOICE (log 17). -/
def tapPdl (t : List (List Cx)) : Int :=
  let m := (tapResponses t 0).1
  let sum := (m.map Cx.power).sum
  let root := isqrt (sum ^ 2 - 4 * Cx.power (det2 m))
  ratioDb (sum + root) (sum - root)

/-- The rotation of the state of polarisation in a frame of 1.024 µs in krad/s, from the tap matrices at the carrier before and after
it: cos(θ/2) of the rotation θ of the Stokes vector is |tr U| / 2 √|det U| (R214). DESIGN CHOICE (log 17). -/
def tapRotation (before after : List (List Cx)) : Int :=
  let a := (tapResponses before 0).1
  let b := (tapResponses after 0).1
  let tr := Cx.power (adjTrace a b)
  let d := isqrt (Cx.power (Cx.mul (det2 a) (det2 b)))
  let θ := 2 * fxAtan2 (isqrt (4 * d - tr) : Int) (isqrt tr)
  roundOpen (θ * 9765625) (10 ^ 4 * 2 ^ 64)

end Sys2Proof.Machine
end

