-- ==== Sys2Proof/Machine/Chain.lean ====
section
/-!
DEFINITION. The receive chain of a slice, from the codes of its ADCs to the LLRs of one block, in the order of R18 (chapter 08,
R205 to R225).
-/

namespace Sys2Proof.Machine

/-! ### Converter codes (R176, R181) -/

/-- The interleave slice of ADC a that samples phase p: the spare, 64, for a slice that it has replaced, and for the phase in
progress from TAKE to HAND BACK (R177 to R180). -/
def State.adcSlice (s : State) (i a p : Nat) : Nat :=
  let replaced := s.bit F.CNV_ADC_STAT_spare_used [i, a] && decide (s.rd F.CNV_ADC_STAT_failed_slice [i, a] = p)
  let taken := decide (2 ≤ s.rd F.CNV_RECAL_STAT_stage [i] ∧ s.rd F.CNV_RECAL_STAT_phase [i] = p
    ∧ (s.conv1 i).retried / 2 ^ a % 2 = 0)
  if replaced || taken then 64 else p

/-- A code of ADC a with its trims: (code + offset / 64)(1 + gain / 2^14) / 128, in units of 2^-27 (R181). DEDUCED (log 18). -/
def State.trimmed (s : State) (i a p : Nat) (code : BitVec 8) : Int :=
  let k := s.adcSlice i a p
  (64 * code.toInt + toSigned 10 (s.rd F.CNV_ADC_TRIM_A_offset [i, a, k])) *
    (16384 + toSigned 12 (s.rd F.CNV_ADC_TRIM_A_gain [i, a, k]))

/-- The samples of a slice from phase p on, before rounding. -/
def State.adcDuals (s : State) (i : Nat) : Nat → List AdcSample → List Dual
  | _, [] => []
  | p, a :: as =>
    ⟨⟨s.trimmed i 0 p a.xi, s.trimmed i 1 p a.xq⟩, ⟨s.trimmed i 2 p a.yi, s.trimmed i 3 p a.yq⟩⟩ ::
      State.adcDuals s i ((p + 1) % 64) as

/-! ### Symbols and samples -/

/-- The first sample of symbol `pos` of a superframe, 1.25 samples a symbol (R176). -/
def firstSample (pos : Nat) : Nat := 5 * pos / 4

/-- Symbols from position `pos` on up to the n-th data symbol: one pilot for every period - 1 data symbols (R239). -/
def symbolsFor (period pos n : Nat) : Nat :=
  let r := pos % period
  if n = 0 then 0
  else if r = 0 then n + 1 + (n - 1) / (period - 1)
  else n + (r + n - 2) / (period - 1)

/-- Pilots among the symbols from position `pos` on, up to and with symbol j. -/
def pilotsUpTo (period pos j : Nat) : Nat := (pos + j) / period + 1 - (pos + period - 1) / period

/-! ### Carrier phase (R217 to R219) -/

/-- A turn, in 2^-16 rad. -/
def turn : Int := 411775

/-- The phase that lies within half a turn of `near`. -/
def wrapNear (near p : Int) : Int := p - turn * roundAway (p - near) turn.toNat

/-- An estimate off by more than π/4 is a cycle slip (R219). -/
def slipped (err : Int) : Bool := decide (51471 < err.natAbs)

/-- The mean of the last 2^k phases, newest first: the window ends with the pilot in hand, and is shorter while fewer pilots are held.
DESIGN CHOICE (log 41). -/
def phaseMean (k : Nat) (ps : List Int) : Int :=
  let l := ps.take (2 ^ k)
  roundAway l.sum (max 1 l.length)

/-- What a pilot of measured phase `p` does to the phases before it: a slip restarts the estimate at this pilot (R218, R219). With the
error that the pilot finds. -/
def pilotFound (k : Nat) (ps : List Int) (p : Int) : Bool × Int × List Int :=
  match ps with
  | [] => (false, 0, [p])
  | _ => let e := phaseMean k ps
    let q := wrapNear e p
    if slipped (q - e) then (true, q - e, [q]) else (false, q - e, (q :: ps).take 128)

/-- What the pilots of one polarisation leave: the slip and the estimate at each, the squares of the errors that they find, and the
phases held. -/
structure PilotRun where
  est  : List (Bool × Int)
  sq   : Nat
  held : List Int

/-- The pilots of one polarisation, from the phases before and the measured phases. -/
def pilotRun (k : Nat) : List Int → List Int → PilotRun
  | ps, [] => ⟨[], 0, ps⟩
  | ps, p :: rest =>
    let f := pilotFound k ps p
    let r := pilotRun k f.2.2 rest
    ⟨(f.1, phaseMean k f.2.2) :: r.est, f.2.1.natAbs ^ 2 + r.sq, r.held⟩

/-- The phase at a symbol `d` symbols after a pilot of estimate `a`, before one of estimate `b`: linear between them; a slip
at the later pilot leaves the symbols before it as they were (R218, R219). -/
def phaseBetween (period : Nat) (a : Int) (b : Bool × Int) (d : Nat) : Int :=
  if b.1 then a else a + roundAway ((b.2 - a) * d) period

/-! ### Demapping (R223, R224) -/

/-- The labels of a constellation code. -/
def labelSet (c : Nat) : List (List Bool) := (List.range (2 ^ labelBits c)).map (toBits (labelBits c))

/-- Twice the exponent of a label's likelihood, negated: |r - x|^2 n 2^20 + ν |p|^2 E over E 2^20, where E over n is the noise
variance and ν the shaping of the a-priori term, for PCS alone (R223). -/
def metric (c e n errs : Nat) (r : Cx) (b : List Bool) : Nat :=
  let p := labelPoint c b
  let prior := if isPcs c then (roundAway (shapedNu c e) (2 ^ 44)).toNat * (p.1.natAbs ^ 2 + p.2.natAbs ^ 2) else 0
  Cx.power (Cx.sub r (mappedPoint c e b)) * n * 2 ^ 20 + prior * errs

/-- The least metric of the labels whose bit k is v. -/
def leastMetric (c e n errs : Nat) (r : Cx) (k : Nat) (v : Bool) : Nat :=
  (((labelSet c).filter fun b => b.getD k false = v).map (metric c e n errs r)).min?.getD 0

/-- The saturated LLR of an integer number of units: never -32 (R224). -/
def llrSat (u : Int) : Int := clampInt (-31) 31 u

/-- One of the two neighbours of num/den, choice number n, where no rule states the rounding. DESIGN CHOICE (log 2). -/
def roundChoice (n : Nat) (num : Int) (den : Nat) : Int :=
  num / den + (if num % den ≠ 0 ∧ Config.freeBool n = true then 1 else 0)

/-- The LLR of label bit k: one unit is 0.25 × scale of the natural-log ratio, positive for bit 0; with no noise measured
the spec states none, and it is free (R223, R224). DEDUCED (log 18). -/
def llrOf (c e n errs scale free : Nat) (r : Cx) (k : Nat) : Int :=
  let num : Int := 256 * ((leastMetric c e n errs r k true : Int) - leastMetric c e n errs r k false)
  if errs = 0 then toSigned 6 (Config.freeWord free).toNat else llrSat (roundChoice free num (scale * errs * 2 ^ 20))

/-- The LLRs of one polarisation's data symbol, in label order. -/
def symbolLlrs (c e scale free : Nat) (noise : Nat × Nat) (r : Cx) : List Int :=
  (List.range (labelBits c)).map fun k => llrSat (llrOf c e noise.1 noise.2 scale (free + k) r k)

/-- The nearest point of a constellation: the decision on a data symbol (R213). -/
def decide24 (c e : Nat) (r : Cx) : Cx :=
  ((labelSet c).map (mappedPoint c e)).foldl (fun best p => if Cx.power (Cx.sub r p) < Cx.power (Cx.sub r best) then p else best)
    (mappedPoint c e [])

/-! ### The chain -/

/-- The settings of slice i's receiver that the chain works with. -/
structure RxSet where
  baud   : Nat
  const  : Nat
  ent    : Nat
  period : Nat

/-- The settings in force (R231, R299). -/
def State.rxSet (s : State) (i : Nat) : RxSet :=
  { baud := s.rxBaud i, const := constActs (s.rxdv F.RXD_MODE_CFG_const i), ent := s.rxdv F.RXD_MODE_CFG_entropy i,
    period := pilotOf (s.rxdv F.RXD_MODE_CFG_pilot i) }

/-- The symbols of the next block, and the symbols up to the pilot after them. -/
def State.blockSpan (s : State) (i : Nat) : Nat × Nat :=
  let r := s.rxSet i
  let pos := (s.dsp1 i).pos
  let n := symbolsFor r.period pos (blockSymbols r.const)
  (n, n + (r.period - (pos + n) % r.period) % r.period + 1)

/-- Samples that hold `n` symbols from position `pos` on. -/
def samplesFor (pos n : Nat) : Nat := firstSample (pos + n) - firstSample pos

/-- The power of the first `own` values of X and of Y. -/
def powerOf (own : Nat) (l : List Dual) : Nat × Nat :=
  (((l.take own).map fun v => Cx.power v.x).sum, ((l.take own).map fun v => Cx.power v.y).sum)

/-- Stages 1 to 4: the samples of the four converters as C24, bulk compensation, AGC and, from CLOCK on, timing (R181, R205 to R210):
the signal with its saturations, and the state after them, which knows the power received. -/
def State.frontEnd (s : State) (i : Nat) (own : Nat) (samples : List AdcSample) : Signal × State :=
  let d := s.dsp1 i
  let baud := s.rxBaud i
  let bulk := toSigned 24 (s.rd F.RXD_CD_EST_cd [i])
  let filter := Config.cdFilter bulk (Config.carrierPm i) (baudOf baud)
  let raw := Signal.round (s.adcDuals i d.inst samples, 0) own id (2 ^ 27)
  let cd := raw.round own (fun l => dualOf (filter (d.overlap.map Dual.x) (l.map Dual.x)) (filter (d.overlap.map Dual.y) (l.map Dual.y)))
    (2 ^ 20)
  let seen := powerOf own cd.1
  let gain := (agcNext d.gain.1 own seen.1, agcNext d.gain.2 own seen.2)
  let agc := cd.round own (List.map fun v => ⟨Cx.scale (agcFactor gain.1) v.x, Cx.scale (agcFactor gain.2) v.y⟩) (2 ^ 42)
  let bw := loopBandwidth baud (s.cur F.RXD_CR_CFG_bw [i])
  let nco := if s.acq i < acqClock then d.nco
    else clampInt (-204800) 204800 (Config.timingStep bw.1 bw.2 d.nco (agc.1.take own))
  let timed := agc.round own (Config.interpolate nco) (2 ^ 20)
  let kept := d.overlap ++ raw.1.take own
  let power := powerOf own raw.1
  let m := { d.meas with samples := d.meas.samples + own, power := (d.meas.power.1 + power.1, d.meas.power.2 + power.2) }
  (timed, s.setDsp i { d with gain := gain, nco := nco, inst := (d.inst + own) % 64,
                              overlap := kept.drop (kept.length - 16384), meas := m })

/-- The samples that the equaliser works on: the last 62 before, and the timed ones. -/
def Dsp.eqInput (d : Dsp) (timed : List Dual) : List Dual :=
  List.replicate (62 - d.past.length) ⟨⟨0, 0⟩, ⟨0, 0⟩⟩ ++ d.past ++ timed

/-- The place of symbol j's first sample of a filter of n taps among them: one symbol for every 1.25 samples (R212). -/
def Dsp.eqPlace (d : Dsp) (n j : Nat) : Nat := 63 - n + (firstSample (d.pos + j) - firstSample d.pos)

/-- The equaliser's state after `n` symbols: the samples that it keeps. -/
def Dsp.eqPast (d : Dsp) (timed : List Dual) (n : Nat) : List Dual :=
  let kept := (d.eqInput timed).take (62 + samplesFor d.pos n)
  kept.drop (kept.length - 62)

/-- `n` symbols out of the equaliser of slice i, the first `own` of which count their saturations (R212). -/
def State.equalised (s : State) (i own n : Nat) (timed : Signal) : Signal :=
  let d := s.dsp1 i
  let all := d.eqInput timed.1
  let taps := eqTaps (s.cur F.RXD_EQ_CFG_taps [i])
  Signal.round (all, timed.2) own
    (fun _ => (List.range n).map fun j => butterfly d.taps (all.map Dual.x) (all.map Dual.y) (d.eqPlace taps j)) (2 ^ 54)

/-- The phases of the pilots among `n` symbols from position `pos` on, one polarisation (R218). -/
def pilotPhases (y : Bool) (period baud pos n : Nat) (z : List Cx) : List Int := (pilotProducts y period baud pos n z).map angle

/-- The phase correction of symbol j: between the estimates of the pilots about it; `before` is the estimate at the block's
start (R218). -/
def phaseAt (period pos : Nat) (before : Int) (est : List (Bool × Int)) (j : Nat) : Int :=
  let k := pilotsUpTo period pos j
  let a := if k = 0 then before else (est.getD (k - 1) (false, before)).2
  if isPilot (pos + j) period then a
  else match est[k]? with
    | some b => phaseBetween period a b ((pos + j) % period)
    | none => a

/-- One polarisation's symbols turned back by the phases θ, in units of 2^-40. -/
def turned (z : List Cx) (θ : Nat → Int) : List Cx :=
  (List.range z.length).map fun j => Cx.mul (z.getD j ⟨0, 0⟩) (rotor (θ j))

/-- The cancelled signal of one polarisation at symbol position `pos`: the waveforms of the decided spread symbols about it,
each scaled by the mean gain, taken away (R222). Gains are C24 values of the waveform's unit, 2^-11 of the coefficients. -/
def cancelAt (filt : Nat → Int) (baud pos : Nat) (reports : List TdlReport) (pick : Dual → Cx) (r : Cx) : Cx × Nat :=
  let sum := cxSum (reports.map fun t =>
    let w := spreadWave filt t.sf t.bit (posDiff (superframeSymbols baud) t.start pos)
    let g := pick t.gain
    let n := max 1 t.n
    (⟨roundAway (g.re * w) n, roundAway (g.im * w) n⟩ : Cx))
  c24 ⟨2048 * r.re - sum.re, 2048 * r.im - sum.im⟩ (2048 * 1024)

/-- What the chain leaves of one block: its LLRs in output order, its saturations, the slips of X and Y, and the state. -/
structure BlockOut where
  llrs  : List Int
  sat   : Nat
  slips : Nat
  dsp   : Dsp

/-- The error powers of the pilots of one polarisation among the symbols, oldest first (R220). -/
def pilotErrs (y : Bool) (period baud pos : Nat) (w : List Cx) : List Nat :=
  ((List.range w.length).filter fun j => isPilot (pos + j) period).map fun j =>
    Cx.power (Cx.sub (w.getD j ⟨0, 0⟩) (pilotAt y period ((pos + j) % superframeSymbols baud)))

/-- Stages 5 to 8 on the timed samples of a block and of what follows it up to a pilot: equaliser, carrier, tendril
cancellation, demapping (R212 to R225). What the equaliser cannot undo, rotate with or follow stays in its outputs, and so in the
pilot errors (R212, R214, R217). DESIGN CHOICE (log 17). The pilots that give the noise variance are taken before tendril
cancellation, and the far end's chips are rebuilt with this slice's own TDL_TX_FILT. DESIGN CHOICE (log 41). -/
def State.demodulate (s : State) (i : Nat) (span : Nat × Nat) (timed : Signal) : BlockOut :=
  let d := s.dsp1 i
  let r := s.rxSet i
  let n := eqTaps (s.cur F.RXD_EQ_CFG_taps [i])
  let win := s.cur F.RXD_CAR_CFG_win [i]
  let eq := s.equalised i span.1 span.2 timed
  let xs := (d.eqInput timed.1).map Dual.x
  let ys := (d.eqInput timed.1).map Dual.y
  -- frequency, then the phase of the pilots
  let spun := eq.round span.1 (fun l => (List.range l.length).map fun j =>
    let v := l.getD j ⟨⟨0, 0⟩, ⟨0, 0⟩⟩
    let ρ := rotor (d.phase + spin d.freq r.baud j)
    (⟨Cx.mul v.x ρ, Cx.mul v.y ρ⟩ : Dual)) (2 ^ 40)
  let zx := spun.1.map Dual.x
  let zy := spun.1.map Dual.y
  let px := pilotPhases false r.period r.baud d.pos span.2 zx
  let py := pilotPhases true r.period r.baud d.pos span.2 zy
  let θx := phaseAt r.period d.pos (phaseMean win d.pilots.1) (pilotRun win d.pilots.1 px).est
  let θy := phaseAt r.period d.pos (phaseMean win d.pilots.2) (pilotRun win d.pilots.2 py).est
  let still := spun.round span.1 (fun _ => dualOf (turned zx θx) (turned zy θy)) (2 ^ 40)
  let isData := fun j => !isPilot (d.pos + j) r.period
  let fine := still.round span.1 (fun l =>
    let refined := Config.refine r.const (((List.range l.length).filter isData).map fun j => l.getD j ⟨⟨0, 0⟩, ⟨0, 0⟩⟩)
    (List.range l.length).map fun j =>
      let v := l.getD j ⟨⟨0, 0⟩, ⟨0, 0⟩⟩
      let same : Dual := ⟨Cx.scale 1024 v.x, Cx.scale 1024 v.y⟩
      if isData j then refined.getD (j - pilotsUpTo r.period d.pos j) same else same) (2 ^ 20)
  let own := fine.1.take span.1
  -- the pilots that are this block's own
  let mine := ((List.range span.1).filter fun j => isPilot (d.pos + j) r.period).length
  let exs := pilotRun win d.pilots.1 (px.take mine)
  let eys := pilotRun win d.pilots.2 (py.take mine)
  let errX := pilotErrs false r.period r.baud d.pos (own.map Dual.x)
  let errY := pilotErrs true r.period r.baud d.pos (own.map Dual.y)
  let errs := ((errX.zip errY).reverse ++ d.errs).take 65536
  let used := errs.take (2 ^ (min 8 (s.cur F.RXD_LLR_CFG_nvar_win [i]) + 8))
  let nx := (used.length, (used.map Prod.fst).sum)
  let ny := (used.length, (used.map Prod.snd).sum)
  -- LMS against pilots and decisions
  let error := fun (y : Bool) (j : Nat) (v : Cx) (θ : Nat → Int) =>
    let ref := if isData j then decide24 r.const r.ent v else pilotAt y r.period ((d.pos + j) % superframeSymbols r.baud)
    let ρ := Cx.mul (rotor (d.phase + spin d.freq r.baud j)) (rotor (θ j))
    let e := Cx.mul (Cx.sub ref v) (Cx.conj ρ)
    (⟨roundAway e.re (2 ^ 60), roundAway e.im (2 ^ 60)⟩ : Cx)
  let k := stepExp (s.cur F.RXD_EQ_CFG_mu_lms [i])
  let taps := (List.range span.1).foldl (fun t j =>
    let v := own.getD j ⟨⟨0, 0⟩, ⟨0, 0⟩⟩
    tapsAdd t (tapStep (2 ^ 24) (2 ^ k) xs ys n (d.eqPlace n j) ⟨error false j v.x θx, error true j v.y θy⟩)) d.taps
  -- the far end's tendril, then the demapper
  let filt := fun c => toSigned 12 (s.cur F.TDL_TX_FILT_coef [i, c])
  let data := (List.range span.1).filter isData
  let clean := data.map fun j =>
    let v := own.getD j ⟨⟨0, 0⟩, ⟨0, 0⟩⟩
    let at' := (d.pos + j) % superframeSymbols r.baud
    (cancelAt filt r.baud at' d.reports Dual.x v.x, cancelAt filt r.baud at' d.reports Dual.y v.y)
  let scale := if s.cur F.RXD_LLR_CFG_scale [i] = 0 then 0x40 else s.cur F.RXD_LLR_CFG_scale [i]
  let llrs := (clean.zipIdx).flatMap fun q =>
    let free := s.free + 12 * q.2
    symbolLlrs r.const r.ent scale free nx q.1.1.1 ++ symbolLlrs r.const r.ent scale (free + 6) ny q.1.2.1
  let after := (d.pos + span.1) % superframeSymbols r.baud
  let step := offsetStep r.period r.baud ((pilotProducts false r.period r.baud d.pos span.1 zx).take mine)
    ((pilotProducts true r.period r.baud d.pos span.1 zy).take mine)
  let m := d.meas
  { llrs := llrs,
    sat := fine.2 + (clean.map fun q => q.1.2 + q.2.2).sum,
    slips := ((exs.est.filter Prod.fst).length) + (eys.est.filter Prod.fst).length,
    dsp := { d with
      taps := taps, past := d.eqPast timed.1 span.1, freq := offsetNext r.baud span.1 d.freq step,
      phase := wrapNear 0 (d.phase + spin d.freq r.baud span.1),
      pilots := (exs.held, eys.held), errs := errs,
      meas := { m with pilots := m.pilots + mine, errs := (m.errs.1 + errX.sum, m.errs.2 + errY.sum),
                       phaseSq := m.phaseSq + exs.sq + eys.sq,
                       llrs := m.llrs + llrs.length, llr := m.llr + (llrs.map Int.natAbs).sum },
      pos := after,
      reports := d.reports.filter fun t => decide (posDiff (superframeSymbols r.baud) t.start after <
        64 * (spreading t.sf : Int) + 128) } }

/-- Saturated components of C24 results in RXD (R205). -/
def State.countSat (s : State) (i n : Nat) : State :=
  if n = 0 then s else (s.count (64 + 2 * i) n).wr F.RXD_EVT_sat 1 [i]

/-- Cycle slips (R219). -/
def State.countSlips (s : State) (i n : Nat) : State :=
  if n = 0 then s else (s.count (64 + 2 * i + 1) n).wr F.RXD_EVT_slip 1 [i]

/-- The number of the superframe that RXD is in: LFR, which the decoder delays, may still be in the one before it (R225, R320).
DEDUCED (log 18). -/
def State.rxdSuperframe (s : State) (i : Nat) : Nat :=
  let behind := match (s.lfr1 i).lastMf with
    | some p => decide (8 ≤ p.2) && decide (2 * (s.dsp1 i).pos < superframeSymbols (s.rxBaud i))
    | none => false
  s.rd F.LFR_RX_SFC_count [i] + b2n behind

/-- RXD enters superframe `b`, or a later one. -/
def State.rxdReached (s : State) (i b : Nat) : Bool :=
  s.bit F.LFR_STAT_sf_ok [i] && decide ((s.rxdSuperframe i + 2 ^ 24 - b % 2 ^ 24) % 2 ^ 24 < 2 ^ 23)

/-- The image that RXD works with from the superframe that it enters: one that is due, that of a received boundary, or the one in use
(R231, R299, R301). VTG_STAT.state 5 is ARMED, 7 RETURNING. -/
def State.rxdTarget (s : State) (i : Nat) : RxImg :=
  let x := s.rx1 i
  let d := s.tdl1 i
  match x.due with
  | some m => m
  | none =>
    if d.rxAt.any (s.rxdReached i) && decide (x.rxd = .previous) then .current
    else if d.rxAt.any (s.rxdReached i) && decide (s.rd F.VTG_STAT_state = 5)
        && s.vtg.commit.any (fun c => decide (i ∈ c.slices)) then .staged
    else if d.farRet.any (s.rxdReached i) && decide (s.rd F.VTG_STAT_state = 7) then .previous
    else x.rxd

/-- RXD's position has passed the end of a superframe: the alignment of blocks counts it, and settings that begin with the new one
come into force (R231, R258, R299). -/
def State.rxdWrap (s : State) (i : Nat) : State :=
  let a := s.align1 i
  let s := s.setAlign i { a with phase := (a.phase + 1) % 3 }
  let t := s.rxdTarget i
  if t = (s.rx1 i).rxd then s else s.rxdGo t i

/-- The samples of one block pass RXD, with those up to the pilot after it: the position of its first data symbol, its LLRs in
codeword order, and the state after them; a superframe's end in it is counted. Where the delay line, one row a slice, is
uncorrectable, the LLRs of what it held are 0 (R18, R205 to R225, R258, R413). DESIGN CHOICE (log 17). -/
def State.rxBlock (s : State) (i : Nat) (samples : List AdcSample) : Nat × List Int × State :=
  let r := s.rxSet i
  let pos := (s.dsp1 i).pos
  let span := s.blockSpan i
  let f := s.frontEnd i (samplesFor pos span.1) samples
  let b := f.2.demodulate i span f.1
  let s := f.2.setDsp i b.dsp
  let s := { s with free := s.free + 12 * blockSymbols r.const }
  let s := if b.dsp.pos < pos then s.rxdWrap i else s
  let q := (s.memWrite 2 i true).2.memRead 2 i
  let llrs := if q.1 then b.llrs.map fun _ => 0 else b.llrs
  ((if isPilot pos r.period then pos + 1 else pos), toCodeword r.const llrs, (q.2.countSat i b.sat).countSlips i b.slips)

/-- The symbols that `n` samples from RXD's position on hold. -/
def symbolsIn (n : Nat) : Nat := 4 * n / 5

/-- The constant-modulus algorithm over the timed samples of BLIND (R213). -/
def State.blindFrame (s : State) (i n : Nat) (timed : Signal) : State :=
  let d := s.dsp1 i
  let all := d.eqInput timed.1
  let w := eqTaps (s.cur F.RXD_EQ_CFG_taps [i])
  let taps := cmaRun (stepExp (s.cur F.RXD_EQ_CFG_mu_cma [i])) (all.map Dual.x) (all.map Dual.y) w ((List.range n).map (d.eqPlace w)) d.taps
  let sat := (s.equalised i n n timed).2
  (s.setDsp i { d with taps := taps, past := d.eqPast timed.1 n,
                       pos := (d.pos + n) % superframeSymbols (s.rxBaud i) }).countSat i sat

/-- The estimate of the carrier offset that CARRIER makes first: coarse, then fine on the symbols turned back by it (R217). -/
def State.offsetFrame (s : State) (i n : Nat) (timed : Signal) : State :=
  let d := s.dsp1 i
  let r := s.rxSet i
  if d.offset then s
  else
    let z := (s.equalised i n n timed).1
    let f := coarseOffset r.baud z
    let back := fun (pick : Dual → Cx) => (List.range z.length).map fun j => Cx.mul (pick (z.getD j ⟨⟨0, 0⟩, ⟨0, 0⟩⟩)) (rotor (spin f r.baud j))
    let step := offsetStep r.period r.baud (pilotProducts false r.period r.baud d.pos n (back Dual.x))
      (pilotProducts true r.period r.baud d.pos n (back Dual.y))
    s.setDsp i { d with offset := true, freq := f + step, phase := 0, pilots := ([], []) }

/-- The samples that a slice receives over a frame in a state in which no block is formed, as far as that state takes them: the gain
from SIGNAL on, the clock from CLOCK on, CMA in BLIND, and the whole chain with LMS from PILOT_SYNC on; HOLD measures the power alone
(R206, R210, R213, R217, R226, R228, R233). DEDUCED (log 18). -/
def State.acquireFrame (s : State) (i : Nat) (samples : List AdcSample) : State :=
  let st := s.acq i
  let n := symbolsIn samples.length
  if st = acqHold then
    let d := s.dsp1 i
    s.setDsp i { d with meas := (((s.frontEnd i samples.length samples).2).dsp1 i).meas }
  else if st = acqIdle ∨ acqTrack ≤ st then s
  else
    let f := s.frontEnd i samples.length samples
    if st < acqBlind then f.2.countSat i f.1.2
    else if st = acqBlind then f.2.blindFrame i n f.1
    else
      let s := if st = acqCarrier then f.2.offsetFrame i n f.1 else f.2
      let b := s.demodulate i (n, n) f.1
      let m := { b.dsp.meas with llrs := 0, llr := 0 }
      ((s.setDsp i { b.dsp with meas := m }).countSat i b.sat).countSlips i (if st = acqCarrier then b.slips else 0)

end Sys2Proof.Machine
end

