-- ==== Sys2Proof/Machine/Coding.lean ====
section
/-!
DEFINITION. Soft-decision coding and the decoder pool: code and block geometry, the distribution matcher, block
alignment, the pool's contexts and iteration slots, the reorder stores and the counters (chapter 10, R251 to R277).
-/

namespace Sys2Proof.Machine

/-! ### Codes and geometry (R251 to R262) -/

/-- k of the inner code of each rate (R251). -/
def ldpcK (rate : Nat) : Nat := [19661, 20480, 21065, 21504].getD rate 20480
/-- Row groups, information column groups, shortened and punctured positions (R251). -/
def ldpcRows (rate : Nat) : Nat := [77, 64, 55, 48].getD rate 64
def ldpcInfoCols (rate : Nat) : Nat := [308, 321, 330, 337].getD rate 321
def ldpcShort (rate : Nat) : Nat := [51, 64, 55, 64].getD rate 64
def ldpcPunct (rate : Nat) : Nat := [13, 0, 9, 0].getD rate 0

/-- The column of the one in row r of a 64 × 64 circulant of shift t (R252). -/
def circulant (t r : Nat) : Nat := (r + t) % 64

/-- A word of the parity-check ROM: column group, shift, last, valid (FEC_PCM_DATA). -/
def romEntry (rate row n : Nat) : Nat × Nat × Bool × Bool :=
  let w := (Config.pcmRom rate row n).toNat
  (bitsOf w 23 15, bitsOf w 14 9, decide (bitsOf w 8 8 = 1), decide (bitsOf w 7 7 = 1))

/-- The entries of a row group: column group and shift, up to the last. -/
def romRow (rate row : Nat) : List (Nat × Nat) :=
  let es := (List.range 64).map (romEntry rate row)
  ((es.take ((es.findIdx fun e => e.2.2.1) + 1)).filter fun e => e.2.2.2).map fun e => (e.1, e.2.1)

/-- The columns of the mother matrix with a one in check r, r = 64 × row group + row (R252). -/
def checkColumns (rate r : Nat) : List Nat := (romRow rate (r / 64)).map fun e => 64 * e.1 + circulant e.2 (r % 64)

/-- Information bits of a block (R254): constellation code, entropy, rate. -/
def blockInfo (c e rate : Nat) : Nat :=
  if constActs c = 3 ∨ constActs c = 4 then blockSymbols c * (entropyActs (constActs c) e - 128) / 32
    + (ldpcK rate - ampPositions c)
  else ldpcK rate

/-- Bits that the outer code of a group delivers: 16 × (I_b - 180) (R261, R263). -/
def groupBits (ib : Nat) : Nat := 16 * (ib - 180)

/-- Bit c of outer codeword j is this bit of the group's information stream (R262). -/
def outerPosition (c j : Nat) : Nat := 16 * c + j

/-- The number of block phases H of a setting (R257): rate code, constellation code, pilot code. -/
def hypotheses (baud c p : Nat) : Nat :=
  if (baud = 5 ∨ baud = 6) ∧ labelBits c ≠ 6 ∧ pilotOf p ≠ 64 then 3 else 1

/-- The number of shells of n components with energy at most `e` (R255). -/
def shellCount (amps : List Nat) : Nat → Nat → Nat
  | 0, _ => 1
  | n + 1, e => (amps.map fun a => if a * a ≤ e then shellCount amps n (e - a * a) else 0).sum

/-- The shell of index j among those of energy at most `e`, in lexicographic order (R255): the distribution matcher. -/
def shellAt (amps : List Nat) : Nat → Nat → Nat → List Nat
  | 0, _, _ => []
  | n + 1, e, j =>
    let pick := amps.foldl (fun (acc : Option (Nat × Nat) × Nat) a =>
      match acc with
      | (some r, k) => (some r, k)
      | (none, k) =>
        let c := if a * a ≤ e then shellCount amps n (e - a * a) else 0
        if k < c then (some (a, k), k) else (none, k - c)) (none, j)
    match pick.1 with
    | some (a, k) => a :: shellAt amps n (e - a * a) k
    | none => []

/-- The index of a shell among those of energy at most `e`: the dematcher of R256. -/
def shellIndex (amps : List Nat) : Nat → List Nat → Nat
  | _, [] => 0
  | e, a :: as =>
    ((amps.filter fun b => decide (b < a)).map fun b =>
      if b * b ≤ e then shellCount amps as.length (e - b * b) else 0).sum + shellIndex amps (e - a * a) as

/-! ### Frame lengths (R303) -/

/-- Data symbols of one superframe (R239, R280): 4,194,304 R symbols less the pilots. -/
def dataSymbols (baud pilot : Nat) : Nat := baudOf baud * 4194304 / pilotOf pilot * (pilotOf pilot - 1)

/-- D_H: decoded bits of one frame period (R303). -/
def periodBits (baud c e p rate : Nat) : Nat :=
  hypotheses baud c p * dataSymbols baud p / blockSymbols c * (blockInfo c e rate - 180)

/-- Frames of one period. -/
def periodFrames (baud c p : Nat) : Nat := 4096 * hypotheses baud c p

/-- F: the shorter frame length (R303). -/
def frameLen (baud c e p rate : Nat) : Nat := periodBits baud c e p rate / periodFrames baud c p

/-- F under the receive settings of slice i. -/
def State.rxFrame (s : State) (i : Nat) : Nat :=
  frameLen (s.rxBaud i) (s.rxv F.RXD_MODE_CFG_const i) (s.rxv F.RXD_MODE_CFG_entropy i) (s.rxv F.RXD_MODE_CFG_pilot i)
    (s.rxv F.FEC_CODE_CFG_rate i)

/-! ### Block rates and guarantees (R268) -/

/-- β_s as a numerator over 786,432 (the common multiple of the pilot periods and block lengths): R × 1,000 × (1 - 1/P) / N_s. -/
def betaNum (baud c p : Nat) : Nat :=
  let P := pilotOf p
  baudOf baud * 1000 * (P - 1) * (128 / P) * (6144 / blockSymbols c)

def betaDen : Nat := 786432

/-- β_s of slice i from its V-class settings. -/
def State.beta (s : State) (i : Nat) : Nat :=
  betaNum (s.cur F.RXD_MODE_CFG_baud [i]) (s.cur F.RXD_MODE_CFG_const [i]) (s.cur F.RXD_MODE_CFG_pilot [i])

/-- The guarantee that FEC_POOL_SLICE.guar acts as: 6 to 24. -/
def State.guar (s : State) (i : Nat) : Nat := min 24 (max 6 (s.cur F.FEC_POOL_SLICE_guar [i]))

/-- The deadline in µs that FEC_POOL_SLICE.deadline acts as: 16 to 64. -/
def State.deadlineUs (s : State) (i : Nat) : Nat := min 64 (max 16 (s.cur F.FEC_POOL_SLICE_deadline [i]))

/-- f × 256 of R268 over the LIT slices. -/
def State.poolScale (s : State) : Nat :=
  let lit := slices8.filter fun i => s.lit i
  let rho := (lit.map fun i => s.guar i * s.beta i).sum
  let floor := (lit.map fun i => 6 * s.beta i).sum
  let excess := (lit.map fun i => (s.guar i - 6) * s.beta i).sum
  if rho ≤ 8192 * betaDen then 256 else 256 * (8192 * betaDen - floor) / excess

/-- f is recomputed when a commit takes effect or a slice enters or leaves LIT; each time that f falls below 1 it raises
FEC_POOL_SCALED with f × 256 (R268, R577). β_s and g'_s of every slice are reported. -/
def State.poolRecompute (s : State) : State :=
  let f := s.poolScale
  let old := s.rd F.FEC_POOL_STAT_scale
  let s := (s.wr F.FEC_POOL_STAT_scale f).wr F.FEC_POOL_STAT_scaled (if f < 256 then 1 else 0)
  let s := forEach (fun i t =>
    if t.lit i then
      (t.wr F.FEC_STAT_beta (16 * t.beta i / betaDen) [i]).wr F.FEC_GEFF_geff (6 * 256 + (t.guar i - 6) * f) [i]
    else (t.wr F.FEC_STAT_beta 0 [i]).wr F.FEC_GEFF_geff 0 [i]) slices8 s
  if f < 256 ∧ old = 256 then s.raise 0x1E f else s

/-! ### The pool (R266 to R273) -/

/-- Iteration slots in a microsecond: 7.8125 ns each. -/
def slotsPerUs : Nat := 128

/-- A context holds a class-B block: its guarantee is spent, iterations remain and its slice may borrow (R269). -/
def State.classB (s : State) (b : Block) : Bool :=
  decide (b.guar ≤ b.iters ∧ b.iters < 24) && decide (s.cur F.FEC_POOL_SLICE_weight [b.slice] ≠ 0)

/-- Contexts held, and their peak (FEC_POOL_CTX, FEC_POOL_PEAK). -/
def State.poolMarks (s : State) : State :=
  let n := s.pool.blocks.length
  let s := s.wr F.FEC_POOL_CTX_value n
  if s.rd F.FEC_POOL_PEAK_value < n then s.wr F.FEC_POOL_PEAK_value n else s

/-- Position of a FEC counter of slice i (R575). -/
def fecCnt (i j : Nat) : Nat := 80 + 40 * i + j

/-- Position of an LFR counter of slice i (R575): ERRF, UNCB, FALSE, OOF, REC, BIP. -/
def lfrCnt (i j : Nat) : Nat := 464 + 8 * i + j

/-- Why a block leaves the pool (R270). -/
inductive Leave where
  | converged | full | noWeight | deadline | evicted | bypassed | poisoned
  deriving DecidableEq, Repr

/-- The rows of a block's context and of its place in the reorder store, one of each a block (R266, R272). DEDUCED (log 24). -/
def contextRow (b : Block) : Nat := b.id % 4096
def reorderRow (i id : Nat) : Nat := 2 ^ 16 + 8192 * i + id % 8192

/-- The signs of LLRs: a positive value means 0 (R223). -/
def hardBits (llrs : List Int) : List Bool := llrs.map fun v => decide (v < 0)

/-! ### The inner decoder (R252, R266) -/

/-- A column of the mother codeword that is shortened: a certain zero, which tells a check nothing (R251, R266). -/
def isShortened (rate k : Nat) : Bool := decide (ldpcK rate ≤ k ∧ k < 64 * ldpcInfoCols rate)

/-- The columns of a check that are not certain zeros. -/
def liveColumns (rate r : Nat) : List Nat := (checkColumns rate r).filter fun k => !isShortened rate k

/-- The place in the sent codeword of a column of the mother codeword, none where it is shortened or punctured (R251). -/
def sentPlace (rate k : Nat) : Option Nat :=
  if k < ldpcK rate then some k
  else
    let q := k - 64 * ldpcInfoCols rate
    if isShortened rate k || decide (64 * ldpcRows rate - ldpcPunct rate ≤ q) then none else some (ldpcK rate + q)

/-- A block before its first iteration: its LLRs, 0 at punctured positions, and nothing told yet (R266). -/
def Decoding.start (rate : Nat) (llrs : List Int) : Decoding :=
  { cols := (List.range (64 * (ldpcInfoCols rate + ldpcRows rate))).map fun k =>
      match sentPlace rate k with
      | some p => 1024 * llrs.getD p 0
      | none => 0,
    msgs := (List.range (64 * ldpcRows rate)).map fun r => (liveColumns rate r).map fun _ => 0 }

/-- One check: what it told its bits before is taken out, and what it tells them now put in. -/
def Decoding.check (rate : Nat) (d : Decoding) (r : Nat) : Decoding :=
  let ks := liveColumns rate r
  let old := d.msgs.getD r []
  let ins := ks.zipIdx.map fun p => d.cols.getD p.1 0 - old.getD p.2 0
  let out := Config.checkUpdate ins
  { cols := ks.zipIdx.foldl (fun l p => l.set p.1 (ins.getD p.2 0 + out.getD p.2 0)) d.cols,
    msgs := d.msgs.set r ((List.range ks.length).map fun j => out.getD j 0) }

/-- One iteration: the row groups as layers in ascending order (R252). -/
def Decoding.iterate (rate : Nat) (d : Decoding) : Decoding := (List.range (64 * ldpcRows rate)).foldl (Decoding.check rate) d

/-- The decision on a column: a positive LLR means 0 (R223), and so does 0. DESIGN CHOICE (log 41). -/
def Decoding.bit (d : Decoding) (k : Nat) : Bool := decide (d.cols.getD k 0 < 0)

/-- Parity checks that the decisions leave unsatisfied (R266). -/
def Decoding.unsat (rate : Nat) (d : Decoding) : Nat :=
  (List.range (64 * ldpcRows rate)).countP fun r => ((liveColumns rate r).map d.bit).foldl xor false

/-- The decisions on the sent codeword's bits. -/
def Decoding.sent (rate : Nat) (d : Decoding) : List Bool :=
  (List.range 24576).map fun p => d.bit (if p < ldpcK rate then p else 64 * ldpcInfoCols rate + (p - ldpcK rate))

/-- The bits that a block leaves with: the hard decisions of its last iteration, or the signs of its LLRs where it has had
none (R270). -/
def Block.decided (b : Block) : List Bool := if b.iters = 0 then hardBits b.llrs else b.state.sent b.code.rate

/-- Bits of a decided block that differ from the signs of its LLRs: the bits corrected (R270, R277). -/
def correctedBits (llrs : List Int) (bits : List Bool) : Nat :=
  ((List.zipWith xor (hardBits llrs) bits).filter id).length

/-- A block leaves the pool: its flags, counters and block-alignment count, to which the first 16 blocks of the hypothesis in use count,
and its place in the reorder store (R260, R270, R272, R276, R277). -/
def State.leavePool (s : State) (b : Block) (why : Leave) : State :=
  let i := b.slice
  let s := s.count (fecCnt i 0) 1
  let s := if 1 ≤ b.iters ∧ b.iters ≤ 24 then s.count (fecCnt i (9 + b.iters)) 1 else s
  let unconv := decide (why ≠ .converged)
  let s := if unconv then (s.count (fecCnt i 3) 1).wr F.FEC_EVT_unconv 1 [i] else s
  let s :=
    match why with
    | .deadline =>
      let s := (s.count (fecCnt i 4) 1).wr F.FEC_EVT_dlm 1 [i]
      if s.probing then { s with vtg := { s.vtg with dlm := tabPut 0 s.vtg.dlm i (tabGet 0 s.vtg.dlm i + 1) } } else s
    | .evicted => (s.count (fecCnt i 5) 1).wr F.FEC_EVT_evict 1 [i]
    | .bypassed => (s.count (fecCnt i 6) 1).wr F.FEC_EVT_bypass 1 [i]
    | _ => s
  let bits := b.decided
  let fixed := if unconv then 0 else correctedBits b.llrs bits
  let m := tabGet (0, 0, 0) s.pool.margin i
  let a := s.align1 i
  let s :=
    if s.rd F.FEC_STAT_sync [i] = 1 ∧ b.trial.1 = a.serial ∧ b.trial.2 < 16 then
      s.setAlign i { a with trial := a.trial + 1, good := a.good + (if unconv then 0 else 1) }
    else if s.rd F.FEC_STAT_sync [i] = 2 then s.setAlign i { a with bad := if unconv then a.bad + 1 else 0 }
    else s
  let s : State := { s with pool := { s.pool with
    blocks := s.pool.blocks.filter (fun x => x.id ≠ b.id),
    store := s.pool.store ++ [⟨b.id, i, unconv, b.first, decide (s.rd F.FEC_STAT_sync [i] = 2), false, b.pos, b.code, bits⟩],
    margin := tabPut (0, 0, 0) s.pool.margin i
      (if unconv then (m.1, m.2.1, m.2.2 + 1) else (m.1 + fixed, m.2.1 + 1, m.2.2)) } }
  let s := (s.memWrite 3 (reorderRow i b.id) true).2
  if unconv then s else s.count (fecCnt i 2) fixed

/-- The guaranteed iterations of the next block of slice i: the whole part of g'_s, plus one whenever the accumulator of
the fraction passes 1 (R268). -/
def State.takeGuar (s : State) (i : Nat) : Nat × State :=
  let g := s.rd F.FEC_GEFF_geff [i]
  let a := tabGet 0 s.pool.acc i + g % 256
  let s := { s with pool := { s.pool with acc := tabPut 0 s.pool.acc i (a % 256) } }
  (g / 256 + a / 256, s)

/-- Data symbols of the superframe before position `pos`. -/
def dataBefore (period pos : Nat) : Nat := pos - (pos + period - 1) / period

/-- The block that begins at RXD's position is the first of an interleave group: a whole number of groups after a superframe
at whose first data symbol a block begins (R259, R260). DEDUCED (log 18). -/
def State.groupFirst (s : State) (i : Nat) : Bool :=
  let r := s.rxSet i
  let ns := blockSymbols r.const
  let all := dataSymbols r.baud (s.rxdv F.RXD_MODE_CFG_pilot i)
  let x := ([0, 1, 2].find? fun k => decide (k * all % ns = s.rd F.FEC_STAT_hyp [i] * ns / 3)).getD 0
  let k := if all % ns = 0 then 0 else ((s.align1 i).phase + 3 - x) % 3
  decide ((k * all + dataBefore r.period (s.dsp1 i).pos) / ns % 16 = 0)

/-- Where RXD's next block begins: the first data symbol that the hypothesis makes one, a block beginning at data symbol
h N_s / 3 of the next superframe (R260). DEDUCED (log 18). -/
def State.alignBlock (s : State) (i : Nat) : State :=
  let d := s.dsp1 i
  let r := s.rxSet i
  let ns := blockSymbols r.const
  let gone := dataBefore r.period d.pos
  let want := (dataSymbols r.baud (s.rxdv F.RXD_MODE_CFG_pilot i) + s.rd F.FEC_STAT_hyp [i] * ns / 3) % ns
  let k := gone + (want + ns - gone % ns) % ns
  s.setDsp i { d with pos := (k + k / (r.period - 1) + 1) % superframeSymbols r.baud }

/-- A block takes a context. -/
def State.addBlock (s : State) (b : Block) : State := { s with pool := { s.pool with blocks := s.pool.blocks ++ [b] } }

/-- BLOCK_ARRIVAL: in TRACK alone RXD makes a block of LLRs of its samples; a full pool evicts its earliest class-B block or
bypasses the arrival (R18, R225, R226, R267, R271). DEDUCED (log 18). -/
def execBlockArrival (i : Fin 8) (samples : List AdcSample) (s : State) : Out :=
  .next (
    if s.acq i = acqTrack ∧ s.lit i = true then
      let (g, s) := s.takeGuar i
      let a := s.align1 i
      let x := s.rxSet i
      let code : CodeSet := ⟨x.const, x.ent, s.rxdv F.FEC_CODE_CFG_rate i⟩
      let first := s.groupFirst i
      let r := (s.setAlign i { a with formed := a.formed + 1 }).rxBlock i samples
      let s := r.2.2
      let b : Block :=
        { id := s.pool.nextId, slice := i, guar := g, deadline := s.pool.slot + slotsPerUs * s.deadlineUs i, iters := 0, tier := 0,
          age := 0, pos := r.1, first := first, trial := (a.serial, a.formed), code := code, llrs := r.2.1,
          state := Decoding.start code.rate r.2.1 }
      let s := { s with pool := { s.pool with nextId := s.pool.nextId + 1 } }
      let add := fun (t : State) =>
        ((t.memWrite 3 (contextRow b) true).2.addBlock b).poolMarks
      if s.pool.blocks.length < 4096 then add s
      else
        match s.pool.blocks.find? fun x => s.classB x with
        | some v => add (s.leavePool v .evicted)
        | none => s.leavePool b .bypassed
    else s)

/-- Class G before another class-G block: earlier deadline, then lower slice, then earlier arrival (R269). -/
def gBefore (a b : Block) : Bool :=
  decide (a.deadline < b.deadline ∨ (a.deadline = b.deadline ∧ (a.slice < b.slice ∨ (a.slice = b.slice ∧ a.id < b.id))))

/-- Insertion into a list ranked by `before`. -/
def rankIns {α : Type} (before : α → α → Bool) (x : α) : List α → List α
  | [] => [x]
  | y :: ys => if before x y then x :: y :: ys else y :: rankIns before x ys

/-- Takes up to `n` class-B blocks: highest tier first, within a tier the slices by weighted round robin, within a slice
the earlier arrival (R269). DEDUCED (log 18). -/
def pickB (weight : Nat → Nat) : Nat → List Block → Tab (Nat × Nat) → List Block × Tab (Nat × Nat)
  | 0, _, rr => ([], rr)
  | n + 1, bs, rr =>
    match (bs.map Block.tier).max? with
    | none => ([], rr)
    | some t =>
      let cur := tabGet (0, 0) rr t
      let ks := (bs.filter fun b => b.tier = t).map Block.slice
      let nxt := if cur.1 ∈ ks ∧ cur.2 < weight cur.1 then some cur.1
        else match (ks.filter fun k => decide (cur.1 < k)).min? with
          | some k => some k
          | none => ks.min?
      match nxt with
      | none => ([], rr)
      | some k =>
        match bs.find? fun b => b.tier = t ∧ b.slice = k with
        | none => ([], rr)
        | some b =>
          let given := if k = cur.1 ∧ cur.2 < weight k then cur.2 + 1 else 1
          let r := pickB weight n (bs.filter fun x => x.id ≠ b.id) (tabPut (0, 0) rr t (k, given))
          (b :: r.1, r.2)

/-- The blocks that the 64 engines take in this slot, in rank order, and the round robin after it (R269). DEDUCED (log 18). -/
def State.slotBlocks (s : State) : List Block × Tab (Nat × Nat) :=
  let g := (s.pool.blocks.filter fun b => decide (b.iters < b.guar)).foldl (fun l b => rankIns gBefore b l) []
  let g := g.take 64
  let bs := pickB (fun i => s.cur F.FEC_POOL_SLICE_weight [i]) (64 - g.length) (s.pool.blocks.filter fun b => s.classB b)
    s.pool.rr
  (g ++ bs.1, bs.2)

/-- A block after the slot: an iteration where it was served, at the end of whose guarantee it enters class B; a tier gained for every
age_step slots that it has waited unserved in class B (R266, R269, R275). -/
def State.slotBlock (s : State) (served : List Nat) (b : Block) : Block :=
  if b.id ∈ served then
    let b' := { b with iters := b.iters + 1, state := b.state.iterate b.code.rate }
    if b.iters < b.guar ∧ b'.guar ≤ b'.iters then
      { b' with tier := if b'.state.unsat b.code.rate ≤ s.cur F.FEC_POOL_CFG_need_thr then 1 else 0 }
    else b'
  else if s.classB b then
    if max 1 (s.cur F.FEC_POOL_CFG_age_step) ≤ b.age + 1 then { b with age := 0, tier := min 3 (b.tier + 1) }
    else { b with age := b.age + 1 }
  else b

/-- Why a block leaves at the end of the slot, the first cause of R270 that holds; `conv`: it converged in the slot. -/
def State.leaveCause (s : State) (conv : Bool) (b : Block) : Option Leave :=
  if conv then some .converged
  else if 24 ≤ b.iters then some .full
  else if b.guar ≤ b.iters ∧ s.cur F.FEC_POOL_SLICE_weight [b.slice] = 0 then some .noWeight
  else if b.deadline ≤ s.pool.slot then some .deadline
  else none

/-- The contexts of the blocks that the engines take are read: the blocks whose rows are uncorrectable, and the state after it; those
of the others are written again (R411, R413). -/
def State.readContexts (s : State) : List Block → List Block × State
  | [] => ([], s)
  | b :: bs =>
    let r := s.memRead 3 (contextRow b)
    let q := State.readContexts (if r.1 then r.2 else (r.2.memWrite 3 (contextRow b) true).2) bs
    (if r.1 then b :: q.1 else q.1, q.2)

/-- ITERATION_SLOT: the served blocks run one iteration each, and blocks leave for the first cause that holds; a block converges where
the iteration leaves every check satisfied, and leaves unconverged where its context cannot be read (R266, R269, R270, R413). -/
def execIterationSlot (s : State) : Out :=
  .next (
    let (taken, rr) := s.slotBlocks
    let (lost, s) := s.readContexts taken
    let s := forEach (fun b t => t.leavePool b .poisoned) lost s
    let served := taken.filter fun b => !lost.any fun x => decide (x.id = b.id)
    let ids := served.map Block.id
    let s := forEach (fun b t => t.count (fecCnt b.slice 1) 1) served s
    let blocks := s.pool.blocks.map (s.slotBlock ids)
    let s := { s with pool := { s.pool with slot := s.pool.slot + 1, blocks := blocks, rr := rr } }
    let s := forEach (fun b t =>
      match t.leaveCause (decide (b.id ∈ ids) && decide (b.state.unsat b.code.rate = 0)) b with
      | some c => t.leavePool b c
      | none => t) blocks s
    (s.wr F.FEC_POOL_STAT_engines taken.length).poolMarks)

/-- The decided block of slice i that every earlier block of its slice has left before: the next to be released (R272). -/
def Pool.nextRelease (p : Pool) (i : Nat) : Option Decided :=
  match (p.store.filter fun d => d.slice = i).map Decided.id |>.min? with
  | none => none
  | some m =>
    if p.blocks.any (fun b => b.slice = i ∧ b.id < m) then none else p.store.find? fun d => d.id = m

/-- Blocks held for the outer decoder after one more: the first of a group begins one, and ends a group that it cuts short; any other
joins the group in progress, and is dropped where none is (R259). -/
def heldWith (held : List Decided) (d : Decided) : List Decided :=
  let whole := held.length / 16 * 16
  if d.first then held.take whole ++ [d] else if held.length = whole then held else held ++ [d]

/-- REORDER_RELEASE: the slice's decided blocks leave the store in arrival order, one at a time; blocks decoded in NONE and SEARCH
are discarded, and the outer decoder takes whole groups (R259, R260, R272, R413). -/
def execReorderRelease (i : Fin 8) (s : State) : Out :=
  .next (
    match s.pool.nextRelease i with
    | none => s
    | some d =>
      let s := { s with pool := { s.pool with store := s.pool.store.filter fun x => x.id ≠ d.id } }
      let r := s.memRead 3 (reorderRow i d.id)
      let s := r.2
      let d := { d with lost := r.1 }
      if d.locked then
        let a := s.align1 i
        let l := s.lfr1 i
        let s := s.setLfr i { l with uncTot := l.uncTot + 1, uncBad := l.uncBad + b2n d.unconv }
        let s := if d.unconv then s.count (lfrCnt i 1) 1 else s
        s.setAlign i { a with held := heldWith a.held d }
      else s)

/-! ### Block alignment (R260) -/

/-- BLOCK_SYNC_TRIAL: the 16 blocks of a hypothesis are judged; 12 converged lock, and otherwise the next hypothesis is tried (R260). -/
def execBlockSyncTrial (i : Fin 8) (s : State) : Out :=
  .next (
    let a := s.align1 i
    if s.rd F.FEC_STAT_sync [i] = 1 ∧ 16 ≤ a.trial then
      let h := s.rd F.FEC_STAT_hyp [i]
      if 12 ≤ a.good then
        ((s.wr F.FEC_STAT_sync 2 [i]).setAlign i { a with bad := 0, held := [] }).raise 0x1C (i.val * 2 ^ 21 + h)
      else
        let H := hypotheses (s.rxBaud i) (s.rxdv F.RXD_MODE_CFG_const i) (s.rxdv F.RXD_MODE_CFG_pilot i)
        ((s.wr F.FEC_STAT_hyp ((h + 1) % H) [i]).setAlign i
          { a with serial := a.serial + 1, formed := 0, trial := 0, good := 0, phase := 2 }).alignBlock i
    else s)

/-- Block alignment is lost: SEARCH again, with its flag and event (R260). -/
def State.syncLost (s : State) (i : Nat) : State :=
  (((s.syncSearch i).alignBlock i).wr F.FEC_EVT_sync_lost 1 [i]).raise 0x1D (i * 2 ^ 21)

/-! ### The outer code (R261 to R263) -/

/-- Product of two elements of GF(2^15) modulo x^15 + x + 1, `n` bits of the second. -/
def bchMul (a : Nat) : Nat → Nat → Nat
  | 0, _ => 0
  | n + 1, b =>
    let r := 2 * bchMul a n (b / 2)
    let r := if 2 ^ 15 ≤ r then r ^^^ 0x8003 else r
    if b % 2 = 1 then r ^^^ a else r

/-- A power of the primitive element α. -/
def bchAlpha : Nat → Nat
  | 0 => 1
  | n + 1 => bchMul (bchAlpha n) 15 2

/-- A polynomial over the field, constant term first, times (x + r). -/
def bchTimes (p : List Nat) (r : Nat) : List Nat :=
  List.zipWith (fun a b => a ^^^ b) (0 :: p) (p.map (fun c => bchMul c 15 r) ++ [0])

/-- The minimal polynomial of α^i as the coefficients of a binary polynomial, x^k at bit k: its roots are the 15 conjugates. -/
def minimalPoly (i : Nat) : Nat :=
  let roots := (List.range 15).map fun k => bchAlpha (i * 2 ^ k % 32767)
  ofBits ((roots.foldl bchTimes [1]).reverse.map fun c => decide (c = 1))

/-- Product of two binary polynomials, `n` bits of the second. -/
def polyMul (a : Nat) : Nat → Nat → Nat
  | 0, _ => 0
  | n + 1, b => (2 * polyMul a n (b / 2)) ^^^ (if b % 2 = 1 then a else 0)

/-- The generator of the outer code: the minimal polynomials of α^1, α^3, … α^23, of degree 180 (R261). -/
def bchPoly : Nat := (List.range 12).foldl (fun g k => polyMul g 16 (minimalPoly (2 * k + 1))) 1

/-- The 180 bits that remain of a bit string, highest-degree coefficient first, divided by the generator after 180 zeros:
the parity of information bits, and 0 for a codeword (R261). -/
def bchParity (bits : List Bool) : List Bool := toBits 180 (crcBits 180 (bchPoly % 2 ^ 180) 0 bits)

/-- The inverse of a field element: its power 2^15 - 2. -/
def bchInv (a : Nat) : Nat :=
  let r := (List.range 13).foldl (fun r _ => bchMul (bchMul r 15 r) 15 a) a
  bchMul r 15 r

/-- The 24 syndromes of a word, highest-degree coefficient first: its values at α^1 to α^24. -/
def syndromes (w : List Bool) : List Nat :=
  (List.range 24).map fun j => w.foldl (fun acc b => bchMul acc 15 (bchAlpha (j + 1)) ^^^ b2n b) 0

/-- A polynomial over the field at a point, constant term first. -/
def polyAt (p : List Nat) (x : Nat) : Nat := p.foldr (fun c acc => c ^^^ bchMul acc 15 x) 0

/-- The state of the Berlekamp-Massey algorithm: the locator, the locator before its last change of length and its discrepancy, the
length, and the steps since that change. -/
structure Locator where
  poly : List Nat
  old  : List Nat
  disc : Nat
  len  : Nat
  gap  : Nat

/-- One step with the syndromes from the first: the discrepancy of syndrome n corrects the locator. -/
def Locator.step (syn : List Nat) (c : Locator) (n : Nat) : Locator :=
  let d := (List.range (c.len + 1)).foldl (fun acc k => acc ^^^ bchMul (c.poly.getD k 0) 15 (if k ≤ n then syn.getD (n - k) 0 else 0)) 0
  if d = 0 then { c with gap := c.gap + 1 }
  else
    let f := bchMul d 15 (bchInv c.disc)
    let shifted := List.replicate c.gap 0 ++ c.old.map fun x => bchMul x 15 f
    let poly := (List.range (max c.poly.length shifted.length)).map fun k => c.poly.getD k 0 ^^^ shifted.getD k 0
    if 2 * c.len ≤ n then ⟨poly, c.poly, d, n + 1 - c.len, 1⟩ else { c with poly := poly, gap := c.gap + 1 }

/-- The places of up to 12 errors of a word: those of the roots of its error locator, as many as its degree, and none where there are
not so many (R261, R263). -/
def errorPlaces (w : List Bool) : Option (List Nat) :=
  let c := (List.range 24).foldl (Locator.step (syndromes w)) ⟨[1], [1], 1, 0, 1⟩
  let places := (List.range w.length).filter fun p =>
    decide (polyAt c.poly (bchAlpha ((32767 - (w.length - 1 - p) % 32767) % 32767)) = 0)
  if c.len ≤ 12 ∧ places.length = c.len then some places else none

/-- A codeword after the outer decoder: the bits, how many were corrected, and whether it is a detected failure, whose bits pass
uncorrected (R261, R263). -/
def outerFix (w : List Bool) : List Bool × Nat × Bool :=
  match errorPlaces w with
  | some ps => (w.zipIdx.map fun p => xor p.1 (decide (p.2 ∈ ps)), ps.length, false)
  | none => (w, 0, true)

/-- E_max: the least energy with at least 2^B shells of 128 amplitudes of that energy or less (R255). -/
def energyMax (amps : List Nat) (b : Nat) : Nat :=
  ((List.range (128 * 49 + 1)).find? fun e => decide (2 ^ b ≤ shellCount amps 128 e)).getD (128 * 49)

/-- The amplitude that a label's bits name (R236). -/
def labelAmp (c : Nat) (b : List Bool) : Nat :=
  if labelBits c = 4 then (amp16 (b.getD 0 false)).toNat else (amp64 (b.getD 0 false) (b.getD 1 false)).toNat

/-- The dematcher: the B bits of a shell, B zero bits and a count where its energy or index is out of range (R256). -/
def dematch (c b : Nat) (labels : List Bool) : List Bool × Nat :=
  let amps := ampSet (constActs c)
  let w := (labelBits c - 2) / 2
  let shell := (groupsOf w 128 labels).map (labelAmp c)
  let top := energyMax amps b
  let j := shellIndex amps top shell
  if top < (shell.map fun a => a * a).sum ∨ 2 ^ b ≤ j then (List.replicate b false, 1) else (toBits b j, 0)

/-- The I_b information bits of a decided block, and the shells rejected (R254, R256). -/
def blockBits (c e rate : Nat) (w : List Bool) : List Bool × Nat :=
  let a := ampPositions c
  let amp := w.take a
  let sign := (w.take (ldpcK rate)).drop a
  if isPcs c then
    let b := entropyActs (constActs c) e - 128
    let shells := (groupsOf (128 * ((labelBits c - 2) / 2)) (blockSymbols c / 32) amp).map (dematch c b)
    (shells.flatMap Prod.fst ++ sign, (shells.map Prod.snd).sum)
  else (amp ++ sign, 0)

/-- Decoded bits join those that the framer holds, of which it keeps the last `keep`; what it points at, and the tags of the blocks that
they came from, move with them (R225, R315, R320). -/
def Lfr.append (l : Lfr) (keep : Nat) (bits : List (Bool × Bool)) (tags : List (Nat × Nat)) : Lfr :=
  let w := l.window ++ bits
  let d := w.length - keep
  let new := tags.map fun p => (((l.window.length + p.1 : Nat) : Int), p.2)
  { l with window := w.drop d, next := l.next - d, start := l.start - d, cand := l.cand.map fun p => (p.1 - d, p.2),
           excluded := l.excluded.bind fun p => if p < d then none else some (p - d),
           tags := ((l.tags ++ new).map fun p => (p.1 - (d : Int), p.2)).filter fun p => decide (-65536 < p.1) }

/-- OUTER_GROUP_DECODE: a group of 16 released blocks is decoded and delivered to LFR, its bits marked where it has an
uncorrectable codeword, a block that the reorder store has lost, or where their block left unconverged (R256, R261 to R263, R274,
R413). -/
def execOuterGroupDecode (i : Fin 8) (s : State) : Out :=
  .next (
    let a := s.align1 i
    match a.held with
    | [] => s
    | h :: _ =>
      if 16 ≤ a.held.length then
        let group := a.held.take 16
        let ib := blockInfo h.code.const h.code.ent h.code.rate
        let blocks := group.map fun b => blockBits h.code.const h.code.ent h.code.rate b.bits
        let stream := blocks.flatMap Prod.fst
        let fixed := (List.range 16).map fun j => outerFix ((List.range ib).map fun k => stream.getD (outerPosition k j) false)
        let n := (fixed.filter fun r => r.2.2).length
        let dmBad := (blocks.map Prod.snd).sum
        let out := (List.range (ib - 180)).flatMap fun k => (List.range 16).map fun j =>
          (((fixed.getD j ([], 0, false)).1).getD k false,
            decide (n ≠ 0) || group.any Decided.lost || (group.map Decided.unconv).getD ((16 * k + j) / ib) false)
        let tags := group.zipIdx.map fun b => (b.2 * ib, b.1.pos)
        let s := ((s.count (fecCnt i 7) (fixed.map fun r => r.2.1).sum).count (fecCnt i 8) n).count (fecCnt i 9) dmBad
        let s := if n ≠ 0 then s.wr F.FEC_EVT_uncorr 1 [i] else s
        let s := if dmBad ≠ 0 then s.wr F.FEC_EVT_dm_bad 1 [i] else s
        let s := if s.probing then
            { s with vtg := { s.vtg with ucb := tabPut 0 s.vtg.ucb i (tabGet 0 s.vtg.ucb i + n) } } else s
        let l := s.lfr1 i
        let s := s.setLfr i ({ l with recAcc := l.recAcc + n }.append (2 * s.rxFrame i + 48) out tags)
        s.setAlign i { a with held := a.held.drop 16 }
      else s)

/-! ### The margin (R265, R277) -/

/-- The 10-iteration threshold of a rate, in 10^-4 (R265). -/
def ber10 (rate : Nat) : Nat := [290, 240, 200, 170].getD rate 240

/-- 20 log10(√2 erfc⁻¹(2p)) of p = num/den in dB, in units of 2^-64 (R277). -/
def qOf (num den : Nat) : Int :=
  let x := (erfcInv256 (2 * num * 2 ^ 256 / den : Nat)).toNat
  fxDb (2 * x ^ 2 / 2 ^ 320) (2 ^ 192)

/-- FEC_MARGIN.margin in 1/64 dB from corrected and sent bits: Q(BER) - Q(threshold); where no bit, or half of the bits or more, were
corrected, Q has no value, and the margin is free (R277). -/
def fecMargin (bad sent rate : Nat) : Nat :=
  if bad = 0 ∨ sent ≤ 2 * bad then (Config.marginOpen bad sent).toNat
  else ofSigned 12 (roundOpen (64 * (qOf bad sent - qOf (ber10 rate) 10000)) (2 ^ 64))

/-- The lowest valid margin of slice i over the period of an ageing record (R521). -/
def State.lowMargin (s : State) (i : Nat) (m : Int) : State :=
  let v := match tabGet none s.mon.low i with
    | some l => min l m
    | none => m
  { s with mon := { s.mon with low := tabPut none s.mon.low i (some v) } }

/-- MARGIN_INTERVAL: 10 ms of a slice in TRACK have passed: FEC_MARGIN from the bits corrected in its converged blocks, which
no block or too many unconverged ones leave invalid (R277). -/
def execMarginInterval (i : Fin 8) (s : State) : Out :=
  .next (
    let m := tabGet (0, 0, 0) s.pool.margin i
    let s := { s with pool := { s.pool with margin := tabPut (0, 0, 0) s.pool.margin i (0, 0, 0) } }
    if s.acq i = acqTrack then
      if m.2.1 = 0 ∨ m.2.1 + m.2.2 < 100 * m.2.2 then s.wr F.FEC_MARGIN_valid 0 [i]
      else
        let q := fecMargin m.1 (24576 * m.2.1) (s.rxdv F.FEC_CODE_CFG_rate i)
        ((s.wr F.FEC_MARGIN_margin q [i]).wr F.FEC_MARGIN_valid 1 [i]).lowMargin i (toSigned 12 q)
    else s)

end Sys2Proof.Machine
end

