-- ==== Sys2Proof/Machine/Tendril.lean ====
section
/-!
DEFINITION. The tendril channel of a slice: waiting packets and their sending, detection and reception, the mailboxes
(chapter 11, R278 to R294). The agreement of line changes stands in Agreement.lean.
-/

namespace Sys2Proof.Machine

/-! ### Message types (R293) -/

def tyHello : Nat := 0x01
def tyPropose : Nat := 0x10
def tyAccept : Nat := 0x11
def tyRefuse : Nat := 0x12
def tyCancel : Nat := 0x13
def tyReturn : Nat := 0x14
def tySwitch : Nat := 0x15

/-- The payload length of a device type, none for an unlisted one (R293). -/
def typeLen (t : Nat) : Option Nat :=
  if t = tyHello ∨ t = tyAccept ∨ t = tyRefuse ∨ t = tyReturn ∨ t = tySwitch then some 6
  else if t = tyPropose then some 15
  else if t = tyCancel then some 3
  else none

/-- A repeat of the type is acted on (R293). -/
def repeatActs (t : Nat) : Bool := decide (t = tyHello ∨ t = tyPropose)

/-- The order in which waiting packets are chosen: 0 first (R286). -/
def pktRank (t : Nat) : Nat :=
  if t = tyAccept ∨ t = tyRefuse ∨ t = tyCancel ∨ t = tyReturn then 0
  else if t = tyPropose ∨ t = tySwitch then 1
  else if 0x80 ≤ t then 2
  else 3

/-- The settings summary of slice s from an image's transmit or receive mode word (R293). -/
def summaryOf (s baud const entropy pilot rate : Nat) : Nat :=
  s * 2 ^ 21 + baud * 2 ^ 18 + const * 2 ^ 15 + (if const ≤ 2 then 0 else entropy) * 2 ^ 6 + pilot * 2 ^ 4 + rate * 2 ^ 2

/-- The summary of the transmit settings of an image. -/
def txSummary (m : Tab Nat) (i : Nat) : Nat :=
  summaryOf i (imgGet m F.TXD_MODE_CFG_baud [i]) (imgGet m F.TXD_MODE_CFG_const [i])
    (imgGet m F.TXD_MODE_CFG_entropy [i]) (imgGet m F.TXD_MODE_CFG_pilot [i]) (imgGet m F.FEC_CODE_CFG_rate [i])

/-- The summary of the receive settings of an image. -/
def rxSummary (m : Tab Nat) (i : Nat) : Nat :=
  summaryOf i (imgGet m F.RXD_MODE_CFG_baud [i]) (imgGet m F.RXD_MODE_CFG_const [i])
    (imgGet m F.RXD_MODE_CFG_entropy [i]) (imgGet m F.RXD_MODE_CFG_pilot [i]) (imgGet m F.FEC_CODE_CFG_rate [i])

/-- Position of a TDL counter of slice i (R575): TX, OK, FALSE, HDR, CRC, PREEMPT, MISSED. -/
def tdlCnt (i j : Nat) : Nat := 400 + 8 * i + j

/-! ### Sending (R286, R287) -/

/-- A packet of slice i is queued; a slice that is not LIT and a STANDBY twin form none (R286, R287). -/
def State.tdlQueue (s : State) (i typ : Nat) (body : List Nat) : State :=
  if s.lit i && !s.standby then
    let x := s.tdl1 i
    let q := if typ = tyHello then x.queue.filter fun p => p.typ ≠ tyHello else x.queue
    s.setTdl i { x with queue := q ++ [⟨typ, body⟩] }
  else s

/-- The packet that is sent next: the first of the lowest rank (R286). -/
def nextPkt : List TdlPkt → Option TdlPkt
  | [] => none
  | p :: ps =>
    match nextPkt ps with
    | none => some p
    | some b => if pktRank p.typ ≤ pktRank b.typ then some p else some b

/-- A HELLO gets its payload when its first preamble symbol leaves (R293). DEDUCED (log 19). -/
def State.formPkt (s : State) (i : Nat) (p : TdlPkt) : TdlPkt :=
  if p.typ = tyHello then
    ⟨p.typ, wordBytes (txSummary s.vtg.current i) ++ wordBytes (s.rd F.LFR_TX_SFC_count [i])⟩
  else p

/-- The spread symbols of the packet that slice i sends (R282 to R285). -/
def State.sendingBits (s : State) (i : Nat) : List Bool :=
  match (s.tdl1 i).sending with
  | some p => packetSpread s.ctl.otpSerial.toNat p.typ (((s.tdl1 i).seqNo + 63) % 64) p.body
  | none => []

/-- TENDRIL_PACKET_START: at a grid point of the spreading factor in force, which holds for the whole packet, the next waiting packet
starts, with the next sequence number; nothing starts while a packet is being sent, nor on a STANDBY twin (R280, R282, R286,
R287). -/
def execTendrilPacketStart (i : Fin 8) (s : State) : Out :=
  .next (
    let x := s.tdl1 i
    match x.sending, nextPkt x.queue with
    | none, some p =>
      if s.lit i && !s.standby then
        let sf := s.cur F.TDL_TX_CFG_sf [i]
        let grid := 64 * spreading sf
        s.setTdl i { x with queue := x.queue.erase p, sending := some (s.formPkt i p), sendSf := sf, seqNo := (x.seqNo + 1) % 64,
                            sent := -(((grid - (s.tx1 i).pos % grid) % grid : Nat) : Int),
                            proposed := x.proposed || decide (p.typ = tyPropose) }
      else s
    | _, _ => s)

/-- HELLO_INTERVAL: a HELLO is queued on a LIT slice whose tendril is enabled; 0 disables (R287). DEDUCED (log 19). -/
def execHelloInterval (i : Fin 8) (s : State) : Out :=
  .next (
    if s.curBit F.TDL_TX_CFG_en [i] = true ∧ s.cur F.TDL_TX_CFG_hello [i] ≠ 0 then s.tdlQueue i tyHello [] else s)

/-! ### Detection and reception (R288 to R292) -/

/-- Detections of one cycle are compared: the highest peak, then the smaller spreading factor (R290). -/
def bestDetection : List TdlDetect → Option TdlDetect
  | [] => none
  | d :: ds =>
    match bestDetection ds with
    | none => some d
    | some b => if b.peak < d.peak ∨ (b.peak = d.peak ∧ d.sf ≤ b.sf) then some d else some b

/-- The correlation peak of a candidate in 0.25 dB: on equalised samples its own, on raw samples that of the powers of both
polarisations together, which come in 1/256 of the noise power (R288, R289). -/
def State.detectPeak (s : State) (i : Nat) (d : TdlDetect) : Nat :=
  if s.acq i = acqTrack then d.peak else (roundOpen (4 * fxDb (max 512 (d.raw.1 + d.raw.2)) 512) (2 ^ 64)).toNat

/-- A candidate lies within the offsets that are searched: ±5.0 GHz on raw samples (R288). -/
def State.inSearch (s : State) (i : Nat) (d : TdlDetect) : Bool :=
  decide (s.acq i = acqTrack) || decide (d.offset.natAbs ≤ 5000000000)

/-- The bank of this spreading factor searches, and its input is available (R288). -/
def State.tdlSearches (s : State) (i sf : Nat) : Bool :=
  decide (s.cur F.TDL_RX_CFG_sf_mask [i] / 2 ^ sf % 2 = 1)
    && (decide (s.acq i = acqTrack) || s.curBit F.TDL_RX_CFG_raw_en [i])

/-- A spread symbol of despread SNR `snr` in quarter dB is cancelled (R222). -/
def cancels (en : Bool) (conf snr : Nat) : Bool := en && decide (4 * (3 + conf) ≤ snr)

/-- TDL reports a decision to RXD: it is to be cancelled with the mean gain of the last 16 spread symbols, or left in the
signal and counted (R222, R292). A symbol met while cancellation is disabled is not counted. DESIGN CHOICE (log 41). -/
def State.reportOne (s : State) (i sf : Nat) (t : TdlDecision) : State :=
  let d := s.dsp1 i
  let gains := (t.gain :: d.gains).take 16
  let sum : Dual := ⟨cxSum (gains.map Dual.x), cxSum (gains.map Dual.y)⟩
  let en := s.curBit F.RXD_TDC_CFG_en [i]
  if cancels en (s.cur F.RXD_TDC_CFG_conf [i]) t.snr then
    s.setDsp i { d with gains := gains, reports := ⟨t.start, sf, t.bit, sum, gains.length⟩ :: d.reports }
  else s.setDsp i { d with gains := gains, left := d.left + b2n en }

/-- The spread symbols decided since the last report, while a reception is in progress: RXD hears of them, and the packet's
decoder keeps them (R291, R292). -/
def State.report (s : State) (i : Nat) (decided : List TdlDecision) : State :=
  match (s.tdl1 i).rx with
  | some r =>
    let s := forEach (fun t u => u.reportOne i r.sf t) decided s
    s.setTdl i { s.tdl1 i with rx := some { r with got := r.got ++ decided.map TdlDecision.bit } }
  | none => s

/-- A reception starts: spreading factor, input and despread SNR are reported (R288, R290). -/
def State.startReception (s : State) (i : Nat) (d : TdlDetect) : State :=
  let s := s.setDsp i { s.dsp1 i with gains := [] }
  let s := s.setTdl i { s.tdl1 i with rx := some ⟨d.sf, d.peak, d.chip, none, []⟩ }
  let s := (s.wr F.TDL_RX_STAT_rx 1 [i]).wr F.TDL_RX_STAT_sf d.sf [i]
  (s.wr F.TDL_RX_STAT_src (b2n (decide (s.acq i = acqTrack))) [i]).wr F.TDL_RX_STAT_snr (min 255 d.peak) [i]

/-- The candidate with the best peak of a cycle meets a reception or none (R290). -/
def State.detect (s : State) (i : Nat) (d : TdlDetect) : State :=
  match (s.tdl1 i).rx with
  | none => s.startReception i d
  | some r =>
    if d.sf = r.sf ∧ (d.chip - r.chip).natAbs ≤ 1 then s
    else if r.peak + 2 * s.cur F.TDL_RX_CFG_cap_margin [i] ≤ d.peak then
      ((s.count (tdlCnt i 5) 1).wr F.TDL_EVT_preempt 1 [i]).startReception i d
    else (s.count (tdlCnt i 6) 1).wr F.TDL_EVT_missed 1 [i]

/-- TENDRIL_DETECTION: the candidates of one cycle, each with its peak, on raw samples its powers and carrier offset, its timing in
chips and the errors of its start word (R288 to R290). -/
def execTendrilDetection (i : Fin 8) (cands : List TdlDetect) (s : State) : Out :=
  .next (
    if s.lit i then
      let cs := ((cands.filter fun d => s.tdlSearches i d.sf && s.inSearch i d).map fun d => { d with peak := s.detectPeak i d }).filter
        fun d => decide (2 * s.cur F.TDL_RX_CFG_det_thr [i] ≤ d.peak)
      let bad := (cs.filter fun d => decide (2 < d.startErrs)).length
      let s := if bad = 0 then s else s.count (tdlCnt i 2) bad
      match bestDetection (cs.filter fun d => decide (d.startErrs ≤ 2)) with
      | some d => s.detect i d
      | none => s
    else s)

/-- The reception of slice i ends. -/
def State.endReception (s : State) (i : Nat) : State :=
  (s.setTdl i { s.tdl1 i with rx := none }).wr F.TDL_RX_STAT_rx 0 [i]

/-- A bad header: counted and flagged (R291, R293). -/
def State.badHeader (s : State) (i : Nat) : State := (s.count (tdlCnt i 3) 1).wr F.TDL_EVT_hdr 1 [i]

/-- Field of a decoded header (R282): bits from offset `lo`, `n` of them. -/
def hdrField (h : List Bool) (lo n : Nat) : Nat := ofBits ((h.drop lo).take n)

/-- The header of a reception is judged: an uncorrectable codeword, or L above 240, ends it (R291). -/
def State.takeHeader (s : State) (i : Nat) (r : TdlRx) : State :=
  match headerOf (withoutPilots r.got) with
  | none => (s.endReception i).badHeader i
  | some h =>
    if 240 < hdrField h 32 8 then (s.endReception i).badHeader i
    else s.setTdl i { s.tdl1 i with rx := some { r with header := some h } }

/-- TENDRIL_HEADER_DECODE: with the 108 spread symbols of the header codewords decided, the header is decoded. `decided` are
those decided since the detection or the last report (R285, R291, R292). -/
def execTendrilHeaderDecode (i : Fin 8) (decided : List TdlDecision) (s : State) : Out :=
  .next (
    let s := s.report i decided
    match (s.tdl1 i).rx with
    | some r => if r.header = none ∧ 108 ≤ r.got.length then s.takeHeader i r else s
    | none => s)

/-- A good packet: a repeat is one with the serial and sequence number of the last good packet; an unlisted device type
or a wrong length is discarded (R291, R293). -/
def State.goodPacket (s : State) (i : Nat) (h : List Bool) (payload : List Nat) : State :=
  let src := hdrField h 0 24
  let typ := hdrField h 24 8
  let seq := hdrField h 40 6
  let x := s.tdl1 i
  let rep := decide (x.last = some (src, seq))
  let s := s.setTdl i { x with last := some (src, seq) }
  if typ < 0x80 ∧ typeLen typ ≠ some payload.length then s.badHeader i
  else
    let s := s.count (tdlCnt i 1) 1
    if rep = true ∧ repeatActs typ = false then s
    else s.setTdl i { s.tdl1 i with inbox := (s.tdl1 i).inbox ++ [⟨typ, payload, src, rep⟩] }

/-- A reception whose body is whole: its payload and CRC are checked (R282, R291). -/
def State.takeBody (s : State) (i : Nat) (h got : List Bool) : State :=
  let n := hdrField h 32 8
  let body := bodyOf (codewords n - 4) (withoutPilots got)
  let payload := body.take (8 * n)
  let s := s.endReception i
  if fcs32 (h ++ payload) = ofBits ((body.drop (8 * n)).take 32) then s.goodPacket i h ((groupsOf 8 n payload).map ofBits)
  else (s.count (tdlCnt i 4) 1).wr F.TDL_EVT_crc 1 [i]

/-- TENDRIL_RECEPTION_END: the reception has run to the 64 + 27C spread symbols that L implies, and the packet is checked.
`decided` are the spread symbols decided since the last report (R285, R291, R292). -/
def execTendrilReceptionEnd (i : Fin 8) (decided : List TdlDecision) (s : State) : Out :=
  .next (
    let s := s.report i decided
    match (s.tdl1 i).rx with
    | some r =>
      match r.header with
      | some h => if 27 * codewords (hdrField h 32 8) ≤ r.got.length then s.takeBody i h r.got else s
      | none => s
    | none => s)

/-- The oldest good packet of slice i that has not been acted on, if it is of the type. -/
def State.tdlHead (s : State) (i : Nat) (ok : Nat → Bool) : Option TdlGood :=
  match (s.tdl1 i).inbox with
  | g :: _ => if ok g.typ then some g else none
  | [] => none

/-- The oldest good packet leaves the inbox. -/
def State.tdlPop (s : State) (i : Nat) : State := s.setTdl i { s.tdl1 i with inbox := (s.tdl1 i).inbox.tail }

/-- HELLO: a good HELLO is taken; the device keeps nothing of it (R293). -/
def execHello (i : Fin 8) (s : State) : Out :=
  .next (match s.tdlHead i (fun t => decide (t = tyHello)) with
    | some _ => s.tdlPop i
    | none => s)

/-- SWITCH: TDL_SWITCH with the TWIN_SIDE of the new ACTIVE twin (R302). -/
def execSwitch (i : Fin 8) (s : State) : Out :=
  .next (match s.tdlHead i (fun t => decide (t = tySwitch)) with
    | some g => (s.tdlPop i).raise 0x22 (i.val * 2 ^ 21 + payWord g.body 0 / 2 ^ 23 * 2 ^ 20)
    | none => s)

/-! ### Mailboxes (R294) -/

/-- Bytes of the transmit mailbox of slice i. -/
def State.mailboxBytes (s : State) (i n : Nat) : List Nat :=
  ((List.range 80).flatMap fun w => wordBytes (s.rd F.TDL_MB_TX_bytes [i, w])).take n

/-- MAILBOX_GO: the mailbox packet is queued, or refused while busy or for a device type; discarded on a DARK slice (R53,
R294). A slice that is not LIT, and a STANDBY twin, keep it waiting (R286, R287). -/
def execMailboxGo (i : Fin 8) (s : State) : Out :=
  .next (
    let typ := s.rd F.TDL_MB_TX_CMD_type [i]
    if s.sliceState i = slDark then s
    else if s.bit F.TDL_MB_TX_CMD_busy [i] ∨ typ < 0x80 then s.wr F.TDL_EVT_mb_refused 1 [i]
    else
      let x := s.tdl1 i
      let p : TdlPkt := ⟨typ, s.mailboxBytes i (min 240 (s.rd F.TDL_MB_TX_CMD_len [i]))⟩
      (s.setTdl i { x with queue := x.queue ++ [p] }).wr F.TDL_MB_TX_CMD_busy 1 [i])

/-- MAILBOX_RELEASE: the receive mailbox is empty; discarded on a DARK slice (R53, R294). -/
def execMailboxRelease (i : Fin 8) (s : State) : Out :=
  .next (if s.sliceState i = slDark then s else s.wr F.TDL_MB_RX_STAT_full 0 [i])

/-- MAILBOX_PACKET_RX: a good packet of a host type fills the receive mailbox, or is dropped while it is full (R294). -/
def execMailboxPacketRx (i : Fin 8) (s : State) : Out :=
  .next (match s.tdlHead i (fun t => decide (0x80 ≤ t)) with
    | some g =>
      let s := s.tdlPop i
      if s.bit F.TDL_MB_RX_STAT_full [i] then s.wr F.TDL_EVT_mb_drop 1 [i]
      else
        let s := forEach (fun w t => t.wr F.TDL_MB_RX_bytes (payWord g.body w) [i, w])
          (List.range ((g.body.length + 2) / 3)) s
        let s := (s.wr F.TDL_MB_RX_STAT_full 1 [i]).wr F.TDL_MB_RX_STAT_type g.typ [i]
        let s := (s.wr F.TDL_MB_RX_STAT_len g.body.length [i]).wr F.TDL_MB_RX_SRC_serial g.src [i]
        s.raise 0x21 (i.val * 2 ^ 21 + g.typ)
    | none => s)

end Sys2Proof.Machine
end

