-- ==== Sys2Proof/Machine/Transmit.lean ====
section
/-!
DEFINITION. Transmit shaping and spectral masks: levels, the mask limiter, the sums of the pre-emphasis, muting and the change of
symbol rate (chapter 09, R234 to R250).
-/

namespace Sys2Proof.Machine

/-! ### Levels, roll-off and codes (R241 to R247) -/

/-- The tendril level in -dB that a setting acts as: 20 to 34 (R241). -/
def levelActs (d : Nat) : Nat := (clampInt 20 34 d).toNat

/-- The roll-off, in units of 0.005, that a value acts as (R242). -/
def rolloffActs (r : Nat) : Nat := if r = 0 then 1 else min r 40

/-- The DAC code of 64 × y for y = num/den, and whether it was clamped to the code range; a tie goes away from zero (R200, R247).
DESIGN CHOICE (log 41). -/
def dacCode (num : Int) (den : Nat) : Int × Bool :=
  let r := roundAway (64 * num) den
  (clampInt (-128) 127 r, decide (r < -128 ∨ 127 < r))

/-- The root-raised-cosine response at n fifths of a symbol period from the centre, at a roll-off of r × 0.005, with unit energy in
symbol periods, in units of 2^-64 (R242). -/
def rrcAt (r : Nat) (n : Int) : Int :=
  let ang := fun (num : Int) (den : Nat) => roundAway (fxPi * num) den
  if n = 0 then fxOne + (4 * fxDiv fxOne fxPi - fxOne) * r / 200
  else if (n * r).natAbs = 250 then
    let q := ang 50 r
    let s := fxMul (fxOne + fxDiv (2 * fxOne) fxPi) (fxSin q) + fxMul (fxOne - fxDiv (2 * fxOne) fxPi) (fxCos q)
    fxDiv (s * r / 200) (fxSqrt (2 * fxOne))
  else
    let num := fxSin (ang (n * (200 - (r : Int))) 1000) + n * r * fxCos (ang (n * (200 + (r : Int))) 1000) / 250
    fxDiv (num * (5 * 250 ^ 2)) (fxPi * n * (250 ^ 2 - (n * r) ^ 2))

/-- The sum of values scaled. -/
def dualSum (l : List (Int × Dual)) : Dual :=
  ⟨cxSum (l.map fun p => Cx.scale p.1 p.2.x), cxSum (l.map fun p => Cx.scale p.1 p.2.y)⟩

/-- The pulse shaper (R234, R242): from symbols of which the first has position `pos`, and the 64 before them, oldest first, to 1.25
samples a symbol, at every multiple of 0.8 symbol periods; sample m lies 32 symbols, half the span, behind the last symbol that it
takes. The coefficients are held in units of 2^-30, which the results have beyond the symbols' own. -/
def pulse (r pos : Nat) (before new : List Dual) : List Dual :=
  let all := List.replicate (64 - before.length) ⟨⟨0, 0⟩, ⟨0, 0⟩⟩ ++ before ++ new
  let first := (5 * pos + 3) / 4
  let h := ((List.range 321).map fun (k : Nat) => roundAway (rrcAt r ((k : Int) - 160)) (2 ^ 34))
  (List.range ((5 * (pos + new.length) + 3) / 4 - first)).map fun k =>
    let m := first + k
    dualSum ((List.range 65).map fun (j : Nat) =>
      -- symbol ⌊4m/5⌋ - j lies at 5j + (4m mod 5) - 160 fifths from the centre of the filter
      let off := 5 * j + 4 * m % 5
      (h.getD off 0, all.getD (64 + 4 * m / 5 - pos - j) ⟨⟨0, 0⟩, ⟨0, 0⟩⟩))

/-- The attenuation of the limiter at a frequency in units of 2^-20 R, in quarter dB times 20,480: linear in dB between the centres of
the bins, 5/256 R apart and bin 0 at -31.5 of them, and that of the outermost bin beyond it (R243, R244). -/
def attAt (att : Nat → Nat) (f : Int) : Nat :=
  let b := (clampInt 0 (63 * 20480) (f + 645120)).toNat
  let k := min 62 (b / 20480)
  att k * (20480 * (k + 1) - b) + att (k + 1) * (b - 20480 * k)

/-- The amplitude factor of the limiter at a frequency, in units of 2^-64 (R244). -/
def maskGain (att : Nat → Nat) (f : Int) : Int := fxAmplitude (-((attAt att f : Int) * fxOne) / (4 * 20480))

/-- The mean power of the waveform of one spread symbol, as a sum over its symbol periods (R241). -/
def waveEnergy (filt : Nat → Int) (sf : Nat) : Nat :=
  ((List.range (64 * spreading sf)).map fun (n : Nat) => (spreadWave filt sf false n).natAbs ^ 2).sum

/-- The factor, in units of 2^-40, that brings the waveform on each component to a level in -dB: both components of a polarisation
together then have 0.25 × 10^(-level/10), the mean power of the main signal being 0.25 (R237, R241). -/
def tendrilGain (level : Nat) (filt : Nat → Int) (sf : Nat) : Int :=
  let e := waveEnergy filt sf
  if e = 0 then 0
  else (isqrt ((fxExp (-((level : Int) * fxLn10 / 10))).toNat * 2 ^ 13 * (64 * spreading sf) / e) : Nat)

/-- The gain that a DAC gain word acts as: 0 acts as 0x400 (R247). -/
def gainActs (g : Nat) : Nat := if g = 0 then 0x400 else g

/-! ### Muting (R248, R249) -/

/-- A slice carries traffic under R49: kept in a RECOVERY entered from SERVICE. -/
def State.keptTraffic (s : State) (i : Nat) : Bool :=
  decide (s.mode = modeRecovery ∧ s.rd F.GLB_MODE_prev = modeService) && s.lit i

/-- The mode cause. In DORMANT it holds as well, as the reset value of m_mode says. -/
def State.muteMode (s : State) (i : Nat) : Bool := !(decide (s.mode = modeService) || s.keptTraffic i)

/-- The slice cause. -/
def State.muteSlice (s : State) (i : Nat) : Bool := !s.lit i

/-- The mask cause. -/
def State.muteMask (s : State) (i : Nat) : Bool := s.bit F.TXD_STAT_mask_alarm [i] && s.bit F.TXD_MUTE_mask_mute [i]

/-- The rate cause (R250). -/
def State.muteRate (s : State) (i : Nat) : Bool := decide ((s.tx1 i).rate ≠ .none)

/-- A LIT slice that has begun its first superframe runs on the transmit grid (R335). -/
def State.onGrid (s : State) (i : Nat) : Bool := s.lit i && !(s.tx1 i).first

/-- The slices that run on the grid. -/
def State.gridSlices (s : State) : List Nat := slices8.filter fun i => s.onGrid i

/-- The transmit superframe count of the grid, that of the first slice on it (R335). -/
def State.gridSfc (s : State) : Nat :=
  match s.gridSlices with
  | i :: _ => s.rd F.LFR_TX_SFC_count [i]
  | [] => 0

/-- A commanded release is to mute slice i: its transmitters ramp down over the 16 frames before the grid's superframe S, and stay
muted until the role has moved there (R482). -/
def State.releaseRamp (s : State) (i : Nat) : Bool :=
  match s.pry.relAt with
  | some b => s.pry.relAck && (decide (s.gridSfc = b)
      || decide ((s.gridSfc + 1) % 2 ^ 24 = b ∧ (s.lfr1 i).txMfi = 15 ∧ 240 ≤ (s.lfr1 i).txMfas))
  | none => false

/-- The transmit target is muted while any cause holds, and in the ramp of a release (R248, R482). -/
def State.muteTarget (s : State) (i : Nat) : Bool :=
  s.muteMode i || s.muteSlice i || s.bit F.TXD_MUTE_force [i] || s.muteMask i || s.muteRate i || s.releaseRamp i

/-- The amplitude after one frame boundary, in 1/4,000: 1/16 towards the target, or 1/250 down while the slice
drains (R37, R249). DEDUCED (log 18). -/
def nextAmp (draining muted : Bool) (a : Nat) : Nat :=
  if draining then a - 16 else if muted then a - 250 else min 4000 (a + 250)

/-! ### The mask limiter (R243 to R246) -/

/-- A density of num/den lies above a level of m quarter dB: num/den > 10^(m/40). -/
def levelAbove (num den : Nat) (m : Int) : Bool :=
  decide (den ^ 40 * 10 ^ m.toNat < num ^ 40 * 10 ^ (-m).toNat)

/-- A density of num/den lies below a level of m quarter dB. -/
def levelBelow (num den : Nat) (m : Int) : Bool :=
  decide (num ^ 40 * 10 ^ (-m).toNat < den ^ 40 * 10 ^ m.toNat)

/-- The density of a bin, the greater of X and Y, and the reference, the mean of bins 13 to 50, as a ratio (R243). -/
def binLevel (psd : List (Nat × Nat)) (b : Nat) : Nat × Nat :=
  let top := fun (k : Nat) => let p := psd.getD k (0, 0); max p.1 p.2
  (38 * top b, ((List.range 38).map fun k => top (13 + k)).sum)

/-- The attenuation of a bin after one frame, over the mask or more than 1 dB under it (R244). -/
def nextAtt (att : Nat) (above below : Bool) : Nat :=
  if above then min 96 (att + 1) else if below then att - 1 else att

/-- One bin at a frame boundary, its level as a ratio to the reference: its attenuation, and its run of frames over the mask
at 24 dB (R243, R244, R246). -/
def State.maskBin (s : State) (i b : Nat) (level : Nat × Nat) : State :=
  let mask := toSigned 8 (s.cur F.TXD_MASK_level [i, b])
  let above := levelAbove level.1 level.2 mask
  let att := s.rd F.TXD_MASK_ATT_att [i, b]
  let x := s.tx1 i
  let run := tabGet 0 x.past b
  let s := s.wr F.TXD_MASK_ATT_att (nextAtt att above (levelBelow level.1 level.2 (mask - 4))) [i, b]
  if att = 96 ∧ above = true then
    if run + 1 = 16 then
      ((s.setTx i { x with past := tabPut 0 x.past b 0 }).wr F.TXD_STAT_mask_alarm 1 [i]).raise 0x1A (i * 2 ^ 21 + b)
    else s.setTx i { x with past := tabPut 0 x.past b (run + 1) }
  else s.setTx i { x with past := tabPut 0 x.past b 0 }

/-- The 64 bins of a slice with the densities of X and Y measured over the last frame (R243). -/
def State.maskFrame (s : State) (i : Nat) (psd : List (Nat × Nat)) : State :=
  let s := forEach (fun b t => t.maskBin i b (binLevel psd b)) (List.range 64) s
  s.wr F.TXD_STAT_limiting (b2n ((List.range 64).any fun b => decide (s.rd F.TXD_MASK_ATT_att [i, b] ≠ 0))) [i]

/-- The output amplitude at a frame boundary; the rate cause clears at the first one after relock (R249, R250); a slice held in reset puts
out nothing (R537). -/
def State.ampFrame (s : State) (i : Nat) : State :=
  let x := s.tx1 i
  let s := if x.rate = .locked then s.setTx i { x with rate := .none } else s
  let a := if tabGet false s.ctl.sliceHold i then 0
    else nextAmp (decide (s.sliceState i = slDraining)) (s.muteTarget i) (s.tx1 i).amp
  (s.setTx i { s.tx1 i with amp := a }).wr F.TXD_STAT_muted (b2n (decide (a = 0))) [i]

/-- A mode or roll-off value in force at the transmitter of slice i that acts as another sets mode_bad (R235, R242). -/
def State.txCheck (s : State) (i : Nat) : State :=
  if modeBad (s.cur F.TXD_MODE_CFG_const [i]) (s.cur F.TXD_MODE_CFG_entropy [i])
      (s.cur F.TXD_MODE_CFG_pilot [i]) || decide (40 < s.cur F.TXD_PS_CFG_rolloff [i]) then
    s.wr F.TXD_STAT_mode_bad 1 [i] else s

/-- A commit changes the transmitter of slice i; on a DARK slice nothing sets a kept bit (R53, R235, R242, R245, R247). -/
def State.txCommit (s : State) (i : Nat) : State :=
  if s.sliceState i = slDark then s else (s.txCheck i).peCheck i

/-- A new block stream and frame period of slice i begin with the superframe in progress (R257, R303, R304). -/
def State.newStream (s : State) (i : Nat) : State :=
  (s.setTx i { s.tx1 i with info := [], labels := [], pos := 0 }).setLfr i { s.lfr1 i with txPhase := 0 }

/-- The image that a boundary ahead brings into force: that of an ARMED commit, or PREVIOUS in RETURNING (VTG_STAT.state
5 and 7). -/
def State.nextImg (s : State) : Option (Tab Nat) :=
  if s.rd F.VTG_STAT_state = 5 then some s.pendImg else if s.rd F.VTG_STAT_state = 7 then some s.vtg.previous else none

/-- RATE_MUTE_START: 16 frames before the boundary of an ARMED commit, or of a return, that changes the slice's symbol
rate, the rate cause is set (R250). -/
def execRateMuteStart (i : Fin 8) (s : State) : Out :=
  .next (
    match s.nextImg with
    | some m =>
      if imgGet m F.TXD_MODE_CFG_baud [i] ≠ s.cur F.TXD_MODE_CFG_baud [i] ∧ s.lit i = true then
        s.setTx i { s.tx1 i with rate := .muting }
      else s
    | none => s)

/-- SYNTH_RELOCK: the synthesiser has relocked; the rate cause clears at the next frame boundary (R250), and after a
restart at the next transmit superframe boundary (R581). -/
def execSynthRelock (i : Fin 8) (s : State) : Out :=
  .next (
    let x := s.tx1 i
    match x.rate with
    | .relock => s.setTx i { x with rate := .locked }
    | .restartRelock => s.setTx i { x with rate := .restart }
    | _ => s)

end Sys2Proof.Machine
end

