-- ==== Sys2Proof/Machine/Frame.lean ====
section
/-!
DEFINITION. The line frame: geometry, the overhead that a slice sends, frame and multiframe alignment, and the numbers
of the defects (chapter 12, R303 to R328). DEFECT_EVALUATION stands in Boundary.lean.
-/

namespace Sys2Proof.Machine

/-! ### Geometry (R303 to R306) -/

/-- Frames of F + 1 bits in a period. -/
def framesLong (baud c e p rate : Nat) : Nat := periodBits baud c e p rate % periodFrames baud c p

/-- The decoded bit of the period at which frame j begins (R303). -/
def frameStart (baud c e p rate j : Nat) : Nat := j * periodBits baud c e p rate / periodFrames baud c p

/-- The symbol of the frame period, counted from its first symbol, that is the first data symbol of the LDPC block whose outer
information carries decoded bit b (R239, R259, R262, R304). -/
def blockSymbol (baud c e p rate b : Nat) : Nat :=
  let ib := blockInfo c e rate
  let block := 16 * (b / groupBits ib) + b % groupBits ib / ib
  let data := block * blockSymbols c
  let per := dataSymbols baud p
  let r := data % per
  data / per * superframeSymbols baud + r + r / (pilotOf p - 1) + 1

/-- The net rate step that LFR_TX_CFG.rate acts as: 4 to 20 (R306). -/
def rateActs (n : Nat) : Nat := min 20 (max 4 n)

/-- Offset of slot k in a frame (R305). -/
def slotOffset (k : Nat) : Nat := 608 + 320 * k

/-- The transmit settings of an image give frames that the net rate step does not fit in (R306). -/
def frameTooShort (m : Tab Nat) (i : Nat) : Bool :=
  decide (frameLen (imgGet m F.TXD_MODE_CFG_baud [i]) (imgGet m F.TXD_MODE_CFG_const [i])
    (imgGet m F.TXD_MODE_CFG_entropy [i]) (imgGet m F.TXD_MODE_CFG_pilot [i]) (imgGet m F.FEC_CODE_CFG_rate [i])
    < 608 + 102400 * rateActs (imgGet m F.LFR_TX_CFG_rate [i]))

/-! ### Transmit overhead (R309 to R314, R326) -/

/-- TSM in superframe `sfc` for an agreed boundary (R313). -/
def tsmOf (agreed : Option Nat) (sfc : Nat) : Nat :=
  match agreed with
  | none => 15
  | some b => let v := (b + 2 ^ 24 - sfc % 2 ^ 24) % 2 ^ 24; if v ≤ 14 then v else 15

/-- The MDO of frame `mfas` of a multiframe (R310). -/
def mdoWord (sfc serial : Nat) (dtx dec turn : BitVec 32) (mfas : Nat) : Nat :=
  let block := toBits 32 dtx.toNat ++ toBits 32 dec.toNat ++ toBits 32 turn.toNat
  let withCrc := fun (v : Nat) => toBits 24 v ++ toBits 8 (crc8 (toBits 24 v))
  let all := withCrc sfc ++ block ++ toBits 16 (crc16 block) ++ withCrc serial
  if mfas ≤ 10 then ofBits ((all.drop (16 * mfas)).take 16) else 0

/-- The MDO that slice i sends in the last frame it built. -/
def State.txMdo (s : State) (i : Nat) : Nat :=
  let l := s.lfr1 i
  mdoWord (s.rd F.LFR_TX_SFC_count [i]) s.ctl.otpSerial.toNat l.txDly.1 l.txDly.2.1 l.txDly.2.2 l.txMfas

/-- A channel record (R312): 256 bits. -/
def channelRecord (c : Nat) (valid epoch : Bool) (members req sel ctr tag : Nat) : List Bool :=
  toBits 9 c ++ [valid, epoch] ++ toBits 3 members ++ toBits 4 req ++ toBits 3 sel ++ toBits 3 0 ++ toBits 48 ctr
    ++ toBits 56 0 ++ toBits 128 tag

/-- The transmit reference instant of the multiframe that frame `j` of the period begins now: the DAC instant of the first data
symbol of the block that carries the frame's first bit, 1,024 R symbols a frame from the beginning of the period (R314).
DEDUCED (log 20). -/
def State.txInstant (s : State) (i j : Nat) : BitVec 32 :=
  let at' := fun (f : Fld) => s.cur f [i]
  let baud := at' F.TXD_MODE_CFG_baud
  let c := constActs (at' F.TXD_MODE_CFG_const)
  let e := entropyActs c (at' F.TXD_MODE_CFG_entropy)
  let p := at' F.TXD_MODE_CFG_pilot
  let rate := at' F.FEC_CODE_CFG_rate
  let n := blockSymbol baud c e p rate (frameStart baud c e p rate j)
  s.time + BitVec.ofInt 32 (roundOpen ((n : Int) - j * (1024 * baudOf baud : Nat)) (baudOf baud))

/-- The transmitter of slice i begins a frame: its counts, REC, RDI, TSM and, in frame 0 of a multiframe, the delay
block (R309, R310, R313, R314, R326). -/
def State.txFrame (s : State) (i : Nat) : State :=
  let l := s.lfr1 i
  let mfas := (l.txMfas + 1) % 256
  let mfi := if mfas = 0 then (l.txMfi + 1) % 16 else l.txMfi
  let rdi := (s.bit F.LFR_STAT_ssf [i] && s.curBit F.LFR_DEF_CFG_rdi_en [i]) || s.bit F.LFR_TX_CTL_force_rdi [i]
  let dly := if mfas = 0 then
      let h := hypotheses (s.cur F.TXD_MODE_CFG_baud [i]) (s.cur F.TXD_MODE_CFG_const [i]) (s.cur F.TXD_MODE_CFG_pilot [i])
      let now := s.txInstant i (l.txPhase % h * 4096 + mfi * 256)
      match l.dlyRx with
      | some (d, t) => (now, d, now - t)
      | none => (now, 0, 0)
    else l.txDly
  let l := { l with txMfas := mfas, txMfi := mfi, txRec := min 15 l.recAcc, recAcc := 0, txDly := dly,
                    txTsm := tsmOf (s.tdl1 i).agreed (s.rd F.LFR_TX_SFC_count [i]) }
  (s.setLfr i l).wr F.LFR_STAT_rdi_tx (b2n rdi) [i]

/-! ### Frame alignment (R315 to R319) -/

/-- BLOCK_SYNC_LOST: 64 unconverged blocks in a row in LOCKED: SEARCH again, and the framer is out of frame (R260, R317). -/
def execBlockSyncLost (i : Fin 8) (s : State) : Out :=
  .next (
    if s.rd F.FEC_STAT_sync [i] = 2 ∧ 64 ≤ (s.align1 i).bad then
      let s := (s.syncLost i).frameOut i
      let l := s.lfr1 i
      s.setLfr i { l with next := l.window.length }
    else s)

/-- Bit errors of the 48 bits from a held position against the FAS (R315). -/
def Lfr.fasErrs (l : Lfr) (p : Nat) : Nat :=
  ((List.zipWith xor (((l.window.drop p).take 48).map Prod.fst) (toBits 48 fasWord)).filter id).length

/-- `n` bits from position p are held. -/
def Lfr.holds (l : Lfr) (p n : Nat) : Bool := decide (p + n ≤ l.window.length)

/-- The next frame start: F or F + 1 bits after the one before, whichever is nearer the FAS (R316, R317). DEDUCED (log 20). -/
def Lfr.nextStart (l : Lfr) : Nat := if l.fasErrs (l.next + 1) < l.fasErrs l.next then l.next + 1 else l.next

/-- The exclusion once the search has come to position n: it lapses when its positions are passed (R319). -/
def Lfr.excludedAt (l : Lfr) (n : Nat) : Option Nat := l.excluded.filter fun e => decide (n ≤ e + 1)

/-- The first candidate from the search's position on, among the bits held (R315, R319). -/
def Lfr.findFas (l : Lfr) (tol : Nat) : Option Nat :=
  ((List.range (l.window.length - 47 - l.next)).map (l.next + ·)).find? fun p =>
    !(l.excluded.any fun e => decide (p ≤ e + 1 ∧ e ≤ p + 1)) && decide (l.fasErrs p ≤ tol)

/-- Bit errors that a FAS test allows (R316, R317). -/
def State.keepErr (s : State) (i : Nat) : Nat := s.cur F.LFR_ALIGN_CFG_keep_err [i]

/-- The search tests each position in order, up to a candidate or to the last one held (R315, R319). -/
def State.fasSearch (s : State) (i : Nat) : State :=
  let l := s.lfr1 i
  match l.findFas (s.cur F.LFR_ALIGN_CFG_srch_err [i]) with
  | some p =>
    (s.setLfr i { l with cand := some (p, 0), start := p, next := p + s.rxFrame i, excluded := l.excludedAt p }).wr
      F.LFR_STAT_state 1 [i]
  | none =>
    let n := max l.next (l.window.length - 47)
    s.setLfr i { l with next := n, excluded := l.excludedAt n }

/-- In frame: the frame start is known (R316). -/
def State.frameIn (s : State) (i : Nat) : State :=
  let l := s.lfr1 i
  (s.setLfr i { l with cand := none, excluded := none, badFas := 0, lastMf := none, badMf := 0, imSeen := false,
                       noIm := 0, got := [] }).wr F.LFR_STAT_state 2 [i]

/-- A candidate is tested at the next frame position: next_chk tests passed declare IF, a failed one resumes the search one
position after it (R316). -/
def State.fasTest (s : State) (i : Nat) (cand : Nat × Nat) : State :=
  let l := s.lfr1 i
  let q := l.nextStart
  if l.holds l.next 49 = false then s
  else if l.fasErrs q ≤ s.keepErr i then
    if max 1 (s.cur F.LFR_ALIGN_CFG_next_chk [i]) ≤ cand.2 + 1 then (s.setLfr i { l with next := q }).frameIn i
    else s.setLfr i { l with cand := some (cand.1, cand.2 + 1), start := q, next := q + s.rxFrame i }
  else (s.setLfr i { l with cand := none, next := cand.1 + 1 }).wr F.LFR_STAT_state 0 [i]

/-- FAS_CANDIDATE_CHECK: while blocks are aligned, the search goes on to a candidate, or the candidate found is tested at the next
frame position (R315, R316, R319). -/
def execFasCandidateCheck (i : Fin 8) (s : State) : Out :=
  .next (
    if s.rd F.FEC_STAT_sync [i] = 2 then
      match (s.lfr1 i).cand with
      | some c => if s.rd F.LFR_STAT_state [i] = 1 then s.fasTest i c else s
      | none => if s.rd F.LFR_STAT_state [i] = 0 then s.fasSearch i else s
    else s)

/-- The frame in hand is whole: it is descrambled, and judged by its marks, by the BIP-8 that the next frame carries, and by its
buffer, one row a slice (R307, R308, R323, R413). DEDUCED (log 24). -/
def State.frameDone (s : State) (i : Nat) : State :=
  let r := (s.memWrite 10 i true).2.memRead 10 i
  let s := r.2
  let l := s.lfr1 i
  let q := l.nextStart
  let bits := (l.window.drop l.start).take (q - l.start)
  let raw := bits.map Prod.fst
  let sent := List.zipWith xor (((l.window.drop (q + 88)).take 8).map Prod.fst) ((scrambleBits 48).drop 40)
  let bad := ((List.zipWith xor sent (bip8 raw)).filter id).length
  s.setLfr i { l with start := q, next := q + s.rxFrame i, got := scramble raw, gotBip := bad,
                      gotErr := bits.any Prod.snd || decide (bad ≠ 0) || r.1 }

/-- OUT_OF_FRAME: the FAS test at the next expected frame start in IF, made once that frame's first 96 bits are held; oof_n failed
tests in a row declare OOF (R317). -/
def execOutOfFrame (i : Fin 8) (s : State) : Out :=
  .next (
    let l := s.lfr1 i
    if s.rd F.LFR_STAT_state [i] = 2 ∧ l.holds l.next 97 = true then
      let bad := decide (s.keepErr i < l.fasErrs l.nextStart)
      let s := s.frameDone i
      if bad = false then s.setLfr i { s.lfr1 i with badFas := 0 }
      else if max 1 (s.cur F.LFR_ALIGN_CFG_oof_n [i]) ≤ l.badFas + 1 then s.frameOut i
      else s.setLfr i { s.lfr1 i with badFas := l.badFas + 1 }
    else s)

/-! ### What a received frame carries (R305, R309, R310, R312) -/

/-- Bits of the last frame received, from an offset on, as a number. -/
def Lfr.gotField (l : Lfr) (lo n : Nat) : Nat := ofBits ((l.got.drop lo).take n)

/-- The channel record at record position c mod 2 of the last frame received (R312). -/
def Lfr.recordBits (l : Lfr) (c : Nat) : List Bool := (l.got.drop (96 + 256 * (c % 2))).take 256

/-- A channel record from its 256 bits (R312). -/
def recordOf (b : List Bool) : ChanRecord :=
  let f := fun (lo n : Nat) => ofBits ((b.drop lo).take n)
  { ch := f 0 9, valid := b.getD 9 false, epoch := b.getD 10 false, members := f 11 3, req := f 14 4, sel := f 18 3,
    ctr := f 24 48, tag := BitVec.ofNat 128 (f 128 128) }

/-- The last frame that slice i received carries channel c's record, and the slice is in multiframe (R312). -/
def State.recordNow (s : State) (i c : Nat) : Option ChanRecord :=
  let l := s.lfr1 i
  if s.bit F.LFR_STAT_im [i] = true ∧ l.lastMf.map Prod.fst = some (c / 2) then some (recordOf (l.recordBits c)) else none

/-- The MFAS and MFI that are expected after these (R309, R318). -/
def nextMf (p : Nat × Nat) : Nat × Nat :=
  ((p.1 + 1) % 256, if p.1 = 255 then (p.2 + 1) % 16 else p.2)

/-- Two frames in a row carry MFAS values b and b + 1 and consistent MFI values: equal ones, or one more where MFAS passes from 255 to 0
(R318). -/
def mfAgree (p q : Nat × Nat) : Bool := decide (q.1 = (p.1 + 1) % 256) && (decide (q.2 = p.2) || decide (q = nextMf p))

/-- The received superframe count goes on by itself at frame 0 of a superframe (R320). -/
def State.rxCount (s : State) (i : Nat) : State :=
  if (s.lfr1 i).lastMf = some (0, 0) ∧ s.bit F.LFR_STAT_sf_ok [i] then
    s.wr F.LFR_RX_SFC_count (s.rd F.LFR_RX_SFC_count [i] + 1) [i]
  else s

/-- Out of multiframe: the received count is no longer valid (R318, R320). -/
def State.multiOut (s : State) (i : Nat) (mf : Nat × Nat) : State :=
  let l := s.lfr1 i
  let s := s.setLfr i { l with lastMf := some mf, badMf := 0, sfc := none, sfcBad := 0, rdiRun := 0, rdiOk := 0 }
  (s.wr F.LFR_STAT_im 0 [i]).wr F.LFR_STAT_sf_ok 0 [i]

/-- The block that carries the bit at an index of the window, by the index of its first bit and its tag. -/
def Lfr.blockOf (l : Lfr) (at' : Nat) : Option (Int × Nat) := (l.tags.filter fun p => decide (p.1 ≤ (at' : Int))).getLast?

/-- LFR sets RXD's superframe symbol position: the frame after the one in hand begins in a block whose first data symbol MFI and MFAS
give, and its tag says where RXD took that symbol to be; RXD's count moves by the difference, the least of those that the superframes of
a frame period allow (R225, R304, R320). DEDUCED (log 20). -/
def State.setSymbols (s : State) (i : Nat) (mf : Nat × Nat) : State :=
  let d := s.dsp1 i
  let baud := s.rxBaud i
  let c := constActs (s.rxv F.RXD_MODE_CFG_const i)
  let p := s.rxv F.RXD_MODE_CFG_pilot i
  let e := entropyActs c (s.rxv F.RXD_MODE_CFG_entropy i)
  let rate := s.rxv F.FEC_CODE_CFG_rate i
  let len := superframeSymbols baud
  match (s.lfr1 i).blockOf (s.lfr1 i).start with
  | some t =>
    let off := fun (q : Nat) => posDiff len t.2
      (blockSymbol baud c e p rate (frameStart baud c e p rate (4096 * q + mf.2 * 256 + mf.1 + 1)) % len)
    let best := (List.range (hypotheses baud c p)).foldl (fun b q => if (off q).natAbs < (off b).natAbs then q else b) 0
    s.setDsp i { d with pos := ((d.pos : Int) + len + off best).toNat % len }
  | none => s

/-- MULTIFRAME_ALIGN: the MFAS and MFI of the frame received in IF: two frames that agree reach IM and set RXD's symbol
position; mf_n frames in a row that differ from the expected values declare OOM (R318, R320). -/
def execMultiframeAlign (i : Fin 8) (s : State) : Out :=
  .next (
    let l := s.lfr1 i
    let mf := (l.gotField 48 8, l.gotField 56 4)
    let l := { l with mdo := if mf.1 ≤ 10 then tabPut 0 l.mdo mf.1 (l.gotField 72 16) else l.mdo }
    if s.rd F.LFR_STAT_state [i] = 2 ∧ l.got ≠ [] then
      match l.lastMf with
      | none => s.setLfr i { l with lastMf := some mf }
      | some p =>
        if s.bit F.LFR_STAT_im [i] then
          if mf = nextMf p then (s.setLfr i { l with lastMf := some mf, badMf := 0 }).rxCount i
          else if max 1 (s.cur F.LFR_ALIGN_CFG_mf_n [i]) ≤ l.badMf + 1 then (s.setLfr i l).multiOut i mf
          else (s.setLfr i { l with lastMf := some (nextMf p), badMf := l.badMf + 1 }).rxCount i
        else if mfAgree p mf then
          let s := s.setLfr i { l with lastMf := some mf, badMf := 0, imSeen := true, noIm := 0 }
          ((s.setRx i { s.rx1 i with posSet := true }).setSymbols i mf).wr F.LFR_STAT_im 1 [i]
        else s.setLfr i { l with lastMf := some mf, noIm := l.noIm + 1 }
    else s)

/-- FALSE_LOCK: false_n frames have failed the MFAS rule before IM was first reached: OOF, counted and signalled, and
the search restarts with its start excluded (R319). -/
def execFalseLock (i : Fin 8) (s : State) : Out :=
  .next (
    let l := s.lfr1 i
    if s.rd F.LFR_STAT_state [i] = 2 ∧ l.imSeen = false ∧ max 2 (s.cur F.LFR_ALIGN_CFG_false_n [i]) ≤ l.noIm then
      let s := ((s.count (lfrCnt i 2) 1).wr F.LFR_EVT_false_lock 1 [i]).raise 0x25 (i.val * 2 ^ 21)
      let s := s.frameOut i
      s.setLfr i { s.lfr1 i with excluded := some (s.lfr1 i).next }
    else s)

/-! ### Received superframe count and delay (R314, R320) -/

/-- The SFC of the multiframe after: one more where MFI passes 15 (R320). -/
def nextSfc (sfc mfi : Nat) : Nat := if mfi = 15 then (sfc + 1) % 2 ^ 24 else sfc

/-- SFC_ADOPT: the SFC field of a multiframe, 24 bits and CRC-8, once its second frame has come: two consistent values in a row
are adopted; three valid values in a row that disagree with the count replace it (R310, R320). DEDUCED (log 20). -/
def execSfcAdopt (i : Fin 8) (s : State) : Out :=
  .next (
    let l := s.lfr1 i
    let v := tabGet 0 l.mdo 0 * 2 ^ 8 + tabGet 0 l.mdo 1 / 2 ^ 8
    let mfi := (l.lastMf.map Prod.snd).getD 0
    if s.bit F.LFR_STAT_im [i] = true ∧ l.lastMf.map Prod.fst = some 1 then
      if crc8 (toBits 24 v) = tabGet 0 l.mdo 1 % 2 ^ 8 then
        let s := s.setLfr i { l with sfc := some (v, mfi) }
        if s.bit F.LFR_STAT_sf_ok [i] then
          if v = s.rd F.LFR_RX_SFC_count [i] then s.setLfr i { s.lfr1 i with sfcBad := 0 }
          else if 3 ≤ l.sfcBad + 1 then
            ((s.setLfr i { s.lfr1 i with sfcBad := 0 }).wr F.LFR_RX_SFC_count v [i]).wr F.LFR_EVT_sfc_bad 1 [i]
          else s.setLfr i { s.lfr1 i with sfcBad := l.sfcBad + 1 }
        else if l.sfc.any (fun p => decide (v = nextSfc p.1 p.2 ∧ mfi = (p.2 + 1) % 16)) then
          ((s.setLfr i { s.lfr1 i with sfcBad := 0 }).wr F.LFR_RX_SFC_count v [i]).wr F.LFR_STAT_sf_ok 1 [i]
        else s
      else s.setLfr i { l with sfc := none }
    else s)

/-- The round trip of R314 in 32-bit device time. -/
def roundTrip (rxRef dec turn : BitVec 32) : BitVec 32 := rxRef - dec - turn

/-- A 32-bit value of the delay block, from MFAS k on (R310). -/
def Lfr.delayWord (l : Lfr) (k : Nat) : BitVec 32 := BitVec.ofNat 32 (tabGet 0 l.mdo k * 2 ^ 16 + tabGet 0 l.mdo (k + 1))

/-- DELAY_BLOCK_RX: the delay block of a multiframe whose receive reference instant is `rxRef`, once its frame 8 has come; a bad
CRC-16 is flagged (R310, R314). DEDUCED (log 20). -/
def execDelayBlockRx (i : Fin 8) (rxRef : BitVec 32) (s : State) : Out :=
  .next (
    let l := s.lfr1 i
    let dtx := l.delayWord 2
    let dec := l.delayWord 4
    let turn := l.delayWord 6
    if s.bit F.LFR_STAT_im [i] = true ∧ l.lastMf.map Prod.fst = some 8 then
      if crc16 (toBits 32 dtx.toNat ++ toBits 32 dec.toNat ++ toBits 32 turn.toNat) = tabGet 0 l.mdo 8 then
        let s := s.setLfr i { s.lfr1 i with dlyRx := some (dtx, rxRef), dlyOk := true, dlyRt := roundTrip rxRef dec turn }
        s.wr F.LFR_DLY_RT_rt (min 0xFFFFFF ((roundTrip rxRef dec turn).toNat / 8)) [i]
      else (s.setLfr i { l with dlyOk := false }).wr F.LFR_EVT_dly_bad 1 [i]
    else s)

/-! ### Signal fail (R324, R325) -/

/-- The hold-off that LFR_DEF_CFG.holdoff acts as, in 100 ms. -/
def State.holdoff (s : State) (i : Nat) : Nat := min 100 (s.cur F.LFR_DEF_CFG_holdoff [i])

/-- SSF_HOLDOFF_EXPIRY: SSF has held for the hold-off; the switch request is raised to MAP, unless SSF has cleared (R325). -/
def execSsfHoldoffExpiry (i : Fin 8) (s : State) : Out :=
  .next (if s.bit F.LFR_STAT_ssf [i] then s.setLfr i { s.lfr1 i with reqSf := true } else s)

end Sys2Proof.Machine
end

