-- ==== Sys2Proof/Machine/Map.lean ====
section
/-!
DEFINITION. Slots, channels and skew compensation: the slot map and its validation, numbering and delay of members,
frame repair and the protection selectors (chapter 13, R329 to R355).
-/

namespace Sys2Proof.Machine

/-- The member of channel c on slice i. -/
def State.mem (s : State) (c i : Nat) : Mem := tabGet Mem.fresh s.mems (8 * c + i)
def State.setMem (s : State) (c i : Nat) (x : Mem) : State := { s with mems := tabPut Mem.fresh s.mems (8 * c + i) x }
def State.chan (s : State) (c : Nat) : Chan := tabGet Chan.fresh s.chans c
def State.setChan (s : State) (c : Nat) (x : Chan) : State := { s with chans := tabPut Chan.fresh s.chans c x }

def State.cipCh (s : State) (c : Nat) : CipCh := tabGet CipCh.fresh s.cip.chans c
def State.setCipCh (s : State) (c : Nat) (x : CipCh) : State :=
  { s with cip := { s.cip with chans := tabPut CipCh.fresh s.cip.chans c x } }

/-- The channels CH0 to CH511. -/
def channels : List Nat := List.range 512

/-! ### Definitions in an image (R329 to R337) -/

/-- One member entry of a channel (R331). -/
structure MemberDef where
  m     : Nat
  slice : Nat
  legB  : Bool
  cel   : Bool
  deriving DecidableEq, Repr

/-- The enabled members of channel c in an image. -/
def membersOf (m : Tab Nat) (c : Nat) : List MemberDef :=
  (List.range 8).filterMap fun k =>
    if imgGet m F.MAP_MEM_CFG_en [c, k] = 1 then
      some ⟨k, imgGet m F.MAP_MEM_CFG_slice [c, k], decide (imgGet m F.MAP_MEM_CFG_leg [c, k] = 1),
        decide (imgGet m F.MAP_MEM_CFG_route [c, k] = 1)⟩
    else none

/-- The slot contexts that an image assigns in one direction, as (slice, context, channel): an enable bit of MAP_SLOT is
listed in the image exactly where it is 1. -/
def contextsOf (m : Tab Nat) (tx : Bool) : List (Nat × Nat × Nat) :=
  let en := if tx then F.MAP_SLOT_tx_en else F.MAP_SLOT_rx_en
  m.filterMap fun e =>
    let a := e.1 / 32
    if e.1 % 32 = en.lo ∧ 0x810000 ≤ a ∧ a < 0x820000 ∧ e.2 = 1 then
      let k := a - 0x810000
      let s := k / 8192
      some (s, k % 8192, imgGet m (if tx then F.MAP_SLOT_tx_ch else F.MAP_SLOT_rx_ch) [s, k % 8192])
    else none

/-- Channel c is defined in a direction (R331). -/
def definedIn (m : Tab Nat) (tx : Bool) (c : Nat) : Bool :=
  decide (imgGet m (if tx then F.MAP_CH_CFG_tx_on else F.MAP_CH_CFG_rx_on) [c] = 1)

/-- Channel c carries slots in some direction. -/
def inUse (m : Tab Nat) (c : Nat) : Bool := definedIn m true c || definedIn m false c

/-- The guard and the allowance that a channel's settings act as. -/
def guardOf (m : Tab Nat) (c : Nat) : Nat := max 1 (imgGet m F.MAP_CH_CFG_guard [c])
def allowOf (m : Tab Nat) (c : Nat) : Nat := min 12 (max 1 (imgGet m F.MAP_CH_CFG_allow [c]))

/-- The capacity of a member in frames: on chip or through the cellar. -/
def capacityOf (m : Tab Nat) (c : Nat) (cel : Bool) : Nat :=
  if cel then 3907 + guardOf m c else (allowOf m c * 1000 + 1023) / 1024 + guardOf m c

/-- Receive contexts of channel c's members on one path. -/
def pathContexts (m : Tab Nat) (ctx : List (Nat × Nat × Nat)) (c : Nat) (cel : Bool) : Nat :=
  let ms := (membersOf m c).filter fun d => d.cel = cel
  (ctx.filter fun e => decide (e.2.2 = c) && ms.any (fun d => decide (d.slice = e.1))).length

/-- The on-chip reserve of channel c in slot-frames (R336). -/
def reserveOf (m : Tab Nat) (ctx : List (Nat × Nat × Nat)) (c : Nat) : Nat :=
  if (membersOf m c).length ≤ 1 then 0 else pathContexts m ctx c false * (capacityOf m c false + 1)

/-- The reserve of every channel defined in receive (R336). -/
def chipUsed (m : Tab Nat) : Nat :=
  let ctx := contextsOf m false
  ((channels.filter fun c => definedIn m false c).map fun c => reserveOf m ctx c).sum

/-- Receive contexts routed through the cellar (R337). -/
def cellarContexts (m : Tab Nat) : Nat :=
  let ctx := contextsOf m false
  ((channels.filter fun c => definedIn m false c).map fun c => pathContexts m ctx c true).sum

/-- A commit fails with SLOTS: a context beyond its slice's slots, or a rate that its frames do not hold (R17, R306, R329). -/
def slotsBad (m : Tab Nat) : Bool :=
  ([true, false].any fun tx => (contextsOf m tx).any fun e =>
    decide (320 * rateActs (imgGet m F.LFR_TX_CFG_rate [e.1]) ≤ e.2.1))
  || slices8.any fun i => frameTooShort m i

/-- A commit fails with CELLAR (R22, R337). -/
def cellarBad (m : Tab Nat) : Bool := decide (10240 < cellarContexts m)

/-- A channel definition breaks R331 or R332, or a leg rule of R334. -/
def channelBad (m : Tab Nat) (txc rxc : List (Nat × Nat × Nat)) (c : Nat) : Bool :=
  let ms := membersOf m c
  let prot := imgGet m F.MAP_CH_CFG_prot [c] = 1
  let size := imgGet m F.MAP_CH_CFG_size [c]
  let gap := ms.map MemberDef.m ≠ List.range ms.length
  let order := decide ((ms.map MemberDef.legB).Pairwise fun a b => a = true → b = true)
  let twice := decide ((ms.map MemberDef.slice).Nodup)
  let legs := decide ((ms.any fun d => d.legB) = true) != decide prot || !(ms.any fun d => !d.legB)
  let dark := ms.any fun d => decide (imgGet m F.GLB_SLICE_CTL_en [d.slice] = 0)
  let dir := fun (tx : Bool) (ctx : List (Nat × Nat × Nat)) =>
    definedIn m tx c &&
      ([false, true].any fun leg =>
        let ls := ms.filter fun d => d.legB = leg
        let cnt := fun (d : MemberDef) => (ctx.filter fun e => decide (e.2.2 = c ∧ e.1 = d.slice)).length
        ls ≠ [] && (decide ((ls.map cnt).sum ≠ size) || ls.any fun d => decide (cnt d = 0)))
  inUse m c && (decide (size = 0 ∨ 5120 < size) || decide gap || !order || !twice || legs || dark
    || dir true txc || dir false rxc)

/-- A commit fails with CHANNEL (R334). -/
def channelsBad (m : Tab Nat) : Bool :=
  let txc := contextsOf m true
  let rxc := contextsOf m false
  let stray := fun (tx : Bool) (e : Nat × Nat × Nat) =>
    !definedIn m tx e.2.2 || !((membersOf m e.2.2).any fun d => decide (d.slice = e.1))
  channels.any (fun c => channelBad m txc rxc c) || txc.any (stray true) || rxc.any (stray false)
    || decide (629145 < chipUsed m)

/-- The contexts, in the order of R333, that carry leg `b` of channel c in one direction. -/
def legContexts (m : Tab Nat) (tx b : Bool) (c : Nat) : List (Nat × Nat) :=
  ((membersOf m c).filter fun d => d.legB = b).flatMap fun d =>
    ((contextsOf m tx).filter fun e => decide (e.2.2 = c ∧ e.1 = d.slice)).map fun e => (e.1, e.2.1)

/-! ### Members: numbering, need and failure (R338 to R344) -/

/-- The image that a receive direction works with. -/
def State.imgOf (s : State) : RxImg → Tab Nat
  | .current => s.vtg.current
  | .staged => s.pendImg
  | .previous => s.vtg.previous

/-- The image that defines channel c in receive (R299, R353). -/
def State.chanImg (s : State) (c : Nat) : Tab Nat := s.imgOf (s.chan c).img

/-- The members of channel c in force in receive. -/
def State.members (s : State) (c : Nat) : List MemberDef := membersOf (s.chanImg c) c

/-- The slice of a member holds SSF. -/
def State.memSsf (s : State) (d : MemberDef) : Bool := s.bit F.LFR_STAT_ssf [d.slice]

/-- A member's frames are covered by the channel's read time (R342). -/
def State.covered (s : State) (c : Nat) (d : MemberDef) : Bool :=
  let x := s.mem c d.slice
  x.num && decide (x.arr + 1024 * (guardOf (s.chanImg c) c : Nat) ≤ (s.chan c).read)

/-- A member fails (R344). DEDUCED (log 20). -/
def State.memFails (s : State) (c : Nat) (d : MemberDef) : Bool :=
  s.memSsf d || (s.mem c d.slice).dskew || (s.mem c d.slice).mism || !s.covered c d

/-- The failure that a member gives its selector: the hold-off of R325 has acted on SSF (R347). DEDUCED (log 20). -/
def State.memRequests (s : State) (c : Nat) (d : MemberDef) : Bool :=
  (s.lfr1 d.slice).reqSf || (s.mem c d.slice).dskew || (s.mem c d.slice).mism || !s.covered c d

/-- The greatest delay of a member in ns. -/
def State.memCap (s : State) (c : Nat) (d : MemberDef) : Int := 1024 * (capacityOf (s.chanImg c) c d.cel : Nat)

/-- A usable member: its numbering is adopted, its slice has no SSF, and it is not in dSKEW. -/
def State.usable (s : State) (c : Nat) (d : MemberDef) : Bool :=
  (s.mem c d.slice).num && !s.memSsf d && !(s.mem c d.slice).dskew

/-- A read time `r` keeps every member of `ms` inside its capacity (R341). -/
def State.fits (s : State) (c : Nat) (ms : List MemberDef) (r : Int) : Bool :=
  ms.all fun d => decide (r - (s.mem c d.slice).arr ≤ s.memCap c d)

/-- The earliest arrival among members. -/
def State.earliest (s : State) (c : Nat) (ms : List MemberDef) : Int :=
  match ms.map fun d => (s.mem c d.slice).arr with
  | [] => 0
  | a :: as => as.foldl min a

/-- Whole frames that hold a span of ns. -/
def framesOf (t : Int) : Nat := (t.toNat + 1023) / 1024

/-- Reports D_c and the skew of each numbered member (R341, MAP_CH_DLY). -/
def State.reportDelay (s : State) (c : Nat) : State :=
  let us := (s.members c).filter fun d => s.usable c d
  let e := s.earliest c us
  let s := s.wr F.MAP_CH_DLY_dc (if us = [] then 0 else framesOf ((s.chan c).read - e)) [c]
  forEach (fun d t =>
    if (t.mem c d.slice).num then
      t.wr F.MAP_MEM_STAT_skew (min 0xFFFFF (((t.mem c d.slice).arr - e).toNat / 8)) [c, d.m] else t) (s.members c) s

/-- dSKEW is declared for a member (R341). -/
def State.declareSkew (s : State) (c : Nat) (d : MemberDef) : State :=
  (s.setMem c d.slice { s.mem c d.slice with dskew := true }).wr F.MAP_MEM_STAT_dskew 1 [c, d.m]

/-- The read time that covers a member. -/
def State.wants (s : State) (c : Nat) (d : MemberDef) : Int :=
  (s.mem c d.slice).arr + 1024 * (guardOf (s.chanImg c) c : Nat)

/-- A member is in dSKEW at the present read time: its need exceeds its capacity, or to cover it would take another usable member
beyond its own (R341). -/
def State.skewed (s : State) (c : Nat) (d : MemberDef) : Bool :=
  let others := (s.members c).filter fun e => decide (e.slice ≠ d.slice) && s.usable c e
  decide (s.memCap c d < (s.chan c).read - (s.mem c d.slice).arr)
    || (decide ((s.chan c).read < s.wants c d) && !s.fits c others (s.wants c d))

/-- A member that takes its place in an ALIGNED channel is in dSKEW or not (R341). -/
def State.placeMember (s : State) (c : Nat) (d : MemberDef) : State :=
  if s.skewed c d then s.declareSkew c d else s.setMem c d.slice { s.mem c d.slice with dskew := false }

/-- The usable members of an ALIGNED channel are judged anew: a commit has changed a capacity, or D_c has grown (R341, R342). -/
def State.judgeSkew (s : State) (c : Nat) : State :=
  forEach (fun d t => if t.usable c d && t.skewed c d then t.declareSkew c d else t) (s.members c) s

/-- The record of channel c that member d's slice has just received, where this is its frame (R312). -/
def State.memRecord (s : State) (c : Nat) (d : MemberDef) : Option ChanRecord := s.recordNow d.slice c

/-- A valid record of a member with its counter: two that agree set the numbering, from which MAP counts on; where SSF has held since
two last agreed they set it anew, and frames stored under another numbering are not kept. `arr` is the arrival of the member's
frames on the channel's scale (R338). DEDUCED (log 21). -/
def State.adoptNumber (s : State) (c : Nat) (d : MemberDef) (ctr : Nat) (arr : Int) : State :=
  let x := s.mem c d.slice
  if x.ctr.any fun p => decide (ctr = (p + 1) % 2 ^ 48) then
    let id := if x.num = false ∨ x.gap = true then 256 * (ctr + 1) + c / 2 else x.id
    let s := s.setMem c d.slice { x with ctr := some ctr, num := true, gap := false, arr := arr, id := id,
                                         store := if id = x.id then x.store else [] }
    let s := s.wr F.MAP_MEM_STAT_ok_num 1 [c, d.m]
    if s.rd F.MAP_CH_STAT_align [c] = 2 then (s.placeMember c d).reportDelay c else s
  else s.setMem c d.slice { x with ctr := some ctr }

/-- MEMBER_NUMBERING_ADOPT: the record that member m's slice has just received, where it is valid and the channel's; its frames
arrive at `arr` (R338). -/
def execMemberNumberingAdopt (c : Fin 512) (m : Fin 8) (arr : Int) (s : State) : Out :=
  .next (
    match (s.members c).find? fun d => d.m = m.val with
    | none => s
    | some d =>
      match s.memRecord c d with
      | some r => if r.valid = true ∧ r.ch = c.val then s.adoptNumber c d r.ctr arr else s
      | none => s)

/-! ### Stored frames (R336, R338, R339, R343, R403) -/

/-- The identity of the frame after `id`, on the MFAS that the frame shows (R338). -/
def nextId (id : Nat) (mfas : Option Nat) : Nat :=
  match mfas with
  | none => id + 1
  | some b => let d := (b + 256 - (id + 1) % 256) % 256; if d ≤ 128 then id + 1 + d else id + 1 + d - 256

/-- The slots of a channel's contexts `ks` in the last frame that a slice received (R305, R333). -/
def Lfr.slots (l : Lfr) (ks : List Nat) : List Bool := ks.flatMap fun k => (l.got.drop (slotOffset k)).take 320

/-- The unit at position p of a ring. -/
def ringUnit : List (Nat × Nat) → Nat → Nat
  | [], _ => 0
  | (a, n) :: es, p => if p < n then a + p else ringUnit es (p - n)

/-- The units of a ring. -/
def ringSize (es : List (Nat × Nat)) : Nat := (es.map Prod.snd).sum

/-- The first `n` units from unit `a` on, below `top`, that lie in none of the extents in use, which come in rising order. -/
def freeUnits : List (Nat × Nat) → Nat → Nat → Nat → List (Nat × Nat)
  | [], a, top, n => if n = 0 ∨ top ≤ a then [] else [(a, min n (top - a))]
  | (b, k) :: us, a, top, n =>
    if n = 0 then []
    else if a < b then (a, min n (b - a)) :: freeUnits us (b + k) top (n - min n (b - a))
    else freeUnits us (max a (b + k)) top n

/-- Units of 40 bytes of DESKEW. -/
def State.deskewUnits (s : State) : Nat := deskewMib (s.cur F.CEL_CFG_dsk) * 2 ^ 20 / 40

/-- Extents in rising order. -/
def inOrder (es : List (Nat × Nat)) : List (Nat × Nat) := es.foldl (fun l e => rankIns (fun a b => decide (a.1 < b.1)) e l) []

/-- A ring of n units for receive context k of slice i: in the units that no ring holds, rings of contexts that slice i or another
carries no more excepted where they are needed (R403, R404). DESIGN CHOICE (log 41). -/
def State.newRing (s : State) (i k n : Nat) : State × List (Nat × Nat) :=
  let key := 8192 * i + k
  let rest := s.cel.rings.filter fun e => decide (e.1 ≠ key)
  let routed := fun (e : Nat) =>
    let m := s.imgOf (s.rx1 (e / 8192)).img
    imgGet m F.MAP_SLOT_rx_en [e / 8192, e % 8192] = 1 &&
      (membersOf m (imgGet m F.MAP_SLOT_rx_ch [e / 8192, e % 8192])).any fun d => decide (d.slice = e / 8192) && d.cel
  let take := fun (rs : Tab (List (Nat × Nat))) => freeUnits (inOrder (rs.flatMap Prod.snd)) 0 s.deskewUnits n
  let rs := if ringSize (take rest) = n then rest else rest.filter fun e => routed e.1
  let es := take rs
  ({ s with cel := { s.cel with rings := tabPut [] rs key es } }, es)

/-- The ring of receive context k of slice i, of n units: a context whose ring has not that size gets a new one. -/
def State.ringOf (s : State) (i k n : Nat) : State × List (Nat × Nat) :=
  let es := tabGet [] s.cel.rings (8192 * i + k)
  if ringSize es = n then (s, es) else s.newRing i k n

/-- The data address of a unit of DESKEW. -/
def unitAt (u : Nat) : Nat := 144 * 2 ^ 20 + 40 * u

/-- The data address of the entry at ring position p of the member of channel c on slice i, four bytes: its mark and the 24 low bits of
its identity (R403). DESIGN CHOICE (log 41). -/
def spillEntry (c i p : Nat) : Nat := 2 ^ 14 * (8 * c + i) + 4 * p

/-- A member frame is written through the cellar: its slots to the rings of its contexts, its identity and mark to SPILL (R343,
R403, R404). While the cellar serves no access the frame is not written. -/
def State.writeSpill (s : State) (i c : Nat) (m : Tab Nat) (ks : List Nat) (f : MemFrame) : Option MemFrame × State :=
  if s.celServes then
    let n := 3908 + guardOf m c
    let p := f.id % n
    let r := ks.foldl (fun (q : List Nat × State) k =>
      let e := q.2.ringOf i k n
      let a := unitAt (ringUnit e.2 p)
      (q.1 ++ [a], e.1.writeRings a (bitsBytes (((f.bits.drop (320 * q.1.length)).take 320))))) ([], s)
    let a := spillEntry c i p
    let s := (r.2.writeRings a (b2n f.mark :: wordBytes (f.id % 2 ^ 24))).celAsk 2 1
    (some { f with bits := [], cells := r.1, entry := a }, s)
  else (none, s)
where
  /-- Bits as bytes. -/
  bitsBytes (bs : List Bool) : List Nat := (groupsOf 8 (bs.length / 8) bs).map ofBits

/-- The row of the deskew memory that holds a member frame on chip: MAP keeps fewer than 64 of a member (R336, R408). -/
def deskewRow (c i id : Nat) : Nat := (8 * c + i) * 64 + id % 64

/-- Of the frames of a member those that its reserve on each path holds, the newest (R336, R343, R404). -/
def keptFrames (m : Tab Nat) (c : Nat) (fs : List MemFrame) : List MemFrame :=
  let newest := fun (cel : Bool) =>
    let l := fs.filter fun f => f.cel == cel
    (l.drop (l.length - (capacityOf m c cel + 1))).map MemFrame.id
  fs.filter fun f => decide (f.id ∈ newest f.cel)

/-- A frame period of slice i has passed: the identity of channel c's member on it goes on, and in frame its slots are stored with
their mark, on the path of the slice's image `m` (R336, R338, R339, R343). DEDUCED (log 21). -/
def State.storeMember (s : State) (i c : Nat) (m : Tab Nat) (d : MemberDef) (ks : List Nat) : State :=
  let l := s.lfr1 i
  let x := s.mem c i
  let ssf := s.bit F.LFR_STAT_ssf [i]
  if x.num then
    let id := nextId x.id (if s.bit F.LFR_STAT_im [i] then l.lastMf.map Prod.fst else none)
    let s := s.setMem c i { x with id := id, gap := x.gap || ssf }
    if s.rd F.LFR_STAT_state [i] = 2 then
      let rcd := s.recordNow i c
      let f : MemFrame := { id := id, mark := ssf || l.gotErr, cel := d.cel, bits := l.slots ks, cells := [], entry := 0,
                            head := rcd.map fun _ => (l.recordBits c).take 128, rcd := rcd }
      let r := if d.cel then s.writeSpill i c m ks f else (some f, (s.memWrite 0 (deskewRow c i id) true).2)
      r.2.setMem c i { r.2.mem c i with store := keptFrames m c ((r.2.mem c i).store ++ r.1.toList) }
    else s
  else s

/-- A received frame of slice i goes to the members that lie on it (R305, R339). -/
def State.storeFrame (s : State) (i : Nat) : State :=
  let m := s.imgOf (s.rx1 i).img
  let ctx := (contextsOf m false).filter fun e => decide (e.1 = i)
  forEach (fun c t =>
    match (membersOf m c).find? fun d => decide (d.slice = i) with
    | some d => t.storeMember i c m d ((ctx.filter fun e => decide (e.2.2 = c)).map fun e => e.2.1)
    | none => t) (ctx.map fun e => e.2.2).eraseDups s

/-- Slice i is not LIT: nothing counts its members' frames on, so their numbering ends (R338). DEDUCED (log 21). -/
def State.memsLost (s : State) (i : Nat) : State :=
  forEach (fun c t =>
    if (t.mem c i).num then
      let t := t.setMem c i { t.mem c i with num := false, ctr := none, store := [] }
      match (t.members c).find? fun d => decide (d.slice = i) with
      | some d => t.wr F.MAP_MEM_STAT_ok_num 0 [c, d.m]
      | none => t
    else t) channels s

/-- Takes the members in order of arrival, and keeps each whose covering leaves the kept ones inside their capacity; the
others are in dSKEW (R341). -/
def State.coverAll (s : State) (c : Nat) : List MemberDef → List MemberDef → State
  | [], _ => s
  | d :: ds, kept =>
    if s.fits c kept (s.wants c d) then
      State.coverAll (s.setChan c { s.chan c with read := max (s.wants c d) (s.chan c).read }) c ds (d :: kept)
    else State.coverAll (s.declareSkew c d) c ds kept

/-- CSF of a channel, with its event on a change (R345). DEDUCED (log 21). -/
def State.setCsf (s : State) (c : Nat) (v : Bool) : State :=
  if s.bit F.MAP_CH_STAT_csf [c] = v then s
  else (s.wr F.MAP_CH_STAT_csf (b2n v) [c]).raise 0x28 (b2n v * 2 ^ 23 + c)

/-- The channel enters MEASURING: every member takes its place anew, and the channel holds CSF, in the message in progress too
(R340, R373). DEDUCED (log 21). -/
def State.measure (s : State) (c : Nat) : State :=
  let s := forEach (fun i t => t.setMem c i { t.mem c i with dskew := false }) (List.range 8) s
  let s := s.setCipCh c { s.cipCh c with csf := true }
  (s.wr F.MAP_CH_STAT_align 1 [c]).setCsf c true

/-- MEASURING_END: every member without SSF has adopted its numbering, or `late`: 8 multiframes have passed and at least
one has. D_c covers the latest of them, and the channel is ALIGNED; the next frame to be read is the one that guard frames
follow on the latest usable member (R339 to R341). DEDUCED (log 21). -/
def execMeasuringEnd (c : Fin 512) (late : Bool) (s : State) : Out :=
  .next (
    let alive := (s.members c).filter fun d => !s.memSsf d
    let got := alive.filter fun d => (s.mem c d.slice).num
    if s.rd F.MAP_CH_STAT_align [c] = 1 ∧ got ≠ [] ∧ (late = true ∨ got.length = alive.length) then
      let order := got.foldl (fun l d => rankIns (fun a b => decide ((s.mem c a.slice).arr < (s.mem c b.slice).arr)) d l) []
      let s := s.setChan c { s.chan c with
        read := s.earliest c got + 1024 * (guardOf (s.chanImg c) c : Nat), frames := 4096 }
      let s := s.coverAll c order []
      let latest := (((got.filter fun d => s.usable c d).map fun d => (s.mem c d.slice).id).min?).getD 0
      let s := s.setChan c { s.chan c with id := latest + 1 - guardOf (s.chanImg c) c }
      (s.wr F.MAP_CH_STAT_align 2 [c]).reportDelay c
    else s)

/-- grow_k acts as 4 to 12 (R342). -/
def State.growK (s : State) : Nat := min 12 (max 4 (s.cur F.MAP_CFG_grow_k))

/-- DC_GROWTH_STEP: a usable member arrives later than D_c covers; D_c grows by one frame, in an output frame that delivers nothing, at
most once in 2^grow_k output frames, that one among them; a member that growth would take another beyond its capacity for is in
dSKEW (R341, R342). DEDUCED (log 21). -/
def execDcGrowthStep (c : Fin 512) (s : State) : Out :=
  .next (
    if s.rd F.MAP_CH_STAT_align [c] = 2 ∧ (s.members c).any (fun d => s.usable c d && !s.covered c d) = true
        ∧ 2 ^ s.growK ≤ (s.chan c).frames then
      let s := s.judgeSkew c
      if (s.members c).any fun d => s.usable c d && !s.covered c d then
        let s := s.setChan c { s.chan c with read := (s.chan c).read + 1024, frames := 1 }
        ((s.count (1024 + 4 * c.val + 2) 1).judgeSkew c).reportDelay c
      else s.reportDelay c
    else s)

/-! ### Legs and output frames (R344 to R346) -/

/-- The members of one leg. -/
def State.leg (s : State) (c : Nat) (b : Bool) : List MemberDef := (s.members c).filter fun d => d.legB = b

/-- A selector setting of channel c, in the image that defines its receive side (R353). -/
def State.chanSet (s : State) (f : Fld) (c : Nat) : Nat := imgGet (s.chanImg c) f [c]

/-- A leg fails, requests a switch, or is degraded (R344, R347). -/
def State.legFails (s : State) (c : Nat) (b : Bool) : Bool := (s.leg c b).any fun d => s.memFails c d
def State.legRequests (s : State) (c : Nat) (b : Bool) : Bool := (s.leg c b).any fun d => s.memRequests c d
def State.legDegraded (s : State) (c : Nat) (b : Bool) : Bool :=
  decide (s.chanSet F.MAP_CH_PS_sd_en c = 1) && (s.leg c b).any fun d => s.bit F.LFR_STAT_sd [d.slice]

/-- The channel is protected. -/
def State.isProt (s : State) (c : Nat) : Bool := decide (s.chanSet F.MAP_CH_CFG_prot c = 1)

/-- Every member of a leg is covered. -/
def State.legCovered (s : State) (c : Nat) (b : Bool) : Bool := (s.leg c b).all fun d => s.covered c d

/-- The bits of `marks` of a leg's members. -/
def State.legMarks (s : State) (c : Nat) (b : Bool) (marks : Nat) : Bool :=
  (s.leg c b).any fun d => decide (marks / 2 ^ d.m % 2 = 1)

/-- The other leg's frame replaces a marked frame of the selected leg (R346). -/
def State.repairs (s : State) (c : Nat) (marks : Nat) : Bool :=
  let b := s.bit F.MAP_CH_STAT_sel [c]
  s.isProt c && s.legCovered c true && s.legCovered c false && s.legMarks c b marks && !s.legMarks c (!b) marks

/-- Slices of channel c have come to their boundary at the frame that is read next, and others have not: the members do not all
change at one output frame (R353). -/
def State.chanSplit (s : State) (c : Nat) : Bool :=
  (s.chan c).turns.any fun t => t.2.any fun b => decide (b ≤ (s.chan c).id)

/-- CSF of an output frame; SHARED_LOOP keeps every channel in it, and a change that has not come on every member (R340, R345,
R353, R538). -/
def State.csfNow (s : State) (c : Nat) (marks : Nat) : Bool :=
  s.ctl.sharedLoop || s.chanSplit c || decide (s.rd F.MAP_CH_STAT_align [c] ≠ 2)
    || (if s.isProt c then s.legFails c (s.bit F.MAP_CH_STAT_sel [c]) && !s.repairs c marks
        else (s.members c).any fun d => s.memFails c d)

/-- The reported failures of a channel's members and legs (MAP_MEM_STAT, MAP_CH_STAT). -/
def State.reportLegs (s : State) (c : Nat) : State :=
  let s := forEach (fun d t => t.wr F.MAP_MEM_STAT_fail (b2n (t.memFails c d)) [c, d.m]) (s.members c) s
  let s := (s.wr F.MAP_CH_STAT_a_fail (b2n (s.legFails c false)) [c]).wr F.MAP_CH_STAT_b_fail (b2n (s.legFails c true)) [c]
  (s.wr F.MAP_CH_STAT_a_sd (b2n (s.legDegraded c false)) [c]).wr F.MAP_CH_STAT_b_sd (b2n (s.legDegraded c true)) [c]

/-- What an output frame delivers to CIP: its identity, its bits, and the record of the frame that carries it (R339, R346). -/
structure OutFrame where
  id   : Nat
  bits : List Bool
  head : List Bool
  rcd  : Option ChanRecord

/-- The stored frame of member d with the identity that is read next. -/
def State.memFrame (s : State) (c : Nat) (d : MemberDef) : Option MemFrame :=
  (s.mem c d.slice).store.find? fun f => decide (f.id = (s.chan c).id)

/-- A stored frame is read, from the path that it was written to: on chip, where a poisoned row reads as an absent frame, or from the
cellar with the errors `errs` that the blocks read meet, by block address, symbol and error; a poisoned block marks it, and while
the cellar serves no access it is absent (R339, R343, R400, R401, R411 to R414). -/
def State.readMember (s : State) (c : Nat) (d : MemberDef) (errs : List (Nat × Nat × Nat)) : Option MemFrame × State :=
  match s.memFrame c d with
  | none => (none, s)
  | some f =>
    if f.cel then
      if s.celServes then
        let bs := ((f.cells.flatMap fun a => blocksOf a 40) ++ blocksOf f.entry 4).eraseDups
        let r := s.readBlocks errs bs
        let bits := f.cells.flatMap fun a => (bytesAt r.1 a 40).flatMap fun v => toBits 8 v
        let mark := decide ((bytesAt r.1 f.entry 1).headD 0 % 2 = 1)
        (some { f with bits := bits, mark := mark || r.2.2.1 }, (r.2.2.2.celAsk 2 1).celAsk 1 (r.2.1 * writeGrants true))
      else (none, s)
    else
      let r := s.memRead 0 (deskewRow c d.slice f.id)
      (if r.1 then none else some f, r.2)

/-- The frames of the members that are read next, each with its member (R339). -/
def State.readMembers (s : State) (c : Nat) (errs : List (Nat × Nat × Nat)) :
    List MemberDef → List (MemberDef × Option MemFrame) × State
  | [] => ([], s)
  | d :: ds =>
    let r := s.readMember c d errs
    let q := State.readMembers r.2 c errs ds
    ((d, r.1) :: q.1, q.2)

/-- A bit for each member of whose frame a condition holds. -/
def memMask (fs : List (MemberDef × Option MemFrame)) (p : Option MemFrame → Bool) : Nat :=
  (fs.filter fun e => p e.2).foldl (fun v e => v ||| 2 ^ e.1.m) 0

/-- A leg's frame of the identity that is read next; the bits of a member whose frame is absent are stated by no rule and are
free values (R333, R339). DESIGN CHOICE (log 2). -/
def State.legFrame (s : State) (c : Nat) (b : Bool) (fs : List (MemberDef × Option MemFrame)) : OutFrame :=
  let fs := fs.filter fun e => e.1.legB == b
  let parts := fs.map fun e =>
    match e.2 with
    | some f => f.bits
    | none => (List.range (320 * pathSlots s c e.1)).map fun k => Config.freeBool (s.free + k)
  let heads := fs.filterMap fun e => e.2.bind fun f => f.rcd.map fun r => ((f.head).getD [], r)
  { id := (s.chan c).id, bits := parts.flatten, head := (heads.map Prod.fst).headD [], rcd := (heads.map Prod.snd).head? }
where
  /-- Receive contexts of a member. -/
  pathSlots (s : State) (c : Nat) (d : MemberDef) : Nat :=
    ((contextsOf (s.chanImg c) false).filter fun e => decide (e.2.2 = c ∧ e.1 = d.slice)).length

/-- MAP takes up the numbering of the records at the beginning of a multiframe: the members' identities and the next output frame's
move by the difference (R338, R361). DEDUCED (log 22). -/
def State.renumber (s : State) (c : Nat) : State :=
  match (s.chan c).renum with
  | none => s
  | some (n, ctr) =>
    if (s.chan c).id % 256 = 0 then
      let move := fun (id : Nat) => (id + 256 * (ctr + 2 ^ 48 - n)) % 2 ^ 56
      let s := forEach (fun i t =>
        let x := t.mem c i
        t.setMem c i { x with id := move x.id, store := x.store.map fun f => { f with id := move f.id } }) (List.range 8) s
      let x := s.cipCh c
      let s := s.setCipCh c { x with msg := { x.msg with num := move (256 * x.msg.num) / 256 } }
      s.setChan c { s.chan c with id := move (s.chan c).id, renum := none,
                                  turns := (s.chan c).turns.map fun t => (t.1, t.2.map move) }
    else s

/-- OUTPUT_FRAME_READ's own effect: at read time the frame of an identity is delivered, repaired, or absent, and the stores let
it go (R339, R345, R346, R414). -/
def State.outputFrame (s : State) (c : Nat) (errs : List (Nat × Nat × Nat)) : Option OutFrame × State :=
  if s.rd F.MAP_CH_STAT_align [c] = 2 then
    let r := s.readMembers c errs (s.members c)
    let s := r.2
    let all := memMask r.1 fun f => f.all MemFrame.mark
    let n := (r.1.filter fun e => e.2.isNone).length
    let fixed := s.repairs c all
    let csf := s.csfNow c all
    let out := s.legFrame c (s.bit F.MAP_CH_STAT_sel [c] != fixed) r.1
    let s := { s with free := s.free + out.bits.length }
    let s := forEach (fun i t =>
      t.setMem c i { t.mem c i with store := (t.mem c i).store.filter fun f => decide (out.id < f.id) }) (List.range 8) s
    let s := s.setChan c { s.chan c with frames := (s.chan c).frames + 1, id := out.id + 1 }
    let s := if n = 0 then s else s.count (1024 + 4 * c + 3) n
    let s := if fixed then s.count (1024 + 4 * c) 1 else s
    (some out, s.setCsf c csf)
  else (none, s)

/-! ### The selector (R347 to R350) -/

def reqLO : Nat := 0xF
def reqSFB : Nat := 0xE
def reqFS : Nat := 0xD
def reqSFA : Nat := 0xB
def reqSD : Nat := 0x9
def reqMS : Nat := 0x7
def reqWTR : Nat := 0x5
def reqDNR : Nat := 0x1

/-- The wait-to-restore time that wtr acts as, in seconds. -/
def State.wtrActs (s : State) (c : Nat) : Nat := min 720 (s.chanSet F.MAP_CH_PS_wtr c)

/-- The wait-to-restore timer runs once a failure or degradation of leg A has cleared while B is selected, until it expires; a STANDBY
takes it from the mirror (R349, R355). -/
def State.wtrRuns (s : State) (c : Nat) : Bool :=
  let was := s.rd F.MAP_CH_STAT_req [c]
  if s.standby then s.bit F.MAP_CH_STAT_wtr_run [c]
  else decide (was = reqWTR) || (decide (was = reqSFA ∨ was = reqSD) && decide (s.wtrActs c ≠ 0))

/-- The request that holds at channel c's selector (R347, R349). DEDUCED (log 21). -/
def State.selRequest (s : State) (c : Nat) : Nat :=
  let cmd := (s.chan c).cmd
  if !s.isProt c then 0
  else if cmd = 1 then reqLO
  else if s.legRequests c true then reqSFB
  else if cmd = 2 then reqFS
  else if s.legRequests c false then reqSFA
  else if s.legDegraded c true != s.legDegraded c false then reqSD
  else if cmd = 3 ∨ cmd = 4 then reqMS
  else if s.bit F.MAP_CH_STAT_sel [c] then
    if s.chanSet F.MAP_CH_PS_revert c = 1 then (if s.wtrRuns c then reqWTR else 0) else reqDNR
  else 0

/-- The leg that a request selects (R347). -/
def State.selLeg (s : State) (c req : Nat) : Bool :=
  if req = reqFS ∨ req = reqSFA ∨ req = reqWTR ∨ req = reqDNR then true
  else if req = reqSD then s.legDegraded c false
  else if req = reqMS then decide ((s.chan c).cmd = 4)
  else false

/-- Leg `b` is selected: a change is counted and signalled (R347). -/
def State.selectLeg (s : State) (c : Nat) (b : Bool) : State :=
  if b = s.bit F.MAP_CH_STAT_sel [c] then s
  else ((s.wr F.MAP_CH_STAT_sel (b2n b) [c]).count (1024 + 4 * c + 1) 1).raise 0x29 (b2n b * 2 ^ 23 + c)

/-- The command in force and the wait-to-restore state of channel c, as the mirror carries them. -/
def State.psState (s : State) (c : Nat) : List Nat := [c, (s.chan c).cmd, s.rd F.MAP_CH_STAT_wtr_run [c]]

/-- The command in force or the wait-to-restore state has changed from `was`: the mirror carries it (R355, R475). -/
def State.psMirror (s : State) (was : List Nat) (c : Nat) : State :=
  if s.psState c = was then s else s.mirror 0x05 (s.psState c)

/-- The selector takes the highest request: a manual command ends where a request above it holds, a change of leg is
counted and signalled (R347, R348). -/
def State.evalSelector (s : State) (c : Nat) : State :=
  let was := s.psState c
  let s := s.reportLegs c
  let req := s.selRequest c
  let leg := s.selLeg c req
  let x := s.chan c
  let s := if reqMS < req ∧ 3 ≤ x.cmd then s.setChan c { x with cmd := 0 } else s
  let s := s.wr F.MAP_CH_STAT_req req [c]
  let s := if s.standby then s else s.wr F.MAP_CH_STAT_wtr_run (b2n (decide (req = reqWTR))) [c]
  (s.psMirror was c).selectLeg c leg

/-- SELECTOR_EVALUATION: at an output frame boundary of a channel defined in receive; when every member has failed, an
ALIGNED channel enters MEASURING (R340, R344, R347). -/
def execSelectorEvaluation (c : Fin 512) (s : State) : Out :=
  .next (
    if s.rd F.MAP_CH_STAT_align [c] = 0 then s
    else
      let s := s.evalSelector c
      if s.rd F.MAP_CH_STAT_align [c] = 2 ∧ (s.members c).all (fun d => s.memFails c d) = true then s.measure c else s)

/-- The rank of a command code in the table "Selector requests"; CLEAR ranks with nothing. -/
def cmdRank (code : Nat) : Nat := if code = 1 then reqLO else if code = 2 then reqFS else reqMS

/-- A selector command of channel c: refused for an unprotected channel, or below a request that holds, a command in force among
them (R348). -/
def State.psCommand (s : State) (c code : Nat) : State :=
  if !s.isProt c || decide (code ≠ 0 ∧ cmdRank code < s.selRequest c) || decide (5 ≤ code) then
    s.wr F.MAP_CH_CMD_refused 1 [c]
  else
    let was := s.psState c
    (s.setChan c { s.chan c with cmd := code }).psMirror was c

/-- A command of R348 that the host writes: its code, and the go that applies it. -/
def State.psGo (s : State) (c code : Nat) : State :=
  s.whenOpen 8 fun s => (s.wr F.MAP_CH_CMD_code code [c]).psCommand c code

/-- The five commands of R348. -/
def execPsClear (c : Fin 512) (s : State) : Out := .next (s.psGo c 0)
def execPsLockout (c : Fin 512) (s : State) : Out := .next (s.psGo c 1)
def execPsForcedSwitch (c : Fin 512) (s : State) : Out := .next (s.psGo c 2)
def execPsManualA (c : Fin 512) (s : State) : Out := .next (s.psGo c 3)
def execPsManualB (c : Fin 512) (s : State) : Out := .next (s.psGo c 4)

/-- A command in force and a wait-to-restore state come with the mirror (R355, R475). -/
def State.psMirrored (s : State) (c code wtr : Nat) : State :=
  (s.setChan c { s.chan c with cmd := code }).wr F.MAP_CH_STAT_wtr_run wtr [c]

/-- REALIGN: a channel defined in receive enters MEASURING (R340). -/
def execRealign (c : Fin 512) (s : State) : Out :=
  .next (s.whenOpen 8 fun s => if s.rd F.MAP_CH_STAT_align [c] = 0 then s else s.measure c)

/-- WTR_EXPIRY: the timer runs out and leg A is selected; a STANDBY takes it from the mirror (R349, R355). -/
def execWtrExpiry (c : Fin 512) (s : State) : Out :=
  .next (
    if s.bit F.MAP_CH_STAT_wtr_run [c] = true ∧ s.standby = false then
      let was := s.psState c
      (((s.wr F.MAP_CH_STAT_req 0 [c]).wr F.MAP_CH_STAT_wtr_run 0 [c]).psMirror was c).selectLeg c false
    else s)

/-- The protection fields of channel c's transmitted record (R350): request and lowest member of the selected leg. -/
def State.txProtection (s : State) (c : Nat) : Nat × Nat :=
  if s.isProt c then
    (s.rd F.MAP_CH_STAT_req [c], (((s.leg c (s.bit F.MAP_CH_STAT_sel [c])).map MemberDef.m).min?).getD 0)
  else (0, 0)

/-- The record of a multiframe is judged: the far end's fields are reported from a valid one; three bad ones in a row declare a
mismatch, a good one ends it (R351). DEDUCED (log 20). -/
def State.judgeRecord (s : State) (c : Nat) (d : MemberDef) (r : ChanRecord) : State :=
      let x := s.mem c d.slice
      let bad := !r.valid || decide (r.ch ≠ c) || decide (r.members + 1 ≠ (s.members c).length)
      let s := if r.valid = true ∧ r.ch = c then
          ((s.wr F.MAP_CH_FAR_req r.req [c]).wr F.MAP_CH_FAR_sel_mem r.sel [c]).wr F.MAP_CH_FAR_valid 1 [c] else s
      if bad then
        let s := s.setMem c d.slice { x with badRec := min 3 (x.badRec + 1), mism := x.mism || decide (3 ≤ x.badRec + 1) }
        if x.mism = false ∧ 3 ≤ x.badRec + 1 then
          (s.wr F.MAP_MEM_STAT_mism 1 [c, d.m]).raise 0x2A (d.m * 2 ^ 9 + c)
        else s
      else s.setMem c d.slice { x with badRec := 0, mism := false }

/-- MEMBER_MISMATCH: the record that member m's slice has just received (R351). -/
def execMemberMismatch (c : Fin 512) (m : Fin 8) (s : State) : Out :=
  .next (
    match (s.members c).find? fun d => d.m = m.val with
    | none => s
    | some d =>
      match s.memRecord c d with
      | some r => if s.rd F.MAP_CH_STAT_align [c] ≠ 0 then s.judgeRecord c d r else s
      | none => s)

/-! ### Commits (R23, R24, R340, R343, R353, R354) -/

/-- The slices that carry channel c in either of two images. -/
def chanSlices (a b : Tab Nat) (c : Nat) : List Nat := ((membersOf a c ++ membersOf b c).map MemberDef.slice).eraseDups

/-- A member without its route, which touches no line (R343). -/
def MemberDef.unrouted (d : MemberDef) : MemberDef := { d with cel := false }

/-- The settings that touch the line of a channel in receive: its definition, its selector, its cipher and the keys of its receive
direction (R129, R352, R353, R364). -/
def rxSettings : List (Fld × Option Nat) :=
  [(F.MAP_CH_CFG_rx_on, none), (F.MAP_CH_CFG_size, none), (F.MAP_CH_CFG_prot, none),
   (F.MAP_CH_PS_revert, none), (F.MAP_CH_PS_sd_en, none), (F.MAP_CH_PS_wtr, none),
   (F.CIP_CH_CFG_side, none), (F.CIP_CH_CFG_auth_n, none),
   (F.CIP_CH_KEY_slot0, some 1), (F.CIP_CH_KEY_slot1, some 1), (F.CIP_CH_KEY_epoch, some 1)]

/-- The receive side of channel c differs between two images (R352, R353). -/
def rxDiffers (a b : Tab Nat) (c : Nat) : Bool :=
  decide ((membersOf a c).map MemberDef.unrouted ≠ (membersOf b c).map MemberDef.unrouted)
    || ([false, true].any fun l => decide (legContexts a false l c ≠ legContexts b false l c))
    || rxSettings.any fun f => decide (imgGet a f.1 (c :: f.2.toList) ≠ imgGet b f.1 (c :: f.2.toList))

/-- A slice carries channel c in `new` and not in `old`, or the reverse. -/
def memberChanged (old new : Tab Nat) (c i : Nat) : Bool :=
  decide (((membersOf old c).any fun d => decide (d.slice = i)) ≠ ((membersOf new c).any fun d => decide (d.slice = i)))

/-- The state of channel c's members reported under their numbers in the definition in force (R354). -/
def State.reportMembers (s : State) (c : Nat) : State :=
  forEach (fun m t =>
    let x := (((t.members c).find? fun d => decide (d.m = m)).map fun d => t.mem c d.slice).getD Mem.fresh
    ((t.wr F.MAP_MEM_STAT_ok_num (b2n x.num) [c, m]).wr F.MAP_MEM_STAT_dskew (b2n x.dskew) [c, m]).wr F.MAP_MEM_STAT_fail 0 [c, m])
    (List.range 8) s

/-- The receive epoch of channel c is that of the image that defines it; a channel that is not defined in receive starts afresh
(R364). -/
def State.cipEpoch (s : State) (c : Nat) : State :=
  if definedIn (s.chanImg c) false c then s.wr F.CIP_CH_STAT_rx_epoch (imgGet (s.chanImg c) F.CIP_CH_KEY_epoch [c, 1]) [c]
  else s.setCipCh c CipCh.fresh

/-- One channel's receive side goes over from image `old` to `img`, at one output frame: definitions first, the selector second; a
member on a slice that carries the channel before and after keeps all that it holds, also under another number (R340, R341, R353,
R354). -/
def State.mapChannel (s : State) (old : Tab Nat) (img : RxImg) (c : Nat) : State :=
  let new := s.imgOf img
  let s := s.setChan c { s.chan c with img := img, turns := [] }
  let s := forEach (fun i t => if memberChanged old new c i then t.setMem c i Mem.fresh else t) (List.range 8) s
  let s := (s.cipEpoch c).reportMembers c
  if !definedIn new false c then
    if s.rd F.MAP_CH_STAT_align [c] = 0 then s
    else
      let s := s.setCsf c true
      let s := forEach (fun i t => t.setMem c i Mem.fresh) (List.range 8) s
      forEach (fun f t => t.wr f 0 [c]) [F.MAP_CH_STAT_align, F.MAP_CH_STAT_sel, F.MAP_CH_STAT_req,
        F.MAP_CH_STAT_wtr_run, F.MAP_CH_FAR_valid, F.MAP_CH_DLY_dc] ((s.setChan c { Chan.fresh with img := img }).reportMembers c)
  else if s.rd F.MAP_CH_STAT_align [c] = 0 then s.measure c
  else
    let was := s.psState c
    let s := if imgGet old F.MAP_CH_CFG_prot [c] = 1 ∧ s.isProt c = false then
        (s.setChan c { s.chan c with cmd := 0 }).psMirror was c else s
    let b := s.bit F.MAP_CH_STAT_sel [c]
    let s := if s.leg c b = [] then s.selectLeg c (!b) else s
    (if s.rd F.MAP_CH_STAT_align [c] = 2 then (s.judgeSkew c).reportDelay c else s).evalSelector c

/-- Every slice of channel c, in either image, works with `img`. -/
def State.allAt (s : State) (a b : Tab Nat) (img : RxImg) (c : Nat) : Bool :=
  (chanSlices a b c).all fun i => decide ((s.rx1 i).img = img)

/-- The channel's change comes at its output: all its slices have gone over, and the frame that is read next is the first under the new
image on every member whose frames are numbered, in an ALIGNED channel; in any other the last slice brings it (R353). -/
def State.turnChannel (s : State) (c : Nat) : State :=
  let x := s.chan c
  let old := s.chanImg c
  let come := x.turns.all fun t => t.2.all fun b => decide (b ≤ x.id)
  if x.turns ≠ [] ∧ s.allAt old (s.imgOf x.dest) x.dest c = true ∧ (s.rd F.MAP_CH_STAT_align [c] ≠ 2 ∨ come = true) then
    s.mapChannel old x.dest c
  else s

/-- The identity of the next frame of channel c's member on slice i, where it is numbered and the slice has no SSF. -/
def State.nextFrame (s : State) (c i : Nat) : Option Nat :=
  if (s.mem c i).num && !s.bit F.LFR_STAT_ssf [i] then some ((s.mem c i).id + 1) else none

/-- Slice i has gone over to `img`: its next frame is the first under it in each channel that it carries and that the change
concerns; a slice that goes back is in no turn (R23, R24, R299, R353). -/
def State.rxFollow (s : State) (img : RxImg) (i : Nat) : State :=
  forEach (fun c t =>
    let x := t.chan c
    let others := x.turns.filter fun e => decide (e.1 ≠ i)
    if x.img = img then t.setChan c { x with turns := others }
    else if rxDiffers (t.chanImg c) (t.imgOf img) c && decide (i ∈ chanSlices (t.chanImg c) (t.imgOf img) c) then
      (t.setChan c { x with dest := img, turns := others ++ [(i, t.nextFrame c i)] }).turnChannel c
    else t) channels s

/-- A boundary at MAP that replaces CURRENT's image `old`; `early` names the image that slices which have gone over already had. A
channel whose slices wait for the received boundary waits with them, one that has changed or has turns to come keeps them; else
definitions first, selectors second (R353, R354). The reserves in force are reported (R336, R337). -/
def State.mapCommit (s : State) (old : Tab Nat) (early : RxImg) : State :=
  let s := forEach (fun c t =>
    let x := t.chan c
    let new := t.vtg.current
    let waits := (chanSlices old new c).any fun i => decide ((t.rx1 i).img = .previous)
    if x.img = early then t.setChan c { x with img := .current }
    else if !definedIn old false c && !definedIn new false c then t.setChan c { x with img := .current, turns := [] }
    else if x.img = .current ∧ rxDiffers old new c = true ∧ (x.turns ≠ [] ∨ waits = true) then
      (t.setChan c { x with img := .previous, dest := .current }).turnChannel c
    else t.mapChannel old .current c) channels s
  (s.wr F.MAP_STAT_chip_used (chipUsed s.vtg.current)).wr F.MAP_CEL_STAT_cel_ctx (cellarContexts s.vtg.current)

/-- A shared reset: every channel defined in receive holds CSF and enters MEASURING (R537). -/
def State.mapMeasureAll (s : State) : State :=
  forEach (fun c t => if t.rd F.MAP_CH_STAT_align [c] = 0 then t else t.measure c) channels s

end Sys2Proof.Machine
end

