-- ==== Sys2Proof/Machine/Solera.lean ====
section
/-!
DEFINITION. The solera arbiter: ranking, service cycles, guarantees and ageing (chapter 17, R420 to R426).
-/

namespace Sys2Proof.Machine

/-- The tier of a waiting request: its entry tier, one tier higher for every age step waited, up to 3 (R423). -/
def Req.tier (r : Req) : Nat := min 3 (r.entry + r.age / max 1 r.step)

/-- One or more rounds pass: every waiting request ages (R423). DEDUCED (log 25). -/
def Solera.age (x : Solera) (rounds : Nat) : Solera :=
  { x with reqs := x.reqs.map fun r => { r with age := r.age + rounds } }

/-- Credits after some rounds: each class gains its guarantee, up to its burst, in 2^-16 of a grant (R422).
`guar k` and `burst k` are the use's settings. DEDUCED (log 25). -/
def Solera.accrue (x : Solera) (rounds : Nat) (guar burst : Nat → Nat) (classes : List Nat) : Solera :=
  { x with credit := classes.foldl (fun c k =>
      tabPut 0 c k (min (burst k * 65536) (tabGet 0 c k + rounds * guar k))) x.credit }

/-- `ticks` ticks of 1.6 ns pass, with the rounds of `len` hundredths of a ns that they end: ages and credits (R422, R423, R427). -/
def Solera.tick (x : Solera) (ticks len : Nat) (guar burst : Nat → Nat) (classes : List Nat) : Solera :=
  let t := x.frac + 160 * ticks
  { (x.age (t / len)).accrue (t / len) guar burst classes with frac := t % len }

/-- The class that a tier serves next (R421): the class in service while it has grants left in this cycle, else the
next higher class that waits, else the lowest, which begins a new cycle. `ks` are the waiting classes of the tier.
DEDUCED (log 25). -/
def nextClass (ks : List Nat) (cur given : Nat) (weight : Nat → Nat) : Option Nat :=
  if cur ∈ ks ∧ given < weight cur then some cur
  else
    match (ks.filter fun k => decide (cur < k)).min? with
    | some k => some k
    | none => ks.min?

/-- The highest tier at which an eligible request of nonzero weight waits, searched downwards. -/
def topTier (rs : List Req) : Nat → Option Nat
  | 0 => if rs.any (fun r => r.tier = 0) then some 0 else none
  | t + 1 => if rs.any (fun r => r.tier = t + 1) then some (t + 1) else topTier rs t

/-- The request that a free server is granted to (R421), and the use after the grant: first a class with a whole
credit, in ascending class number; then the tiers from 3 down to 0, by service cycles of `weight`. `ok` says which
requests are eligible. DEDUCED (log 25). -/
def Solera.grant (x : Solera) (weight : Nat → Nat) (ok : Req → Bool) : Option (Req × Solera) :=
  let rs := x.reqs.filter ok
  let without := fun (r : Req) => x.reqs.filter fun q => !(q.cls = r.cls ∧ q.src = r.src)
  match ((rs.filter fun r => decide (65536 ≤ tabGet 0 x.credit r.cls)).map Req.cls).min? with
  | some k =>
    match rs.find? fun r => r.cls = k with
    | some r => some (r, { x with reqs := without r, credit := tabPut 0 x.credit k (tabGet 0 x.credit k - 65536) })
    | none => none
  | none =>
    let ts := rs.filter fun r => decide (weight r.cls ≠ 0)
    match topTier ts 3 with
    | none => none
    | some t =>
      let cur := tabGet (0, 0) x.cursor t
      match nextClass ((ts.filter fun r => r.tier = t).map Req.cls) cur.1 cur.2 weight with
      | none => none
      | some k =>
        match ts.find? fun r => r.cls = k ∧ r.tier = t with
        | none => none
        | some r =>
          let given := if k = cur.1 ∧ cur.2 < weight k then cur.2 + 1 else 1
          some (r, { x with reqs := without r, cursor := tabPut (0, 0) x.cursor t (k, given) })

/-- The parameters of a use (R420 to R424, R427): its servers, and by class the weight, the guarantee and the cap rate in
2^-16 of a grant a round, a rate of 0 for a class without one, and the burst. -/
structure Use where
  servers : Nat
  classes : List Nat
  weight  : Nat → Nat
  guar    : Nat → Nat
  burst   : Nat → Nat
  cap     : Nat → Nat

/-- Credits and cap credits after some rounds (R422, R424): cap credit stops at 64 grants. -/
def Solera.gain (x : Solera) (u : Use) (rounds : Nat) : Solera :=
  let x := x.accrue rounds u.guar u.burst (u.classes.filter fun k => decide (u.guar k ≠ 0))
  { x with caps := (u.classes.filter fun k => decide (u.cap k ≠ 0)).foldl (fun c k =>
      tabPut 0 c k (min (64 * 65536) (tabGet 0 c k + rounds * u.cap k))) x.caps }

/-- A request that its own class's cap holds back (R423, R424). -/
def Solera.held (x : Solera) (u : Use) (r : Req) : Bool := decide (u.cap r.cls ≠ 0 ∧ tabGet 0 x.caps r.cls < 65536)

/-- One free server is granted to the highest-ranked eligible request; a capped class spends one of its cap credits (R421,
R424). -/
def Solera.serve (x : Solera) (u : Use) : Option (Req × Solera) :=
  (x.grant u.weight fun r => !x.held u r).map fun g =>
    let k := g.1.cls
    (g.1, if u.cap k = 0 then g.2 else { g.2 with caps := tabPut 0 g.2.caps k (tabGet 0 g.2.caps k - 65536) })

/-- The requests that a round leaves waiting gain 1 age, but for those that `before`, the use as the round began, held back
(R423). -/
def Solera.ageRound (x before : Solera) (u : Use) : Solera :=
  { x with reqs := x.reqs.map fun r => if before.held u r then r else { r with age := r.age + 1 } }

/-- The bound of R426 on the wait of a request, in rounds: total guarantee num/den, servers S, L, the entry tier and age
step, n requests ahead, weight, sum of weights, Q and the sum of bursts. `none` where no bound holds. -/
def worstWait (gNum gDen S L e A n w W Q B : Nat) : Option Nat :=
  if gDen ≤ gNum ∨ w = 0 then none
  else
    let N := min ((n + w) / w * W) Q
    let den := (gDen - gNum) * S
    some (L + (3 - e) * A + (L * (N + B) * gDen + den - 1) / den)

end Sys2Proof.Machine
end

