-- ==== Sys2Proof/Machine/Cipher.lean ====
section
/-!
DEFINITION. The cipher engine: nonces and counters, key slots and wrapped keys, verification of channel messages and
the message service (chapter 14, R356 to R377). AES-256 and the GHASH product are constants without a body.
-/

namespace Sys2Proof.Machine

def State.slot (s : State) (n : Nat) : KeySlot := (tabGet none s.cip.slots n).getD KeySlot.empty
def State.setSlot (s : State) (n : Nat) (x : Option KeySlot) : State :=
  { s with cip := { s.cip with slots := tabPut none s.cip.slots n x } }
def State.cipTx (s : State) (c : Nat) : CipTx := tabGet CipTx.fresh s.cip.tx c
def State.setCipTx (s : State) (c : Nat) (x : CipTx) : State :=
  { s with cip := { s.cip with tx := tabPut CipTx.fresh s.cip.tx c x } }
def State.svc (s : State) (f : Nat) : Svc := tabGet Svc.idle s.cip.svc f
def State.setSvc (s : State) (f : Nat) (x : Svc) : State :=
  { s with cip := { s.cip with svc := tabPut Svc.idle s.cip.svc f x } }

/-! ### GCM, key wrap and key derivation (R356, R359, R367, R369, R371) -/

/-- A channel nonce and a service nonce (R359), bit 0 the most significant of 96. -/
def channelNonce (c side epoch ctr : Nat) : Nat := c * 2 ^ 87 + side * 2 ^ 86 + epoch * 2 ^ 85 + ctr % 2 ^ 48
def serviceNonce (slot ctr : Nat) : Nat := slot * 2 ^ 85 + 2 ^ 84 + ctr % 2 ^ 48

/-- GHASH goes on by one block. -/
def ghashStep (h y x : BitVec 128) : BitVec 128 := Config.ghashMul h (y ^^^ x)

/-- Counter block k of a message: the 96-bit nonce, then 32 bits; block 1 masks the tag, text begins at 2. -/
def counterBlock (nonce k : Nat) : BitVec 128 := BitVec.ofNat 128 (nonce * 2 ^ 32 + k % 2 ^ 32)

/-- The hash key of a key. -/
def hashKey (key : BitVec 256) : BitVec 128 := Config.aes256 key 0

/-- Text block k (from 0) encrypted or decrypted. -/
def gcmBlock (key : BitVec 256) (nonce k : Nat) (x : BitVec 128) : BitVec 128 :=
  x ^^^ Config.aes256 key (counterBlock nonce (k + 2))

/-- The tag of a message whose blocks hash to `y`; lengths in 16-byte blocks. -/
def gcmTag (key : BitVec 256) (nonce aad text : Nat) (y : BitVec 128) : BitVec 128 :=
  ghashStep (hashKey key) y (BitVec.ofNat 128 (128 * aad * 2 ^ 64 + 128 * text)) ^^^ Config.aes256 key (counterBlock nonce 1)

/-- The check value of a key (R369). -/
def checkValue (key : BitVec 256) : Nat := (Config.aes256 key 0).toNat / 2 ^ 104

/-- The inner steps of the RFC 3394 unwrap: step counts t downwards over the four 64-bit words. -/
def unwrapSteps (kek : BitVec 256) : Nat → BitVec 64 → List (BitVec 64) → BitVec 64 × List (BitVec 64)
  | 0, a, r => (a, r)
  | t + 1, a, r =>
    let i := t % 4
    let b := Config.aes256Inv kek ((a ^^^ BitVec.ofNat 64 (t + 1)) ++ r.getD i 0)
    unwrapSteps kek t (b.extractLsb' 64 64) (r.set i (b.extractLsb' 0 64))

/-- The key that 40 wrapped bytes hold, where the unwrap passes its integrity check (R367). DESIGN CHOICE (log 3). -/
def unwrapKey (kek : BitVec 256) (wrapped : List Nat) : Option (BitVec 256) :=
  let w := fun (k : Nat) => BitVec.ofNat 64 (((wrapped.drop (8 * k)).take 8).foldl (fun v b => 256 * v + b) 0)
  let (a, r) := unwrapSteps kek 24 (w 0) [w 1, w 2, w 3, w 4]
  if a = 0xA6A6A6A6A6A6A6A6#64 then some (r.getD 0 0 ++ r.getD 1 0 ++ r.getD 2 0 ++ r.getD 3 0) else none

/-- The inner steps of the RFC 3394 wrap: `k` steps from step count t upwards. -/
def wrapSteps (kek : BitVec 256) : Nat → Nat → BitVec 64 → List (BitVec 64) → BitVec 64 × List (BitVec 64)
  | 0, _, a, r => (a, r)
  | k + 1, t, a, r =>
    let i := (t - 1) % 4
    let b := Config.aes256 kek (a ++ r.getD i 0)
    wrapSteps kek k (t + 1) (b.extractLsb' 64 64 ^^^ BitVec.ofNat 64 t) (r.set i (b.extractLsb' 0 64))

/-- The 40 bytes of a key wrapped under a KEK (R475). -/
def wrapKey (kek key : BitVec 256) : List Nat :=
  let (a, r) := wrapSteps kek 24 1 0xA6A6A6A6A6A6A6A6#64 ((List.range 4).map fun k => key.extractLsb' (64 * (3 - k)) 64)
  (a :: r).flatMap fun w => (List.range 8).map fun k => w.toNat / 2 ^ (8 * (7 - k)) % 256

/-- Bytes as words of 24 bits, the last one padded. -/
def bytesWords (bs : List Nat) : List Nat := (List.range ((bs.length + 2) / 3)).map (payWord bs)

/-- Doubling in the field of AES-CMAC (NIST SP 800-38B). -/
def cmacDouble (x : BitVec 128) : BitVec 128 := (x <<< 1) ^^^ (if x.getLsbD 127 then 0x87#128 else 0#128)

/-- AES-256-CMAC of an 18-byte message: two blocks, the second padded. -/
def cmac18 (key : BitVec 256) (bs : List Nat) : BitVec 128 :=
  let num := fun (l : List Nat) => l.foldl (fun v b => 256 * v + b) 0
  let k2 := cmacDouble (cmacDouble (Config.aes256 key 0))
  let m1 := BitVec.ofNat 128 (num (bs.take 16))
  let m2 := BitVec.ofNat 128 (num (bs.drop 16) * 2 ^ 112 + 2 ^ 111)
  Config.aes256 key (Config.aes256 key m1 ^^^ m2 ^^^ k2)

/-- The pair key K1 ‖ K2 of two twins (R371). -/
def pairKey (secret : BitVec 256) (idA idB : Nat) : BitVec 256 :=
  let msg := fun (i : Nat) => [i, 0x4F, 0x43, 0x56, 0x2D, 0x50, 0x41, 0x49, 0x52, 0] ++ wordBytes idA ++ wordBytes idB ++ [1, 0]
  cmac18 secret (msg 1) ++ cmac18 secret (msg 2)

/-! ### Key references in an image (R358, R363) -/

/-- The two slots and the epoch in force of a channel direction: d = 0 transmit, 1 receive. -/
def keyRefs (m : Tab Nat) (c d : Nat) : Nat × Nat × Nat :=
  (imgGet m F.CIP_CH_KEY_slot0 [c, d], imgGet m F.CIP_CH_KEY_slot1 [c, d], imgGet m F.CIP_CH_KEY_epoch [c, d])

/-- The slot of the epoch in force. -/
def slotInForce (m : Tab Nat) (c d : Nat) : Nat :=
  let (a, b, e) := keyRefs m c d
  if e = 0 then a else b

/-- The channel directions that an image defines. -/
def directions (m : Tab Nat) : List (Nat × Nat) :=
  channels.flatMap fun c => [0, 1].filterMap fun d => if definedIn m (decide (d = 0)) c then some (c, d) else none

/-- A commit fails with CHANNEL: the engine's 40,960 slots in a direction (R358). -/
def cipherFull (m : Tab Nat) : Bool :=
  [0, 1].any fun d => decide (40960 <
    (((directions m).filter fun e => e.2 = d).map fun e => imgGet m F.MAP_CH_CFG_size [e.1]).sum)

/-- The key of a slot for a message: a slot whose row in the key store is poisoned acts as empty, check value 0 (R370, R413); and
whether it was. -/
def State.keyRead (s : State) (n : Nat) : BitVec 256 × Bool × State :=
  let r := s.memRead 9 n
  if r.1 then (0, true, (r.2.wr F.CIP_SLOT_STAT_full 0 [n]).wr F.CIP_SLOT_KCV_kcv 0 [n]) else ((s.slot n).key, false, r.2)

/-- A slot holds a key, and a channel key. -/
def State.slotFull (s : State) (n : Nat) : Bool := s.bit F.CIP_SLOT_STAT_full [n]
def State.slotChannel (s : State) (n : Nat) : Bool := s.slotFull n && decide (s.rd F.CIP_SLOT_STAT_use [n] = 0)

/-- A commit fails with KEYREF (R363); a channel direction that the image does not define names no slot: its fields read 0.
DEDUCED (log 22). -/
def State.keyrefBad (s : State) (m : Tab Nat) : Bool :=
  let ds := directions m
  let refs := fun (e : Nat × Nat) => let (a, b, _) := keyRefs m e.1 e.2; [a, b]
  ds.any fun e =>
    !s.slotChannel (slotInForce m e.1 e.2)
      || (refs e).any (fun n => s.slotFull n && !s.slotChannel n)
      || (refs e).any (fun n => ds.any fun g => decide (g ≠ e) && decide (n ∈ refs g))

/-- A commit is pending: VALIDATING, LOADING, NEGOTIATING, HELD or ARMED. -/
def State.commitPending (s : State) : Bool := decide (1 ≤ s.rd F.VTG_STAT_state ∧ s.rd F.VTG_STAT_state ≤ 5)

/-- A load or erase of the slot is refused with INUSE (R365). DEDUCED (log 22). -/
def State.slotInUse (s : State) (n : Nat) : Bool :=
  let forced := fun (m : Tab Nat) => (directions m).any fun e => decide (slotInForce m e.1 e.2 = n)
  forced s.vtg.current
    || (s.commitPending && forced s.pendImg)
    || (decide (s.rd F.VTG_STAT_state = 6 ∨ s.rd F.VTG_STAT_state = 7) && forced s.vtg.previous)
    || (s.slotFull n && decide (s.rd F.CIP_SLOT_STAT_use [n] = 1)
        && (List.range 16).any fun f => (s.svc f).queue.any fun d => decide (bitsOf (d.getD 0 0) 22 12 = n))

/-! ### Loading keys (R365 to R370) -/

/-- The KEK of a function: the device KEK for the PF (R366). -/
def State.kekOf (s : State) (f : Nat) : Option (BitVec 256) := if f = 0 then s.cip.devKek else tabGet none s.cip.keks f

/-- The slot is granted to function f (R368). -/
def State.slotGranted (s : State) (f n : Nat) : Bool := decide (s.rd F.CIP_SLOT_GRANT_func [n / 16] = f)

/-- The 40 wrapped bytes in function f's user page (R367). -/
def State.wrappedBytes (s : State) (f : Nat) : List Nat :=
  ((List.range 14).flatMap fun w => wordBytes (s.rd F.CIP_UP_KEY_DATA_bytes [f, w])).take 40

/-- A key command of function f completes with a status. -/
def State.keyStatus (s : State) (f code : Nat) : State := s.wr F.CIP_UP_KEY_CMD_status code [f]

/-- A slot takes a key (R367, R369). -/
def State.fillSlot (s : State) (n use f : Nat) (key : BitVec 256) : State :=
  let s := (s.memWrite 9 n true).2.setSlot n (some ⟨key, 0⟩)
  let s := ((s.wr F.CIP_SLOT_STAT_full 1 [n]).wr F.CIP_SLOT_STAT_use use [n]).wr F.CIP_SLOT_STAT_func f [n]
  s.wr F.CIP_SLOT_KCV_kcv (checkValue key) [n]

/-- A full slot goes into the mirror, wrapped under the pair key: [slot, use, function, 14 words] (R475). -/
def State.mirrorSlot (s : State) (n : Nat) : State :=
  match s.pry.joinKey with
  | some k =>
    s.mirror 0x08 ([n, s.rd F.CIP_SLOT_STAT_use [n], s.rd F.CIP_SLOT_STAT_func [n]] ++ bytesWords (wrapKey k (s.slot n).key))
  | none => s

/-- A slot is zeroed and empty (R369). -/
def State.clearSlot (s : State) (n : Nat) : State :=
  let s := (s.memWrite 9 n true).2.setSlot n none
  let s := ((s.wr F.CIP_SLOT_STAT_full 0 [n]).wr F.CIP_SLOT_STAT_use 0 [n]).wr F.CIP_SLOT_STAT_func 0 [n]
  s.wr F.CIP_SLOT_KCV_kcv 0 [n]

/-- KEY_LOAD_SLOT: function f unwraps a key into the slot its command names (R365 to R368). DEDUCED (log 22). -/
def execKeyLoadSlot (f : Fin 16) (s : State) : Out :=
  .next (s.whenOpen 9 fun s =>
    let n := s.rd F.CIP_UP_KEY_CMD_slot [f]
    let use := s.rd F.CIP_UP_KEY_CMD_use [f]
    if s.slotGranted f n = false then s.keyStatus f 2
    else if s.slotInUse n then s.keyStatus f 3
    else if s.cip.devKek = none then s.keyStatus f 4
    else
      match s.kekOf f with
      | none => s.keyStatus f 4
      | some kek =>
        if use = 3 then s.keyStatus f 1
        else
          match unwrapKey kek (s.wrappedBytes f) with
          | none => s.keyStatus f 1
          | some key => ((s.fillSlot n use f key).mirrorSlot n).keyStatus f 0)

/-- KEY_ERASE_SLOT (R365, R368, R369). DEDUCED (log 22). -/
def execKeyEraseSlot (f : Fin 16) (s : State) : Out :=
  .next (s.whenOpen 9 fun s =>
    let n := s.rd F.CIP_UP_KEY_CMD_slot [f]
    if s.slotGranted f n = false then s.keyStatus f 2
    else if s.slotInUse n then s.keyStatus f 3
    else (s.clearSlot n).keyStatus f 0)

/-- The KEK of VF g becomes `k`, with its bit of CIP_STAT.kek. -/
def State.setKek (s : State) (g : Nat) (k : Option (BitVec 256)) : State :=
  let bit := 2 ^ (g - 1)
  let old := s.rd F.CIP_STAT_kek
  let s := { s with cip := { s.cip with keks := tabPut none s.cip.keks g k } }
  s.wr F.CIP_STAT_kek (if k = none then old &&& (2 ^ 15 - 1 - bit) else old ||| bit)

/-- KEK_LOAD: from the PF alone; a VF's KEK comes wrapped under the device KEK (R366 to R368). -/
def execKekLoad (f : Fin 16) (s : State) : Out :=
  .next (s.whenOpen 9 fun s =>
    let g := s.rd F.CIP_UP_KEY_CMD_func [f]
    if f ≠ 0 then s.keyStatus f 5
    else
      match s.cip.devKek with
      | none => s.keyStatus f 4
      | some kek =>
        match unwrapKey kek (s.wrappedBytes f) with
        | none => s.keyStatus f 1
        | some key => if g = 0 then s.keyStatus f 4 else (s.setKek g (some key)).keyStatus f 0)

/-- KEK_ERASE: from the PF alone (R368). -/
def execKekErase (f : Fin 16) (s : State) : Out :=
  .next (s.whenOpen 9 fun s =>
    let g := s.rd F.CIP_UP_KEY_CMD_func [f]
    if f ≠ 0 then s.keyStatus f 5
    else if g = 0 then s.keyStatus f 4 else (s.setKek g none).keyStatus f 0)

/-! ### Counters and verification (R360 to R364, R372, R373) -/

/-- The 48-bit counter that CIP_CH_MFC_H and CIP_CH_MFC_L report. -/
def State.mfc (s : State) (c d : Nat) : Nat := s.rd F.CIP_CH_MFC_H_count [c, d] * 2 ^ 24 + s.rd F.CIP_CH_MFC_L_count [c, d]
def State.setMfc (s : State) (c d n : Nat) : State :=
  (s.wr F.CIP_CH_MFC_H_count (n / 2 ^ 24) [c, d]).wr F.CIP_CH_MFC_L_count n [c, d]

/-- A multiframe boundary of the transmit grid: each channel defined in transmit ends a message and its counter goes on;
the epoch being sent is that of the commit in force (R360, R364). -/
def State.cipMultiframe (s : State) : State :=
  forEach (fun c t =>
    if definedIn t.vtg.current true c then
      ((t.setMfc c 0 (t.mfc c 0 + 1)).count (3072 + c) 1).wr F.CIP_CH_STAT_tx_epoch (t.cur F.CIP_CH_KEY_epoch [c, 0]) [c]
    else t) channels s

/-- The transmit superframe counts and the CIP transmit counters go into the mirror: [0, slice, count] and [1, channel, words]; a channel
that the item does not list has counter 0 (R362, R475). PRESUMED (log 40). -/
def State.mirrorGrids (s : State) : State :=
  let lit := slices8.filter fun i => s.lit i
  let chans := channels.filter fun c => decide (s.mfc c 0 ≠ 0)
  s.mirror 0x09 ((lit.flatMap fun i => [0, i, s.rd F.LFR_TX_SFC_count [i], 0])
    ++ chans.flatMap fun c => [1, c, s.mfc c 0 / 2 ^ 24, s.mfc c 0 % 2 ^ 24])

/-- A new ACTIVE adds 65,536 to every transmit counter (R362). -/
def State.cipTakeover (s : State) : State := forEach (fun c t => t.setMfc c 0 (t.mfc c 0 + 65536)) channels s

/-- Position of a receive counter of channel c (R575): MSG, AUTH, UNVER, CTR, EPOCH. -/
def cipCnt (c j : Nat) : Nat := 3584 + 5 * c + j

/-- auth_n acts as 1 to 15 (R372). -/
def State.authN (s : State) (c : Nat) : Nat := max 1 (s.cur F.CIP_CH_CFG_auth_n [c])

/-- dAUTH changes with its event (R372). -/
def State.setAuth (s : State) (c : Nat) (v : Bool) : State :=
  if s.bit F.CIP_CH_STAT_dauth [c] = v then s
  else (s.wr F.CIP_CH_STAT_dauth (b2n v) [c]).raise 0x2C (b2n v * 2 ^ 23 + c)

/-- A message of channel c fails (R372). -/
def State.authFails (s : State) (c : Nat) : State :=
  let x := s.cipCh c
  let s := s.setCipCh c { x with failRun := x.failRun + 1, okRun := 0 }
  let s := (s.count (cipCnt c 1) 1).wr F.CIP_CH_STAT_auth_fail 1 [c]
  if s.authN c ≤ x.failRun + 1 then s.setAuth c true else s

/-- A message of channel c verifies (R372). -/
def State.authOk (s : State) (c ctr : Nat) : State :=
  let x := s.cipCh c
  let s := s.setCipCh c { x with failRun := 0, okRun := x.okRun + 1, misCtr := none }
  let s := s.setMfc c 1 ctr
  if s.authN c ≤ x.okRun + 1 then s.setAuth c false else s

/-- `n` key stream bits of a message from its bit `at'` on (R356). -/
def keyStream (key : BitVec 256) (nonce at' n : Nat) : List Bool :=
  (((List.range (n / 128 + 2)).flatMap fun k =>
    toBits 128 (Config.aes256 key (counterBlock nonce (at' / 128 + k + 2))).toNat).drop (at' % 128)).take n

/-- The key and the nonce of channel c's received message (R359, R361, R363). -/
def State.rxKey (s : State) (c : Nat) (m : RxMsg) : BitVec 256 × Nat :=
  (if m.bad then 0 else (s.slot m.slot).key, channelNonce c m.side m.epoch m.num)

/-- A message of channel c begins under number n: the slot of the epoch in force; the receive side expects the inverse of its own
side bit (R359, R361, R364). -/
def State.rxBegin (s : State) (c n : Nat) : RxMsg × State :=
  let slot := slotInForce (s.chanImg c) c 1
  let r := s.keyRead slot
  (⟨n, slot, s.rd F.CIP_CH_STAT_rx_epoch [c], 1 - s.chanSet F.CIP_CH_CFG_side c, r.2.1⟩, r.2.2)

/-- Slots of channel c in receive. -/
def State.rxSize (s : State) (c : Nat) : Nat := imgGet (s.chanImg c) F.MAP_CH_CFG_size [c]

/-- An output frame of channel c reaches CIP: it is decrypted with MAP's multiframe number, its ciphertext kept until the record of
its message has come, which it carries itself for the message before. A message of which MAP has not delivered every frame, or held
CSF in one, is not whole (R356, R361, R373). -/
def State.cipFrame (s : State) (c : Nat) (f : OutFrame) (csf : Bool) : State :=
  let x := s.cipCh c
  let n := f.id / 256
  let begins := f.id % 256 = 0 ∨ n ≠ x.msg.num
  let r := if begins then s.rxBegin c n else (x.msg, s)
  let x := if begins then
      let follows := n = x.msg.num + 1
      { x with msg := r.1, last := x.msg, lastText := if follows then x.text else [], lastCsf := x.csf, text := [],
               csf := decide (f.id % 256 ≠ 0), num := none, rcd := none }
    else { x with csf := x.csf || decide (f.id ≠ x.next) }
  let k := r.2.rxKey c x.msg
  let plain := List.zipWith xor f.bits (keyStream k.1 k.2 (320 * r.2.rxSize c * (f.id % 256)) f.bits.length)
  let x := { x with text := x.text ++ f.bits, csf := x.csf || csf, next := f.id + 1, out := plain }
  r.2.setCipCh c (if f.id % 256 = c / 2 then { x with num := some (n - 1), aad := f.head, rcd := f.rcd } else x)

/-- The tag over the ciphertext that CIP holds of the message whose record has come, under number n (R356, R357). -/
def State.rxTag (s : State) (c n : Nat) : BitVec 128 :=
  let x := s.cipCh c
  let k := s.rxKey c { x.last with num := n }
  let blocks := (groupsOf 128 (x.lastText.length / 128) x.lastText).map fun b => BitVec.ofNat 128 (ofBits b)
  gcmTag k.1 k.2 1 (x.lastText.length / 128)
    ((BitVec.ofNat 128 (ofBits x.aad) :: blocks).foldl (ghashStep (hashKey k.1)) 0)

/-- The message of a valid record r with MAP's number n is judged by the epoch and key of its own beginning (R361, R364, R372); two in
a row whose counters differ from MAP's number and follow each other give MAP its numbering from the next multiframe on. A message
under a slot that acts as empty fails (R413). -/
def State.judgeMessage (s : State) (c n : Nat) (r : ChanRecord) : State :=
  let x := s.cipCh c
  let epochBad := decide (b2n r.epoch ≠ x.last.epoch)
  let s := if epochBad then (s.count (cipCnt c 4) 1).wr F.CIP_CH_STAT_epoch_mis 1 [c] else s
  if r.ctr ≠ n then
    let s := ((s.count (cipCnt c 3) 1).wr F.CIP_CH_STAT_ctr_mis 1 [c]).authFails c
    if x.misCtr.any fun p => decide (r.ctr = (p + 1) % 2 ^ 48) then
      (s.setCipCh c { s.cipCh c with misCtr := none }).setChan c { s.chan c with renum := some (n, r.ctr) }
    else s.setCipCh c { s.cipCh c with misCtr := some r.ctr }
  else
    let s := s.setCipCh c { s.cipCh c with misCtr := none }
    if epochBad = true ∨ x.last.bad = true ∨ s.rxTag c n ≠ r.tag then s.authFails c else s.authOk c n

/-- The message whose record has come is whole, MAP held CSF in none of its frames, and the record is valid (R373). -/
def State.verifiable (s : State) (c : Nat) (r : ChanRecord) : Bool :=
  let x := s.cipCh c
  !x.lastCsf && r.valid && decide (r.ch = c ∧ x.lastText.length = 256 * 320 * s.rxSize c)

/-- CHANNEL_MESSAGE_VERIFY: the message of the multiframe before is judged by the record that has come, or is unverified where
none has (R361, R364, R372, R373). -/
def execChannelMessageVerify (c : Fin 512) (s : State) : Out :=
  .next (
    if s.rd F.MAP_CH_STAT_align [c] = 0 then s
    else
      let s := s.count (cipCnt c 0) 1
      let x := s.cipCh c
      let s := s.setCipCh c { x with rcd := none, num := none }
      match x.rcd, x.num with
      | some r, some n => if s.verifiable c r then s.judgeMessage c n r else s.count (cipCnt c 2) 1
      | _, _ => s.count (cipCnt c 2) 1)

/-! ### The message service (R374 to R377, R429) -/

/-- CIP_SOL_CFG of the functions: guarantees, scaled where their sum passes 50 Gb/s (R429). -/
def State.guarSum (s : State) : Nat := ((List.range 16).map fun f => s.rd F.CIP_SOL_CFG_guar [f]).sum

/-- The guarantee of function f per round, in 2^-16 of a grant: guar / 50 of the engine, 64 rounds a grant. -/
def State.svcGuar (s : State) (f : Nat) : Nat := 1024 * s.rd F.CIP_SOL_CFG_guar [f] / max 50 s.guarSum

/-- Fields of a descriptor (R374). -/
def descDecrypt (d : List Nat) : Bool := decide (bitsOf (d.getD 0 0) 23 23 = 1)
def descSlot (d : List Nat) : Nat := bitsOf (d.getD 0 0) 22 12
def descAad (d : List Nat) : Nat := bitsOf (d.getD 2 0) 20 0
def descText (d : List Nat) : Nat := bitsOf (d.getD 3 0) 20 0
def descAddr (d : List Nat) (k : Nat) : Nat :=
  d.getD k 0 * 2 ^ 36 + d.getD (k + 1) 0 * 2 ^ 12 + bitsOf (d.getD (k + 2) 0) 23 16 * 2 ^ 4
def descNonce (d : List Nat) : Nat :=
  ((d.drop 10).take 4).foldl (fun v w => v * 2 ^ 24 + w) 0
def descTag (d : List Nat) : Nat :=
  (((d.drop 14).take 5).foldl (fun v w => v * 2 ^ 24 + w) 0) * 2 ^ 8 + bitsOf (d.getD 19 0) 23 16

/-- A value of 128 bits over six response words, in the layout of descriptor words 14 to 19. -/
def tagWords (t : Nat) : List Nat :=
  [t / 2 ^ 104, t / 2 ^ 80 % 2 ^ 24, t / 2 ^ 56 % 2 ^ 24, t / 2 ^ 32 % 2 ^ 24, t / 2 ^ 8 % 2 ^ 24, t % 2 ^ 8 * 2 ^ 16]

/-- A waiting message of function f asks for the engine. -/
def State.askSvc (s : State) (f : Nat) : State :=
  let r : Req := ⟨f, f, s.rd F.CIP_SOL_CFG_entry [f], 0, 2048⟩
  if s.svcSol.reqs.any (fun q => q.cls = f) then s
  else { s with svcSol := { s.svcSol with reqs := s.svcSol.reqs ++ [r] } }

/-- MSG_QUEUE_GO: the descriptor joins function f's queue, or is refused when 8 messages are pending (R374). -/
def execMsgQueueGo (f : Fin 16) (s : State) : Out :=
  .next (s.whenOpen 9 fun s =>
    let x := s.svc f
    if 8 ≤ x.queue.length then s.wr F.CIP_UP_MSG_CMD_refused 1 [f]
    else
      let d := (List.range 20).map fun w => s.rd F.CIP_UP_DESC_word [f, w]
      ((s.setSvc f { x with queue := x.queue ++ [d] }).wr F.CIP_UP_MSG_CMD_pending (x.queue.length + 1) [f]).askSvc f)

/-- Why a message cannot start: the table "Service reasons"; 0 where it can. DEDUCED (log 22). -/
def State.svcReason (s : State) (f : Nat) (d : List Nat) : Nat :=
  let n := descSlot d
  if s.slotFull n = false then 3
  else if s.slotGranted f n = false ∨ s.rd F.CIP_SLOT_STAT_use [n] ≠ 1 then 4
  else if 2 ^ 20 < descAad d ∨ 2 ^ 20 < descText d ∨ descAad d + descText d = 0 then 5
  else if descDecrypt d = false ∧ 2 ^ 48 - 1 ≤ (s.slot n).ctr then 6
  else 0

/-- A message starts: an encryption consumes the slot's counter; a slot whose row is poisoned acts as empty (R375, R413).
DEDUCED (log 22). -/
def State.svcStart (s : State) (f : Nat) (d : List Nat) : SvcRun × State :=
  let n := descSlot d
  let s := if s.slotFull n then (s.keyRead n).2.2 else s
  let why := s.svcReason f d
  if why ≠ 0 then (⟨0, false, 0, 0, why, true⟩, s)
  else if descDecrypt d then (⟨descNonce d, true, 0, 0, 0, false⟩, s)
  else
    let x := s.slot n
    (⟨serviceNonce n x.ctr, true, 0, 0, 0, false⟩, s.setSlot n (some { x with ctr := x.ctr + 1 }))

/-- The four DWs of an output block, byte 0 of the block in bits [7:0] of the first. -/
def blockDws (x : BitVec 128) : List (BitVec 32) :=
  let byte := fun (k : Nat) => x.extractLsb' (8 * (15 - k)) 8
  [0, 1, 2, 3].map fun w => byte (4 * w + 3) ++ byte (4 * w + 2) ++ byte (4 * w + 1) ++ byte (4 * w)

/-- DWs written to host memory from the key `a`: the requester's function * 2^60 + the DW address. -/
def Hif.dmaWrite (h : Hif) (a : Nat) : List (BitVec 32) → Hif
  | [] => h
  | w :: ws => Hif.dmaWrite { h with hostMem := tabPut 0 h.hostMem a w } (a + 1) ws

/-- A block of host memory from the key `a` on, in the order of `blockDws`. -/
def Hif.dmaBlock (h : Hif) (a : Nat) : BitVec 128 :=
  let bytes := [0, 1, 2, 3].flatMap fun k =>
    let w := (tabGet 0 h.hostMem (a + k)).toNat
    [w % 256, w / 2 ^ 8 % 256, w / 2 ^ 16 % 256, w / 2 ^ 24]
  BitVec.ofNat 128 (bytes.foldl (fun v b => 256 * v + b) 0)

/-- One block of the message of function f goes through the engine: AAD is hashed; text is encrypted or decrypted, hashed as
ciphertext, and written out (R375, R377). -/
def State.svcBlock (s : State) (f : Nat) (d : List Nat) (r : SvcRun) (x : BitVec 128) : SvcRun × State :=
  let key := (s.slot (descSlot d)).key
  let h := hashKey key
  if r.done < descAad d then ({ r with done := r.done + 1, ghash := ghashStep h r.ghash x }, s)
  else
    let k := r.done - descAad d
    let y := gcmBlock key r.nonce k x
    let s := { s with hif := s.hif.dmaWrite (f * 2 ^ 60 + descAddr d 7 / 4 + 4 * k) (blockDws y) }
    ({ r with done := r.done + 1, ghash := ghashStep h r.ghash (if descDecrypt d then x else y) }, s)

/-- The next `k` blocks of a message, each from its place behind the source address: the AAD, and the text directly after it
(R374). -/
def State.svcBlocks (s : State) (f : Nat) (d : List Nat) (r : SvcRun) : Nat → SvcRun × State
  | 0 => (r, s)
  | k + 1 =>
    let p := s.svcBlock f d r (s.hif.dmaBlock (f * 2 ^ 60 + descAddr d 4 / 4 + 4 * r.done))
    State.svcBlocks p.2 f d p.1 k

/-- Rounds of 2.56 ns pass for the message service, with the functions' guarantees and a burst of 64 grants (R427, R429). -/
def State.svcTick (s : State) (ticks : Nat) : State :=
  { s with svcSol := s.svcSol.tick ticks 256 s.svcGuar (fun _ => 64) (List.range 16) }

/-- MSG_SERVICE_GRANT: the arbiter grants the engine to a function, whose message takes its next 64 blocks out of host memory, into
which the host has put the DWs `host` of that function by their DW addresses; `err` is a failed transfer (R374, R375, R429).
DESIGN CHOICE (log 9). -/
def execMsgServiceGrant (host : List (BitVec 58 × BitVec 32)) (err : Bool) (s : State) : Out :=
  .next (
    match s.svcSol.grant (fun f => s.rd F.CIP_SOL_CFG_weight [f]) (fun _ => true) with
    | none => s
    | some (q, sol) =>
      let s := { s with svcSol := sol }
      let f := q.cls
      let s := { s with hif := host.foldl (fun (h : Hif) (e : BitVec 58 × BitVec 32) => h.dmaWrite (f * 2 ^ 60 + e.1.toNat) [e.2]) s.hif }
      let x := s.svc f
      match x.queue with
      | [] => s
      | d :: _ =>
        let (r, s) := match x.run with
          | some r => (r, s)
          | none => s.svcStart f d
        let n := min 64 (descAad d + descText d - r.done)
        let (r, s) := if r.past then (r, s) else if err then ({ r with reason := 2, past := true }, s)
          else s.svcBlocks f d r n
        let r := if descAad d + descText d ≤ r.done then { r with past := true } else r
        let s := s.setSvc f { s.svc f with run := some r }
        if r.past then s else s.askSvc f)

/-- The outcome of a message: its reason and the tag of an encryption (R375 to R377). -/
def State.svcEnd (s : State) (d : List Nat) (r : SvcRun) (err : Bool) : Nat × Nat :=
  let t := (gcmTag (s.slot (descSlot d)).key r.nonce (descAad d) (descText d) r.ghash).toNat
  if r.reason ≠ 0 then (r.reason, 0)
  else if err then (2, 0)
  else if descDecrypt d then (if t = descTag d then 0 else 1, 0)
  else (0, t)

/-- MSG_SERVICE_END: function f's message has ended, and its response goes to the response ring; `err` is a failed write of
its output (R376). -/
def execMsgServiceEnd (f : Fin 16) (err : Bool) (s : State) : Out :=
  .next (
    let x := s.svc f
    match x.queue, x.run with
    | d :: ds, some r =>
      if r.past then
        let (why, tag) := s.svcEnd d r err
        let nonce := if r.used then r.nonce else 0
        let ws := [13, d.getD 1 0, (if why = 0 then 8 else 0xA) * 2 ^ 20 + why * 2 ^ 16]
          ++ [nonce / 2 ^ 72, nonce / 2 ^ 48 % 2 ^ 24, nonce / 2 ^ 24 % 2 ^ 24, nonce % 2 ^ 24] ++ tagWords tag
        let s := (s.setSvc f ⟨ds, none⟩).wr F.CIP_UP_MSG_CMD_pending ds.length [f]
        let s := s.pushAll (16 + f) (ws.map (BitVec.ofNat 24))
        if ds = [] then s else s.askSvc f
      else s
    | _, _ => s)

/-- A Function Level Reset of VF f: its service slots are erased and its messages discarded (R370). -/
def State.cipFlr (s : State) (f : Nat) : State :=
  let mine := (s.cip.slots.map Prod.fst).filter fun n =>
    decide (s.rd F.CIP_SLOT_STAT_func [n] = f ∧ s.rd F.CIP_SLOT_STAT_use [n] = 1)
  let s := forEach (fun n t => t.clearSlot n) mine s
  let s := { s with svcSol := { s.svcSol with reqs := s.svcSol.reqs.filter fun r => r.cls ≠ f } }
  (s.setSvc f Svc.idle).wr F.CIP_UP_MSG_CMD_pending 0 [f]

/-! ### Commits (R364) -/

/-- A channel that CURRENT does not define in transmit sends no message (R356, R360). -/
def State.cipCommit (s : State) : State :=
  forEach (fun c t => if definedIn t.vtg.current true c then t else t.setCipTx c CipTx.fresh) channels s

end Sys2Proof.Machine
end

