-- ==== Sys2Proof/Machine/Gfp.lean ====
section
/-!
DEFINITION. The channel streams of CLI: the frame-mapped GFP of ITU-T G.7041 that carries a client's frames in its channel (R382).
What R382 takes from G.7041 without repeating it is PRESUMED (log 36).
-/

namespace Sys2Proof.Machine

def State.gfp1 (s : State) (c : Nat) : Gfp := tabGet Gfp.fresh s.gfp c
def State.setGfp (s : State) (c : Nat) (x : Gfp) : State := { s with gfp := tabPut Gfp.fresh s.gfp c x }

/-- The header check of G.7041: CRC-16, x^16 + x^12 + x^5 + 1 from 0. PRESUMED (log 36). -/
def hec (bytes : List Nat) : List Nat :=
  let c := crcBits 16 0x1021 0 (byteBits bytes)
  [c / 256, c % 256]

/-- The pattern that a core header is XORed with; an idle frame is the header of length 0. PRESUMED (log 36). -/
def coreMask : List Nat := [0xB6, 0xAB, 0x31, 0xE0]

/-- The core header of a payload area of `n` bytes. -/
def coreHeader (n : Nat) : List Nat := List.zipWith (· ^^^ ·) ([n / 256 % 256, n % 256] ++ hec [n / 256 % 256, n % 256]) coreMask

/-- A payload area: type header with its check, null extension header and no payload FCS (R382); payload type 0 for client data,
4 for client management. PRESUMED (log 36). -/
def payloadArea (pti upi : Nat) (payload : List Nat) : List Nat := [32 * pti, upi] ++ hec [32 * pti, upi] ++ payload

/-- Self-synchronous scrambling by x^43 + 1 of payload bits: the bits and the register after them. PRESUMED (log 36). -/
def scramble43 : Nat → List Bool → List Bool × Nat
  | r, [] => ([], r)
  | r, b :: bs =>
    let o := xor b (decide (r / 2 ^ 42 % 2 = 1))
    let t := scramble43 ((2 * r + if o then 1 else 0) % 2 ^ 43) bs
    (o :: t.1, t.2)

/-- The inverse of `scramble43`: the register takes the bits as they come. -/
def descramble43 : Nat → List Bool → List Bool × Nat
  | r, [] => ([], r)
  | r, b :: bs =>
    let t := descramble43 ((2 * r + if b then 1 else 0) % 2 ^ 43) bs
    (xor b (decide (r / 2 ^ 42 % 2 = 1)) :: t.1, t.2)

/-- Bits as bytes. -/
def bitBytes (bs : List Bool) : List Nat := (groupsOf 8 (bs.length / 8) bs).map ofBits

/-! ### Sending -/

/-- A frame waits to be sent in channel c. -/
def State.gfpSend (s : State) (c pti upi : Nat) (payload : List Nat) : State :=
  let g := s.gfp1 c
  s.setGfp c { g with queue := g.queue ++ [payloadArea pti upi payload] }

/-- `n` bytes are ready to be sent: the waiting frames in order, idle frames where none waits; each turn adds a frame (R382). -/
def Gfp.fill (n : Nat) : Nat → Gfp → Gfp
  | 0, g => g
  | k + 1, g =>
    if n ≤ g.bytes.length then g
    else match g.queue with
      | [] => Gfp.fill n k { g with bytes := g.bytes ++ coreHeader 0 }
      | a :: q =>
        let r := scramble43 g.scr (byteBits a)
        Gfp.fill n k { g with queue := q, bytes := g.bytes ++ coreHeader a.length ++ bitBytes r.1, scr := r.2 }

/-- The next `n` bytes of channel c's stream leave. -/
def State.gfpTake (s : State) (c n : Nat) : List Nat × State :=
  let g := (s.gfp1 c).fill n n
  (g.bytes.take n, s.setGfp c { g with bytes := g.bytes.drop n })

/-! ### Receiving -/

/-- The core header at the front of the bytes is right. -/
def headerOk (h : List Nat) : Bool :=
  let x := List.zipWith (· ^^^ ·) h coreMask
  decide (x.drop 2 = hec (x.take 2))

/-- A core header with the one wrong bit corrected that makes it right, if one does; while delineating alone.
PRESUMED (log 36). -/
def headerFixed (h : List Nat) : Option (List Nat) :=
  if headerOk h then some h
  else ((List.range 32).map fun k => h.set (k / 8) (h.getD (k / 8) 0 ^^^ 2 ^ (7 - k % 8))).find? headerOk

/-- The payload length of a right core header. -/
def headerLen (h : List Nat) : Nat := (h.getD 0 0 ^^^ 0xB6) * 256 + (h.getD 1 0 ^^^ 0xAB)

/-- One act on the received bytes: hunting goes on by a byte, or a frame is taken; the payload area that it gives, and whether
anything was done. A frame counts once its header and the one before it were right. PRESUMED (log 36). -/
def Gfp.act (g : Gfp) : Option (Option (List Nat) × Gfp) :=
  let h := g.rx.take 4
  if g.rx.length < 4 then none
  else if g.sync = 0 then
    if headerOk h then some (none, { g with sync := 1 }) else some (none, { g with rx := g.rx.drop 1 })
  else match if g.sync = 2 then headerFixed h else if headerOk h then some h else none with
    | none => some (none, { g with sync := 0, rx := g.rx.drop 1 })
    | some h =>
      let n := headerLen h
      if n < 4 then some (none, { g with sync := 2, rx := g.rx.drop 4 })
      else if g.rx.length < 4 + n then none
      else
        let r := descramble43 g.dscr (byteBits ((g.rx.drop 4).take n))
        some (if g.sync = 2 then some (bitBytes r.1) else none, { g with sync := 2, rx := g.rx.drop (4 + n), dscr := r.2 })

/-- The payload areas in the received bytes: each turn takes a byte at least, or finds a header. -/
def Gfp.delineate : Nat → Gfp → List (List Nat) × Gfp
  | 0, g => ([], g)
  | k + 1, g =>
    match g.act with
    | none => ([], g)
    | some (a, g) =>
      let r := Gfp.delineate k g
      (a.toList ++ r.1, r.2)

/-- A payload area whose type header is right, with a null extension and no payload FCS: payload type, UPI and payload. -/
def areaParts (a : List Nat) : Option (Nat × Nat × List Nat) :=
  if (a.drop 2).take 2 = hec (a.take 2) ∧ a.getD 0 0 % 32 = 0 then some (a.getD 0 0 / 32, a.getD 1 0, a.drop 4) else none

/-- Bytes of channel c arrive: the GFP frames that they complete. -/
def State.gfpRx (s : State) (c : Nat) (bytes : List Nat) : List (Nat × Nat × List Nat) × State :=
  let g := s.gfp1 c
  let g := { g with rx := g.rx ++ bytes }
  let r := g.delineate (2 * g.rx.length + 1)
  (r.1.filterMap areaParts, s.setGfp c r.2)

/-- CSF: the receiver hunts afresh (R382). -/
def State.gfpHunt (s : State) (c : Nat) : State := s.setGfp c { s.gfp1 c with rx := [], sync := 0 }

end Sys2Proof.Machine
end

