-- ==== Sys2Proof/Machine/Clients.lean ====
section
/-!
DEFINITION. Client lanes: ports and FlexE groups with their validation, frames into and out of channels, client faults,
lane power states and time-stamping (chapter 15, R378 to R396).
-/

namespace Sys2Proof.Machine

def State.client (s : State) (k : Nat) : Client := tabGet Client.fresh s.clients k
def State.setClient (s : State) (k : Nat) (x : Client) : State :=
  { s with clients := tabPut Client.fresh s.clients k x }
def State.lane (s : State) (l : Nat) : Lane := tabGet Lane.fresh s.lanes l
def State.setLane (s : State) (l : Nat) (x : Lane) : State := { s with lanes := tabPut Lane.fresh s.lanes l x }

/-! ### Ports and clients in an image (R378 to R386) -/

/-- Lanes of a port, by type and lane rate (R379); 0 where the table lists none. -/
def portLanes (typ lrate : Nat) : Nat :=
  ([[4, 2, 1], [8, 4, 2], [0, 8, 4], [0, 0, 8]].getD typ []).getD lrate 0

/-- Nominal rate of a port type in Gb/s. -/
def portRate (typ : Nat) : Nat := 200 * 2 ^ typ

def portsAll : List Nat := List.range 64

/-- An enabled port of an image. -/
def portOn (m : Tab Nat) (p : Nat) : Bool := decide (imgGet m F.CLI_PORT_CFG_en [p] = 1)

/-- The number of lanes of port p in an image. -/
def lanesOf (m : Tab Nat) (p : Nat) : Nat := portLanes (imgGet m F.CLI_PORT_CFG_type [p]) (imgGet m F.CLI_PORT_CFG_lrate [p])

/-- Port p occupies lane l. -/
def portHas (m : Tab Nat) (p l : Nat) : Bool := decide (p ≤ l ∧ l < p + lanesOf m p)

/-- A commit fails with CHANNEL: the port rules of R379. -/
def portsBad (m : Tab Nat) : Bool :=
  let on := portsAll.filter fun p => portOn m p
  on.any fun p =>
    let n := lanesOf m p
    decide (n = 0 ∨ p % n ≠ 0) || on.any fun q => decide (p < q ∧ q < p + n)

/-- The FlexE PHYs of group g, in ascending port order (R386, R387). -/
def groupPhys (m : Tab Nat) (g : Nat) : List Nat :=
  portsAll.filter fun p => portOn m p && decide (imgGet m F.CLI_PORT_CFG_flexe [p] = 1
    ∧ imgGet m F.CLI_PORT_CFG_grp [p] = g ∧ imgGet m F.CLI_PORT_CFG_type [p] ≤ 1)

/-- The calendar of group g in an image: (slot, client) of each used entry (R387). -/
def calendarOf (m : Tab Nat) (g : Nat) : List (Nat × Nat) :=
  m.filterMap fun e =>
    let a := e.1 / 32
    if e.1 % 32 = 23 ∧ 0xA10000 + 1024 * g ≤ a ∧ a < 0xA10000 + 1024 * g + 640 ∧ e.2 = 1 then
      some (a - (0xA10000 + 1024 * g), imgGet m F.CLI_FXG_CAL_client [g, a - (0xA10000 + 1024 * g)])
    else none

/-- Calendar slots of FlexE client x in group g. -/
def clientSlots (m : Tab Nat) (g x : Nat) : Nat := ((calendarOf m g).filter fun e => e.2 = x).length

def groupsAll : List Nat := List.range 16

/-- The groups in which FlexE client x holds slots. -/
def clientGroups (m : Tab Nat) (x : Nat) : List Nat := groupsAll.filter fun g => clientSlots m g x ≠ 0

/-- FlexE client x is enabled. -/
def fxcOn (m : Tab Nat) (x : Nat) : Bool := decide (imgGet m F.CLI_FXC_CFG_en [x] = 1)

/-- The enabled clients of an image, as (client, channel, MAC rate in Gb/s) (R381). -/
def clientsOf (m : Tab Nat) : List (Nat × Nat × Nat) :=
  (portsAll.filterMap fun p =>
    if portOn m p && decide (imgGet m F.CLI_PORT_CFG_flexe [p] = 0) then
      some (p, imgGet m F.CLI_PORT_CFG_ch [p], portRate (imgGet m F.CLI_PORT_CFG_type [p])) else none)
  ++ (List.range 512).filterMap fun x =>
    if fxcOn m x then
      some (64 + x, imgGet m F.CLI_FXC_CFG_ch [x], 5 * ((clientGroups m x).map fun g => clientSlots m g x).sum) else none

/-- A commit fails with CHANNEL: the client rules of R381. -/
def clientsBad (m : Tab Nat) : Bool :=
  let cs := clientsOf m
  cs.any fun e =>
    cs.any (fun d => decide (d.1 ≠ e.1 ∧ d.2.1 = e.2.1))
      || !(definedIn m true e.2.1 && definedIn m false e.2.1)
      || decide (3125 * imgGet m F.MAP_CH_CFG_size [e.2.1] < 10000 * e.2.2)

/-- A commit fails with CHANNEL: the FlexE rules of R386, the limits of a group among them. DEDUCED (log 23). -/
def flexeBad (m : Tab Nat) : Bool :=
  (List.range 512).any (fun x =>
    (fxcOn m x && decide (imgGet m F.CLI_FXC_ID_id [x] = 0 ∨ imgGet m F.CLI_FXC_ID_id [x] = 0xFFFF))
      || decide (2 ≤ (clientGroups m x).length))
  || groupsAll.any fun g =>
    let cal := calendarOf m g
    let phys := groupPhys m g
    let xs := (cal.map Prod.snd).eraseDups
    decide (8 < phys.length ∨ 2 ≤ ((phys.map fun p => imgGet m F.CLI_PORT_CFG_type [p]).eraseDups).length)
    || cal.any (fun e => match phys[e.1 / 80]? with
      | none => true
      | some p => decide (imgGet m F.CLI_PORT_CFG_type [p] = 0 ∧ 40 ≤ e.1 % 80))
    || xs.any fun x => xs.any fun y => decide (x ≠ y ∧ imgGet m F.CLI_FXC_ID_id [x] = imgGet m F.CLI_FXC_ID_id [y])

/-! ### Clients in force -/

/-- Client k is enabled in CURRENT. -/
def State.clientOn (s : State) (k : Nat) : Bool :=
  if k < 64 then s.curBit F.CLI_PORT_CFG_en [k] && !s.curBit F.CLI_PORT_CFG_flexe [k] else s.curBit F.CLI_FXC_CFG_en [k - 64]

/-- The calendar of group g in use in a direction (R387). -/
def State.calendarIn (s : State) (tx : Bool) (g : Nat) : Tab Nat :=
  let c := tabGet Calendar.empty s.calendars g
  if s.bit (if tx then F.CLI_FXG_STAT_tx_cal else F.CLI_FXG_STAT_rx_cal) [g] then c.b else c.a

/-- Client k is enabled, and a FlexE client has slots of the calendar in use in the direction: one that a commit adds is idle until
the switch (R387). -/
def State.clientRuns (s : State) (tx : Bool) (k : Nat) : Bool :=
  s.clientOn k && (decide (k < 64) || groupsAll.any fun g => (s.calendarIn tx g).any fun e => decide (e.2 = k - 63))

/-- The channel of client k. -/
def State.clientCh (s : State) (k : Nat) : Nat :=
  if k < 64 then s.cur F.CLI_PORT_CFG_ch [k] else s.cur F.CLI_FXC_CFG_ch [k - 64]

/-- The ports whose host side a client depends on: its own, or the PHYs of its FlexE group. -/
def State.clientPorts (s : State) (k : Nat) : List Nat :=
  if k < 64 then [k] else (clientGroups s.vtg.current (k - 64)).flatMap fun g => groupPhys s.vtg.current g

/-- Position of counter j of client k (R575). -/
def cliCnt (k j : Nat) : Nat := if k < 64 then 6144 + 16 * k + j else 7168 + 16 * (k - 64) + j

/-! ### Frames (R380 to R383, R391 to R394) -/

/-- A number from bytes, most significant first. -/
def beNum (bs : List Nat) : Nat := bs.foldl (fun v b => 256 * v + b) 0

/-- The `n` bytes of a number, most significant first. -/
def beBytes (n v : Nat) : List Nat := (List.range n).map fun k => v / 256 ^ (n - 1 - k) % 256

/-- The frame check sequence that a frame should end with, in frame order. -/
def goodFcs (frame : List Nat) : List Nat := fcsBytes (crc32 (frame.take (frame.length - 4)))

/-- The FCS of a frame is good; it is the inverse of a good one: the frame was stomped (R380). -/
def fcsOk (frame : List Nat) : Bool := decide (frame.drop (frame.length - 4) = goodFcs frame)
def stomped (frame : List Nat) : Bool := decide (frame.drop (frame.length - 4) = (goodFcs frame).map fun b => 255 - b)

/-- A frame with its FCS inverted (R380). -/
def stomp (frame : List Nat) : List Nat :=
  frame.take (frame.length - 4) ++ (frame.drop (frame.length - 4)).map fun b => 255 - b

/-- Bytes `k` and `k + 1` of a frame. -/
def half (f : List Nat) (k : Nat) : Nat := f.getD k 0 * 256 + f.getD (k + 1) 0

/-- The offset of the EtherType after at most two VLAN tags (R391). -/
def etherTypeAt (f : List Nat) : Nat :=
  let tag := fun (k : Nat) => decide (half f k = 0x8100 ∨ half f k = 0x88A8)
  if tag 12 then if tag 16 then 20 else 16 else 12

/-- Where the PTP message of a frame begins, and where its UDP header does, for the mappings that are enabled (R391). -/
def ptpAt (eth v4 v6 : Bool) (f : List Nat) : Option (Nat × Option Nat) :=
  let e := etherTypeAt f
  let p := e + 2
  if half f e = 0x88F7 then if eth then some (p, none) else none
  else if half f e = 0x0800 then
    let u := p + 4 * (f.getD p 0 % 16)
    if v4 && decide (f.getD (p + 9) 0 = 17 ∧ half f (u + 2) = 319) then some (u + 8, some u) else none
  else if half f e = 0x86DD then
    let u := p + 40
    if v6 && decide (f.getD (p + 6) 0 = 17 ∧ half f (u + 2) = 319) then some (u + 8, some u) else none
  else none

/-- The PTP event message of a frame: version 2, Sync or Delay_Req (R391). -/
def ptpEvent (eth v4 v6 : Bool) (f : List Nat) : Option (Nat × Option Nat) :=
  match ptpAt eth v4 v6 f with
  | some (p, u) => if f.getD (p + 1) 0 % 16 = 2 ∧ f.getD p 0 % 16 ≤ 1 then some (p, u) else none
  | none => none

/-- The PTP event message of a frame under the mappings in force. -/
def State.ptpOf (s : State) (f : List Nat) : Option (Nat × Option Nat) :=
  if s.curBit F.CLI_PTP_CFG_tc_en then
    ptpEvent (s.curBit F.CLI_PTP_CFG_eth) (s.curBit F.CLI_PTP_CFG_v4) (s.curBit F.CLI_PTP_CFG_v6) f
  else none

/-- The stamp of the present instant: 32 bits of nanoseconds and 16 of fraction (R392). -/
def State.stamp (s : State) : Nat := (s.tim.now.extractLsb' 16 48).toNat

/-- Some host-side condition of R384 holds on a client: the UPIs of its management frames. DEDUCED (log 23). -/
def State.hostConditions (s : State) (k : Nat) : List Nat :=
  let any := fun (g : Nat → Bool) => (s.clientPorts k).any g
  (if any (fun p => !s.bit F.CLI_PORT_STAT_pcs_lock [p] || s.bit F.CLI_PORT_STAT_hi_ber [p]) then [2] else [])
    ++ (if any (fun p => s.bit F.CLI_PORT_STAT_lf_rx [p]) then [4] else [])
    ++ (if any (fun p => s.bit F.CLI_PORT_STAT_rf_rx [p]) then [5] else [])

/-- The RS-FEC codewords of an enabled port, which may be a FlexE PHY: corrected and not correctable (R380, R395). -/
def State.codewordsIn (s : State) (p corr unc : Nat) : State :=
  let s := if corr ≠ 0 then s.count (cliCnt p 9) corr else s
  if unc ≠ 0 then (s.count (cliCnt p 10) unc).wr F.CLI_PORT_STAT_fec_unc 1 [p] else s

/-- A frame from the host enters client k: counted, stomped where it holds an errored block, and mapped into its channel,
an event message with its ingress stamp (R380, R382, R390, R395). -/
def State.frameIn1 (s : State) (k : Nat) (f : List Nat) (err : Bool) : State :=
  let s := (s.count (cliCnt k 0) f.length).count (cliCnt k 1) 1
  let s := if err then s.count (cliCnt k 3) 1 else if fcsOk f then s else s.count (cliCnt k 2) 1
  if s.standby then s
  else
    let g := if err then stomp f else f
    match s.ptpOf f with
    | some _ => s.gfpSend (s.clientCh k) 0 0xE8 (beBytes 6 s.stamp ++ [0, 0] ++ g)
    | none => s.gfpSend (s.clientCh k) 0 0x01 g

/-- CLIENT_FRAME_RX: the RS-FEC codewords of a port, corrected and not correctable, and a frame from the host to a client, its bytes
from destination address to FCS, with `err` set where it holds an errored block; a FlexE PHY has codewords alone (R380 to R382, R387,
R390, R391, R395). -/
def execClientFrameRx (k : Fin 576) (frame : List Byte) (err : Bool) (fecCorr fecUnc : Nat) (s : State) : Out :=
  .next (
    let s := if k.val < 64 ∧ s.curBit F.CLI_PORT_CFG_en [k] = true then s.codewordsIn k fecCorr fecUnc else s
    if s.clientRuns false k then s.frameIn1 k (frame.map BitVec.toNat) err else s)

/-- A list with the items from position `k` replaced. -/
def splice (f : List Nat) (k : Nat) (bs : List Nat) : List Nat := f.take k ++ bs ++ f.drop (k + bs.length)

/-- Ones' complement sum of 16-bit values. -/
def onesAdd (a b : Nat) : Nat := let t := a + b; if t < 65536 then t else t - 65535

/-- The UDP checksum after some of its words change, incrementally; 0 stays 0 (R393). -/
def udpUpdate (old : Nat) (before after : List Nat) : Nat :=
  let words := fun (bs : List Nat) => (List.range (bs.length / 2)).map fun i => half bs (2 * i)
  let sum := (words before).foldl (fun t w => onesAdd t (65535 - w)) (65535 - old)
  let sum := (words after).foldl onesAdd sum
  let c := 65535 - sum % 65536
  if old = 0 then 0 else if c = 0 then 65535 else c

/-- An event message with the residence added to its correctionField (R393). -/
def corrected (f : List Nat) (p : Nat) (udp : Option Nat) (residence : Nat) : List Nat :=
  let before := (f.drop (p + 8)).take 8
  let after := beBytes 8 ((beNum before + residence) % 2 ^ 64)
  let g := splice f (p + 8) after
  let g := match udp with
    | some u => splice g (u + 6) (beBytes 2 (udpUpdate (half f (u + 6)) before after))
    | none => g
  g.take (g.length - 4) ++ goodFcs g

/-- residence = egress - ingress as a signed 48-bit value, inside 0 to 200 ms (R393, R394). -/
def residenceOk (r : Nat) : Bool := decide (r % 2 ^ 48 ≤ 200000000 * 65536)

/-- Clients are sent frames or maintenance signals: in SERVICE, and in a RECOVERY entered from it while some slice carries
traffic; in every other mode their lanes are idle (R30, R33, R49, R390). DEDUCED (log 23). -/
def State.clientOutput (s : State) : Bool := decide (s.mode = modeService) || slices8.any fun i => s.keptTraffic i

/-- The client frame of a GFP frame: behind the ingress stamp for UPI 0xE8 (R382). -/
def clientFrame (upi : Nat) (payload : List Nat) : List Nat := if upi = 0xE8 then payload.drop 8 else payload

/-- Bytes that client k's egress buffer holds (R383). -/
def State.egressHeld (s : State) (k : Nat) : Nat := ((s.client k).buf.map fun e => (clientFrame e.1 e.2).length).sum

/-- A GFP frame of client k's channel: a management frame holds its indication, a client frame takes its place in the egress
buffer, and one that finds it full is discarded whole; none waits while the client is sent something else (R383 to R385). -/
def State.gfpFrame (s : State) (k : Nat) (f : Nat × Nat × List Nat) : State :=
  let x := s.client k
  if f.1 = 4 then
    s.setClient k { x with ind2 := x.ind2 || decide (f.2.1 = 2), ind4 := x.ind4 || decide (f.2.1 = 4),
                           ind5 := x.ind5 || decide (f.2.1 = 5) }
  else if f.1 = 0 && decide (f.2.1 = 0x01 ∨ f.2.1 = 0xE8) && s.clientRuns true k && s.clientOutput && decide (x.eg = .frames) then
    if 65536 < s.egressHeld k + (clientFrame f.2.1 f.2.2).length then
      let s := s.count (cliCnt k 6) 1
      forEach (fun p t => t.wr F.CLI_PORT_STAT_drop 1 [p]) (s.clientPorts k) s
    else s.setClient k { x with buf := x.buf ++ [f.2] }
  else s

/-- The client that channel c carries (R381). -/
def State.channelClient (s : State) (c : Nat) : Option Nat :=
  ((clientsOf s.vtg.current).find? fun e => decide (e.2.1 = c)).map Prod.fst

/-- An output frame of channel c reaches CLI: its bytes are delineated, and with CSF the receiver hunts afresh (R345, R382). -/
def State.cliFrame (s : State) (c : Nat) (plain : List Bool) (csf : Bool) : State :=
  if csf then s.gfpHunt c
  else
    let r := s.gfpRx c (bitBytes plain)
    match s.channelClient c with
    | some k => forEach (fun f t => t.gfpFrame k f) r.1 r.2
    | none => r.2

/-- A frame leaves to the host, with its PTP correction (R383, R393 to R395). -/
def State.sendFrameOut (s : State) (k upi : Nat) (bs : List Nat) : State :=
  let f := clientFrame upi bs
  let r := (s.stamp + 2 ^ 48 - beNum (bs.take 6) % 2 ^ 48) % 2 ^ 48
  let gap := if 32768 < s.egressHeld k then 8 else 12
  let x := { s.client k with buf := (s.client k).buf.tail, gap := gap, start := some s.tim.now, cut := false }
  let s := (s.count (cliCnt k 4) f.length).count (cliCnt k 5) 1
  match s.ptpOf f with
  | some (p, u) =>
    if upi = 0xE8 ∧ residenceOk r = true ∧ s.bit F.TIM_LTC_STAT_lock ∧ stomped f = false then
      (s.count (cliCnt k 7) 1).setClient k { x with out := corrected f p u r }
    else (s.count (cliCnt k 8) 1).setClient k { x with out := f }
  | none => s.setClient k { x with out := f }

/-- CLIENT_FRAME_EGRESS: the oldest frame of the client's egress buffer leaves to the host, while no PAIR_MARK holds the egress at
idle (R383, R390, R393 to R395, R483). DEDUCED (log 23). -/
def execClientFrameEgress (k : Fin 576) (s : State) : Out :=
  .next (
    if s.clientRuns true k.val && s.clientOutput && decide ((s.client k).eg = .frames ∧ s.pry.hold = 0) then
      match (s.client k).buf with
      | (upi, bs) :: _ => s.sendFrameOut k upi bs
      | [] => s
    else s)

/-! ### Faults (R384, R385) -/

/-- CLIENT_MGMT_PERIOD: every 100 ms a management frame for each host-side condition that holds goes into the channel (R384). -/
def execClientMgmtPeriod (k : Fin 576) (s : State) : Out :=
  .next (
    if s.clientOn k.val && !s.standby then
      forEach (fun upi t => t.gfpSend (t.clientCh k) 4 upi []) (s.hostConditions k) s
    else s)

/-- CLIENT_INDICATION_EXPIRY: 300 ms after the last arrival of a management frame (R384). -/
def execClientIndicationExpiry (k : Fin 576) (upi : BitVec 8) (s : State) : Out :=
  .next (
    let x := s.client k
    s.setClient k { x with ind2 := x.ind2 && decide (upi ≠ 2#8), ind4 := x.ind4 && decide (upi ≠ 4#8),
                           ind5 := x.ind5 && decide (upi ≠ 5#8) })

/-- Some lane of port p is leaving DEEP. -/
def State.portWaking (s : State) (p : Nat) : Bool :=
  (List.range 64).any fun l => portHas s.vtg.current p l && decide (s.rd F.CLI_LANE_STAT_pstate [l] = 3)

/-- The first row of the table "Egress replacement" that holds (R385, R389, R390). -/
def State.egressOf (s : State) (k : Nat) : Egress :=
  let x := s.client k
  let c := s.clientCh k
  if s.clientOutput = false then .idle
  else if s.bit F.MAP_CH_STAT_csf [c] || s.bit F.CIP_CH_STAT_dauth [c] || x.ind2 || x.ind4
      || (s.clientPorts k).any (fun p => s.portWaking p) then .localFault
  else if x.ind5 then .remoteFault
  else .frames

/-- The bytes of client k's frame in progress that have left: behind preamble and SFD, at the client's MAC rate (R381). -/
def State.bytesOut (s : State) (k : Nat) : Nat :=
  match (s.client k).start with
  | none => 0
  | some t =>
    let rate := (((clientsOf s.vtg.current).find? fun e => decide (e.1 = k)).map fun e => e.2.2).getD 0
    (s.tim.now - t).toNat * rate / 2 ^ 35 - 8

/-- Client k sends something other than frames: a frame in progress is ended with an error control block, and no frame waits (R385). -/
def State.endFrames (s : State) (k : Nat) (e : Egress) : State :=
  let x := s.client k
  let n := s.bytesOut k
  let go := x.start.isSome && decide (n < x.out.length)
  s.setClient k { x with eg := e, buf := [], start := none, out := if go then x.out.take n else x.out, cut := go || x.cut }

/-- EGRESS_REPLACEMENT: at an output frame boundary; where a fault begins, a frame in progress is cut off, and frames resume with the
first delineated after the cause clears (R385, R390). -/
def execEgressReplacement (k : Fin 576) (s : State) : Out :=
  .next (
    if s.clientOn k then
      let e := s.egressOf k
      let s := if e = .frames then s.setClient k { s.client k with eg := e }
        else if (s.client k).eg = .frames then s.endFrames k e else s.setClient k { s.client k with eg := e, buf := [] }
      if k.val < 64 then s.wr F.CLI_PORT_STAT_lf_tx (b2n (decide (e = .localFault))) [k] else s
    else s)

/-! ### FlexE calendars (R387) -/

/-- The calendar of CURRENT as a table. -/
def State.calendarNow (s : State) (g : Nat) : Tab Nat :=
  (calendarOf s.vtg.current g).foldl (fun t e => tabPut 0 t e.1 (e.2 + 1)) []

/-- A commit that changes the calendar of group g writes the one not in use, or the one that a pending switch goes to, and a switch is
pending (R387). -/
def State.calendarCommit (s : State) (old : Tab Nat) (g : Nat) : State :=
  if calendarOf old g = calendarOf s.vtg.current g then s
  else
    let c := tabGet Calendar.empty s.calendars g
    let n := if s.bit F.CLI_FXG_STAT_sw_pend [g] then c.next else 1 - s.rd F.CLI_FXG_STAT_rx_cal [g]
    let c := if n = 0 then { c with a := s.calendarNow g, next := n } else { c with b := s.calendarNow g, next := n }
    ({ s with calendars := tabPut Calendar.empty s.calendars g c }).wr F.CLI_FXG_STAT_sw_pend 1 [g]

/-- What the received FlexE overhead of group g shows: lock on every PHY, and a differing group number or PHY map. -/
def State.fxOverhead (s : State) (g : Nat) (ohLock mismatch : Bool) : State :=
  let s := s.wr F.CLI_FXG_STAT_oh_lock (b2n ohLock) [g]
  if mismatch then s.wr F.CLI_FXG_STAT_mismatch 1 [g] else s

/-- CALENDAR_SWITCH: `tx`: transmit switches under the handshake, to a pending calendar alone; `rx`: the host's overhead announces its
switch, to the pending calendar or to the other one. A pending switch is complete once both directions have made it (R387). -/
def execCalendarSwitch (g : Fin 16) (tx rx ohLock mismatch : Bool) (s : State) : Out :=
  .next (
    let s := s.fxOverhead g ohLock mismatch
    let n := (tabGet Calendar.empty s.calendars g.val).next
    if s.bit F.CLI_FXG_STAT_sw_pend [g] then
      let s := if tx then s.wr F.CLI_FXG_STAT_tx_cal n [g] else s
      let s := if rx then s.wr F.CLI_FXG_STAT_rx_cal n [g] else s
      if s.rd F.CLI_FXG_STAT_tx_cal [g] = n ∧ s.rd F.CLI_FXG_STAT_rx_cal [g] = n then s.wr F.CLI_FXG_STAT_sw_pend 0 [g] else s
    else if rx then s.wr F.CLI_FXG_STAT_rx_cal (1 - s.rd F.CLI_FXG_STAT_rx_cal [g]) [g]
    else s)

/-! ### Lane power states (R388, R389) -/

def laneActive : Nat := 0
def laneQuiet : Nat := 1
def laneDeep : Nat := 2
def laneLeaving : Nat := 3

/-- The state that lane l is asked for (R388). -/
def State.laneWant (s : State) (l : Nat) : Nat :=
  let on := portsAll.filter fun p => portHas s.vtg.current p l
  if on.any fun p => portOn s.vtg.current p then laneActive
  else if on.any fun p => s.bit F.CLI_PORT_CFG_keep [p] then laneQuiet
  else laneDeep

/-- A request for a lane's state: held while the lane leaves DEEP, a later one replacing it (R389). DEDUCED (log 23). -/
def State.laneAsk (s : State) (l want : Nat) : State :=
  let st := s.rd F.CLI_LANE_STAT_pstate [l]
  let x := s.lane l
  if st = laneLeaving then
    if want = x.target ∧ x.held = none then s
    else (s.setLane l { x with held := some want }).wr F.CLI_LANE_STAT_exit_pend 1 [l]
  else if st = want then s
  else if st = laneDeep then (s.setLane l ⟨want, none⟩).wr F.CLI_LANE_STAT_pstate laneLeaving [l]
  else s.wr F.CLI_LANE_STAT_pstate want [l]

/-- A port with a lane in DEEP or leaving it has no PCS lock (R388, R389). -/
def State.unlockPort (s : State) (p : Nat) : State :=
  if (List.range 64).any fun l => portHas s.vtg.current p l && decide (laneDeep ≤ s.rd F.CLI_LANE_STAT_pstate [l])
  then s.wr F.CLI_PORT_STAT_pcs_lock 0 [p] else s

/-- Every lane is asked for the state of R388. -/
def State.lanesAsk (s : State) : State :=
  forEach (fun p t => t.unlockPort p) portsAll (forEach (fun l t => t.laneAsk l (t.laneWant l)) (List.range 64) s)

/-- LANE_DEEP_EXIT: the exit ends, and a held request takes effect (R389). DEDUCED (log 23). -/
def execLaneDeepExit (l : Fin 64) (s : State) : Out :=
  .next (
    if s.rd F.CLI_LANE_STAT_pstate [l] = laneLeaving then
      let x := s.lane l
      let s := (s.wr F.CLI_LANE_STAT_pstate x.target [l]).wr F.CLI_LANE_STAT_exit_pend 0 [l]
      let s := s.setLane l Lane.fresh
      match x.held with
      | some w => s.laneAsk l w
      | none => s
    else s)

/-- In a mode in which no client is sent frames or maintenance signals the lanes send idle, and no frame waits; frames flow again from an
output frame boundary (R390). -/
def State.idleClients (s : State) : State :=
  if s.clientOutput then s
  else forEach (fun k t =>
    let t := t.endFrames k .idle
    if k < 64 then t.wr F.CLI_PORT_STAT_lf_tx 0 [k] else t) (s.clients.map Prod.fst) s

/-- A client that the commit removes, or moves to another channel: its channel carries idle frames from the boundary, and it sends
nothing more (R387). -/
def State.clientGone (s : State) (k c : Nat) : State := (s.setGfp c { s.gfp1 c with queue := [] }).endFrames k .idle

/-- A commit at CLI. -/
def State.cliCommit (s : State) (old : Tab Nat) : State :=
  let now := clientsOf s.vtg.current
  let gone := (clientsOf old).filter fun e => !now.any fun d => decide (d.1 = e.1 ∧ d.2.1 = e.2.1)
  let s := forEach (fun e t => t.clientGone e.1 e.2.1) gone s
  (forEach (fun g t => t.calendarCommit old g) groupsAll s).lanesAsk

end Sys2Proof.Machine
end

