-- ==== Sys2Proof/Machine/Cellar.lean ====
section
/-!
DEFINITION. Cellar memory and stored-data protection: the symbol codes, the address map, training, error rules, window
access, TOUCH, repair and the checked on-chip memories (chapter 16, R397 to R419).
-/

namespace Sys2Proof.Machine

/-- The data rate in Gb/s per pin that CEL_CFG.rate acts as. -/
def celRate (r : Nat) : Nat := min 36 (max 13 r)

/-- The limit of R399 in contexts. -/
def maxContexts (rate : Nat) : Nat := 10240 * celRate rate / 36

/-- DESKEW bytes that the cellar-routed contexts of an image need (R404). -/
def deskewNeed (m : Tab Nat) : Nat :=
  let ctx := contextsOf m false
  ((channels.filter fun c => definedIn m false c).map fun c =>
    pathContexts m ctx c true * (3908 + guardOf m c) * 40).sum

/-- A commit from `old` to `new` fails with CELLAR (R337, R398, R399, R400, R404). -/
def cellarFails (avail : Bool) (old new : Tab Nat) : Bool :=
  let routed := cellarContexts new
  let changed := decide (imgGet old F.CEL_CFG_rate ≠ imgGet new F.CEL_CFG_rate
    ∨ imgGet old F.CEL_CFG_dsk ≠ imgGet new F.CEL_CFG_dsk)
  (changed && decide (routed ≠ 0 ∨ cellarContexts old ≠ 0))
    || decide (min 10240 (maxContexts (imgGet new F.CEL_CFG_rate)) < routed)
    || decide (deskewMib (imgGet new F.CEL_CFG_dsk) * 2 ^ 20 < deskewNeed new)
    || (!avail && decide (routed ≠ 0))

/-! ### The arbiter (R428) -/

/-- MAINT's share of a round of eight grants, 1.28 of 9.216, in 2^-16 of a grant, rounded down. -/
def maintRate : Nat := 72817

/-- ROUTED's guarantee for `ctx` contexts at `rate` Gb/s per pin, 2 × 17/16 × 312.5 Mb/s × ctx of the pin traffic, in 2^-16
of a grant a round, which is also what those contexts ask for. At a lower rate the same traffic is a greater share of a
round, as the limit of R399 is a smaller count. DEDUCED (log 25). -/
def routedRate (ctx rate : Nat) : Nat := 1360 * ctx / rate

/-- The cellar's use of the arbiter: the table "Cellar classes", MAINT apart. A grant is 128 bytes, a round one controller
cycle of 32 / rate ns; caps and guarantees are in 2^-16 of a grant a round. -/
def State.celUse (s : State) (ctx : Nat) : Use :=
  let rate := celRate (s.cur F.CEL_CFG_rate)
  { servers := 8, classes := [1, 2, 3, 4, 5, 6],
    weight := fun k => if 3 ≤ k then max 1 (s.rd F.CEL_SOL_CFG_weight [k]) else 0,
    guar := fun k => if k = 1 then routedRate ctx rate else if k = 2 then 14222 else 0,
    burst := fun k => if k = 1 then 896 else if k = 2 then 128 else 0,
    cap := fun k => if k = 5 then 1024000 / rate else if k = 6 then 204800 / rate else 0 }

/-- One grant of class k has been given: its next request follows, at once for a class of many streams (ROUTED, SPILL),
else for the next round. `req` is the request that the class makes. -/
def Cel.granted (c : Cel) (k : Nat) (req : Req) (again : List Req) : Cel × List Req :=
  let left := tabGet 0 c.work k - 1
  let c := { c with work := tabPut 0 c.work k left }
  if left = 0 then (c, again)
  else if k ≤ 2 then ({ c with sol := { c.sol with reqs := c.sol.reqs ++ [req] } }, again)
  else (c, again ++ [req])

/-- Up to `n` free channels are granted in a round; the requests that come back for the next round are listed. -/
def Cel.serveUpTo (u : Use) (req : Nat → Req) : Nat → List Req → Cel → Cel × List Req
  | 0, again, c => (c, again)
  | n + 1, again, c =>
    match c.sol.serve u with
    | none => (c, again)
    | some (r, sol) =>
      let p := Cel.granted { c with sol := sol } r.cls (req r.cls) again
      Cel.serveUpTo u req n p.2 p.1

/-- One round of the cellar: MAINT takes its share of the channels, ROUTED asks for what its contexts need, and the channels
left go to the highest-ranked requests (R420 to R424, R428). DEDUCED (log 25). -/
def Cel.round (u : Use) (req : Nat → Req) (c : Cel) : Cel :=
  let maint := c.maint + maintRate
  let asked := c.demand + u.guar 1
  let work := tabGet 0 c.work 1 + asked / 65536
  let sol := c.sol.gain u 1
  let reqs := if work = 0 ∨ sol.reqs.any (fun r => decide (r.cls = 1)) = true then sol.reqs else sol.reqs ++ [req 1]
  let c := { c with maint := maint % 65536, demand := asked % 65536, work := tabPut 0 c.work 1 work,
                    sol := { sol with reqs := reqs } }
  let p := Cel.serveUpTo u req (u.servers - maint / 65536) [] c
  let aged := p.1.sol.ageRound c.sol u
  { p.1 with sol := { aged with reqs := aged.reqs ++ p.2 } }

/-- Rounds one after another. -/
def Cel.rounds (u : Use) (req : Nat → Req) : Nat → Cel → Cel
  | 0, c => c
  | n + 1, c => Cel.rounds u req n (c.round u req)

/-- Rounds until class k has been given all that it asked for, at most `n`. -/
def Cel.roundsFor (u : Use) (req : Nat → Req) (k : Nat) : Nat → Cel → Cel
  | 0, c => c
  | n + 1, c => if tabGet 0 c.work k = 0 then c else Cel.roundsFor u req k n (c.round u req)

/-- `ticks` ticks of 1.6 ns pass: the controller cycles that they hold (R398, R428). -/
def State.celTick (s : State) (ticks : Nat) : State :=
  if s.celServes then
    let t := s.cel.frac + ticks * celRate (s.cur F.CEL_CFG_rate)
    { s with cel := { Cel.rounds (s.celUse (cellarContexts s.vtg.current)) s.celReq (t / 20) s.cel with frac := t % 20 } }
  else s

/-- The bound of R426 on the wait of one access of tier class k with none ahead of it, in rounds; 0 where none holds. -/
def State.celBound (s : State) (k : Nat) : Nat :=
  let u := s.celUse (cellarContexts s.vtg.current)
  let r := s.celReq k
  (worstWait (maintRate + u.guar 1 + u.guar 2) (8 * 65536) 8 1 r.entry r.step 0 (u.weight k)
    ((u.classes.map u.weight).sum) 1024 1024).getD 0

/-- Class k is served to the end of what it asks for, within the bound of R426 for each grant. -/
def State.celFinish (s : State) (k : Nat) : State :=
  let n := s.celBound k * tabGet 0 s.cel.work k
  ({ s with cel := Cel.roundsFor (s.celUse (cellarContexts s.vtg.current)) s.celReq k n s.cel }).celDrop k

/-! ### The archives (R398, R400, R403, R406) -/

/-- Bytes go to data address a: a whole image, below JOURNAL, in whole check groups, a record as part of its block. -/
def State.archiveWrite (s : State) (a : Nat) (bytes : List Nat) : State :=
  if a < 128 * 2 ^ 20 then (s.celAsk 3 (groupGrants ((bytes.length + 1023) / 1024))).writeGroups (a / 64) bytes
  else (s.celAsk 3 (writeGrants (s.lineValid (a / 64)))).writePart (a / 64) (a % 64) bytes

/-- An archive write is made, or waits while the channels train at a new rate or a repair runs (R398, R419). -/
def State.archivePut (s : State) (a : Nat) (bytes : List Nat) : State :=
  if s.celWaits then { s with cel := { s.cel with waiting := s.cel.waiting ++ [(a, bytes)] } } else s.archiveWrite a bytes

/-- The cellar serves again: the writes that waited are made, in order, or are lost where it does not (R398, R400). -/
def State.archiveResume (s : State) : State :=
  let ws := s.cel.waiting
  let s := { s with cel := { s.cel with waiting := [] } }
  forEach (fun (w : Nat × List Nat) t =>
    if t.bit F.CEL_STAT_avail then t.archiveWrite w.1 w.2
    else if w.1 < 128 * 2 ^ 20 then t.wr F.CEL_STAT_arch_lost 1 else t.wr F.CEL_STAT_jarc_lost 1) ws s

/-- A journal record goes to the journal archive, or is lost while the cellar is unavailable (R400, R406). -/
def State.archiveRecord (s : State) (ws : List Word) : State :=
  if s.bit F.CEL_STAT_avail then
    let n := s.cel.jcount
    let bytes := ws.flatMap (fun w => wordBytes w.toNat) ++ wordBytes (n / 2 ^ 8 % 2 ^ 24) ++ [n % 2 ^ 8]
    let s := s.archivePut (128 * 2 ^ 20 + 16 * (n % 1048576)) bytes
    { s with cel := { s.cel with jcount := n + 1 } }
  else s.wr F.CEL_STAT_jarc_lost 1

/-! ### Training (R397, R400, R401) -/

/-- The limits that CEL_ADM_STAT and CEL_CAP_STAT report. -/
def State.celLimits (s : State) : State :=
  let s := s.wr F.CEL_ADM_STAT_max_ctx (maxContexts (s.cur F.CEL_CFG_rate))
  s.wr F.CEL_CAP_STAT_segs (if s.bit F.CEL_STAT_avail then
    captureSegs (s.bit F.CEL_STAT_density) (s.cur F.CEL_CFG_dsk) else 0)

/-- The channels are not trained: the cellar is unavailable, and what waits for it is lost (R400). -/
def State.celDown (s : State) : State :=
  let s := (((s.wr F.CEL_STAT_avail 0).wr F.CEL_STAT_ch_ok 0).wr F.CEL_CAP_STAT_segs 0).archiveResume
  if s.vtg.loading.isSome then ({ s with vtg := { s.vtg with loading := none } }).wr F.VTG_CMD_nomatch 1 else s

/-- The channels go into self-refresh: no training is due or goes on (R401). -/
def State.celSleep (s : State) : State :=
  let s := s.celDown
  { s with cel := { s.cel with trainDue := false, training := false } }

/-- Training starts. DEDUCED (log 24). -/
def State.celTrain (s : State) : State :=
  let s := s.celDown
  { s with cel := { s.cel with trainDue := false, training := true } }

/-- CELLAR_TRAIN: training starts after an entry to PREPARE from DORMANT, or once the host clock has returned (R400, R401). -/
def execCellarTrain (s : State) : Out := .next (if s.cel.trainDue = true ∧ s.celAsleep = false then s.celTrain else s)

/-- Some receive context is routed through the cellar. -/
def State.celRouted (s : State) : Bool := decide (cellarContexts s.vtg.current ≠ 0)

/-- CELLAR_RETRAIN: refused while traffic is routed through the cellar; channels in self-refresh train once they leave it (R400,
R401). -/
def execCellarRetrain (s : State) : Out :=
  .next (s.whenOpen 11 fun s =>
    if s.celRouted then s.wr F.CEL_CMD_refused 1 else if s.celAsleep then s else s.celTrain)

/-! ### Window access (R416, R417) -/

/-- CEL_ACC_ADDR. -/
def State.accBlock (s : State) : Nat := s.rd F.CEL_ACC_ADDR_H_addr * 2 ^ 24 + s.rd F.CEL_ACC_ADDR_L_addr

/-- The 64 data bytes of CEL_ACC_DATA. -/
def State.accBytes (s : State) : List Nat :=
  ((List.range 22).flatMap fun w => wordBytes (s.rd F.CEL_ACC_DATA_bytes [w])).take 64

/-- A capture is armed, filling or draining. -/
def State.capturing (s : State) : Bool := decide (s.capture.slice ≠ none)

/-- The block lies in the cellar's data. -/
def State.blockExists (s : State) (b : Nat) : Bool := decide (64 * b + 64 ≤ cellarBytes (s.bit F.CEL_STAT_density))

/-- A window write is refused by its region (R416). -/
def State.accWriteRefused (s : State) (b : Nat) : Bool :=
  if s.celRegion b = 4 then s.capturing else decide (s.mode ≠ modeProving)

/-- A window command starts, or is refused: while busy, outside the cellar's data, or as `no` says. DEDUCED (log 24). -/
def State.accGo (s : State) (no : Bool) (eff : State → State) : State :=
  if s.bit F.CEL_ACC_CMD_busy || !s.blockExists s.accBlock || no then s.wr F.CEL_ACC_CMD_refused 1
  else (eff s).wr F.CEL_ACC_CMD_busy 1

/-- ACC_READ: the block's data and the result; `errs` are symbol errors met at the read (R411, R412, R416). -/
def execAccRead (errs : List (Fin 68 × BitVec 8)) (s : State) : Out :=
  .next (s.whenOpen 11 fun s => s.accGo false fun t =>
    let r := t.readBlock t.accBlock (errs.map fun e => (e.1.val, e.2.toNat))
    let t := forEach (fun w u => u.wr F.CEL_ACC_DATA_bytes (payWord (r.2.2.1 ++ [0, 0]) w) [w]) (List.range 22) r.2.2.2
    ((t.wr F.CEL_ACC_CMD_result r.1).wr F.CEL_ACC_CMD_sym r.2.1).celAsk 4 (if r.1 = 1 then 1 + writeGrants true else 1))

/-- ACC_WRITE: the block with computed check bytes (R410, R416). -/
def execAccWrite (s : State) : Out :=
  .next (s.whenOpen 11 fun s => s.accGo (s.accWriteRefused s.accBlock) fun t =>
    (t.writeBlock t.accBlock t.accBytes).celAsk 4 (writeGrants (t.lineValid t.accBlock)))

/-- ACC_RAW_WRITE: data and check bytes as given, in PROVING alone (R416, R417). -/
def execAccRawWrite (s : State) : Out :=
  .next (s.whenOpen 11 fun s => s.accGo (s.accWriteRefused s.accBlock || decide (s.mode ≠ modeProving)) fun t =>
    ((t.openLine t.accBlock).putBlock t.accBlock
      (t.accBytes ++ wordBytes (t.rd F.CEL_ACC_CHK_bytes) ++ [t.rd F.CEL_ACC_CHK3_byte])).celAsk 4
        (writeGrants (t.lineValid t.accBlock)))

/-- ACC_DONE: the window command completes once the arbiter has granted its access in class WINDOW, which the bound of R426
limits (R416, R428). DEDUCED (log 24). -/
def execAccDone (s : State) : Out :=
  .next (
    if s.celWaits then s
    else (if s.celServes then s.celFinish 4 else s.celDrop 4).wr F.CEL_ACC_CMD_busy 0)

/-! ### Capture segments (R201 to R204, R405) -/

/-- A trimmed code of ADC a in interleave phase p, as the 8-bit code nearest to it (R181, R201). The rounding is free. -/
def State.trimmedCode (s : State) (i a p : Nat) (code : BitVec 8) : Nat :=
  ofSigned 8 (clampInt (-128) 127 (roundOpen (s.trimmed i a p code) (2 ^ 20)))

/-- The bytes XI, XQ, YI, YQ of instants as the source gives them: codes before the offset and gain trims, codes with them, or DAC
codes; source 3 acts as 0 (R201, R203). -/
def State.captureBytes (s : State) (i : Nat) (codes : List AdcSample) : List Nat :=
  if s.capture.src = 2 then s.capture.dac.flatten
  else
    let at' := fun (a p : Nat) (x : BitVec 8) => if s.capture.src = 1 then s.trimmedCode i a p x else x.toNat
    let p0 := (s.dsp1 i).inst
    codes.zipIdx.flatMap fun (x, n) =>
      let p := (p0 + n) % 64
      [at' 0 p x.xi, at' 1 p x.xq, at' 2 p x.yi, at' 3 p x.yq]

/-- CAPTURE_SEGMENT_DRAINED: the arbiter has granted the segment, whose instants have the codes `codes` where an ADC is the source. A
segment that finds the region full, or the cellar unavailable, ends the capture truncated; else it counts and is in its 8 MiB, as
many blocks as it holds, truncated where the buffer's rows cannot be corrected, and the engine arms again or ends; while the cellar
waits, so does the segment (R202, R398, R400, R405, R413). -/
def execCaptureSegmentDrained (codes : List AdcSample) (s : State) : Out :=
  .next (
    match s.capture.slice with
    | none => s
    | some i =>
      if s.rd F.CNV_CAP_STAT_state [i] = 3 ∧ s.celWaits = false then
        let done := s.rd F.CNV_CAP_STAT_done [i]
        let room := if s.bit F.CEL_STAT_avail then s.rd F.CEL_CAP_STAT_segs else 0
        if room ≤ done then (s.stick F.CNV_CAP_STAT_trunc i).endCapture i
        else
          let r := s.memRead 1 0
          let s := if r.1 then r.2.stick F.CNV_CAP_STAT_trunc i else r.2
          let base := 144 + deskewMib (s.cur F.CEL_CFG_dsk) + 8 * done
          let s := s.writeGroups (base * 2 ^ 14) ((s.captureBytes i codes).take (2 ^ 23))
          let s := (s.celDrop 5).wr F.CNV_CAP_STAT_done (done + 1) [i]
          if s.capture.segs ≤ done + 1 then s.endCapture i else s.armCapture i
      else s)

/-! ### TOUCH and repair (R415, R419) -/

/-- The blocks of a range of MiB whose lines are valid. -/
def State.touchBlocks (s : State) (base len : Nat) : List Nat :=
  ((s.cel.lines.filter fun e => decide (base ≤ e.1 / 2 ^ 11 ∧ e.1 / 2 ^ 11 < base + len)).map Prod.fst).flatMap fun l =>
    (List.range 8).map fun k => 8 * l + k

/-- Errors that reads meet, as numbers. -/
def readErrs (errs : List (BitVec 29 × Fin 68 × BitVec 8)) : List (Nat × Nat × Nat) :=
  errs.map fun e => (e.1.toNat, e.2.1.val, e.2.2.toNat)

/-- TOUCH_GO: every valid block of the range is read, with correction, in the arbiter's class TOUCH: 68 bytes a block with its
part of the check burst, and a write-back of each corrected one; `errs` are errors that the reads meet, by block address, symbol and
error, as a hard fault gives them anew at every read (R411, R412, R415, R428). DEDUCED (log 24). -/
def execTouchGo (errs : List (BitVec 29 × Fin 68 × BitVec 8)) (s : State) : Out :=
  .next (s.whenOpen 11 fun s =>
    if s.bit F.CEL_TOUCH_CMD_busy || !s.bit F.CEL_STAT_avail then s.wr F.CEL_TOUCH_CMD_refused 1
    else
      let bs := s.touchBlocks (s.rd F.CEL_TOUCH_BASE_mib) (s.rd F.CEL_TOUCH_LEN_mib)
      let r := s.readBlocks (readErrs errs) bs
      (r.2.2.2.wr F.CEL_TOUCH_CMD_busy 1).celAsk 6 ((bs.length * 68 + 127) / 128 + writeGrants true * r.2.1))

/-- CEL_TOUCH_DONE: the arbiter has granted the last read (R415, R428). -/
def execCelTouchDone (s : State) : Out :=
  .next (if s.bit F.CEL_TOUCH_CMD_busy then ((s.celDrop 6).wr F.CEL_TOUCH_CMD_busy 0).raise 0x33 0 else s)

/-- The valid blocks in the row that CEL_PPR_ADDR names. -/
def State.pprBlocks (s : State) : List Nat :=
  ((s.cel.lines.map Prod.fst).flatMap fun l => (List.range 8).map fun k => 8 * l + k).filter fun b =>
    decide (blockChannel b = s.rd F.CEL_PPR_ADDR_ch
      ∧ blockLoc b % 2 ^ 21 = s.rd F.CEL_PPR_ADDR_bank * 2 ^ 17 + s.rd F.CEL_PPR_ADDR_row)

/-- PPR_GO: `resource` is what the memory's mode registers report. The row is read and corrected, and goes back as it was read once it
is repaired (R411, R419). DEDUCED (log 24). -/
def execPprGo (resource : Bool) (s : State) : Out :=
  .next (s.whenOpen 11 fun s =>
    if s.rd F.CEL_PPR_CMD_status = 1 then s
    else if s.celRouted then s.wr F.CEL_PPR_CMD_status 4
    else if resource then (s.readBlocks [] s.pprBlocks).2.2.2.wr F.CEL_PPR_CMD_status 1
    else s.wr F.CEL_PPR_CMD_status 3)

/-! ### Output frames (R339, R345, R353, R414) -/

/-- What MAP delivers goes through CIP to CLI; with CSF the frame carries no channel data, nor does it with CAF, which CLI treats as CSF
(R18, R345, R356, R372, R382). -/
def State.deliverFrame (s : State) (c : Nat) (f : OutFrame) : State :=
  let csf := s.bit F.MAP_CH_STAT_csf [c]
  let s := s.cipFrame c f csf
  s.cliFrame c (s.cipCh c).out (csf || s.bit F.CIP_CH_STAT_dauth [c])

/-- OUTPUT_FRAME_READ: at a boundary of the channel's output the numbering and the definition that are due come first; then the frames
of an identity are read at the channel's read time, those through the cellar with the errors `errs` that their blocks meet, by block
address, symbol and error, and what MAP delivers goes on (R18, R339, R345, R346, R353, R361, R411, R412, R414). -/
def execOutputFrameRead (c : Fin 512) (errs : List (BitVec 29 × Fin 68 × BitVec 8)) (s : State) : Out :=
  .next (
    let s := (s.renumber c).turnChannel c
    match s.outputFrame c (readErrs errs) with
    | (some f, t) => t.deliverFrame c f
    | (none, t) => t)

/-! ### On-chip memories (R408, R409, R413, R417) -/

/-- MEM_INJ_ARM: in PROVING alone (R417). -/
def execMemInjArm (s : State) : Out :=
  .next (s.whenOpen 11 fun s =>
    if s.mode = modeProving then
      { s with cel := { s.cel with inj := some ⟨s.rd F.CEL_MEM_INJ_cls, s.rd F.CEL_MEM_INJ_sym0, s.rd F.CEL_MEM_INJ_sym1,
                                                s.bit F.CEL_MEM_INJ_two⟩ } }
    else s)

/-- A commit at CEL (R398): the limits in force; a changed rate retrains the channels while accesses wait. -/
def State.celCommit (s : State) (old : Tab Nat) : State :=
  let s := if imgGet old F.CEL_CFG_rate ≠ s.cur F.CEL_CFG_rate ∧ s.bit F.CEL_STAT_avail then
      { s with cel := { s.cel with training := true } } else s
  s.celLimits

end Sys2Proof.Machine
end

