-- ==== Sys2Proof/Machine/Slices.lean ====
section
/-!
DEFINITION. Slice states: WAKING, LIT, DRAINING, the held enable, and what a slice starts and ends with (R34 to R39, R180).
-/

namespace Sys2Proof.Machine

/-- The modes in which a slice may leave DARK (R34). -/
def State.wakeMode (s : State) : Bool := decide (modePrepare ≤ s.mode ∧ s.mode ≤ modeProving)

/-- The enable of slice i in force; a fused slice has none (R2). -/
def State.enabled (s : State) (i : Nat) : Bool := s.curBit F.GLB_SLICE_CTL_en [i] && !s.fused i

/-- Slice i leaves DARK: WAKING step 1 (R35). -/
def State.startWake (s : State) (i : Nat) : State :=
  ((s.wr F.GLB_SLICE_STAT_state slWaking [i]).wr F.GLB_SLICE_STAT_wake_step 1 [i]).wr F.GLB_SLICE_STAT_wake_pending 0 [i]

/-- A DARK slice whose enable holds wakes where the mode allows it. -/
def State.wakeIfEnabled (s : State) (i : Nat) : State :=
  if s.sliceState i = slDark ∧ s.enabled i = true ∧ s.wakeMode = true then s.startWake i else s

/-- The slice's tendril stops: nothing waits, nothing is received or held; a packet that is being sent goes on until the slice
is DARK (R248). DEDUCED (log 19). -/
def State.tdlStop (s : State) (i : Nat) : State :=
  let x := s.tdl1 i
  let s := s.setTdl i { x with queue := [], rx := none, inbox := [] }
  ((s.wr F.TDL_MB_TX_CMD_busy 0 [i]).wr F.TDL_RX_STAT_rx 0 [i]).wr F.TDL_PROP_STAT_held 0 [i]

/-- A slice that is not LIT holds no defect (R328). -/
def State.noDefects (s : State) (i : Nat) : State :=
  forEach (fun f t => t.wr f 0 [i]) [F.LFR_STAT_dlos, F.LFR_STAT_dlob, F.LFR_STAT_dlof, F.LFR_STAT_dlom, F.LFR_STAT_dunc,
    F.LFR_STAT_ddeg, F.LFR_STAT_dbdi, F.LFR_STAT_ssf, F.LFR_STAT_sd] s

/-- Everything that ends as slice i leaves LIT; its transmitter's frames go on while it drains (R37, R189, R204, R211, R248, R274,
R328). -/
def State.leaveLit (s : State) (i : Nat) : State :=
  let s := (((s.calLeaveLit i).stopCapture i).toAcq i acqIdle).tdlStop i
  let s := (s.noDefects i).memsLost i
  let l := s.lfr1 i
  (s.setTx i { s.tx1 i with rate := .none }).setLfr i
    { Lfr.fresh with txMfas := l.txMfas, txMfi := l.txMfi, txRec := l.txRec, txTsm := l.txTsm, txDly := l.txDly,
                     txPhase := l.txPhase, txBip := l.txBip }

/-- The device's role after a change of mode, pair state or slices: in SOLO a device in SERVICE is ACTIVE; in RECOVERY it
stays ACTIVE only while a slice carries traffic (R49, R472, R473, R539). PRY_TWIN_STAT.pair 0 is SOLO. -/
def State.roleUpdate (s : State) : State :=
  if s.mode = modeRecovery then
    if slices8.any fun i => s.keptTraffic i then s else s.wr F.PRY_TWIN_STAT_active 0
  else if s.rd F.PRY_TWIN_STAT_pair = 0 then s.wr F.PRY_TWIN_STAT_active (b2n (decide (s.mode = modeService)))
  else s

/-- One slice starts to drain: `short` runs step 3 of R37 alone (R36, R37, R39). -/
def State.drainOne (s : State) (i : Nat) (short : Bool) : State :=
  let was := s.lit i
  let s := (s.wr F.GLB_SLICE_STAT_state slDraining [i]).wr F.GLB_SLICE_STAT_wake_step 0 [i]
  let s := { s with ctl := { s.ctl with drainShort := tabPut false s.ctl.drainShort i short } }
  if was then ((s.leaveLit i).poolRecompute).roleUpdate else s.calLeaveLit i

/-- Every LIT slice drains: the loop has no source (R36, R448). DEDUCED (log 26). -/
def State.loseSource (s : State) : State :=
  if s.bit F.TIM_CLK_STAT_on_fallback then forEach (fun i t => if t.lit i then t.drainOne i false else t) slices8 s else s

/-- A selected source is lost while the device runs on the fallback oscillator: the loop has no source (R448).
DEDUCED (log 26). -/
def State.sourceGone (s : State) : State :=
  if s.tim.selValid && decide (s.candState (s.rd F.TIM_SEL_STAT_sel) = candUnavailable)
      && decide (s.selState = selHoldOff) then s.loseSource else s

/-- A drain starts; the recovered clock of the slice may have been the loop's last source (R36, R211, R448). -/
def State.startDrain (s : State) (i : Nat) (short : Bool) : State := (s.drainOne i short).sourceGone

/-- A LIT slice drains, a WAKING one stops waking and drains (R36, R39). -/
def State.drain (s : State) (i : Nat) : State :=
  if s.sliceState i = slLit then s.startDrain i false
  else if s.sliceState i = slWaking then s.startDrain i true
  else s

/-- Every slice drains and no enable is held (R33, R36). -/
def State.drainAll (s : State) : State :=
  forEach (fun i t => (t.drain i).wr F.GLB_SLICE_STAT_wake_pending 0 [i]) slices8 s

/-- The enables of a commit take effect: `old` is the outgoing CURRENT (R34, R36, R38, R39). -/
def State.applyEnable (s : State) (old : Tab Nat) (i : Nat) : State :=
  let was := decide (imgGet old F.GLB_SLICE_CTL_en [i] ≠ 0)
  let now := s.enabled i
  if now && !was then
    if s.sliceState i = slDraining then s.wr F.GLB_SLICE_STAT_wake_pending 1 [i] else s.wakeIfEnabled i
  else if !now && was then (s.drain i).wr F.GLB_SLICE_STAT_wake_pending 0 [i]
  else s

def State.applyEnables (s : State) (old : Tab Nat) : State := forEach (fun i t => t.applyEnable old i) slices8 s

/-- Entry to a mode in which slices may leave DARK, from one in which they may not (R34). -/
def State.wakeAll (s : State) : State := forEach (fun i t => t.wakeIfEnabled i) slices8 s

/-- SLICE_ENABLE_HELD_WAKE: an enable held during DRAINING starts WAKING once DARK is reached (R34, R38). -/
def execSliceEnableHeldWake (i : Fin 8) (s : State) : Out :=
  .next (if s.bit F.GLB_SLICE_STAT_wake_pending [i] then s.wakeIfEnabled i else s)

/-- The interleave slices of ADC a that fail the check of step 4 beside one that the spare has replaced: the mean more than
4 LSB from that of the others, or the RMS more than 12.5 % from theirs (R180). -/
def State.checkFails (s : State) (i a : Nat) (stats : List (List CodeStats)) : List Nat :=
  let used := s.bit F.CNV_ADC_STAT_spare_used [i, a]
  let out := if used then s.rd F.CNV_ADC_STAT_failed_slice [i, a] else s.rd F.CNV_ADC_STAT_spare_pos [i, a]
  let ks := (List.range 65).filter fun k => k ≠ out
  let at' := fun (k : Nat) => (stats.getD a []).getD k ⟨0, 0⟩
  ks.filter fun k =>
    let others := (ks.filter fun j => j ≠ k).map at'
    let sums : CodeStats := ⟨(others.map CodeStats.sum).sum, (others.map CodeStats.squares).sum⟩
    !(meanWithin 4 1 others.length (at' k) sums && rmsWithin 7 9 8 others.length (at' k) sums)

/-- Step 4 completes for ADC a: at most one slice fails, and only while the spare is free (R180). -/
def State.checkPasses (s : State) (i : Nat) (stats : List (List CodeStats)) (a : Nat) : Bool :=
  match s.checkFails i a stats with
  | [] => true
  | [_] => !s.bit F.CNV_ADC_STAT_spare_used [i, a]
  | _ => false

/-- The spare permanently replaces the first slice of ADC a that fails (R180). -/
def State.replaceSpare (s : State) (i : Nat) (stats : List (List CodeStats)) (a : Nat) : State :=
  match s.checkFails i a stats with
  | k :: _ =>
    if s.bit F.CNV_ADC_STAT_spare_used [i, a] then s
    else (s.wr F.CNV_ADC_STAT_spare_used 1 [i, a]).wr F.CNV_ADC_STAT_failed_slice k [i, a]
  | [] => s

/-- Slice i becomes LIT: acquisition starts at SIGNAL, the transmit superframe counter and the transmitter start afresh,
values in force that act as others are flagged, and f is recomputed (R20, R35, R184, R207, R235, R242, R247, R268, R311). -/
def State.becomeLit (s : State) (i : Nat) : State :=
  let g := s.genInUse i
  let s := (s.wr F.GLB_SLICE_STAT_state slLit [i]).wr F.GLB_SLICE_STAT_wake_step 0 [i]
  let s := (s.setTx i { Tx.fresh with past := (s.tx1 i).past }).setLfr i
      { Lfr.fresh with ms := s.time.toNat, sec := s.time.toNat }
  let s := ((s.rxCheck i).txCheck i).peCheck i
  let s := (s.wr F.LFR_TX_SFC_count 0 [i]).acqLit i
  let first := (s.conv1 i).firstRate
  let s := s.setConv i { s.conv1 i with firstRate := false }
  let s := if first = true ∨ g.baud ≠ s.cur F.RXD_MODE_CFG_baud [i] then s.runCause i 4 else s.askRun i
  s.poolRecompute

/-- WAKING_COMPLETE: one step of the table "WAKING steps" ends, in the table's order: the power ramp, the synthesiser's lock,
the trim load, which loads the generation in use, and the converter check, with what it measured of each ADC. The last
makes the slice LIT; a second failed slice of one ADC keeps it from completing (R35, R180, R189). DEDUCED (log 38). -/
def execWakingComplete (i : Fin 8) (done : WakeStep) (s : State) : Out :=
  .next (
    if s.sliceState i = slWaking ∧ s.rd F.GLB_SLICE_STAT_wake_step [i] = done.code then
      match done with
      | .powerRamp | .synthLock => s.wr F.GLB_SLICE_STAT_wake_step (done.code + 1) [i]
      | .trimLoad => (s.loadGeneration i (s.genInUse i)).wr F.GLB_SLICE_STAT_wake_step 4 [i]
      | .converterCheck stats =>
        let ok := [0, 1, 2, 3].all fun a => s.checkPasses i stats a
        let s := forEach (fun a t => t.replaceSpare i stats a) [0, 1, 2, 3] s
        if ok then s.becomeLit i else s
    else s)

/-- WAKE_TIMEOUT: still WAKING after 5 ms; the event tells the step (R35, R577). Its enable has not been removed, and once
DARK the slice waits for a new enable. DEDUCED (log 38). -/
def execWakeTimeout (i : Fin 8) (s : State) : Out :=
  .next (
    if s.sliceState i = slWaking then
      let step := s.rd F.GLB_SLICE_STAT_wake_step [i]
      ((s.wr F.GLB_SLICE_STAT_wake_fail 1 [i]).raise 0x0B (i.val * 2 ^ 21 + step)).startDrain i false
    else s)

/-- The pool still holds blocks of slice i. -/
def State.poolHolds (s : State) (i : Nat) : Bool := s.pool.blocks.any fun b => decide (b.slice = i)

/-- DRAIN_COMPLETE after `us` µs: each step ends only when its work is done, so blocks in the pool and output amplitude
keep a full drain from ending (R37, R39). -/
def execDrainComplete (i : Fin 8) (us : BitVec 16) (s : State) : Out :=
  .next (
    let short := tabGet false s.ctl.drainShort i
    if s.sliceState i = slDraining ∧ (short = true ∨ (s.poolHolds i = false ∧ (s.tx1 i).amp = 0)) then
      let s := (s.wr F.GLB_SLICE_STAT_state slDark [i]).wr F.GLB_SLICE_STAT_last_drain us.toNat [i]
      let s := (s.setTx i Tx.fresh).setLfr i Lfr.fresh
      let s := (s.setTdl i { s.tdl1 i with sending := none }).tdlStop i
      { s with ctl := { s.ctl with drainShort := tabPut false s.ctl.drainShort i false } }
    else s)

/-! ### Client lanes as references (R384, R389, R396) -/

/-- The lane of reference candidate 12 + j. -/
def State.refLane (s : State) (j : Nat) : Nat := if j = 0 then s.cur F.CLI_REF_SEL_lane0 else s.cur F.CLI_REF_SEL_lane1

/-- The lane is ACTIVE and its port has PCS lock (R396). -/
def State.laneClock (s : State) (l : Nat) : Bool :=
  decide (s.rd F.CLI_LANE_STAT_pstate [l] = laneActive)
    && portsAll.any fun p => portOn s.vtg.current p && portHas s.vtg.current p l && s.bit F.CLI_PORT_STAT_pcs_lock [p]

/-- The candidates of the named lanes are lost where R396 no longer allows them. -/
def State.refLanes (s : State) : State :=
  (forEach (fun j t => if t.laneClock (t.refLane j) then t else t.candLost (12 + j)) [0, 1] s).sourceGone

/-- HOST_SIDE_CONDITION_CHANGE: the host-side receive condition of an enabled port (R384, R389, R396). -/
def execHostSideConditionChange (p : Fin 64) (h : HostSide) (s : State) : Out :=
  .next (
    if s.curBit F.CLI_PORT_CFG_en [p] then
      let lock := h.pcs && !s.portWaking p
      let s := (s.wr F.CLI_PORT_STAT_pcs_lock (b2n lock) [p]).wr F.CLI_PORT_STAT_hi_ber (b2n h.hiBer) [p]
      let s := (s.wr F.CLI_PORT_STAT_lf_rx (b2n h.lf) [p]).wr F.CLI_PORT_STAT_rf_rx (b2n h.rf) [p]
      let s := forEach (fun l t => if portHas t.vtg.current p l then
        (t.wr F.CLI_LANE_STAT_sig (b2n h.sig) [l]).wr F.CLI_LANE_STAT_cdr (b2n h.cdr) [l] else t) (List.range 64) s
      s.refLanes
    else s)

end Sys2Proof.Machine
end

