-- ==== Sys2Proof/Machine/Acquire.lean ====
section
/-!
DEFINITION. The commands of the acquisition state machine (chapter 08, R207 to R230). Each may take a recovered clock from
the selector, which R448 answers.
-/

namespace Sys2Proof.Machine

/-- ACQ_SIGNAL_DETECT: SIGNAL completes, CD starts; not while the slice is held in reset (R537). -/
def execAcqSignalDetect (i : Fin 8) (s : State) : Out :=
  .next (if s.acq i = acqSignal ∧ tabGet false s.ctl.sliceHold i = false then s.enterCd i else s)

/-- CD_SCAN_END: the scan has run its length, with the metric of each coarse and fine candidate and the interpolated peak; the
bulk value is set and reported, CLOCK starts (R207, R208, R209). DESIGN CHOICE (log 17). -/
def execCdScanEnd (i : Fin 8) (coarse fine : List Nat) (peak : Int) (s : State) : Out :=
  .next (
    if s.acq i = acqCd ∧ s.scanDone i = true then
      (s.wr F.RXD_CD_EST_cd (ofSigned 24 (s.bulkValue i coarse fine peak)) [i]).toAcq i acqClock
    else s)

/-- CLOCK_LOCK: the loop has reached the far end's clock, `off` in 2^-10 ppm. Within 200 ppm timing locks and BLIND starts; beyond
it the loop stays at its limit (R210). -/
def execClockLock (i : Fin 8) (off : Int) (s : State) : Out :=
  .next (
    if s.acq i = acqClock then
      let t := s.setDsp i { s.dsp1 i with nco := clampInt (-204800) 204800 off }
      if off.natAbs ≤ 204800 then t.toAcq i acqBlind else t
    else s)

/-- SINGULARITY_CHECK: a correlation above 0.9 is corrected and BLIND's limit restarts; the fifth of an acquisition, corrected like the
others, fails it (R215). -/
def execSingularityCheck (i : Fin 8) (corrMilli : Nat) (s : State) : Out :=
  .next (
    if s.acq i = acqBlind ∧ 900 < corrMilli then
      let n := (s.rx1 i).singulars + 1
      let d := s.dsp1 i
      let t := (s.setRx i { s.rx1 i with singulars := n, dsp := { d with taps := fixSingular d.taps, since := s.tim.now } }).wr
        F.RXD_EVT_singular 1 [i]
      if 5 ≤ n then t.acqFail i else t
    else s)

/-- BLIND_CONVERGED: the line has a DGD of `dgd` fs and a dispersion of `cd` ps/nm, whose spread beside the bulk value the equaliser
undoes: CMA has converged to the taps held, and PILOT_SYNC starts. A greater spread does not converge (R207, R212, R213). -/
def execBlindConverged (i : Fin 8) (dgd : Nat) (cd : Int) (s : State) : Out :=
  .next (
    if s.acq i = acqBlind ∧ spreadFits (eqTaps (s.cur F.RXD_EQ_CFG_taps [i])) (s.rxBaud i) dgd
        (cd - toSigned 24 (s.rd F.RXD_CD_EST_cd [i])) = true then s.toAcq i acqPilotSync
    else s)

/-- PILOT_SYNC_FOUND: the samples of two runs of 4,096 pilots: where both give one position of the pilot sequence, RXD counts symbols
from it, and CARRIER starts (R217). -/
def execPilotSyncFound (i : Fin 8) (samples : List AdcSample) (s : State) : Out :=
  .next (
    if s.acq i = acqPilotSync then
      let n := symbolsIn samples.length
      let f := s.frontEnd i samples.length samples
      let r := s.rxSet i
      let eq := f.2.equalised i n n f.1
      let d := f.2.dsp1 i
      let s := (f.2.setDsp i { d with past := d.eqPast f.1.1 n, pos := (d.pos + n) % superframeSymbols r.baud }).countSat i eq.2
      match syncFound r.period r.baud eq.1 with
      | some p => (s.setDsp i { s.dsp1 i with pos := (p + n) % superframeSymbols r.baud }).toAcq i acqCarrier
      | none => s
    else s)

/-- CARRIER_LOCK: pilot SNR above 3 dB in both polarisations for 16 frames, at an offset within 5.0 GHz: TRACK starts, block
alignment searches, and RXD_TRACK is raised (R217, R232, R260). -/
def execCarrierLock (i : Fin 8) (s : State) : Out :=
  .next (
    if s.acq i = acqCarrier ∧ (s.dsp1 i).freq.natAbs ≤ 5000000000 ∧ 16 ≤ (s.dsp1 i).good then
      (((s.toAcq i acqTrack).syncSearch i).alignBlock i).raise 0x18 (i.val * 2 ^ 21)
    else s)

/-- ACQ_STATE_LIMIT: a state with a limit other than HOLD reaches it (R227). -/
def execAcqStateLimit (i : Fin 8) (s : State) : Out :=
  .next (if acqClock ≤ s.acq i ∧ s.acq i ≤ acqCarrier ∧ s.acqOver i = true then s.acqFail i else s)

/-- INPUT_LOSS: from CLOCK to TRACK the slice enters HOLD (R228). -/
def execInputLoss (i : Fin 8) (s : State) : Out :=
  .next (if acqClock ≤ s.acq i ∧ s.acq i ≤ acqTrack then (s.toAcq i acqHold).sourceGone else s)

/-- INPUT_RETURN: PILOT_SYNC is re-entered with the held state intact (R228). -/
def execInputReturn (i : Fin 8) (s : State) : Out := .next (s.acqMove i acqHold acqPilotSync)

/-- HOLD_EXPIRY: the limit of HOLD has passed: SIGNAL, and no acquisition failure (R228). -/
def execHoldExpiry (i : Fin 8) (s : State) : Out :=
  .next (if s.acqOver i then s.acqMove i acqHold acqSignal else s)

/-- TRACK_SNR_LOSS: pilot SNR has stayed below 0 dB in one polarisation for 64 frames: BLIND is re-entered, the bulk value and
the NCO kept (R229). -/
def execTrackSnrLoss (i : Fin 8) (s : State) : Out :=
  .next (
    if 64 ≤ (s.dsp1 i).low.1 ∨ 64 ≤ (s.dsp1 i).low.2 then (s.acqMove i acqTrack acqBlind).sourceGone else s)

/-- ACQ_RESTART (R230). -/
def execAcqRestart (i : Fin 8) (s : State) : Out := .next (s.acqRestart i).sourceGone

/-- CYCLE_SLIP: a pilot of X, or of Y, finds the phase estimate off by `err` in 2^-16 rad: beyond π/4 the estimate is corrected at
that pilot, counted and flagged; the other polarisation keeps its window (R218, R219). -/
def execCycleSlip (i : Fin 8) (y : Bool) (err : Int) (s : State) : Out :=
  .next (
    if (s.acq i = acqCarrier ∨ s.acq i = acqTrack) ∧ slipped err = true then
      let d := s.dsp1 i
      let win := s.cur F.RXD_CAR_CFG_win [i]
      let fixed := fun (ps : List Int) => [phaseMean win ps + err]
      (s.setDsp i { d with pilots := if y then (d.pilots.1, fixed d.pilots.2) else (fixed d.pilots.1, d.pilots.2) }).countSlips i 1
    else s)

end Sys2Proof.Machine
end

