-- ==== Sys2Proof/Machine/Links.lean ====
section
/-!
DEFINITION. The transmit direction of the Poryon ports: the clock of the transmitters, the frames, and their arbitration
(chapters 17 and 19, R433, R459, R461, R463, R471).
-/

namespace Sys2Proof.Machine

/-- The transmitters have a clock (R459): the host clock is stable and has not failed, or the TIM loop that replaces it is
locked to a reference. Without one they hold electrical idle. -/
def State.txClocked (s : State) : Bool :=
  !s.bit F.TIM_CLK_STAT_on_fallback || decide (s.selState = selLocked ∨ s.selState = selLockedAlarm)

/-- The content of frame k of a message, bits 0 to 495 of the table "Frame content" (R461). The words beyond the valid ones
are sent as 0, which no rule states. DESIGN CHOICE (log 41). -/
def frameContent (m : PryMsg) (k seq : Nat) : List Bool :=
  let ws := (m.words.drop (18 * k)).take 18
  let dst := if m.cls = 2 ∨ m.cls = 4 then m.dst else 0
  let body := toBits 4 m.cls ++ toBits 4 m.kind ++ [decide (k = 0), decide (pryFrames m ≤ k + 1)] ++ toBits 5 ws.length
    ++ toBits 6 dst ++ toBits 6 m.src ++ toBits 5 seq ++ ws.flatMap (toBits 24)
    ++ List.replicate (24 * (18 - ws.length)) false
  body ++ toBits 32 (fcs32 body)

/-- The own serial identity (R282). -/
def State.ownSerial (s : State) : Nat := s.ctl.otpSerial.toNat

/-- The device role: PRY_DOM_CFG.role, 3 acting as 0 (R485). -/
def State.domRole (s : State) : Nat := if s.cur F.PRY_DOM_CFG_role = 3 then 0 else s.cur F.PRY_DOM_CFG_role

/-- The word w1 of IDENT: part code, revision and schema (R464). -/
def State.identW1 (s : State) : Nat :=
  s.rd F.GLB_IDENT_part * 2 ^ 16 + s.rd F.GLB_IDENT_rev_letter * 2 ^ 12 + s.rd F.GLB_IDENT_rev_digit * 2 ^ 8 + 1

/-- The words of the IDENT that port p sends (R464); its w1 holds part code, revision and schema. -/
def State.identWords (s : State) (p : Nat) : List Nat :=
  [s.ownSerial, s.identW1,
   s.domRole * 2 ^ 22 + p * 2 ^ 19 + s.rd F.PRY_TWIN_STAT_side * 2 ^ 18 + s.rd F.PRY_DOM_STAT_dom * 2 ^ 12
     + s.rd F.PRY_DOM_STAT_depth * 2 ^ 10 + s.rd F.PRY_TWIN_STAT_active * 2 ^ 9,
   s.rd F.PRY_PORT_PEER_serial [p], s.rd F.SEQ_PSET_ID_id]

/-- Port p sends its IDENT (R465), which goes out once its transmitter has a clock (R459). -/
def State.sendIdent (s : State) (p : Nat) : State :=
  s.setPort p ((s.port p).ask ⟨0, 0, 0, s.rd F.PRY_DOM_STAT_dom, s.identWords p⟩)

/-- The use of the arbiter that the transmit direction of port p is: the table "Poryon classes" (R433). The guarantees are
1 Gb/s and 20 Gb/s of 45 Gb/s, in 2^-16 of a frame a round, rounded down. -/
def pryUse (p : Nat) : Use :=
  { servers := 1, classes := [0, 1, 2, 3, 4],
    weight := fun k => [0, if p = 0 then 8 else 0, 8, 4, 2].getD k 0,
    guar := fun k => [1456, if p = 0 then 29127 else 0].getD k 0,
    burst := fun k => [16, 256].getD k 0,
    cap := fun _ => 0 }

/-- The first waiting message of a class, and the list after one frame of it has gone. -/
def takeFrame (k : Nat) : List (PryMsg × Nat) → Option (PryMsg × Nat × List (PryMsg × Nat))
  | [] => none
  | (m, n) :: ms =>
    if m.cls = k then some (m, n, if n ≤ 1 then ms else (m, n - 1) :: ms)
    else (takeFrame k ms).map fun r => (r.1, r.2.1, (m, n) :: r.2.2)

/-- A frame of class k goes out on port p, which is then in P-ACTIVE (R461, R463, R471). -/
def State.sendFrame (s : State) (p k : Nat) : State :=
  let x := s.port p
  match takeFrame k x.wait with
  | none => s
  | some (m, n, rest) =>
    let seq := tabGet 0 x.txSeq k
    let s := s.setPort p { x with
      wait := rest, txSeq := tabPut 0 x.txSeq k ((seq + 1) % 32), frame := frameContent m (pryFrames m - n) seq,
      lastTx := if n ≤ 1 then tabPut none x.lastTx k (some m) else x.lastTx }
    (s.count (pryCnt p 0) 1).wr F.PRY_PORT_STAT_pwr 0 [p]

/-- Rounds of 64 bytes in the 2 µs that P-QUIET takes to leave (R471). -/
def quietRounds : Nat := 176

/-- The class that a port leaves P-QUIET for when it is to be kept out of it and no frame waits. -/
def noFrame : Nat := 5

/-- One round of 64 bytes on port p (R433): the highest-ranked class is granted one frame; one granted in P-QUIET starts once
the port has left that state, which PRY_PORT_CFG.keep makes it do with no frame too, and the frames that arrive meanwhile wait
(R471). DEDUCED (log 27). -/
def State.pryRound (s : State) (p : Nat) : State :=
  if s.txClocked && decide (s.rd F.PRY_PORT_STAT_state [p] = 1 ∨ s.rd F.PRY_PORT_STAT_state [p] = 2) then
    let s := if p = 0 then s.mirrorDrain else s
    let u := pryUse p
    let x := s.port p
    let sol := x.sol.gain u 1
    match x.quiet with
    | some (k, n) =>
      let s := s.setPort p { x with sol := sol.ageRound sol u, quiet := if n = 0 then none else some (k, n - 1) }
      if n = 0 then (s.wr F.PRY_PORT_STAT_pwr 0 [p]).sendFrame p k else s
    | none =>
      match sol.serve u with
      | none =>
        let wakes := s.bit F.PRY_PORT_CFG_keep [p] && decide (s.rd F.PRY_PORT_STAT_pwr [p] = 1)
        s.setPort p { x with sol := sol, quiet := if wakes then some (noFrame, quietRounds) else none }
      | some (r, rest) =>
        let y := { x with sol := rest.ageRound sol u }
        if s.rd F.PRY_PORT_STAT_pwr [p] = 1 then s.setPort p { y with quiet := some (r.cls, quietRounds) }
        else (s.setPort p y).sendFrame p r.cls
  else s

/-- The six ports. -/
def allPorts : List Nat := [0, 1, 2, 3, 4, 5]

/-- Rounds of every port, one after another. -/
def State.pryRounds (s : State) : Nat → State
  | 0 => s
  | n + 1 => (forEach (fun p t => t.pryRound p) allPorts s).pryRounds n

/-- Ticks of 1.6 ns in the 100 µs between two IDENT of a port in training (R465). -/
def identTicks : Nat := 62500

/-- A port in training sends IDENT every 100 µs (R465). -/
def State.identTick (s : State) (ticks p : Nat) : State :=
  if s.rd F.PRY_PORT_STAT_state [p] = 1 then
    let n := (s.port p).ident + ticks
    if n < identTicks then s.setPort p { s.port p with ident := n }
    else (s.setPort p { s.port p with ident := n - identTicks }).sendIdent p
  else s

/-- `ticks` ticks of 1.6 ns pass: the rounds of 11.378 ns that they hold, 9/64 of a round each, the IDENT of a port in training, and
the hold of a PAIR_MARK (R433, R465, R483). -/
def State.pryTick (s : State) (ticks : Nat) : State :=
  let t := s.pry.frac + 9 * ticks
  let s := { s with pry := { s.pry with frac := t % 64, hold := s.pry.hold - ticks } }
  forEach (fun p u => u.identTick ticks p) allPorts (s.pryRounds (t / 64))

end Sys2Proof.Machine
end

