-- ==== Sys2Proof/Machine/Lookup.lean ====
section
/-!
DEFINITION. The register at a fabric address, and whole words of an image (R2, R11, R14, R116, R573).
-/

namespace Sys2Proof.Machine

/-- The indices that reach an offset: outermost dimension first. -/
def dimsIdx : List (Nat × Nat × Nat) → Nat → Option (List Nat)
  | [], off => if off = 0 then some [] else none
  | (lo, hi, st) :: ds, off =>
    let k := off / st
    if lo ≤ k ∧ k ≤ hi then (dimsIdx ds (off - k * st)).map (k :: ·) else none

/-- The register at an address, with its indices. -/
def regAt (a : Nat) : Option (Reg × List Nat) :=
  (blockRegs (a / 2 ^ 20)).findSome? fun r => if r.addr ≤ a then (dimsIdx r.dims (a - r.addr)).map fun is => (r, is) else none

/-- The address lies in a per-slice register instance of a slice that is disabled by fuse (R2). -/
def State.fusedAddr (s : State) (a : Nat) : Bool :=
  sliceBlock (a / 2 ^ 20) && decide (s.rd F.GLB_IDENT_slice_mask / 2 ^ (a / 2 ^ 17 % 8) % 2 = 0)

/-- A field of a register holds V-class content. -/
def Fld.isV (f : Fld) : Bool := decide (f.cls = .vintage)

/-- Field f of a 24-bit word. -/
def fldOf (f : Fld) (w : Nat) : Nat := bitsOf w f.hi f.lo

/-- The V-class fields at an address, and their indices; none where the register holds none. -/
def vFields (a : Nat) : Option (List Fld × List Nat) :=
  match regAt a with
  | some (r, is) => match r.fields.filter Fld.isV with
    | [] => none
    | fs => some (fs, is)
  | none => none

/-- The V-class bits of an image at an address. -/
def imgWord (m : Tab Nat) (a : Nat) : Nat :=
  match vFields a with
  | some (fs, is) => (fs.map fun f => imgGet m f is * 2 ^ f.lo).sum
  | none => 0

/-- An image with the masked merge of R128 applied at an address: bits of V-class fields alone change. -/
def imgMerge (m : Tab Nat) (a data mask : Nat) : Tab Nat :=
  match vFields a with
  | some (fs, is) =>
    fs.foldl (fun m f =>
      let k := fldOf f mask
      imgPut m f ((imgGet m f is &&& (2 ^ fldWidth f - 1 - k)) ||| (fldOf f data &&& k)) is) m
  | none => m

/-- The addresses at which an image lists a value. -/
def imgAddrs (m : Tab Nat) : List Nat := (m.map fun e => e.1 / 32).eraseDups

/-- The image that address and word pairs add to. -/
def imgPairs (m : Tab Nat) : List Nat → Tab Nat
  | a :: w :: ws => imgPairs (imgMerge m a w (2 ^ 24 - 1)) ws
  | _ => m

/-- The keys at which two images differ. -/
def imgDiff (a b : Tab Nat) : List Nat :=
  let val := fun (m : Tab Nat) (k : Nat) => (m.find? fun e => e.1 = k).map Prod.snd
  (((a ++ b).map Prod.fst).eraseDups).filter fun k => decide (val a k ≠ val b k)

end Sys2Proof.Machine
end

