-- ==== Sys2Proof/Machine/VintageOps.lean ====
section
/-!
DEFINITION. What the commit machine is built from: line-touching differences, validation, the archive, agreements, the
end of a commit and the start of a return (chapter 05 and R293 to R301).
-/

namespace Sys2Proof.Machine

/-! ### States of the commit machine and boundaries (R117, R128) -/

def vtIdle : Nat := 0
def vtValidating : Nat := 1
def vtLoading : Nat := 2
def vtNegotiating : Nat := 3
def vtHeld : Nat := 4
def vtArmed : Nat := 5
def vtProbation : Nat := 6
def vtReturning : Nat := 7

/-- VTG_STAT.state. -/
def State.vtState (s : State) : Nat := s.rd F.VTG_STAT_state
def State.toVt (s : State) (n : Nat) : State := s.wr F.VTG_STAT_state n

/-- The serial of CURRENT. -/
def State.serialCur (s : State) : Nat := s.rd F.VTG_SERIAL_CUR_serial

/-- STAGED is locked (R127). -/
def State.stagedLocked (s : State) : Bool := s.commitPending

/-- A target time has been reached: the signed 32-bit difference to device time is not positive (R12, R454). -/
def State.reached (s : State) (target : BitVec 32) : Bool := decide ((target - s.time).toInt ≤ 0)

/-! ### Line-touching differences (R129, R149, R293) -/

/-- The channels, each with its bit of the kinds word, that a changed field of MAP or CIP concerns: 20 slot map or
groups, 19 keys, 17 selectors. Deskew settings touch no line, routes as R343 says, allow and guard as settings of the same kind, and a
context that carries no channel concerns none (R330). DESIGN CHOICE (log 41). -/
def channelKinds (old new : Tab Nat) (k : Nat) : List (Nat × Nat) :=
  let a := k / 32
  let lo := k % 32
  if 0x801000 ≤ a ∧ a < 0x801200 then (if lo = 4 ∨ lo = 2 then [] else [(20, a - 0x801000)])
  else if 0x801200 ≤ a ∧ a < 0x801400 then [(17, a - 0x801200)]
  else if 0x802000 ≤ a ∧ a < 0x803000 then (if lo = 18 then [] else [(20, (a - 0x802000) / 8)])
  else if 0x810000 ≤ a ∧ a < 0x820000 then
    let is := [(a - 0x810000) / 8192, (a - 0x810000) % 8192]
    let (f, en) := if 14 ≤ lo then (F.MAP_SLOT_tx_ch, F.MAP_SLOT_tx_en) else (F.MAP_SLOT_rx_ch, F.MAP_SLOT_rx_en)
    [old, new].filterMap fun m => if imgGet m en is = 0 then none else some (20, imgGet m f is)
  else if 0x900800 ≤ a ∧ a < 0x900A00 then [(19, a - 0x900800)]
  else if 0x901000 ≤ a ∧ a < 0x901400 then [(19, (a - 0x901000) / 2)]
  else []

/-- Slice i carries a member of channel c in either image. -/
def carriesMember (old new : Tab Nat) (i c : Nat) : Bool :=
  (membersOf old c ++ membersOf new c).any fun d => decide (d.slice = i)

/-- A changed field of slice i outside MAP and CIP, as a bit of the kinds word: 18 tendril transmit, 17 any other
line-touching field; symbol rate, format and LDPC rate have bits of their own. The transmitted overhead settings of LFR are
taken to be LFR_TX_CFG.rate and LFR_DEF_CFG.rdi_en, which the table does not name. DESIGN CHOICE (log 41). -/
def sliceKind (i k : Nat) : Option Nat :=
  let a := k / 32
  let lo := k % 32
  let off := a % 2 ^ 17
  let at' := fun (b : Nat) => decide (a / 2 ^ 17 = 8 * b + i)
  if at' 6 && decide ((off = 0 ∧ lo ≠ 9) ∨ (0x80 ≤ off ∧ off < 0x100)) then some 18
  else if decide (a = 0x000018 + i) || (at' 4 && decide (off ≠ 0x10)) || (at' 7 && decide (off = 0x10 ∨ (off = 0x13 ∧ lo = 8))) then some 17
  else none

/-- The kinds word of slice i for a change from one image to another; 0 where no line-touching field differs (R129, R293). -/
def lineKinds (old new : Tab Nat) (i : Nat) : Nat :=
  let ch := fun (f : Fld) => decide (imgGet old f [i] ≠ imgGet new f [i])
  let ds := imgDiff old new
  let has := fun (b : Nat) => (ds.any fun k => decide (sliceKind i k = some b))
    || (ds.any fun k => (channelKinds old new k).any fun e => decide (e.1 = b) && carriesMember old new i e.2)
  b2n (ch F.TXD_MODE_CFG_baud || ch F.RXD_MODE_CFG_baud) * 2 ^ 23
    + b2n (ch F.TXD_MODE_CFG_const || ch F.RXD_MODE_CFG_const || ch F.TXD_MODE_CFG_entropy || ch F.RXD_MODE_CFG_entropy
        || ch F.TXD_MODE_CFG_pilot || ch F.RXD_MODE_CFG_pilot) * 2 ^ 22
    + b2n (ch F.FEC_CODE_CFG_rate) * 2 ^ 21 + b2n (has 20) * 2 ^ 20 + b2n (has 19) * 2 ^ 19 + b2n (has 18) * 2 ^ 18
    + b2n (has 17) * 2 ^ 17

/-- The LIT slices whose line a change touches (R129). -/
def State.touchedSlices (s : State) (old new : Tab Nat) : List Nat :=
  if imgDiff old new = [] then [] else slices8.filter fun i => s.lit i && decide (lineKinds old new i ≠ 0)

/-! ### Validation (R131) -/

/-- A setting outside the per-slice instances names a slice that is disabled by fuse (R2, R3, R437). DEDUCED (log 13). -/
def State.fusedBad (s : State) (m : Tab Nat) : Bool :=
  slices8.any fun i => s.fused i &&
    (decide (imgGet m F.GLB_SLICE_CTL_en [i] ≠ 0)
      || decide (imgGet m F.TIM_CAND_CFG_prio [4 + i] ≠ 0)
      || decide (imgGet m F.VTG_PROB_CFG_judge_mask / 2 ^ i % 2 = 1)
      || ((contextsOf m true ++ contextsOf m false).any fun e => decide (e.1 = i))
      || (channels.any fun c => (membersOf m c).any fun d => decide (d.slice = i)))

/-- The code of the table "Commit failures" that validation finds: the lowest that holds, 0 for none (R131).
DEDUCED (log 13). -/
def State.validationCode (s : State) (m : Tab Nat) : Nat :=
  if slotsBad m then 1
  else if cellarBad m || cellarFails (s.bit F.CEL_STAT_avail) s.vtg.current m then 2
  else if s.fusedBad m then 3
  else if s.keyrefBad m then 4
  else if imgGet m F.SEQ_PSET_CFG_id ≠ s.rd F.SEQ_PSET_ID_id then 5
  else if channelsBad m || cipherFull m || portsBad m || clientsBad m || flexeBad m then 6
  else 0

/-! ### The archive (R135, R141, R143, R400) -/

/-- Item 0x01 of the mirror also carries the archive count and whether PREVIOUS is valid: [3, count, valid] (R475).
PRESUMED (log 40). -/
def State.mirrorArchive (s : State) : State :=
  s.mirror 0x01 [3, s.vtg.archCount, b2n (s.bit F.VTG_STAT_prev_valid)]

/-- The data address of an archive slot (R403). -/
def archiveAddr (slot : Nat) : Nat := (64 + slot) * 2 ^ 20

/-- An image as its slot holds it: an address and a word of three bytes each for every word that it lists. The layout is internal
(R403). DEDUCED (log 13). -/
def imageBytes (m : Tab Nat) : List Nat := (imgAddrs m).flatMap fun a => wordBytes a ++ wordBytes (imgWord m a)

/-- An image is written to the archive, which keeps the 64 newest, each in the slot after that of the one before it (R143, R403), or it
waits while the cellar does (R398); while the cellar is unavailable it is lost (R400). -/
def State.archiveImage (s : State) (serial : Nat) (failed : Bool) (m : Tab Nat) : State :=
  if s.bit F.CEL_STAT_avail then
    let slot := ((s.vtg.archive.head?.map fun a => (a.slot + 1) % 64)).getD 0
    let a : Archived := ⟨BitVec.ofNat 24 serial, failed, slot, (imgAddrs m).length⟩
    let s := s.archivePut (archiveAddr slot) (imageBytes m)
    ({ s with vtg := { s.vtg with archive := (a :: s.vtg.archive).take 64, archCount := min 64 (s.vtg.archCount + 1) } }).mirrorArchive
  else s.wr F.CEL_STAT_arch_lost 1

/-! ### Mirrored images (R475) -/

/-- Pieces of at most `n` elements. -/
def chunksOf {α : Type} (n : Nat) : Nat → List α → List (List α)
  | 0, _ => []
  | k + 1, l => if l.length ≤ n then [l] else l.take n :: chunksOf n k (l.drop n)

/-- An image goes into the mirror in packets of item 0x01: [which, serial, first packet, address and word pairs]; which is
0 CURRENT, 1 PREVIOUS, 2 the image of an accepted commit. -/
def State.mirrorImage (s : State) (which serial : Nat) (m : Tab Nat) : State :=
  let as := imgAddrs m
  let go := forEach (fun (c : List Nat × Bool) t =>
    t.mirror 0x01 ([which, serial, b2n c.2] ++ c.1.flatMap fun a => [a, imgWord m a]))
  match chunksOf 1000 (as.length / 1000 + 1) as with
  | [] => s
  | c :: cs => go ((c, true) :: cs.map fun d => (d, false)) s

/-! ### The end of a commit (R126, R131, R300) -/

/-- A receive direction that has gone over to the pending commit's image goes back to CURRENT. -/
def State.rxReverts (s : State) (i : Nat) : State :=
  let t := s.rxdNext .current i
  ((t.setRx i { t.rx1 i with img := .current }).rxFollow .current i).sourceGone

/-- What a slice keeps of an agreement goes, its receive direction keeps CURRENT, and an interval of R250 that has begun ends. -/
def State.dropAgreement (s : State) (i : Nat) : State :=
  let x := s.tdl1 i
  let s := if (s.rx1 i).img = .staged then s.rxReverts i else if (s.rx1 i).rxd = .staged then s.rxdNext .current i else s
  let s := if (s.tx1 i).rate = .muting then s.setTx i { s.tx1 i with rate := .none } else s
  s.setTdl i { x with queue := x.queue.filter (fun p => p.typ ≠ tyPropose), ownId := none, proposed := false, accRx := false,
                      accTx := false, farB := none, agreed := none, rxAt := none, farCancel := false }

/-- The change id of the pending commit on slice i: TDL_AGR_ID, as it stood when NEGOTIATING was entered (R295). -/
def State.changeId (s : State) (i : Nat) : Nat := ((s.tdl1 i).ownId).getD (s.rd F.TDL_AGR_ID_value [i])

/-- A commit that fails after its PROPOSE announces it (R300). -/
def State.sendCancel (s : State) (i : Nat) : State :=
  if (s.tdl1 i).proposed then s.tdlQueue i tyCancel (wordBytes (s.changeId i)) else s

/-- The pending commit ends with a failure code: STAGED becomes a copy of CURRENT, VTG_DONE carries CURRENT's serial
(R126, R131, R300). DEDUCED (log 13). -/
def State.failCommit (s : State) (code : Nat) : State :=
  match s.vtg.commit with
  | none => s
  | some c =>
    let s := if code = 8 ∨ code = 9 ∨ code = 10 then forEach (fun i t => t.sendCancel i) c.slices s else s
    let s := forEach (fun i t => t.dropAgreement i) slices8 s
    let s := ({ s with vtg := { s.vtg with staged := s.vtg.current, commit := none } }).vintSet [(1, 0)]
    let s := ((s.toVt vtIdle).wr F.VTG_STAT_line 0).wr F.VTG_STAT_domain 0
    let s := (s.wr F.VTG_STAT_last_fail code).mirror 0x03 [0, s.rd F.VTG_SERIAL_PEND_serial, code]
    s.raise 0x0C s.serialCur

/-- A withdrawal succeeds before ARMED (R134). -/
def State.withdrawable (s : State) : Bool := decide (vtValidating ≤ s.vtState ∧ s.vtState ≤ vtHeld)

/-! ### Arming (R132, R146) -/

/-- An accepted commit goes into the mirror: its image, then [serial, boundary, number of slices, (slice, own B, far B) of
each, the two words of probation settings] (R475, R477). -/
def State.mirrorCommit (s : State) : State :=
  match s.vtg.commit with
  | none => s
  | some c =>
    let s := s.mirrorImage 2 (s.rd F.VTG_SERIAL_PEND_serial) c.image
    s.mirror 0x02 ([s.rd F.VTG_SERIAL_PEND_serial, s.rd F.VTG_STAT_bd, c.slices.length]
      ++ (c.slices.flatMap fun i => [i, s.rd F.TDL_AGR_BND_value [i], s.rd F.TDL_AGR_PEER_value [i]])
      ++ [imgWord c.image 0xC00208, imgWord c.image 0xC00209])

/-- ARMED: a target that has passed marks a commit that touches no line as late (R132). -/
def State.arm (s : State) : State :=
  match s.vtg.commit with
  | none => s
  | some c =>
    let late := if c.slices = [] then s.reached c.target else c.late
    let s := { s with vtg := { s.vtg with commit := some { c with late := late } } }
    s.mirrorCommit.toVt vtArmed

/-- A commit is ready for its boundary: a domain commit waits in HELD (R146). -/
def State.holdOrArm (s : State) : State := if s.bit F.VTG_STAT_domain then s.toVt vtHeld else s.arm

/-! ### Agreements (R295 to R298) -/

/-- REFUSE of a change id with a reason (R293, R296). -/
def State.sendRefuse (s : State) (i id reason : Nat) : State := s.tdlQueue i tyRefuse (wordBytes id ++ wordBytes (reason * 2 ^ 20))

/-- The proposal held on slice i is no longer held; its registers keep it (R297). -/
def State.dropHeld (s : State) (i : Nat) : State := s.wr F.TDL_PROP_STAT_held 0 [i]

/-- The slices of a change whose boundary R258 ties to a superframe at which a block begins. -/
def State.blockTied (s : State) (m : Tab Nat) (i : Nat) : Bool :=
  decide (lineKinds s.vtg.current m i / 2 ^ 21 % 4 ≠ 0)
    && decide (hypotheses (s.cur F.TXD_MODE_CFG_baud [i]) (s.cur F.TXD_MODE_CFG_const [i]) (s.cur F.TXD_MODE_CFG_pilot [i]) = 3)

/-- The receive format in force has three block phases, and the commit changes a setting that R258 names. -/
def State.rxTied (s : State) (m : Tab Nat) (i : Nat) : Bool :=
  decide (lineKinds s.vtg.current m i / 2 ^ 21 % 4 ≠ 0)
    && decide (hypotheses (s.cur F.RXD_MODE_CFG_baud [i]) (s.cur F.RXD_MODE_CFG_const [i]) (s.cur F.RXD_MODE_CFG_pilot [i]) = 3)

/-- A block begins at the first data symbol of the received superframe whose count is `b`: the blocks that the alignment of
the slice places (R258, R260). Without block alignment no superframe is known to be one. DEDUCED (log 13). -/
def State.rxBlockAt (s : State) (i b : Nat) : Bool :=
  let c := s.cur F.RXD_MODE_CFG_const [i]
  let ns := blockSymbols c
  let ahead := (b + 2 ^ 24 - s.rxdSuperframe i % 2 ^ 24) % 2 ^ 24
  let k := (s.align1 i).phase + ahead
  decide (s.rd F.FEC_STAT_sync [i] = 2)
    && decide (k * dataSymbols (s.cur F.RXD_MODE_CFG_baud [i]) (s.cur F.RXD_MODE_CFG_pilot [i]) % ns
        = s.rd F.FEC_STAT_hyp [i] * ns / 3 % ns)

/-- The answer to a proposal that has the change id of the commit in NEGOTIATING: ACCEPT, or REFUSE with reason 2 and the
commit's failure (R296). A new far boundary needs a new ACCEPT; one that R258 does not allow is not acknowledged. -/
def State.answer (s : State) (i id farB summary : Nat) : State :=
  if s.rxTied s.pendImg i = true ∧ s.rxBlockAt i farB = false ∧ summary = rxSummary s.pendImg i then s
  else if summary = rxSummary s.pendImg i then
    let x := s.tdl1 i
    let s := if x.farB = some farB then s else s.setTdl i { x with farB := some farB, accTx := false }
    s.tdlQueue i tyAccept (wordBytes id ++ wordBytes farB)
  else (s.sendRefuse i id 2).failCommit 8

/-- The agreement of slice i is complete (R298). -/
def State.agreedOn (s : State) (i : Nat) : Bool := (s.tdl1 i).accRx && (s.tdl1 i).accTx

/-- An agreement that becomes complete, or is completed again for a new B of the far end: TDL_AGR_PEER takes it, and the receive
direction changes there where it has superframe alignment (R298, R299). -/
def State.noteAgreed (s : State) (i : Nat) : State :=
  let x := s.tdl1 i
  match x.farB with
  | some b =>
    if s.agreedOn i ∧ (x.agreed = none ∨ s.rd F.TDL_AGR_PEER_value [i] ≠ b) then
      let s := s.wr F.TDL_AGR_PEER_value b [i]
      s.setTdl i { x with agreed := some (s.rd F.TDL_AGR_BND_value [i]),
                          rxAt := if s.bit F.LFR_STAT_sf_ok [i] then some b else none }
    else s
  | none => s

/-- NEGOTIATING ends once every touched slice has its agreement (R298). -/
def State.checkAgreed (s : State) (i : Nat) : State :=
  let s := s.noteAgreed i
  match s.vtg.commit with
  | some c =>
    if s.vtState = vtNegotiating ∧ c.slices.all (fun k => s.agreedOn k) = true then s.holdOrArm else s
  | none => s

/-- The number of superframes from now to the boundary that R295 and R258 give slice i: its lead, or the first superframe at or
after a target (`ahead`) where that is later, raised to a superframe at which a block begins. -/
def State.sliceAhead (s : State) (c : Commit) (ahead i : Nat) : Nat :=
  let lead := max 4 (s.rd F.TDL_AGR_CFG_lead [i])
  let d := if s.rd F.VTG_STAT_bd = 4 ∧ s.reached c.target = false then max lead ahead else lead
  if s.blockTied c.image i then ([d, d + 1, d + 2].find? fun n => decide (((s.lfr1 i).txPhase + n) % 3 = 0)).getD d else d

/-- Some channel has members on both slices, before or after the change (R352). -/
def State.shareChannel (s : State) (m : Tab Nat) (i j : Nat) : Bool :=
  channels.any fun c => decide (i ∈ chanSlices s.vtg.current m c ∧ j ∈ chanSlices s.vtg.current m c)

/-- The boundary that each touched slice proposes, as superframes from now: slices that share channels take the latest of
theirs (R295, R352). -/
def State.boundaryAhead (s : State) (c : Commit) (ahead i : Nat) : Nat :=
  let reach := (List.range 8).foldl (fun (l : List Nat) _ =>
    c.slices.filter fun j => decide (j ∈ l) || l.any fun k => s.shareChannel c.image k j) [i]
  (reach.map (s.sliceAhead c ahead)).foldl max (s.sliceAhead c ahead i)

/-- PROPOSE of slice i with the words that R293 lists (R295). -/
def State.sendPropose (s : State) (i : Nat) : State :=
  let x := s.tdl1 i
  s.tdlQueue i tyPropose (wordBytes (s.changeId i) ++ wordBytes (s.rd F.TDL_AGR_BND_value [i]) ++ wordBytes x.kinds
    ++ wordBytes x.summary ++ wordBytes (s.rd F.VTG_SERIAL_PEND_serial))

/-- Slice i answers a proposal it holds under the same id, and proposes the boundary `d` superframes ahead (R295, R296). -/
def State.proposeOn (s : State) (m : Tab Nat) (d i : Nat) : State :=
  let id := s.rd F.TDL_AGR_ID_value [i]
  let s := s.wr F.TDL_AGR_BND_value (s.rd F.LFR_TX_SFC_count [i] + d) [i]
  let s := s.setTdl i { s.tdl1 i with ownId := some id, kinds := lineKinds s.vtg.current m i, summary := txSummary m i }
  let s := if s.bit F.TDL_PROP_STAT_held [i] = true ∧ s.rd F.TDL_PROP_ID_value [i] = id then
      (s.dropHeld i).answer i id (s.rd F.TDL_PROP_BND_value [i]) (s.rd F.TDL_PROP_SUM_value [i])
    else s
  if s.vtState = vtNegotiating then s.sendPropose i else s

/-- NEGOTIATING is entered (R295). A time target's boundary is late where it lies after the first superframe at or after
the target (R132). A failure on one slice ends the proposals. DEDUCED (log 13). -/
def State.negotiate (s : State) (c : Commit) (ahead : Nat) : State :=
  let d := s.boundaryAhead c ahead
  let late := s.reached c.target || c.slices.any fun i => decide (ahead < d i)
  let s := { s with vtg := { s.vtg with commit := some { c with late := late } } }
  forEach (fun i t => if t.vtState = vtNegotiating then t.proposeOn c.image (d i) i else t) c.slices (s.toVt vtNegotiating)

/-- The cutoff of R298: superframe B - 2 has begun on a touched slice; a slice that is no longer LIT agrees to nothing. -/
def State.cutoff (s : State) : Bool :=
  match s.vtg.commit with
  | none => false
  | some c => c.slices.any fun i =>
      let d := (s.rd F.TDL_AGR_BND_value [i] + 2 ^ 24 - s.rd F.LFR_TX_SFC_count [i]) % 2 ^ 24
      !s.lit i || decide (d ≤ 2 ∨ 2 ^ 23 ≤ d)

/-! ### Accepting a commit (R117, R125, R130) -/

/-- The reason of the table "Commit refusals", 0 where a commit at boundary code `bd` is accepted (R130, R477). -/
def State.refusal (s : State) (bd : Nat) : Nat :=
  if s.standby then 1
  else if s.vtState = vtProbation then 2
  else if s.vtState ≠ vtIdle then 1
  else if bd ≤ 2 ∧ s.touchedSlices s.vtg.current s.vtg.staged ≠ [] then 3
  else 0

/-- The next serial (R125). -/
def State.newSerial (s : State) : Nat := nextSerial s.vtg.lastSerial.toNat

/-- A commit is accepted: VALIDATING, with a serial of its own (R117, R125, R127, R146). -/
def State.acceptCommit (s : State) (bd : Nat) (target : BitVec 32) : State :=
  let serial := s.newSerial
  let slices := s.touchedSlices s.vtg.current s.vtg.staged
  let s := forEach (fun i t => t.dropAgreement i) slices8 s
  let s := { s with vtg := { s.vtg with lastSerial := BitVec.ofNat 24 serial,
                                        commit := some ⟨s.vtg.staged, target, false, slices⟩ } }
  let s := (s.wr F.VTG_SERIAL_PEND_serial serial).wr F.VTG_STAT_bd bd
  let s := (s.wr F.VTG_STAT_line (b2n (decide (slices ≠ [])))).wr F.VTG_STAT_domain (s.rd F.VTG_DOM_CFG_dom)
  s.toVt vtValidating

/-! ### Returns (R140, R301, R579) -/

/-- A return announces its boundary, the fourth superframe boundary after the cause, on a slice whose line it touches,
with the change id of the vintage it leaves (R140, R301). -/
def State.announceReturn (s : State) (i : Nat) : State :=
  let b := (s.rd F.LFR_TX_SFC_count [i] + 4) % 2 ^ 24
  let s := s.setTdl i { s.tdl1 i with ownRet := some b }
  match (s.tdl1 i).curId with
  | some id => s.tdlQueue i tyReturn (wordBytes id ++ wordBytes b)
  | none => s

/-- A return to PREVIOUS starts; a pending commit ends first with WITHDRAWN. A return that meets an uncorrectable row of PREVIOUS
finds no image (R140, R413, R579). -/
def State.startReturn (s : State) (cause : Nat) : State :=
  if s.bit F.VTG_STAT_prev_valid = false ∨ s.vtState = vtReturning then s
  else
    let r := s.vintRead 2
    if r.1 then r.2 else
    let s := r.2
    let s := if s.commitPending then s.failCommit 9 else s
    let slices := s.touchedSlices s.vtg.current s.vtg.previous
    let s := { s with vtg := { s.vtg with retCause := cause, retLine := decide (slices ≠ []) } }
    let s := forEach (fun i t => t.announceReturn i) slices (s.toVt vtReturning)
    s.mirror 0x03 ([3, s.serialCur, cause] ++ slices.flatMap fun i => [i, (s.rd F.LFR_TX_SFC_count [i] + 4) % 2 ^ 24, 0])

/-- A probation failure of slice-independent or judged kind (R136). -/
def State.failProbation (s : State) (cause : Nat) : State := if s.vtState = vtProbation then s.startReturn cause else s

/-- Slice i is judged by the probation in progress (R136). -/
def State.judged (s : State) (i : Nat) : Bool := decide (s.cur F.VTG_PROB_CFG_judge_mask / 2 ^ i % 2 = 1)

end Sys2Proof.Machine
end

