-- ==== Sys2Proof/Machine/Vintage.lean ====
section
/-!
DEFINITION. The commit machine: staging, commands, validation, the boundary, probation and the return (chapter 05).
-/

namespace Sys2Proof.Machine

/-! ### Changing the vintage in force (R133, R197 to R199, R231, R250, R299, R581) -/

/-- The transmitter of slice i at a boundary that replaces image `old`: a restart of R581, a relock of R250, or a new block
stream of R257. -/
def State.txSwitch (s : State) (old : Tab Nat) (restart : Bool) (i : Nat) : State :=
  let ch := fun (f : Fld) => decide (imgGet old f [i] ≠ s.cur f [i])
  let rate := ch F.TXD_MODE_CFG_baud
  let x := s.tx1 i
  let s :=
    if restart then
      (s.setTx i { x with amp := 0, newStart := true, rate := if rate then .restartRelock else .restart }).wr F.TXD_STAT_muted 1 [i]
    else if rate then s.setTx i { x with newStart := true, rate := .relock }
    else if ch F.TXD_MODE_CFG_const || ch F.TXD_MODE_CFG_entropy || ch F.TXD_MODE_CFG_pilot || ch F.FEC_CODE_CFG_rate then
      s.newStream i
    else s
  s

/-- The receive direction of slice i at the local boundary (R299): it restarts, also where the synthesiser relocks (R250), has changed already, waits for received
superframe `at'`, or changes now. -/
def State.rxLocal (s : State) (old : Tab Nat) (restart : Bool) (at' : Option Nat) (i : Nat) : State :=
  let x := s.rx1 i
  let put := fun (t : State) (m : RxImg) => t.setRx i { x with img := m, rxd := x.rxd.atLocal, due := none }
  let clear := fun (t : State) => t.setTdl i { t.tdl1 i with rxAt := none }
  let rate := decide (imgGet old F.TXD_MODE_CFG_baud [i] ≠ s.cur F.TXD_MODE_CFG_baud [i])
  if restart || rate then
    let t := s.setRx i { x with img := .current, rxd := .current, due := none }
    clear (t.acqRestart i)
  else if x.img ≠ .current then clear ((put s .current).rxdNext .current i)
  else match at' with
    | some b => (put s .previous).setTdl i { s.tdl1 i with rxAt := some b }
    | none => clear ((put s .current).rxdNext .current i)

/-- The converters of slice i at a boundary: a return to PREVIOUS rotates a slice whose trims are loaded, a return from it
rejects NEWEST and is a cause of a run, pending where no run may start (R184, R185, R197, R198). DEDUCED (log 16). -/
def State.calCommit (s : State) (old : Tab Nat) (i : Nat) : State :=
  let was := decide (imgGet old F.CNV_GEN_CFG_use [i] ≠ 0)
  let now := s.curBit F.CNV_GEN_CFG_use [i]
  let loaded := s.lit i || decide (s.sliceState i = slWaking ∧ s.rd F.GLB_SLICE_STAT_wake_step [i] = 4)
  let s := if now && !was && loaded then (s.abortRun i).askRestore i
    else if was && !now then (s.setConv i { s.conv1 i with rejected := true }).runCause i 5 else s
  if s.lit i && (decide (imgGet old F.TXD_MODE_CFG_baud [i] ≠ s.cur F.TXD_MODE_CFG_baud [i])
      || decide (imgGet old F.RXD_MODE_CFG_baud [i] ≠ s.cur F.RXD_MODE_CFG_baud [i])) then s.runCause i 4 else s

/-- PRY at a boundary: disabled ports, and the numbers of a manager (R471, R485). -/
def State.pryCommit (s : State) (old : Tab Nat) : State :=
  let s := forEach (fun p t => if imgGet old F.PRY_PORT_CFG_en [p] ≠ 0 ∧ t.cur F.PRY_PORT_CFG_en [p] = 0 then t.portOff p else t)
    [0, 1, 2, 3, 4, 5] s
  if imgGet old F.PRY_DOM_CFG_role ≠ s.cur F.PRY_DOM_CFG_role ∧ s.cur F.PRY_DOM_CFG_role = 2 then
    ((s.wr F.PRY_DOM_STAT_dom 0).wr F.PRY_DOM_STAT_depth 0).wr F.PRY_DOM_NODE_present 1 [0]
  else s

/-- The VDD request of an image in mV (R522). -/
def vddOf (m : Tab Nat) : Nat := 300 + max 320 (min 520 (imgGet m F.MON_AGE_VDD_vreq))

/-- A boundary that changes the VDD request makes an AVSBus command wait (R522). -/
def State.vddCommit (s : State) (old : Tab Nat) : State :=
  if imgGet old F.MON_AGE_VDD_vreq ≠ s.cur F.MON_AGE_VDD_vreq then
    { s with mon := { s.mon with vddDue := some (vddOf s.vtg.current), vddTry := 0 } }
  else s

/-- Every block goes over to the new CURRENT in one cycle; `old` is the image left, `restart` the slices of R581, and `at'`
gives the received superframe that a slice's receive direction waits for; `early` names the image of those that have gone over. -/
def State.switchBlocks (s : State) (old : Tab Nat) (early : RxImg) (restart : Nat → Bool) (at' : Nat → Option Nat) : State :=
  let s := forEach (fun i t =>
    let t := if t.lit i then (t.txSwitch old (restart i) i).rxLocal old (restart i) (at' i) i else t
    ((t.txCommit i).rxCommit old i).calCommit old i) slices8 s
  let s := ((((s.mapCommit old early).cipCommit).cliCommit old).refLanes).celCommit old
  ((((s.pryCommit old).sourceGone).applyEnables old).poolRecompute).vddCommit old

/-- The commit's record of an agreement becomes that of CURRENT (R301). -/
def State.agreementTaken (s : State) (c : Commit) (i : Nat) : State :=
  let x := s.tdl1 i
  s.setTdl i { x with prevId := x.curId, curId := if i ∈ c.slices then some (s.changeId i) else none, ownId := none,
                      proposed := false, accRx := false, accTx := false, farB := none, farCancel := false,
                      ownRet := none, farRet := none }

/-- The pending commit takes effect (R126, R131 to R136, R300, R477). DEDUCED (log 13). -/
def State.takeEffect (s : State) (c : Commit) : State :=
  let old := s.vtg.current
  let cancelled := c.slices.any fun i => (s.tdl1 i).farCancel
  let late := s.touchedSlices old c.image
  let restart := fun (i : Nat) => decide (i ∈ late ∧ i ∉ c.slices)
  let rxAt := slices8.map fun i => if i ∈ c.slices then (s.tdl1 i).rxAt else none
  let s := if s.bit F.VTG_STAT_prev_valid then s.archiveImage (s.rd F.VTG_SERIAL_PREV_serial) false s.vtg.previous else s
  let exempt := slices8.filter fun i => s.rd F.LFR_STAT_state [i] ≠ 2
  let s := forEach (fun i t => t.agreementTaken c i) slices8 s
  let s := s.vintSet (if s.standby then [(2, 0), (0, 4), (1, 4)] else [(2, 0), (0, 1)])
  let s := { s with vtg := { s.vtg with previous := old, current := c.image, staged := c.image, commit := none,
                                        curValid := true, curDomain := s.bit F.VTG_STAT_domain, lofExempt := exempt,
                                        ucb := [], dlm := [], probTicks := 0 } }
  let s := (s.wr F.VTG_SERIAL_PREV_serial s.serialCur).wr F.VTG_SERIAL_CUR_serial (s.rd F.VTG_SERIAL_PEND_serial)
  let s := ((s.wr F.VTG_STAT_prev_valid 1).wr F.VTG_STAT_last_fail 0).wr F.VTG_STAT_domain 0
  let s := if s.rd F.VTG_STAT_bd = 4 then s.wr F.VTG_STAT_late (b2n c.late) else s
  let s := (s.wr F.VTG_PROB_STAT_elapsed 0).toVt (if s.standby then vtIdle else vtProbation)
  let s := s.switchBlocks old .staged restart fun i => (rxAt.getD i none)
  let s := (s.mirror 0x03 [1, s.serialCur]).raise 0x0C s.serialCur
  if cancelled then s.startReturn 7 else s

/-- The boundary kinds of COMMIT_TAKE_EFFECT: 0 a CFC cycle, 1 a frame, 2 a multiframe, 3 a superframe boundary; each is
also one of the kinds below it. The boundary that VCMT named has come; a slice that is no longer LIT has none to wait for (R132, R295).
DESIGN CHOICE (log 41). -/
def State.boundaryHere (s : State) (c : Commit) (bnd : Nat) : Bool :=
  let bd := s.rd F.VTG_STAT_bd
  if c.slices ≠ [] then
    decide (bnd = 3) && (c.slices.filter fun i => s.lit i).all fun i =>
      decide (s.rd F.LFR_TX_SFC_count [i] = s.rd F.TDL_AGR_BND_value [i])
  else if bd = 4 then c.late || s.reached c.target
  else decide (bd ≤ bnd)

/-- COMMIT_TAKE_EFFECT: at a boundary of kind `bnd` (R132, R133, R135). -/
def execCommitTakeEffect (bnd : Fin 4) (s : State) : Out :=
  .next (
    match s.vtg.commit with
    | some c => if s.vtState = vtArmed ∧ s.boundaryHere c bnd = true then s.takeEffect c else s
    | none => s)

/-! ### The stages before the boundary (R128, R131, R146) -/

/-- VALIDATION_DONE: LOADING, or the failure with the lowest code (R131). -/
def execValidationDone (s : State) : Out :=
  .next (
    match s.vtg.commit with
    | some c =>
      if s.vtState = vtValidating then
        if s.validationCode c.image = 0 then s.toVt vtLoading else s.failCommit (s.validationCode c.image)
      else s
    | none => s)

/-- LOADING_DONE: STAGED is read; `memErr` is an uncorrectable memory error that the read meets beside what the rows hold; `ahead` is
the number of transmit-grid superframes from now to the first that begins at or after a time target (R131, R132, R295, R413). -/
def execLoadingDone (memErr : Bool) (ahead : Nat) (s : State) : Out :=
  .next (
    match s.vtg.commit with
    | some c =>
      if s.vtState = vtLoading then
        let r := s.vintRead 1
        let s := if memErr then (r.2.count (680 + 6) 1).raise 0x32 6 else r.2
        if r.1 || memErr then s.failCommit 7 else if c.slices = [] then s.holdOrArm else s.negotiate c ahead
      else s
    | none => s)

/-- The release of a HELD commit can no longer come: 10 ms before a time target, or the cutoff of R298; the 200 ms of any
other boundary are the event's own (R146). -/
def State.releaseOver (s : State) (c : Commit) : Bool :=
  if s.rd F.VTG_STAT_bd = 4 then s.reached (c.target - 10000000)
  else if c.slices ≠ [] then s.cutoff else true

/-- DOMAIN_RELEASE_DEADLINE (R146). -/
def execDomainReleaseDeadline (s : State) : Out :=
  .next (
    match s.vtg.commit with
    | some c => if s.vtState = vtHeld ∧ s.releaseOver c = true then s.failCommit 10 else s
    | none => s)

/-! ### Staging (R116, R126 to R128, R477) -/

/-- A merge at this address changes STAGED: a V-class field, not of a fused instance (R2, R116). -/
def State.stageable (s : State) (a : Nat) : Bool := (vFields a).isSome && !s.fusedAddr a

/-- The masked merge of VSTG and of the staging window; none where it is refused with an error (R116, R127, R128, R477). It writes
part of a row of the vintage store, which a poisoned row discards (R413). -/
def State.stage (s : State) (a data mask : Nat) : Option State :=
  if s.stageable a && !s.stagedLocked then
    let r := s.memWrite 6 (vintRow 1 a) false
    some (if r.1 then { r.2 with vtg := { r.2.vtg with staged := imgMerge r.2.vtg.staged a data mask } } else r.2)
  else none

/-- A write of go to VTG_STG_CMD (R128, R477). In RETURNING it is carried out, as read is: STAGED is not locked then, and the
host requests that R140 has ignored are taken to be those of VTG_CMD. DESIGN CHOICE (log 41). -/
def State.stageGo (s : State) : State :=
  match (if s.standby then none else
    s.stage (s.rd F.VTG_STG_ADDR_value) (s.rd F.VTG_STG_DATA_value) (s.rd F.VTG_STG_MASK_value)) with
  | some t => t
  | none => s.wr F.VTG_STG_CMD_err 1

/-- A write of read to VTG_STG_CMD (R128). -/
def State.stageRead (s : State) : State :=
  let a := s.rd F.VTG_STG_ADDR_value
  if s.stageable a && !s.stagedLocked then s.wr F.VTG_STG_DATA_value (imgWord s.vtg.staged a)
  else s.wr F.VTG_STG_CMD_err 1

/-- STAGE_GO: a write that sets read as well copies the merged value (R128). -/
def execStageGo (andRead : Bool) (s : State) : Out := .next (if andRead then s.stageGo.stageRead else s.stageGo)
def execStageRead (s : State) : Out := .next s.stageRead

/-! ### VTG_CMD (R127, R134, R136 to R144, R146, R148, R579) -/

/-- A request of VTG_CMD that finds nothing to act on. -/
def State.vtgNomatch (s : State) : State := s.wr F.VTG_CMD_nomatch 1

/-- Host requests that arrive in RETURNING are ignored (R140). -/
def State.hostVtg (s : State) (f : State → State) : State := if s.vtState = vtReturning then s else f s

/-- ret and dom_ret: a return with the cause, unless PREVIOUS is empty or unreadable, or a commit is pending (R140, R142, R413,
R579). -/
def State.vtgReturn (s : State) (cause : Nat) : State :=
  s.hostVtg fun t =>
    if t.bit F.VTG_STAT_prev_valid = false ∨ t.commitPending = true then t.vtgNomatch
    else
      let u := t.startReturn cause
      if u.vtState = vtReturning then u else u.vtgNomatch

/-- Probation ends as passed; PREVIOUS stays valid (R138). -/
def State.endProbation (s : State) : State := if s.vtState = vtProbation then (s.toVt vtIdle).wr F.VTG_STAT_line 0 else s

/-- fail: a host-declared failure while host_en reads 1 (R136, R137). -/
def State.vtgFail (s : State) : State :=
  s.hostVtg fun t => if t.curBit F.VTG_PROB_CFG_host_en then t.failProbation 5 else t

/-- A withdrawal before ARMED (R134). -/
def State.withdraw (s : State) : State := if s.withdrawable then s.failCommit 9 else s

/-- STAGED becomes image `m`, a copy of image `src` of the vintage store or of one from outside it (4). -/
def State.setStaged (s : State) (src : Nat) (m : Tab Nat) : State :=
  ({ s with vtg := { s.vtg with staged := m } }).vintSet [(1, src)]

/-- A load of STAGED by a host request, unless STAGED is locked (R126, R127, R144). -/
def State.loadStaged (s : State) (f : State → State) : State :=
  s.hostVtg fun t => if t.stagedLocked then t.vtgNomatch else f t

/-- The archived image of a serial, while the cellar is available (R144, R400). -/
def State.archived (s : State) (serial : Nat) : Option Archived :=
  if s.bit F.CEL_STAT_avail then s.vtg.archive.find? fun a => decide (a.serial.toNat = serial) else none

/-- An archived image out of the blocks of its slot, in the arbiter's class ARCHIVE: none where a block cannot be read, and the state
after it (R411, R412, R428). -/
def State.readImage (s : State) (a : Archived) : Option (Tab Nat) × State :=
  let bs := blocksOf (archiveAddr a.slot) (6 * a.words)
  let r := s.readBlocks [] bs
  let m := imgPairs [] (bytesWords (bytesAt r.1 (archiveAddr a.slot) (6 * a.words)))
  (if r.2.2.1 then none else some m, r.2.2.2.celAsk 3 ((bs.length * 68 + 127) / 128 + writeGrants true * r.2.1))

/-- The archived image of a serial goes to STAGED; it waits while the cellar does (R144, R398, R412). -/
def State.loadSerial (s : State) (serial : Nat) : State :=
  match s.archived serial with
  | none => s.vtgNomatch
  | some a =>
    if s.celWaits then { s with vtg := { s.vtg with loading := some serial } }
    else match s.readImage a with
      | (some m, t) => t.setStaged 4 m
      | (none, t) => t.vtgNomatch

/-- RESCUE goes to STAGED; one that cannot be read is no image (R144, R413). -/
def State.loadRescue (s : State) : State :=
  let r := s.vintRead 3
  if r.1 then r.2.vtgNomatch else r.2.setStaged 3 s.vtg.rescue

/-- The cellar serves again, or is unavailable: the writes that waited are made, and then the load that waited (R144, R398). -/
def State.celResume (s : State) : State :=
  let s := s.archiveResume
  match s.vtg.loading with
  | none => s
  | some n =>
    let t := { s with vtg := { s.vtg with loading := none } }
    if t.stagedLocked then t.vtgNomatch else t.loadSerial n

/-- release: a HELD commit is ARMED (R146). -/
def State.vtgRelease (s : State) : State := if s.vtState = vtHeld then s.arm else s

def execVtgRet (s : State) : Out := .next (s.vtgReturn 6)
def execVtgDomRet (s : State) : Out := .next (s.vtgReturn 8)
def execVtgAccept (s : State) : Out := .next s.endProbation
def execVtgFail (s : State) : Out := .next s.vtgFail
def execVtgWithdraw (s : State) : Out := .next s.withdraw

/-- reset_staged, load_arch and load_rescue (R126, R144). -/
def State.resetStaged (s : State) : State := s.loadStaged fun t => t.setStaged 0 t.vtg.current
def State.loadArch (s : State) : State := s.loadStaged fun t => t.loadSerial (t.rd F.VTG_ARCH_SEL_serial)
def State.loadStore (s : State) : State := s.loadStaged State.loadRescue

def execVtgResetStaged (s : State) : Out := .next s.resetStaged
def execVtgLoadArch (s : State) : Out := .next s.loadArch
def execVtgLoadRescue (s : State) : Out := .next s.loadStore
def execVtgRelease (s : State) : Out := .next s.vtgRelease

/-! ### Probation (R136 to R139) -/

/-- The limit of a threshold code k: 2^(k - 1), none for 0 (R136). -/
def probLimit (k : Nat) : Option Nat := if k = 0 then none else some (2 ^ (k - 1))

/-- Some judged slice counts more than the limit. -/
def State.overLimit (s : State) (counts : Tab Nat) (k : Nat) : Bool :=
  match probLimit k with
  | none => false
  | some n => slices8.any fun i => s.judged i && decide (n < tabGet 0 counts i)

/-- PROBATION_CHECK_INTERVAL: an interval of 100 ms ends outside RECOVERY; UCB comes before DLM (R136, R137, R139). -/
def execProbationCheckInterval (s : State) : Out :=
  .next (
    if s.probing then
      let ucb := s.overLimit s.vtg.ucb (s.cur F.VTG_PROB_THR_ucb_thr)
      let dlm := s.overLimit s.vtg.dlm (s.cur F.VTG_PROB_THR_dlm_thr)
      let n := s.vtg.probTicks + 1
      let s := { s with vtg := { s.vtg with ucb := [], dlm := [], probTicks := n } }
      let s := s.wr F.VTG_PROB_STAT_elapsed (min 3600 (n / 10))
      if ucb then s.startReturn 2 else if dlm then s.startReturn 3 else s
    else s)

/-- The probation window in seconds (VTG_PROB_CFG.window). -/
def State.window (s : State) : Nat :=
  let w := s.cur F.VTG_PROB_CFG_window
  if w = 0 then 60 else min 3600 w

/-- PROBATION_END: the window's check intervals have passed without a failure (R138). -/
def execProbationEnd (s : State) : Out :=
  .next (if s.probing = true ∧ 10 * s.window ≤ s.vtg.probTicks then s.endProbation else s)

/-! ### Returning (R140, R141, R148) -/

/-- The agreement of PREVIOUS becomes that of CURRENT again. -/
def State.agreementLeft (s : State) (i : Nat) : State :=
  let x := s.tdl1 i
  s.setTdl i { x with curId := x.prevId, prevId := none, ownRet := none, farRet := none }

/-- A worker reports the return from a domain vintage, where its event is not forwarded anyway (R148, R489). -/
def State.reportReturn (s : State) (serial : Nat) : State :=
  if s.vtg.curDomain ∧ s.cur F.PRY_DOM_CFG_role = 1 ∧ s.bit F.HIF_EVT_MAP_en [0x0D] = false then
    s.pryTx 1 ⟨4, 0, 0, s.rd F.PRY_DOM_STAT_dom, [0x0D, serial, s.time.toNat % 2 ^ 24]⟩
  else s

/-- A return takes effect (R126, R141). DEDUCED (log 13). -/
def State.returnEffect (s : State) : State :=
  let left := s.vtg.current
  let serial := s.serialCur
  let s := s.archiveImage serial true left
  let rxAt := slices8.map fun i => (s.tdl1 i).farRet
  let s := forEach (fun i t => t.agreementLeft i) slices8 s
  let s := s.vintSet [(0, 2), (1, 2), (2, 0)]
  let s := { s with vtg := { s.vtg with current := s.vtg.previous, staged := s.vtg.previous, previous := left,
                                        curValid := true } }
  let s := (s.wr F.VTG_SERIAL_CUR_serial (s.rd F.VTG_SERIAL_PREV_serial)).wr F.VTG_SERIAL_PREV_serial 0
  let s := ((s.wr F.VTG_STAT_prev_valid 0).wr F.VTG_STAT_returned 1).wr F.VTG_STAT_last_ret s.vtg.retCause
  let s := (s.wr F.VTG_STAT_line 0).toVt vtIdle
  let s := s.switchBlocks left .previous (fun _ => false) fun i => rxAt.getD i none
  let s := (s.reportReturn serial).raise 0x0D serial
  let s := { s with vtg := { s.vtg with curDomain := false } }
  (s.mirror 0x03 [2, s.serialCur]).raise 0x0C s.serialCur

/-- The boundary of the return has come: the announced superframe on every LIT slice whose line it touches, or any frame
boundary; a slice that is no longer LIT has none to wait for (R140). DESIGN CHOICE (log 41). -/
def State.returnHere (s : State) (superframe : Bool) : Bool :=
  if s.vtg.retLine then
    superframe && (slices8.filter fun i => s.lit i).all fun i =>
      match (s.tdl1 i).ownRet with
      | some b => decide (s.rd F.LFR_TX_SFC_count [i] = b)
      | none => true
  else true

/-- RETURN_TAKE_EFFECT (R140, R141). -/
def execReturnTakeEffect (superframe : Bool) (s : State) : Out :=
  .next (if s.vtState = vtReturning ∧ s.returnHere superframe = true then s.returnEffect else s)

/-! ### The cellar serves again (R397, R398, R400, R419) -/

/-- CELLAR_TRAIN_DONE: `ok` has a bit per trained channel, `dense` a bit per 24 Gb device; what has waited for the training follows
(R397, R398, R400). -/
def execCellarTrainDone (ok dense : BitVec 8) (s : State) : Out :=
  .next (
    if s.cel.training then
      let s := { s with cel := { s.cel with training := false } }
      let s := (s.wr F.CEL_STAT_ch_ok ok.toNat).wr F.CEL_STAT_avail (b2n (decide (ok = 255#8)))
      let s := s.wr F.CEL_STAT_density (b2n (decide (dense = 255#8)))
      let s := if dense ≠ 0#8 ∧ dense ≠ 255#8 then s.wr F.CEL_STAT_mix 1 else s
      let s := s.celLimits.celResume
      if ok = 255#8 then s else s.raise 0x30 (255 - ok.toNat)
    else s)

/-- CEL_PPR_DONE: the repair ends; `clean` says that the row was read back cleanly; what has waited for it follows (R419). -/
def execCelPprDone (clean : Bool) (s : State) : Out :=
  .next (
    if s.rd F.CEL_PPR_CMD_status = 1 then
      let c := if clean then 2 else 5
      ((s.wr F.CEL_PPR_CMD_status c).celResume).raise 0x34 c
    else s)

end Sys2Proof.Machine
end

