-- ==== Sys2Proof/Machine/Agreement.lean ====
section
/-!
DEFINITION. The agreement of line changes through the tendril: the device's message types as they are received, repeats,
holds and the cutoff (chapter 11, R295 to R301).
-/

namespace Sys2Proof.Machine

/-- Slice i is one whose line the pending commit touches. -/
def State.commits (s : State) (i : Nat) : Bool := s.vtg.commit.any fun c => decide (i ∈ c.slices)

/-- A proposal is held, from now, and raises TDL_PROPOSAL: a repeat is acted on again (R293, R296, R297). DEDUCED (log 13). -/
def State.holdProposal (s : State) (i id b kinds summary : Nat) : State :=
  let s := (s.wr F.TDL_PROP_ID_value id [i]).wr F.TDL_PROP_BND_value b [i]
  let s := (s.wr F.TDL_PROP_KND_value kinds [i]).wr F.TDL_PROP_SUM_value summary [i]
  ((s.wr F.TDL_PROP_STAT_held 1 [i]).raise 0x20 (i * 2 ^ 21 + id % 2 ^ 21)).watchProposal i

/-- What a device does with a PROPOSE (R296): with a commit pending, another change id on the slice, or none, is refused with reason 3,
and another summary with reason 2 and the commit's failure, where it can still fail; before NEGOTIATING the proposal is held, and
after it a repeat is accepted again. DEDUCED (log 13). DEDUCED (log 19). -/
def State.onPropose (s : State) (i id b kinds summary : Nat) : State :=
  if s.vtg.commit.isNone then s.holdProposal i id b kinds summary
  else if s.commits i = false ∨ s.changeId i ≠ id then s.sendRefuse i id 3
  else if s.vtState = vtNegotiating then s.answer i id b summary
  else if summary ≠ rxSummary s.pendImg i then
    let s := s.sendRefuse i id 2
    if s.withdrawable then s.failCommit 8 else s
  else if s.vtState = vtHeld ∨ s.vtState = vtArmed then s.tdlQueue i tyAccept (wordBytes id ++ wordBytes b)
  else s.holdProposal i id b kinds summary

/-- PROPOSE (R296, R297). -/
def execPropose (i : Fin 8) (s : State) : Out :=
  .next (match s.tdlHead i (fun t => decide (t = tyPropose)) with
    | some g => (s.tdlPop i).onPropose i (payWord g.body 0) (payWord g.body 1) (payWord g.body 2) (payWord g.body 3)
    | none => s)

/-- ACCEPT: of the own change id and B, in NEGOTIATING (R295, R298). -/
def execAccept (i : Fin 8) (s : State) : Out :=
  .next (match s.tdlHead i (fun t => decide (t = tyAccept)) with
    | some g =>
      let s := s.tdlPop i
      if s.commits i = true ∧ s.vtState = vtNegotiating ∧ payWord g.body 0 = s.changeId i
          ∧ payWord g.body 1 = s.rd F.TDL_AGR_BND_value [i] then
        (s.setTdl i { s.tdl1 i with accRx := true }).checkAgreed i
      else s
    | none => s)

/-- REFUSE: the commit of that change id fails with NO_ACK (R296). -/
def execRefuse (i : Fin 8) (s : State) : Out :=
  .next (match s.tdlHead i (fun t => decide (t = tyRefuse)) with
    | some g =>
      let s := (s.tdlPop i).wr F.TDL_EVT_refused 1 [i]
      if s.commits i = true ∧ s.withdrawable = true ∧ payWord g.body 0 = s.changeId i then s.failCommit 8 else s
    | none => s)

/-- What a device does with a CANCEL (R300). -/
def State.onCancel (s : State) (i id : Nat) : State :=
  let s := if s.bit F.TDL_PROP_STAT_held [i] && decide (s.rd F.TDL_PROP_ID_value [i] = id) then s.dropHeld i else s
  if s.commits i = true ∧ s.changeId i = id then
    if s.withdrawable then s.failCommit 8
    else if s.vtState = vtArmed then s.setTdl i { s.tdl1 i with farCancel := true }
    else s
  else if s.vtState = vtProbation ∧ (s.tdl1 i).curId = some id then s.startReturn 7
  else s

/-- CANCEL (R300). DEDUCED (log 19). -/
def execCancel (i : Fin 8) (s : State) : Out :=
  .next (match s.tdlHead i (fun t => decide (t = tyCancel)) with
    | some g => (s.tdlPop i).onCancel i (payWord g.body 0)
    | none => s)

/-- What a device does with a RETURN: its own return with cause FAR_END, its receive direction at the announced boundary
where it has superframe alignment (R299, R301). -/
def State.onReturn (s : State) (i id b : Nat) : State :=
  if (s.tdl1 i).curId = some id then
    let s := s.startReturn 7
    if s.vtState = vtReturning ∧ s.bit F.LFR_STAT_sf_ok [i] = true then s.setTdl i { s.tdl1 i with farRet := some b } else s
  else s

/-- RETURN (R301). -/
def execReturnMsg (i : Fin 8) (s : State) : Out :=
  .next (match s.tdlHead i (fun t => decide (t = tyReturn)) with
    | some g => (s.tdlPop i).onReturn i (payWord g.body 0) (payWord g.body 1)
    | none => s)

/-- PROPOSAL_HOLD_EXPIRY: REFUSE with reason 1 (R296). -/
def execProposalHoldExpiry (i : Fin 8) (s : State) : Out :=
  .next (
    if s.bit F.TDL_PROP_STAT_held [i] then (s.dropHeld i).sendRefuse i (s.rd F.TDL_PROP_ID_value [i]) 1 else s)

/-- PROPOSE_RETRY: an unaccepted PROPOSE that does not wait already is sent again (R295). -/
def execProposeRetry (i : Fin 8) (s : State) : Out :=
  .next (
    if s.vtState = vtNegotiating ∧ s.commits i = true ∧ (s.tdl1 i).accRx = false
        ∧ (s.tdl1 i).queue.all (fun p => p.typ ≠ tyPropose) = true then s.sendPropose i
    else s)

/-- AGREEMENT_CUTOFF: a commit without every agreement fails with NO_ACK (R298). -/
def execAgreementCutoff (s : State) : Out :=
  .next (if s.vtState = vtNegotiating ∧ s.cutoff = true then s.failCommit 8 else s)

/-- TENDRIL_PACKET_SENT: the last spread symbol has left: the packet counts, the mailbox is free again, a REFUSE is flagged as sent,
and an ACCEPT counts as sent (R294, R298). -/
def execTendrilPacketSent (i : Fin 8) (s : State) : Out :=
  .next (
    match (s.tdl1 i).sending with
    | none => s
    | some p =>
      let s := (s.setTdl i { s.tdl1 i with sending := none }).count (tdlCnt i 0) 1
      let s := if 0x80 ≤ p.typ then s.wr F.TDL_MB_TX_CMD_busy 0 [i] else if p.typ = tyRefuse then s.wr F.TDL_EVT_refused 1 [i] else s
      if p.typ = tyAccept ∧ s.vtState = vtNegotiating ∧ s.commits i = true ∧ payWord p.body 0 = s.changeId i
          ∧ (s.tdl1 i).farB = some (payWord p.body 1) then
        (s.setTdl i { s.tdl1 i with accTx := true }).checkAgreed i
      else s)

end Sys2Proof.Machine
end

