-- ==== Sys2Proof/Machine/Encode.lean ====
section
/-!
DEFINITION. The transmit chain of a slice, from the channels' data to the codes of its DACs, in the order of R19: encryption,
slots, the frame and its overhead, the outer and the inner code, mapping, pilots, tendril, shaping, limiter and pre-emphasis.
-/

namespace Sys2Proof.Machine

/-! ### The outer code (R261, R262) -/

/-- The information stream of an interleave group from its data bits: the parity of the 16 codewords in its last 2,880 bits
(R262). -/
def outerEncode (ib : Nat) (bits : List Bool) : List Bool :=
  let parity := (List.range 16).map fun j =>
    bchParity ((List.range (ib - 180)).map fun c => bits.getD (outerPosition c j) false)
  bits ++ (List.range 180).flatMap fun c => parity.map fun p => p.getD c false

/-! ### The distribution matcher (R254, R255) -/

/-- The amplitude labels of a block from its amplitude bits (R254, R255). -/
def amplitudeBits (c e : Nat) (bits : List Bool) : List Bool :=
  if isPcs c then
    let b := entropyActs (constActs c) e - 128
    let amps := ampSet (constActs c)
    let top := energyMax amps b
    (groupsOf b (blockSymbols c / 32) bits).flatMap fun g => (shellAt amps 128 top (ofBits g)).flatMap (ampLabel c)
  else bits

/-! ### The inner code (R251, R252) -/

/-- One step of an elimination: a row with a one in column c, if any, clears that column in the other rows. A row is its set
of columns and its right-hand side. -/
def eliminate (c : Nat) (rows : List (List Nat × Bool)) : Option (List Nat × Bool) × List (List Nat × Bool) :=
  match rows.find? fun r => decide (c ∈ r.1) with
  | none => (none, rows)
  | some p =>
    let add := fun (r : List Nat × Bool) =>
      (r.1.filter (fun k => decide (k ∉ p.1)) ++ p.1.filter (fun k => decide (k ∉ r.1)), xor r.2 p.2)
    (some p, (rows.erase p).map fun r => if c ∈ r.1 then add r else r)

/-- Solves the checks for the unknown columns `cs`: each pivot leaves its column to those after it. -/
def solve : List Nat → List (List Nat × Bool) → List (Nat × Bool)
  | [], _ => []
  | c :: cs, rows =>
    let e := eliminate c rows
    let rest := solve cs e.2
    let val := fun (k : Nat) => (rest.find? fun p => decide (p.1 = k)).any Prod.snd
    (c, match e.1 with
      | some p => ((p.1.filter fun k => decide (k ≠ c)).map val).foldl xor p.2
      | none => false) :: rest

/-- The parity bits of a mother codeword: those that satisfy every check with its information bits (R251). -/
def ldpcParity (rate : Nat) (info : List Bool) : List Bool :=
  let cols := 64 * ldpcInfoCols rate
  let rows := (List.range (64 * ldpcRows rate)).map fun r =>
    let ks := checkColumns rate r
    (ks.filter fun k => decide (cols ≤ k), ((ks.filter fun k => decide (k < cols)).map fun k => info.getD k false).foldl xor false)
  let n := 64 * ldpcRows rate
  (solve ((List.range n).map fun k => cols + k) rows).map Prod.snd

/-- The sent codeword: the k information bits, then the parity without its last p bits; the s shortened positions are 0 and
not sent (R251). -/
def ldpcEncode (rate : Nat) (info : List Bool) : List Bool :=
  let p := ldpcParity rate (info ++ List.replicate (ldpcShort rate) false)
  info ++ p.take (64 * ldpcRows rate - ldpcPunct rate)

/-- One block's label bits in output order from its I_b information bits (R236, R251 to R255). -/
def blockLabels (c e rate : Nat) (bits : List Bool) : List Bool :=
  let a := blockInfo c e rate - (ldpcK rate - ampPositions c)
  toLabels c (ldpcEncode rate (amplitudeBits c e (bits.take a) ++ bits.drop a))

/-- The label bits of an interleave group from its 16 (I_b - 180) data bits (R259 to R262). -/
def groupLabels (c e rate : Nat) (bits : List Bool) : List Bool :=
  let ib := blockInfo c e rate
  (groupsOf ib 16 (outerEncode ib bits)).flatMap (blockLabels c e rate)

/-! ### The settings of a transmitter -/

/-- Constellation, entropy, pilot period, LDPC rate and symbol rate code in force at slice i's transmitter. -/
structure TxSet where
  const  : Nat
  ent    : Nat
  pilot  : Nat
  rate   : Nat
  baud   : Nat

def State.txSet (s : State) (i : Nat) : TxSet :=
  let c := constActs (s.cur F.TXD_MODE_CFG_const [i])
  { const := c, ent := entropyActs c (s.cur F.TXD_MODE_CFG_entropy [i]), pilot := s.cur F.TXD_MODE_CFG_pilot [i],
    rate := s.cur F.FEC_CODE_CFG_rate [i], baud := s.cur F.TXD_MODE_CFG_baud [i] }

/-! ### Encryption (R333, R356, R357) -/

/-- The channels defined in transmit. -/
def State.txChannels (s : State) : List Nat := channels.filter fun c => definedIn s.vtg.current true c

/-- A frame of a message: its ciphertext, and the message after it (R356). -/
def CipMsg.frame (m : CipMsg) (plain : List Bool) : List Bool × CipMsg :=
  let n := 320 * m.size
  let text := (List.range n).map fun k => plain.getD k false
  let out := List.zipWith xor text (keyStream m.key m.nonce m.sent n)
  let buf := m.part ++ out
  let blocks := (groupsOf 128 (buf.length / 128) buf).map fun b => BitVec.ofNat 128 (ofBits b)
  (out, { m with sent := m.sent + n, part := buf.drop (128 * (buf.length / 128)),
                 ghash := blocks.foldl (ghashStep (hashKey m.key)) m.ghash })

/-- The record of a message that has ended: its overhead and its tag; a message that did not run its multiframe has none
(R312, R357). -/
def CipMsg.record (m : CipMsg) : List Bool :=
  if m.sent = 320 * 256 * m.size then m.aad ++ toBits 128 (gcmTag m.key m.nonce 1 (640 * m.size) m.ghash).toNat else []

/-- A message of channel c starts with the counter and the epoch in force; the protection fields of its record are those of
its start (R312, R350, R357, R359). DESIGN CHOICE (log 41). -/
def State.newMsg (s : State) (c : Nat) : CipMsg × State :=
  let epoch := s.rd F.CIP_CH_STAT_tx_epoch [c]
  let refs := keyRefs s.vtg.current c 0
  let r := s.keyRead (if epoch = 0 then refs.1 else refs.2.1)
  let key := r.1
  let nonce := channelNonce c (s.cur F.CIP_CH_CFG_side [c]) epoch (s.mfc c 0)
  let prot := s.txProtection c
  let aad := (channelRecord c true (decide (epoch = 1)) ((membersOf s.vtg.current c).length - 1) prot.1 prot.2 (s.mfc c 0) 0).take 128
  ({ key := key, nonce := nonce, size := s.cur F.MAP_CH_CFG_size [c], aad := aad, sent := 0, part := [],
     ghash := ghashStep (hashKey key) 0 (BitVec.ofNat 128 (ofBits aad)) }, r.2.2)

/-- A multiframe boundary of the transmit grid: every message ends, its record goes into the new multiframe, and the next
message starts; the counters that have gone on go into the mirror (R312, R356, R360, R362, R475). -/
def State.txMessages (s : State) : State :=
  let ends := s.txChannels.map fun c => (c, ((s.cipTx c).msg.map CipMsg.record).getD [])
  let s := s.cipMultiframe
  (forEach (fun (p : Nat × List Bool) t =>
    let r := t.newMsg p.1
    r.2.setCipTx p.1 { r.2.cipTx p.1 with msg := some r.1, head := p.2 }) ends s).mirrorGrids

/-- A frame of the transmit grid: CLI delivers the next bytes of each channel's stream, and CIP encrypts them (R333, R356,
R382). -/
def State.encryptFrame (s : State) : State :=
  forEach (fun c t =>
    match (t.cipTx c).msg with
    | some m =>
      let p := t.gfpTake c (40 * m.size)
      let r := m.frame (byteBits p.1)
      p.2.setCipTx c { p.2.cipTx c with msg := some r.2, out := r.1 }
    | none => t) s.txChannels s

/-! ### Slots and the frame (R305, R309, R312, R330, R335) -/

/-- The 320 bits of slot context k of slice i: its part of its channel's frame, the same in both legs; zeros where tx_en
reads 0 (R330, R333, R335). -/
def State.slotBits (s : State) (i k : Nat) : List Bool :=
  let zeros := List.replicate 320 false
  if s.curBit F.MAP_SLOT_tx_en [i, k] then
    let c := s.cur F.MAP_SLOT_tx_ch [i, k]
    match [false, true].findSome? fun b => (legContexts s.vtg.current true b c).findIdx? fun e => decide (e = (i, k)) with
    | some n => ((s.cipTx c).out.drop (320 * n)).take 320
    | none => zeros
  else zeros

/-- The record of channel c in a frame of slice i: zeros where the channel has no member on the slice in transmit (R312). -/
def State.recordBits (s : State) (i c : Nat) : List Bool :=
  let r := if definedIn s.vtg.current true c && (membersOf s.vtg.current c).any fun d => decide (d.slice = i) then (s.cipTx c).head else []
  (r ++ List.replicate 256 false).take 256

/-- The length of the frame being built (R303). -/
def State.frameBitsNow (s : State) (i : Nat) : Nat :=
  let t := s.txSet i
  let l := s.lfr1 i
  let j := l.txPhase % hypotheses t.baud t.const t.pilot * 4096 + l.txMfi * 256 + l.txMfas
  let at' := fun (n : Nat) => frameStart t.baud t.const t.ent t.pilot t.rate n
  at' (j + 1) - at' j

/-- The frame that slice i sends now, after its overhead counts have gone on: scrambled from offset 48 (R305, R307, R309).
A STANDBY twin sends its own frames at amplitude 0. -/
def State.buildFrame (s : State) (i : Nat) : List Bool :=
  let l := s.lfr1 i
  let n := rateActs (s.cur F.LFR_TX_CFG_rate [i])
  let overhead := toBits 48 fasWord ++ toBits 8 l.txMfas ++ toBits 4 l.txMfi ++ [s.bit F.LFR_STAT_rdi_tx [i]]
    ++ toBits 4 l.txRec ++ toBits 4 l.txTsm ++ toBits 3 0 ++ toBits 16 (s.txMdo i)
    ++ (l.txBip ++ List.replicate 8 false).take 8
    ++ s.recordBits i (2 * l.txMfas) ++ s.recordBits i (2 * l.txMfas + 1)
  let body := overhead ++ (List.range (320 * n)).flatMap fun k => s.slotBits i k
  scramble (body ++ List.replicate (s.frameBitsNow i - body.length) false)

/-- The frame joins the outer information stream of slice i, whole groups of which are encoded to label bits (R19, R262, R304,
R308). -/
def State.encodeFrame (s : State) (i : Nat) : State :=
  let t := s.txSet i
  let f := s.buildFrame i
  let x := s.tx1 i
  let g := groupBits (blockInfo t.const t.ent t.rate)
  let all := x.info ++ f
  let k := all.length / g
  let labels := x.labels ++ (groupsOf g k all).flatMap (groupLabels t.const t.ent t.rate)
  (s.setTx i { x with info := all.drop (g * k), labels := labels }).setLfr i { s.lfr1 i with txBip := bip8 f }

/-! ### Symbols and samples (R234 to R249) -/

/-- The symbols that the waiting label bits give, pilots included, and the label bits left (R236, R237, R239, R240). -/
def State.txSymbols (s : State) (i : Nat) : List Dual × List Bool :=
  let t := s.txSet i
  let x := s.tx1 i
  let m := labelBits t.const
  let data := x.labels.length / (2 * m)
  let P := pilotOf t.pilot
  let n := symbolsFor P x.pos data
  ((List.range n).map fun j =>
    if isPilot (x.pos + j) P then
      let at' := (x.pos + j) % superframeSymbols t.baud
      ⟨pilotAt false P at', pilotAt true P at'⟩
    else
      let b := x.labels.drop (2 * m * (j - pilotsUpTo P x.pos j))
      ⟨mappedPoint t.const t.ent (b.take m), mappedPoint t.const t.ent ((b.drop m).take m)⟩,
   x.labels.drop (2 * m * data))

/-- The tendril waveform of slice i `n` symbols from now, in the unit of the coefficients: the spread symbols about it, of the packet's
own spreading factor (R279 to R281). -/
def State.tendrilWave (s : State) (i : Nat) (bits : List Bool) (n : Nat) : Int :=
  let filt := fun c => toSigned 12 (s.cur F.TDL_TX_FILT_coef [i, c])
  let sf := (s.tdl1 i).sendSf
  let len : Int := 64 * spreading sf
  let at' := (s.tdl1 i).sent + n
  let k := at' / len
  ([k - 1, k, k + 1].map fun (j : Int) =>
    if 0 ≤ j ∧ j < bits.length then spreadWave filt sf (bits.getD j.toNat false) (at' - len * j) else 0).sum

/-- The tendril is added to data and pilots of both polarisations alike, with phase (1 + j)/√2, at the level of R241; nothing is
added while it is disabled. Results in units of 2^-40. -/
def State.addTendril (s : State) (i : Nat) (l : List Dual) : List Dual :=
  let bits := s.sendingBits i
  let filt := fun c => toSigned 12 (s.cur F.TDL_TX_FILT_coef [i, c])
  let gain := tendrilGain (levelActs (s.cur F.TDL_TX_CFG_level [i])) filt (s.tdl1 i).sendSf
  let on := s.curBit F.TDL_TX_CFG_en [i] && !bits.isEmpty
  (List.range l.length).map fun n =>
    let v := l.getD n ⟨⟨0, 0⟩, ⟨0, 0⟩⟩
    let w := if on then gain * s.tendrilWave i bits n else 0
    let add := fun (c : Cx) => (⟨2 ^ 30 * c.re + w, 2 ^ 30 * c.im + w⟩ : Cx)
    ⟨add v.x, add v.y⟩

/-- The components of a sample that the four DACs take (R247). -/
def dacComponent (d : Nat) (v : Dual) : Int :=
  if d = 0 then v.x.re else if d = 1 then v.x.im else if d = 2 then v.y.re else v.y.im

/-- The codes of DAC d from its samples in units of 2^-70, the last 32 before them newest first, each with whether it was clamped: the
33-tap FIR of R182 and R247, the gain, the code, and the output amplitude in 1/4,000 (R200, R247, R249). -/
def State.dacCodes (s : State) (i d : Nat) (before new : List Dual) : List (Int × Bool) :=
  let taps := (List.range 33).map fun k =>
    (peSum (toSigned 14 (s.cur F.TXD_PE_COEF_coef [i, d, k])) (toSigned 12 (s.rd F.CNV_DAC_TAP_trim [i, d, k]))).1
  let all := before.reverse ++ new
  let off := before.length
  let gain := gainActs (s.cur F.TXD_DAC_CFG_gain [i, d])
  let amp := (s.tx1 i).amp
  (List.range new.length).map fun n =>
    let y := ((List.range 33).map fun k =>
      if k ≤ n + off then taps.getD k 0 * dacComponent d (all.getD (n + off - k) ⟨⟨0, 0⟩, ⟨0, 0⟩⟩) else 0).sum
    -- taps in 2^-12, samples in 2^-70, gain in 2^-10
    let c := dacCode (y * gain) (2 ^ 92)
    (roundChoice (s.free + n) (c.1 * amp) 4000, c.2)

/-- The clamped codes of DAC d count as clipped and set its flag (R200, R247). -/
def State.dacClips (s : State) (i d : Nat) (codes : List (Int × Bool)) : State :=
  let n := codes.countP Prod.snd
  if n = 0 then s else (s.count (8 * i + 4 + d) n).wr F.CNV_STAT_dac_clip (s.rd F.CNV_STAT_dac_clip [i] ||| 2 ^ d) [i]

/-- The DAC codes of slice i join the ring of a capture of them, which holds 2,097,152 instants (R201). -/
def State.captureDacs (s : State) (i : Nat) (dac : List (List Int)) : State :=
  if s.capture.slice.map Fin.val = some i ∧ s.capture.src = 2 ∧ s.rd F.CNV_CAP_STAT_state [i] ≠ 3 then
    let at' := fun (d n : Nat) => ofSigned 8 ((dac.getD d []).getD n 0)
    let new := (List.range (dac.headD []).length).map fun n => [at' 0 n, at' 1 n, at' 2 n, at' 3 n]
    let all := s.capture.dac ++ new
    { s with capture := { s.capture with dac := all.drop (all.length - 2097152) } }
  else s

/-- Slice i puts out the symbols that are ready: tendril, pulse shaping, mask limiter, pre-emphasis, gain, code and amplitude, in
the order of R234; what is amplitude 0 is code 0 (R200, R241, R242, R244, R247, R249). -/
def State.txOutput (s : State) (i : Nat) : State :=
  let t := s.txSet i
  let x := s.tx1 i
  let sy := s.txSymbols i
  let added := s.addTendril i sy.1
  let shaped := pulse (rolloffActs (s.cur F.TXD_PS_CFG_rolloff [i])) x.pos x.shaped.reverse added
  let limited := Config.gainStage (maskGain fun b => s.rd F.TXD_MASK_ATT_att [i, b]) shaped
  let dac := [0, 1, 2, 3].map fun d => s.dacCodes i d x.fir limited
  let d := s.tdl1 i
  let s := s.setTdl i (match d.sending with
    | some _ => { d with sent := d.sent + sy.1.length }
    | none => d)
  let s := ({ s with free := s.free + limited.length }).captureDacs i (dac.map (List.map Prod.fst))
  let s := forEach (fun (p : List (Int × Bool) × Nat) u => u.dacClips i p.2 p.1) dac.zipIdx s
  s.setTx i { x with labels := sy.2, pos := (x.pos + sy.1.length) % superframeSymbols t.baud,
                     shaped := (added.reverse ++ x.shaped).take 64, fir := (limited.reverse ++ x.fir).take 32,
                     dac := dac.map (List.map Prod.fst), sent := x.sent + limited.length,
                     clips := List.zipWith (fun n l => n + l.countP Prod.snd) x.clips dac }

end Sys2Proof.Machine
end

