-- ==== Sys2Proof/Machine/Monitor.lean ====
section
/-!
DEFINITION. Monitor converters, accumulators, injected conversions, calibration, decimation chains, detectors and the
counter windows (chapter 20, R493 to R517).
-/

namespace Sys2Proof.Machine

/-! ### Accumulators (R497, R498, R500) -/

/-- A signed 48-bit sum that saturates, and whether it does. -/
def satSum (a b : Int) : Int × Bool :=
  let c := clampInt (-(2 ^ 47 : Nat)) ((2 ^ 47 : Nat) - 1) (a + b)
  (c, decide (c ≠ a + b))

/-- An unsigned sum that saturates at 2^n - 1, and whether it does. -/
def satCount (n a b : Nat) : Nat × Bool := (min (2 ^ n - 1) (a + b), decide (2 ^ n ≤ a + b))

/-- One clean sample enters an accumulator set, with the cosine and sine of its reference: the set, and saturation. -/
def Acc.add (x : Acc) (v c q : Int) : Acc × Bool :=
  let s := satSum x.sum v
  let sq := satCount 48 x.sumSq (v * v).natAbs
  let n := satCount 24 x.count 1
  let lc := satSum x.cosSum (v * c)
  let lq := satSum x.sinSum (v * q)
  ({ x with sum := s.1, sumSq := sq.1, count := n.1, min := if x.count = 0 ∨ v < x.min then v else x.min,
            max := if x.count = 0 ∨ x.max < v then v else x.max, cosSum := lc.1, sinSum := lq.1 },
   s.2 || sq.2 || n.2 || lc.2 || lq.2)

/-- Word w of MON_ACC and MON_INJ_RES; a result set has words 0 to 6 alone. -/
def Acc.word (x : Acc) (w : Nat) : Nat :=
  let two := fun (i : Int) => ofSigned 48 i
  match w with
  | 0 => two x.sum / 2 ^ 24
  | 1 => two x.sum % 2 ^ 24
  | 2 => x.sumSq / 2 ^ 24
  | 3 => x.sumSq % 2 ^ 24
  | 4 => x.count
  | 5 => ofSigned 14 x.min * 2 ^ 10
  | 6 => ofSigned 14 x.max * 2 ^ 10
  | 7 => two x.cosSum / 2 ^ 24
  | 8 => two x.cosSum % 2 ^ 24
  | 9 => two x.sinSum / 2 ^ 24
  | 10 => two x.sinSum % 2 ^ 24
  | 11 => x.ovr
  | 12 => x.dirty
  | _ => 0

def State.liveAcc (s : State) (n : Nat) : Acc := tabGet Acc.zero s.mon.live n
def State.setAcc (s : State) (n : Nat) (x : Acc) : State :=
  { s with mon := { s.mon with live := tabPut Acc.zero s.mon.live n x } }

/-- The frequency that MON_DR_CFG[k].freq acts as (R498). -/
def State.ditherFreq (s : State) (k : Nat) : Nat := min 5000000 (max 1000 (s.rd F.MON_DR_CFG_freq [k]))

/-- A conversion clock at 20 MHz passes for the four numerically controlled oscillators (R498). -/
def State.ditherTurn (s : State) : State :=
  { s with mon := { s.mon with
      phase := (List.range 4).map fun k => (k, (tabGet 0 s.mon.phase k + 2 * s.ditherFreq k) % 40000000) } }

/-- The phase of dither reference k at a conversion clock edge, or `odd` 25 ns after it, in units of 2^-64 (R496, R498). -/
def State.ditherAngle (s : State) (k : Nat) (odd : Bool) : Int :=
  let p := Config.ditherStart k + tabGet 0 s.mon.phase k + (if odd then s.ditherFreq k else 0)
  2 * fxPi * (p % 40000000 : Nat) / 40000000

/-- A value in units of 2^-64 as a 12-bit Q1.11 value; no rule states its rounding. DESIGN CHOICE (log 2). -/
def toQ11 (v : Int) : Int := clampInt (-2048) 2047 (roundOpen (2048 * v) (2 ^ 64))

/-- Cosine and sine of dither reference k (R498). -/
def State.dither (s : State) (k : Nat) (odd : Bool) : Int × Int :=
  (toQ11 (fxCos (s.ditherAngle k odd)), toQ11 (fxSin (s.ditherAngle k odd)))

/-- The pin DITHER[k]: a square wave in phase with the cosine (R498). -/
def State.ditherPin (s : State) (k : Nat) : Bool := decide (0 ≤ fxCos (s.ditherAngle k false))

/-- The test DAC drives input n (R507). DEDUCED (log 29). -/
def State.onTestDac (s : State) (n : Nat) : Bool := s.bit F.MON_TDAC_CFG_en && decide (s.rd F.MON_TDAC_CFG_min = n)

/-- Input n was switched to or from the test DAC within the last 1 µs (R507). -/
def State.tdacDirty (s : State) (n : Nat) : Bool :=
  match tabGet none s.mon.tdacAt n with
  | some t => decide ((s.time - t).toNat < 1000)
  | none => false

/-! ### Decimation chains (R508 to R512) -/

def State.dc (s : State) (c : Nat) : Dc := tabGet Dc.fresh s.mon.dcs c
def State.setDc (s : State) (c : Nat) (x : Dc) : State :=
  { s with mon := { s.mon with dcs := tabPut Dc.fresh s.mon.dcs c x } }

/-- N and D of chain c. -/
def State.dcOrder (s : State) (c : Nat) : Nat := 3 + min 2 (s.rd F.MON_DC_CFG_order [c])
def State.dcDec (s : State) (c : Nat) : Nat := max 3 (s.rd F.MON_DC_CFG_dec [c]) + 1

/-- Taps T of a response (R509). -/
def respTaps (r : Nat) : Nat := if r = 0 then 1 else if r ≤ 15 then 31 else 63

/-- The shift of stage k, from 0, of a shift register's 20 bits. -/
def stageShift (field k : Nat) : Nat := field / 2 ^ (16 - 4 * k) % 16

/-- A stage's output: the 48-bit value shifted right with sign fill. -/
def shifted (v sh : Nat) : Int := toSigned 48 v / (2 ^ sh : Nat)

/-- One sample through the integrators from stage k on: what leaves the last, and the registers. -/
def integrate (field : Nat) : Nat → Int → List Nat → Int × List Nat
  | _, v, [] => (v, [])
  | k, v, a :: as =>
    let a' := ofSigned 48 (a + v)
    let r := integrate field (k + 1) (shifted a' (stageShift field k)) as
    (r.1, a' :: r.2)

/-- One decimated sample through the combs from stage k on. -/
def comb (field : Nat) : Nat → Int → List Nat → Int × List Nat
  | _, v, [] => (v, [])
  | k, v, a :: as =>
    let x := ofSigned 48 v
    let r := comb field (k + 1) (shifted (ofSigned 48 ((x : Int) - a)) (stageShift field k)) as
    (r.1, x :: r.2)

/-- Coefficient k of response r in units of 2^-23: unity DC gain makes them add up to 1 (R509). -/
def compCoef (r k : Nat) : Int :=
  if r = 0 then 2 ^ 23
  else if k = respTaps r / 2 then
    2 ^ 23 - (((List.range (respTaps r)).filter fun j => decide (j ≠ k)).map fun j => (Config.compRom r j).toInt).sum
  else (Config.compRom r k).toInt

/-- The output of response r over a delay line, newest first, in units of 2^-23 (R509). -/
def response (r : Nat) (line : List Int) : Int :=
  ((List.range (respTaps r)).map fun (k : Nat) => compCoef r k * line.getD k 0).sum

/-- A chain reset: zero registers, U outputs to settle (R510). A cross-fade and a held request go on. -/
def State.resetChain (s : State) (c : Nat) : State :=
  let x := s.dc c
  let u := s.dcOrder c + respTaps (s.rd F.MON_DC_STAT_r_now [c])
  (s.setDc c { x with ints := [0, 0, 0, 0, 0], combs := [0, 0, 0, 0, 0], n := 0, line := [], settle := u }).wr
    F.MON_DC_STAT_unsettled 1 [c]

/-- MON_DC_STAT.held: a request is held, or R501 has acted since the last output. -/
def State.dcHeld (s : State) (c : Nat) : State :=
  s.wr F.MON_DC_STAT_held (b2n ((s.dc c).request.isSome || (s.dc c).heldIn)) [c]

/-- The greatest r with r² ≤ n, from bit b down. -/
def rootBits (n : Nat) : Nat → Nat → Nat
  | 0, r => r
  | b + 1, r => rootBits n b (if (r + 2 ^ b) * (r + 2 ^ b) ≤ n then r + 2 ^ b else r)

/-- The detectors take a settled output (R512). The rounding of the RMS and of the envelope is free. -/
def State.detectors (s : State) (c : Nat) (y : Int) : State :=
  let m := y.natAbs
  let s := if s.rd F.MON_DC_PEAK_value [c] < m then s.wr F.MON_DC_PEAK_value m [c] else s
  let e := s.rd F.MON_DC_ENV_value [c]
  let k := if e < m then s.rd F.MON_DC_DET_att [c] else s.rd F.MON_DC_DET_rel [c]
  let r := s.roundFree ((e : Int) * (2 ^ k : Nat) + ((m : Int) - e)) (2 ^ k)
  let s := r.2.wr F.MON_DC_ENV_value r.1.toNat [c]
  let x := s.dc c
  let w := 2 ^ s.rd F.MON_DC_DET_wrms [c]
  let sum := x.rmsSum + m * m
  if x.rmsN + 1 < w then s.setDc c { x with rmsSum := sum, rmsN := x.rmsN + 1 }
  else
    let q := rootBits (sum / w) 25 0
    let up := decide (q * q * w ≠ sum) && Config.freeBool s.free
    let s := { s with free := s.free + 1 }
    (s.setDc c { x with rmsSum := 0, rmsN := 0 }).wr F.MON_DC_RMS_value (q + b2n up) [c]

/-- An output of the compensator that 24 bits hold; no rule says what leaves it where they do not: a free value (R509).
DESIGN CHOICE (log 2). -/
def State.signedOpen (s : State) (v : Int) : Int × State :=
  if -(2 ^ 23 : Nat) ≤ v ∧ v < (2 ^ 23 : Nat) then (v, s) else (toSigned 24 s.takeWord.1, s.takeWord.2)

/-- A chain's output (R508 to R512): `v` leaves the last comb, before saturation. -/
def State.chainOutput (s : State) (c : Nat) (v : Int) : State :=
  let y0 := clampInt (-(2 ^ 23 : Nat)) ((2 ^ 23 : Nat) - 1) v
  let sat := decide (y0 ≠ v)
  let s := if sat then s.wr F.MON_DC_STAT_sat 1 [c] else s
  let x := s.dc c
  let line := (y0 :: x.line).take 63
  let r := s.rd F.MON_DC_STAT_r_now [c]
  let fading := s.bit F.MON_DC_STAT_fading [c]
  let k := min x.fadeLen (x.fadeNow + 1)
  let o := response x.fadeOld line
  let f := if fading then s.roundFree (o * x.fadeLen + (response r line - o) * k) (2 ^ 23 * x.fadeLen)
    else s.roundFree (response r line) (2 ^ 23)
  let g := f.2.signedOpen f.1
  let y := g.1
  let s := g.2.setDc c { x with line := line, settle := x.settle - 1, fadeNow := if fading then k else x.fadeNow,
                                heldIn := false }
  let unsettled := decide (x.settle ≠ 0)
  let seq := (s.rd F.MON_DC_SEQ_value [c] / 2 ^ 12 + 1) % 4096
  let held := s.rd F.MON_DC_STAT_held [c]
  let s := (s.wr F.MON_DC_OUT_value (ofSigned 24 y) [c]).wr F.MON_DC_SEQ_value (seq * 2 ^ 12) [c]
  let s := (s.wr F.MON_DC_STAT_unsettled (b2n unsettled) [c]).dcHeld c
  let s := if unsettled then s else s.detectors c y
  if s.bit F.MON_DC_CFG_tel [c] then
    s.pushAll 33 ([c * 2 ^ 18 + 4, seq * 2 ^ 12 + b2n unsettled * 2 ^ 11 + held * 2 ^ 10 + b2n sat * 2 ^ 9
      + b2n fading * 2 ^ 8, ofSigned 24 y, s.time.toNat % 2 ^ 24].map (BitVec.ofNat 24))
  else s

/-- A chain takes one input sample (R508); `held`: the last clean one stands in for a dirty one (R501). -/
def State.chainInput (s : State) (c : Nat) (v : Int) (held : Bool) : State :=
  let x := s.dc c
  let n := s.dcOrder c
  let i := integrate (s.rd F.MON_DC_SHI_shift [c]) 0 v (x.ints.take n)
  let x := { x with ints := i.2 ++ x.ints.drop n, n := x.n + 1, heldIn := x.heldIn || held }
  let s := (s.setDc c x).dcHeld c
  if x.n < s.dcDec c then s
  else
    let k := comb (s.rd F.MON_DC_SHC_shift [c]) 0 i.1 (x.combs.take n)
    (s.setDc c { x with combs := k.2 ++ x.combs.drop n, n := 0 }).chainOutput c k.1

def chainsAll : List Nat := List.range 64

/-- A sample of monitor input n feeds every chain whose source it is. -/
def State.feedChains (s : State) (n : Nat) (v : Int) (held : Bool) : State :=
  forEach (fun c t =>
    if t.rd F.MON_DC_CFG_src [c] = 0 ∧ t.rd F.MON_DC_CFG_sel [c] = n then t.chainInput c v held else t) chainsAll s

/-- One frame of the RXD monitor taps of slice i feeds the chains that name them; 0x80_0000 is a dirty sample (R508). -/
def State.feedTaps (s : State) (i : Nat) : State :=
  forEach (fun c t =>
    let sel := t.rd F.MON_DC_CFG_sel [c]
    if t.rd F.MON_DC_CFG_src [c] = 1 ∧ sel / 16 = i then
      let w := t.rd F.RXD_MON_value [i, sel % 16]
      if w = 0x800000 then t.chainInput c (t.dc c).lastIn true
      else
        let v := toSigned 24 w
        (t.setDc c { t.dc c with lastIn := v }).chainInput c v false
    else t) chainsAll s

/-- A request for response r with its fade (R511). -/
def State.requestResp (s : State) (c r fade : Nat) : State :=
  let len := min 1024 (max 16 fade)
  let x := s.dc c
  let now := s.rd F.MON_DC_STAT_r_now [c]
  if s.bit F.MON_DC_STAT_fading [c] then (s.setDc c { x with request := some (r, len) }).dcHeld c
  else if r = now then s
  else
    let s := s.setDc c { x with fadeOld := now, fadeLen := len, fadeNow := 0 }
    (s.wr F.MON_DC_STAT_r_now r [c]).wr F.MON_DC_STAT_fading 1 [c]

/-- DC_RESP_REQUEST: a write of MON_DC_RESP[c] (R511). -/
def execDcRespRequest (c : Fin 64) (r : Fin 32) (fade : BitVec 10) (s : State) : Out :=
  .next (s.whenOpen 14 fun s => ((s.wr F.MON_DC_RESP_r r [c]).wr F.MON_DC_RESP_fade fade.toNat [c]).requestResp c r fade.toNat)

/-- DC_FADE_END: the last output of a cross-fade has left; a held request starts (R511). -/
def execDcFadeEnd (c : Fin 64) (s : State) : Out :=
  .next (
    let x := s.dc c
    if s.bit F.MON_DC_STAT_fading [c] = true ∧ x.fadeNow = x.fadeLen then
      let s := (s.setDc c { x with request := none }).wr F.MON_DC_STAT_fading 0 [c]
      (match x.request with
        | some (r, len) => s.requestResp c r len
        | none => s).dcHeld c
    else s)

/-! ### Sampling (R494 to R507) -/

/-- The input that converter a samples next, with the position after it; none where it samples nothing. -/
def State.nextInput (s : State) (a : Nat) : Option (Nat × Nat) :=
  if s.bit F.MON_SEQ_CTL_running then
    match tabGet none s.mon.prv (a / 2) with
    | some n => some (n, 0)
    | none =>
      let mask := s.rd F.MON_SEQ_CFG_mask [a]
      let on := [0, 1, 2, 3, 4, 5, 6, 7].filter fun p => decide (mask / 2 ^ p % 2 = 1)
      let pos := tabGet 0 s.mon.pos a
      match on.find? fun p => decide (pos ≤ p) with
      | some p => some (8 * a + p, p + 1)
      | none => on.head?.map fun p => (8 * a + p, p + 1)
  else none

/-- A sample of input n on converter a: the clamped code, whether it is dirty, and the state with its over-range and
dirty counts (R500, R507). -/
def State.convertInput (s : State) (a n : Nat) (code : Int) : Int × Bool × State :=
  let v := if s.onTestDac n then ((s.rd F.MON_TDAC_CFG_code : Int) - 512) * 16 else code
  let c := clampInt (-8192) 8191 v
  let past := decide (c ≠ v)
  let left := tabGet 0 s.mon.dirty a
  let dirty := decide (left ≠ 0) || s.tdacDirty n
  let x := s.liveAcc n
  let o := satCount 24 x.ovr (b2n past)
  let d := satCount 24 x.dirty (b2n dirty)
  let s := s.setAcc n { x with ovr := o.1, dirty := d.1 }
  let s := if past then s.wr F.MON_IN_STAT_ovr 1 [n] else s
  let s := if o.2 || d.2 then s.wr F.MON_IN_STAT_sat 1 [n] else s
  (c, dirty, { s with mon := { s.mon with dirty := tabPut 0 s.mon.dirty a (if past then 3 else left - 1) } })

/-- A conversion of the regular sequence (R497, R500, R501). -/
def State.sampleRegular (s : State) (a n : Nat) (code : Int) : State :=
  let r := s.convertInput a n code
  let s := r.2.2
  if r.2.1 then s.feedChains n (tabGet 0 s.mon.last n) true
  else
    let odd := (tabGet none s.mon.prv (a / 2)).isSome && decide (a % 2 = 1)
    let w := s.dither (s.rd F.MON_IN_CFG_dr [n]) odd
    let x := (s.liveAcc n).add r.1 w.1 w.2
    let s := s.setAcc n x.1
    let s := if x.2 then s.wr F.MON_IN_STAT_sat 1 [n] else s
    ({ s with mon := { s.mon with last := tabPut 0 s.mon.last n r.1 } }).feedChains n r.1 false

/-- A slot may take a conversion at this edge: it converts already, or 50 ns have passed since its trigger and a held one
is not beyond its deadline (R502, R506). -/
def State.injReady (s : State) (q : Nat) : Bool :=
  let x := s.inj q
  match x.trig with
  | none => false
  | some t =>
    let d := (s.time - t).toNat
    !x.done && (x.began.isSome || (decide (50 ≤ d)
      && (!x.held || decide (d ≤ 1000 * max 1 (s.rd F.MON_INJ_CFG_dl [q])))))

/-- The slot that converter a serves: the one that converts, else the lowest that waits (R502). -/
def State.injServed (s : State) (a : Nat) : Option Nat :=
  let qs := (List.range 16).filter fun q => decide (s.injConv q = a) && s.injReady q
  match qs.find? fun q => (s.inj q).began.isSome with
  | some q => some q
  | none => qs.head?

/-- An injected conversion (R502, R503): dirty ones are skipped. -/
def State.sampleInjected (s : State) (a q : Nat) (code : Int) : State :=
  let x := s.inj q
  let x := if x.began.isSome then x else { x with began := some s.time, left := s.rd F.MON_INJ_CFG_len [q] + 1 }
  let r := s.convertInput a (s.rd F.MON_INJ_CFG_min [q]) code
  if r.2.1 then r.2.2.setInj q x
  else r.2.2.setInj q { x with acc := (x.acc.add r.1 0 0).1, left := x.left - 1, done := decide (x.left ≤ 1) }

/-- Converter a at a conversion clock edge. -/
def State.convertEdge (s : State) (a : Nat) (code : Int) : State :=
  if s.mon.fg / 2 ^ a % 2 = 1 then s
  else
    match s.injServed a with
    | some q => s.sampleInjected a q code
    | none =>
      match s.nextInput a with
      | some (n, pos) =>
        ({ s with mon := { s.mon with pos := tabPut 0 s.mon.pos a pos } }).sampleRegular a n code
      | none => s

/-- The sequences start from position 0, and the privileged pairs are taken (R495, R496). -/
def State.startSequences (s : State) : State :=
  let pairs := (List.range 8).filterMap fun j =>
    if s.bit F.MON_PRV_CFG_en [j] then some (j, some (16 * j + s.rd F.MON_PRV_CFG_sel [j])) else none
  { s.wr F.MON_SEQ_CTL_running 1 with mon := { s.mon with start := false, pos := [], prv := pairs } }

/-- An injection waits or converts on some converter of a mask. -/
def State.injBusy (s : State) (mask : Nat) : Bool :=
  (List.range 16).any fun q => (s.inj q).trig.isSome && !(s.inj q).done && decide (mask / 2 ^ s.injConv q % 2 = 1)

/-- A foreground calibration that waits starts once the injections of its converters are complete (R505). -/
def State.fgBegin (s : State) : State :=
  match s.mon.fgWait with
  | some m => if s.injBusy m then s else { s with mon := { s.mon with fg := m, fgWait := none } }
  | none => s

/-- CONVERSION_CLOCK_EDGE: each converter's reading at this edge, as an unclamped code (R493 to R508, R510).
DEDUCED (log 29). -/
def execConversionClockEdge (codes : List Int) (s : State) : Out :=
  .next (
    let s := ({ s with mon := { s.mon with edges := s.mon.edges + 1 } }).ditherTurn
    let s := match s.mon.msyncAt with
      | some t =>
        if 100 ≤ (s.time - t).toNat then
          forEach (fun c u => u.resetChain c) chainsAll { s with mon := { s.mon with msyncAt := none } } else s
      | none => s
    let s := if s.mon.start then s.startSequences else s
    let s := s.fgBegin
    forEach (fun a t => t.convertEdge a (codes.getD a 0)) (List.range 16) s)

/-- MON_SEQ_GO: the sequences start, or restart, at the next conversion clock edge (R495). -/
def State.monGo (s : State) : State := { s with mon := { s.mon with start := true } }
def execMonSeqGo (s : State) : Out := .next (s.whenOpen 14 State.monGo)

/-- MON_SEQ_STOP: the sequences end (R495). -/
def State.monStop (s : State) : State :=
  { s.wr F.MON_SEQ_CTL_running 0 with mon := { s.mon with start := false } }
def execMonSeqStop (s : State) : Out := .next (s.whenOpen 14 State.monStop)

/-- ACC_SNAP: the live accumulators go to the read bank (R499). -/
def State.accSnap (s : State) : State :=
  let live := if s.bit F.MON_ACC_CMD_clr then [] else s.mon.live
  ({ s with mon := { s.mon with bank := s.mon.live, live := live } }).raise 0x48 0
def execAccSnap (s : State) : Out := .next (s.whenOpen 14 State.accSnap)

/-- A go at an injection slot: a trigger, or arming for its device event (R502). -/
def State.injGo (s : State) (q : Nat) : State :=
  let t := s.rd F.MON_INJ_CFG_trig [q]
  if t = 0 ∨ t = 3 then s.injTrigger q
  else if t = 2 then s.setInj q { s.inj q with armed := true }
  else s
def execInjectionTrigger (q : Fin 16) (s : State) : Out := .next (s.whenOpen 14 fun s => s.injGo q)

/-- INJECTION_DONE: the burst's results and its first instant are delivered (R503, R506). -/
def execInjectionDone (q : Fin 16) (s : State) : Out :=
  .next (
    let x := s.inj q
    if x.done then
      let st := if x.held then 2 else 1
      let t := (x.began.getD 0).toNat
      let s := { s with mon := { s.mon with injRes := tabPut Acc.zero s.mon.injRes q x.acc } }
      let s := (s.setInj q Inj.fresh).wr F.MON_INJ_STAT_status st [q]
      let s := (s.wr F.MON_INJ_STAT_time_hi (t / 2 ^ 24) [q]).wr F.MON_INJ_TIME_L_time_lo (t % 2 ^ 24) [q]
      s.raise 0x49 (st * 2 ^ 22 + q)
    else s)

/-- INJECTION_MISSED: a held injection past its deadline is dropped (R506). DEDUCED (log 29). -/
def execInjectionMissed (q : Fin 16) (s : State) : Out :=
  .next (
    let x := s.inj q
    match x.trig with
    | some t =>
      if x.held = true ∧ x.began = none ∧ 1000 * max 1 (s.rd F.MON_INJ_CFG_dl [q]) < (s.time - t).toNat then
        (s.setInj q Inj.fresh).wr F.MON_INJ_STAT_status 3 [q]
      else s
    | none => s)

/-! ### Calibration (R504 to R506) -/

/-- A background turn of converter a begins, or none. -/
def State.bgTurn (s : State) (a : Nat) : State :=
  if s.bit F.MON_CAL_CFG_bg_en then
    { s.wr F.MON_CAL_CFG_bg_pos a with mon := { s.mon with bgStage := 1, bgNext := (a + 1) % 16 } }
  else { s.wr F.MON_CAL_CFG_bg_pos 16 with mon := { s.mon with bgStage := 0, bgNext := a } }

/-- BG_CAL_TURN: MATCH goes on to TAKE, TAKE to HAND BACK and the next converter's turn (R504). -/
def execBgCalTurn (s : State) : Out :=
  .next (
    if s.mon.bgStage = 1 then { s with mon := { s.mon with bgStage := 2 } }
    else s.bgTurn s.mon.bgNext)

/-- FG_CAL_START: a foreground calibration of the converters in mask; a background turn on one of them is abandoned, and a
request during a calibration is held (R505, R506). -/
def State.fgRequest (s : State) (mask : Nat) : State :=
  if s.bit F.MON_CAL_CMD_busy then { s with mon := { s.mon with fgHeld := some (mask ||| s.mon.fgHeld.getD 0) } }
  else
    let s := if s.mon.bgStage ≠ 0 ∧ mask / 2 ^ s.rd F.MON_CAL_CFG_bg_pos % 2 = 1 then s.bgTurn s.mon.bgNext else s
    let s := s.wr F.MON_CAL_CMD_busy 1
    ({ s with mon := { s.mon with fgWait := some mask } }).fgBegin
def execFgCalStart (s : State) : Out := .next (s.whenOpen 14 fun s => s.fgRequest (s.rd F.MON_CAL_CMD_mask))

/-- FG_CAL_END: the calibration ends, and a held request starts (R505, R506). -/
def execFgCalEnd (s : State) : Out :=
  .next (
    if s.mon.fgWait = none ∧ s.bit F.MON_CAL_CMD_busy = true then
      let h := s.mon.fgHeld
      let s := { s.wr F.MON_CAL_CMD_busy 0 with mon := { s.mon with fg := 0, fgHeld := none } }
      match h with
      | some m => s.fgRequest m
      | none => s
    else s)

/-! ### Synchronisation (R510) -/

/-- MSYNC_FALL: a falling edge; the chains reset at the first conversion clock edge at least 100 ns later. -/
def State.msyncFall (s : State) : State := { s with mon := { s.mon with msyncAt := some s.time } }
def execMsyncFall (s : State) : Out := .next s.msyncFall

/-- SYNC_GO: the device drives MSYNC low, which is a falling edge for itself too. -/
def State.syncGo (s : State) : State := { s.msyncFall with mon := { s.msyncFall.mon with msync := s.mon.msync + 1 } }
def execSyncGo (s : State) : Out := .next (s.whenOpen 14 State.syncGo)

/-! ### Performance counters (R513 to R517) -/

/-- A counter number that the table of R575 assigns. -/
def assigned (i : Nat) : Bool :=
  let inst := fun (lo hi size n : Nat) => decide (lo ≤ i ∧ i ≤ hi) && decide ((i - lo) % size < n)
  inst 0 63 8 8 || inst 64 79 2 2 || inst 80 399 40 34 || inst 400 463 8 7 || inst 464 527 8 6 || inst 528 575 8 5
    || decide (576 ≤ i ∧ i ≤ 706) && decide (i ≤ 661 ∨ (664 ≤ i ∧ i ≤ 674) ∨ (680 ≤ i ∧ i ≤ 690) ∨ 696 ≤ i)
    || decide (1024 ≤ i ∧ i ≤ 6143) || inst 6144 7167 16 11 || inst 7168 15359 16 9

/-- The value of counter i in a bank; an unassigned one reads 0 (R576). -/
def bankAt (bank : Tab Nat) (i : Nat) : Nat := if assigned i then tabGet 0 bank i else 0

/-- The window in ms that MON_CNT_CFG.win acts as (R514). -/
def State.winMs (s : State) : Nat := min 60000 (max 1 (s.rd F.MON_CNT_CFG_win))

/-- A window boundary: every counter latches, and an automatic snapshot of the accumulators is taken (R499, R514).
DEDUCED (log 29). -/
def State.windowBoundary (s : State) : State :=
  let s := { s with mon := { s.mon with latch := some s.counters } }
  if s.bit F.MON_ACC_CMD_auto then s.accSnap else s

/-- COUNTER_WINDOW_BOUNDARY: while en reads 1, from the first boundary on (R514). -/
def execCounterWindowBoundary (s : State) : Out :=
  .next (
    if s.bit F.MON_CNT_CFG_en = true ∧ (s.bit F.MON_CNT_CFG_tmr_en = false ∨ s.mon.windows = true) then s.windowBoundary
    else s)

/-- The bandwidth of a client in Mb/s: 8 × octets / window, rounded down (R515). -/
def clientBw (old new : Tab Nat) (ms k d : Nat) : Nat :=
  let i := cliCnt k (4 * d)
  8 * ((tabGet 0 new i + 2 ^ 48 - tabGet 0 old i) % 2 ^ 48) / (1000 * ms)

/-- The sum of some fractions, rounded down. -/
def sumFractions (fs : List (Nat × Nat)) : Nat :=
  let r := fs.foldl (fun (a : Nat × Nat) f => (a.1 * f.2 + f.1 * a.2, a.2 * f.2)) (0, 1)
  r.1 / r.2

/-- The bandwidth of every port, FlexE client, channel and slice (R515). -/
def State.bandwidths (s : State) (old new : Tab Nat) : State :=
  let m := s.vtg.current
  let ms := s.winMs
  let clients := clientsOf m
  forEach (fun d t =>
    let t := forEach (fun p u => u.wr F.MON_BW_PORT_mbps (clientBw old new ms p d) [p, d]) portsAll t
    let t := forEach (fun x u => u.wr F.MON_BW_FXC_mbps (clientBw old new ms (64 + x) d) [x, d]) (List.range 512) t
    let bw := fun (c : Nat) => match clients.find? fun e => e.2.1 = c with
      | some e => clientBw old new ms e.1 d
      | none => 0
    let t := forEach (fun c u => u.wr F.MON_BW_CH_mbps (bw c) [c, d]) channels t
    let ctx := contextsOf m (decide (d = 1))
    forEach (fun i u =>
      let cs := ((ctx.filter fun e => e.1 = i).map fun e => e.2.2).eraseDups
      u.wr F.MON_BW_SLICE_mbps (sumFractions (cs.map fun c =>
        (bw c * (ctx.filter fun e => e.1 = i ∧ e.2.2 = c).length, max 1 (imgGet m F.MAP_CH_CFG_size [c])))) [i, d]) slices8 t)
    [0, 1] s

/-- Counters go into the mirror in packets of item 0x07: [first packet, then number, bits 47 to 24, bits 23 to 0 of each
counter that is not 0] (R475). -/
def State.mirrorCounters (s : State) (bank : Tab Nat) : State :=
  match chunksOf 1000 (bank.length / 1000 + 1) bank with
  | [] => s
  | c :: cs =>
    forEach (fun (p : Nat × Tab Nat) t =>
      t.mirror 0x07 (p.1 :: p.2.flatMap fun e => [e.1, e.2 / 2 ^ 24, e.2 % 2 ^ 24])) ((1, c) :: cs.map fun d => (0, d)) s

/-- MON_SNAP: the latched values reach the snapshot bank, the sequence increments, the bandwidths follow (R514, R515). The
mirror carries the snapshot of an ACTIVE twin (R475). -/
def execMonSnap (s : State) : Out :=
  .next (
    match s.mon.latch with
    | none => s
    | some new =>
      let old := s.mon.snap
      let s := { s with mon := { s.mon with latch := none, snap := new } }
      let s := s.wr F.MON_SNAP_STAT_seq (s.rd F.MON_SNAP_STAT_seq + 1)
      ((s.bandwidths old new).raise 0x4A (s.rd F.MON_SNAP_STAT_seq)).mirrorCounters new)

/-- The block code that counter i belongs to (R575). -/
def blockOfCounter (i : Nat) : Nat :=
  if i < 64 then 0x2 else if i < 80 then 0x3 else if i < 400 then 0x5 else if i < 464 then 0x6 else if i < 528 then 0x7
  else if i < 576 then 0xF else if i < 1024 then 0xB else if i < 3072 then 0x8 else if i < 6144 then 0x9 else 0xA

/-- What slot j of function f's counter window shows: the snapshot of its counter, 0 to a VF without the grant (R516). -/
def State.counterSlot (s : State) (f j : Nat) : Nat :=
  let i := 2040 * (tabGet (0 : Word) s.hif.cntPage f).toNat + j
  if f = 0 ∨ (imgGet s.vtg.current F.MON_GRANT_blocks [f]).testBit (blockOfCounter i) = true then bankAt s.mon.snap i else 0

/-- The DW at byte offset 0xC000 + 4k of function f's user page: the slots, and the header at 0xFFC0 (R516).
DEDUCED (log 29). -/
def State.counterWindow (s : State) (f k : Nat) : Nat :=
  if k < 4080 then (let n := s.counterSlot f (k / 2); if k % 2 = 0 then n / 2 ^ 24 else n % 2 ^ 24)
  else if k = 4080 then (tabGet (0 : Word) s.hif.cntPage f).toNat
  else if k = 4081 then s.rd F.MON_SNAP_STAT_seq
  else if k = 4082 then s.winMs
  else 0

/-- COUNTER_SELECT: a write of MON_CNT_SEL latches a live counter (R517, R576). -/
def State.counterSelect (s : State) (v : Nat) : State :=
  let n := bankAt s.counters (v % 2 ^ 14)
  ((s.wr F.MON_CNT_SEL_value v).wr F.MON_CNT_LIVE_H_value (n / 2 ^ 24)).wr F.MON_CNT_LIVE_L_value n
def execCounterSelect (v : Word) (s : State) : Out := .next (s.whenOpen 14 fun s => s.counterSelect v.toNat)

/-- The firing of scheduled timer n at MON (R455, R495, R502, R510, R514). -/
def State.monTimer (s : State) (n : Nat) : State :=
  let s := if s.bit F.MON_SEQ_CTL_tmr_en = true ∧ s.rd F.MON_SEQ_CTL_timer = n then s.monGo else s
  let s := forEach (fun q t =>
    if t.rd F.MON_INJ_CFG_trig [q] = 1 ∧ t.rd F.MON_INJ_CMD_timer [q] = n then t.injTrigger q else t) (List.range 16) s
  let s := if s.bit F.MON_SYNC_CMD_tmr_en = true ∧ s.rd F.MON_SYNC_CMD_timer = n then s.msyncFall else s
  if s.bit F.MON_CNT_CFG_en = true ∧ s.bit F.MON_CNT_CFG_tmr_en = true ∧ s.rd F.MON_CNT_CFG_timer = n
      ∧ s.mon.windows = false then
    ({ s with mon := { s.mon with windows := true } }).windowBoundary
  else s

end Sys2Proof.Machine
end

