-- ==== Sys2Proof/Machine/Boundary.lean ====
section
/-!
DEFINITION. What happens at frame and superframe boundaries: defects and consequent actions at each received frame, the
received superframe that brings in new receive settings, the transmitter's frame and superframe boundaries (R244, R249,
R299, R309, R311, R313, R322 to R326, R483).
-/

namespace Sys2Proof.Machine

/-! ### Received frames (R321 to R326) -/

/-- A defect after its declare and clear conditions: it keeps its state where both hold, or neither (R322). -/
def defectNext (was declare clear : Bool) : Bool :=
  if declare && clear then was else if declare then true else if clear then false else was

/-- A condition in progress: its start, kept while it holds. -/
def sinceNext (since : Option (BitVec 32)) (holds : Bool) (now : BitVec 32) : Option (BitVec 32) :=
  if holds then (match since with | some t => some t | none => some now) else none

/-- A condition has held for some ms (device time). -/
def heldFor (since : Option (BitVec 32)) (now : BitVec 32) (ms : Nat) : Bool :=
  match since with
  | some t => decide (ms * 1000000 ≤ (now - t).toNat)
  | none => false

/-- ns of device time from a start kept as a number. -/
def State.elapsed (s : State) (start : Nat) : Nat := (s.time.toNat + 2 ^ 32 - start % 2 ^ 32) % 2 ^ 32

/-- The conditions of the slice defects in progress: 0 OOF while sync is LOCKED, 1 IF, 2 OOM while IF, 3 IM (R322). -/
def State.noteSince (s : State) (i : Nat) : State :=
  let l := s.lfr1 i
  let locked := decide (s.rd F.FEC_STAT_sync [i] = 2)
  let inF := decide (s.rd F.LFR_STAT_state [i] = 2)
  let inM := s.bit F.LFR_STAT_im [i]
  let conds := [locked && !inF, inF, inF && !inM, inM]
  let since := (List.range 4).foldl (fun (m : Tab (Option (BitVec 32))) k =>
    tabPut none m k (sinceNext (tabGet none m k) (conds.getD k false) s.time)) l.since
  s.setLfr i { l with since := since }

/-- The 1 ms window of dUNC ends (R322). -/
def State.uncWindow (s : State) (i : Nat) : State :=
  let l := s.lfr1 i
  if s.elapsed l.ms < 1000000 then s
  else
    let k := min 20 (max 1 (s.cur F.LFR_DEG_CFG_unc_k [i]))
    let above := decide (l.uncTot < l.uncBad * 2 ^ k)
    s.setLfr i { l with ms := (l.ms + s.elapsed l.ms / 1000000 * 1000000) % 2 ^ 32, uncTot := 0, uncBad := 0,
                        uncRun := if above then l.uncRun + 1 else 0, uncOk := if above then 0 else l.uncOk + 1 }

/-- The 1 s interval of dDEG ends; one in which SSF held counts neither way (R322, R323). -/
def State.degInterval (s : State) (i : Nat) : State :=
  let l := s.lfr1 i
  if s.elapsed l.sec < 1000000000 then s
  else
    let thr := min 977 (max 1 (s.cur F.LFR_DEG_CFG_deg_thr [i]))
    let bad := decide (thr ≤ l.errS)
    let l' := { l with sec := (l.sec + s.elapsed l.sec / 1000000000 * 1000000000) % 2 ^ 32, errS := 0,
                       ssfInS := s.bit F.LFR_STAT_ssf [i] }
    s.setLfr i (if l.ssfInS then l'
      else { l' with degRun := if bad then l.degRun + 1 else 0, degOk := if bad then 0 else l.degOk + 1 })

/-- What one received frame counts: REC, BIP violations, errored frames, RDI runs (R305, R309, R322, R323). -/
def State.countFrame (s : State) (i : Nat) : State :=
  if s.rd F.LFR_STAT_state [i] = 2 ∧ (s.lfr1 i).got ≠ [] then
    let l := s.lfr1 i
    let rdi := l.got.getD 60 false
    let s := (s.count (lfrCnt i 4) (l.gotField 61 4)).count (lfrCnt i 5) l.gotBip
    let s := if l.gotErr then s.count (lfrCnt i 0) 1 else s
    let l := { l with errS := l.errS + b2n l.gotErr }
    s.setLfr i (if s.bit F.LFR_STAT_im [i] then
        { l with rdiRun := if rdi then l.rdiRun + 1 else 0, rdiOk := if rdi then 0 else l.rdiOk + 1 }
      else { l with rdiRun := 0, rdiOk := 0 })
  else s

/-- The value of monitor tap t of a frame, none where nothing has been received to measure it on: pilot SNR as the power of the pilots
over the variance of their errors, the carrier offset, the clock offset, the rotation of the tap matrix, the bulk value plus the
residual that the taps undo, the received power, DGD and PDL of the taps, the tendril's residual, the RMS of the pilots' phase errors
and the mean LLR magnitude (R206, R209, R214, R216, R219, R220, R222, R233). -/
def State.tapValue (s : State) (i t : Nat) (tendril : Word) : Option Int :=
  let d := s.dsp1 i
  let m := d.meas
  let baud := s.rxBaud i
  let per := fun (n : Nat) (v : Int) => if n = 0 then none else some v
  match t with
  | 0 => per m.pilots (ratioDb (262144 * m.pilots) m.errs.1)
  | 1 => per m.pilots (ratioDb (262144 * m.pilots) m.errs.2)
  | 2 => some (roundOpen d.freq 1000)
  | 3 => some d.nco
  | 4 => some (tapRotation d.tapsWere d.taps)
  | 5 => some (toSigned 24 (s.rd F.RXD_CD_EST_cd [i]) + tapResidual baud d.taps)
  | 6 => per m.samples (ratioDb m.power.1 (m.samples * Config.adcFullScale))
  | 7 => per m.samples (ratioDb m.power.2 (m.samples * Config.adcFullScale))
  | 8 => some (tapDgd baud d.taps)
  | 9 => some (tapPdl d.taps)
  | 10 => some tendril.toInt
  | 11 => per m.pilots (sqrtOpen (m.phaseSq / (2 * m.pilots)))
  | 12 => per m.llrs (roundOpen (256 * m.llr : Nat) m.llrs)
  | _ => none

/-- What a frame's pilot SNR leaves: frames in a row below 0 dB in X and in Y, and above 3 dB in both; the measures start again
(R220, R225, R229). -/
def State.noteSnr (s : State) (i : Nat) : State :=
  let d := s.dsp1 i
  let p := 262144 * d.meas.pilots
  let low := fun (run err : Nat) => if p = 0 then run else if p < err then run + 1 else 0
  let good := levelAbove p d.meas.errs.1 12 && levelAbove p d.meas.errs.2 12
  s.setDsp i { d with meas := FrameMeas.none, tapsWere := d.taps,
                      low := (low d.low.1 d.meas.errs.1, low d.low.2 d.meas.errs.2),
                      good := if p = 0 then d.good else if good then d.good + 1 else 0 }

/-- One frame of monitor taps: a tap that is not measured in the present state delivers 0x80_0000 (R233). -/
def State.deliverTaps (s : State) (i : Nat) (tendril : Word) : State :=
  (forEach (fun t u => u.wr F.RXD_MON_value
    (match s.tapValue i t tendril with
      | some v => if tapMeasured t (s.acq i) then (BitVec.ofInt 24 v).toNat else 0x800000
      | none => 0x800000) [i, t]) (List.range 16) s).noteSnr i

/-- TSM of a received frame in multiframe alignment against the recorded agreement; where the received count is not known, only
whether one is recorded can be told (R313). -/
def State.checkTsm (s : State) (i : Nat) : State :=
  let tsm := (s.lfr1 i).gotField 65 4
  if s.bit F.LFR_STAT_im [i] = true ∧ tsm ≠ 15 then
    let b := (s.rd F.LFR_RX_SFC_count [i] + tsm) % 2 ^ 24
    let known := ((s.tdl1 i).agreed.isSome || (s.tdl1 i).curId.isSome)
      && (!s.bit F.LFR_STAT_sf_ok [i] || decide (s.rd F.TDL_AGR_PEER_value [i] = b))
    if known then s else (s.wr F.LFR_EVT_tsm_mis 1 [i]).raise 0x26 (i * 2 ^ 21)
  else s

/-- The frame in hand lies in received superframe `b` or a later one: it follows the last frame received. -/
def State.rxReached (s : State) (i b : Nat) : Bool :=
  let ahead := if (s.lfr1 i).lastMf = some (255, 15) then 1 else 0
  s.bit F.LFR_STAT_sf_ok [i]
    && decide ((s.rd F.LFR_RX_SFC_count [i] + ahead + 2 ^ 24 - b % 2 ^ 24) % 2 ^ 24 < 2 ^ 23)

/-- The receive direction goes over from one image to another at a received superframe; LFR expects the new frame length from the
frame in hand (R299, R321). -/
def State.rxGoes (s : State) (i : Nat) (img : RxImg) : State :=
  let s := s.rxdNext img i
  let s := ((s.setRx i { s.rx1 i with img := img }).rxFollow img i).sourceGone
  s.setLfr i { s.lfr1 i with next := (s.lfr1 i).start + s.rxFrame i }

/-- The received superframe that brings in new receive settings: TDL_AGR_PEER of a commit, or the far end's announced
return (R299, R301). -/
def State.rxBoundary (s : State) (i : Nat) : State :=
  let x := s.tdl1 i
  let img := (s.rx1 i).img
  let s := match x.rxAt with
    | some b =>
      if s.rxReached i b then
        if img = .previous then
          (s.rxGoes i .current).setTdl i { x with rxAt := none }
        else if s.vtState = vtArmed ∧ s.commits i = true then
          (s.rxGoes i .staged).setTdl i { x with rxAt := none }
        else s
      else s
    | none => s
  match x.farRet with
  | some b =>
    if s.vtState = vtReturning ∧ s.rxReached i b = true then
      (s.rxGoes i .previous).setTdl i { s.tdl1 i with farRet := none }
    else s
  | none => s

/-- The slice defects of the table of R322, as (field, declare, clear). -/
def State.defectRules (s : State) (i : Nat) : List (Fld × Bool × Bool) :=
  let l := s.lfr1 i
  let since := fun k => tabGet none l.since k
  let locked := decide (s.rd F.FEC_STAT_sync [i] = 2)
  let los := s.bit F.RXD_ACQ_STAT_los [i]
  let lof := max 1 (s.cur F.LFR_DEF_CFG_lof_t [i])
  let lom := max 1 (s.cur F.LFR_DEF_CFG_lom_t [i])
  let um := max 1 (s.cur F.LFR_DEG_CFG_unc_m [i])
  let dm := min 10 (max 2 (s.cur F.LFR_DEG_CFG_deg_m [i]))
  [(F.LFR_STAT_dlos, los, !los), (F.LFR_STAT_dlob, !locked, locked),
   (F.LFR_STAT_dlof, heldFor (since 0) s.time lof, heldFor (since 1) s.time lof),
   (F.LFR_STAT_dlom, heldFor (since 2) s.time lom, heldFor (since 3) s.time lom),
   (F.LFR_STAT_dunc, decide (um ≤ l.uncRun), decide (um ≤ l.uncOk)),
   (F.LFR_STAT_ddeg, decide (dm ≤ l.degRun), decide (dm ≤ l.degOk)),
   (F.LFR_STAT_dbdi, decide (5 ≤ l.rdiRun), decide (5 ≤ l.rdiOk) || !s.bit F.LFR_STAT_im [i])]

/-- Bits 19 to 11 of LFR_STAT. -/
def State.defectBits (s : State) (i : Nat) : Nat :=
  ([F.LFR_STAT_dlos, F.LFR_STAT_dlob, F.LFR_STAT_dlof, F.LFR_STAT_dlom, F.LFR_STAT_dunc, F.LFR_STAT_ddeg, F.LFR_STAT_dbdi,
    F.LFR_STAT_ssf, F.LFR_STAT_sd].map fun f => s.rd f [i] * 2 ^ (f.lo - 11)).sum

/-- SSF and SD (R324). -/
def State.ssfNow (s : State) (i : Nat) : Bool :=
  [F.LFR_STAT_dlos, F.LFR_STAT_dlob, F.LFR_STAT_dlof, F.LFR_STAT_dlom, F.LFR_STAT_dunc].any (fun f => s.bit f [i])
    || decide (s.rd F.LFR_STAT_state [i] ≠ 2) || !s.bit F.LFR_STAT_im [i]

/-- The consequent actions: SSF, SD, the switch request, which hold-off 0 raises at once (R324, R325). -/
def State.consequent (s : State) (i : Nat) : State :=
  let ssf := s.ssfNow i
  let s := (s.wr F.LFR_STAT_ssf (b2n ssf) [i]).wr F.LFR_STAT_sd (s.rd F.LFR_STAT_ddeg [i]) [i]
  let l := s.lfr1 i
  s.setLfr i { l with ssfInS := l.ssfInS || ssf, reqSf := ssf && (l.reqSf || decide (s.holdoff i = 0)) }

/-- The defects of slice i at a receive frame boundary: their states, LFR_DEFECT once for each change, and loss of frame
for the probation (R136, R322). -/
def State.evaluate (s : State) (i : Nat) : State :=
  let rules := s.defectRules i
  let was := rules.map fun r => s.bit r.1 [i]
  let now := rules.map fun r => defectNext (s.bit r.1 [i]) r.2.1 r.2.2
  let s := forEach (fun (p : (Fld × Bool × Bool) × Bool) t => t.wr p.1.1 (b2n p.2) [i]) (rules.zip now) s
  let s := s.consequent i
  let changes := ((was.zip now).filter fun p => decide (p.1 ≠ p.2)).length
  let s := forEach (fun _ t => t.raise 0x24 (i * 2 ^ 21 + t.defectBits i)) (List.range changes) s
  if was.getD 2 false = false ∧ now.getD 2 false = true ∧ s.judged i = true ∧ i ∉ s.vtg.lofExempt then s.failProbation 1
  else s

/-- DEFECT_EVALUATION: a receive frame boundary of slice i with the frame just received: the samples of a slice that still acquires, what
the frame counts, the defects, its slots into MAP, then the boundary that it may end, and the monitor taps (R23, R206 to R220, R322 to
R325, R233, R339, R508). -/
def execDefectEvaluation (i : Fin 8) (fr : FrameFacts) (s : State) : Out :=
  .next (
    if s.lit i then
      let s := ((s.acquireFrame i fr.samples).countFrame i).checkTsm i
      let s := ((s.noteSince i).uncWindow i).degInterval i
      ((((s.evaluate i).storeFrame i).rxBoundary i).deliverTaps i fr.tendril).feedTaps i
    else ((s.noDefects i).clearTaps i).feedTaps i)

/-! ### Transmitted frames and superframes (R244, R249, R309, R311, R360, R483) -/

/-- The place in its superframe of the frame that slice i sends. -/
def State.txPlace (s : State) (i : Nat) : Nat := (s.lfr1 i).txMfi * 256 + (s.lfr1 i).txMfas

/-- PAIR_MARK pulses at a superframe boundary of the grid, and holds every client egress at idle for 80 ns, 50 ticks (R483). -/
def State.gridMark (s : State) : State :=
  if s.rd F.PRY_TWIN_STAT_pair = 2 ∧ s.bit F.PRY_TWIN_CFG_mark_en = true then
    { s with pry := { s.pry with mark := s.pry.mark + 1, hold := 50 } }
  else s

/-- The grid begins its next frame: at a multiframe boundary the cipher's messages end, and the channels' bits that CLI delivers are
encrypted (R335, R356, R360). -/
def State.gridFrame (s : State) : State :=
  let n := (s.grid.frame + 1) % 4096
  let s := { s with grid := ⟨0, n⟩ }
  let s := (if n % 256 = 0 then s.txMessages else s).encryptFrame
  if n = 0 then s.gridMark else s

/-- The grid stands at the end of a superframe, or has just begun one; while no slice runs on it a slice's own boundary says so: the
frames that its superframe has left are over, with their multiframe boundaries (R335, R360). DEDUCED (log 20). -/
def State.gridSuperframe (s : State) : Option State :=
  if s.gridSlices = [] then
    let t := forEach (fun _ (u : State) => u.txMessages) (List.range (15 - s.grid.frame / 256)) s
    some { t with grid := ⟨0, 4095⟩ }
  else if s.grid.frame = 0 ∨ s.grid.frame = 4095 then some s
  else none

/-- The frame boundary of slice i on the grid: the grid's frame has begun already, or it begins now, once every slice has begun the one
before; a boundary at any other place is none (R335). DEDUCED (log 20). -/
def State.gridTurn (s : State) (i : Nat) : Option State :=
  let j := (s.txPlace i + 1) % 4096
  if j = s.grid.frame then some s
  else if j = (s.grid.frame + 1) % 4096 ∧ (s.gridSlices.all fun k => decide (k = i ∨ s.txPlace k = s.grid.frame)) = true then
    some s.gridFrame
  else none

/-- TX_FRAME_BOUNDARY: the limiter, from the densities measured over the last frame, and the amplitude; then, for a slice that runs on
the grid, the next frame, which is built and encoded, and the symbols that are ready go out; frame j of every slice takes frame j of
each channel (R19, R243, R244, R249, R309, R335, R360). The chain of a slice that drains from LIT goes on, frames and tendril
included, while its output ramps down (R37, R248). DESIGN CHOICE (log 17). -/
def execTxFrameBoundary (i : Fin 8) (psd : List (Nat × Nat)) (s : State) : Out :=
  .next (
    if s.onGrid i then
      match s.gridTurn i with
      | some s => ((((s.maskFrame i psd).ampFrame i).txFrame i).encodeFrame i).txOutput i
      | none => s
    else if s.lit i then (s.maskFrame i psd).ampFrame i
    else if s.sliceState i = slDraining ∧ tabGet false s.ctl.drainShort i = false then
      ((((s.maskFrame i psd).ampFrame i).txFrame i).encodeFrame i).txOutput i
    else s)

/-- A new block stream and frame period begin here where one is due and the synthesiser has locked (R257, R303, R581). -/
def State.streamStart (s : State) (i : Nat) : State :=
  let x := s.tx1 i
  if x.newStart = true ∧ (x.rate = .none ∨ x.rate = .locked ∨ x.rate = .restart) then
    (s.setTx i { x with newStart := false, rate := if x.rate = .restart then .none else x.rate }).newStream i
  else s.setLfr i { s.lfr1 i with txPhase := ((s.lfr1 i).txPhase + 1) % 3 }

/-- TX_SUPERFRAME_BOUNDARY: the count goes on, from 0 in the slice's first superframe, which begins with one of the grid; an agreement
lapses once its superframe has passed, and a new block stream starts (R257, R311, R313, R335). -/
def execTxSuperframeBoundary (i : Fin 8) (s : State) : Out :=
  .next (
    if s.lit i then
      let x := s.tx1 i
      match if x.first then s.gridSuperframe else if s.txPlace i = 4095 then some s else none with
      | none => s
      | some s =>
        let s := if x.first then s.setTx i { s.tx1 i with first := false }
          else s.wr F.LFR_TX_SFC_count (s.rd F.LFR_TX_SFC_count [i] + 1) [i]
        let n := s.rd F.LFR_TX_SFC_count [i]
        let s := s.setLfr i { s.lfr1 i with txMfas := 255, txMfi := 15 }
        let d := s.tdl1 i
        let s := if d.agreed.any (fun b => decide (n = (b + 1) % 2 ^ 24)) then s.setTdl i { d with agreed := none } else s
        s.streamStart i
    else s)

end Sys2Proof.Machine
end

