-- ==== Sys2Proof/Machine/ModeOps.lean ====
section
/-!
DEFINITION. A change of the mode in force, and the exit from RECOVERY (R30 to R34, R59, R451, R538 to R541).
-/

namespace Sys2Proof.Machine

/-- What entering DORMANT stops: the executive, the main loop, the tick clock, the selector, the cellar and the Poryon
ports but the UP port of a worker without PCIe, which is in P-QUIET; an ageing record falls due (R33, R55, R54, R401, R451, R452, R471, R521). -/
def State.goDormant (s : State) : State :=
  let s := ((s.wr F.SEQ_EXEC_STAT_alive 0).wr F.TIM_CLK_STAT_main_lock 0).wr F.TIM_SEL_STAT_state 7
  let s := forEach (fun p t => if p = 1 ∧ t.upClocked = true then t.wr F.PRY_PORT_STAT_pwr 1 [1] else t.portOff p) [0, 1, 2, 3, 4, 5] s
  { s.celSleep.wr F.PRY_TWIN_STAT_pair 0 with tim := { s.tim with selValid := false }, ctl := { s.ctl with powerDown := true },
                                              mon := { s.mon with recDue := true } }

/-- What leaving DORMANT starts: the main loop, the executive, the tick clock, the selector in FREE_RUN, and the training
of the cellar and a sentinel pass fall due, with every gate open (R33, R59, R400, R451, R452, R519). -/
def State.leaveDormant (s : State) : State :=
  let s := ((s.wr F.SEQ_EXEC_STAT_alive 1).wr F.SEQ_EXEC_STAT_rejected 0).wr F.TIM_CLK_STAT_main_lock 1
  let s := s.wr F.TIM_SEL_STAT_state 0
  { s with cel := { s.cel with trainDue := true }, ctl := { s.ctl with powerDown := false, gates := [] },
           mon := { s.mon with ageDue := true } }

/-- The mode in force changes to `new`: prev, req where no request is held, and everything that follows the mode
(R31, R33, R185, R417). -/
def State.enterMode (s : State) (new : Nat) : State :=
  let old := s.mode
  let s := (s.wr F.GLB_MODE_prev old).wr F.GLB_MODE_mode new
  let s := if s.ctl.heldReq then s else s.wr F.GLB_MODE_req new
  let s := if old = modeProving then { s with cel := { s.cel with inj := none } } else s
  let s := if new = modeDormant then s.goDormant else if old = modeDormant then s.leaveDormant else s
  let s := if old = modeDormant ∨ old = modeRecovery then s.wakeAll else s
  let s := forEach (fun i t => t.askRun i) slices8 s
  s.lanesAsk.refLanes.idleClients.roleUpdate

/-- The mode that an exit from RECOVERY leads to: PREPARE where CURRENT cannot be re-applied (R33). -/
def State.exitTarget (s : State) (want : Nat) : Nat := if s.vtg.curValid then want else modePrepare

/-- A slice that carries traffic drains on an exit to PREPARE (R33). -/
def State.exitDrain (s : State) (i : Nat) : State := if s.keptTraffic i then s.drain i else s

/-- A slice that is DRAINING when RECOVERY ends wakes again where CURRENT holds its enable (R33, R38). -/
def State.exitWake (s : State) (i : Nat) : State :=
  if s.sliceState i = slDraining ∧ s.enabled i = true then s.wr F.GLB_SLICE_STAT_wake_pending 1 [i] else s

/-- The device leaves RECOVERY (R33, R538, R540, R577). -/
def State.exitRecovery (s : State) (want : Nat) : State :=
  let new := s.exitTarget want
  let cause := s.rd F.GLB_REC_STAT_cause
  let prev := s.rd F.GLB_MODE_prev
  let s := if new = modePrepare ∧ prev ≠ modePrepare then forEach (fun i t => t.exitDrain i) slices8 s else s
  let s := forEach (fun i t => t.exitWake i) slices8 s
  let s := { s with ctl := { s.ctl with faultsOpen := [], sharedLoop := false, recoverWord := none } }
  (s.enterMode new).raise 0x02 (new + 8 * cause)

end Sys2Proof.Machine
end

