-- ==== Sys2Proof/Machine/Programs.lean ====
section
/-!
DEFINITION. What the executive keeps of the programs: the instruction store and its directory, journal records,
responses, claims, and the ways a program ends (chapter 03, R61, R72 to R85).
-/

namespace Sys2Proof.Machine

/-! ### The instruction store (R61, R93) -/

/-- A word of the instruction store; an unwritten word reads 0. -/
def State.storeWord (s : State) (a : Nat) : Word := (tabGet none s.exec.store (a % 2 ^ 19)).getD 0

/-- The entry address of program p, 0 where the directory names it absent. -/
def State.dirEntry (s : State) (p : Nat) : Nat := (s.storeWord (2 * p)).toNat % 2 ^ 19

/-- The budget of program p in ms: 0 selects 50, values above 50 act as 50. -/
def State.dirBudget (s : State) (p : Nat) : Nat :=
  let b := bitsOf (s.storeWord (2 * p + 1)).toNat 23 16
  if b = 0 then 50 else min 50 b

/-- vf_ok of program p. -/
def State.dirVfOk (s : State) (p : Nat) : Bool := (s.storeWord (2 * p + 1)).getLsbD 15

/-- rec_ok of program p. -/
def State.dirRecOk (s : State) (p : Nat) : Bool := (s.storeWord (2 * p + 1)).getLsbD 14

/-! ### Records and responses (R79 to R83) -/

/-- One journal record: to the ring, or counted there as an overflow, and to the archive in either case (R79, R82); an ACTIVE twin mirrors it (R475). -/
def State.record (s : State) (tag : Word) (program step status sq func fault : Nat) : State :=
  let ws := recordWords tag program step status sq func fault s.time
  ((s.pushAll 32 ws).archiveRecord ws).mirror 0x04 (ws.map BitVec.toNat)

/-- The response of R83 in the ring of the submitting function. -/
def State.respond (s : State) (func program : Nat) (tag : Word) (outcome fault sq step : Nat) (results : List Word) : State :=
  s.pushAll (16 + func) (
    [BitVec.ofNat 24 (program % 4096 * 4096 + (3 + results.length)), tag,
     BitVec.ofNat 24 (outcome * 2 ^ 20 + fault * 2 ^ 16 + sq * 2 ^ 12 + step % 4096)] ++ results)

/-! ### Claims (R75 to R77, R432) -/

/-- The 256 resources. -/
def resources : List Nat := List.range 256

/-- Sequencer q holds resource n. -/
def State.holds (s : State) (q n : Nat) : Bool := decide ((s.claim n).holder = some q)

/-- Some program holds resource n. -/
def State.claimed (s : State) (n : Nat) : Bool := (s.claim n).holder.isSome

/-- The device holds claim 0x1F: a save is due or between its two tries, and no program held the claim before it (R192).
DEDUCED (log 16). -/
def State.deviceCask (s : State) : Bool := !s.claimed 0x1F && slices8.any fun i => decide ((s.conv1 i).saves ≠ [])

/-- Sequencer q may have resource n: nobody holds it, and the device does not (R76). DEDUCED (log 8). -/
def State.freeClaim (s : State) (n : Nat) : Bool := !s.claimed n && !(decide (n = 0x1F) && s.deviceCask)

/-- Sequencer q leaves the waiters of resource n. -/
def State.unqueue (s : State) (q n : Nat) : State :=
  s.setClaim n { s.claim n with waiters := (s.claim n).waiters.filter fun w => w ≠ q }

/-- All claims of sequencer q are freed, and its place among waiters, in one cycle (R77, R110). -/
def State.freeClaims (s : State) (q : Nat) : State :=
  { s with exec := { s.exec with claims :=
      (s.exec.claims.map fun e =>
        (e.1, ({ holder := if e.2.holder = some q then none else e.2.holder,
                 waiters := e.2.waiters.filter fun w => w ≠ q } : Claim))).filter fun e => e.2 ≠ Claim.free } }

/-! ### Ends of programs (R72, R73, R77, R84, R99) -/

/-- Outcome codes of the table "Record status". -/
def stComplete : Nat := 0x8
def stTimeout : Nat := 0x9
def stFault : Nat := 0xA
def stReset : Nat := 0xB
def stPreempted : Nat := 0xC
def stRejected : Nat := 0xD

/-- The receive queue that a port code names in a RECV (R119). -/
def portQueue (src : Nat) : Nat := 34 + src

/-- The sequencers whose RECV from a port has begun no packet, in order of issue (R121). -/
def State.receivers (s : State) (src : Nat) : List Nat := tabGet [] s.exec.recvs src
def State.setReceivers (s : State) (src : Nat) (l : List Nat) : State :=
  { s with exec := { s.exec with recvs := tabPut [] s.exec.recvs src l } }

/-- Sequencer q no longer waits for a packet of a port. -/
def State.unreceive (s : State) (q src : Nat) : State := s.setReceivers src ((s.receivers src).filter fun w => w ≠ q)

/-- A sequencer leaves its wait at once: the waiters of a claim, or the packet that a RECV has begun (R99, R110, R121). -/
def State.leaveWait (s : State) (q : Nat) : State :=
  let s := match (s.seq q).wait with
    | some (.claim n) => s.unqueue q n
    | some (.recv _ _ _ src _ _ true) => s.dropTaken q (portQueue src)
    | some (.recv _ _ _ src _ _ false) => s.unreceive q src
    | _ => s
  s.setSeq q { s.seq q with wait := none }

/-- The rest of the command packet of sequencer q is discarded (R71, R109). -/
def State.leavePacket (s : State) (q : Nat) : State :=
  match (s.seq q).pktQ with
  | some c => (s.dropTaken q c).setSeq q { (s.dropTaken q c).seq q with pktQ := none }
  | none => s

/-- Sequencer q is idle again: claims freed, waits and packet left (R77). Its registers stay readable (R122). -/
def State.releaseSeq (s : State) (q : Nat) : State :=
  let s := ((s.leaveWait q).leavePacket q).freeClaims q
  s.setSeq q { s.seq q with state := .idle, slowUnits := 0 }

/-- The in-flight entry of sequencer q goes with its outcome record (R81). -/
def State.dropInFlight (s : State) (q : Nat) : State :=
  { s with exec := { s.exec with inFlight := tabPut none s.exec.inFlight q none } }

/-- The RECOVER of a restart has ended: the transition that its outcome calls for follows, unless a transition is in
progress or a fault has not cleared (R33, R540). -/
def State.recoverEnded (s : State) (done : Bool) : State :=
  let s := { s with ctl := { s.ctl with recoverRun := false } }
  if s.mode = modeRecovery ∧ s.bit F.GLB_MODE_busy = false ∧ s.ctl.faultsOpen = [] then
    s.exitRecovery (if done then s.rd F.GLB_MODE_prev else modePrepare)
  else s

/-- Sequencer q runs the RECOVER of a restart. -/
def State.runsRecover (s : State) (x : Seq) : Bool :=
  s.ctl.recoverRun && decide (x.tag = 0xF10000 ∧ x.program = 7 ∧ x.func = 0)

/-- The program of sequencer q ends: its outcome record, its response, and its claims in the same cycle (R77, R79, R80, R83).
DEDUCED (log 33). -/
def State.closeProgram (s : State) (q status fault : Nat) (results : List Word) : State :=
  let x := s.seq q
  if x.live then
    let s := (s.record x.tag x.program x.step status q x.func fault).dropInFlight q
    let s := (s.respond x.func x.program x.tag status fault q x.step results).releaseSeq q
    if s.runsRecover x then s.recoverEnded (decide (status = stComplete)) else s
  else s

/-- A program ends by a fault of its own (R79, table "Fault codes"). -/
def State.faultProgram (s : State) (q code : Nat) : State := s.closeProgram q stFault code []

/-- Preempts every running program that `which` names, with a fault code (R84, R85, R160). -/
def State.preempt (s : State) (which : Seq → Bool) (code : Nat) : State :=
  forEach (fun q t => if (t.seq q).live && which (t.seq q) then t.closeProgram q stPreempted code [] else t) programSqs s

/-- The number of idle sequencers among SQ1 to SQ15 (SEQ_EXEC_STAT.idle_sq). -/
def State.idleSqs (s : State) : Nat := (programSqs.filter fun q => decide ((s.seq q).state = .idle)).length

end Sys2Proof.Machine
end

