-- ==== Sys2Proof/Machine/Modes.lean ====
section
/-!
DEFINITION. Mode requests, the end of a transition, fatal faults and RECOVERY, the host clock and host silence
(chapters 02 and 22: R30 to R33, R46 to R50, R534, R538 to R541, R580).
-/

namespace Sys2Proof.Machine

/-! ### Requests (R31 to R33) -/

/-- A request is refused: the mode stays, req reads it, refused is set and MODE_REFUSED raised (R31, R32, R577). -/
def State.refuseMode (s : State) (v : Nat) : State :=
  ((s.wr F.GLB_MODE_req s.mode).wr F.GLB_MODE_refused 1).raise 0x03 (v + 8 * s.mode)

/-- The pair state lets this device enter SERVICE: SOLO, or PAIRED and ACTIVE. -/
def State.pairService (s : State) : Bool :=
  decide (s.rd F.PRY_TWIN_STAT_pair = 0 ∨ (s.rd F.PRY_TWIN_STAT_pair = 2 ∧ s.bit F.PRY_TWIN_STAT_active = true))

/-- The pair state lets this device enter SHADOW: JOINING, or PAIRED and STANDBY. -/
def State.pairShadow (s : State) : Bool :=
  decide (s.rd F.PRY_TWIN_STAT_pair = 1 ∨ (s.rd F.PRY_TWIN_STAT_pair = 2 ∧ s.bit F.PRY_TWIN_STAT_active = false))

/-- A request that the table "Mode transitions" lists and whose condition holds (R32, R33, R47, R55, R547).
DEDUCED (log 12). -/
def State.modeAllowed (s : State) (v : Nat) : Bool :=
  if s.bit F.TIM_CLK_STAT_on_fallback && decide (v ≠ modeDormant) then false
  else if s.mode = modeDormant then
    decide (v = modePrepare ∧ s.ctl.boot = .done ∧ s.rd F.SEQ_PSET_ID_id ≠ 0 ∧ s.ctl.tmode = false)
  else if s.mode = modePrepare then
    decide (v = modeDormant ∨ v = modeProving) || (decide (v = modeService) && s.vtg.curValid && s.pairService)
      || (decide (v = modeShadow) && s.pairShadow)
  else if s.mode = modeRecovery then
    decide (v = modePrepare ∨ (v = s.rd F.GLB_MODE_prev ∧ v ≠ modeDormant))
  else decide (v = modePrepare ∨ v = modeDormant)

/-- A transition begins; a request for DORMANT preempts every program and drains every slice first (R33, R36, R85). -/
def State.startTransition (s : State) (v : Nat) : State :=
  let s := s.wr F.GLB_MODE_busy 1
  let s := { s with ctl := { s.ctl with transTo := some v } }
  if v = modeDormant then (s.preempt (fun _ => true) 0xD).drainAll else s

/-- The device acts on a request (R31, R32). -/
def State.actRequest (s : State) (v : Nat) : State :=
  if v = modeRecovery then s.refuseMode v
  else if v = s.mode then s.wr F.GLB_MODE_req v
  else if s.modeAllowed v then s.startTransition v
  else s.refuseMode v

/-- A write to GLB_MODE.req: one request, held while a transition is in progress (R31). DEDUCED (log 12). -/
def State.reqMode (s : State) (v : Nat) : State :=
  let s := s.wr F.GLB_MODE_req v
  if s.bit F.GLB_MODE_busy then { s with ctl := { s.ctl with heldReq := true } } else s.actRequest v

/-- REQ_DORMANT to REQ_RECOVERY: a write of the mode's code (R31 to R33). -/
def execReqDormant (s : State) : Out := .next (s.reqMode modeDormant)
def execReqPrepare (s : State) : Out := .next (s.reqMode modePrepare)
def execReqService (s : State) : Out := .next (s.reqMode modeService)
def execReqShadow (s : State) : Out := .next (s.reqMode modeShadow)
def execReqProving (s : State) : Out := .next (s.reqMode modeProving)
def execReqRecovery (s : State) : Out := .next (s.reqMode modeRecovery)

/-- REQ_PREVIOUS_MODE: a write of the value that prev holds (R33). -/
def execReqPreviousMode (s : State) : Out := .next (s.reqMode (s.rd F.GLB_MODE_prev))

/-- One entry that remains in the in-flight table is closed: ABORTED_RESET with fault CC_RESET, and its response; the record of an
entry whose row is uncorrectable has status 0xF (R81, R413). -/
def State.closeEntry (s : State) (q : Nat) : State :=
  match tabGet none s.exec.inFlight q with
  | none => s
  | some e =>
    let r := s.memRead 7 (inFlightRow q)
    let s := (r.2.record e.tag e.program e.step (if r.1 then 0xF else stReset) q e.func 0xB).dropInFlight q
    s.respond e.func e.program e.tag stReset 0xB q e.step []

/-- The executive closes the in-flight table at its start (R81). -/
def State.closeInFlight (s : State) : State := forEach (fun q t => t.closeEntry q) programSqs s

/-- A request that was held is acted on in the next cycle (R31). -/
def State.actHeld (s : State) : State :=
  if s.ctl.heldReq then
    let s := { s with ctl := { s.ctl with heldReq := false } }
    s.actRequest (s.rd F.GLB_MODE_req)
  else s

/-- The transition in progress completes into mode `v`; entry to DORMANT preempts what still runs (R85). -/
def State.completeTransition (s : State) (v : Nat) : State :=
  let old := s.mode
  let s := s.wr F.GLB_MODE_busy 0
  let s := { s with ctl := { s.ctl with transTo := none } }
  let s := if v = modeDormant then s.preempt (fun _ => true) 0xD else s
  let s := if old = modeRecovery then s.exitRecovery v else s.enterMode v
  let s := if old = modeDormant then s.closeInFlight else s
  s.actHeld

/-- MODE_TRANSITION_END: busy clears, and a held request is acted on; DORMANT waits for every slice to be DARK (R31, R33).
DEDUCED (log 12). -/
def execModeTransitionEnd (s : State) : Out :=
  .next (
    match s.ctl.transTo with
    | none => s
    | some v =>
      if v ≠ modeDormant ∨ slices8.all fun i => decide (s.sliceState i = slDark) then s.completeTransition v else s)

/-! ### Fatal faults and RECOVERY (R49, R538 to R541, R580) -/

/-- A transition in progress is abandoned and a held request discarded; req reads the mode in force (R580). -/
def State.abandonTransition (s : State) : State :=
  if s.bit F.GLB_MODE_busy then
    let s := (s.wr F.GLB_MODE_busy 0).wr F.GLB_MODE_req s.mode
    { s with ctl := { s.ctl with transTo := none, heldReq := false } }
  else s

/-- The selector is locked to a qualified line reference (R448): LOCKED or LOCKED_ALARM. -/
def State.lineLocked (s : State) : Bool := decide (s.rd F.TIM_SEL_STAT_state = 2 ∨ s.rd F.TIM_SEL_STAT_state = 4)

/-- What a fatal fault does to slice i (R49): WAKING stops; THERMAL drains, HOSTCLK drains unless locked. -/
def State.faultSlice (s : State) (code i : Nat) : State :=
  if s.sliceState i = slWaking then s.drain i
  else if s.lit i && (decide (code = 4) || (decide (code = 1) && !s.lineLocked)) then s.drain i
  else s

/-- The fault's effect beside the mode: slices, channels in CSF, the cellar in self-refresh (R49, R401, R538). -/
def State.faultEffects (s : State) (code : Nat) : State :=
  let s := forEach (fun i t => t.faultSlice code i) slices8 s
  let s := if code = 1 ∨ code = 4 then
      { s with ctl := { s.ctl with faultsOpen := if code ∈ s.ctl.faultsOpen then s.ctl.faultsOpen else code :: s.ctl.faultsOpen } }
    else s
  let s := if code = 3 then { s with ctl := { s.ctl with sharedLoop := true } } else s
  (if code = 1 then s.celSleep else s).roleUpdate

/-- RECOVERY is entered with a cause: programs without rec_ok are preempted, runs end, and RECOVERY_ENTER is raised
(R33, R85, R188, R538, R539). DEDUCED (log 32). -/
def State.enterRecovery (s : State) (code : Nat) : State :=
  let s := { s with ctl := { s.ctl with faultsOpen := [], recoverWord := none, recoverRun := false } }
  let s := (s.enterMode modeRecovery).wr F.GLB_REC_STAT_cause code
  let s := s.addSat F.GLB_REC_STAT_entries 1 255
  let s := s.preempt (fun x => !x.recOk) 0xD
  let s := forEach (fun i t => t.abortRun i) slices8 s
  (s.faultEffects code).raise 0x01 code

/-- A fatal fault of the table "Fatal faults" (R538, R580). -/
def State.fatal (s : State) (code : Nat) : State :=
  let s := s.abandonTransition
  if s.mode = modeDormant then s
  else if s.mode = modeRecovery then
    (if s.rd F.GLB_REC_STAT_cause < code then s.wr F.GLB_REC_STAT_cause code else s).faultEffects code
  else s.enterRecovery code

/-- A fault clears (R540). -/
def State.faultCleared (s : State) (code : Nat) : State :=
  { s with ctl := { s.ctl with faultsOpen := s.ctl.faultsOpen.filter fun c => c ≠ code } }

/-- HOSTCLK_COAST: the main loop loses its input and coasts; HSC has no clock, so the link is silent (R46). -/
def execHostclkCoast (s : State) : Out :=
  .next (
    if s.bit F.TIM_CLK_STAT_main_lock then
      let s := (s.wr F.TIM_CLK_STAT_main_coast 1).wr F.TIM_CLK_STAT_main_lock 0
      { s with ctl := { s.ctl with hostClk := false } }
    else s)

/-- The clocks run from the host clock: power-up has passed t1 (R41, R54). -/
def State.clocked (s : State) : Bool :=
  match s.ctl.boot with
  | .held | .perst | .oscdly | .waitClock => false
  | .mainLoop | .image | .loading | .done => true

/-- HOSTCLK_FAIL_DECLARE: the clocks switch to the fallback oscillator, NMI_N asserts, the PCIe link is down, and the
mode becomes RECOVERY except in DORMANT (R46, R47, R441, R577, R580). -/
def execHostclkFailDeclare (s : State) : Out :=
  .next (
    if s.clocked = false ∨ s.bit F.TIM_CLK_STAT_on_fallback = true then s else
    let s := (s.wr F.TIM_CLK_STAT_hostclk_fail 1).wr F.TIM_CLK_STAT_on_fallback 1
    let s := ((s.wr F.TIM_CLK_STAT_hostclk_good 0).wr F.TIM_CLK_STAT_main_lock 0).unmeasured
    let s := ({ s with ctl := { s.ctl with nmi := true, hostClk := false } }).linkDown
    (s.raise 0x00 s.mode).fatal 1)

/-- HOSTCLK_RETURN: the domains switch back, the link trains again and sends what is pending, and HOSTCLK clears (R50,
R172, R401, R540): a function sends what is pending once its MSI-X enable is set again. A clock that returns before its failure is declared only locks the main loop again. DEDUCED (log 32). -/
def execHostclkReturn (s : State) : Out :=
  .next (
    if s.clocked = true ∧ s.bit F.TIM_CLK_STAT_on_fallback = true then
      let s := (s.wr F.TIM_CLK_STAT_on_fallback 0).wr F.TIM_CLK_STAT_hostclk_good 1
      let s := s.wr F.TIM_CLK_STAT_main_lock (b2n (decide (s.mode ≠ modeDormant)))
      let s := { s with ctl := { s.ctl with hostClk := true }, hif := { s.hif with linkUp := !s.bit F.GLB_STRAP_nopcie } }
      let s := if s.mode = modeRecovery then { s with cel := { s.cel with trainDue := true } } else s
      (s.faultCleared 1).sendAllPending
    else if s.clocked = true ∧ s.ctl.hostClk = false then
      let s := s.wr F.TIM_CLK_STAT_main_lock (b2n (decide (s.mode ≠ modeDormant)))
      ({ s with ctl := { s.ctl with hostClk := true } }).sendAllPending
    else s)

/-- HOSTCLK_FAIL_CLEAR: the write of 1 that releases NMI_N (R50). -/
def State.clearHostclkFail (s : State) : State :=
  { s.wr F.TIM_CLK_STAT_hostclk_fail 0 with ctl := { s.ctl with nmi := false } }

def execHostclkFailClear (s : State) : Out := .next s.clearHostclkFail

/-- THERMAL_FAULT and THERMAL_CLEAR (R538, R540). -/
def execThermalFault (s : State) : Out := .next (s.fatal 4)
def execThermalClear (s : State) : Out := .next (s.faultCleared 4)

/-- The restart delay of R540 is one that expires: delay, or unatt_delay while unattended. -/
def State.restarts? (s : State) : Bool := decide (s.rd F.GLB_REC_CFG_delay ≠ 0) || s.bit F.GLB_HOST_STAT_unatt

/-- RECOVERY_RESTART: the delay has expired with every fault cleared; `aged` restarts have passed out of the last hour.
RECOVER is dispatched, or the device gives up (R540, R541). DEDUCED (log 32). -/
def execRecoveryRestart (aged : Nat) (s : State) : Out :=
  .next (
    let c := s.ctl
    if s.mode = modeRecovery ∧ s.bit F.GLB_MODE_busy = false ∧ c.faultsOpen = [] ∧ c.recoverWord = none
        ∧ c.recoverRun = false ∧ s.bit F.GLB_REC_STAT_given_up = false ∧ s.restarts? = true then
      let n := c.restarts - aged
      if max 1 (s.rd F.GLB_REC_CFG_max) ≤ n then
        { s.wr F.GLB_REC_STAT_given_up 1 with ctl := { c with restarts := n } }
      else { s with ctl := { c with restarts := n + 1, recoverWord := some (s.rd F.GLB_REC_CFG_policy) } }
    else s)

/-- GIVEN_UP_CLEAR: restarts by the device resume, the hour's count starting afresh (R541). -/
def State.clearGivenUp (s : State) : State :=
  { s.wr F.GLB_REC_STAT_given_up 0 with ctl := { s.ctl with restarts := 0 } }

def execGivenUpClear (s : State) : Out := .next s.clearGivenUp

/-- HOST_SILENCE_EXPIRY (R534). -/
def execHostSilenceExpiry (s : State) : Out :=
  .next (if s.bit F.GLB_HOST_STAT_unatt then s else (s.wr F.GLB_HOST_STAT_unatt 1).raise 0x06 (2 ^ 23))

/-- Host activity: unatt clears (R534). DEDUCED (log 15). -/
def State.hostActive (s : State) : State :=
  if s.bit F.GLB_HOST_STAT_unatt then (s.wr F.GLB_HOST_STAT_unatt 0).raise 0x06 0 else s

def execHostActivity (s : State) : Out := .next s.hostActive

/-- SSC_PERIOD_END: a change of TIM_CLK_SSC made while en read 1 takes effect (R44). -/
def State.sscTake (s : State) : State :=
  { s with ctl := { s.ctl with sscNow := (s.rd F.TIM_CLK_SSC_en, s.rd F.TIM_CLK_SSC_depth, s.rd F.TIM_CLK_SSC_rate) } }

def execSscPeriodEnd (s : State) : Out := .next s.sscTake

end Sys2Proof.Machine
end

