-- ==== Sys2Proof/Machine/Time.lean ====
section
/-!
DEFINITION. Reference candidates, the selector and the phase step (chapter 18, R436 to R451).
-/

namespace Sys2Proof.Machine

/-- The quality level in use (R442). -/
def State.qlUsed (s : State) (i : Nat) : Nat :=
  if s.bit F.TIM_CAND_QLRX_valid [i] then s.rd F.TIM_CAND_QLRX_code [i] else s.cur F.TIM_CAND_CFG_ql [i]

/-- The rank of a quality level in the table "Quality levels"; 6 is never chosen. -/
def qlRank (q : Nat) : Nat :=
  if q = 0x2 then 1 else if q = 0x4 then 2 else if q = 0x8 then 3 else if q = 0xB then 4 else if q = 0xF then 6 else 5

/-- The ranking key of a candidate: quality level where ql_en reads 1, priority, index (R442). Lower is better. -/
def State.candKey (s : State) (i : Nat) : Nat :=
  (if s.curBit F.TIM_SEL_CFG_ql_en then qlRank (s.qlUsed i) else 0) * 256 + s.cur F.TIM_CAND_CFG_prio [i] * 16 + i

/-- A candidate that the selector may choose (R437, R442). -/
def State.eligible (s : State) (i : Nat) : Bool :=
  s.candGood i && decide (s.cur F.TIM_CAND_CFG_prio [i] ≠ 0) && !s.lockedOut i
    && !(s.curBit F.TIM_SEL_CFG_ql_en && decide (s.qlUsed i = 0xF))

/-- The best of some candidates. -/
def State.bestOf (s : State) : List Nat → Option Nat
  | [] => none
  | i :: is =>
    match s.bestOf is with
    | none => some i
    | some b => if s.candKey i ≤ s.candKey b then some i else some b

/-- The best eligible candidate. -/
def State.bestCandidate (s : State) : Option Nat := s.bestOf (candidates.filter fun i => s.eligible i)

/-- A switch to candidate i with phase build-out: ACQUIRING, counted, flagged and raised (R445). -/
def State.switchTo (s : State) (i : Nat) : State :=
  let s := ((s.wr F.TIM_SEL_STAT_sel i).wr F.TIM_SEL_STAT_state selAcquiring).wr F.TIM_SEL_STAT_switched 1
  let s := s.addSat F.TIM_SEL_STAT_switches 1 16383
  { s with tim := { s.tim with selValid := true } }.raise 0x3A i

/-- No candidate can be selected (R447). -/
def State.freeRun (s : State) : State :=
  let s := s.wr F.TIM_SEL_STAT_state selFreeRun
  { s with tim := { s.tim with selValid := false } }.loseSource

/-- The best candidate is taken, or FREE_RUN follows. -/
def State.takeBest (s : State) : State :=
  match s.bestCandidate with
  | some b => if s.isSelected b then s.wr F.TIM_SEL_STAT_state selAcquiring else s.switchTo b
  | none => s.freeRun

/-- Automatic selection at a gate (R442, R443): nothing during HOLD_OFF; a selected candidate that can no longer be
chosen is replaced; with revert a better-ranked QUALIFIED one is taken. -/
def State.selectAuto (s : State) : State :=
  if s.selState = selNotRunning ∨ s.selState = selHoldOff then s
  else
    let sel := s.rd F.TIM_SEL_STAT_sel
    if s.tim.selValid = false then (match s.bestCandidate with | some b => s.switchTo b | none => s)
    else if s.eligible sel = false then s.takeBest
    else if s.curBit F.TIM_SEL_CFG_revert then
      match s.bestOf (candidates.filter fun i => s.eligible i && decide (i = sel ∨ s.candState i = candQualified)) with
      | some b => if b = sel then s else s.switchTo b
      | none => s
    else s

/-- The selector at a gate: a command in force stands while its condition holds; else automatic selection, from the gate
after the one at which a command ended (R442, R444). -/
def State.selectGate (s : State) : State :=
  let code := s.rd F.TIM_SEL_STAT_cmd
  if code = 0 then s.selectAuto
  else if s.cmdHolds code s.tim.cmdCand then s
  else s.cmdFails

/-- A candidate's state changes, and every slice drains where it was the loop's last source (R443, R448, R451). -/
def State.candMove (s : State) (i st : Nat) : State :=
  let s := s.candStep i st
  if st = candUnavailable then s.sourceGone else s

/-- A frequency of candidate i is measured (R436, R441). -/
def State.measured (s : State) (i : Nat) : Bool :=
  decide (s.candState i ≠ candUnavailable) && !(s.onRefclk i && s.bit F.TIM_CLK_STAT_hostclk_fail)

/-- A candidate becomes QUALIFIED: with revert at 1 a better-ranked one is taken at once (R443). -/
def State.candQualify (s : State) (i : Nat) : State :=
  let s := s.candMove i candQualified
  if s.curBit F.TIM_SEL_CFG_revert && s.tim.selValid && decide (s.rd F.TIM_SEL_STAT_cmd = 0) then s.selectAuto else s

/-- An offset in 2^-10 ppm lies beyond a limit in 0.1 ppm; 0 disables the limit (R439). -/
def beyond (limit : Nat) (off : Int) : Bool := decide (limit ≠ 0 ∧ 1024 * limit < 10 * off.natAbs)

/-- The hard limit in force: below soft it acts as soft. -/
def State.hardLimit (s : State) (i : Nat) : Nat :=
  let h := s.cur F.TIM_CAND_LIM_hard [i]
  if h = 0 then 0 else max h (s.cur F.TIM_CAND_LIM_soft [i])

/-- The qualification window in gates of 100 ms (R439). -/
def State.winGates (s : State) : Nat := 10 * min 60 (max 1 (s.cur F.TIM_SEL_CFG_win))

/-- CAND_GATE_100MS: the offset of candidate i over a 100 ms gate (R438 to R441). -/
def execCandGate100ms (i : Fin 16) (off : BitVec 24) (s : State) : Out :=
  .next (
    if s.measured i then
      let st := s.candState i
      let n := tabGet 0 s.tim.overGates i
      let s := s.wr F.TIM_CAND_OFF_off off.toNat [i]
      if beyond (s.cur F.TIM_CAND_LIM_soft [i]) off.toInt then
        let s := { s with tim := { s.tim with overGates := tabPut 0 s.tim.overGates i (n + 1) } }
        let s := (s.wr F.TIM_CAND_STAT_soft_hit 1 [i]).raise 0x38 i
        if st = candWtr ∨ (s.candGood i ∧ s.winGates ≤ n) then s.candMove i candDisqualified
        else if st = candQualified then s.candMove i candAlarm
        else s
      else
        let s := { s with tim := { s.tim with overGates := tabPut 0 s.tim.overGates i 0 } }
        if st = candAlarm then s.candQualify i
        else if st = candDisqualified then s.candMove i candWtr
        else s
    else s.wr F.TIM_CAND_OFF_off 0x800000 [i])

/-- The hard limit at a 1 ms gate (R439). -/
def State.hardGate (s : State) (i : Nat) (off : Int) : State :=
  if s.measured i && beyond (s.hardLimit i) off then
    let s := s.wr F.TIM_CAND_STAT_hard_hit 1 [i]
    if s.candState i = candDisqualified then s else s.candMove i candDisqualified
  else s

/-- CAND_GATE_1MS with the offsets of the candidates over the gate: the hard limits, then the selector (R439, R442). -/
def execCandGate1ms (offs : List (Fin 16 × BitVec 24)) (s : State) : Out :=
  .next (forEach (fun p t => t.hardGate p.1 p.2.toInt) offs s).selectGate

/-- CAND_WTR_EXPIRY: WTR has been served without a result beyond the soft limit (R440, R443). -/
def execCandWtrExpiry (i : Fin 16) (s : State) : Out :=
  .next (
    if s.candState i = candWtr then s.candQualify i else s)

/-- The source condition of a candidate that the device itself holds (R396, R436): the slice's acquisition, a client lane, a
port's link. `none` for an input of the world outside. DEDUCED (log 27). -/
def State.sourceHolds (s : State) (i : Nat) : Option Bool :=
  if 4 ≤ i ∧ i ≤ 11 then some (decide (s.acq (i - 4) = acqTrack))
  else if i = 12 ∨ i = 13 then some (s.laneClock (s.refLane (i - 12)))
  else if i = 14 then some (decide (s.rd F.PRY_PORT_STAT_state [0] = 2))
  else if i = 15 then some (decide (s.rd F.PRY_PORT_STAT_state [1] = 2))
  else none

/-- CANDIDATE_AVAILABLE: WTR (R436, R440). -/
def execCandidateAvailable (i : Fin 16) (s : State) : Out :=
  .next (
    if s.candState i = candUnavailable ∧ s.sourceHolds i ≠ some false then
      let s := { s with tim := { s.tim with overGates := tabPut 0 s.tim.overGates i 0 } }
      s.candMove i candWtr
    else s)

/-- CAND_AVAIL_LOSS: UNAVAILABLE at once, whatever the state (R440, R448). -/
def execCandAvailLoss (i : Fin 16) (s : State) : Out :=
  .next (
    if s.candState i ≠ candUnavailable ∧ s.sourceHolds i ≠ some true then
      (s.candLost i).sourceGone
    else s)

/-- SEL_HOLDOFF_EXPIRY: the best candidate, or FREE_RUN (R443, R447). DEDUCED (log 26). -/
def execSelHoldoffExpiry (s : State) : Out := .next (if s.selState = selHoldOff then s.takeBest else s)

/-- A go at TIM_SEL_CMD (R444): code 1 FORCE, 2 MANUAL, any other CLEAR. A condition that fails ends the command.
DEDUCED (log 26). -/
def State.selCommand (s : State) (code cand : Nat) : State :=
  let s := s.mirror 0x06 [code, cand]
  if code ≠ 1 ∧ code ≠ 2 then s.wr F.TIM_SEL_STAT_cmd 0
  else if s.selState ≠ selNotRunning ∧ s.cmdHolds code cand = true then
    let s := { s.wr F.TIM_SEL_STAT_cmd code with tim := { s.tim with cmdCand := cand } }
    if s.isSelected cand then (if s.selState = selHoldOff then s.wr F.TIM_SEL_STAT_state selAcquiring else s)
    else s.switchTo cand
  else s.cmdFails

/-- SEL_FORCE, SEL_MANUAL and SEL_CLEAR: the candidate is that of TIM_SEL_CMD.cand (R444). -/
def execSelForce (s : State) : Out := .next (s.selCommand 1 (s.rd F.TIM_SEL_CMD_cand))
def execSelManual (s : State) : Out := .next (s.selCommand 2 (s.rd F.TIM_SEL_CMD_cand))
def execSelClear (s : State) : Out := .next (s.selCommand 0 (s.rd F.TIM_SEL_CMD_cand))

/-- The selected input lies beyond the ±200 ppm of the loop's oscillator, by its last measured offset (R449). -/
def State.outOfRange (s : State) : Bool :=
  let off := s.rd F.TIM_CAND_OFF_off [s.rd F.TIM_SEL_STAT_sel]
  decide (off ≠ 0x800000 ∧ 204800 < (toSigned 24 off).natAbs)

/-- SEL_LOCKED: the phase error has stayed within ±2 ns for 1 s, which an input beyond the loop's range never reaches (R445, R449,
R451). -/
def execSelLocked (s : State) : Out :=
  .next (
    if s.selState = selAcquiring ∧ s.outOfRange = false then
      s.wr F.TIM_SEL_STAT_state (if s.candState (s.rd F.TIM_SEL_STAT_sel) = candAlarm then selLockedAlarm else selLocked)
    else s)

/-! ### The phase step (R450) -/

/-- The remaining phase step in ps. -/
def State.phaseRem (s : State) : Int := toSigned 20 (s.rd F.TIM_PHS_REM_rem)

/-- The remaining step becomes `r`. -/
def State.setPhase (s : State) (r : Int) : State :=
  (s.wr F.TIM_PHS_REM_rem (ofSigned 20 r)).wr F.TIM_PHS_CMD_busy (b2n (decide (r ≠ 0)))

/-- PHASE_STEP_GO: AMT is added to the remaining step, clamped to ±500,000 ps. -/
def State.phaseGo (s : State) : State :=
  let r := s.phaseRem + toSigned 20 (s.rd F.TIM_PHS_AMT_amt)
  let c := clampInt (-500000) 500000 r
  (if c = r then s else s.wr F.TIM_PHS_CMD_clamp 1).setPhase c

def execPhaseStepGo (s : State) : Out := .next s.phaseGo

/-- PHASE_SLEW_DONE: the rest of the step has been slewed. -/
def execPhaseSlewDone (s : State) : Out := .next (s.setPhase 0)

end Sys2Proof.Machine
end

