-- ==== Sys2Proof/Machine/Timers.lean ====
section
/-!
DEFINITION. Device time and scheduled timers, and the line-spanning transparent clock (chapter 18, R452 to R457).
-/

namespace Sys2Proof.Machine

/-! ### Device time (R452, R453) -/

/-- The 33-bit increment TIM_TOD_INC, in 2^-32 ns. -/
def State.increment (s : State) : Nat := s.rd F.TIM_TOD_INC_H_inc * 2 ^ 24 + s.rd F.TIM_TOD_INC_L_inc

/-- Device time becomes `t`. -/
def State.setNow (s : State) (t : BitVec 64) : State := { s with tim := { s.tim with now := t } }

/-- The 625 MHz tick clock runs: past power-up, outside DORMANT and not on the fallback oscillator without a line lock. -/
def State.ticking (s : State) : Bool :=
  decide (s.ctl.boot = .done) && decide (s.mode ≠ modeDormant)
    && (!s.bit F.TIM_CLK_STAT_on_fallback || decide (s.selState ≠ selFreeRun))

/-- Device time counts on AON cycles of the fallback oscillator: TIM_TOD_CMD.inexact (R452). -/
def State.inexact (s : State) : Bool := s.bit F.TIM_CLK_STAT_on_fallback && !s.ticking

/-- What one tick, or one AON cycle, adds to device time: the increment with the trim of the transparent clock. On the
fallback oscillator it is scaled by an amount within the 15 % of R48 that the manual leaves open.
DESIGN CHOICE (log 2). DEDUCED (log 26). -/
def State.tickStep (s : State) : Nat × State :=
  let inc := ((s.increment : Int) + s.tim.trim).toNat
  if s.ticking then (inc, s)
  else if s.bit F.TIM_CLK_STAT_on_fallback then
    let r := s.takeWord
    (25 * inc * (850000 + r.1 % 300001) / 1000000, r.2)
  else (25 * inc, s)

/-- Device time goes on by one tick or AON cycle; a wrap raises TIM_WRAP where wrap_en reads 1 (R452). -/
def State.tick (s : State) : State :=
  let r := s.tickStep
  let t := r.2.tim.now.toNat + r.1
  let s := r.2.setNow (BitVec.ofNat 64 t)
  if 2 ^ 64 ≤ t ∧ s.bit F.TIM_TOD_CFG_wrap_en = true then s.raise 0x3B 0 else s

/-- The slew of the remaining phase step: 2 parts of 1/125 ps a tick (R450). -/
def State.slewTick (s : State) : State :=
  let r := s.phaseRem
  if s.ticking = false ∨ r = 0 then s
  else if s.tim.slew + 2 < 125 then { s with tim := { s.tim with slew := s.tim.slew + 2 } }
  else
    let s := { s with tim := { s.tim with slew := s.tim.slew + 2 - 125 } }
    s.setPhase (if 0 < r then r - 1 else r + 1)

/-! ### Timers (R454, R455) -/

/-- The target of timer n. -/
def State.timerTarget (s : State) (n : Nat) : BitVec 32 :=
  BitVec.ofNat 32 (s.rd F.TIM_TMR_TGT_H_value [n] % 256 * 2 ^ 24 + s.rd F.TIM_TMR_TGT_L_value [n])

/-- The target registers of timer n read `t`. -/
def State.setTarget (s : State) (n : Nat) (t : BitVec 32) : State :=
  (s.wr F.TIM_TMR_TGT_H_value (t.toNat / 2 ^ 24) [n]).wr F.TIM_TMR_TGT_L_value (t.toNat % 2 ^ 24) [n]

/-- The action of a firing of timer n (R455). -/
def State.timerAction (s : State) (n : Nat) (late : Bool) : State :=
  let a := s.rd F.TIM_TMR_CFG_action [n]
  if a = 1 then { s with exec := { s.exec with timerPkts := s.exec.timerPkts ++ [(n, late, s.timerTarget n)] } }
  else if a = 2 then { s with tim := { s.tim with trigPulse := s.rd F.TIM_TMR_CFG_width [n] + 1 } }
  else if a = 3 then (if s.refusal 0 = 0 then s.acceptCommit 0 0 else s.wr F.TIM_TMR_CTL_refused 1 [n])
  else s

/-- One firing of timer n (R455), which also triggers the capture that names it, a late firing as well (R201). -/
def State.fireOnce (s : State) (n : Nat) (late : Bool) : State :=
  let s := s.wr F.TIM_TMR_CTL_fired 1 [n]
  let s := if late then s.wr F.TIM_TMR_CTL_late 1 [n] else s
  (((s.raise 0x3C (b2n late * 2 ^ 23 + n)).monTimer n).captureTrigger 1 n).timerAction n late

/-- Timer n fires; with a period it re-arms at target + per µs and fires again as late while that has passed, at most `k`
times (R454, R455). -/
def State.fire (s : State) (n : Nat) : Nat → Bool → State
  | 0, _ => s
  | k + 1, late =>
    let s := s.fireOnce n late
    let per := s.rd F.TIM_TMR_PER_value [n]
    if per = 0 then s.wr F.TIM_TMR_CTL_armed 0 [n]
    else
      let s := (s.setTarget n (s.timerTarget n + BitVec.ofNat 32 (1000 * per))).wr F.TIM_TMR_CTL_armed 1 [n]
      if s.reached (s.timerTarget n) then s.fire n k true else s

/-- The firings that bring timer n up to device time. -/
def State.firings (s : State) (n : Nat) : Nat :=
  (s.time - s.timerTarget n).toNat / (1000 * max 1 (s.rd F.TIM_TMR_PER_value [n])) + 1

/-- A write of arm (R454): a target that has passed fires at once as late. -/
def State.armTimer (s : State) (n : Nat) : State :=
  if s.reached (s.timerTarget n) then s.fire n (s.firings n) true else s.wr F.TIM_TMR_CTL_armed 1 [n]

def execTimerArm (n : Fin 16) (s : State) : Out := .next (s.armTimer n)

/-- TIMER_DISARM: stopped without a firing (R455). -/
def execTimerDisarm (n : Fin 16) (s : State) : Out := .next (s.wr F.TIM_TMR_CTL_armed 0 [n])

/-- TIMER_FIRE: device time has reached the target of an armed timer (R454). -/
def execTimerFire (n : Fin 16) (s : State) : Out :=
  .next (
    if s.bit F.TIM_TMR_CTL_armed [n] = true ∧ s.reached (s.timerTarget n) = true then s.fire n (s.firings n) false else s)

/-- Every armed timer recomputes d after a set or an adjustment: a step past its target fires it as late (R454). -/
def State.recompute (s : State) : State :=
  forEach (fun n t =>
    if t.bit F.TIM_TMR_CTL_armed [n] && t.reached (t.timerTarget n) then t.fire n (t.firings n) true else t)
    (List.range 16) s

/-- Device time with TIM_TOD_SET loaded (R453). -/
def State.todLoad (s : State) : State :=
  s.setNow (BitVec.ofNat 64 ((s.rd F.TIM_TOD_SET_H_value % 256 * 2 ^ 24 + s.rd F.TIM_TOD_SET_L_value) * 2 ^ 32))

/-- Device time with a signed number of ns added (R453). -/
def State.todAdd (s : State) (ns : Int) : State := s.setNow (s.tim.now + BitVec.ofNat 64 (ofSigned 32 ns * 2 ^ 32))

/-- A write of TIM_TOD_CMD: set first, then adj, then the timers recompute once (R453). -/
def State.todCommand (s : State) (set adj : Bool) : State :=
  let s := if set then s.todLoad else s
  let s := if adj then s.todAdd (toSigned 24 (s.rd F.TIM_TOD_ADJ_value)) else s
  if set || adj then s.recompute else s

def execTodSet (s : State) : Out := .next (s.todCommand true false)
def execTodAdj (s : State) : Out := .next (s.todCommand false true)

/-- TOD_WRAP: device time wraps from 0xFFFF_FFFF ns to 0; from an earlier instant the command brings it there (R452). -/
def execTodWrap (s : State) : Out :=
  .next (
    let s := s.setNow 0
    if s.bit F.TIM_TOD_CFG_wrap_en then s.raise 0x3B 0 else s)

/-! ### The line-spanning transparent clock (R456, R457) -/

/-- The offset of R456 from the last delay block of the followed slice, in ns: (numerator, denominator). -/
def State.ltcOffset (s : State) (dtx rx rt : BitVec 32) : Int × Nat :=
  let gap : Int := (rx - dtx).toInt
  (2000 * gap - (1000 * (rt.toNat : Int) - toSigned 24 (s.rd F.TIM_LTC_ASYM_asym)), 2000)

/-- The greatest trim: 10 ppm of the increment. -/
def State.trimLimit (s : State) : Nat := s.increment * 10 / 1000000

/-- The increment is trimmed, within 10 ppm, against an offset: how far, the manual leaves open (R456).
DESIGN CHOICE (log 2). DEDUCED (log 26). -/
def State.trimFor (s : State) (off : Int) : State :=
  if off = 0 then { s with tim := { s.tim with trim := 0 } }
  else
    let r := s.takeWord
    let a : Int := (r.1 % (s.trimLimit + 1) : Nat)
    { r.2 with tim := { r.2.tim with trim := if 0 < off then -a else a } }

/-- Device time follows an offset: a step beyond the threshold, a trim below it (R456). `thr` is in ns. -/
def State.follow (s : State) (off : Int) (thr : Nat) : State × Bool :=
  if thr < off.natAbs then (((s.todAdd (-off)).recompute).trimFor 0, true) else (s.trimFor off, false)

/-- A multiframe without a valid result: 16 in a row end the lock, and the results on either side of it are consecutive (R457). -/
def State.ltcMissed (s : State) : State :=
  let n := min 16 (s.tim.ltcMiss + 1)
  let s := { s with tim := { s.tim with ltcMiss := n } }
  if 16 ≤ n then s.wr F.TIM_LTC_STAT_lock 0 else s

/-- A valid result (R456, R457). -/
def State.ltcResult (s : State) (off : Int) : State :=
  let s := s.wr F.TIM_LTC_OFF_off (ofSigned 24 (clampInt (-(2 ^ 23 : Nat)) ((2 ^ 23 : Nat) - 1) off))
  let r := s.follow off (100 * max 1 (s.rd F.TIM_LTC_CFG_step_thr))
  let s := if r.2 then r.1.addSat F.TIM_LTC_STAT_steps 1 255 else r.1
  let good := if off.natAbs ≤ 10 then min 16 (s.tim.ltcGood + 1) else 0
  let s := { s with tim := { s.tim with ltcGood := good, ltcMiss := 0 } }
  if 100 < off.natAbs then s.wr F.TIM_LTC_STAT_lock 0 else if 16 ≤ good then s.wr F.TIM_LTC_STAT_lock 1 else s

/-- LTC_MULTIFRAME: a received multiframe of the followed slice, with its delay block where that has passed its CRC-16. The
rounding of the offset to whole ns is free (R456). -/
def execLtcMultiframe (s : State) : Out :=
  .next (
    if s.bit F.TIM_LTC_CFG_en then
      let i := s.rd F.TIM_LTC_CFG_slice
      let l := s.lfr1 i
      let s := s.setLfr i { l with dlyOk := false }
      match l.dlyRx with
      | some (dtx, rx) =>
        if l.dlyOk then
          let o := s.ltcOffset dtx rx l.dlyRt
          let r := s.roundFree o.1 o.2
          r.2.ltcResult r.1
        else s.ltcMissed
      | none => s.ltcMissed
    else s)

end Sys2Proof.Machine
end

