-- ==== Sys2Proof/Machine/Twins.lean ====
section
/-!
DEFINITION. The Poryon link, the twin pair and the domain (chapter 19, R458 to R489, R492). Received frames assemble into
messages in the port's inbox; each message command acts on the first message of its kind there. Where the manual gives a
message's purpose and no word layout (PAIR, DOMAIN, the content of mirror items) the layout is the model's
(notes/assumptions/40.md).
-/

namespace Sys2Proof.Machine

/-! ### Ports (R465 to R471) -/

def portDown : Nat := 0
def portTraining : Nat := 1
def portLinked : Nat := 2
def portBackoff : Nat := 3
def portAbsent : Nat := 4
def portMismatch : Nat := 5

def State.portState (s : State) (p : Nat) : Nat := s.rd F.PRY_PORT_STAT_state [p]

/-- The DN ports. -/
def dnPorts : List Nat := [2, 3, 4, 5]

/-- The port may run an attempt: enabled, and not in P-DEEP for the mode (R471). -/
def State.portRuns (s : State) (p : Nat) : Bool :=
  s.curBit F.PRY_PORT_CFG_en [p] && (decide (s.mode ≠ modeDormant) || (decide (p = 1) && s.upClocked))

/-- An attempt starts (R465); what waited to be sent on a link that is gone is dropped. DEDUCED (log 27). -/
def State.startAttempt (s : State) (p : Nat) (probe : Bool) : State :=
  let s := s.setPort p { Port.fresh with probe := probe, lastTx := (s.port p).lastTx, frame := (s.port p).frame }
  ((s.wr F.PRY_PORT_STAT_state portTraining [p]).wr F.PRY_PORT_STAT_pwr 0 [p]).sendIdent p

/-- LINK_ATTEMPT_START: a port that is enabled and DOWN, or waits with a rise of signal detect (R465, R466). -/
def execLinkAttemptStart (p : Fin 6) (s : State) : Out :=
  .next (if s.portRuns p = true ∧ s.portState p = portDown then s.startAttempt p false else s)

/-- LINK_BACKOFF_EXPIRY: the wait ends, or signal detect rises during it (R466). -/
def execLinkBackoffExpiry (p : Fin 6) (s : State) : Out :=
  .next (if s.portRuns p = true ∧ s.portState p = portBackoff then s.startAttempt p false else s)

/-- ABSENT_PROBE: one attempt out of P-DEEP (R468). -/
def execAbsentProbe (p : Fin 6) (s : State) : Out :=
  .next (if s.portRuns p = true ∧ s.portState p = portAbsent then s.startAttempt p true else s)

/-- MISMATCH_RETRY: 10 s after MISMATCH (R467). -/
def execMismatchRetry (p : Fin 6) (s : State) : Out :=
  .next (if s.portRuns p = true ∧ s.portState p = portMismatch then s.startAttempt p false else s)

/-- An attempt has failed: backoff in P-QUIET, which PRY_PORT_CFG.keep rules out, ABSENT at the eighth, or back to P-DEEP after a
probe (R466, R468, R471). DEDUCED (log 27). -/
def State.attemptFails (s : State) (p : Nat) : State :=
  let low := if p = 1 ∧ s.upClocked = true then 1 else 2
  if (s.port p).probe then (s.wr F.PRY_PORT_STAT_state portAbsent [p]).wr F.PRY_PORT_STAT_pwr low [p]
  else
    let n := s.rd F.PRY_PORT_STAT_fails [p] + 1
    let s := s.wr F.PRY_PORT_STAT_fails (min 8 n) [p]
    if 8 ≤ n then
      ((s.wr F.PRY_PORT_STAT_state portAbsent [p]).wr F.PRY_PORT_STAT_pwr low [p]).raise 0x42 p
    else (s.wr F.PRY_PORT_STAT_state portBackoff [p]).wr F.PRY_PORT_STAT_pwr (b2n (!s.bit F.PRY_PORT_CFG_keep [p])) [p]

/-- LINK_ATTEMPT_TIMEOUT: 20 ms without LINKED (R466). -/
def execLinkAttemptTimeout (p : Fin 6) (s : State) : Out :=
  .next (if s.portState p = portTraining then s.attemptFails p else s)

/-- ATTEMPT_SIGNAL_LOSS: the attempt restarts at most four times (R466). -/
def execAttemptSignalLoss (p : Fin 6) (s : State) : Out :=
  .next (
    if s.portState p = portTraining then
      let x := s.port p
      let s := s.wr F.PRY_PORT_STAT_los 1 [p]
      if 4 ≤ x.losses then s.attemptFails p else 
        (s.setPort p { x with losses := x.losses + 1, rxSeq := [], part := [], inbox := [], ident := 0 }).sendIdent p
    else s)

/-- PORT_IDLE_TIMEOUT: P-QUIET, unless the port is kept awake or has a frame to send (R471). -/
def execPortIdleTimeout (p : Fin 6) (s : State) : Out :=
  .next (
    if s.linked p = true ∧ s.bit F.PRY_PORT_CFG_keep [p] = false ∧ (s.port p).wait = [] then s.wr F.PRY_PORT_STAT_pwr 1 [p]
    else s)

/-! ### The pair (R472, R473, R479 to R484) -/

def pairSolo : Nat := 0
def pairJoining : Nat := 1
def pairPaired : Nat := 2
def pairTaking : Nat := 3

def State.pairState (s : State) : Nat := s.rd F.PRY_TWIN_STAT_pair
def State.isActive (s : State) : Bool := s.bit F.PRY_TWIN_STAT_active

/-- The pair ends: what a release or a join in progress holds goes; the role follows the mode again (R473).
DEDUCED (log 27). -/
def State.toSolo (s : State) : State :=
  let s := { s with pry := { s.pry with beat := false, relAt := none, relAck := false, takeAt := none, mirCom := none,
                                        joinKey := none, mirKeys := [], mirHave := [], mirRx := none } }
  let s := (s.wr F.PRY_TWIN_STAT_ready 0).wr F.PRY_TWIN_STAT_mirror_ok 0
  (s.wr F.PRY_TWIN_STAT_pair pairSolo).roleUpdate

/-- The role changes of the table "Mode transitions" (R33). -/
def roleMove (frm dest : Nat) : Bool :=
  decide ((frm = modeShadow ∧ (dest = modeService ∨ dest = modePrepare))
    ∨ (frm = modeService ∧ (dest = modeShadow ∨ dest = modePrepare)))

/-- The mode changes with the role where the table "Mode transitions" has that change (R33, R479, R480, R482, R484). No rule
says what becomes of a transition in progress: it is abandoned and its held request discarded, as R580 does.
DESIGN CHOICE (log 41). -/
def State.roleMode (s : State) (m : Nat) : State :=
  if roleMove s.mode m then (s.abandonTransition).enterMode m else s

/-- The vintage store as after power-up: CURRENT and STAGED hold RESCUE, PREVIOUS is empty (R54, R484). -/
def State.rescueStore (s : State) : State :=
  let s := ({ s with vtg := { s.vtg with current := s.vtg.rescue, staged := s.vtg.rescue, previous := [], commit := none,
                                         curDomain := false, curValid := true } }).vintSet [(0, 3), (1, 3)]
  let s := ((s.toVt vtIdle).wr F.VTG_STAT_prev_valid 0).wr F.VTG_STAT_line 0
  ((s.wr F.VTG_STAT_domain 0).wr F.VTG_SERIAL_CUR_serial 0).wr F.VTG_SERIAL_PREV_serial 0

/-- A join fails (R484): the ACTIVE stops the mirror and resets queue 34; the joiner discards every mirrored item, erases
the slots it unwrapped and is in PREPARE. -/
def State.joinFails (s : State) : State :=
  if s.isActive then (s.setQueue 34 Queue.empty).toSolo
  else
    let keys := s.pry.mirKeys
    let old := s.vtg.current
    let s := forEach (fun n t => t.clearSlot n) keys s
    let s := { s with pry := { s.pry with peerCnt := [] } }
    let s := s.rescueStore.switchBlocks old .current (fun _ => false) fun _ => none
    s.toSolo.roleMode modePrepare

/-- The partner is declared lost (R479, R482, R577). A STANDBY in SHADOW with take_en takes over; in any other mode it cannot enter
SERVICE (R33), and the pair ends. DEDUCED (log 27). -/
def State.partnerLost (s : State) : State :=
  let s := (s.wr F.PRY_TWIN_STAT_lost 1).raise 0x44 (b2n (!s.isActive) * 2 ^ 23)
  if s.isActive then s.toSolo
  else if s.bit F.PRY_TWIN_CFG_take_en = true ∧ s.mode = modeShadow then
    let s := { s with pry := { s.pry with beat := false, takeAt := none } }
    let s := (s.wr F.PRY_TWIN_STAT_pair pairTaking).cipTakeover
    (s.wr F.PRY_TWIN_STAT_active 1).roleMode modeService
  else s.toSolo

/-- TWIN_HEARTBEAT_LOSS: no heartbeat for 1 ms while PAIRED (R479). DEDUCED (log 27). -/
def execTwinHeartbeatLoss (s : State) : Out := .next (if s.pairState = pairPaired then s.partnerLost else s)

/-- TAKEOVER_FULL_AMPLITUDE: every unmuted LIT slice has reached full amplitude (R473, R480). -/
def execTakeoverFullAmplitude (s : State) : Out :=
  .next (
    if s.pairState = pairTaking ∧ slices8.all (fun i => !s.lit i || s.muteTarget i || decide ((s.tx1 i).amp = 4000)) = true
    then s.toSolo else s)

/-- PEER_ACTIVE_ASSERT: an ACTIVE that holds no heartbeat of its partner is deposed (R480). -/
def execPeerActiveAssert (s : State) : Out :=
  .next (
    let s := s.wr F.PRY_TWIN_STAT_peer_active 1
    if s.isActive = true ∧ s.pry.beat = false then
      let s := (s.wr F.PRY_TWIN_STAT_active 0).wr F.PRY_TWIN_STAT_deposed 1
      ((s.roleMode modePrepare).raise 0x45 0).toSolo
    else s)

/-- A PAIR message: the operation and its words. PRESUMED (log 40). -/
def State.sendPair (s : State) (ws : List Nat) : State := s.pryTx 0 ⟨0, 3, 0, s.rd F.PRY_DOM_STAT_dom, ws⟩

/-- A join or release is refused (R474, R482). -/
def State.pairRefuse (s : State) (reason : Nat) : State := (s.wr F.PRY_TWIN_STAT_refused 1).wr F.PRY_TWIN_STAT_reason reason

/-- PRY_TWIN_CMD.release (R302, R482): the fourth superframe boundary S, PAIR to the partner, SWITCH on every LIT slice.
DEDUCED (log 27). -/
def State.twinRelease (s : State) : State :=
  if s.pairState = pairPaired ∧ s.isActive = true ∧ s.bit F.PRY_TWIN_STAT_ready = true then
    let b := (s.gridSfc + 4) % 2 ^ 24
    let s := { s with pry := { s.pry with relAt := some b, relAck := false } }
    let s := s.sendPair [2, b]
    forEach (fun i t =>
      t.tdlQueue i tySwitch (wordBytes ((1 - t.rd F.PRY_TWIN_STAT_side) * 2 ^ 23)
        ++ wordBytes ((t.rd F.LFR_TX_SFC_count [i] + 4) % 2 ^ 24))) slices8 s
  else s.pairRefuse 7
def execTwinRelease (s : State) : Out := .next (s.whenOpen 15 State.twinRelease)

/-- RELEASE_ACK_TIMEOUT: 2 ms without an acknowledgement (R482). -/
def execReleaseAckTimeout (s : State) : Out :=
  .next (
    if s.pry.relAt ≠ none ∧ s.pry.relAck = false then
      ({ s with pry := { s.pry with relAt := none } }).pairRefuse 8
    else s)

/-- RELEASE_BOUNDARY: at S the role moves between the twins (R362, R482). -/
def execReleaseBoundary (s : State) : Out :=
  .next (
    if s.pairState = pairPaired then
      if s.isActive = true ∧ s.pry.relAck = true ∧ s.pry.relAt = some s.gridSfc then
        let s := { s with pry := { s.pry with relAt := none, relAck := false } }
        let s := (s.wr F.PRY_TWIN_STAT_active 0).wr F.PRY_TWIN_STAT_ready 0
        s.roleMode modeShadow
      else if s.isActive = false ∧ s.pry.takeAt = some s.gridSfc then
        let s := { s with pry := { s.pry with takeAt := none } }
        ((s.cipTakeover.wr F.PRY_TWIN_STAT_active 1).wr F.PRY_TWIN_STAT_ready 0).roleMode modeService
      else s
    else s)

/-- What a device does when the pair is ended by a detach on either side (R473, R484). -/
def State.detached (s : State) : State :=
  if s.pairState = pairJoining then s.joinFails else if s.pairState = pairPaired then s.toSolo else s

/-- PRY_TWIN_CMD.detach. -/
def State.twinDetach (s : State) : State :=
  if s.pairState = pairJoining ∨ s.pairState = pairPaired then (s.sendPair [5]).detached else s
def execTwinDetach (s : State) : Out := .next (s.whenOpen 15 State.twinDetach)

/-- JOIN_TIMEOUT: 60 s in JOINING (R473, R484). -/
def execJoinTimeout (s : State) : Out := .next (if s.pairState = pairJoining then s.joinFails else s)

/-! ### The mirror set (R475) -/

/-- The whole set, in the order of the table "Mirror items". PRESUMED (log 40). -/
def State.mirrorSet (s : State) : State :=
  let s := s.mirrorImage 0 s.serialCur s.vtg.current
  let s := if s.bit F.VTG_STAT_prev_valid then s.mirrorImage 1 (s.rd F.VTG_SERIAL_PREV_serial) s.vtg.previous else s
  let s := s.mirrorArchive
  let s := if s.vtState = vtArmed then s.mirrorCommit else s.mirror 0x02 [0]
  let s := (s.mirror 0x03 [4, s.serialCur]).mirror 0x04 []
  let s := forEach (fun c t => t.mirror 0x05 (t.psState c))
    (channels.filter fun c => s.isProt c) (s.mirror 0x05 [])
  let s := s.mirror 0x06 [s.rd F.TIM_SEL_STAT_cmd, s.tim.cmdCand, s.rd F.TIM_SEL_LOCK_lock]
  let s := (s.mirror 0x07 [0]).mirrorCounters s.mon.snap
  let s := forEach (fun n t => if t.slotFull n then t.mirrorSlot n else t) (List.range 2048) (s.mirror 0x08 [])
  s.mirrorDomain.mirrorGrids

/-- PRY_TWIN_CMD.resync (R475, R478): the ACTIVE resends the whole set. -/
def State.twinResync (s : State) : State := if s.mirrors then s.mirrorSet else s
def execTwinResync (s : State) : Out := .next (s.whenOpen 15 State.twinResync)

/-! ### Joining (R371, R473, R474) -/

/-- The word that GLB_IDENT reads. -/
def State.identWord (s : State) : Nat :=
  s.rd F.GLB_IDENT_part * 2 ^ 16 + s.rd F.GLB_IDENT_slice_mask * 2 ^ 8 + s.rd F.GLB_IDENT_rev_letter * 2 ^ 4
    + s.rd F.GLB_IDENT_rev_digit

/-- The pair-secret slot that a running TWIN_JOIN names in its second argument (R371). -/
def State.joinSlot (s : State) : Option Nat :=
  (programSqs.find? fun q => (s.seq q).live && decide ((s.seq q).program = 5)).map fun q => ((s.seq q).mem 3).toNat % 2048

/-- The pair key with a partner of serial `peer` (R371); twin A is the one whose side reads 0. -/
def State.deriveKey (s : State) (slot peer : Nat) : Option (BitVec 256) :=
  if s.slotFull slot = true ∧ s.rd F.CIP_SLOT_STAT_use [slot] = 2 then
    let secret := (s.slot slot).key
    some (if s.rd F.PRY_TWIN_STAT_side = 0 then pairKey secret s.ownSerial peer else pairKey secret peer s.ownSerial)
  else none

/-- The reason that refuses a join, 0 for none (R474). DEDUCED (log 27). -/
def State.joinReason (s : State) (key : Option (BitVec 256)) (ident pset side mode check : Nat) : Nat :=
  let joiner := if s.mode = modeService then mode else s.mode
  if ident ≠ s.identWord then 1
  else if pset ≠ s.rd F.SEQ_PSET_ID_id then 2
  else if side = s.rd F.PRY_TWIN_STAT_side then 3
  else if key.map checkValue ≠ some check then 4
  else if (s.mode = modeService ∧ mode = modeService) ∨ (s.mode ≠ modeService ∧ mode ≠ modeService) then 5
  else if joiner ≠ modePrepare then 6
  else 0

/-- A join asked for (op 1) or answered (op 6): [op, serial, GLB_IDENT, program set, side, mode, check value]. PRESUMED (log 40). -/
def State.sendJoin (s : State) (op slot peer : Nat) : State :=
  s.sendPair [op, s.ownSerial, s.identWord, s.rd F.SEQ_PSET_ID_id, s.rd F.PRY_TWIN_STAT_side, s.mode,
    ((s.deriveKey slot peer).map checkValue).getD 0]

/-- A device in SOLO on which TWIN_JOIN runs asks its partner to join, with each heartbeat (R473, R474). DEDUCED (log 27). -/
def State.askJoin (s : State) : State :=
  match s.joinSlot with
  | some slot => if s.pairState = pairSolo then s.sendJoin 1 slot (s.rd F.PRY_PORT_PEER_serial [0]) else s
  | none => s

/-- The partner asks for a join, which is answered, or answers one. It needs a TWIN_JOIN that runs here (R473, R474). -/
def State.onJoin (s : State) (asks : Bool) (peer ident pset side mode check : Nat) : State :=
  match s.joinSlot with
  | some slot =>
    if s.pairState = pairSolo ∧ s.linked 0 = true then
      let key := s.deriveKey slot peer
      let s := if asks then s.sendJoin 6 slot peer else s
      let r := s.joinReason key ident pset side mode check
      if r ≠ 0 then s.pairRefuse r
      else
        let s := { s with pry := { s.pry with joinKey := key, mirSeq := 0, mirRx := none, mirHave := [], mirKeys := [] } }
        let s := (s.wr F.PRY_TWIN_STAT_ready 0).wr F.PRY_TWIN_STAT_mirror_ok 0
        let s := (s.wr F.PRY_TWIN_STAT_pair pairJoining).wr F.PRY_TWIN_STAT_active (b2n (decide (s.mode = modeService)))
        s.twinResync
    else s
  | none => s

/-! ### Messages (R461 to R464) -/

/-- The kinds of the table "Frame kinds". -/
def kindKnown (cls kind : Nat) : Bool :=
  decide ((cls = 0 ∧ kind ≤ 4) ∨ (cls = 1 ∧ kind = 0) ∨ (cls = 2 ∧ kind ≤ 2) ∨ (cls = 3 ∧ kind = 0) ∨ (cls = 4 ∧ kind ≤ 1))

/-- The first message of a class whose kind passes, and the inbox without it. -/
def takeMsg (ok : PryMsg → Bool) : List PryMsg → Option (PryMsg × List PryMsg)
  | [] => none
  | m :: ms => if ok m then some (m, ms) else (takeMsg ok ms).map fun r => (r.1, m :: r.2)

/-- Applies `f` to the first message of port p that passes, and removes it. -/
def State.onMsg (s : State) (p : Nat) (ok : PryMsg → Bool) (f : PryMsg → State → State) : State :=
  match takeMsg ok (s.port p).inbox with
  | some (m, rest) => f m (s.setPort p { s.port p with inbox := rest })
  | none => s

/-- The mirror has a gap (R478): mirror_ok clears and a resynchronisation is requested. -/
def State.mirrorGap (s : State) : State :=
  let s := { s with pry := { s.pry with mirHave := [] } }
  ((s.wr F.PRY_TWIN_STAT_mirror_ok 0).wr F.PRY_TWIN_STAT_ready 0).sendPair [4]

/-- The device takes the mirror: the joiner, or the STANDBY of a pair. -/
def State.mirrored (s : State) : Bool :=
  decide (s.pairState = pairJoining ∨ s.pairState = pairPaired) && !s.isActive

/-- The open message of a class is discarded (R463, R478). -/
def State.dropMsg (s : State) (p cls : Nat) : State :=
  let x := s.port p
  let s := (s.setPort p { x with part := tabPut none x.part cls none }).count (pryCnt p 3) 1
  if cls = 1 ∧ p = 0 ∧ s.mirrored = true then s.mirrorGap else s

/-- A 24-bit count of ns as the 32-bit device time nearest to `now`. DEDUCED (log 27). -/
def nearTime (now : BitVec 32) (w : Nat) : BitVec 32 :=
  now + BitVec.ofInt 32 (toSigned 24 (w + 2 ^ 24 - now.toNat % 2 ^ 24))

/-- A TIME frame: a STANDBY follows its ACTIVE, a worker its parent, as R456 computes with A = 0 (R476, R488). -/
def State.onTime (s : State) (p : Nat) (ws : List Nat) : State :=
  let w := fun k => ws.getD k 0
  let bits := toBits 24 (w 0) ++ toBits 24 (w 1) ++ toBits 24 (w 2)
  if crc16 bits = w 3 / 2 ^ 8 then
    let rx := s.time
    let dtx := nearTime rx (w 0)
    let rt := toSigned 24 (rx.toNat + 2 ^ 26 - w 1 - w 2)
    let s := { s with pry := { s.pry with syncRx := some (dtx, rx) } }
    if (p = 0 ∧ s.mirrored = true) ∨ (p = 1 ∧ s.domRole = 1) then
      let r := s.roundFree (2 * (rx - dtx).toInt - rt) 2
      (r.2.follow r.1 10).1
    else s
  else s

/-- A TIME frame goes with every heartbeat (R476, R488). -/
def State.sendTime (s : State) (p : Nat) : State :=
  let dtx := s.time.toNat % 2 ^ 24
  let (dec, turn) := match s.pry.syncRx with
    | some (d, r) => (d.toNat % 2 ^ 24, (s.time - r).toNat % 2 ^ 24)
    | none => (0, 0)
  let crc := crc16 (toBits 24 dtx ++ toBits 24 dec ++ toBits 24 turn)
  s.pryTx p ⟨0, 2, 0, s.rd F.PRY_DOM_STAT_dom, [dtx, dec, turn, crc * 2 ^ 8]⟩

/-- A message is whole: TIME acts at once, any other waits in the inbox. -/
def State.msgDone (s : State) (p : Nat) (m : PryMsg) : State :=
  if m.cls = 0 ∧ m.kind = 2 then s.onTime p m.words
  else s.setPort p { s.port p with inbox := (s.port p).inbox ++ [m] }

/-- A frame that has passed R462 joins its message (R463). -/
def State.frameJoins (s : State) (p : Nat) (bits : List Bool) : State :=
  let fld := fun (off n : Nat) => ofBits ((bits.drop off).take n)
  let cls := fld 0 4
  let first := decide (fld 8 1 = 1)
  let last := decide (fld 9 1 = 1)
  let seq := fld 27 5
  let words := (List.range (fld 10 5)).map fun k => fld (32 + 24 * k) 24
  let s := s.count (pryCnt p 1) 1
  let x := s.port p
  let want := tabGet 0 x.rxSeq cls
  let skips := decide (want ≠ 0 ∧ want ≠ seq + 1)
  let s := s.setPort p { x with rxSeq := tabPut 0 x.rxSeq cls ((seq + 1) % 32 + 1) }
  let open' := (tabGet none x.part cls).isSome
  let s := if open' && (skips || first) then s.dropMsg p cls else s
  let now := tabGet none (s.port p).part cls
  let put := fun (m : Option PryMsg) (t : State) => t.setPort p { t.port p with part := tabPut none (t.port p).part cls m }
  let m : Option PryMsg :=
    if first then some ⟨cls, fld 4 4, fld 15 6, fld 21 6, words⟩
    else now.map fun m => { m with words := m.words ++ words }
  match m with
  | none => s
  | some m => if last then (put none s).msgDone p m else put (some m) s

/-- PORYON_FRAME_RX: bytes 1 to 62 of a frame; `codes`: no code violation, and /T/ at byte 63 (R461 to R464). -/
def execPoryonFrameRx (p : Fin 6) (content : List Byte) (codes : Bool) (s : State) : Out :=
  .next (
    let bits := byteBits (content.map BitVec.toNat)
    let cls := ofBits (bits.take 4)
    let kind := ofBits ((bits.drop 4).take 4)
    if s.portState p = portTraining ∨ s.portState p = portLinked then
      if codes = false ∨ content.length ≠ 62 ∨ fcs32 (bits.take 464) ≠ ofBits (bits.drop 464) then s.count (pryCnt p 2) 1
      else if kindKnown cls kind = false ∨ 18 < ofBits ((bits.drop 10).take 5) then
        let s := s.count (pryCnt p 2) 1
        if (tabGet none (s.port p).part cls).isSome then s.dropMsg p cls else s
      else s.frameJoins p bits
    else s)

/-- MESSAGE: the packet goes to the receive queue of the port, or is dropped whole (R164, R464). -/
def execMessage (p : Fin 6) (s : State) : Out :=
  .next (s.onMsg p (fun m => decide (m.cls = 3)) fun m t =>
    if m.words.length ≤ queueFree (35 + p) (t.queue (35 + p)) then t.pushAll (35 + p) (m.words.map (BitVec.ofNat 24))
    else (t.pushAll (35 + p) (m.words.map (BitVec.ofNat 24))).count (pryCnt p 3) 1)

/-! ### The domain (R485 to R489) -/

/-- The domain numbers. -/
def numbers : List Nat := List.range 64

def State.numUsed (s : State) (d : Nat) : Bool := s.bit F.PRY_DOM_NODE_present [d]

/-- The members a manager reports, itself with number 0 among them (R485). -/
def State.countMembers (s : State) : State :=
  s.wr F.PRY_DOM_STAT_members (numbers.filter fun d => decide (d = 0) || s.numUsed d).length

/-- The number that a worker of this serial has. -/
def State.numberOf (s : State) (serial : Nat) : Option Nat :=
  numbers.find? fun d => decide (d ≠ 0) && s.numUsed d && decide (s.rd F.PRY_DOM_SER_serial [d] = serial)

/-- The number for a worker of this serial: its own binding in PRY_DOM_MAP, else the lowest unbound number that is not in
use (R486). A worker whose present binding the mirror carried keeps its number (R492). DEDUCED (log 27). -/
def State.numberFor (s : State) (serial : Nat) : Option Nat :=
  match (numbers.find? fun d => decide (d ≠ 0 ∧ s.cur F.PRY_DOM_MAP_serial [d] = serial ∧ serial ≠ 0)).or
      (s.numberOf serial) with
  | some d => some d
  | none => numbers.find? fun d => decide (d ≠ 0 ∧ s.cur F.PRY_DOM_MAP_serial [d] = 0) && !s.numUsed d

/-- A DOMAIN message on a port. -/
def State.sendDomain (s : State) (p : Nat) (ws : List Nat) : State := s.pryTx p ⟨0, 4, 0, s.rd F.PRY_DOM_STAT_dom, ws⟩

/-- A DOMAIN message on every LINKED DN port. -/
def State.domainDown (s : State) (ws : List Nat) : State := forEach (fun p t => t.sendDomain p ws) dnPorts s

/-- The number d is reached through the DN port below which its worker is. -/
def State.noteRoute (s : State) (serial d : Nat) : State :=
  { s with pry := { s.pry with routes := tabPut none s.pry.routes d (tabGet none s.pry.below serial) } }

/-- The worker of this serial identity is below DN port p. -/
def State.noteBelow (s : State) (serial p : Nat) : State :=
  { s with pry := { s.pry with below := tabPut none s.pry.below serial (some p) } }

/-- The manager assigns a number to a worker: [2, serial, number] goes down (R486). -/
def State.assignNumber (s : State) (serial parent dn depth : Nat) : State :=
  match s.numberFor serial with
  | none => (s.wr F.PRY_DOM_STAT_full 1).raise 0x47 serial
  | some d =>
    let s := ((s.wr F.PRY_DOM_NODE_present 1 [d]).wr F.PRY_DOM_NODE_depth depth [d]).wr F.PRY_DOM_NODE_parent parent [d]
    let s := (s.wr F.PRY_DOM_NODE_dn dn [d]).wr F.PRY_DOM_SER_serial serial [d]
    (((s.countMembers).noteRoute serial d).domainDown [2, serial, d]).mirrorDomain

/-- The number d and those of the workers below it are released (R486). -/
def State.releaseNumber (s : State) : Nat → Nat → State
  | 0, _ => s
  | k + 1, d =>
    let s := forEach (fun e t =>
      if t.numUsed e && decide (e ≠ 0 ∧ e ≠ d ∧ t.rd F.PRY_DOM_NODE_parent [e] = d) then t.releaseNumber k e else t) numbers s
    forEach (fun f t => t.wr f 0 [d]) [F.PRY_DOM_NODE_present, F.PRY_DOM_NODE_depth, F.PRY_DOM_NODE_parent,
      F.PRY_DOM_NODE_dn, F.PRY_DOM_SER_serial] s

/-- The worker of this serial has left the tree. -/
def State.workerLeft (s : State) (serial : Nat) : State :=
  match s.numberOf serial with
  | some d => (s.releaseNumber 3 d).countMembers.mirrorDomain
  | none => s

/-- A worker is linked on DN port p: the manager assigns its number, a worker reports it up (R486). -/
def State.workerLinked (s : State) (p serial : Nat) : State :=
  let s := s.noteBelow serial p
  if s.domRole = 2 then s.assignNumber serial 0 (p - 2) 1
  else s.sendDomain 1 [1, serial, s.rd F.PRY_DOM_STAT_dom, p - 2, s.rd F.PRY_DOM_STAT_depth + 1]

/-- A worker that has its number reports those LINKED on its DN ports, which the tree held under no number of its own before
(R486). DEDUCED (log 27). -/
def State.reportWorkers (s : State) : State :=
  forEach (fun p t => if t.linked p then t.workerLinked p (t.rd F.PRY_PORT_PEER_serial [p]) else t) dnPorts s

/-- What a DOMAIN message does: 1 a worker that has linked and 3 one that has left travel up, 2 a number travels down. -/
def State.onDomain (s : State) (p : Nat) (ws : List Nat) : State :=
  let w := fun k => ws.getD k 0
  if w 0 = 2 then
    if p = 1 ∧ w 1 = s.ownSerial then (s.wr F.PRY_DOM_STAT_dom (w 2)).reportWorkers else (s.noteRoute (w 1) (w 2)).domainDown ws
  else
  let s := if w 0 = 1 then s.noteBelow (w 1) p else s
  if s.domRole = 2 then
    if w 0 = 1 then s.assignNumber (w 1) (w 2) (w 3) (w 4) else if w 0 = 3 then s.workerLeft (w 1) else s
  else s.sendDomain 1 ws

/-- DOMAIN (R486). PRESUMED (log 40). -/
def execDomain (p : Fin 6) (s : State) : Out :=
  .next (s.onMsg p (fun m => decide (m.cls = 0 ∧ m.kind = 4)) fun m t => t.onDomain p m.words)

/-- A domain commit in HELD fails when its manager is lost (R146). -/
def State.failHeldDomain (s : State) : State :=
  if s.vtState = vtHeld ∧ s.bit F.VTG_STAT_domain = true then s.failCommit 10 else s

/-- The manager is declared lost (R146, R487). -/
def State.managerLost (s : State) : State :=
  let s := ((s.wr F.PRY_DOM_STAT_mgr_ok 0).wr F.PRY_DOM_STAT_mgr_lost 1).raise 0x46 0
  ({ s with pry := { s.pry with orphan := true } } : State).failHeldDomain

/-- MANAGER_LOSS: a worker receives no manager heartbeat for 50 ms (R487). -/
def execManagerLoss (s : State) : Out :=
  .next (if s.domRole = 1 ∧ s.pry.orphan = false then s.managerLost else s)

/-- The words of a heartbeat (R464). -/
def State.beatWords (s : State) : List Nat :=
  [s.ownSerial, s.pry.beats % 2 ^ 24,
   s.mode * 2 ^ 21 + s.pairState * 2 ^ 19 + b2n s.isActive * 2 ^ 18 + b2n s.pry.orphan * 2 ^ 17
     + s.rd F.PRY_TWIN_STAT_ready * 2 ^ 16]

/-- A heartbeat with its TIME frame on port p. -/
def State.sendBeat (s : State) (p : Nat) : State :=
  (s.pryTx p ⟨0, 1, 0, s.rd F.PRY_DOM_STAT_dom, s.beatWords⟩).sendTime p

/-- MANAGER_HEARTBEAT_SEND: every 10 ms on each LINKED DN port; a worker that has lost its manager sends its own, with
orphan set; the STANDBY of a twinned manager sends none (R487, R492). -/
def execManagerHeartbeatSend (s : State) : Out :=
  .next (
    if (s.domRole = 2 ∧ s.mirrored = false) ∨ (s.domRole = 1 ∧ s.pry.orphan = true) then
      let s := { s with pry := { s.pry with beats := s.pry.beats + 1 } }
      forEach (fun p t => t.sendBeat p) dnPorts s
    else s)

/-- A forwarded event or telemetry packet: up the tree, or into the manager's telemetry stream (R489). -/
def State.onTelem (s : State) (m : PryMsg) : State :=
  if s.domRole = 2 then
    if m.kind = 0 then
      s.pushAll 33 ([m.src * 2 ^ 18 + 2 ^ 17 + 4, m.words.getD 0 0 % 2 ^ 8, m.words.getD 1 0, m.words.getD 2 0].map (BitVec.ofNat 24))
    else s.pushAll 33 (m.words.map (BitVec.ofNat 24))
  else if s.linked 1 then s.pryTx 1 m
  else s.count (pryCnt 1 4) 1

/-- EVENT (R489): a TELEM message received on a DN port. DEDUCED (log 27). -/
def execEvent (p : Fin 6) (s : State) : Out :=
  .next (s.onMsg p (fun m => decide (m.cls = 4)) fun m t => t.onTelem m)

/-! ### IDENT and the loss of a link (R465 to R470) -/

/-- The roles of both ends pass (R467, R485): TWIN to TWIN, UP to a DN port; a device at depth 3 and a standalone one
refuse workers. -/
def State.rolesPass (s : State) (p w1 w2 : Nat) : Bool :=
  let far := w2 / 2 ^ 19 % 8
  let kind := if p = 0 then far = 0 else if p = 1 then 2 ≤ far ∧ far ≤ 5
    else far = 1 ∧ s.domRole ≠ 0 ∧ s.rd F.PRY_DOM_STAT_depth < 3
  decide kind && decide (w1 / 2 ^ 8 = s.identW1 / 2 ^ 8)

/-- Port p becomes LINKED (R465, R485, R486). -/
def State.becomeLinked (s : State) (p w0 w2 : Nat) : State :=
  let s := ((s.wr F.PRY_PORT_STAT_state portLinked [p]).wr F.PRY_PORT_STAT_pwr 0 [p]).raise 0x40 p
  let s := if p = 1 ∧ s.domRole = 1 then s.wr F.PRY_DOM_STAT_depth (min 3 (w2 / 2 ^ 10 % 4 + 1)) else s
  if 2 ≤ p then s.workerLinked p w0 else s

/-- A received IDENT (R465, R467). -/
def State.onIdent (s : State) (p : Nat) (ws : List Nat) : State :=
  let w := fun k => ws.getD k 0
  let s := (s.wr F.PRY_PORT_PEER_serial (w 0) [p]).wr F.PRY_PORT_PINFO_info (w 2) [p]
  if s.portState p = portTraining then
    if s.rolesPass p (w 1) (w 2) then (if w 3 = s.ownSerial then s.becomeLinked p (w 0) (w 2) else s.sendIdent p)
    else (s.wr F.PRY_PORT_STAT_state portMismatch [p]).raise 0x43 p
  else s

/-- IDENT (R465). -/
def execIdent (p : Fin 6) (s : State) : Out :=
  .next (s.onMsg p (fun m => decide (m.cls = 0 ∧ m.kind = 0)) fun m t => t.onIdent p m.words)

/-- What the loss of a link means to the pair, the domain and the clock (R470, R479, R484, R486). -/
def State.afterLinkLoss (s : State) (p : Nat) : State :=
  if p = 0 then
    let s := { s with pry := { s.pry with beat := false } }
    if s.pairState = pairPaired then s.partnerLost else if s.pairState = pairJoining then s.joinFails else s
  else if p = 1 then (if s.domRole = 1 then s.wr F.PRY_DOM_STAT_dom 0 else s)
  else
    let serial := s.rd F.PRY_PORT_PEER_serial [p]
    if s.domRole = 2 then s.workerLeft serial else s.sendDomain 1 [3, serial]

/-- LINK_LOSS: signal for 10 µs or alignment is lost (R469). On a device that takes its clock from UP, the loss of UP stops
the host clock, whose failure HOSTCLK_COAST and HOSTCLK_FAIL_DECLARE carry (R470). -/
def execLinkLoss (p : Fin 6) (s : State) : Out :=
  .next (
    if s.linked p then
      let s := ((s.wr F.PRY_PORT_STAT_lost 1 [p]).wr F.PRY_PORT_STAT_fails 0 [p]).raise 0x41 p
      let s := s.wr F.PRY_PORT_STAT_state portDown [p]
      (s.startAttempt p false).afterLinkLoss p
    else s)

/-! ### Heartbeats (R473, R478, R479, R487) -/

/-- Every item of the set has arrived, and every slice enabled in CURRENT is in TRACK with LFR in multiframe (R478). -/
def State.standbyReady (s : State) : Bool :=
  s.bit F.PRY_TWIN_STAT_mirror_ok
    && slices8.all fun i => !s.enabled i || (decide (s.acq i = acqTrack) && s.bit F.LFR_STAT_im [i])

/-- The joiner or the STANDBY sets ready; a joiner that reports ready is PAIRED (R473, R478). -/
def State.readiness (s : State) : State :=
  if s.mirrored then
    let s := if s.standbyReady then s.wr F.PRY_TWIN_STAT_ready 1 else s
    if s.pairState = pairJoining ∧ s.bit F.PRY_TWIN_STAT_ready = true then s.wr F.PRY_TWIN_STAT_pair pairPaired else s
  else s

/-- In RECOVERY a device with no slice carrying traffic sends no heartbeat (R539). -/
def State.beats? (s : State) : Bool := decide (s.mode ≠ modeRecovery) || slices8.any fun i => s.keptTraffic i

/-- HEARTBEAT_SEND: every 250 µs on TWIN while LINKED (R474, R476, R478, R479, R539). DEDUCED (log 32). -/
def execHeartbeatSend (s : State) : Out :=
  .next (
    if s.linked 0 && s.beats? then
      let s := s.readiness.askJoin
      ({ s with pry := { s.pry with beats := s.pry.beats + 1 } }).sendBeat 0
    else s)

/-- The partner's heartbeat (R473, R478, R479). PEER_ACTIVE reads the partner's ACTIVE, which the heartbeat carries too. -/
def State.twinBeat (s : State) (w2 : Nat) : State :=
  let s := { s with pry := { s.pry with beat := true } }
  let s := s.wr F.PRY_TWIN_STAT_peer_active (w2 / 2 ^ 18 % 2)
  if (s.pairState = pairJoining ∨ s.pairState = pairPaired) ∧ s.isActive = true then
    let s := s.wr F.PRY_TWIN_STAT_ready (w2 / 2 ^ 16 % 2)
    if s.pairState = pairJoining ∧ w2 / 2 ^ 16 % 2 = 1 then s.wr F.PRY_TWIN_STAT_pair pairPaired else s
  else s

/-- The manager's heartbeat at a worker, relayed to its own DN ports (R487). -/
def State.managerBeat (s : State) (m : PryMsg) : State :=
  if m.words.getD 2 0 / 2 ^ 17 % 2 = 1 then (if s.pry.orphan then s else s.managerLost)
  else
    let s := { s.wr F.PRY_DOM_STAT_mgr_ok 1 with pry := { s.pry with orphan := false } }
    forEach (fun p t => (t.pryTx p m).sendTime p) dnPorts s

/-- HEARTBEAT: of the partner on TWIN, of the manager on UP (R479, R487). -/
def execHeartbeat (p : Fin 6) (s : State) : Out :=
  .next (s.onMsg p (fun m => decide (m.cls = 0 ∧ m.kind = 1)) fun m t =>
    if p = 0 then t.twinBeat (m.words.getD 2 0)
    else if p = 1 ∧ t.domRole = 1 then t.managerBeat m
    else t)

/-! ### PAIR (R474, R478, R482) -/

/-- What a PAIR message does: 1 join, 2 release at S, 3 its acknowledgement, 4 a request for the whole set, 5 detach, 6 the answer to
1. -/
def State.onPair (s : State) (ws : List Nat) : State :=
  let w := fun k => ws.getD k 0
  if w 0 = 1 ∨ w 0 = 6 then s.onJoin (decide (w 0 = 1)) (w 1) (w 2) (w 3) (w 4) (w 5) (w 6)
  else if w 0 = 2 then
    if s.pairState = pairPaired ∧ s.isActive = false then
      ({ s with pry := { s.pry with takeAt := some (w 1) } }).sendPair [3, w 1]
    else s
  else if w 0 = 3 then (if s.pry.relAt = some (w 1) then { s with pry := { s.pry with relAck := true } } else s)
  else if w 0 = 4 then s.twinResync
  else if w 0 = 5 then s.detached
  else s

/-- PAIR (R474). PRESUMED (log 40). -/
def execPair (s : State) : Out :=
  .next (s.onMsg 0 (fun m => decide (m.cls = 0 ∧ m.kind = 3)) fun m t => t.onPair m.words)

/-! ### MIRROR at the joiner and the STANDBY (R475 to R478) -/

/-- Item 0x01: [which, serial, first packet, address and word pairs], or [3, archive count, PREVIOUS is valid]. -/
def State.mirImage (s : State) (c : List Nat) : State :=
  let which := c.getD 0 0
  let fresh := decide (c.getD 2 0 = 1)
  let from' := fun (m : Tab Nat) => imgPairs (if fresh then [] else m) (c.drop 3)
  if which = 0 then
    let old := s.vtg.current
    let m := from' s.vtg.current
    let s := ({ s with vtg := { s.vtg with current := m, staged := m, curValid := true } }).vintSet [(0, 4), (1, 4)]
    (s.wr F.VTG_SERIAL_CUR_serial (c.getD 1 0)).switchBlocks old .current (fun _ => false) fun _ => none
  else if which = 1 then
    let s := ({ s with vtg := { s.vtg with previous := from' s.vtg.previous } }).vintSet [(2, 4)]
    (s.wr F.VTG_SERIAL_PREV_serial (c.getD 1 0)).wr F.VTG_STAT_prev_valid 1
  else if which = 3 then
    let s := { s with vtg := { s.vtg with archCount := c.getD 1 0 } }
    if c.getD 2 0 = 1 then s
    else ({ s with vtg := { s.vtg with previous := [] } }.wr F.VTG_STAT_prev_valid 0).wr F.VTG_SERIAL_PREV_serial 0
  else
    let m := (s.pry.mirCom.map MirrorCommit.image).getD []
    { s with pry := { s.pry with mirCom := some ⟨c.getD 1 0, 0, from' m, []⟩ } }

/-- Triples of slice, own B and far B. -/
def mirTriples : Nat → List Nat → List (Nat × Nat × Nat)
  | 0, _ => []
  | k + 1, l => (l.getD 0 0, l.getD 1 0, l.getD 2 0) :: mirTriples k (l.drop 3)

/-- Item 0x02: a mirrored commit is ARMED at the boundaries that the ACTIVE agreed (R477). -/
def State.mirCommit (s : State) (c : List Nat) : State :=
  match s.pry.mirCom with
  | some k =>
    if k.serial = c.getD 0 0 then
      let ts := mirTriples (c.getD 2 0) (c.drop 3)
      let s := { s with pry := { s.pry with mirCom := none },
                        vtg := { s.vtg with commit := some ⟨k.image, 0, false, ts.map Prod.fst⟩,
                                            lastSerial := BitVec.ofNat 24 k.serial } }
      let s := (s.wr F.VTG_SERIAL_PEND_serial k.serial).wr F.VTG_STAT_bd (c.getD 1 0)
      let s := forEach (fun e t =>
        let t := (t.wr F.TDL_AGR_BND_value e.2.1 [e.1]).wr F.TDL_AGR_PEER_value e.2.2 [e.1]
        t.setTdl e.1 { t.tdl1 e.1 with rxAt := if t.bit F.LFR_STAT_sf_ok [e.1] then some e.2.2 else none }) ts s
      (s.wr F.VTG_STAT_line (b2n (decide (ts ≠ [])))).toVt vtArmed
    else s
  | none => s

/-- Item 0x03: [0, serial, code] a failure, [1, serial] a commit in force, [2, serial] a return in force, [3, serial, cause,
(slice, boundary, 0) of each slice] a return that starts (R477). -/
def State.mirOutcome (s : State) (c : List Nat) : State :=
  let serial := c.getD 1 0
  if c.getD 0 0 = 0 then s.failCommit (c.getD 2 0)
  else if c.getD 0 0 = 1 then
    match s.vtg.commit with
    | some k => if s.vtState = vtArmed ∧ s.rd F.VTG_SERIAL_PEND_serial = serial ∧ k.slices = [] then s.takeEffect k else s
    | none => s
  else if c.getD 0 0 = 2 then
    if s.vtState = vtReturning ∧ s.vtg.retLine = false ∧ s.rd F.VTG_SERIAL_PREV_serial = serial then s.returnEffect else s
  else if c.getD 0 0 = 3 then
    let s := s.startReturn (c.getD 2 0)
    forEach (fun e t => t.setTdl e.1 { t.tdl1 e.1 with ownRet := some e.2.1 })
      (mirTriples ((c.length - 3) / 3) (c.drop 3)) s
  else s

/-- Item 0x09. -/
def State.mirGrids (s : State) : List Nat → State
  | k :: n :: a :: b :: ws =>
    State.mirGrids (if k = 0 then s.wr F.LFR_TX_SFC_count a [n] else s.setMfc n 0 (a * 2 ^ 24 + b)) ws
  | _ => s

/-- Counters of a snapshot of the partner. -/
def mirCounts (t : Tab Nat) : List Nat → Tab Nat
  | n :: h :: l :: ws => mirCounts (tabPut 0 t n (h * 2 ^ 24 + l)) ws
  | _ => t

/-- Item 0x08: a key unwrapped into the same slot. -/
def State.mirKey (s : State) (c : List Nat) : State :=
  match s.pry.joinKey with
  | some k =>
    match unwrapKey k ((c.drop 3).flatMap wordBytes) with
    | some key =>
      let n := c.getD 0 0
      let s := s.fillSlot n (c.getD 1 0) (c.getD 2 0) key
      { s with pry := { s.pry with mirKeys := if n ∈ s.pry.mirKeys then s.pry.mirKeys else n :: s.pry.mirKeys } }
    | none => s
  | none => s

/-- Item 0x0A: the window configuration, and the present bindings in place of those held (R492). -/
def State.mirDomain (s : State) (c : List Nat) : State :=
  let s := forEach (fun d t => forEach (fun f u => u.wr f 0 [d]) [F.PRY_DOM_NODE_present, F.PRY_DOM_SER_serial] t) (numbers.drop 1)
    (s.wr F.PRY_RFW_CFG_to (c.headD 0))
  (forEach (fun e t =>
    let t := (t.wr F.PRY_DOM_NODE_present 1 [e.1]).wr F.PRY_DOM_SER_serial e.2.1 [e.1]
    ((t.wr F.PRY_DOM_NODE_depth (e.2.2 / 2 ^ 21 % 4) [e.1]).wr F.PRY_DOM_NODE_parent (e.2.2 / 2 ^ 15 % 64) [e.1]).wr
      F.PRY_DOM_NODE_dn (e.2.2 / 2 ^ 13 % 4) [e.1]) (mirTriples ((c.length - 1) / 3) (c.drop 1)) s).countMembers

/-- One mirror item with content `c` (R475). -/
def State.mirItem (s : State) (typ : Nat) (c : List Nat) : State :=
  if typ = 1 then s.mirImage c
  else if typ = 2 then s.mirCommit c
  else if typ = 3 then s.mirOutcome c
  else if typ = 4 then
    if c.length = 4 then (s.pushAll 32 (c.map (BitVec.ofNat 24))).archiveRecord (c.map (BitVec.ofNat 24)) else s
  else if typ = 5 then
    if c.length = 3 then s.psMirrored (c.getD 0 0) (c.getD 1 0) (c.getD 2 0) else s
  else if typ = 6 then
    let s := if c.length = 3 then s.wr F.TIM_SEL_LOCK_lock (c.getD 2 0) else s
    s.selCommand (c.getD 0 0) (c.getD 1 0)
  else if typ = 7 then
    { s with pry := { s.pry with peerCnt := mirCounts (if c.getD 0 0 = 1 then [] else s.pry.peerCnt) (c.drop 1) } }
  else if typ = 8 then (if c.length = 17 then s.mirKey c else s)
  else if typ = 10 then s.mirDomain c
  else (forEach (fun k t => t.setMfc k 0 0) channels s).mirGrids c

/-- One packet of the mirror: its sequence, its item, and what has arrived of the set, which CURRENT opens (R475, R478). -/
def State.onMirror (s : State) (ws : List Nat) : State :=
  let typ := ws.getD 0 0 / 2 ^ 16 % 256
  let seq := ws.getD 1 0
  let c := ws.drop 2
  let gap := decide (s.pry.mirRx ≠ none ∧ s.pry.mirRx ≠ some seq)
  let s := { s with pry := { s.pry with mirRx := some ((seq + 1) % 2 ^ 24) } }
  let s := if gap then s.mirrorGap else s
  let opens := decide (typ = 1 ∧ c.getD 0 0 = 0 ∧ c.getD 2 0 = 1)
  let have' := if opens then [1] else if s.pry.mirHave = [] ∨ typ ∈ s.pry.mirHave ∨ 9 < typ then s.pry.mirHave else typ :: s.pry.mirHave
  let s := { s with pry := { s.pry with mirHave := have' } }
  let s := if 9 ≤ have'.length then s.wr F.PRY_TWIN_STAT_mirror_ok 1 else s
  s.mirItem typ c

/-- MIRROR: at the joiner or the STANDBY (R475 to R478). PRESUMED (log 40). -/
def execMirror (s : State) : Out :=
  .next (s.onMsg 0 (fun m => decide (m.cls = 1)) fun m t => if t.mirrored then t.onMirror m.words else t)

end Sys2Proof.Machine
end

