-- ==== Sys2Proof/Machine/Ageing.lean ====
section
/-!
DEFINITION. Ageing: sentinel passes, eye scans, the ageing record in the cask and the core voltage request (chapter 21,
R518 to R522).
-/

namespace Sys2Proof.Machine

/-! ### Sentinel passes (R518 to R520) -/

/-- SENTINEL_PASS_START: at each interval, and on entry to PREPARE (R519). -/
def execSentinelPassStart (s : State) : Out :=
  .next (
    if s.mode ≠ modeDormant ∧ s.mon.agePass = false then
      { s with mon := { s.mon with agePass := true, ageDue := false } }
    else s)

/-- The power domain of site k is gated: the slice of sites 0 to 63 is DARK, or the decoder pool or the client lanes, of sites 64 to
79 and 80 to 87, are gated (R518, R519). -/
def State.siteGated (s : State) (k : Nat) : Bool :=
  if k < 64 then decide (s.sliceState (k / 8) = slDark)
  else if k < 80 then s.blockGated 5 else decide (k < 88) && s.blockGated 10

/-- The shift of site k in 0.1 ppm from the counts of its protected and its stressed oscillator over the same cycles: their
frequency ratio less 1, less the factory baseline (R518). No rule states its rounding, nor the shift of a stressed oscillator that
stands still or one that 23 bits do not hold. DESIGN CHOICE (log 2). -/
def State.siteShift (s : State) (k prot stress : Nat) : Nat × State :=
  let r := s.roundFree (((prot : Int) - stress) * 10 ^ 7) stress
  let d := r.1 - (Config.siteBaseline k).toInt
  if stress ≠ 0 ∧ -(2 ^ 22 : Nat) ≤ d ∧ d < (2 ^ 22 : Nat) then (ofSigned 23 d, r.2)
  else (r.2.takeWord.1 % 2 ^ 23, r.2.takeWord.2)

/-- One site of a pass: the counts of its oscillators, or none where its domain is gated when its turn comes (R518, R519). -/
def State.siteEnd (s : State) (k : Nat) (v : Option (Nat × Nat)) : State :=
  match v with
  | some c =>
    if s.siteGated k then s.wr F.MON_AGE_SITE_stale 1 [k]
    else
      let r := s.siteShift k c.1 c.2
      (r.2.wr F.MON_AGE_SITE_shift r.1 [k]).wr F.MON_AGE_SITE_stale 0 [k]
  | none => s.wr F.MON_AGE_SITE_stale 1 [k]

/-- The measured sites of the pass with their shifts. -/
def State.measuredSites (s : State) : List (Nat × Int) :=
  ((List.range 96).filter fun k => decide (s.rd F.MON_AGE_SITE_stale [k] = 0)).map fun k =>
    (k, toSigned 23 (s.rd F.MON_AGE_SITE_shift [k]))

/-- The largest shift and its site, the first of equal ones. -/
def worstSite : List (Nat × Int) → Option (Nat × Int)
  | [] => none
  | p :: ps => match worstSite ps with
    | some q => if p.2 < q.2 then some q else some p
    | none => some p

/-- Lane l of MON_AGE_EYE is scanned: an ACTIVE client lane or a lane of a LINKED Poryon port (R520). DEDUCED (log 30). -/
def State.eyeScanned (s : State) (l : Nat) : Bool :=
  s.curBit F.MON_AGE_CFG_eye_en
    && if l < 64 then decide (s.rd F.CLI_LANE_STAT_pstate [l] = 0) else s.linked ((l - 64) / 2)

/-- One lane of the eye scans of a pass (R520). -/
def State.eyeEnd (s : State) (l mv : Nat) : State :=
  if s.eyeScanned l then (s.wr F.MON_AGE_EYE_open mv [l]).wr F.MON_AGE_EYE_stale 0 [l] else s.wr F.MON_AGE_EYE_stale 1 [l]

/-- MON_AGE_STAT after a pass; a largest shift that the 17 bits do not hold has no stated form. -/
def State.ageStat (s : State) : State :=
  match worstSite s.measuredSites with
  | none => s
  | some (k, d) =>
    if 0 ≤ d ∧ d < 2 ^ 17 then (s.wr F.MON_AGE_STAT_worst d.toNat).wr F.MON_AGE_STAT_site k
    else
      let r := s.takeWord
      (r.2.wr F.MON_AGE_STAT_worst r.1).wr F.MON_AGE_STAT_site k

/-- SENTINEL_PASS_END: `sites` gives what the protected and the stressed oscillator of each site counted over the same 2^20 cycles, none
where its domain was gated; `eyes` the vertical opening of each lane in mV (R518 to R520). DEDUCED (log 30). -/
def execSentinelPassEnd (sites : List (Option (Nat × Nat))) (eyes : List Nat) (s : State) : Out :=
  .next (
    if s.mon.agePass then
      let s := { s with mon := { s.mon with agePass := false } }
      let s := forEach (fun k t => t.siteEnd k (sites.getD k none)) (List.range 96) s
      let s := forEach (fun l t => t.eyeEnd l (eyes.getD l 0)) (List.range 76) s
      let s := s.ageStat
      s.raise 0x4C (s.rd F.MON_AGE_STAT_worst * 2 ^ 7 + s.rd F.MON_AGE_STAT_site)
    else s)

/-! ### The ageing record (R521) -/

/-- CEL_CNT_CE of a cellar channel, over its five regions (R412, R575). -/
def State.ceCount (s : State) (c : Nat) : Nat := ((List.range 5).map fun r => tabGet 0 s.counters (576 + 8 * r + c)).sum

/-- The 60 bytes of an ageing record before its CRC. -/
def State.ageBody (s : State) (hours : Nat) : List Nat :=
  let low := fun (i : Nat) => match tabGet none s.mon.low i with
    | some m => ofSigned 12 m
    | none => 0x800
  let growth := fun (c : Nat) => min (2 ^ 24 - 1) (s.ceCount c - tabGet 0 s.mon.ceBase c)
  [1, 0, 0] ++ word3 s.mon.recNext ++ word3 hours ++ word3 (s.rd F.MON_AGE_STAT_worst) ++ [s.rd F.MON_AGE_STAT_site]
    ++ word3 (vddOf s.vtg.current * 2 ^ 12)
    ++ ([0, 2, 4, 6].flatMap fun i => word3 (low i * 2 ^ 12 + low (i + 1)))
    ++ (slices8.flatMap fun c => word3 (growth c)) ++ List.replicate 8 0

/-- AGEING_RECORD_WRITE: after 24 h, or for DORMANT; `ok1` and `ok2`: the read-back of the first and of the second write
passes. While a program holds claim 0x1F the record waits (R192, R521). DEDUCED (log 30). -/
def execAgeingRecordWrite (hours : Nat) (ok1 ok2 : Bool) (s : State) : Out :=
  .next (
    if s.claimed 0x1F then s
    else
      let body := s.ageBody (s.mon.hours + hours)
      let bytes := body ++ fcsBytes (crc32 body)
      let slot := s.mon.recSlot
      let sec := s.areaStart 2 + slot / 64 * 4096
      let a := sec + slot % 64 * 64
      let s := if slot % 64 = 0 then s.caskErase sec else s
      let s := s.caskProgram a bytes
      let s := if ok1 || ok2 then s else s.wr F.MON_AGE_STAT2_hist_fail 1
      let base := slices8.foldl (fun t c => tabPut 0 t c (s.ceCount c)) []
      { s with mon := { s.mon with recNext := (s.mon.recNext + 1) % 2 ^ 24, recSlot := (slot + 1) % 4096,
                                   hours := s.mon.hours + hours, recDue := false, low := [], ceBase := base } })

/-! ### The core voltage request (R522) -/

/-- AVS_VOUT: one try of the command that waits; `ok`: the status confirms the target within 1 ms. It waits while a program
holds claim 0x1E (R522). DEDUCED (log 30). -/
def execAvsVout (ok : Bool) (s : State) : Out :=
  .next (
    match s.mon.vddDue with
    | none => s
    | some mv =>
      if s.claimed 0x1E then s
      else if ok then { s with mon := { s.mon with vddSent := mv, vddDue := none, vddTry := 0 } }
      else if 8 ≤ s.mon.vddTry + 1 then
        (({ s with mon := { s.mon with vddDue := none, vddTry := 0 } }).wr F.MON_AGE_STAT2_avs_fail 1).raise 0x4D (mv - 300)
      else { s with mon := { s.mon with vddTry := s.mon.vddTry + 1 } })

end Sys2Proof.Machine
end

