-- ==== Sys2Proof/Machine/Package.lean ====
section
/-!
DEFINITION. The cask window, OTP programming, the front-end SPI masters and the save of a calibration generation
(chapters 07 and 23, R192, R552 to R557).
-/

namespace Sys2Proof.Machine

/-! ### The cask (R192, R555) -/

/-- CASK_SAVE: a generation that waits is saved, unless a program holds claim 0x1F (R192). -/
def execCaskSave (i : Fin 8) (verified : Bool) (s : State) : Out :=
  .next (if s.claimed 0x1F then s else s.saveGeneration i verified)

/-- The byte address of the window (R555). -/
def State.winAddr (s : State) : Nat := s.rd F.GLB_CASK_WIN_CMD_addr_hi * 2 ^ 24 + s.rd F.GLB_CASK_WIN_ADDR_addr

/-- An operation on this address is refused: it lies in the directory or factory data, or beyond the flash (R555).
DEDUCED (log 31). -/
def State.winBad (s : State) (op a : Nat) : Bool :=
  let lo := if op = 2 then a / 4096 * 4096 else a
  let hi := if op = 2 then lo + 4096 else a + 3
  let f := s.areaStart 0
  decide (s.caskSize ≤ a) || decide (lo < 4096) || decide (lo < f + 0x10000 ∧ f < hi)

/-- A go of the window (R555). DEDUCED (log 31). -/
def State.caskGo (s : State) (op : Nat) : State :=
  let s := s.wr F.GLB_CASK_WIN_CMD_op op
  let a := s.winAddr
  if op = 3 ∨ s.winBad op a = true ∨ s.deviceCask = true ∨ s.bit F.GLB_CASK_WIN_CMD_busy = true then
    s.wr F.GLB_CASK_WIN_CMD_refused 1
  else
    { s.wr F.GLB_CASK_WIN_CMD_busy 1 with ctl := { s.ctl with caskOp := some (op, a, s.rd F.GLB_CASK_WIN_DATA_data) } }

def execCaskWinRead (s : State) : Out := .next (s.caskGo 0)
def execCaskWinProgram (s : State) : Out := .next (s.caskGo 1)
def execCaskWinErase (s : State) : Out := .next (s.caskGo 2)

/-- The byte address goes on by 3, carrying into addr_hi (R555). -/
def State.winNext (s : State) (a : Nat) : State :=
  (s.wr F.GLB_CASK_WIN_ADDR_addr (a + 3)).wr F.GLB_CASK_WIN_CMD_addr_hi ((a + 3) / 2 ^ 24)

/-- A program or erase that failed its flash status: what the cells hold, the manual leaves open.
DESIGN CHOICE (log 2). DEDUCED (log 31). -/
def State.caskFailed (s : State) (op a d : Nat) : State :=
  if op = 1 then
    let r := s.takeWord
    r.2.caskProgram a (word3 (d ||| r.1))
  else if Config.freeBool s.free then ({ s with free := s.free + 1 }).caskErase (a / 4096 * 4096)
  else { s with free := s.free + 1 }

/-- CASK_WIN_DONE: the operation finishes at the flash (R555). -/
def execCaskWinDone (err : Bool) (s : State) : Out :=
  .next (
    match s.ctl.caskOp with
    | none => s
    | some (op, a, d) =>
      let s := { s.wr F.GLB_CASK_WIN_CMD_busy 0 with ctl := { s.ctl with caskOp := none } }
      if op = 0 then (s.wr F.GLB_CASK_WIN_DATA_data (s.caskWord a)).winNext a
      else
        let s := if err then (s.caskFailed op a d).wr F.GLB_CASK_WIN_CMD_err 1
          else if op = 1 then s.caskProgram a (word3 d) else s.caskErase (a / 4096 * 4096)
        if op = 1 then s.winNext a else s)

/-! ### OTP (R366, R556) -/

/-- OTP_PROG: the field select, the value, whether VPP_OTP is at 1.8 V and whether TCK stays within its maximum (R556, R571).
DEDUCED (log 31). -/
def execOtpProg (field : Byte) (value : BitVec 384) (vpp tck : Bool) (s : State) : Out :=
  .next (
    let open' := vpp && tck && decide (s.mode = modeDormant)
    if field = 1 ∧ open' = true ∧ s.cip.devKek = none then
      let key := value.extractLsb' 128 256
      let s := { s with cip := { s.cip with devKek := some key }, ctl := { s.ctl with otpKcv := checkValue key } }
      s.wr F.CIP_STAT_dev_kek 1
    else if field = 2 ∧ open' = true ∧ s.ctl.otpOwner = none then
      { s with ctl := { s.ctl with otpOwner := some value } }
    else { s with ctl := { s.ctl with otpRefused := true } })

/-! ### Front-end SPI (R557) -/

/-- The bits of a frame that the master drives: a write with its data and CRC, or a read with its CRC (table "Front-end
frames"). -/
def fesFrame (read : Bool) (addr data : Nat) : List Bool :=
  let h := read :: toBits 23 addr
  let b := if read then h else h ++ toBits 24 data
  b ++ toBits 8 (crc8 b)

/-- A go of master i (R557). -/
def State.fesGo (s : State) (i : Nat) (read : Bool) : State :=
  let s := s.wr F.GLB_FES_CMD_op (b2n read) [i]
  if s.bit F.GLB_FES_CMD_busy [i] then s.wr F.GLB_FES_CMD_refused 1 [i]
  else
    let f := (read, s.rd F.GLB_FES_CMD_cs [i], s.rd F.GLB_FES_ADDR_addr [i], s.rd F.GLB_FES_DATA_data [i])
    { s.wr F.GLB_FES_CMD_busy 1 [i] with ctl := { s.ctl with fesRun := tabPut none s.ctl.fesRun i (some f), fesOut := tabPut [] s.ctl.fesOut i (fesFrame read f.2.2.1 f.2.2.2) } }

def execFesWrite (i : Fin 8) (s : State) : Out := .next (s.fesGo i false)
def execFesRead (i : Fin 8) (s : State) : Out := .next (s.fesGo i true)

/-- What the front end answered is good: status 0x5A to a write, the CRC-8 of its data to a read. -/
def fesGood (read : Bool) (r : BitVec 24 × Byte) : Bool :=
  if read then decide (r.2.toNat = crc8 (toBits 24 r.1.toNat)) else decide (r.2 = 0x5A)

/-- FES_FRAME_DONE: `tries` are the front end's answers: data, and status or CRC. The first good one of at most retry + 1
ends the command; without one err is set. DEDUCED (log 31). -/
def execFesFrameDone (i : Fin 8) (tries : List (BitVec 24 × Byte)) (s : State) : Out :=
  .next (
    match tabGet none s.ctl.fesRun i with
    | none => s
    | some (read, _, _, _) =>
      let n := s.rd F.GLB_FES_CFG_retry [i] + 1
      let all := tries.take n
      let used := match all.findIdx? fun r => fesGood read r with
        | some k => k + 1
        | none => all.length
      let good := all.find? fun r => fesGood read r
      let done := { s.wr F.GLB_FES_CMD_busy 0 [i] with
        ctl := { s.ctl with fesRun := tabPut none s.ctl.fesRun i none,
                            fesSent := tabPut 0 s.ctl.fesSent i (tabGet 0 s.ctl.fesSent i + used) } }
      match good with
      | some r => if read then done.wr F.GLB_FES_DATA_data r.1.toNat [i] else done
      | none => if all.length = n then done.wr F.GLB_FES_CMD_err 1 [i] else s)

end Sys2Proof.Machine
end

