-- ==== Sys2Proof/Machine/Host.lean ====
section
/-!
DEFINITION. The host interface: user-page windows, queue resets, DMA rings, MSI-X and the Function Level Reset (chapter 06,
R156 to R175, R534).
-/

namespace Sys2Proof.Machine

/-- A memory request of function f: of the PF it is host activity (R534). -/
def State.hostRequest (s : State) (f : Nat) : State := if f = 0 then s.hostActive else s

/-- What the host's last read returned. -/
def State.answer32 (s : State) (dws : List (BitVec 32)) : State := { s with hif := { s.hif with popOut := dws } }

/-- Function f answers memory requests: the link answers, the function is in D0, and a VF has been enabled (R46, R151). -/
def State.reaches (s : State) (f : Nat) : Bool :=
  s.linkAnswers && !tabGet false s.hif.d3 f && (decide (f = 0) || (s.hif.vfEnable && decide (f ≤ s.hif.numVfs)))

/-! ### The windows of a user page (R158, R159) -/

/-- One DW of the push window: a word of the command queue, or discarded for its byte enables (R158). -/
def State.pushDw (s : State) (f : Nat) (d : BitVec 32 × Bool) : State :=
  if d.2 then s.push f (d.1.extractLsb' 0 24) 0 else s.refuseWords f 0 1

/-- PUSH_WINDOW_WRITE: the DWs of one request, each with whether its byte enables cover bytes 0 to 2 (R158).
DEDUCED (log 15). -/
def execPushWindowWrite (f : Fin 16) (dws : List (BitVec 32 × Bool)) (s : State) : Out :=
  .next (if s.reaches f then forEach (fun d t => t.pushDw f d) dws (s.hostRequest f) else s)

/-- One DW of the pop window (R159): the word, bit 24 for a popped one, bit 25 where it ends its packet. -/
def State.popDw (s : State) (f : Nat) : BitVec 32 × State :=
  if s.dmaOn (16 + f) then (0, s)
  else
    match s.popWord (16 + f) with
    | some (w, last, t) => (BitVec.ofNat 32 (w.toNat + 2 ^ 24 + b2n last * 2 ^ 25), t)
    | none => (0, s)

/-- `n` DWs of the pop window. -/
def State.popDws (s : State) (f : Nat) : Nat → List (BitVec 32) × State
  | 0 => ([], s)
  | n + 1 =>
    let r := s.popDw f
    let q := r.2.popDws f n
    (r.1 :: q.1, q.2)

/-- POP_WINDOW_READ: n DWs in ascending order (R159). DEDUCED (log 15). -/
def execPopWindowRead (f : Fin 16) (n : Nat) (s : State) : Out :=
  .next (
    if s.reaches f then
      let r := (s.hostRequest f).popDws f n
      r.2.answer32 r.1
    else s)

/-! ### Queues (R164 to R169) -/

/-- QUEUE_PUSH: one word; `len` is the length that a Poryon receiver records, `withPop` a pop in the same cycle, which is
served only where a word was held before the push; admission is judged before the pop, and the peak and the watermark see the
count at the end of the cycle (R164, R165, R167, R168). -/
def execQueuePush (q : Fin 41) (w : Word) (len : Nat) (withPop : Bool) (s : State) : Out :=
  .next (
    let had := decide ((s.queue q).held ≠ 0)
    if withPop && had then
      let s := s.arrive q w len
      match s.popWord q with
      | some (_, _, t) => t.queueMarks q
      | none => s.queueMarks q
    else s.push q w len)

/-- The peak becomes the words held (R167). -/
def State.peakReset (s : State) (q : Nat) : State := s.wr F.HIF_Q_PEAK_peak (s.queue q).held [q]

/-- PEAK_READ: the host reads the peak, which becomes the count (R167). -/
def execPeakRead (q : Fin 41) (s : State) : Out :=
  .next ((s.answer32 [BitVec.ofNat 32 (s.rd F.HIF_Q_PEAK_peak [q] * 2 ^ 9)]).peakReset q)

/-- A dispatched program still waits for words of its packet from command queue q. -/
def State.awaits (s : State) (q sq : Nat) : Bool := (s.seq sq).live && decide ((s.seq sq).pktQ = some q ∧ (s.queue q).taker = some sq)

/-- A queue reset (R169): the queue is empty, and a program that still waits for its packet ends with PKT_SHORT. -/
def State.queueReset (s : State) (q : Nat) : State :=
  let waiting := programSqs.filter fun sq => s.awaits q sq
  let s := s.setQueue q Queue.empty
  let s := ((s.wr F.HIF_Q_PEAK_peak 0 [q]).wr F.HIF_Q_OVF_pkts 0 [q]).wr F.HIF_Q_OVF_words 0 [q]
  let s := forEach (fun sq t => t.closeProgram sq stTimeout 9 []) waiting s
  s.setQueue q Queue.empty

def execQueueReset (q : Fin 41) (s : State) : Out := .next (s.queueReset q)

/-! ### DMA rings (R173 to R175) -/

/-- k of R173. -/
def State.ringSize (s : State) (d : Nat) : Nat := max 10 (min 20 (s.rd F.HIF_DMA_CFG_size [d]))

/-- The DW address of a host ring. -/
def State.ringBase (s : State) (d : Nat) : Nat := (s.rd F.HIF_DMA_ADDR_H_addr [d] * 2 ^ 24 + s.rd F.HIF_DMA_ADDR_L_addr [d]) * 2 ^ 10

/-- Setting en (R175): draining starts with tail and head at 0. -/
def State.dmaEnable (s : State) (d : Nat) : State :=
  if s.bit F.HIF_DMA_CFG_en [d] then s
  else
    let s := ((s.wr F.HIF_DMA_CFG_en 1 [d]).wr F.HIF_DMA_HEAD_count 0 [d]).wr F.HIF_DMA_TAIL_count 0 [d]
    { s with hif := { s.hif with dmaDone := tabPut 0 s.hif.dmaDone d 0 } }

def execDmaEnable (d : Fin 18) (s : State) : Out := .next (s.dmaEnable d)

/-- The DW of word number n of the stream: the word, and the phase, the inverse of bit k of n (R173). -/
def ringDw (k n : Nat) (w : Word) : BitVec 32 := BitVec.ofNat 32 (w.toNat + (1 - n / 2 ^ k % 2) * 2 ^ 24)

/-- Words of the stream from number n on, in the host ring; `base` carries the requester, which for the ring of a VF is the VF
(R175). -/
def Hif.ringWrite (h : Hif) (base k n : Nat) : List Word → Hif
  | [] => h
  | w :: ws =>
    Hif.ringWrite { h with hostMem := tabPut 0 h.hostMem (base + n % 2 ^ k) (ringDw k n w) } base k (n + 1) ws

/-- The function of DMA engine d. -/
def dmaFunc (d : Nat) : Nat := if d < 16 then d else 0

/-- The free DWs of ring d (R174). -/
def State.ringFree (s : State) (d : Nat) : Nat :=
  2 ^ s.ringSize d - (s.rd F.HIF_DMA_TAIL_count [d] + 2 ^ 21 - s.rd F.HIF_DMA_HEAD_count [d]) % 2 ^ 21

/-- DMA_PACKET_WRITE: the oldest packet, where it is whole and fits and the link answers; `err`: the write receives an error
(R46, R173 to R175). DEDUCED (log 15). -/
def execDmaPacketWrite (d : Fin 18) (err : Bool) (s : State) : Out :=
  .next (
    let q := 16 + d.val
    match (s.queue q).pkts with
    | [] => s
    | p :: _ =>
      if s.linkAnswers = true ∧ s.bit F.HIF_DMA_CFG_en [d] = true ∧ p.arrived = p.len ∧ p.words.length ≤ s.ringFree d then
        if err then ((s.wr F.HIF_DMA_CFG_en 0 [d]).wr F.HIF_DMA_CFG_err 1 [d]).signalVec (dmaFunc d) 3
        else
          let r := s.popWords q p.words.length
          let n := tabGet 0 s.hif.dmaDone d
          let h := r.2.hif.ringWrite (dmaFunc d * 2 ^ 60 + s.ringBase d) (s.ringSize d) n r.1
          let s := { r.2 with hif := { h with dmaDone := tabPut 0 h.dmaDone d (n + r.1.length) } }
          let s := s.wr F.HIF_DMA_TAIL_count (n + r.1.length) [d]
          if p.note then s.sendNotice q else s
      else s)

/-! ### Events and MSI-X (R171, R172) -/

/-- EVENT_OCCURRENCE: an event with its data word; event 0x00, the one of kind X, asserts NMI_N (R171, R542). -/
def execEventOccurrence (e : Fin 256) (data : Word) (s : State) : Out :=
  .next ((if e = 0 then { s with ctl := { s.ctl with nmi := true } } else s).raise e data.toNat)

/-- What makes a vector signalable. -/
def State.msixChange (s : State) (f v : Nat) : MsixCause → State
  | .unmask =>
    let k := (f * 512 + v) * 4 + 3
    { s with hif := { s.hif with msixTbl := tabPut 1 s.hif.msixTbl k (tabGet 1 s.hif.msixTbl k &&& 0xFFFFFFFE#32) } }
  | .functionUnmask => { s with hif := { s.hif with msixFMask := tabPut false s.hif.msixFMask f false } }
  | .enable => { s with hif := { s.hif with msixEn := tabPut false s.hif.msixEn f true } }
  | .linkReturn => { s with hif := { s.hif with linkUp := !s.bit F.GLB_STRAP_nopcie } }

/-- MSIX_PENDING_SEND: the reason why vector v of function f could not be signalled goes; every vector that is pending and
can now be signalled sends its message (R172). DEDUCED (log 15). -/
def execMsixPendingSend (f : Fin 16) (v : Nat) (why : MsixCause) (s : State) : Out :=
  .next (if v ≤ lastVec f then (s.msixChange f v why).sendAllPending else s)

/-! ### Function Level Reset (R160, R370) -/

/-- One function's part of a Function Level Reset. A RECOVER that it preempts ends without a change of mode: the restart is
due again (R160, R540). DEDUCED (log 15). -/
def State.resetFunction (s : State) (f : Nat) : State :=
  let s := if f = 0 then { s with ctl := { s.ctl with recoverRun := false } } else s
  let s := (s.preempt (fun x => decide (x.func = f)) 0xC)
  let s := (s.queueReset f).queueReset (16 + f)
  let s := s.wr F.HIF_DMA_CFG_en 0 [f]
  let s := { s with hif := { s.hif with d3 := tabPut false s.hif.d3 f false, devCtl := tabPut 16 s.hif.devCtl f 16,
                                        vfEnable := s.hif.vfEnable && decide (f ≠ 0) } }
  (if f = 0 then s else s.cipFlr f).msixReset f

/-- FUNCTION_LEVEL_RESET: of a VF, or of the PF for all sixteen functions (R160). DEDUCED (log 15). -/
def execFunctionLevelReset (f : Fin 16) (s : State) : Out :=
  .next (forEach (fun g t => t.resetFunction g) (if f = 0 then List.range 16 else [f.val]) s)

end Sys2Proof.Machine
end

