-- ==== Sys2Proof/Machine/Executive.lean ====
section
/-!
DEFINITION. The executive and the loader: dispatch and rejection of packets, budgets, watchdogs, aborts, and the loading
of a program set (chapter 03).
-/

namespace Sys2Proof.Machine

/-! ### Dispatch (R67 to R70, R87, R431) -/

/-- The sixteen command queues. -/
def commandQueues : List Nat := List.range 16

/-- A packet that the device itself submits, ahead of the head packet of queue 0: RECOVER, the PROGRAM packets of the timers,
then those of the library's event handler, part 1 of MARGIN_PLAN with one slice (R455, R525, R528, R540). No rule gives the
handler's packets a tag. DESIGN CHOICE (log 39). -/
def State.innerPkt (s : State) : Option (List Word) :=
  match s.ctl.recoverWord with
  | some w => some [0x007003, 0xF10000, BitVec.ofNat 24 w]
  | none =>
    match s.exec.timerPkts with
    | (n, late, target) :: _ =>
      some [BitVec.ofNat 24 (s.rd F.TIM_TMR_CFG_prg [n] * 4096 + 4), BitVec.ofNat 24 (0xF00000 + n),
            BitVec.ofNat 24 (b2n late * 2 ^ 23 + target.toNat / 2 ^ 24), target.extractLsb' 0 24]
    | [] =>
      match s.mon.planner.pkts with
      | i :: _ => some [0x006004, 0, 1, BitVec.ofNat 24 (2 ^ i)]
      | [] => none

/-- The device's own packet leaves its place. -/
def State.takeInner (s : State) : State :=
  match s.ctl.recoverWord with
  | some _ => { s with ctl := { s.ctl with recoverWord := none } }
  | none =>
    match s.exec.timerPkts with
    | _ :: ps => { s with exec := { s.exec with timerPkts := ps } }
    | [] => s.setPlanner { s.mon.planner with pkts := s.mon.planner.pkts.tail }

/-- The head packet of queue f that the executive may take, with its length and arrived words (R67). -/
def State.headPkt (s : State) (f : Nat) : Option (Nat × List Word) :=
  if (s.queue f).taker = none then (s.ready f).map fun p => (p.len, p.words) else none

/-- The packet that class f offers. -/
def State.offered (s : State) (f : Nat) : Option (Nat × List Word) :=
  if f = 0 then
    match s.innerPkt with
    | some ws => some (ws.length, ws)
    | none => s.headPkt 0
  else s.headPkt f

/-- The program number of a packet. -/
def pktProgram (ws : List Word) : Nat := (ws.getD 0 0).toNat / 4096

/-- The lowest reason of the table "Rejection reasons" that holds, 0 for none; program 0x000 is always absent (R62, R68).
DEDUCED (log 33). -/
def State.rejectReason (s : State) (f len : Nat) (ws : List Word) : Nat :=
  let p := pktProgram ws
  if p = 0 ∨ s.dirEntry p = 0 then 1
  else if f ≠ 0 ∧ s.dirVfOk p = false then 2
  else if s.mode = modeRecovery ∧ s.dirRecOk p = false then 3
  else if len = 1 then 4
  else 0

/-- Running programs of the PF. -/
def State.pfRunning (s : State) : Nat := (programSqs.filter fun q => (s.seq q).live && decide ((s.seq q).func = 0)).length

/-- A class that the executive may serve: it offers a packet to reject, or one to run while a sequencer is idle and the
reservation of R431 leaves it one. No rule says that a packet to reject waits for a sequencer (R68, R69).
DESIGN CHOICE (log 41). -/
def State.servable (s : State) (f : Nat) : Bool :=
  match s.offered f with
  | none => false
  | some (len, ws) =>
    if s.rejectReason f len ws ≠ 0 then true
    else
      let idle := s.idleSqs
      let res := s.rd F.SEQ_SOL_RES_res
      decide (idle ≠ 0) && (decide (f = 0 ∨ res ≤ s.pfRunning) || decide (res - s.pfRunning < idle))

/-- The sequencer use: a queue whose head became dispatchable has a request, one whose head is gone has none (R423, R431).
DEDUCED (log 25). -/
def State.seqUse (s : State) : Solera :=
  let x := s.exec.sol
  let kept := x.reqs.filter fun r => (s.offered r.cls).isSome
  let new := commandQueues.filter fun f => (s.offered f).isSome && kept.all fun r => decide (r.cls ≠ f)
  { x with reqs := kept ++ new.map fun f =>
      ⟨f, f, s.rd F.SEQ_SOL_CFG_entry [f], 0, 1000 * max 1 (s.rd F.SEQ_SOL_RES_age)⟩ }

/-- Rounds of 1 µs pass for the sequencer use (R427, R431). -/
def State.seqTick (s : State) (ticks : Nat) : State :=
  { s with exec := { s.exec with sol := s.seqUse.tick ticks 100000 (fun _ => 0) (fun _ => 0) [] } }

/-- The local scratch of a sequencer is emptied, its memory rows with it (R87). -/
def State.clearScratch (s : State) (q : Nat) : State :=
  let mine := fun (k : Nat) => decide (rowKey 5 (2048 * q) ≤ k ∧ k < rowKey 5 (2048 * (q + 1)))
  { s with cel := { s.cel with rows := s.cel.rows.filter fun e => !mine e.1, bad := s.cel.bad.filter fun e => !mine e.1 } }

/-- A sequencer at dispatch (R87). Its step starts from 0: records of an earlier packet under the same tag do not count, which
R80 leaves open. DESIGN CHOICE (log 41). -/
def State.dispatched (s : State) (f len : Nat) (ws : List Word) (src : Option Nat) : Seq :=
  let p := pktProgram ws
  let tag := ws.getD 1 0
  { Seq.idle with state := .running, pc := BitVec.ofNat 19 (s.dirEntry p), func := f, program := p, tag := tag,
                  recOk := s.dirRecOk p, budget := s.dirBudget p, pktLen := len, pktQ := src,
                  w := tabPut 0 (tabPut 0 (tabPut 0 [] 0 (BitVec.ofNat 24 len)) 1 tag) 2 (BitVec.ofNat 24 f) }

/-- The STARTED record and the in-flight entry (R79, R81). -/
def State.started (s : State) (q : Nat) : State :=
  let x := s.seq q
  let s := ((s.record x.tag x.program 0 1 q x.func 0).memWrite 7 (inFlightRow q) true).2
  { s with exec := { s.exec with inFlight := tabPut none s.exec.inFlight q (some ⟨x.tag, x.program, x.func, 0⟩) } }

/-- Packet of class f starts on sequencer q (R69, R70). DEDUCED (log 33). -/
def State.startProgram (s : State) (f q len : Nat) (ws : List Word) : State :=
  let s := s.clearScratch q
  match if f = 0 then s.innerPkt else none with
  | some _ =>
    let rec' := s.ctl.recoverWord.isSome
    let s := (s.setSeq q (s.dispatched f len ws none)).started q
    let s := (s.takeInner).putWords q 0 ws
    let s := s.setSeq q { s.seq q with pktGot := len }
    if rec' then { s with ctl := { s.ctl with recoverRun := true } } else s
  | none =>
    let s := (s.setSeq q (s.dispatched f len ws (some f))).started q
    let s := s.setQueue f { s.queue f with taker := some q }
    s.feed f

/-- A packet is rejected: its words go, one record, one response, and the count (R68, R83). -/
def State.rejectPkt (s : State) (f len : Nat) (ws : List Word) (reason : Nat) : State :=
  let tag := if len = 1 then 0 else ws.getD 1 0
  let p := pktProgram ws
  let inner := if f = 0 then s.innerPkt else none
  let wasRecover := inner.isSome && s.ctl.recoverWord.isSome
  let s := match inner with
    | some _ => s.takeInner
    | none =>
      let x := s.queue f
      match x.pkts with
      | q :: qs => s.setQueue f { x with pkts := qs, discard := x.discard + (q.len - q.arrived) }
      | [] => s
  let s := s.addSat F.SEQ_EXEC_STAT_rejected 1 4095
  let s := (s.record tag p reason stRejected 0 f 0xE).respond f p tag stRejected 0xE 0 reason []
  if wasRecover then s.recoverEnded false else s

/-- PACKET_DISPATCH: the class that the solera arbiter chooses is served, but not once a request for DORMANT has preempted the
programs (R68, R69, R85, R431). DESIGN CHOICE (log 34). -/
def execPacketDispatch (s : State) : Out :=
  .next (
    if s.bit F.SEQ_EXEC_STAT_alive = true ∧ s.ctl.transTo ≠ some modeDormant then
      let x := s.seqUse
      match x.grant (fun f => max 1 (s.rd F.SEQ_SOL_CFG_weight [f])) (fun r => s.servable r.cls) with
      | none => { s with exec := { s.exec with sol := x } }
      | some (r, x) =>
        let s := { s with exec := { s.exec with sol := x } }
        match s.offered r.cls with
        | none => s
        | some (len, ws) =>
          let why := s.rejectReason r.cls len ws
          if why ≠ 0 then s.rejectPkt r.cls len ws why
          else
            match programSqs.find? fun q => decide ((s.seq q).state = .idle) with
            | some q => s.startProgram r.cls q len ws
            | none => s
    else s)

/-! ### Ends by the executive (R71 to R73, R84, R531) -/

/-- PACKET_TIMEOUT: a dispatched packet is incomplete at pkt_to (R71). -/
def execPacketTimeout (q : Fin 16) (s : State) : Out :=
  .next (
    if (s.seq q).live = true ∧ (s.seq q).pktQ ≠ none ∧ (s.seq q).pktGot < (s.seq q).pktLen then
      s.closeProgram q stTimeout 9 []
    else s)

/-- BUDGET_EXPIRY (R72). -/
def execBudgetExpiry (q : Fin 16) (s : State) : Out := .next (s.closeProgram q stTimeout 8 [])

/-- SQ_WATCHDOG_EXPIRY: the sequencer is reset and its program closed (R73, R531). -/
def execSqWatchdogExpiry (q : Fin 16) (s : State) : Out :=
  .next (
    if (s.seq q).live then (((s.wr F.GLB_RST_CAUSE_sq 1).raise 0x05 q).closeProgram q stReset 0xA []) else s)

/-- A go at SEQ_ABORT_CMD; where several running programs share the tag and the function, the one on the lowest-numbered
sequencer ends, which no rule states (R84). DESIGN CHOICE (log 41). -/
def State.hostAbort (s : State) (func : Nat) : State :=
  let s := s.wr F.SEQ_ABORT_CMD_func func
  match programSqs.find? fun q => (s.seq q).live && decide ((s.seq q).func = func ∧ (s.seq q).tag.toNat = s.rd F.SEQ_ABORT_TAG_tag) with
  | some q => s.closeProgram q stPreempted 0xC []
  | none => s.wr F.SEQ_ABORT_CMD_nomatch 1

def execHostAbort (func : Fin 16) (s : State) : Out := .next (s.hostAbort func)

/-! ### Loading a program set (R63, R64) -/

/-- The row of the instruction store that holds a word. DEDUCED (log 24). -/
def storeRow (a : Nat) : Nat := a / 8

/-- The instruction store is unwritten, its memory rows with it (R64). -/
def State.clearStore (s : State) : State :=
  let mine := fun (k : Nat) => decide (rowKey 4 0 ≤ k ∧ k < rowKey 5 0)
  { s with exec := { s.exec with store := [], loadBuf := [] },
           cel := { s.cel with rows := s.cel.rows.filter fun e => !mine e.1, bad := s.cel.bad.filter fun e => !mine e.1 } }

/-- A begin, data write or verify is refused (R64). -/
def State.loadRefused (s : State) : State := s.wr F.SEQ_LOAD_CMD_result 5

/-- Loading is possible: DORMANT and no check in progress. -/
def State.mayLoad (s : State) : Bool := decide (s.mode = modeDormant) && !s.bit F.SEQ_LOAD_CMD_busy

/-- A begin (R64). -/
def State.loadBegin (s : State) (withVerify : Bool) : State :=
  if withVerify || !s.mayLoad then s.loadRefused
  else
    let s := s.clearStore
    let s := ((s.wr F.SEQ_PSET_ID_id 0).wr F.GLB_MODE_no_image 1).wr F.SEQ_LOAD_ADDR_addr 0
    { s.wr F.SEQ_LOAD_CMD_result 0 with exec := { s.exec with session := true } }

def execLoadBegin (withVerify : Bool) (s : State) : Out := .next (s.loadBegin withVerify)

/-- Store words at and beyond n are unwritten, and read 0 (R63). -/
def State.keepStore (s : State) (n : Nat) : State :=
  let mine := fun (k : Nat) => decide (rowKey 4 (storeRow (n + 7)) ≤ k ∧ k < rowKey 5 0)
  { s with exec := { s.exec with store := s.exec.store.filter fun e => decide (e.1 < n) },
           cel := { s.cel with rows := s.cel.rows.filter fun e => !mine e.1, bad := s.cel.bad.filter fun e => !mine e.1 } }

/-- n of word 2, where it is written and in range (R63). -/
def State.loadN (s : State) : Option Nat :=
  match tabGet none s.exec.loadBuf 2 with
  | some w => if 8192 ≤ w.toNat ∧ w.toNat ≤ 524288 then some w.toNat else none
  | none => none

/-- An image word goes to its place: the loader's buffer or the instruction store (R64). -/
def State.loadWord (s : State) (a : Nat) (w : Word) : State :=
  match if 3 ≤ a then s.loadN else none with
  | some n =>
    if a < n + 3 then
      let r := s.memWrite 4 (storeRow (a - 3)) false
      if r.1 then { r.2 with exec := { r.2.exec with store := tabPut none r.2.exec.store (a - 3) (some w) } } else r.2
    else { s with exec := { s.exec with loadBuf := tabPut none s.exec.loadBuf a (some w) } }
  | none => { s with exec := { s.exec with loadBuf := tabPut none s.exec.loadBuf a (some w) } }

/-- A data write (R64). -/
def State.loadData (s : State) (w : Word) : State :=
  let a := s.rd F.SEQ_LOAD_ADDR_addr
  let place := match s.loadN with
    | some n => decide (a ≤ n + 66)
    | none => decide (a < 3)
  if s.mayLoad && s.exec.session && place then (s.loadWord a w).wr F.SEQ_LOAD_ADDR_addr (a + 1) else s.loadRefused

def execLoadData (w : Word) (s : State) : Out := .next (s.loadData w)

/-- A verify: the session closes and the check runs; until its end result reads 0, which no rule states (R64).
DESIGN CHOICE (log 41). -/
def State.loadVerify (s : State) (withBegin : Bool) : State :=
  if withBegin || !s.mayLoad || !s.exec.session then s.loadRefused
  else { (s.wr F.SEQ_LOAD_CMD_busy 1).wr F.SEQ_LOAD_CMD_result 0 with exec := { s.exec with session := false } }

def execLoadVerify (withBegin : Bool) (s : State) : Out := .next (s.loadVerify withBegin)

/-- Image word a as it was written. -/
def State.imageWord (s : State) (n a : Nat) : Nat :=
  (if 3 ≤ a ∧ a < n + 3 then (tabGet none s.exec.store (a - 3)).getD 0 else (tabGet none s.exec.loadBuf a).getD 0).toNat

/-- A 384-bit number in 16 words, most significant first. -/
def num384 (ws : List Nat) : BitVec 384 := BitVec.ofNat 384 (ws.foldl (fun v w => v * 2 ^ 24 + w) 0)

/-- The code of SEQ_LOAD_CMD.result for an image of words `w` with n store words (R63, R554): key, then signature. -/
def verifyImage (w : Nat → Nat) (n : Nat) (owner : Option (BitVec 384)) : Nat :=
  let key := (List.range 32).map fun k => w (n + 3 + k)
  let sig := (List.range 32).map fun k => w (n + 35 + k)
  let hash := Config.sha384 ((key.flatMap word3).map (BitVec.ofNat 8))
  let digest := Config.sha384 (((List.range (n + 3)).flatMap fun k => word3 (w k)).map (BitVec.ofNat 8))
  if hash ≠ Config.makerKeyHash ∧ owner ≠ some hash then 2
  else if Config.ecdsaP384 (num384 (key.take 16)) (num384 (key.drop 16)) digest (num384 (sig.take 16)) (num384 (sig.drop 16))
    then 1 else 3

/-- The result of the check of the loaded image (R63, R64). DESIGN CHOICE (log 3). -/
def State.loadResult (s : State) : Nat :=
  match s.loadN with
  | none => 4
  | some n =>
    let w := s.imageWord n
    let whole := decide ((s.exec.store.filter fun e => decide (e.1 < n)).length = n)
      && ([0, 1, 2] ++ (List.range 64).map (n + 3 + ·)).all fun a => (tabGet none s.exec.loadBuf a).isSome
    if w 0 / 2 ^ 16 ≠ 1 ∨ w 1 = 0 ∨ whole = false then 4
    else verifyImage w n s.ctl.otpOwner

/-- LOAD_VERIFY_DONE (R64). -/
def execLoadVerifyDone (s : State) : Out :=
  .next (
    if s.bit F.SEQ_LOAD_CMD_busy then
      let r := s.loadResult
      let id := ((tabGet none s.exec.loadBuf 1).getD 0).toNat
      let s := (s.wr F.SEQ_LOAD_CMD_busy 0).wr F.SEQ_LOAD_CMD_result r
      if r = 1 then ((s.keepStore (s.loadN.getD 0)).wr F.SEQ_PSET_ID_id id).wr F.GLB_MODE_no_image 0
      else s.clearStore.wr F.SEQ_LOAD_ADDR_addr 0
    else s)

end Sys2Proof.Machine
end

