-- ==== Sys2Proof/Machine/Resets.lean ====
section
/-!
DEFINITION. Resets, power-up, and the handshake of a domain crossing (chapter 02: R40, R41, R54 to R58; chapter 22: R532,
R533; R195, R521, R547 to R554).
-/

namespace Sys2Proof.Machine

/-! ### What a reset keeps (R56, R145, R180) -/

/-- The fields that a cold start keeps: the e-fuse map and OTP. -/
def fuseFields : List (Fld × List Nat) :=
  [(F.GLB_IDENT_part, []), (F.GLB_IDENT_slice_mask, []), (F.GLB_IDENT_rev_letter, []), (F.GLB_IDENT_rev_digit, []),
   (F.CIP_STAT_dev_kek, [])]

/-- The fields that a fundamental reset keeps: the reset causes, the latched straps, what GLB_MODE holds in the AON domain
beside the mode itself, and the spare records of always-on memory (R30, R56). -/
def alwaysOnFields : List (Fld × List Nat) :=
  fuseFields ++ [(F.GLB_RST_CAUSE_cold, []), (F.GLB_RST_CAUSE_fund, []), (F.GLB_RST_CAUSE_cc, []), (F.GLB_RST_CAUSE_sq, []),
   (F.GLB_RST_CAUSE_slice, []), (F.GLB_STRAP_oscdly, []), (F.GLB_STRAP_role, []), (F.GLB_STRAP_twin_side, []),
   (F.GLB_STRAP_nopcie, []), (F.TIM_CLK_STAT_oscdly, []), (F.PRY_TWIN_STAT_side, []), (F.GLB_MODE_refused, []),
   (F.GLB_MODE_prev, [])]
  ++ slices8.flatMap fun i => [0, 1, 2, 3].flatMap fun a =>
    [(F.CNV_ADC_STAT_spare_used, [i, a]), (F.CNV_ADC_STAT_failed_slice, [i, a])]

/-- Fields of a state carried over into another. -/
def State.carry (old : State) (fs : List (Fld × List Nat)) (s : State) : State :=
  forEach (fun e t => t.wr e.1 (old.rd e.1 e.2) e.2) fs s

/-- Nothing is booted, no program set is there, what the cask gives reads 0 (R10), and the device runs from the fallback
oscillator. -/
def State.unbooted (s : State) (ph : BootPhase) : State :=
  let s := ((s.wr F.GLB_MODE_boot_done 0).wr F.SEQ_PSET_ID_id 0).wr F.TIM_CLK_STAT_hostclk_good 0
  let s := s.wr F.TIM_CLK_STAT_on_fallback 1
  let m := imgPut [] F.SEQ_PSET_CFG_id 0
  { s with ctl := { s.ctl with boot := ph, hostClk := false }, hif := { s.hif with linkUp := false },
           vtg := { s.vtg with current := m, staged := m, rescue := m } }

/-- A cold start resets everything; fuses, OTP, the cask, the host's memory, failed cells and what is still to come remain (R56). -/
def State.cold (s : State) (ph : BootPhase) : State :=
  let t := { State.reset with
    pending := s.pending, cask := s.cask, free := s.free, hif := { Hif.reset with hostMem := s.hif.hostMem },
    ctl := { Ctl.reset with otpSerial := s.ctl.otpSerial, otpOwner := s.ctl.otpOwner, otpRefused := s.ctl.otpRefused,
                            otpKcv := s.ctl.otpKcv },
    cip := { Cip.fresh with devKek := s.cip.devKek }, mon := { Mon.fresh with vddSent := 800 },
    cel := { Cel.fresh with hard := s.cel.hard } }
  (s.carry fuseFields t).unbooted ph

/-- The rows of always-on memory. -/
def isAlwaysOnRow (k : Nat) : Bool := decide (rowKey 7 0 ≤ k ∧ k < rowKey 8 0)

/-- A fundamental reset: everything but always-on memory, the reset causes and the AON timers (R56). -/
def State.fundamental (s : State) : State :=
  let t := { State.reset with
    pending := s.pending, cask := s.cask, free := s.free,
    hif := { Hif.reset with hostMem := s.hif.hostMem, sent := s.hif.sent },
    ctl := { Ctl.reset with otpSerial := s.ctl.otpSerial, otpOwner := s.ctl.otpOwner, otpRefused := s.ctl.otpRefused,
                            otpKcv := s.ctl.otpKcv, tmode := s.ctl.tmode, restarts := s.ctl.restarts },
    exec := { Exec.reset with inFlight := s.exec.inFlight }, queues := tabPut Queue.empty [] 32 (s.queue 32),
    vtg := { Vintages.reset with lastSerial := s.vtg.lastSerial }, tim := { Tim.fresh with now := s.tim.now },
    cip := { Cip.fresh with devKek := s.cip.devKek }, mon := { Mon.fresh with vddSent := s.mon.vddSent },
    cel := { Cel.fresh with rows := s.cel.rows.filter (fun e => isAlwaysOnRow e.1),
                            bad := s.cel.bad.filter (fun e => isAlwaysOnRow e.1), hard := s.cel.hard } }
  let t := forEach (fun i t => t.setConv i { Conv.fresh with lastIssued := (s.conv1 i).lastIssued }) slices8 t
  (s.carry alwaysOnFields t).unbooted .perst

/-- The straps are latched (R547): NOPCIE acts with the role worker alone. -/
def State.latch (s : State) (st : Straps) : State :=
  let s := ((s.wr F.GLB_STRAP_oscdly st.oscdly).wr F.TIM_CLK_STAT_oscdly st.oscdly).wr F.GLB_STRAP_role st.role
  let s := (s.wr F.GLB_STRAP_twin_side (b2n st.twinSide)).wr F.PRY_TWIN_STAT_side (b2n st.twinSide)
  { s.wr F.GLB_STRAP_nopcie (b2n (st.noPcie && decide (st.role = 1))) with ctl := { s.ctl with tmode := st.tmode } }

/-- The phase of power-up changes. -/
def State.toBoot (s : State) (ph : BootPhase) : State := { s with ctl := { s.ctl with boot := ph } }

/-- Power-up waits in fundamental reset. -/
def State.inPerst (s : State) : Bool := decide (s.ctl.boot = .perst)

/-- COLD_START: VDDAON is applied, the straps are latched, and power-up waits for t0 (R56, R547). DESIGN CHOICE (log 14). -/
def execColdStart (st : Straps) (s : State) : Out := .next (((s.cold .perst).wr F.GLB_RST_CAUSE_cold 1).latch st)

/-- VDDAON_LOW: the whole device is held in reset until the cold start (R549). -/
def execVddaonLow (s : State) : Out := .next (s.cold .held)

/-- PERST_N_ASSERT: ignored where NOPCIE is latched (R56, R547). DESIGN CHOICE (log 14). -/
def execPerstNAssert (s : State) : Out :=
  .next (
    if s.bit F.GLB_STRAP_nopcie = true ∨ s.ctl.boot = .held then s else s.fundamental.wr F.GLB_RST_CAUSE_fund 1)

/-! ### Power-up (R41, R54, R55) -/

/-- PERST_N_DEASSERT: t0, the straps are latched and the OSCDLY count starts. -/
def execPerstNDeassert (st : Straps) (s : State) : Out :=
  .next (if s.inPerst = true ∧ s.bit F.GLB_STRAP_nopcie = false then (s.latch st).toBoot .oscdly else s)

/-- UP_RECEIVER_FIRST_LOCK: t0 of a worker without PCIe, its second latch point (R54, R547). -/
def execUpReceiverFirstLock (st : Straps) (s : State) : Out :=
  .next (if s.inPerst = true ∧ s.bit F.GLB_STRAP_nopcie = true then (s.latch st).toBoot .oscdly else s)

/-- OSCDLY_EXPIRY: t1 where the host clock is present, else power-up holds (R41). -/
def execOscdlyExpiry (present : Bool) (s : State) : Out :=
  .next (
    if s.ctl.boot = .oscdly then
      if present then
        let s := ((s.wr F.TIM_CLK_STAT_hostclk_good 1).wr F.TIM_CLK_STAT_on_fallback 0).toBoot .mainLoop
        { s with ctl := { s.ctl with hostClk := true } }
      else (s.wr F.TIM_CLK_STAT_hostclk_good 0).toBoot .waitClock
    else s)

/-- HOST_CLOCK_FOUND: the delay is counted again (R41). -/
def execHostClockFound (s : State) : Out := .next (if s.ctl.boot = .waitClock then s.toBoot .oscdly else s)

/-- MAIN_LOOP_LOCK: CFC, SQC and HSC start, the PCIe link trains, and the fused VDD request goes out; on the fallback
clocks power-up goes on without the main loop and the link (R47, R54, R550). -/
def execMainLoopLock (s : State) : Out :=
  .next (
    if s.ctl.boot = .mainLoop then
      let ok := !s.bit F.TIM_CLK_STAT_on_fallback
      let s := (s.wr F.TIM_CLK_STAT_main_lock (b2n ok)).toBoot .image
      { s with hif := { s.hif with linkUp := ok && !s.bit F.GLB_STRAP_nopcie }, ctl := { s.ctl with powerDown := false },
               mon := { s.mon with vddDue := some (vddOf []), vddTry := 0 } }
    else s)

/-- Word j of bootstrap image k (0 or 1) in the cask (R63, R553). -/
def State.bootWord (s : State) (k j : Nat) : Nat := s.caskWord (s.areaStart (4 + k) + 3 * j)

/-- Bootstrap image k verifies (R63, R554). -/
def State.bootGood (s : State) (k : Nat) : Bool :=
  let n := s.bootWord k 2
  decide (s.bit F.GLB_CASK_STAT_present = true ∧ s.bootWord k 0 / 2 ^ 16 = 1 ∧ s.bootWord k 1 ≠ 0 ∧ 8192 ≤ n ∧ n ≤ 524288
    ∧ verifyImage (s.bootWord k) n s.ctl.otpOwner = 1)

/-- Image k is in the instruction store (R54, R63). -/
def State.bootLoad (s : State) (k : Nat) : State :=
  let n := s.bootWord k 2
  let s := s.wr F.SEQ_PSET_ID_id (s.bootWord k 1)
  let rows := (List.range ((n + 7) / 8)).map fun r => rowKey 4 r
  { s with exec := { s.exec with store := (List.range n).map fun j => (j, some (BitVec.ofNat 24 (s.bootWord k (3 + j)))) },
           cel := { s.cel with rows := rows.foldl (fun t r => tabPut false t r true) s.cel.rows } }

/-- BOOTSTRAP_IMAGE_VERIFY: the cask is discovered (`cask`: DTR reads and its size in MiB, none where it is absent), and
the images are tried in order (R54, R55, R552, R553). -/
def execBootstrapImageVerify (cask : Option (Bool × Fin 65)) (s : State) : Out :=
  .next (
    if s.ctl.boot = .image then
      let s := match cask with
        | some (dtr, mib) =>
          ((s.wr F.GLB_CASK_STAT_present 1).wr F.GLB_CASK_STAT_dtr (b2n dtr)).wr F.GLB_CASK_STAT_size mib
        | none => ((s.wr F.GLB_CASK_STAT_present 0).wr F.GLB_CASK_STAT_dtr 0).wr F.GLB_CASK_STAT_size 0
      let s := if s.bit F.GLB_CASK_STAT_present && !s.dirValid then s.wr F.GLB_CASK_STAT_dir_bad 1 else s
      let s := s.toBoot .loading
      if s.bootGood 0 then (s.bootLoad 0).wr F.GLB_MODE_boot_img 0
      else if s.bootGood 1 then (s.bootLoad 1).wr F.GLB_MODE_boot_img 1
      else (s.wr F.GLB_MODE_boot_img 1).wr F.GLB_MODE_no_image 1
    else s)

/-! ### Calibration generations and ageing records at power-up (R195, R521) -/

/-- Field f of the record word at byte `a`, put into trims. -/
def State.readTrim (s : State) (a : Nat) (is : List Nat) (m : Tab Nat) (f : Fld) : Tab Nat :=
  imgPut m f (fldOf f (s.caskWord a)) is

/-- The trims of the record in the sector at `a` (R193). -/
def State.readTrims (s : State) (a i : Nat) : Tab Nat :=
  let m := [0, 1, 2, 3].foldl (fun m d => (List.range 65).foldl (fun m k =>
    let b := a + 16 + 6 * (65 * d + k)
    s.readTrim (b + 3) [i, d, k] (s.readTrim b [i, d, k] (s.readTrim b [i, d, k] m F.CNV_ADC_TRIM_A_gain) F.CNV_ADC_TRIM_A_offset)
      F.CNV_ADC_TRIM_B_skew) m) []
  let m := [0, 1, 2, 3].foldl (fun m d => (List.range 33).foldl (fun m k =>
    s.readTrim (a + 1576 + 3 * (33 * d + k)) [i, d, k] m F.CNV_DAC_TAP_trim) m) m
  [0, 1, 2, 3].foldl (fun m d =>
    let b := a + 1972 + 6 * d
    s.readTrim (b + 3) [i, d] (s.readTrim b [i, d] (s.readTrim b [i, d] m F.CNV_DAC_TRIM_A_gain) F.CNV_DAC_TRIM_A_offset)
      F.CNV_DAC_TRIM_B_skew) m

/-- The generation that the valid record at `a` holds (R193). -/
def State.readRecord (s : State) (a i : Nat) : Gen :=
  let t := s.caskWord (a + 13)
  { serial := s.caskWord (a + 3), trims := s.readTrims a i, temp := toSigned 10 (bitsOf t 23 14), baud := bitsOf t 13 11,
    skip := bitsOf t 10 7, time := BitVec.ofNat 32 (s.caskWord (a + 6) * 2 ^ 8 + s.caskByte (a + 9)), sfc := s.caskWord (a + 10) }

/-- The record sector whose serial is ahead of every other's; where none is, a free choice (R195). DESIGN CHOICE (log 2). -/
def State.newestOf (s : State) (rs : List (Nat × Nat)) : Option (Nat × Nat) × State :=
  match rs.find? fun r => rs.all fun o => decide (o.1 = r.1) || serialAhead r.2 o.2 with
  | some r => (some r, s)
  | none => match rs with
    | [] => (none, s)
    | _ => (rs[s.takeWord.1 % rs.length]?, s.takeWord.2)

/-- The generations of slice i come from the cask, and the trim registers show the one in use (R10, R195). -/
def State.loadRecords (s : State) (i : Nat) : State :=
  let base := s.areaStart 1 + 3 * i * 4096
  let secs := if s.bit F.GLB_CASK_STAT_present then [base, base + 4096, base + 2 * 4096] else []
  let rs := secs.filterMap fun a => (s.recordSerial a).map fun n => (a, n)
  let r := s.newestOf rs
  match r.1 with
  | none => (r.2.setConv i { r.2.conv1 i with newest := Gen.neutral, previous := none, firstRate := true }).wr F.CNV_STAT_gen_bad 1 [i]
  | some x =>
    let q := r.2.newestOf (rs.filter fun o => o.1 ≠ x.1)
    let new := q.2.readRecord x.1 i
    let prev := q.1.map fun y => q.2.readRecord y.1 i
    let c := q.2.conv1 i
    let s := q.2.setConv i { c with newest := new, previous := prev, lastTemp := some new.temp,
                                    lastIssued := if c.lastIssued = 0 then new.serial else c.lastIssued }
    let s := (s.wr F.CNV_GEN_NEW_serial new.serial [i]).wr F.CNV_GEN_PREV_serial ((prev.map Gen.serial).getD 0) [i]
    s.loadTrims i (s.genInUse i)

/-- The ageing record in a place of the ring is valid (R194, R521). -/
def State.ageValid (s : State) (slot : Nat) : Bool :=
  let a := s.areaStart 2 + slot * 64
  decide (s.caskByte a = 1) && decide (s.caskBytes (a + 60) 4 = fcsBytes (crc32 (s.caskBytes a 60)))

/-- The newest valid ageing record found at power-up gives the next sequence, its place and the powered hours (R521). -/
def State.loadAgeing (s : State) : State :=
  if s.bit F.GLB_CASK_STAT_present then
    let seq := fun (k : Nat) => s.caskWord (s.areaStart 2 + k * 64 + 3)
    let best := ((List.range 4096).filter fun k => s.ageValid k).foldl (fun (b : Option Nat) k =>
      match b with
      | none => some k
      | some j => if serialAhead (seq k) (seq j) then some k else some j) none
    match best with
    | some k => { s with mon := { s.mon with recNext := (seq k + 1) % 2 ^ 24, recSlot := (k + 1) % 4096,
                                             hours := s.caskWord (s.areaStart 2 + k * 64 + 6) } }
    | none => s
  else s

/-- RESCUE: what the cask's RESCUE area holds, or the built-in image, every V-class field at its reset value (R145, R554).
PRY_DOM_CFG.role resets to the strap, 0b11 acting as 0b00 (R547); SEQ_PSET_CFG.id comes from the cask with the program set,
whose identifier it takes where the RESCUE area lists none (R10, R65). DESIGN CHOICE (log 6). -/
def State.rescueImage (s : State) (rescue : Option (List (Addr × Word))) : Tab Nat :=
  let base := imgPut (imgPut [] F.PRY_DOM_CFG_role (s.rd F.GLB_STRAP_role % 3)) F.SEQ_PSET_CFG_id (s.rd F.SEQ_PSET_ID_id)
  match rescue with
  | some ws => ws.foldl (fun m e => imgMerge m e.1.toNat e.2.toNat 0xFFFFFF) base
  | none => base

/-- POWER_UP_COMPLETE: calibration and RESCUE are loaded, the fast clocks stop, and the mode is DORMANT; the UP port of a worker
without PCIe is in P-QUIET (R54, R55, R554).
`rescue` is what the RESCUE area holds, none where it fails its CRC. DESIGN CHOICE (log 14). -/
def execPowerUpComplete (rescue : Option (List (Addr × Word))) (s : State) : Out :=
  .next (
    if s.ctl.boot = .loading then
      let rescue := if s.bit F.GLB_CASK_STAT_present then rescue else none
      let s := s.wr F.GLB_CASK_STAT_rescue_rom (b2n rescue.isNone)
      let m := s.rescueImage rescue
      let s := { s with vtg := { s.vtg with rescue := m, current := m, staged := m } }
      let s := (forEach (fun i t => t.loadRecords i) slices8 s).loadAgeing
      let s := ((s.switchBlocks [] .current (fun _ => false) fun _ => none).wr F.GLB_MODE_boot_done 1).wr F.TIM_CLK_STAT_main_lock 0
      let s := if s.upClocked then s.wr F.PRY_PORT_STAT_pwr 1 [1] else s
      ({ s with ctl := { s.ctl with powerDown := true } }).toBoot .done
    else s)

/-! ### Domain crossings (R57, R58) -/

def State.crossing (s : State) (x : Nat) : Crossing := tabGet Crossing.open s.ctl.crossings x
def State.setCrossing (s : State) (x : Nat) (c : Crossing) : State :=
  { s with ctl := { s.ctl with crossings := tabPut Crossing.open s.ctl.crossings x c } }

/-- One side of crossing x enters reset: the crossing is FLUSHED and the items in flight are discarded (R57, R58). -/
def State.flushCrossing (s : State) (x : Nat) (sideB : Bool) (items : Nat) : State :=
  let c := s.crossing x
  s.setCrossing x { flushed := true, aInReset := c.aInReset || !sideB, bInReset := c.bInReset || sideB, reqOut := false,
                    ackOut := false, drops := c.drops + items }

def execCrossingReset (x : Nat) (sideB : Bool) (items : Nat) (s : State) : Out := .next (s.flushCrossing x sideB items)

/-- The crossings of the control domains to the slices are those numbered 0 to 7; their control side stays in reset until
the executive has restarted, their slice side while the supervisor holds the slice (R532, R537). DEDUCED (log 38). -/
def State.heldCrossing (s : State) (x : Nat) : Bool :=
  decide (x < 8) && (s.ctl.ccPending || tabGet false s.ctl.sliceHold x)

/-- CROSSING_REQ: the token shows that both sides have left reset; side B clears its pointers and returns ACK (R57). -/
def execCrossingReq (x : Nat) (s : State) : Out :=
  .next (
    let c := s.crossing x
    if c.flushed = true ∧ s.heldCrossing x = false then
      s.setCrossing x { c with aInReset := false, bInReset := false, reqOut := true, ackOut := true }
    else s)

/-- CROSSING_ACK: the crossing opens (R57). -/
def execCrossingAck (x : Nat) (s : State) : Out :=
  .next (
    let c := s.crossing x
    if c.flushed = true ∧ c.ackOut = true then s.setCrossing x { Crossing.open with drops := c.drops } else s)

/-- CROSSING_REQ_RESEND: an unanswered REQ is sent again (R58). -/
def execCrossingReqResend (x : Nat) (s : State) : Out :=
  .next (
    let c := s.crossing x
    if c.flushed = true ∧ c.ackOut = false ∧ s.heldCrossing x = false then
      s.setCrossing x { c with aInReset := false, reqOut := true }
    else s)

/-! ### Control-complex reset (R60, R81, R139, R532, R533) -/

/-- The queues that a control-complex reset empties (R532). -/
def ccQueues : List Nat := List.range 32 ++ [33, 34, 35, 36, 37, 38, 39, 40]

/-- Sequencer q stops and stays in reset until the executive restarts. -/
def State.stopSeq (s : State) (q : Nat) : State :=
  let s := s.releaseSeq q
  s.setSeq q { s.seq q with state := .inReset }

/-- Steps 1 to 3 of R532. An open load session closes, as R64 has a data write refused before the first begin after a reset; a
check in progress runs on, which no rule states. DESIGN CHOICE (log 41). An ARMED commit keeps its image. DEDUCED (log 13).
What a flushed crossing held is free. DESIGN CHOICE (log 14). -/
def State.ccReset (s : State) (byWdog : Bool) : State :=
  let s := forEach (fun q t => t.stopSeq q) programSqs s
  let s := { s.wr F.SEQ_EXEC_STAT_alive 0 with
    exec := { s.exec with sol := Solera.empty, session := false }, ctl := { s.ctl with ccPending := true, ccByWdog := byWdog } }
  let s := forEach (fun q t => t.queueReset q) ccQueues s
  let s := forEach (fun x t => let r := t.takeWord; r.2.flushCrossing x false r.1) slices8 s
  let s := if s.mirrored then s.mirrorGap else s
  let s := if s.withdrawable then s.failCommit 9 else s
  s.setStaged 0 s.vtg.current

/-- CC_RESET_CMD: a write of 1 to GLB_RST_CMD.cc, which counts towards no expiry (R532, R533). -/
def execCcResetCmd (s : State) : Out := .next (s.ccReset false)

/-- CC_WATCHDOG_EXPIRY: `within60s` of the first expiry counted; the third is CC_LOOP, and an expiry in PROBATION with
wdog_en starts the return at once, which the restart then re-applies (R136, R139, R533). -/
def execCcWatchdogExpiry (within60s : Bool) (s : State) : Out :=
  .next (
    let n := if within60s then min 3 (s.ctl.ccExpiries + 1) else 1
    let prev := decide (s.vtState = vtProbation) && s.curBit F.VTG_PROB_CFG_wdog_en
    let s := s.ccReset true
    let s := { s with ctl := { s.ctl with ccExpiries := n, ccLoop := s.ctl.ccLoop || decide (n = 3),
                                          rePrev := s.ctl.rePrev || prev } }
    if prev then s.startReturn 4 else s)

/-- The control side of crossing x leaves reset and sends its REQ. -/
def State.releaseCrossing (s : State) (x : Nat) : State :=
  s.setCrossing x { s.crossing x with aInReset := false, reqOut := true }

/-- The slice side of the crossing to slice i resets with the slice, leaves reset and sends its REQ; how many items were in
flight no rule says (R57). DESIGN CHOICE (log 2). -/
def State.resetCrossing (s : State) (i : Nat) : State :=
  let r := s.takeWord
  let s := r.2.flushCrossing i true r.1
  s.setCrossing i { s.crossing i with bInReset := false, reqOut := true }

/-- The executive re-applies CURRENT, which it cannot where a row of the image in the vintage store is poisoned (R413, R538). -/
def State.reapplyCurrent (s : State) : State :=
  let r := s.vintRead 0
  let s := { r.2 with vtg := { r.2.vtg with curValid := !r.1 } }
  if r.1 then s.fatal 5 else s

/-- Step 4 of R532. -/
def State.executiveRestart (s : State) : State :=
  let c := s.ctl
  let s := forEach (fun q t => if (t.seq q).state = .inReset then t.setSeq q { t.seq q with state := .idle } else t) programSqs s
  let s := forEach (fun x t => t.releaseCrossing x) slices8 s
  let s := (s.wr F.SEQ_EXEC_STAT_alive (b2n (decide (s.mode ≠ modeDormant)))).wr F.SEQ_EXEC_STAT_rejected 0
  let s := s.closeInFlight
  let s := if c.recoverRun then s.recoverEnded false else s
  let s := (s.wr F.GLB_RST_CAUSE_cc 1).raise 0x04 (if c.ccByWdog then 2 ^ 23 + c.ccExpiries % 4 else 0)
  let s := { s with ctl := { s.ctl with ccPending := false, ccByWdog := false, ccLoop := false, rePrev := false,
                                        ccExpiries := if c.ccLoop then 0 else c.ccExpiries } }
  let s := if c.ccLoop then s.fatal 2 else s
  if c.rePrev then s else s.reapplyCurrent

/-- EXECUTIVE_RESTART (R81, R532). DEDUCED (log 32). -/
def execExecutiveRestart (s : State) : Out :=
  .next (if s.ctl.ccPending then s.executiveRestart else s)

end Sys2Proof.Machine
end

