-- ==== Sys2Proof/Machine/Faults.lean ====
section
/-!
DEFINITION. The datapath chain: slice resets, stalls, the supervisor of the shared stages (R535 to R537), and the grant of
the calibration engines (R187, R430).
-/

namespace Sys2Proof.Machine

/-! ### Slice resets (R536, R537) -/

/-- The blocks of slice i leave the pool at once and are discarded. -/
def State.discardBlocks (s : State) (i : Nat) : State :=
  ({ s with pool := { s.pool with blocks := s.pool.blocks.filter (fun b => b.slice ≠ i),
                                  store := s.pool.store.filter (fun b => b.slice ≠ i) } }).poolMarks

/-- The datapath of slice i starts afresh: RXD from SIGNAL, no block alignment, LFR out of frame, amplitude 0. -/
def State.relockSlice (s : State) (i : Nat) : State :=
  let s := ((((s.discardBlocks i).acqRestart i).sourceGone).syncNone i).frameOut i
  (s.setTx i { s.tx1 i with amp := 0 }).wr F.TXD_STAT_muted 1 [i]

/-- A reset of the datapath of a LIT slice and of its half of the crossing; a slice that is not LIT is left as it is
(R57, R536). -/
def State.resetSlice (s : State) (i : Nat) : State :=
  if s.lit i then ((s.wr F.GLB_RST_CAUSE_slice 1).resetCrossing i).relockSlice i else s

/-- SLICE_RESET_CMD: a write of 1 to GLB_RST_CMD.slice with sel naming the slice. -/
def State.sliceResetCmd (s : State) (i : Nat) : State := (s.wr F.GLB_RST_CMD_sel i).resetSlice i

def execSliceResetCmd (i : Fin 8) (s : State) : Out := .next (s.sliceResetCmd i)

/-- Slice i is held in reset (R537). -/
def State.held (s : State) (i : Nat) : Bool := tabGet false s.ctl.sliceHold i

/-- Some frame pulse of slice i is watched: the transmit pulse while the rate cause is clear, the receive pulse while block
and frame alignment hold. -/
def State.watched (s : State) (i : Nat) : Bool :=
  s.lit i && !s.held i
    && (!s.muteRate i || decide (s.rd F.FEC_STAT_sync [i] = 2 ∧ s.rd F.LFR_STAT_state [i] = 2))

/-- FRAME_PULSE_WATCHDOG: the third firing within 1 s of the first (`within1s`) holds the slice in reset (R536, R537).
DEDUCED (log 32). -/
def execFramePulseWatchdog (i : Fin 8) (within1s : Bool) (s : State) : Out :=
  .next (
    if s.watched i then
      let n := if within1s then tabGet 0 s.ctl.sliceFires i + 1 else 1
      let s := s.resetSlice i
      if 3 ≤ n then
        let s := { s with ctl := { s.ctl with sliceFires := tabPut 0 s.ctl.sliceFires i 0,
                                              sliceHold := tabPut false s.ctl.sliceHold i true } }
        s.raise 0x09 (i.val * 2 ^ 21)
      else { s with ctl := { s.ctl with sliceFires := tabPut 0 s.ctl.sliceFires i n } }
    else s)

/-- DP_SLICE_HOLD_END: the slice then locks again under R536. -/
def execDpSliceHoldEnd (i : Fin 8) (s : State) : Out :=
  .next (
    if s.held i then
      let s := { s with ctl := { s.ctl with sliceHold := tabPut false s.ctl.sliceHold i false } }
      if s.lit i then s.relockSlice i else s
    else s)

/-! ### Stalls and shared stages (R535, R537) -/

/-- The frame of slice i that is being received loses data: its bits count as those of a failed group (R323, R535). -/
def State.markFrame (s : State) (i : Nat) : State :=
  let l := s.lfr1 i
  s.setLfr i { l with window := l.window.map fun e => (e.1, true) }

/-- The data that a stalled stage drops: the receive stages CNV, RXD, FEC and LFR mark the slice's frame, a shared stage gives
CSF to the ALIGNED channels with a member on the slice until their next output frame; no rule says which channels a shared
stage holds. DESIGN CHOICE (log 41). -/
def State.stallDrops (s : State) (b i : Nat) : State :=
  if b = 2 ∨ b = 3 ∨ b = 5 ∨ b = 7 then s.markFrame i
  else if 8 ≤ b then
    forEach (fun c t =>
      if decide (t.rd F.MAP_CH_STAT_align [c] = 2) && (t.members c).any (fun d => decide (d.slice = i)) then t.setCsf c true
      else t) channels s
  else s

/-- DP_STALL: a stage of a slice block, MAP, CIP or CLI drops its contents (R535). -/
def execDpStall (b : Fin 16) (i : Fin 8) (stage : BitVec 8) (s : State) : Out :=
  .next (
    if 2 ≤ b.val ∧ b.val ≤ 10 then
      ((s.stallDrops b i).addSat F.GLB_DP_STAT_stalls 1 4095).raise 0x08 (b.val * 2 ^ 20 + i.val * 2 ^ 17 + stage.toNat)
    else s)

/-- The shared stages: pool dispatch in FEC, MAP, CIP and CLI. -/
def sharedStage (b : Nat) : Bool := decide (b = 5 ∨ b = 8 ∨ b = 9 ∨ b = 10)

/-- SHARED_STAGE_WATCHDOG: the third shared reset within 10 s of the first (`within10s`) is SHARED_LOOP.
DESIGN CHOICE (log 14). -/
def execSharedStageWatchdog (b : Fin 16) (within10s : Bool) (s : State) : Out :=
  .next (
    if sharedStage b = true ∧ s.mode ≠ modeDormant then
      let n := if within10s then s.ctl.sharedResets + 1 else 1
      let s := (s.mapMeasureAll.addSat F.GLB_DP_STAT_shared 1 255).raise 0x0A (b.val * 2 ^ 20)
      let s := { s with ctl := { s.ctl with sharedResets := if 3 ≤ n then 0 else n } }
      if 3 ≤ n then s.fatal 3 else s
    else s)

/-! ### Calibration engines (R187, R430) -/

/-- Calibration engines in use. -/
def State.enginesBusy (s : State) : Nat := (slices8.filter fun i => s.calBusy i).length

/-- The request of slice i may be served: a run where R185 allows it, a rotation in RECOVERY only on a slice that carries
traffic (R188). -/
def State.engineOk (s : State) (i : Nat) : Bool :=
  if (s.conv1 i).wait = some true then s.lit i && (decide (s.mode ≠ modeRecovery) || s.keptTraffic i) else s.runAllowed i

/-- Rounds of 1 ms pass for the calibration engines; ages grow also while a program holds claim 0x14 (R427, R430). -/
def State.engineTick (s : State) (ticks : Nat) : State :=
  { s with calEng := s.calEng.tick ticks 100000000 (fun _ => 0) (fun _ => 0) [] }

/-- CAL_ENGINE_GRANT: the arbiter grants an engine; none while a program holds claim 0x14 (R187, R430). -/
def execCalEngineGrant (s : State) : Out :=
  .next (
    if s.claimed 0x14 = true ∨ 4 ≤ s.enginesBusy then s
    else
      match s.calEng.grant (fun i => max 1 (s.rd F.CNV_SOL_CFG_weight [i])) (fun r => s.engineOk r.cls) with
      | none => s
      | some (r, x) => ({ s with calEng := x }).startCal r.cls)

end Sys2Proof.Machine
end

