-- ==== Sys2Proof/Machine/Fabric.lean ====
section
/-!
DEFINITION. The control fabric: what a read of a register returns, what a write does, gates, and the accesses of the host
(R2, R6 to R9, R15, R51 to R53, R154, R155, R573).
-/

namespace Sys2Proof.Machine

/-! ### Fields that show state held elsewhere -/

/-- The transmit settings of slice i in force at the transmitter, as R303 takes them: baud, format, entropy, pilot, rate. -/
def State.txGeometry (s : State) (i : Nat) (f : Nat → Nat → Nat → Nat → Nat → Nat) : Nat :=
  if s.lit i then
    f (s.cur F.TXD_MODE_CFG_baud [i]) (s.cur F.TXD_MODE_CFG_const [i]) (s.cur F.TXD_MODE_CFG_entropy [i])
      (s.cur F.TXD_MODE_CFG_pilot [i]) (s.cur F.FEC_CODE_CFG_rate [i])
  else 0

/-- Bits of the parity-check word that FEC_PCM_ADDR selects, 0 beyond the last row group (R252). -/
def State.pcmBits (s : State) (f : Fld) : Nat :=
  if ldpcRows (s.rd F.FEC_PCM_ADDR_rate) ≤ s.rd F.FEC_PCM_ADDR_row then 0 else fldOf f (Config.pcmRom (s.rd F.FEC_PCM_ADDR_rate) (s.rd F.FEC_PCM_ADDR_row) (s.rd F.FEC_PCM_ADDR_ent)).toNat

/-- SEQ_SQ_STAT.state. -/
def SqState.code : SqState → Nat
  | .idle => 0
  | .running => 1
  | .blocked => 2
  | .inReset => 3

/-- The first index of a register instance. -/
def ix (is : List Nat) : Nat := is.headD 0

/-- A status field whose value follows from other state: the field, and its value at an instance. -/
def views : List (Fld × (State → List Nat → Nat)) :=
  [(F.GLB_SLICE_STAT_fused_off, fun s is => b2n (s.fused (ix is))),
   (F.TIM_CAND_STAT_ql_used, fun s is => s.qlUsed (ix is)),
   (F.TIM_TOD_NS_L_value, fun s _ => s.time.toNat),
   (F.TIM_TOD_CMD_inexact, fun s _ => b2n s.inexact),
   (F.TXD_STAT_m_mode, fun s is => b2n (s.muteMode (ix is))),
   (F.TXD_STAT_m_slice, fun s is => b2n (s.muteSlice (ix is))),
   (F.TXD_STAT_m_force, fun s is => s.rd F.TXD_MUTE_force is),
   (F.TXD_STAT_m_mask, fun s is => b2n (s.muteMask (ix is))),
   (F.TXD_STAT_m_rate, fun s is => b2n (s.muteRate (ix is))),
   (F.FEC_PCM_DATA_col, fun s _ => s.pcmBits F.FEC_PCM_DATA_col),
   (F.FEC_PCM_DATA_shift, fun s _ => s.pcmBits F.FEC_PCM_DATA_shift),
   (F.FEC_PCM_DATA_last, fun s _ => s.pcmBits F.FEC_PCM_DATA_last),
   (F.FEC_PCM_DATA_valid, fun s _ => s.pcmBits F.FEC_PCM_DATA_valid),
   (F.LFR_FRAME_LEN_f, fun s is => s.txGeometry (ix is) frameLen),
   (F.LFR_FRAME_LONG_long, fun s is => s.txGeometry (ix is) framesLong),
   (F.CIP_SOL_STAT_scaled, fun s _ => b2n (decide (50 < s.guarSum))),
   (F.CIP_SOL_STAT_sum, fun s _ => s.guarSum),
   (F.CIP_SLOT_STAT_in_use, fun s is => b2n (s.slotInUse (ix is))),
   (F.SEQ_EXEC_STAT_idle_sq, fun s _ => s.idleSqs),
   (F.SEQ_SQ_STAT_state, fun s is => (s.seq (ix is)).state.code),
   (F.SEQ_SQ_STAT_func, fun s is => (s.seq (ix is)).func),
   (F.SEQ_SQ_STAT_program, fun s is => (s.seq (ix is)).program),
   (F.SEQ_SQ_TAG_tag, fun s is => (s.seq (ix is)).tag.toNat),
   (F.SEQ_SQ_PC_z, fun s is => b2n (s.seq (ix is)).z),
   (F.SEQ_SQ_PC_n, fun s is => b2n (s.seq (ix is)).n),
   (F.SEQ_SQ_PC_c, fun s is => b2n (s.seq (ix is)).c),
   (F.SEQ_SQ_PC_v, fun s is => b2n (s.seq (ix is)).v),
   (F.SEQ_SQ_PC_t, fun s is => b2n (s.seq (ix is)).t),
   (F.SEQ_SQ_PC_pc, fun s is => (s.seq (ix is)).pc.toNat),
   (F.SEQ_CLAIM_STAT_held, fun s is => b2n (s.claimed (ix is) || (decide (ix is = 0x1F) && s.deviceCask))),
   (F.SEQ_CLAIM_STAT_sq, fun s is => ((s.claim (ix is)).holder).getD 0),
   (F.SEQ_CLAIM_STAT_waiters, fun s is => (s.claim (ix is)).waiters.length),
   (F.VTG_STAT_staged_diff, fun s _ => b2n (decide (imgDiff s.vtg.staged s.vtg.current ≠ []))),
   (F.VTG_ARCH_STAT_count, fun s _ => s.vtg.archCount),
   (F.HIF_Q_STAT_count, fun s is => (s.queue (ix is)).held),
   (F.MON_IN_STAT_test, fun s is => b2n (s.onTestDac (ix is))),
   (F.MON_INJ_RES_word, fun s is => if is.getD 1 0 < 7 then (tabGet Acc.zero s.mon.injRes (ix is)).word (is.getD 1 0) else 0),
   (F.MON_ACC_word, fun s is => (tabGet Acc.zero s.mon.bank (ix is)).word (is.getD 1 0)),
   (F.MON_CNT_SNAP_value, fun s is =>
     let n := bankAt s.mon.snap (ix is)
     if is.getD 1 0 = 0 then n / 2 ^ 24 else n % 2 ^ 24)]

/-- Two fields of the register file are the same field. -/
def Fld.same (f g : Fld) : Bool := decide (f.addr = g.addr ∧ f.lo = g.lo)

/-- The value of a status field: what it shows, or what it holds. -/
def State.statusOf (s : State) (f : Fld) (is : List Nat) : Nat :=
  match views.find? fun e => e.1.same f with
  | some e => e.2 s is % 2 ^ fldWidth f
  | none => s.rd f is

/-! ### Gates and crossings (R51 to R53, R57) -/

/-- The crossing between the control domains and the slice of a per-slice register is FLUSHED: pushes of fabric traffic
into it are refused, and the fabric answers the access with its error response (R57, R58). DEDUCED (log 38). -/
def State.peerInReset (s : State) (a : Nat) : Bool :=
  sliceBlock (a / 2 ^ 20) && (tabGet Crossing.open s.ctl.crossings (a / 2 ^ 17 % 8)).flushed
    && !decide (a / 2 ^ 20 = 5 ∧ 0x10000 ≤ a % 2 ^ 20 ∧ a % 2 ^ 20 < 0x20000)

/-- GATE_CLOSE_REQUEST: the gate closes at once, or, with an access in progress (`busy`), when that ends (R52). -/
def execGateCloseRequest (b : Fin 16) (busy : Bool) (s : State) : Out :=
  .next (s.setGate b (if busy then { s.gate b with closing := true } else ⟨false, true⟩))

/-! ### Reads (R2, R6, R15, R53) -/

/-- The value that a read of a field returns. -/
def State.fieldRead (s : State) (gated : Bool) (is : List Nat) (f : Fld) : Nat :=
  match f.cls with
  | .vintage => s.cur f is
  | .live | .kept => s.rd f is
  | .status => if gated then 0 else s.statusOf f is
  | .command => 0

/-- What a read changes: the peaks (R167, R271, R512) and the latches of device time (R453). -/
def State.readEffect (s : State) (addr : Nat) (is : List Nat) : State :=
  if addr = R.HIF_Q_PEAK.addr then s.peakReset (ix is)
  else if addr = R.FEC_POOL_PEAK.addr then s.wr F.FEC_POOL_PEAK_value s.pool.blocks.length
  else if addr = R.MON_DC_PEAK.addr then
    s.wr F.MON_DC_PEAK_value (toSigned 24 (s.rd F.MON_DC_OUT_value [ix is])).natAbs [ix is]
  else if addr = R.TIM_TOD_NS_L.addr then
    (s.wr F.TIM_TOD_NS_H_value (s.time.toNat / 2 ^ 24)).wr F.TIM_TOD_FRAC_value (s.tim.now.toNat / 2 ^ 16 % 2 ^ 16 * 2 ^ 8)
  else s

/-- A read of a fabric word: the word, none for an error response, and the state after it (R2, R15). DEDUCED (log 10). -/
def State.fabricRead (s : State) (a : Nat) : Option Nat × State :=
  let a := a % 2 ^ 24
  if s.fusedAddr a || s.peerInReset a then (none, s)
  else
    match regAt a with
    | none => (none, s)
    | some (r, is) =>
      let s := s.settleGate (a / 2 ^ 20)
      let g := s.gatedAt a
      (some ((r.fields.map fun f => s.fieldRead g is f * 2 ^ f.lo).sum), if g then s else s.readEffect r.addr is)

/-! ### Live and kept fields (R6, R7) -/

/-- A live or kept field takes a written word: a kept bit is cleared by 1. TIM_CLK_SSC reads back the value used;
SEQ_LOAD_DATA holds nothing and reads 0 (R65); bits [23:8] of GLB_FAULT_EN[5] are reserved (R9). -/
def State.fieldWrite (s : State) (is : List Nat) (w : Nat) (f : Fld) : State :=
  match f.cls with
  | .live =>
    if f.same F.SEQ_LOAD_DATA_word then s else
    let v := fldOf f w
    let v := if f.same F.TIM_CLK_SSC_depth then min 10 v else if f.same F.TIM_CLK_SSC_rate then min 50 (max 25 v)
      else if f.same F.GLB_FAULT_EN_bits ∧ is = [5] then v % 256 else v
    s.wr f v is
  | .kept => let v := s.rd f is; s.wr f (v - (v &&& fldOf f w)) is
  | _ => s

/-- The test DAC has moved to or from an input. -/
def State.tdacMoved (s old : State) : State :=
  forEach (fun n t =>
    if old.onTestDac n = t.onTestDac n then t
    else { t with mon := { t.mon with tdacAt := tabPut none t.mon.tdacAt n (some t.time) } }) (List.range 128) s

/-- A change of a chain's source, order, decimation or shifts resets the chain (R508, R510). -/
def State.chainMoved (s old : State) (c : Nat) : State :=
  let fs := [F.MON_DC_CFG_src, F.MON_DC_CFG_sel, F.MON_DC_CFG_order, F.MON_DC_CFG_dec, F.MON_DC_SHI_shift, F.MON_DC_SHC_shift]
  if fs.any fun f => decide (old.rd f [c] ≠ s.rd f [c]) then s.resetChain c else s

/-- What a write of live and kept fields starts, beyond the fields themselves; `old` is the state before the write. -/
def State.liveEffect (s old : State) (addr : Nat) (is : List Nat) (w : Nat) : State :=
  let i := ix is
  if addr = R.GLB_MODE.addr then s.reqMode (fldOf F.GLB_MODE_req w)
  else if addr = R.GLB_REC_STAT.addr then (if fldOf F.GLB_REC_STAT_given_up w = 1 then s.clearGivenUp else s)
  else if addr = R.TIM_CLK_STAT.addr then (if fldOf F.TIM_CLK_STAT_hostclk_fail w = 1 then s.clearHostclkFail else s)
  else if addr = R.TIM_CLK_SSC.addr then (if old.bit F.TIM_CLK_SSC_en then s else s.sscTake)
  else if addr = R.TIM_SEL_LOCK.addr then
    s.mirror 0x06 [s.rd F.TIM_SEL_STAT_cmd, s.tim.cmdCand, s.rd F.TIM_SEL_LOCK_lock]
  else if addr = R.CLI_PORT_CFG.addr then s.lanesAsk.refLanes
  else if addr = R.PRY_RFW_CFG.addr then s.mirrorDomain
  else if addr = R.SEQ_LOAD_DATA.addr then s.loadData (BitVec.ofNat 24 w)
  else if addr = R.HIF_Q_CFG.addr then (if fldOf F.HIF_Q_CFG_reset w = 1 then s else s.queueMarks i)
  else if addr = R.HIF_Q_STAT.addr then s.queueMarks i
  else if addr = R.HIF_DMA_CFG.addr then
    (if old.bit F.HIF_DMA_CFG_en [i] = false ∧ s.bit F.HIF_DMA_CFG_en [i] = true then (s.wr F.HIF_DMA_CFG_en 0 [i]).dmaEnable i else s)
  else if addr = R.MON_TDAC_CFG.addr then s.tdacMoved old
  else if addr = R.MON_DC_CFG.addr ∨ addr = R.MON_DC_SHI.addr ∨ addr = R.MON_DC_SHC.addr then s.chainMoved old i
  else if addr = R.MON_DC_RESP.addr then s.requestResp i (s.rd F.MON_DC_RESP_r [i]) (s.rd F.MON_DC_RESP_fade [i])
  else if addr = R.MON_CNT_CFG.addr then
    (if s.bit F.MON_CNT_CFG_en then s else { s with mon := { s.mon with windows := false } })
  else if addr = R.MON_CNT_SEL.addr then s.counterSelect w
  else s

/-! ### Command fields -/

/-- The state that a command's meaning answers. -/
def State.run (s : State) (f : State → Out) : State :=
  match f s with
  | .next t => t
  | _ => s

/-- A slice index. -/
def fin8 (i : Nat) : Fin 8 := Fin.ofNat 8 i
/-- A function, timer, slot or sequencer index. -/
def fin16 (i : Nat) : Fin 16 := Fin.ofNat 16 i

/-- VTG_CMD: one request, or none where more than one bit is set (R578). In RETURNING, where R140 ignores requests, such a
write sets nomatch too: R578 refuses it before it is a request. DESIGN CHOICE (log 41). -/
def State.vtgCommand (s : State) (w : Nat) : State :=
  match (List.range 9).filter fun k => decide (w / 2 ^ (23 - k) % 2 = 1) with
  | [0] => s.vtgReturn 6
  | [1] => s.endProbation
  | [2] => s.vtgFail
  | [3] => s.withdraw
  | [4] => s.resetStaged
  | [5] => s.loadArch
  | [6] => s.loadStore
  | [7] => s.vtgRelease
  | [8] => s.vtgReturn 8
  | _ => s.vtgNomatch

/-- A go of CIP_UP_KEY_CMD of function f, by its op. -/
def State.keyCommand (s : State) (f : Nat) : State :=
  match s.rd F.CIP_UP_KEY_CMD_op [f] with
  | 0 => s.run (execKeyLoadSlot (fin16 f))
  | 1 => s.run (execKeyEraseSlot (fin16 f))
  | 2 => s.run (execKekLoad (fin16 f))
  | _ => s.run (execKekErase (fin16 f))

/-- A go of CEL_ACC_CMD, by its op; a read meets no errors but those stored. -/
def State.accCommand (s : State) : State :=
  match s.rd F.CEL_ACC_CMD_op with
  | 0 => s.run (execAccRead [])
  | 1 => s.run execAccWrite
  | 2 => s.run execAccRawWrite
  | _ => s.wr F.CEL_ACC_CMD_refused 1

/-- A go of CEL_PPR_CMD: whether the memory reports a repair resource is a free choice here. DEDUCED (log 11). -/
def State.pprCommand (s : State) : State :=
  ({ s with free := s.free + 1 }).run (execPprGo (Config.freeBool s.free))

/-- What the 1s written to command fields of a register start, the field of the higher bit first. `rfw` starts a
remote-fabric transaction. -/
def State.command (rfw : State → Nat → State) (s : State) (addr : Nat) (is : List Nat) (w : Nat) : State :=
  let i := ix is
  let b23 := decide (w / 2 ^ 23 % 2 = 1)
  let b22 := decide (w / 2 ^ 22 % 2 = 1)
  let hi := fun (f : State → State) (s : State) => if b23 then f s else s
  let lo := fun (f : State → State) (s : State) => if b22 then f s else s
  if addr = R.GLB_RST_CMD.addr then
    lo (fun t => t.resetSlice (t.rd F.GLB_RST_CMD_sel)) (hi (fun t => t.ccReset false) s)
  else if addr = R.GLB_CASK_WIN_CMD.addr then hi (fun t => t.caskGo (t.rd F.GLB_CASK_WIN_CMD_op)) s
  else if addr = R.GLB_FES_CMD.addr then hi (fun t => t.fesGo i (t.bit F.GLB_FES_CMD_op [i])) s
  else if addr = R.TIM_SEL_CMD.addr then hi (fun t => t.selCommand (t.rd F.TIM_SEL_CMD_code) (t.rd F.TIM_SEL_CMD_cand)) s
  else if addr = R.TIM_PHS_CMD.addr then hi State.phaseGo s
  else if addr = R.TIM_TOD_CMD.addr then s.todCommand b23 b22
  else if addr = R.TIM_TMR_CTL.addr then lo (fun t => t.wr F.TIM_TMR_CTL_armed 0 [i]) (hi (fun t => t.armTimer i) s)
  else if addr = R.CNV_RECAL_CMD.addr then
    lo (fun t => t.abortRun i) (hi (fun t => t.run (execRecalRunCmd (fin8 i))) s)
  else if addr = R.CNV_CAP_CMD.addr then
    lo (fun t => t.stopCapture i) (hi (fun t => t.run (execCaptureGo (fin8 i))) s)
  else if addr = R.RXD_ACQ_CMD.addr then hi (fun t => (t.acqRestart i).sourceGone) s
  else if addr = R.TDL_MB_TX_CMD.addr then hi (fun t => t.run (execMailboxGo (fin8 i))) s
  else if addr = R.TDL_MB_RX_STAT.addr then lo (fun t => t.run (execMailboxRelease (fin8 i))) s
  else if addr = R.MAP_CH_CMD.addr then
    let s := hi (fun t => t.psCommand i (t.rd F.MAP_CH_CMD_code [i])) s
    if w / 2 ^ 19 % 2 = 1 then s.run (execRealign (Fin.ofNat 512 i)) else s
  else if addr = R.CIP_UP_KEY_CMD.addr then hi (fun t => t.keyCommand i) s
  else if addr = R.CIP_UP_MSG_CMD.addr then hi (fun t => t.run (execMsgQueueGo (fin16 i))) s
  else if addr = R.CEL_CMD.addr then hi (fun t => t.run execCellarRetrain) s
  else if addr = R.CEL_ACC_CMD.addr then hi State.accCommand s
  else if addr = R.CEL_TOUCH_CMD.addr then hi (fun t => t.run (execTouchGo [])) s
  else if addr = R.CEL_PPR_CMD.addr then hi State.pprCommand s
  else if addr = R.CEL_MEM_INJ.addr then hi (fun t => t.run execMemInjArm) s
  else if addr = R.SEQ_ABORT_CMD.addr then hi (fun t => t.hostAbort (t.rd F.SEQ_ABORT_CMD_func)) s
  else if addr = R.VTG_CMD.addr then s.vtgCommand w
  else if addr = R.VTG_STG_CMD.addr then lo State.stageRead (hi State.stageGo s)
  else if addr = R.SEQ_LOAD_CMD.addr then
    (if b23 then s.loadBegin b22 else lo (fun t => t.loadVerify false) s)
  else if addr = R.HIF_Q_CFG.addr then s.queueReset i
  else if addr = R.MON_SEQ_CTL.addr then lo State.monStop (hi State.monGo s)
  else if addr = R.MON_CAL_CMD.addr then hi (fun t => t.fgRequest (t.rd F.MON_CAL_CMD_mask)) s
  else if addr = R.MON_INJ_CMD.addr then hi (fun t => t.injGo i) s
  else if addr = R.MON_ACC_CMD.addr then hi State.accSnap s
  else if addr = R.MON_SYNC_CMD.addr then hi State.syncGo s
  else if addr = R.PRY_TWIN_CMD.addr then
    let s := lo State.twinDetach (hi State.twinRelease s)
    if w / 2 ^ 21 % 2 = 1 then s.twinResync else s
  else if addr = R.PRY_RFW_CMD.addr then hi (fun t => rfw t i) s
  else s

/-! ### Writes (R2, R6 to R9, R15, R53) -/

/-- A write to a register: whether it completes without an error response, and the state after it. Live and kept fields
come first, then what they start, then the commands. A write to a register of V-class fields alone has an error response;
where other classes stand beside them, only a value that differs from the value in force has (R6, R8). -/
def State.regWrite (rfw : State → Nat → State) (s : State) (gated : Bool) (r : Reg) (is : List Nat) (w : Nat) : Bool × State :=
  let cmd := r.fields.any fun f => decide (f.cls = .command ∧ fldOf f w ≠ 0)
  let bad := r.fields.any fun f =>
    decide (f.cls = .vintage) && (r.fields.all (fun g => decide (g.cls = .vintage)) || decide (fldOf f w ≠ s.cur f is))
  let live := r.fields.any fun f => decide (f.cls = .live ∨ f.cls = .kept)
  let t := forEach (fun f t => t.fieldWrite is w f) r.fields s
  let t := if live then t.liveEffect s r.addr is w else t
  (!bad && !(cmd && gated), if cmd && !gated then t.command rfw r.addr is w else t)

/-- A write of a fabric word, with a given way to start a remote-fabric transaction. -/
def State.fabricWriteWith (rfw : State → Nat → State) (s : State) (a w : Nat) : Bool × State :=
  let a := a % 2 ^ 24
  if s.fusedAddr a || s.peerInReset a then (false, s)
  else
    match regAt a with
    | none => (false, s)
    | some (r, is) =>
      let s := s.settleGate (a / 2 ^ 20)
      s.regWrite rfw (s.gatedAt a) r is w

/-! ### Remote-fabric windows (R490, R491) -/

/-- A transaction of window w ends with a status. -/
def State.rfwEnd (s : State) (w status : Nat) : State :=
  let s := (s.wr F.PRY_RFW_CMD_busy 0 [w]).wr F.PRY_RFW_CMD_status status [w]
  { s with pry := { s.pry with txn := tabPut none s.pry.txn w none } }

/-- CIP_SLOT_GRANT is reachable through BAR0 alone: to a program, a window or a tunnel its words give an error response (R368).
DEDUCED (log 22). -/
def barOnly (a : Nat) : Bool := decide (0x900400 ≤ a % 2 ^ 24 ∧ a % 2 ^ 24 < 0x900480)

/-- A read of a fabric word by anything but BAR0, and a write, made by `wr`. -/
def State.innerRead (s : State) (a : Nat) : Option Nat × State := if barOnly a then (none, s) else s.fabricRead a
def State.innerWrite (wr : State → Nat → Nat → Bool × State) (s : State) (a w : Nat) : Bool × State :=
  if barOnly a then (false, s) else wr s a w

/-- The device's own fabric ends a transaction at once: OK or FABRIC. -/
def State.rfwOwn (wr : State → Nat → Nat → Bool × State) (s : State) (w : Nat) : State :=
  let a := s.rd F.PRY_RFW_ADDR_value [w]
  if s.bit F.PRY_RFW_CMD_op [w] then
    let r := State.innerWrite wr s a (s.rd F.PRY_RFW_DATA_value [w])
    r.2.rfwEnd w (if r.1 then 0 else 1)
  else
    match s.innerRead a with
    | (some v, t) => (t.wr F.PRY_RFW_DATA_value v [w]).rfwEnd w 0
    | (none, t) => t.rfwEnd w 1

/-- The port that leads to a domain number: the DN port it was assigned through, else UP. DEDUCED (log 28). -/
def State.portFor (s : State) (dom : Nat) : Nat := (tabGet none s.pry.routes dom).getD 1

/-- A go of window w (R490). DEDUCED (log 28). -/
def State.rfwStart (wr : State → Nat → Nat → Bool × State) (s : State) (w : Nat) : State :=
  if s.bit F.PRY_RFW_CMD_busy [w] then s.wr F.PRY_RFW_CMD_refused 1 [w]
  else
    let s := s.wr F.PRY_RFW_CMD_busy 1 [w]
    let dom := s.rd F.PRY_RFW_CMD_dom [w]
    let own := s.rd F.PRY_DOM_STAT_dom
    if dom = own then s.rfwOwn wr w
    else if s.bit F.PRY_DOM_NODE_present [dom] = false then s.rfwEnd w 2
    else
      let id := s.pry.nextTxn % 256
      let s := { s with pry := { s.pry with txn := tabPut none s.pry.txn w (some (id, s.bit F.PRY_RFW_CMD_op [w])), nextTxn := (id + 1) % 256 } }
      s.pryTx (s.portFor dom) ⟨2, s.rd F.PRY_RFW_CMD_op [w], dom, own,
        [id * 2 ^ 16, s.rd F.PRY_RFW_ADDR_value [w], s.rd F.PRY_RFW_DATA_value [w]]⟩

/-- A write of a fabric word; a window's access to its own fabric may start another window's, of which there are four. -/
def State.writeDepth : Nat → State → Nat → Nat → Bool × State
  | 0 => State.fabricWriteWith fun s w => s.wr F.PRY_RFW_CMD_refused 1 [w]
  | n + 1 => State.fabricWriteWith fun s w => s.rfwStart (State.writeDepth n) w

/-- A write of a fabric word: whether it completes without an error response, and the state after it.
DEDUCED (log 10). DEDUCED (log 11). -/
def State.fabricWrite (s : State) (a w : Nat) : Bool × State := State.writeDepth 4 s a w

/-- FABRIC_WRITE: a write to a register (R6, R15). -/
def execFabricWrite (addr : Addr) (value : Word) (s : State) : Out := .next (s.fabricWrite addr.toNat value.toNat).2

/-! ### The host's accesses to BAR0 (R154, R155, R534) -/

/-- A fabric error response to a BAR0 access (R155). -/
def State.hostError (s : State) (a : Nat) : State :=
  let s := if s.bit F.HIF_ERR_STAT_fabric then s else s.wr F.HIF_ERR_ADDR_addr a
  (s.wr F.HIF_ERR_STAT_fabric 1).raise 0x07 a

/-- One DW of a BAR0 read. -/
def State.barRead (s : State) (a : Nat) : BitVec 32 × State :=
  match s.fabricRead a with
  | (some v, t) => (BitVec.ofNat 32 v, t)
  | (none, t) => (0, t.hostError a)

/-- One DW of a BAR0 write, with whether its byte enables cover bytes 0 to 2. -/
def State.barWrite (s : State) (a : Nat) (d : BitVec 32 × Bool) : State :=
  if d.2 then
    let r := s.fabricWrite a (d.1.toNat % 2 ^ 24)
    if r.1 then r.2 else r.2.hostError a
  else s.wr F.HIF_ERR_STAT_be 1

/-- The DWs of a read from address `a` on. -/
def State.barReads (s : State) (a : Nat) : Nat → List (BitVec 32) × State
  | 0 => ([], s)
  | n + 1 =>
    let r := s.barRead (a % 2 ^ 24)
    let q := State.barReads r.2 (a + 1) n
    (r.1 :: q.1, q.2)

/-- The DWs of a write from address `a` on. -/
def State.barWrites (s : State) (a : Nat) : List (BitVec 32 × Bool) → State
  | [] => s
  | d :: ds => State.barWrites (s.barWrite (a % 2 ^ 24) d) (a + 1) ds

/-- The largest payload of function f in DWs: 128, 256 or 512 bytes by its Device Control (R151). -/
def State.maxPayload (s : State) (f : Nat) : Nat := 32 * 2 ^ min 2 (tabGet 16 s.hif.devCtl f % 8)

/-- An uncorrectable error of function f in Advanced Error Reporting: bit 20 Unsupported Request, bit 18 malformed request.
PRESUMED (log 37). -/
def State.pcieError (s : State) (f bit : Nat) : State :=
  { s with hif := { s.hif with aer := tabPut 0 s.hif.aer f (tabGet 0 s.hif.aer f ||| BitVec.ofNat 32 (2 ^ bit)) } }

/-- A request to BAR0: writes of up to the maximum payload, reads of one or two DWs; a longer read is an Unsupported Request
and answers nothing (R154). -/
def State.bar0Request (s : State) (write : Bool) (a : Nat) (dws : List (BitVec 32 × Bool)) : State :=
  if write then
    if dws.length ≤ s.maxPayload 0 then s.hostActive.barWrites a dws else s.pcieError 0 18
  else if 2 < dws.length then (s.hostActive.pcieError 0 20).answer32 []
  else
    let r := s.hostActive.barReads a dws.length
    r.2.answer32 r.1

/-! ### User pages (R157, R516, R574) -/

/-- The fabric word that a DW of function f's user page shows, where the table "User page" names a register. -/
def userReg (f o : Nat) : Option Nat :=
  if 0x4000 ≤ o ∧ o ≤ 0x400C then some (0xD01000 + 8 * f + (o - 0x4000) / 4)
  else if 0x4010 ≤ o ∧ o ≤ 0x401C then some (0xD01000 + 8 * (16 + f) + (o - 0x4010) / 4)
  else if 0x4040 ≤ o ∧ o ≤ 0x4050 then some (0xD02000 + 8 * f + (o - 0x4040) / 4)
  else if 0x4800 ≤ o ∧ o < 0x4A00 then some (0x906000 + 0x80 * f + (o - 0x4800) / 4)
  else none

/-- The MSI-X table DW at an offset of function f's user page. -/
def userMsix (f o : Nat) : Option Nat :=
  if 0x8000 ≤ o ∧ o < 0x8000 + 16 * (lastVec f + 1) then some (f * 2048 + (o - 0x8000) / 4) else none

/-- A DW of the pending-bit array of function f (R172). -/
def State.pendingDw (s : State) (f k : Nat) : Nat :=
  ((List.range 32).map fun b => if 32 * k + b ≤ lastVec f ∧ tabGet false s.hif.vecPend (f * 512 + 32 * k + b) = true
    then 2 ^ b else 0).sum

/-- One DW of a read of function f's user page; an offset that no row lists reads 0. -/
def State.userRead (s : State) (f o : Nat) : BitVec 32 × State :=
  if 0x4400 ≤ o ∧ o < 0x4800 then s.popDw f
  else if 0xC000 ≤ o ∧ o < 0x10000 then (BitVec.ofNat 32 (s.counterWindow f ((o - 0xC000) / 4)), s)
  else if 0xA000 ≤ o ∧ o < 0xA040 then (BitVec.ofNat 32 (s.pendingDw f ((o - 0xA000) / 4)), s)
  else
    match userMsix f o with
    | some k => (tabGet (b2n (decide (k % 4 = 3))) s.hif.msixTbl k, s)
    | none =>
      match userReg f o with
      | some a =>
        match s.fabricRead a with
        | (some v, t) => (BitVec.ofNat 32 v, t)
        | (none, t) => (0, t)
      | none => (0, s)

/-- One DW of a write to function f's user page, with whether its byte enables cover bytes 0 to 2. A write of part of a DW of
the MSI-X table is undefined in PCIe: the DW takes a free value. DESIGN CHOICE (log 2). -/
def State.userWrite (s : State) (f o : Nat) (d : BitVec 32 × Bool) : State :=
  if o < 0x4000 then s.pushDw f d
  else
    match userMsix f o with
    | some k =>
      let r := s.takeWord
      let (v, s) := if d.2 then (d.1, s) else (BitVec.ofNat 32 r.1, r.2)
      let v := if k % 4 = 3 then v &&& 1#32 else v
      ({ s with hif := { s.hif with msixTbl := tabPut (b2n (decide (k % 4 = 3))) s.hif.msixTbl k v } }).sendAllPending
    | none =>
      if (0x4000 ≤ o ∧ o < 0x6000) ∨ 0xC000 ≤ o then
        if d.2 then
          if o = 0xFFC0 then
            { s with hif := { s.hif with cntPage := tabPut 0 s.hif.cntPage f (d.1.extractLsb' 0 24) } }
          else
            match userReg f o with
            | some a => (s.fabricWrite a (d.1.toNat % 2 ^ 24)).2
            | none => s
        else s.wr F.HIF_ERR_STAT_be 1
      else s

/-- The DWs of a read of a user page, from offset o on. -/
def State.userReads (s : State) (f o : Nat) : Nat → List (BitVec 32) × State
  | 0 => ([], s)
  | n + 1 =>
    let r := s.userRead f (o % 2 ^ 16)
    let q := State.userReads r.2 f (o + 4) n
    (r.1 :: q.1, q.2)

/-- The DWs of a write to a user page, from offset o on. -/
def State.userWrites (s : State) (f o : Nat) : List (BitVec 32 × Bool) → State
  | [] => s
  | d :: ds => State.userWrites (s.userWrite f (o % 2 ^ 16) d) f (o + 4) ds

/-- A memory request to the user page of function f: DWs from the DW-aligned byte offset on. -/
def State.userRequest (s : State) (f : Nat) (write : Bool) (o : Nat) (dws : List (BitVec 32 × Bool)) : State :=
  let s := s.hostRequest f
  let o := o / 4 * 4
  if write then
    if dws.length ≤ s.maxPayload f then s.userWrites f o dws else s.pcieError f 18
  else
    let r := s.userReads f o dws.length
    r.2.answer32 r.1

/-! ### Configuration space (R151 to R153) -/

/-- The PF Device ID: 0x0C80 in the OCV-8E, 0x0C40 in the OCV-4E; the VF Device ID is 0x0C81 in both (R152). -/
def State.deviceId (s : State) : Nat := if s.rd F.GLB_IDENT_slice_mask = 0xFF then 0x0C80 else 0x0C40
def vfDeviceId : Nat := 0x0C81

/-- The bits of a base address register that can be written, and its fixed low bits: 64-bit and non-prefetchable. BAR0 takes
64 MiB and BAR2 64 KiB, each with the upper half in the next register; the others are not implemented (R153). -/
def barBits (vf : Bool) (n : Nat) : BitVec 32 × BitVec 32 :=
  match vf, n with
  | false, 0 => (0xFC000000#32, 4#32)
  | false, 1 => (0xFFFFFFFF#32, 0#32)
  | _, 2 => (0xFFFF0000#32, 4#32)
  | _, 3 => (0xFFFFFFFF#32, 0#32)
  | _, _ => (0#32, 0#32)

/-- The capability IDs of PCI Express with the version in bits [19:16] of an extended one, for the capabilities that the table
marks Implemented; one marked Absent is not present (R151). SR-IOV and the link's capabilities stand in the PF alone.
PRESUMED (log 37). -/
def capHeader (pf : Bool) (c : PcieCap) : BitVec 32 :=
  match c with
  | .power => 0x01#32
  | .express => 0x10#32
  | .msix => 0x11#32
  | .aer => 0x20001#32
  | .ari => 0x1000E#32
  | .serial => if pf then 0x10003#32 else 0
  | .sriov => if pf then 0x10010#32 else 0
  | .dataLink => if pf then 0x10025#32 else 0
  | .phy16 => if pf then 0x10026#32 else 0
  | .margining => if pf then 0x10027#32 else 0
  | .phy32 => if pf then 0x1002A#32 else 0
  | .phy64 => if pf then 0x10031#32 else 0
  | .msi | .ats | .pasid | .pri | .tph | .ltr | .l1Substates | .resizableBar | .ide | .doe => 0

/-- What a configuration read of function f returns. A VF's own identifiers read all ones and its BARs 0, as SR-IOV has it.
PRESUMED (log 37). -/
def State.configRead (s : State) (f : Nat) (r : CfgReg) : BitVec 32 :=
  let h := s.hif
  let pf := decide (f = 0)
  let bar := fun (vf : Bool) (n : Nat) =>
    (tabGet 0 h.bars (n + 8 * b2n vf) &&& (barBits vf n).1) ||| (barBits vf n).2
  match r with
  | .id => if pf then BitVec.ofNat 32 (s.deviceId * 2 ^ 16 + Config.vendorId.toNat) else 0xFFFFFFFF#32
  | .bar n => if pf then bar false n else 0
  | .vfBar n => if pf then bar true n else 0
  | .vfDevice => if pf then BitVec.ofNat 32 (vfDeviceId * 2 ^ 16) else 0
  | .sriov => if pf then BitVec.ofNat 32 (b2n h.vfEnable) else 0
  | .numVfs => if pf then BitVec.ofNat 32 h.numVfs else 0
  | .vfPlace => if pf then 0x00010001#32 else 0
  | .ari => 0
  | .power => if tabGet false h.d3 f then 3#32 else 0
  | .msix => BitVec.ofNat 32 (b2n (tabGet false h.msixEn f) * 2 ^ 31 + b2n (tabGet false h.msixFMask f) * 2 ^ 30
      + lastVec f * 2 ^ 16)
  | .device => let c := tabGet 16 h.devCtl f; BitVec.ofNat 32 (c % 8 * 2 ^ 5 + c / 8 * 2 ^ 12)
  | .deviceCaps => 2#32
  | .deviceCaps2 => BitVec.ofNat 32 (2 ^ 16 + 2 ^ 17)
  | .totalVfs => if pf then 0x000F000F#32 else 0
  | .header c => capHeader pf c
  | .aer => tabGet 0 h.aer f
  | .serialLow => s.ctl.otpSerial.setWidth 32
  | .serialHigh => 0

/-- A configuration write of one DW to function f (R151 to R153, R172); a register that no capability lets be written keeps its
value. PRESUMED (log 37). -/
def State.configWrite (s : State) (f : Nat) (r : CfgReg) (d : BitVec 32) : State :=
  let h := s.hif
  let put := fun (h : Hif) => { s with hif := h }
  match r with
  | .bar n => if f = 0 then put { h with bars := tabPut 0 h.bars n (d &&& (barBits false n).1) } else s
  | .vfBar n => if f = 0 then put { h with bars := tabPut 0 h.bars (n + 8) (d &&& (barBits true n).1) } else s
  | .sriov => if f = 0 then put { h with vfEnable := d.getLsbD 0 } else s
  | .numVfs => if f = 0 ∧ h.vfEnable = false then put { h with numVfs := min 15 (d.toNat % 2 ^ 16) } else s
  | .power =>
    if d.toNat % 4 = 3 then put { h with d3 := tabPut false h.d3 f true }
    else if d.toNat % 4 = 0 then put { h with d3 := tabPut false h.d3 f false } else s
  | .msix =>
    (put { h with msixEn := tabPut false h.msixEn f (d.getLsbD 31),
                  msixFMask := tabPut false h.msixFMask f (d.getLsbD 30) }).sendAllPending
  | .device =>
    put { h with devCtl := tabPut 16 h.devCtl f (min 2 (d.toNat / 2 ^ 5 % 8) + 8 * min 5 (d.toNat / 2 ^ 12 % 8)) }
  | .aer => put { h with aer := tabPut 0 h.aer f (tabGet 0 h.aer f &&& ~~~d) }
  | .id | .vfDevice | .vfPlace | .ari | .serialLow | .serialHigh | .deviceCaps | .deviceCaps2 | .totalVfs | .header _ => s

/-- A configuration request to function f: one DW. -/
def State.configRequest (s : State) (f : Nat) (r : CfgReg) (write : Bool) (dws : List (BitVec 32 × Bool)) : State :=
  match dws with
  | [d] => if write then s.configWrite f r d.1 else s.answer32 [s.configRead f r]
  | _ => s.pcieError f 20

/-- BAR0_ACCESS: a request of the host over PCIe, a write of `dws` or a read of as many: to the control window at word address
`addr`, to a user page at byte offset `addr`, or to a register of configuration space. While the link is down nothing is
answered and nothing acts; in D3hot a function answers configuration requests alone (R46, R47, R151, R154, R157).
DEDUCED (log 15). -/
def execBar0Access (space : HostSpace) (write : Bool) (addr : Addr) (dws : List (BitVec 32 × Bool)) (s : State) : Out :=
  .next (match space with
    | .bar0 => if s.reaches 0 then s.bar0Request write addr.toNat dws else s
    | .user f => if s.reaches f then s.userRequest f write (addr.toNat % 2 ^ 16) dws else s
    | .config f r =>
      if s.linkAnswers = true ∧ (f.val = 0 ∨ s.hif.vfEnable = true ∧ f.val ≤ s.hif.numVfs) then s.configRequest f r write dws
      else s)

end Sys2Proof.Machine
end

