-- ==== Sys2Proof/Machine/Remote.lean ====
section
/-!
DEFINITION. Remote fabric access: the windows of the manager, and TUNNEL messages at the target and on their way (R490,
R491). Class 2 is TUNNEL; its kinds are 0 READ, 1 WRITE and 2 RESPONSE.
-/

namespace Sys2Proof.Machine

/-- A go of window w with an op: the write of PRY_RFW_CMD that carries it. -/
def State.rfwGo (s : State) (w op : Nat) : State := (s.wr F.PRY_RFW_CMD_op op [w]).rfwStart State.fabricWrite w

def execRfwRead (w : Fin 4) (s : State) : Out := .next (s.whenOpen 15 fun s => s.rfwGo w 0)
def execRfwWrite (w : Fin 4) (s : State) : Out := .next (s.whenOpen 15 fun s => s.rfwGo w 1)

/-- RFW_TIMEOUT: no response by PRY_RFW_CFG.to (R491). -/
def execRfwTimeout (w : Fin 4) (s : State) : Out :=
  .next (if (tabGet none s.pry.txn w.val).isSome then s.rfwEnd w 3 else s)

/-- The window whose transaction has this id. -/
def State.windowOf (s : State) (id : Nat) : Option Nat := [0, 1, 2, 3].find? fun w => decide ((tabGet none s.pry.txn w).map Prod.fst = some id)

/-- A response at the device that asked: its window ends, with the read result on OK; a late one finds no window (R491).
DEDUCED (log 28). -/
def State.rfwResponse (s : State) (w0 data : Nat) : State :=
  match s.windowOf (w0 / 2 ^ 16 % 256) with
  | none => s
  | some w =>
    let st := w0 / 2 ^ 14 % 4
    let s := if st = 0 ∧ (tabGet none s.pry.txn w).map Prod.snd = some false then s.wr F.PRY_RFW_DATA_value data [w] else s
    s.rfwEnd w st

/-- A TUNNEL message goes on by its destination number (R490). DEDUCED (log 28). -/
def State.tunnelOn (s : State) (p : Nat) (m : PryMsg) : State :=
  let q := s.portFor m.dst
  if q = p then s else s.pryTx q m

/-- The message is for this device. -/
def State.tunnelHere (s : State) (m : PryMsg) : Bool := decide (m.dst = s.rd F.PRY_DOM_STAT_dom)

/-- RESPONSE: the first TUNNEL RESPONSE that port p holds. -/
def execResponse (p : Fin 6) (s : State) : Out :=
  .next (s.onMsg p (fun m => decide (m.cls = 2 ∧ m.kind = 2)) fun m t =>
    if t.tunnelHere m then t.rfwResponse (m.words.getD 0 0) (m.words.getD 1 0) else t.tunnelOn p m)

/-- A write of a tunnel request: the manager's withdrawal of a HELD domain commit ends it with DOMAIN (R131). -/
def State.tunnelWrite (s : State) (src a v : Nat) : Bool × State :=
  let r := State.innerWrite State.fabricWrite s a v
  if r.1 = true ∧ src = 0 ∧ a = R.VTG_CMD.addr ∧ v / 2 ^ 15 % 2 ^ 9 = 2 ^ 5 ∧ s.vtState = vtHeld then
    (s.failCommit 10).fabricWrite a v
  else r

/-- A request at its target: the access, as for the host, and its response through the same port. -/
def State.tunnelServe (s : State) (p : Nat) (m : PryMsg) : State :=
  let w := fun k => m.words.getD k 0
  let s := if s.upClocked then s.hostActive else s
  let back := fun (t : State) (ok : Bool) (v : Nat) =>
    t.pryTx p ⟨2, 2, m.src, m.dst, [w 0 / 2 ^ 16 % 256 * 2 ^ 16 + (if ok then 0 else 1) * 2 ^ 14, v]⟩
  if m.kind = 1 then
    let r := s.tunnelWrite m.src (w 1) (w 2)
    back r.2 r.1 0
  else
    match s.innerRead (w 1) with
    | (some v, t) => back t true v
    | (none, t) => back t false 0

/-- TUNNEL_REQUEST_RX: the first TUNNEL READ or WRITE that port p holds. -/
def execTunnelRequestRx (p : Fin 6) (s : State) : Out :=
  .next (s.onMsg p (fun m => decide (m.cls = 2 ∧ m.kind ≤ 1)) fun m t =>
    if t.tunnelHere m then t.tunnelServe p m else t.tunnelOn p m)

end Sys2Proof.Machine
end

