-- ==== Sys2Proof/Machine/Tsuile.lean ====
section
/-!
DEFINITION. Tsuile (chapter 04): the fetch and the checks of an instruction word, arithmetic and logic, moves, local memory
and flow. Each row acts where the sequencer runs and the instruction at its program counter is the row's.
-/

namespace Sys2Proof.Machine

/-! ### Instruction words (R91, R92, R93) -/

/-- A fetched instruction: its word, its extension word, and the address that follows it. -/
structure Ins where
  w    : Nat
  ext  : Nat
  next : BitVec 19
  deriving DecidableEq, Repr

def Ins.op (i : Ins) : Nat := i.w / 2 ^ 18
def Ins.a (i : Ins) : Nat := bitsOf i.w 17 14
def Ins.b (i : Ins) : Nat := bitsOf i.w 13 10
def Ins.c (i : Ins) : Nat := bitsOf i.w 9 6
def Ins.m (i : Ins) : Nat := bitsOf i.w 5 0
/-- Bit k of m. -/
def Ins.mBit (i : Ins) (k : Nat) : Bool := decide (i.w / 2 ^ k % 2 = 1)
/-- m as a signed immediate. -/
def Ins.imm6 (i : Ins) : Word := BitVec.ofInt 24 (toSigned 6 i.m)
/-- The number of bits [13:6]. -/
def Ins.num (i : Ins) : Nat := bitsOf i.w 13 6
/-- The number of bits [17:6]. -/
def Ins.stepNum (i : Ins) : Nat := bitsOf i.w 17 6

/-- Masks of the fields of the table "Instruction word". -/
def maskA : Nat := 0x3C000
def maskB : Nat := 0x3C00
def maskC : Nat := 0x3C0
def maskM : Nat := 0x3F

/-- The reserved bits of the instructions whose forms do not differ, by opcode (R100, R103, R108, R110, R115). -/
def fixedReserved : List (Nat × Nat) :=
  [(0x00, 0), (0x01, maskM), (0x02, maskC), (0x03, maskM), (0x04, maskC), (0x05, 0x3E), (0x06, 0x3E), (0x07, maskM),
   (0x08, maskM), (0x09, maskM), (0x0A, maskC + maskM), (0x0F, maskA + maskM), (0x10, maskA + maskC), (0x11, 0x3E),
   (0x12, 0x3E), (0x13, maskC + maskM), (0x14, maskB + maskC + maskM), (0x15, maskC), (0x16, maskC), (0x20, 0), (0x21, 0),
   (0x22, 0), (0x23, 0), (0x24, 0), (0x25, 0), (0x26, 0), (0x27, maskA + maskC + maskM), (0x28, 0),
   (0x29, maskA + maskB + maskC + maskM), (0x2C, maskA), (0x2D, 0), (0x2E, maskC + maskM), (0x32, maskA + maskB + maskC),
   (0x33, 0x18), (0x34, maskA + 0x38), (0x38, maskM), (0x3A, maskA + maskC), (0x3D, maskA + maskB + maskC + 0x3E)]

/-- The reserved bits of an instruction word; none for an opcode or a modifier that no table defines (R92, R102, R104,
R110, R117, R119). DEDUCED (log 8). -/
def reservedBits (w : Nat) : Option Nat :=
  let op := w / 2 ^ 18
  let bit := fun k => decide (w / 2 ^ k % 2 = 1)
  let idx := if bit 3 then 0 else maskC
  if op = 0x0B ∨ op = 0x0C ∨ op = 0x0D ∨ op = 0x0E then some (if bit 5 then 0x1F else maskC)
  else if op = 0x18 ∨ op = 0x19 then some (0x07 + (if bit 5 then maskB else 0) + idx)
  else if op = 0x1A ∨ op = 0x3B then (if bit 5 then some (0x07 + idx) else none)
  else if op = 0x1B then (if bit 5 then some 0x08 else none)
  else if op = 0x30 then some (maskA + 0x18 + (if bit 5 then maskC else 0))
  else if op = 0x31 then some (maskA + 0x1F + (if bit 5 then maskC else 0))
  else if op = 0x35 then some (0x1F + (if bit 5 then maskC else 0))
  else if op = 0x39 then some (0x1F + (if bit 5 then maskA + maskC else 0))
  else if op = 0x3C then (if w % 8 < 5 then some (0x38 + (if w % 8 = 4 then 0 else maskB + maskC)) else none)
  else (fixedReserved.find? fun e => decide (e.1 = op)).map Prod.snd

/-- What the word itself states is defined: STEP 0, a literal SIGNAL of a device event and the undefined port codes are
ILLEGAL as they stand (R113, R115, R119). -/
def literalsOk (w : Nat) : Bool :=
  let op := w / 2 ^ 18
  let port := w / 8 % 8
  if op = 0x38 then decide (bitsOf w 17 6 ≠ 0)
  else if op = 0x35 then decide (w / 32 % 2 = 1 ∨ 128 ≤ bitsOf w 13 6)
  else if op = 0x2C then decide (port ≠ 7)
  else if op = 0x2D then decide (port ≠ 0 ∧ port ≠ 7)
  else true

/-- A word that does not fault with ILLEGAL at its fetch. DEDUCED (log 8). -/
def legalWord (w : Nat) : Bool :=
  match reservedBits w with
  | some r => decide (w &&& r = 0) && literalsOk w
  | none => false

/-- A long form: one extension word follows (R91, R104). -/
def isLong (w : Nat) : Bool :=
  let op := w / 2 ^ 18
  decide (op = 0x14) || (decide (op = 0x18 ∨ op = 0x19 ∨ op = 0x1A ∨ op = 0x1B ∨ op = 0x3B) && decide (w / 32 % 2 = 1))

/-- A fetch of one word: none from the program directory or from a poisoned row (R93, R413). -/
def State.fetchWord (s : State) (pc : BitVec 19) : Option Nat × State :=
  if pc.toNat < 0x2000 then (none, s)
  else
    let r := s.memRead 4 (storeRow pc.toNat)
    (if r.1 then none else some (s.storeWord pc.toNat).toNat, r.2)

/-- The fetch of the instruction at the program counter of sequencer q: none where it faults with ILLEGAL. DEDUCED (log 8). -/
def State.fetch (s : State) (q : Nat) : Option Ins × State :=
  let pc := (s.seq q).pc
  let r := s.fetchWord pc
  match r.1 with
  | none => (none, r.2)
  | some w =>
    if !legalWord w then (none, r.2)
    else if isLong w then
      let e := r.2.fetchWord (pc + 1)
      (e.1.map fun x => ⟨w, x, pc + 2⟩, e.2)
    else (some ⟨w, 0, pc + 1⟩, r.2)

/-- An instruction issues on sequencer q: it runs where the fetched word has its opcode; a T-check instruction that starts
with T = 1 ends the program (R97). DEDUCED (log 8). -/
def State.issue (s : State) (q op : Nat) (tcheck : Bool) (body : Ins → State → State) : State :=
  if (s.seq q).state = .running then
    let r := s.fetch q
    match r.1 with
    | none => s
    | some i =>
      if i.op = op then
        if tcheck && (s.seq q).t then r.2.closeProgram q stTimeout 7 []
        else body i (r.2.setSeq q { r.2.seq q with slowUnits := 0 })
      else s
  else s

/-- The sequencer goes on at an address. -/
def Seq.goOn (x : Seq) (pc : BitVec 19) : Seq := { x with pc := pc, wait := none, state := .running }

/-- A change of a sequencer that still runs its program. -/
def State.onSeq (s : State) (q : Nat) (f : Seq → Seq) : State := if (s.seq q).live then s.setSeq q (f (s.seq q)) else s

/-- An instruction that changes its own sequencer alone, and goes on. -/
def State.alone (q op : Nat) (f : Ins → Seq → Seq) (s : State) : Out :=
  .next (s.issue q op false fun i t => t.onSeq q fun x => (f i x).goOn i.next)

/-- TRAP (R108). -/
def execTrap (q : Fin 16) (s : State) : Out := .next (s.issue q 0x00 false fun _ t => t.faultProgram q 1)

/-- ILLEGAL_OPCODE: the word at the program counter cannot be fetched or is not an instruction (R92, R93). -/
def execIllegalOpcode (q : Fin 16) (s : State) : Out :=
  .next (
    if (s.seq q).state = .running then
      let r := s.fetch q
      if r.1.isNone then r.2.faultProgram q 2 else s
    else s)

/-! ### Arithmetic and logic (R88, R89, R100 to R102) -/

/-- Z and N of a result. -/
def Seq.zn (x : Seq) (v : Word) : Seq := { x with z := decide (v = 0), n := v.msb }

/-- A result with its Z and N. -/
def Seq.put (x : Seq) (a : Nat) (v : Word) : Seq := (x.setReg a v).zn v

/-- The flags of a sum (R101). -/
def Seq.addFlags (x : Seq) (u v : Word) : Seq :=
  { x.zn (u + v) with c := decide (2 ^ 24 ≤ u.toNat + v.toNat), v := decide (u.toInt + v.toInt ≠ (u + v).toInt) }

/-- The flags of a difference (R101). -/
def Seq.subFlags (x : Seq) (u v : Word) : Seq :=
  { x.zn (u - v) with c := decide (u.toNat < v.toNat), v := decide (u.toInt - v.toInt ≠ (u - v).toInt) }

def Seq.addTo (x : Seq) (a : Nat) (u v : Word) : Seq := (x.addFlags u v).setReg a (u + v)
def Seq.subTo (x : Seq) (a : Nat) (u v : Word) : Seq := (x.subFlags u v).setReg a (u - v)

/-- The 48-bit product, signed or unsigned. -/
def product (signed : Bool) (u v : Word) : BitVec 48 :=
  if signed then BitVec.ofInt 48 (u.toInt * v.toInt) else BitVec.ofNat 48 (u.toNat * v.toNat)

/-- u is less than v, signed or unsigned. -/
def lessThan (signed : Bool) (u v : Word) : Bool := if signed then decide (u.toInt < v.toInt) else decide (u.toNat < v.toNat)

/-- The shift amount (R102). -/
def Ins.amount (i : Ins) (x : Seq) : Nat := if i.mBit 5 then (x.reg i.c).toNat % 32 else i.w % 32

/-- Bit k of a word. -/
def bitAt (v : Word) (k : Nat) : Bool := decide (v.toNat / 2 ^ k % 2 = 1)

/-- SHL by n: the result, and C of R102. -/
def shl (v : Word) (n : Nat) (c : Bool) : Word × Bool :=
  if n = 0 then (v, c) else if n ≤ 24 then (v <<< n, bitAt v (24 - n)) else (0, false)

/-- SHR by n. -/
def shr (v : Word) (n : Nat) (c : Bool) : Word × Bool :=
  if n = 0 then (v, c) else if n ≤ 24 then (v >>> n, bitAt v (n - 1)) else (0, false)

/-- SAR by n. -/
def sar (v : Word) (n : Nat) (c : Bool) : Word × Bool :=
  if n = 0 then (v, c) else if n ≤ 24 then (v.sshiftRight n, bitAt v (n - 1)) else (v.sshiftRight 24, v.msb)

/-- ROT by n. -/
def rot (v : Word) (n : Nat) : Word := (v <<< (n % 24)) ||| (v >>> (24 - n % 24))

/-- A shift: the result with Z N and C. -/
def Seq.shift (x : Seq) (i : Ins) (f : Word → Nat → Bool → Word × Bool) : Seq :=
  let r := f (x.reg i.b) (i.amount x) x.c
  { x.put i.a r.1 with c := r.2 }

def execAdd (q : Fin 16) (s : State) : Out := s.alone q 0x01 fun i x => x.addTo i.a (x.reg i.b) (x.reg i.c)
def execAddi (q : Fin 16) (s : State) : Out := s.alone q 0x02 fun i x => x.addTo i.a (x.reg i.b) i.imm6
def execSub (q : Fin 16) (s : State) : Out := s.alone q 0x03 fun i x => x.subTo i.a (x.reg i.b) (x.reg i.c)
def execSubi (q : Fin 16) (s : State) : Out := s.alone q 0x04 fun i x => x.subTo i.a (x.reg i.b) i.imm6
def execMull (q : Fin 16) (s : State) : Out :=
  s.alone q 0x05 fun i x => x.put i.a ((product (i.mBit 0) (x.reg i.b) (x.reg i.c)).extractLsb' 0 24)
def execMulh (q : Fin 16) (s : State) : Out :=
  s.alone q 0x06 fun i x => x.put i.a ((product (i.mBit 0) (x.reg i.b) (x.reg i.c)).extractLsb' 24 24)
def execAnd (q : Fin 16) (s : State) : Out := s.alone q 0x07 fun i x => x.put i.a (x.reg i.b &&& x.reg i.c)
def execOr (q : Fin 16) (s : State) : Out := s.alone q 0x08 fun i x => x.put i.a (x.reg i.b ||| x.reg i.c)
def execXor (q : Fin 16) (s : State) : Out := s.alone q 0x09 fun i x => x.put i.a (x.reg i.b ^^^ x.reg i.c)
def execNot (q : Fin 16) (s : State) : Out := s.alone q 0x0A fun i x => x.put i.a (~~~(x.reg i.b))
def execShl (q : Fin 16) (s : State) : Out := s.alone q 0x0B fun i x => x.shift i shl
def execShr (q : Fin 16) (s : State) : Out := s.alone q 0x0C fun i x => x.shift i shr
def execSar (q : Fin 16) (s : State) : Out := s.alone q 0x0D fun i x => x.shift i sar
def execRot (q : Fin 16) (s : State) : Out := s.alone q 0x0E fun i x => x.put i.a (rot (x.reg i.b) (i.amount x))
def execCmp (q : Fin 16) (s : State) : Out := s.alone q 0x0F fun i x => x.subFlags (x.reg i.b) (x.reg i.c)
def execCmpi (q : Fin 16) (s : State) : Out := s.alone q 0x10 fun i x => x.subFlags (x.reg i.b) i.imm6
def execMin (q : Fin 16) (s : State) : Out :=
  s.alone q 0x11 fun i x => x.put i.a (if lessThan (i.mBit 0) (x.reg i.c) (x.reg i.b) then x.reg i.c else x.reg i.b)
def execMax (q : Fin 16) (s : State) : Out :=
  s.alone q 0x12 fun i x => x.put i.a (if lessThan (i.mBit 0) (x.reg i.b) (x.reg i.c) then x.reg i.c else x.reg i.b)

/-! ### Moves and local memory (R90, R103) -/

def execMov (q : Fin 16) (s : State) : Out := s.alone q 0x13 fun i x => x.setReg i.a (x.reg i.b)
def execLdi (q : Fin 16) (s : State) : Out := s.alone q 0x14 fun i x => x.setReg i.a (BitVec.ofNat 24 i.ext)

/-- The sequencer is blocked; its program counter stays (R99). -/
def State.block (s : State) (q : Nat) (w : Wait) : State := s.setSeq q { s.seq q with state := .blocked, wait := some w }

/-- The local address of LDL and STL: 24 bits (R90). -/
def Ins.localAddr (i : Ins) (x : Seq) : Nat := ((x.reg i.b).toNat + i.m) % 2 ^ 24

/-- LDL: a packet word that has not arrived is waited for; a poisoned row faults with SCRATCH (R90, R413). -/
def execLdl (q : Fin 16) (s : State) : Out :=
  .next (s.issue q 0x15 false fun i t =>
    let x := t.seq q
    let ad := i.localAddr x
    if 0x3FFF < ad then t.faultProgram q 6
    else if x.arrivedAt ad then
      let r := t.memRead 5 (scratchRow q ad)
      if r.1 then r.2.faultProgram q 6 else r.2.onSeq q fun y => (y.setReg i.a (y.mem ad)).goOn i.next
    else t.block q (.ldl i.a ad))

def execStl (q : Fin 16) (s : State) : Out :=
  .next (s.issue q 0x16 false fun i t =>
    let x := t.seq q
    let ad := i.localAddr x
    if 0x3FFF < ad then t.faultProgram q 6
    else if x.arrivedAt ad then (t.putScratch q ad (x.reg i.a)).onSeq q fun y => y.goOn i.next
    else t.block q (.stl i.a ad))

/-! ### Flow (R108, R109) -/

/-- The target of a branch: the offset counts from the word after the branch. -/
def Ins.target (i : Ins) : BitVec 19 := i.next + BitVec.ofInt 19 (toSigned 18 (bitsOf i.w 17 0))

/-- A branch where a condition on the flags holds. -/
def State.branch (q op : Nat) (cond : Seq → Bool) (s : State) : Out :=
  .next (s.issue q op false fun i t => t.onSeq q fun x => x.goOn (if cond x then i.target else i.next))

def execBr (q : Fin 16) (s : State) : Out := s.branch q 0x20 fun _ => true
def execBz (q : Fin 16) (s : State) : Out := s.branch q 0x21 Seq.z
def execBnz (q : Fin 16) (s : State) : Out := s.branch q 0x22 fun x => !x.z
def execBn (q : Fin 16) (s : State) : Out := s.branch q 0x23 Seq.n
def execBc (q : Fin 16) (s : State) : Out := s.branch q 0x24 Seq.c

/-- BT: a taken branch clears T. -/
def execBt (q : Fin 16) (s : State) : Out :=
  .next (s.issue q 0x25 false fun i t => t.onSeq q fun x => if x.t then { x.goOn i.target with t := false } else x.goOn i.next)

def execCall (q : Fin 16) (s : State) : Out :=
  .next (s.issue q 0x26 false fun i t => t.onSeq q fun x => (x.setReg 15 (i.next.setWidth 24)).goOn i.target)

def execRet (q : Fin 16) (s : State) : Out :=
  .next (s.issue q 0x27 false fun i t => t.onSeq q fun x => x.goOn ((x.reg i.b).setWidth 19))

/-- LOOP: the offset has 14 bits. -/
def execLoop (q : Fin 16) (s : State) : Out :=
  .next (s.issue q 0x28 false fun i t => t.onSeq q fun x =>
    let v := x.reg i.a - 1
    (x.setReg i.a v).goOn (if v = 0 then i.next else i.next + BitVec.ofInt 19 (toSigned 14 (bitsOf i.w 13 0))))

/-- HALT ends the program as DONE does, with no result words (R109). -/
def execHalt (q : Fin 16) (s : State) : Out :=
  .next (s.issue q 0x29 true fun _ t => t.closeProgram q stComplete 0 [])

end Sys2Proof.Machine
end

