-- ==== Sys2Proof/Machine/TsuileWaits.lean ====
section
/-!
DEFINITION. Tsuile (chapter 04): fabric access, coordination, journal, vintages, messages and time, with the waits of
blocking instructions and their timeouts.
-/

namespace Sys2Proof.Machine

/-! ### Fabric access (R98, R104 to R107) -/

/-- The address of a fabric instruction or VSTG (R104). -/
def Ins.fabricAddr (i : Ins) (x : Seq) : Nat :=
  ((if i.mBit 5 then i.ext else (x.reg i.b).toNat) + (if i.mBit 3 then (x.reg i.c).toNat else 0)) % 2 ^ 24

/-- An error response: with e = 1 C is set, what `f` names is written, and the program goes on; else it faults (R98). -/
def State.errorResponse (s : State) (q : Nat) (e : Bool) (next : BitVec 19) (f : Seq → Seq) : State :=
  if e then s.onSeq q fun x => { (f x).goOn next with c := true } else s.faultProgram q 5

/-- A successful access clears C, and the program goes on. -/
def State.accessDone (s : State) (q : Nat) (next : BitVec 19) (f : Seq → Seq) : State :=
  s.onSeq q fun x => { (f x).goOn next with c := false }

/-- FRD's error response. -/
def State.frdError (s : State) (q : Nat) (i : Ins) : State := s.errorResponse q (i.mBit 4) i.next fun x => x.put i.a 0

/-- The error response of FWR, FRMW and VSTG. -/
def State.plainError (s : State) (q : Nat) (i : Ins) : State := s.errorResponse q (i.mBit 4) i.next id

def execFrd (q : Fin 16) (s : State) : Out :=
  .next (s.issue q 0x18 true fun i t =>
    match t.innerRead (i.fabricAddr (t.seq q)) with
    | (some v, t) => t.accessDone q i.next fun x => x.put i.a (BitVec.ofNat 24 v)
    | (none, t) => t.frdError q i)

/-- The response to a write. -/
def State.writeDone (q : Nat) (i : Ins) (r : Bool × State) : State :=
  if r.1 then r.2.accessDone q i.next id else r.2.plainError q i

def execFwr (q : Fin 16) (s : State) : Out :=
  .next (s.issue q 0x19 true fun i t =>
    let x := t.seq q
    State.writeDone q i (State.innerWrite State.fabricWrite t (i.fabricAddr x) (x.reg i.a).toNat))

/-- FRMW: the read and the write fall in one step; an error response to the read ends it without a write (R106). -/
def execFrmw (q : Fin 16) (s : State) : Out :=
  .next (s.issue q 0x1A true fun i t =>
    let x := t.seq q
    let ad := i.fabricAddr x
    match t.innerRead ad with
    | (some v, t) =>
      let w := (BitVec.ofNat 24 v &&& ~~~(x.reg i.b)) ||| (x.reg i.a &&& x.reg i.b)
      State.writeDone q i (State.innerWrite State.fabricWrite t ad w.toNat)
    | (none, t) => t.plainError q i)

/-- One read of an FPOLL that sequencer q runs: a match, an error response, or a further wait (R107). -/
def State.pollRead (s : State) (q : Nat) (ad : Word) (a : Nat) (mask cmp : Word) (e : Bool) : State :=
  let next := (s.seq q).pc + 2
  match s.innerRead ad.toNat with
  | (some v, t) =>
    let v := BitVec.ofNat 24 v
    if v &&& mask = cmp &&& mask then
      t.accessDone q next fun x => { x.setReg a v with z := true }
    else t.onSeq q fun x => { x with c := false, state := .blocked, wait := some (.poll ad a mask cmp e v) }
  | (none, t) =>
    let t := t.onSeq q fun x => { x.setReg a 0 with z := false }
    t.errorResponse q e next id

/-- FPOLL: the first read is at once. DEDUCED (log 8). -/
def execFpoll (q : Fin 16) (s : State) : Out :=
  .next (s.issue q 0x1B true fun i t =>
    let x := t.seq q
    t.pollRead q (BitVec.ofNat 24 i.ext) i.a (x.reg i.b) (x.reg i.c) (i.mBit 4))

/-- FPOLL_READ: a further read. -/
def execFpollRead (q : Fin 16) (s : State) : Out :=
  .next (
    match (s.seq q).wait with
    | some (.poll ad a mask cmp e _) => s.pollRead q ad a mask cmp e
    | _ => s)

/-- The fabric instruction of sequencer q, at an address of block b, gets an error response. -/
def State.accessTimedOut (s : State) (q b : Nat) : State :=
  match (s.seq q).wait with
  | some (.poll ad a _ _ e _) =>
    if ad.toNat / 2 ^ 20 = b then
      (s.onSeq q fun x => { x.setReg a 0 with z := false }).errorResponse q e ((s.seq q).pc + 2) id
    else s
  | _ =>
    match (s.fetch q).1 with
    | none => s
    | some i =>
      let ad := if i.op = 0x1B then i.ext % 2 ^ 24 else i.fabricAddr (s.seq q)
      if ad / 2 ^ 20 ≠ b then s
      else if i.op = 0x18 then s.issue q 0x18 true fun i t => t.frdError q i
      else if i.op = 0x19 then s.issue q 0x19 true fun i t => t.plainError q i
      else if i.op = 0x1A then s.issue q 0x1A true fun i t => t.plainError q i
      else s.issue q 0x1B true fun i t =>
        (t.onSeq q fun x => { x.setReg i.a 0 with z := false }).errorResponse q (i.mBit 4) i.next id

/-- A request that a Poryon tunnel has brought to port p ends with FABRIC and is not done (R491). DEDUCED (log 28). -/
def State.tunnelTimedOut (s : State) (p b : Nat) : State :=
  s.onMsg p (fun m => decide (m.cls = 2 ∧ m.kind ≤ 1 ∧ m.words.getD 1 0 / 2 ^ 20 % 16 = b)) fun m t =>
    if t.tunnelHere m then
      (if t.upClocked then t.hostActive else t).pryTx p
        ⟨2, 2, m.src, m.dst, [m.words.getD 0 0 / 2 ^ 16 % 256 * 2 ^ 16 + 2 ^ 14, 0]⟩
    else t.tunnelOn p m

/-- FABRIC_ACCESS_TIMEOUT: an access to block b gets an error response: a host access at `addr`, the fabric instruction of
a sequencer, a request of a Poryon tunnel, or the transaction of a remote-fabric window at this device; the block interface
is reset, and a gate that waits for the access closes (R52). DEDUCED (log 8). -/
def execFabricAccessTimeout (b : Fin 16) (addr : Addr) (requester : Requester) (s : State) : Out :=
  .next (
    let s := match requester with
      | .host => if addr.toNat / 2 ^ 20 = b then s.hostError addr.toNat else s
      | .seq q => s.accessTimedOut q b
      | .tunnel p => s.tunnelTimedOut p b
      | .window w =>
        if s.rd F.PRY_RFW_CMD_dom [w] = s.rd F.PRY_DOM_STAT_dom ∧ s.rd F.PRY_RFW_ADDR_value [w] / 2 ^ 20 = b then s.rfwEnd w 1
        else s
    s.settleGate b)

/-! ### Claims (R75, R76, R110, R432) -/

/-- The number of a resource or an event: a literal, or the low byte of Wb (R110). -/
def Ins.number (i : Ins) (x : Seq) : Nat := if i.mBit 5 then (x.reg i.b).toNat % 256 else i.num

/-- CLAIM: in ascending order; a resource that waiters are queued for is queued for (R75, R432). -/
def execClaim (q : Fin 16) (s : State) : Out :=
  .next (s.issue q 0x30 true fun i t =>
    let n := i.number (t.seq q)
    if resources.any fun k => decide (n ≤ k) && t.holds q k then t.faultProgram q 3
    else
      let c := t.claim n
      if t.freeClaim n && c.waiters.isEmpty then (t.setClaim n { c with holder := some q.val }).onSeq q fun x => x.goOn i.next
      else (t.setClaim n { c with waiters := c.waiters ++ [q.val] }).block q (.claim n))

/-- A free resource goes to the waiter that arrived first; a CLAIM that waits for it completes (R76, R432). -/
def State.grantClaim (s : State) (n : Nat) : State :=
  let c := s.claim n
  match c.waiters with
  | w :: ws =>
    if s.freeClaim n then
      (s.setClaim n ⟨some w, ws⟩).onSeq w fun x => if x.wait = some (.claim n) then x.goOn (x.pc + 1) else x
    else s
  | [] => s

def execClaimGrant (n : Fin 256) (s : State) : Out := .next (s.grantClaim n)

def execFree (q : Fin 16) (s : State) : Out :=
  .next (s.issue q 0x31 false fun i t =>
    let n := i.number (t.seq q)
    if t.holds q n then (t.setClaim n { t.claim n with holder := none }).onSeq q fun x => x.goOn i.next
    else t.faultProgram q 4)

/-- YIELD: the number of 32-cycle units before the next issue, which clears it (R110). DEDUCED (log 8). -/
def execYield (q : Fin 16) (s : State) : Out :=
  .next (s.issue q 0x32 false fun i t => t.onSeq q fun x => { x.goOn i.next with slowUnits := i.m + 1 })

/-! ### Events and waits (R111 to R114) -/

/-- The pending event ev is taken: its data word goes to Wa, C says that occurrences merged (R112). -/
def Seq.takeEvent (x : Seq) (ev a : Nat) : Seq :=
  let e := x.ev ev
  { (x.setReg a e.data).setEv ev { e with pend := false, merged := false } with c := e.merged }

/-- WAITE: clr = 1 clears the pending bit first. DEDUCED (log 8). -/
def execWaite (q : Fin 16) (s : State) : Out :=
  .next (s.issue q 0x33 true fun i t =>
    let t := if i.mBit 5 then t.onSeq q fun x => x.setEv i.num { x.ev i.num with pend := false, merged := false } else t
    if ((t.seq q).ev i.num).pend then t.onSeq q fun x => (x.takeEvent i.num i.a).goOn i.next
    else t.block q (.event i.num i.a))

/-- A waiting WAITE whose event is pending completes. -/
def State.completeEvent (s : State) (q : Nat) : State :=
  match (s.seq q).wait with
  | some (.event ev a) =>
    if ((s.seq q).ev ev).pend then s.onSeq q fun x => (x.takeEvent ev a).goOn (x.pc + 1) else s
  | _ => s

def execWaiteComplete (q : Fin 16) (s : State) : Out := .next (s.completeEvent q)

/-- The 32-bit time Wc[7:0]:Wb (R114, R117). -/
def Ins.timeOf (i : Ins) (x : Seq) : BitVec 32 := ((x.reg i.c).extractLsb' 0 8).append (x.reg i.b)

/-- WAITT: a target that is not ahead completes at once with C = 1. -/
def execWaitt (q : Fin 16) (s : State) : Out :=
  .next (s.issue q 0x34 true fun i t =>
    let target := i.timeOf (t.seq q)
    if t.reached target then t.onSeq q fun x => { x.goOn i.next with c := true } else t.block q (.time target))

/-- A waiting WAITT whose target is reached completes with C = 0. -/
def State.completeTime (s : State) (q : Nat) : State :=
  match (s.seq q).wait with
  | some (.time target) => if s.reached target then s.onSeq q fun x => { x.goOn (x.pc + 1) with c := false } else s
  | _ => s

def execWaittComplete (q : Fin 16) (s : State) : Out := .next (s.completeTime q)

/-- SIGNAL: a device event's number faults with ILLEGAL (R113). DEDUCED (log 8). -/
def execSignal (q : Fin 16) (s : State) : Out :=
  .next (s.issue q 0x35 false fun i t =>
    let x := t.seq q
    let ev := i.number x
    if ev < 128 then t.faultProgram q 2
    else (t.raise ev (x.reg i.a).toNat).onSeq q fun x => x.goOn i.next)

/-! ### The journal (R79, R80, R115) -/

/-- The in-flight entry of sequencer q keeps the last step: a write to part of its row (R81, R413). -/
def State.noteStep (s : State) (q n : Nat) : State :=
  match tabGet none s.exec.inFlight q with
  | some e =>
    let r := s.memWrite 7 (inFlightRow q) false
    if r.1 then
      { r.2 with exec := { r.2.exec with inFlight := tabPut none r.2.exec.inFlight q (some { e with step := n }) } }
    else r.2
  | none => s

/-- STEP: the record, and the step that the outcome record will hold, in the in-flight entry too. -/
def execStep (q : Fin 16) (s : State) : Out :=
  .next (s.issue q 0x38 true fun i t =>
    let x := t.seq q
    let t := t.record x.tag x.program i.stepNum 0 q x.func 0
    (t.noteStep q i.stepNum).onSeq q fun x => { x.goOn i.next with step := i.stepNum })

def execJrec (q : Fin 16) (s : State) : Out :=
  .next (s.issue q 0x39 true fun i t =>
    let x := t.seq q
    let v := if i.mBit 5 then (x.reg i.b).toNat % 4096 else i.stepNum
    (t.record x.tag x.program v 2 q x.func 0).onSeq q fun x => x.goOn i.next)

/-- A read of one word of local scratch: none from a poisoned row (R413). -/
def State.readScratch (s : State) (q a : Nat) : Option Word × State :=
  let r := s.memRead 5 (scratchRow q a)
  (if r.1 then none else some ((s.seq q).mem a), r.2)

/-- A read of n words of local scratch from address a on: none where one is poisoned. -/
def State.readWords (s : State) (q a : Nat) : Nat → Option (List Word) × State
  | 0 => (some [], s)
  | n + 1 =>
    match s.readScratch q a with
    | (none, t) => (none, t)
    | (some w, t) =>
      let r := State.readWords t q (a + 1) n
      (r.1.map fun ws => w :: ws, r.2)

/-- n words from address a on lie in local memory (R90). -/
def inScratch (a n : Nat) : Bool := decide (n = 0 ∨ a + n ≤ 0x4000)

/-- All of n words from address a on have arrived (R90). -/
def Seq.allArrived (x : Seq) (a n : Nat) : Bool := (List.range n).all fun j => x.arrivedAt (a + j)

/-- DONE: the result words are read as LDL reads them (R109). -/
def execDone (q : Fin 16) (s : State) : Out :=
  .next (s.issue q 0x3A true fun i t =>
    let x := t.seq q
    let a := (x.reg i.b).toNat
    if !inScratch a i.m then t.faultProgram q 6
    else if !x.allArrived a i.m then t.block q (.done a i.m)
    else
      match t.readWords q a i.m with
      | (some ws, t) => t.closeProgram q stComplete 0 ws
      | (none, t) => t.faultProgram q 6)

/-! ### Vintages (R116 to R118) -/

def execVstg (q : Fin 16) (s : State) : Out :=
  .next (s.issue q 0x3B true fun i t =>
    let x := t.seq q
    match t.stage (i.fabricAddr x) (x.reg i.a).toNat (x.reg i.b).toNat with
    | some t => t.accessDone q i.next id
    | none => t.plainError q i)

/-- VCMT: a refusal returns C = 1 and its reason, an acceptance C = 0 and the serial (R117). -/
def execVcmt (q : Fin 16) (s : State) : Out :=
  .next (s.issue q 0x3C true fun i t =>
    let bd := i.m % 8
    let why := t.refusal bd
    if why ≠ 0 then t.onSeq q fun x => { (x.setReg i.a (BitVec.ofNat 24 why)).goOn i.next with c := true }
    else
      let serial := t.newSerial
      let target := if bd = 4 then i.timeOf (t.seq q) else 0
      (t.acceptCommit bd target).onSeq q fun x => { (x.setReg i.a (BitVec.ofNat 24 serial)).goOn i.next with c := false })

/-- VABT (R118, R134). -/
def execVabt (q : Fin 16) (s : State) : Out :=
  .next (s.issue q 0x3D true fun i t =>
    let ok := if i.mBit 0 then t.withdrawable else !t.stagedLocked
    let t := if !ok then t else if i.mBit 0 then t.withdraw else t.setStaged 0 t.vtg.current
    t.onSeq q fun x => { x.goOn i.next with c := !ok })

/-! ### Messages (R119 to R121, R464) -/

/-- The destination has room for a packet: the response ring admits it whole, a Poryon port takes it while LINKED. -/
def State.sendRoom (s : State) (q dst : Nat) (ws : List Word) : Bool :=
  if dst = 0 then
    let k := 16 + (s.seq q).func
    decide (max ws.length (lenField (ws.getD 0 0)) ≤ queueFree k (s.queue k))
  else s.linked (dst - 1)

/-- The packet goes to its destination. -/
def State.sendPacket (s : State) (q dst : Nat) (ws : List Word) : State :=
  if dst = 0 then s.pushAll (16 + (s.seq q).func) ws
  else s.pryTx (dst - 1) ⟨3, 0, 0, s.rd F.PRY_DOM_STAT_dom, ws.map BitVec.toNat⟩

/-- A SEND of n words from address a on: it completes where its words have arrived and the destination has room; else it
waits (R90, R120). DEDUCED (log 8). -/
def State.trySend (s : State) (q a n dst : Nat) : State :=
  if (s.seq q).allArrived a n then
    match s.readWords q a n with
    | (none, t) => t.faultProgram q 6
    | (some ws, t) =>
      if t.sendRoom q dst ws then (t.sendPacket q dst ws).onSeq q fun x => { x.goOn (x.pc + 1) with c := false }
      else s.block q (.send a n dst)
  else s.block q (.send a n dst)

def execSend (q : Fin 16) (s : State) : Out :=
  .next (s.issue q 0x2C true fun i t =>
    let x := t.seq q
    let n := (x.reg i.c).toNat
    let a := (x.reg i.b).toNat
    if n = 0 ∨ 4096 < n then t.faultProgram q 2
    else if !inScratch a n then t.faultProgram q 6
    else t.trySend q a n (i.m / 8))

/-- SEND_ROOM: a waiting SEND tries again. -/
def State.retrySend (s : State) (q : Nat) : State :=
  match (s.seq q).wait with
  | some (.send a n dst) => s.trySend q a n dst
  | _ => s

def execSendRoom (q : Fin 16) (s : State) : Out := .next (s.retrySend q)

/-- A RECV that is first at its port begins on the head packet, once that is ready and the words it overwrites have arrived
(R90, R121, R163). A packet that runs beyond local memory faults with SCRATCH. -/
def State.beginRecv (s : State) (q : Nat) : State :=
  match (s.seq q).wait with
  | some (.recv a base mx src _ _ false) =>
    let k := portQueue src
    match s.ready k with
    | some p =>
      if (s.receivers src).head? = some q ∧ (s.queue k).taker = none ∧ (s.seq q).allArrived base (min p.len mx) = true then
        let s := s.unreceive q src
        let s := s.setSeq q { s.seq q with wait := some (.recv a base mx src 0 p.len true) }
        let s := s.setQueue k { s.queue k with taker := some q }
        if inScratch base (min p.len mx) then s.feed k else s.faultProgram q 6
      else s
    | none => s
  | _ => s

/-- RECV starts to take one packet; while another is before it at the port, or no packet is ready, it waits (R121).
DEDUCED (log 8). -/
def execRecv (q : Fin 16) (s : State) : Out :=
  .next (s.issue q 0x2D true fun i t =>
    let x := t.seq q
    let src := i.m / 8
    let t := t.setReceivers src (t.receivers src ++ [q.val])
    (t.block q (.recv i.a (x.reg i.b).toNat (x.reg i.c).toNat src 0 0 false)).beginRecv q)

/-- A RECV whose packet has been taken whole completes: Wa has its length, C says that words were discarded. -/
def State.completeRecv (s : State) (q : Nat) : State :=
  let s := s.beginRecv q
  match (s.seq q).wait with
  | some (.recv a _ mx _ got len true) =>
    if got = len then
      s.onSeq q fun x => { (x.setReg a (BitVec.ofNat 24 len)).goOn (x.pc + 1) with c := decide (mx < len) }
    else s
  | _ => s

def execRecvComplete (q : Fin 16) (s : State) : Out := .next (s.completeRecv q)

/-- TNOW: with one register for both, which write stays is not stated. -/
def execTnow (q : Fin 16) (s : State) : Out :=
  .next (s.issue q 0x2E false fun i t =>
    let lo := t.time.extractLsb' 0 24
    let hi := (t.time.extractLsb' 24 8).setWidth 24
    let both := decide (i.a = i.b)
    let pick := both && Config.freeBool t.free
    let t := if both then { t with free := t.free + 1 } else t
    t.onSeq q fun x => (if pick then (x.setReg i.b hi).setReg i.a lo else (x.setReg i.a lo).setReg i.b hi).goOn i.next)

/-! ### Timeouts (R96, R107, R110, R121) -/

/-- T is set, and the program goes on at the instruction `n` words further. -/
def State.timedOut (s : State) (q n : Nat) (f : Seq → Seq) : State :=
  s.onSeq q fun x => { (f x).goOn (x.pc + BitVec.ofNat 19 n) with t := true }

/-- The awaited condition of sequencer q has come about, which wins over a timeout at the same time (R96). -/
def State.settleWait (s : State) (q : Nat) : State :=
  match (s.seq q).wait with
  | some (.claim n) => if (s.claim n).waiters.head? = some q then s.grantClaim n else s
  | some (.event _ _) => s.completeEvent q
  | some (.time _) => s.completeTime q
  | some (.send _ _ _) => s.retrySend q
  | some (.recv _ _ _ _ _ _ _) => s.completeRecv q
  | _ => s

/-- A RECV that could begin on the head packet of its port, but for words of its own packet area that it would overwrite and
that have not arrived: only R71 bounds that wait (R90). -/
def State.recvAwaitsOwn (s : State) (q base mx src : Nat) : Bool :=
  match s.ready (portQueue src) with
  | some p => decide ((s.receivers src).head? = some q ∧ (s.queue (portQueue src)).taker = none)
      && !(s.seq q).allArrived base (min p.len mx)
  | none => false

/-- What the expiry of a timeout does; waits on packet words have none of their own (R90). The tables of chapter 04 list C for
WAITE, WAITT, SEND and RECV and no rule says what it becomes here: it keeps its value. DESIGN CHOICE (log 41). -/
def State.expire (s : State) (q : Nat) : State :=
  match (s.seq q).wait with
  | some (.claim n) => (s.unqueue q n).timedOut q 1 id
  | some (.event _ _) => s.timedOut q 1 id
  | some (.time _) => s.timedOut q 1 id
  | some (.poll _ a _ _ _ last) => s.timedOut q 2 fun x => { x.setReg a last with z := false }
  | some (.send a n _) => if (s.seq q).allArrived a n then s.timedOut q 1 id else s
  | some (.recv a base mx src got _ started) =>
    if !started && s.recvAwaitsOwn q base mx src then s
    else (s.leaveWait q).timedOut q 1 fun x => if started then x.setReg a (BitVec.ofNat 24 (min got mx)) else x
  | _ => s

/-- BLOCKING_TIMEOUT. DEDUCED (log 8). -/
def execBlockingTimeout (q : Fin 16) (s : State) : Out := .next ((s.settleWait q).expire q)

end Sys2Proof.Machine
end

