-- ==== Sys2Proof/Machine/Dispatch.lean ====
section
/-!
DEFINITION. One arm per constructor of Instr: each arm is one direct call of its meaning.
-/

namespace Sys2Proof.Machine

def exec (i : Instr) (s : State) : Host.Outcome State Fault Refusal :=
  match i with
  | .coldStart st => Sys2Proof.Machine.execColdStart st s
  | .vddaonLow => Sys2Proof.Machine.execVddaonLow s
  | .perstNAssert => Sys2Proof.Machine.execPerstNAssert s
  | .perstNDeassert st => Sys2Proof.Machine.execPerstNDeassert st s
  | .oscdlyExpiry present => Sys2Proof.Machine.execOscdlyExpiry present s
  | .mainLoopLock => Sys2Proof.Machine.execMainLoopLock s
  | .bootstrapImageVerify cask => Sys2Proof.Machine.execBootstrapImageVerify cask s
  | .powerUpComplete rescue => Sys2Proof.Machine.execPowerUpComplete rescue s
  | .reqDormant => Sys2Proof.Machine.execReqDormant s
  | .reqPrepare => Sys2Proof.Machine.execReqPrepare s
  | .reqService => Sys2Proof.Machine.execReqService s
  | .reqShadow => Sys2Proof.Machine.execReqShadow s
  | .reqProving => Sys2Proof.Machine.execReqProving s
  | .reqRecovery => Sys2Proof.Machine.execReqRecovery s
  | .reqPreviousMode => Sys2Proof.Machine.execReqPreviousMode s
  | .modeTransitionEnd => Sys2Proof.Machine.execModeTransitionEnd s
  | .sliceEnableHeldWake sl => Sys2Proof.Machine.execSliceEnableHeldWake sl s
  | .wakingComplete sl done => Sys2Proof.Machine.execWakingComplete sl done s
  | .wakeTimeout sl => Sys2Proof.Machine.execWakeTimeout sl s
  | .drainComplete sl us => Sys2Proof.Machine.execDrainComplete sl us s
  | .hostclkCoast => Sys2Proof.Machine.execHostclkCoast s
  | .hostclkFailDeclare => Sys2Proof.Machine.execHostclkFailDeclare s
  | .hostclkReturn => Sys2Proof.Machine.execHostclkReturn s
  | .hostclkFailClear => Sys2Proof.Machine.execHostclkFailClear s
  | .sscPeriodEnd => Sys2Proof.Machine.execSscPeriodEnd s
  | .gateCloseRequest b busy => Sys2Proof.Machine.execGateCloseRequest b busy s
  | .fabricAccessTimeout b addr requester => Sys2Proof.Machine.execFabricAccessTimeout b addr requester s
  | .fabricWrite addr value => Sys2Proof.Machine.execFabricWrite addr value s
  | .crossingReset x sideB items => Sys2Proof.Machine.execCrossingReset x sideB items s
  | .crossingReq x => Sys2Proof.Machine.execCrossingReq x s
  | .crossingAck x => Sys2Proof.Machine.execCrossingAck x s
  | .crossingReqResend x => Sys2Proof.Machine.execCrossingReqResend x s
  | .ccResetCmd => Sys2Proof.Machine.execCcResetCmd s
  | .ccWatchdogExpiry within60s => Sys2Proof.Machine.execCcWatchdogExpiry within60s s
  | .executiveRestart => Sys2Proof.Machine.execExecutiveRestart s
  | .sliceResetCmd sl => Sys2Proof.Machine.execSliceResetCmd sl s
  | .framePulseWatchdog sl within1s => Sys2Proof.Machine.execFramePulseWatchdog sl within1s s
  | .dpStall b sl stage => Sys2Proof.Machine.execDpStall b sl stage s
  | .sharedStageWatchdog b within10s => Sys2Proof.Machine.execSharedStageWatchdog b within10s s
  | .dpSliceHoldEnd sl => Sys2Proof.Machine.execDpSliceHoldEnd sl s
  | .thermalFault => Sys2Proof.Machine.execThermalFault s
  | .thermalClear => Sys2Proof.Machine.execThermalClear s
  | .recoveryRestart aged => Sys2Proof.Machine.execRecoveryRestart aged s
  | .givenUpClear => Sys2Proof.Machine.execGivenUpClear s
  | .hostSilenceExpiry => Sys2Proof.Machine.execHostSilenceExpiry s
  | .hostActivity => Sys2Proof.Machine.execHostActivity s
  | .packetDispatch => Sys2Proof.Machine.execPacketDispatch s
  | .packetTimeout q => Sys2Proof.Machine.execPacketTimeout q s
  | .budgetExpiry q => Sys2Proof.Machine.execBudgetExpiry q s
  | .sqWatchdogExpiry q => Sys2Proof.Machine.execSqWatchdogExpiry q s
  | .hostAbort func => Sys2Proof.Machine.execHostAbort func s
  | .loadBegin withVerify => Sys2Proof.Machine.execLoadBegin withVerify s
  | .loadData w => Sys2Proof.Machine.execLoadData w s
  | .loadVerify withBegin => Sys2Proof.Machine.execLoadVerify withBegin s
  | .loadVerifyDone => Sys2Proof.Machine.execLoadVerifyDone s
  | .trap q => Sys2Proof.Machine.execTrap q s
  | .illegalOpcode q => Sys2Proof.Machine.execIllegalOpcode q s
  | .add q => Sys2Proof.Machine.execAdd q s
  | .addi q => Sys2Proof.Machine.execAddi q s
  | .sub q => Sys2Proof.Machine.execSub q s
  | .subi q => Sys2Proof.Machine.execSubi q s
  | .mull q => Sys2Proof.Machine.execMull q s
  | .mulh q => Sys2Proof.Machine.execMulh q s
  | .and q => Sys2Proof.Machine.execAnd q s
  | .or q => Sys2Proof.Machine.execOr q s
  | .xor q => Sys2Proof.Machine.execXor q s
  | .not q => Sys2Proof.Machine.execNot q s
  | .shl q => Sys2Proof.Machine.execShl q s
  | .shr q => Sys2Proof.Machine.execShr q s
  | .sar q => Sys2Proof.Machine.execSar q s
  | .rot q => Sys2Proof.Machine.execRot q s
  | .cmp q => Sys2Proof.Machine.execCmp q s
  | .cmpi q => Sys2Proof.Machine.execCmpi q s
  | .min q => Sys2Proof.Machine.execMin q s
  | .max q => Sys2Proof.Machine.execMax q s
  | .mov q => Sys2Proof.Machine.execMov q s
  | .ldi q => Sys2Proof.Machine.execLdi q s
  | .ldl q => Sys2Proof.Machine.execLdl q s
  | .stl q => Sys2Proof.Machine.execStl q s
  | .frd q => Sys2Proof.Machine.execFrd q s
  | .fwr q => Sys2Proof.Machine.execFwr q s
  | .frmw q => Sys2Proof.Machine.execFrmw q s
  | .fpoll q => Sys2Proof.Machine.execFpoll q s
  | .fpollRead q => Sys2Proof.Machine.execFpollRead q s
  | .br q => Sys2Proof.Machine.execBr q s
  | .bz q => Sys2Proof.Machine.execBz q s
  | .bnz q => Sys2Proof.Machine.execBnz q s
  | .bn q => Sys2Proof.Machine.execBn q s
  | .bc q => Sys2Proof.Machine.execBc q s
  | .bt q => Sys2Proof.Machine.execBt q s
  | .call q => Sys2Proof.Machine.execCall q s
  | .ret q => Sys2Proof.Machine.execRet q s
  | .loop q => Sys2Proof.Machine.execLoop q s
  | .halt q => Sys2Proof.Machine.execHalt q s
  | .claim q => Sys2Proof.Machine.execClaim q s
  | .claimGrant n => Sys2Proof.Machine.execClaimGrant n s
  | .free q => Sys2Proof.Machine.execFree q s
  | .yield q => Sys2Proof.Machine.execYield q s
  | .waite q => Sys2Proof.Machine.execWaite q s
  | .waiteComplete q => Sys2Proof.Machine.execWaiteComplete q s
  | .waitt q => Sys2Proof.Machine.execWaitt q s
  | .waittComplete q => Sys2Proof.Machine.execWaittComplete q s
  | .signal q => Sys2Proof.Machine.execSignal q s
  | .blockingTimeout q => Sys2Proof.Machine.execBlockingTimeout q s
  | .step q => Sys2Proof.Machine.execStep q s
  | .jrec q => Sys2Proof.Machine.execJrec q s
  | .done q => Sys2Proof.Machine.execDone q s
  | .vstg q => Sys2Proof.Machine.execVstg q s
  | .vcmt q => Sys2Proof.Machine.execVcmt q s
  | .vabt q => Sys2Proof.Machine.execVabt q s
  | .send q => Sys2Proof.Machine.execSend q s
  | .sendRoom q => Sys2Proof.Machine.execSendRoom q s
  | .recv q => Sys2Proof.Machine.execRecv q s
  | .recvComplete q => Sys2Proof.Machine.execRecvComplete q s
  | .tnow q => Sys2Proof.Machine.execTnow q s
  | .stageGo andRead => Sys2Proof.Machine.execStageGo andRead s
  | .stageRead => Sys2Proof.Machine.execStageRead s
  | .vtgRet => Sys2Proof.Machine.execVtgRet s
  | .vtgAccept => Sys2Proof.Machine.execVtgAccept s
  | .vtgFail => Sys2Proof.Machine.execVtgFail s
  | .vtgWithdraw => Sys2Proof.Machine.execVtgWithdraw s
  | .vtgResetStaged => Sys2Proof.Machine.execVtgResetStaged s
  | .vtgLoadArch => Sys2Proof.Machine.execVtgLoadArch s
  | .vtgLoadRescue => Sys2Proof.Machine.execVtgLoadRescue s
  | .vtgRelease => Sys2Proof.Machine.execVtgRelease s
  | .vtgDomRet => Sys2Proof.Machine.execVtgDomRet s
  | .validationDone => Sys2Proof.Machine.execValidationDone s
  | .loadingDone memErr ahead => Sys2Proof.Machine.execLoadingDone memErr ahead s
  | .domainReleaseDeadline => Sys2Proof.Machine.execDomainReleaseDeadline s
  | .commitTakeEffect bnd => Sys2Proof.Machine.execCommitTakeEffect bnd s
  | .probationCheckInterval => Sys2Proof.Machine.execProbationCheckInterval s
  | .probationEnd => Sys2Proof.Machine.execProbationEnd s
  | .returnTakeEffect superframe => Sys2Proof.Machine.execReturnTakeEffect superframe s
  | .pushWindowWrite f dws => Sys2Proof.Machine.execPushWindowWrite f dws s
  | .popWindowRead f n => Sys2Proof.Machine.execPopWindowRead f n s
  | .queuePush q w len withPop => Sys2Proof.Machine.execQueuePush q w len withPop s
  | .queueReset q => Sys2Proof.Machine.execQueueReset q s
  | .peakRead q => Sys2Proof.Machine.execPeakRead q s
  | .bar0Access space write addr dws => Sys2Proof.Machine.execBar0Access space write addr dws s
  | .functionLevelReset f => Sys2Proof.Machine.execFunctionLevelReset f s
  | .dmaEnable d => Sys2Proof.Machine.execDmaEnable d s
  | .dmaPacketWrite d err => Sys2Proof.Machine.execDmaPacketWrite d err s
  | .eventOccurrence e data => Sys2Proof.Machine.execEventOccurrence e data s
  | .msixPendingSend f v why => Sys2Proof.Machine.execMsixPendingSend f v why s
  | .recalRunCmd sl => Sys2Proof.Machine.execRecalRunCmd sl s
  | .recalAbortCmd sl => Sys2Proof.Machine.execRecalAbortCmd sl s
  | .converterTempReading sl temp => Sys2Proof.Machine.execConverterTempReading sl temp s
  | .recalIntervalExpiry sl => Sys2Proof.Machine.execRecalIntervalExpiry sl s
  | .calEngineGrant => Sys2Proof.Machine.execCalEngineGrant s
  | .spareMatchEnd sl adcs => Sys2Proof.Machine.execSpareMatchEnd sl adcs s
  | .runStepHandBack sl measured => Sys2Proof.Machine.execRunStepHandBack sl measured s
  | .runComplete sl dac => Sys2Proof.Machine.execRunComplete sl dac s
  | .restoreRotationComplete sl => Sys2Proof.Machine.execRestoreRotationComplete sl s
  | .caskSave sl verified => Sys2Proof.Machine.execCaskSave sl verified s
  | .clipWindow sl codes => Sys2Proof.Machine.execClipWindow sl codes s
  | .captureGo sl => Sys2Proof.Machine.execCaptureGo sl s
  | .captureStop sl => Sys2Proof.Machine.execCaptureStop sl s
  | .captureTrigger trig => Sys2Proof.Machine.execCaptureTrigger trig s
  | .captureSegmentDrained codes => Sys2Proof.Machine.execCaptureSegmentDrained codes s
  | .acqSignalDetect sl => Sys2Proof.Machine.execAcqSignalDetect sl s
  | .cdScanEnd sl coarse fine peak => Sys2Proof.Machine.execCdScanEnd sl coarse fine peak s
  | .clockLock sl off => Sys2Proof.Machine.execClockLock sl off s
  | .singularityCheck sl corrMilli => Sys2Proof.Machine.execSingularityCheck sl corrMilli s
  | .blindConverged sl dgd cd => Sys2Proof.Machine.execBlindConverged sl dgd cd s
  | .pilotSyncFound sl samples => Sys2Proof.Machine.execPilotSyncFound sl samples s
  | .carrierLock sl => Sys2Proof.Machine.execCarrierLock sl s
  | .acqStateLimit sl => Sys2Proof.Machine.execAcqStateLimit sl s
  | .inputLoss sl => Sys2Proof.Machine.execInputLoss sl s
  | .inputReturn sl => Sys2Proof.Machine.execInputReturn sl s
  | .holdExpiry sl => Sys2Proof.Machine.execHoldExpiry sl s
  | .trackSnrLoss sl => Sys2Proof.Machine.execTrackSnrLoss sl s
  | .acqRestart sl => Sys2Proof.Machine.execAcqRestart sl s
  | .cycleSlip sl y err => Sys2Proof.Machine.execCycleSlip sl y err s
  | .txFrameBoundary sl psd => Sys2Proof.Machine.execTxFrameBoundary sl psd s
  | .rateMuteStart sl => Sys2Proof.Machine.execRateMuteStart sl s
  | .synthRelock sl => Sys2Proof.Machine.execSynthRelock sl s
  | .blockArrival sl samples => Sys2Proof.Machine.execBlockArrival sl samples s
  | .iterationSlot => Sys2Proof.Machine.execIterationSlot s
  | .reorderRelease sl => Sys2Proof.Machine.execReorderRelease sl s
  | .blockSyncTrial sl => Sys2Proof.Machine.execBlockSyncTrial sl s
  | .blockSyncLost sl => Sys2Proof.Machine.execBlockSyncLost sl s
  | .outerGroupDecode sl => Sys2Proof.Machine.execOuterGroupDecode sl s
  | .marginInterval sl => Sys2Proof.Machine.execMarginInterval sl s
  | .tendrilPacketStart sl => Sys2Proof.Machine.execTendrilPacketStart sl s
  | .tendrilPacketSent sl => Sys2Proof.Machine.execTendrilPacketSent sl s
  | .helloInterval sl => Sys2Proof.Machine.execHelloInterval sl s
  | .tendrilDetection sl cands => Sys2Proof.Machine.execTendrilDetection sl cands s
  | .tendrilHeaderDecode sl decided => Sys2Proof.Machine.execTendrilHeaderDecode sl decided s
  | .tendrilReceptionEnd sl decided => Sys2Proof.Machine.execTendrilReceptionEnd sl decided s
  | .hello sl => Sys2Proof.Machine.execHello sl s
  | .propose sl => Sys2Proof.Machine.execPropose sl s
  | .accept sl => Sys2Proof.Machine.execAccept sl s
  | .refuse sl => Sys2Proof.Machine.execRefuse sl s
  | .cancel sl => Sys2Proof.Machine.execCancel sl s
  | .returnMsg sl => Sys2Proof.Machine.execReturnMsg sl s
  | .switch sl => Sys2Proof.Machine.execSwitch sl s
  | .mailboxPacketRx sl => Sys2Proof.Machine.execMailboxPacketRx sl s
  | .proposalHoldExpiry sl => Sys2Proof.Machine.execProposalHoldExpiry sl s
  | .proposeRetry sl => Sys2Proof.Machine.execProposeRetry sl s
  | .agreementCutoff => Sys2Proof.Machine.execAgreementCutoff s
  | .mailboxGo sl => Sys2Proof.Machine.execMailboxGo sl s
  | .mailboxRelease sl => Sys2Proof.Machine.execMailboxRelease sl s
  | .fasCandidateCheck sl => Sys2Proof.Machine.execFasCandidateCheck sl s
  | .outOfFrame sl => Sys2Proof.Machine.execOutOfFrame sl s
  | .multiframeAlign sl => Sys2Proof.Machine.execMultiframeAlign sl s
  | .falseLock sl => Sys2Proof.Machine.execFalseLock sl s
  | .sfcAdopt sl => Sys2Proof.Machine.execSfcAdopt sl s
  | .delayBlockRx sl rxRef => Sys2Proof.Machine.execDelayBlockRx sl rxRef s
  | .defectEvaluation sl fr => Sys2Proof.Machine.execDefectEvaluation sl fr s
  | .ssfHoldoffExpiry sl => Sys2Proof.Machine.execSsfHoldoffExpiry sl s
  | .txSuperframeBoundary sl => Sys2Proof.Machine.execTxSuperframeBoundary sl s
  | .memberNumberingAdopt c m arr => Sys2Proof.Machine.execMemberNumberingAdopt c m arr s
  | .measuringEnd c late => Sys2Proof.Machine.execMeasuringEnd c late s
  | .dcGrowthStep c => Sys2Proof.Machine.execDcGrowthStep c s
  | .outputFrameRead c errs => Sys2Proof.Machine.execOutputFrameRead c errs s
  | .selectorEvaluation c => Sys2Proof.Machine.execSelectorEvaluation c s
  | .psClear c => Sys2Proof.Machine.execPsClear c s
  | .psLockout c => Sys2Proof.Machine.execPsLockout c s
  | .psForcedSwitch c => Sys2Proof.Machine.execPsForcedSwitch c s
  | .psManualA c => Sys2Proof.Machine.execPsManualA c s
  | .psManualB c => Sys2Proof.Machine.execPsManualB c s
  | .realign c => Sys2Proof.Machine.execRealign c s
  | .wtrExpiry c => Sys2Proof.Machine.execWtrExpiry c s
  | .memberMismatch c m => Sys2Proof.Machine.execMemberMismatch c m s
  | .channelMessageVerify c => Sys2Proof.Machine.execChannelMessageVerify c s
  | .keyLoadSlot f => Sys2Proof.Machine.execKeyLoadSlot f s
  | .keyEraseSlot f => Sys2Proof.Machine.execKeyEraseSlot f s
  | .kekLoad f => Sys2Proof.Machine.execKekLoad f s
  | .kekErase f => Sys2Proof.Machine.execKekErase f s
  | .msgQueueGo f => Sys2Proof.Machine.execMsgQueueGo f s
  | .msgServiceGrant host err => Sys2Proof.Machine.execMsgServiceGrant host err s
  | .msgServiceEnd f err => Sys2Proof.Machine.execMsgServiceEnd f err s
  | .clientFrameRx k frame err fecCorr fecUnc => Sys2Proof.Machine.execClientFrameRx k frame err fecCorr fecUnc s
  | .clientFrameEgress k => Sys2Proof.Machine.execClientFrameEgress k s
  | .clientMgmtPeriod k => Sys2Proof.Machine.execClientMgmtPeriod k s
  | .clientIndicationExpiry k upi => Sys2Proof.Machine.execClientIndicationExpiry k upi s
  | .egressReplacement k => Sys2Proof.Machine.execEgressReplacement k s
  | .calendarSwitch g tx rx ohLock mismatch => Sys2Proof.Machine.execCalendarSwitch g tx rx ohLock mismatch s
  | .laneDeepExit l => Sys2Proof.Machine.execLaneDeepExit l s
  | .cellarTrain => Sys2Proof.Machine.execCellarTrain s
  | .cellarRetrain => Sys2Proof.Machine.execCellarRetrain s
  | .cellarTrainDone ok dense => Sys2Proof.Machine.execCellarTrainDone ok dense s
  | .accRead errs => Sys2Proof.Machine.execAccRead errs s
  | .accWrite => Sys2Proof.Machine.execAccWrite s
  | .accRawWrite => Sys2Proof.Machine.execAccRawWrite s
  | .accDone => Sys2Proof.Machine.execAccDone s
  | .touchGo errs => Sys2Proof.Machine.execTouchGo errs s
  | .celTouchDone => Sys2Proof.Machine.execCelTouchDone s
  | .pprGo resource => Sys2Proof.Machine.execPprGo resource s
  | .celPprDone clean => Sys2Proof.Machine.execCelPprDone clean s
  | .memInjArm => Sys2Proof.Machine.execMemInjArm s
  | .candGate100ms sl off => Sys2Proof.Machine.execCandGate100ms sl off s
  | .candGate1ms offs => Sys2Proof.Machine.execCandGate1ms offs s
  | .candWtrExpiry sl => Sys2Proof.Machine.execCandWtrExpiry sl s
  | .candAvailLoss sl => Sys2Proof.Machine.execCandAvailLoss sl s
  | .selHoldoffExpiry => Sys2Proof.Machine.execSelHoldoffExpiry s
  | .selForce => Sys2Proof.Machine.execSelForce s
  | .selManual => Sys2Proof.Machine.execSelManual s
  | .selClear => Sys2Proof.Machine.execSelClear s
  | .selLocked => Sys2Proof.Machine.execSelLocked s
  | .phaseStepGo => Sys2Proof.Machine.execPhaseStepGo s
  | .phaseSlewDone => Sys2Proof.Machine.execPhaseSlewDone s
  | .todSet => Sys2Proof.Machine.execTodSet s
  | .todAdj => Sys2Proof.Machine.execTodAdj s
  | .todWrap => Sys2Proof.Machine.execTodWrap s
  | .timerArm n => Sys2Proof.Machine.execTimerArm n s
  | .timerDisarm n => Sys2Proof.Machine.execTimerDisarm n s
  | .timerFire n => Sys2Proof.Machine.execTimerFire n s
  | .ltcMultiframe => Sys2Proof.Machine.execLtcMultiframe s
  | .linkAttemptStart p => Sys2Proof.Machine.execLinkAttemptStart p s
  | .ident p => Sys2Proof.Machine.execIdent p s
  | .linkAttemptTimeout p => Sys2Proof.Machine.execLinkAttemptTimeout p s
  | .attemptSignalLoss p => Sys2Proof.Machine.execAttemptSignalLoss p s
  | .linkBackoffExpiry p => Sys2Proof.Machine.execLinkBackoffExpiry p s
  | .absentProbe p => Sys2Proof.Machine.execAbsentProbe p s
  | .mismatchRetry p => Sys2Proof.Machine.execMismatchRetry p s
  | .linkLoss p => Sys2Proof.Machine.execLinkLoss p s
  | .poryonFrameRx p content codes => Sys2Proof.Machine.execPoryonFrameRx p content codes s
  | .message p => Sys2Proof.Machine.execMessage p s
  | .heartbeatSend => Sys2Proof.Machine.execHeartbeatSend s
  | .heartbeat p => Sys2Proof.Machine.execHeartbeat p s
  | .twinHeartbeatLoss => Sys2Proof.Machine.execTwinHeartbeatLoss s
  | .peerActiveAssert => Sys2Proof.Machine.execPeerActiveAssert s
  | .takeoverFullAmplitude => Sys2Proof.Machine.execTakeoverFullAmplitude s
  | .twinRelease => Sys2Proof.Machine.execTwinRelease s
  | .releaseAckTimeout => Sys2Proof.Machine.execReleaseAckTimeout s
  | .releaseBoundary => Sys2Proof.Machine.execReleaseBoundary s
  | .twinDetach => Sys2Proof.Machine.execTwinDetach s
  | .twinResync => Sys2Proof.Machine.execTwinResync s
  | .pair => Sys2Proof.Machine.execPair s
  | .joinTimeout => Sys2Proof.Machine.execJoinTimeout s
  | .mirror => Sys2Proof.Machine.execMirror s
  | .domain p => Sys2Proof.Machine.execDomain p s
  | .managerHeartbeatSend => Sys2Proof.Machine.execManagerHeartbeatSend s
  | .managerLoss => Sys2Proof.Machine.execManagerLoss s
  | .event p => Sys2Proof.Machine.execEvent p s
  | .rfwRead w => Sys2Proof.Machine.execRfwRead w s
  | .rfwWrite w => Sys2Proof.Machine.execRfwWrite w s
  | .response p => Sys2Proof.Machine.execResponse p s
  | .rfwTimeout w => Sys2Proof.Machine.execRfwTimeout w s
  | .tunnelRequestRx p => Sys2Proof.Machine.execTunnelRequestRx p s
  | .monSeqGo => Sys2Proof.Machine.execMonSeqGo s
  | .monSeqStop => Sys2Proof.Machine.execMonSeqStop s
  | .accSnap => Sys2Proof.Machine.execAccSnap s
  | .injectionTrigger q => Sys2Proof.Machine.execInjectionTrigger q s
  | .injectionDone q => Sys2Proof.Machine.execInjectionDone q s
  | .injectionMissed q => Sys2Proof.Machine.execInjectionMissed q s
  | .bgCalTurn => Sys2Proof.Machine.execBgCalTurn s
  | .fgCalStart => Sys2Proof.Machine.execFgCalStart s
  | .fgCalEnd => Sys2Proof.Machine.execFgCalEnd s
  | .msyncFall => Sys2Proof.Machine.execMsyncFall s
  | .syncGo => Sys2Proof.Machine.execSyncGo s
  | .dcRespRequest c r fade => Sys2Proof.Machine.execDcRespRequest c r fade s
  | .dcFadeEnd c => Sys2Proof.Machine.execDcFadeEnd c s
  | .counterWindowBoundary => Sys2Proof.Machine.execCounterWindowBoundary s
  | .monSnap => Sys2Proof.Machine.execMonSnap s
  | .counterSelect v => Sys2Proof.Machine.execCounterSelect v s
  | .sentinelPassStart => Sys2Proof.Machine.execSentinelPassStart s
  | .sentinelPassEnd sites eyes => Sys2Proof.Machine.execSentinelPassEnd sites eyes s
  | .ageingRecordWrite hours ok1 ok2 => Sys2Proof.Machine.execAgeingRecordWrite hours ok1 ok2 s
  | .avsVout ok => Sys2Proof.Machine.execAvsVout ok s
  | .caskWinRead => Sys2Proof.Machine.execCaskWinRead s
  | .caskWinProgram => Sys2Proof.Machine.execCaskWinProgram s
  | .caskWinErase => Sys2Proof.Machine.execCaskWinErase s
  | .fesWrite sl => Sys2Proof.Machine.execFesWrite sl s
  | .fesRead sl => Sys2Proof.Machine.execFesRead sl s
  | .otpProg field value vpp tck => Sys2Proof.Machine.execOtpProg field value vpp tck s
  | .upReceiverFirstLock st => Sys2Proof.Machine.execUpReceiverFirstLock st s
  | .hostClockFound => Sys2Proof.Machine.execHostClockFound s
  | .candidateAvailable sl => Sys2Proof.Machine.execCandidateAvailable sl s
  | .hostSideConditionChange p h => Sys2Proof.Machine.execHostSideConditionChange p h s
  | .portIdleTimeout p => Sys2Proof.Machine.execPortIdleTimeout p s
  | .conversionClockEdge codes => Sys2Proof.Machine.execConversionClockEdge codes s
  | .caskWinDone err => Sys2Proof.Machine.execCaskWinDone err s
  | .fesFrameDone sl tries => Sys2Proof.Machine.execFesFrameDone sl tries s
  | .captureSegmentFilled => Sys2Proof.Machine.execCaptureSegmentFilled s

end Sys2Proof.Machine
end

