-- ==== Sys2Proof/Machine/Planner.lean ====
section
/-!
DEFINITION. MARGIN_PLAN, program 0x006 of the standard library: what Sorwick's own code does when a sequencer runs it
(chapter 21, R523 to R528). Its instructions are the library's and in no file of the spec; its run is one act of device
time, taken on ticks, whose claims are taken one after another (log 30).
-/

namespace Sys2Proof.Machine

/-! ### What a run reads (R524, R525) -/

/-- FEC_MARGIN of slice i, in 1/64 dB. -/
def State.marginOf (s : State) (i : Nat) : Int := toSigned 12 (s.rd F.FEC_MARGIN_margin [i])

/-- Condition (a) of kind 7 (R524, R525): under a generation that is not the reference's, the margin has fallen by more than cal_drop. -/
def State.calFell (s : State) (i : Nat) : Bool :=
  decide (s.cur F.CNV_GEN_CFG_use [i] = 0) && s.bit F.MON_AGE_MREF_valid [i]
    && decide (s.rd F.CNV_GEN_NEW_serial [i] ≠ s.rd F.MON_AGE_GREF_serial [i]) && s.bit F.FEC_MARGIN_valid [i]
    && decide (s.marginOf i < toSigned 12 (s.rd F.MON_AGE_MREF_margin [i]) - (s.rd F.MON_AGE_POL4_cal_drop : Int))

/-- Condition (b) of kind 7. -/
def State.calHeld (s : State) (i : Nat) : Bool :=
  decide (s.cur F.CNV_GEN_CFG_use [i] = 1
    ∧ max 1 (s.rd F.MON_AGE_POL4_cal_hold) ≤ s.rd F.MON_AGE_MREF_held_runs [i])

/-- The target of the VDD request in mV minus 300: 5 mV more for every ppm_step of the largest shift, capped at vmax. -/
def State.vddTarget (s : State) : Nat :=
  let step := 100 * max 1 (s.rd F.MON_AGE_POL2_ppm_step)
  min (min 520 (s.rd F.MON_AGE_POL2_vmax)) (s.rd F.MON_AGE_VDD_base + 5 * ((s.rd F.MON_AGE_STAT_worst + step - 1) / step))

/-- Blocks of slice i that left after 20 or more iterations. -/
def State.lateBlocks (s : State) (i : Nat) : Nat := ([20, 21, 22, 23, 24].map fun k => tabGet 0 s.counters (fecCnt i (9 + k))).sum

/-- Some skew trim of an ADC differs by more than 0.5 ps, 100 steps of 5 fs, between NEWEST and PREVIOUS. -/
def State.skewMoved (s : State) (i : Nat) : Bool :=
  let c := s.conv1 i
  match c.previous with
  | none => false
  | some g =>
    [0, 1, 2, 3].any fun a => (List.range 65).any fun p =>
      let k := fldKey F.CNV_ADC_TRIM_B_skew [i, a, p]
      decide (100 < (toSigned 12 (tabGet 0 c.newest.trims k) - toSigned 12 (tabGet 0 g.trims k)).natAbs)

/-- A new run's counts of low and of high margins in a row; a margin that is not valid breaks the row. DEDUCED (log 30). -/
def State.noteMargin (s : State) (i : Nat) : State :=
  let x := s.mon.planner
  let ok := s.bit F.FEC_MARGIN_valid [i]
  let lo := ok && decide (s.marginOf i < (s.rd F.MON_AGE_POL_m_low : Int))
  let hi := ok && decide ((s.rd F.MON_AGE_POL_m_high : Int) < s.marginOf i)
  s.setPlanner { x with low := tabPut 0 x.low i (if lo then tabGet 0 x.low i + 1 else 0),
                        high := tabPut 0 x.high i (if hi then tabGet 0 x.high i + 1 else 0) }

/-- The counters that the next run compares with. -/
def State.noteCounts (s : State) (i : Nat) : State :=
  let x := s.mon.planner
  s.setPlanner { x with dlm := tabPut 0 x.dlm i (tabGet 0 s.counters (fecCnt i 4)),
                        blocks := tabPut 0 x.blocks i (tabGet 0 s.counters (fecCnt i 0)),
                        late := tabPut 0 x.late i (s.lateBlocks i) }

/-! ### Plan kinds (R524, R526) -/

/-- The entropy step: 0 acts as 1. -/
def State.entropyStep (s : State) : Nat := max 1 (s.rd F.MON_AGE_POL_estep)

/-- Entropy `e` of slice i after kind 2 (down) or kind 6. -/
def State.entropyMoved (s : State) (i e : Nat) (down : Bool) : Nat :=
  if down then max (s.rd F.MON_AGE_SLC_e_min [i]) (e - s.entropyStep)
  else min (s.rd F.MON_AGE_SLC_e_max [i]) (e + s.entropyStep)

/-- The largest net rate step that slice i's frames hold in an image (R306). -/
def largestRate (m : Tab Nat) (i : Nat) : Nat :=
  (frameLen (imgGet m F.TXD_MODE_CFG_baud [i]) (imgGet m F.TXD_MODE_CFG_const [i]) (imgGet m F.TXD_MODE_CFG_entropy [i])
    (imgGet m F.TXD_MODE_CFG_pilot [i]) (imgGet m F.FEC_CODE_CFG_rate [i]) - 608) / 102400

/-- The change that a plan stages for slice i (the table "Plan kinds"). -/
def State.planChange (s : State) (k i : Nat) (m : Tab Nat) : Tab Nat :=
  let cur := fun (f : Fld) => s.cur f [i]
  let moved := fun (down : Bool) =>
    let m := imgPut m F.TXD_MODE_CFG_entropy (s.entropyMoved i (cur F.TXD_MODE_CFG_entropy) down) [i]
    let m := imgPut m F.RXD_MODE_CFG_entropy (s.entropyMoved i (cur F.RXD_MODE_CFG_entropy) down) [i]
    imgPut m F.LFR_TX_CFG_rate (min 20 (largestRate m i)) [i]
  match k with
  | 1 => imgPut m F.MON_AGE_VDD_vreq s.vddTarget
  | 7 => imgPut m F.CNV_GEN_CFG_use (1 - cur F.CNV_GEN_CFG_use) [i]
  | 2 => moved true
  | 3 => imgPut m F.FEC_POOL_SLICE_guar (min 24 (s.guar i + 2)) [i]
  | 4 => imgPut m F.FEC_POOL_SLICE_deadline (min 64 (s.deadlineUs i + 8)) [i]
  | 5 =>
    let n := cur F.CNV_RECAL_CFG_interval
    imgPut (imgPut m F.CNV_RECAL_CFG_interval (min n (max 60 (n / 2))) [i]) F.CNV_RECAL_CFG_temp_step
      (cur F.CNV_RECAL_CFG_temp_step - 1) [i]
  | 6 => moved false
  | _ => m

/-- A format plan for slice i waits for the host: the new rate would hold fewer slots than the slice's channels use, or the new
entropy lies outside its format's range (R17, R238, R526). -/
def State.planBlocked (s : State) (k i : Nat) : Bool :=
  let m := s.planChange k i s.vtg.current
  let n := largestRate m i
  let out := fun (c e : Fld) => decide (entropyActs (constActs (imgGet m c [i])) (imgGet m e [i]) ≠ imgGet m e [i])
  decide (n < 4) || out F.TXD_MODE_CFG_const F.TXD_MODE_CFG_entropy || out F.RXD_MODE_CFG_const F.RXD_MODE_CFG_entropy
    || [true, false].any fun tx => (contextsOf m tx).any fun e => decide (e.1 = i ∧ 320 * n ≤ e.2.1)

/-- The condition of kind k holds for slice i; one whose change would change nothing does not. DEDUCED (log 30). -/
def State.planWants (s : State) (k i : Nat) : Bool :=
  let x := s.mon.planner
  let shaped := isPcs (s.cur F.TXD_MODE_CFG_const [i])
  let does := decide (s.planChange k i s.vtg.current ≠ s.vtg.current)
  match k with
  | 1 => decide (s.cur F.MON_AGE_VDD_vreq < s.vddTarget)
  | 7 => s.calFell i || s.calHeld i
  | 2 => decide (3 ≤ tabGet 0 x.low i) && shaped && does
  | 3 => decide (tabGet 0 s.counters (fecCnt i 0) - tabGet 0 x.blocks i < 16 * (s.lateBlocks i - tabGet 0 x.late i)) && does
  | 4 => decide (tabGet 0 x.dlm i < tabGet 0 s.counters (fecCnt i 4)) && does
  | 5 => s.skewMoved i && does
  | 6 => decide (24 ≤ tabGet 0 x.high i) && shaped && does
  | _ => false

/-- A kind is barred on a slice (R524). -/
def State.planBarred (s : State) (k i : Nat) : Bool := decide (tabGet 0 s.mon.planner.bars (8 * k + i) ≠ 0)

/-- The slices of a mask that the planner may plan for. -/
def State.planSlices (s : State) (mask : Nat) : List Nat :=
  slices8.filter fun i => decide (mask / 2 ^ i % 2 = 1) && s.bit F.MON_AGE_SLC_plan_en [i]

/-- The kinds in the order of the rows of the table. -/
def planKinds : List Nat := [1, 7, 2, 3, 4, 5, 6]

/-- The first kind whose condition holds for a slice that is not barred, with every such slice (R524); 0 for none. -/
def State.firstPlan (s : State) (mask : Nat) : List Nat → Nat × List Nat
  | [] => (0, [])
  | k :: ks =>
    let got := (s.planSlices mask).filter fun i => !s.planBarred k i && s.planWants k i
    if got = [] then s.firstPlan mask ks else (k, got)

/-- The slices, lowest first, whose raised guarantees leave f at 1 (R268, R524). -/
def State.guarFits (s : State) (is : List Nat) : List Nat :=
  let lit := slices8.filter fun i => s.lit i
  let base := (lit.map fun i => s.guar i * s.beta i).sum
  (is.foldl (fun (r : List Nat × Nat) i =>
    let more := if s.lit i then (min 24 (s.guar i + 2) - s.guar i) * s.beta i else 0
    if r.2 + more ≤ 8192 * betaDen then (r.1 ++ [i], r.2 + more) else r) ([], base)).1

/-! ### The outcome of the last plan (R524, R527) -/

/-- The vintage of the last plan has been left by a return: last_ret names a cause, and its image is archived as failed. -/
def State.planReturned (s : State) : Bool :=
  decide (s.rd F.VTG_STAT_last_ret ≠ 0)
    && s.vtg.archive.any fun a => a.failed && decide (a.serial.toNat = s.rd F.MON_AGE_PSER_serial)

/-- The outcome of the plan recorded in MON_AGE_PLAN: RETURNED, which bars its kind on its slices in this run and for backoff further
ones; PASSED once it is in force and the state is IDLE (R524). DEDUCED (log 30). -/
def State.planOutcome (s : State) : State :=
  let k := s.rd F.MON_AGE_PLAN_kind
  if k = 0 ∨ s.rd F.MON_AGE_PLAN_result ≠ 0 then s
  else if s.planReturned then
    let x := s.mon.planner
    let is := slices8.filter fun i => decide (s.rd F.MON_AGE_PLAN_slices / 2 ^ i % 2 = 1)
    let bars := is.foldl (fun t i => tabPut 0 t (8 * k + i) (s.rd F.MON_AGE_POL3_backoff + 1)) x.bars
    (s.setPlanner { x with bars := bars }).wr F.MON_AGE_PLAN_result 2
  else if s.vtState = vtIdle ∧ s.serialCur = s.rd F.MON_AGE_PSER_serial then s.wr F.MON_AGE_PLAN_result 1
  else s

/-- Part 2: the outcome, and the failure of a core-voltage plan in probation whose command was not confirmed (R523, R527). -/
def State.planPart2 (s : State) : State :=
  let s := s.planOutcome
  if s.rd F.MON_AGE_PLAN_kind = 1 ∧ s.vtState = vtProbation ∧ s.serialCur = s.rd F.MON_AGE_PSER_serial
      ∧ s.bit F.MON_AGE_STAT2_avs_fail = true then s.vtgFail
  else s

/-! ### Part 1 (R523 to R528) -/

/-- A run has passed on a slice: what bars it gets shorter. -/
def State.barsPass (s : State) (is : List Nat) : State :=
  let x := s.mon.planner
  let keys := planKinds.flatMap fun k => is.map fun i => 8 * k + i
  s.setPlanner { x with bars := keys.foldl (fun t n => tabPut 0 t n (tabGet 0 t n - 1)) x.bars }

/-- The slices of a mask. -/
def maskSlices (mask : Nat) : List Nat := slices8.filter fun i => decide (mask / 2 ^ i % 2 = 1)

/-- The references that the end of part 1 writes: the slices in TRACK for which (a) does not hold, with the valid margin and the
generation that the run reads (R525). -/
def State.planRefs (s : State) (mask : Nat) : List (Nat × Nat × Nat) :=
  ((maskSlices mask).filter fun i => decide (s.acq i = acqTrack) && !s.calFell i && s.bit F.FEC_MARGIN_valid [i]).map fun i =>
    (i, s.rd F.FEC_MARGIN_margin [i], s.rd F.CNV_GEN_NEW_serial [i])

/-- One more run while use reads 1 (R525). -/
def State.planHeldRuns (s : State) (mask : Nat) : State :=
  forEach (fun i t =>
    if t.cur F.CNV_GEN_CFG_use [i] = 1 then
      t.wr F.MON_AGE_MREF_held_runs (min 255 (t.rd F.MON_AGE_MREF_held_runs [i] + 1)) [i]
    else t) (maskSlices mask) s

/-- The end of part 1 writes its references (R525). -/
def State.planReferences (s : State) (refs : List (Nat × Nat × Nat)) : State :=
  forEach (fun (e : Nat × Nat × Nat) t =>
    ((t.wr F.MON_AGE_MREF_margin e.2.1 [e.1]).wr F.MON_AGE_MREF_valid 1 [e.1]).wr F.MON_AGE_GREF_serial e.2.2 [e.1]) refs s

/-- The slices of a mask on which a proposal is held that the planner follows (R528). -/
def State.followSlices (s : State) (mask : Nat) : List Nat :=
  slices8.filter fun i => decide (mask / 2 ^ i % 2 = 1) && s.bit F.TDL_PROP_STAT_held [i]
    && s.follows i (s.rd F.TDL_PROP_KND_value [i]) (s.rd F.TDL_PROP_SUM_value [i])

/-- Part 1 gathers its inputs and decides: a proposal to follow, else at most one kind; it then acquires 0x00, 0x01, the line
claims of its slices, 0x10 and 0x1E (R523, R524, R526, R528). -/
def State.planStart (s : State) (q mask : Nat) : State :=
  let s := s.planOutcome
  let is := s.planSlices mask
  let s := forEach (fun i t => t.noteMargin i) is s
  let far := s.followSlices mask
  let (kind, got) := if far = [] then s.firstPlan mask planKinds else (0, [])
  let refs := s.planRefs mask
  let s := s.planHeldRuns mask
  let s := forEach (fun i t => t.noteCounts i) is (s.barsPass is)
  let stuck := if kind = 2 ∨ kind = 6 then got.filter fun i => s.planBlocked kind i else []
  let s := if stuck = [] then s
    else
      let b := stuck.foldl (fun v i => v ||| 2 ^ i) (s.rd F.MON_AGE_PLAN_blocked)
      (s.wr F.MON_AGE_PLAN_blocked b).raise 0x4E b
  let got := if kind = 3 then s.guarFits got else got.filter fun i => decide (i ∉ stuck)
  let lines := if kind = 1 then [] else if far = [] then got else far
  let t : PlanTask := ⟨mask, if got = [] then 0 else kind, if far = [] then got else far, decide (far ≠ []),
    [0, 1] ++ lines.map (8 + ·) ++ [0x10, 0x1E], s.tim.now, refs⟩
  let x := s.mon.planner
  s.setPlanner { x with tasks := tabPut none x.tasks q (some t) }

/-- The run of sequencer q ends COMPLETE with its result words; DONE frees what it holds (R77, R523). -/
def State.planDone (s : State) (q : Nat) (t : PlanTask) (results : List Word) : State :=
  let s := s.planReferences t.refs
  let x := s.mon.planner
  (s.setPlanner { x with tasks := tabPut none x.tasks q none }).closeProgram q stComplete 0 results

/-- Kind 0 and result DEFERRED (R523). -/
def State.planDeferred (s : State) (q : Nat) (t : PlanTask) : State :=
  ((s.wr F.MON_AGE_PLAN_kind 0).wr F.MON_AGE_PLAN_result 3).planDone q t []

/-- The probation settings of a plan (R527): a VDD plan judges every LIT slice. -/
def State.planProbation (s : State) (kind : Nat) (is : List Nat) (m : Tab Nat) : Tab Nat :=
  let judged := if kind = 1 then slices8.filter fun i => s.lit i else is
  let m := imgPut m F.VTG_PROB_CFG_window (s.rd F.MON_AGE_POL3_window)
  let m := imgPut m F.VTG_PROB_CFG_judge_mask (judged.foldl (fun v i => v ||| 2 ^ i) 0)
  let m := imgPut (imgPut m F.VTG_PROB_CFG_wdog_en 1) F.VTG_PROB_CFG_host_en 1
  imgPut m F.VTG_PROB_THR_ucb_thr (s.rd F.MON_AGE_POL3_ucb)

/-- The boundary code of a plan's commit: at once, the next superframe, or the next agreed superframe (R527). -/
def planBoundary (kind : Nat) : Nat := if kind = 1 ∨ kind = 7 then 0 else if kind = 2 ∨ kind = 6 then 3 else 2

/-- The change ids of the slices whose line a plan touches; no rule gives the planner's. DESIGN CHOICE (log 2). -/
def State.planIds (s : State) (is : List Nat) : State :=
  forEach (fun i t => let r := t.takeWord; r.2.wr F.TDL_AGR_ID_value r.1 [i]) is s

/-- The settings of a held proposal staged for the receive direction of slice i, and its change id written (R297, R528). -/
def State.followOn (s : State) (i : Nat) : State :=
  let w := s.rd F.TDL_PROP_SUM_value [i]
  let s := s.wr F.TDL_AGR_ID_value (s.rd F.TDL_PROP_ID_value [i]) [i]
  let m := imgPut s.vtg.staged F.RXD_MODE_CFG_const (w / 2 ^ 15 % 8) [i]
  let m := imgPut m F.RXD_MODE_CFG_pilot (w / 2 ^ 4 % 4) [i]
  let m := if isPcs (w / 2 ^ 15 % 8) then imgPut m F.RXD_MODE_CFG_entropy (w / 2 ^ 6 % 2 ^ 9) [i] else m
  s.setStaged 4 m

/-- The plan is staged and committed, and recorded with the serial that VCMT returned (R527); a commit that is refused defers
the run. -/
def State.planCommit (s : State) (q : Nat) (t : PlanTask) : State :=
  if s.vtState ≠ vtIdle then s.planDeferred q t
  else if t.follow then
    let s := forEach (fun i u => u.followOn i) t.slices s
    if s.refusal 3 ≠ 0 then s.planDeferred q t
    else
      let serial := s.newSerial
      (s.acceptCommit 3 0).planDone q t [BitVec.ofNat 24 serial]
  else if t.kind = 0 then s.planDone q t []
  else
    let bd := planBoundary t.kind
    let m := t.slices.foldl (fun m i => s.planChange t.kind i m) s.vtg.staged
    let s := if bd = 3 then s.planIds t.slices else s
    let s := s.setStaged 4 (s.planProbation t.kind t.slices m)
    if s.refusal bd ≠ 0 then s.planDeferred q t
    else
      let serial := s.newSerial
      let s := s.acceptCommit bd 0
      let s := if t.kind = 7 then forEach (fun i u => u.wr F.MON_AGE_MREF_held_runs 0 [i]) t.slices s else s
      let s := (s.wr F.MON_AGE_PLAN_kind t.kind).wr F.MON_AGE_PLAN_slices (t.slices.foldl (fun v i => v ||| 2 ^ i) 0)
      let s := (s.wr F.MON_AGE_PLAN_result 0).wr F.MON_AGE_PSER_serial serial
      s.planDone q t [BitVec.ofNat 24 serial]

/-- The claims of the run are taken in ascending order, each within 1 ms (R523): those granted, and as far as the next are
free now. One that is not free is waited for among the waiters of the arbiter (R76, R432). -/
def State.planClaims (s : State) (q : Nat) : List Nat → List Nat × State
  | [] => ([], s)
  | n :: ns =>
    let c := s.claim n
    if c.holder = some q then s.planClaims q ns
    else if s.freeClaim n && c.waiters.isEmpty then (s.setClaim n { c with holder := some q }).planClaims q ns
    else (n :: ns, if q ∈ c.waiters then s else s.setClaim n { c with waiters := c.waiters ++ [q] })

/-- One act of the run of sequencer q: it starts, goes on acquiring its claims, or stages and commits. -/
def State.planStep (s : State) (q : Nat) : State :=
  let x := s.seq q
  let timer := decide (x.func = 0 ∧ x.tag.toNat / 256 = 0xF000)
  let part := if timer then 1 else (x.mem 2).toNat
  let mask := if timer then 0xFF else (x.mem 3).toNat % 256
  match tabGet none s.mon.planner.tasks q with
  | none =>
    if part = 1 then s.planStart q mask
    else if part = 2 then s.planPart2.closeProgram q stComplete 0 []
    else s.closeProgram q stComplete 0 []
  | some t =>
    let r := s.planClaims q t.todo
    if r.1 = [] then r.2.planCommit q t
    else
      let since := if r.1 = t.todo then t.since else s.tim.now
      if 2 ^ 32 * 1000000 ≤ (s.tim.now - since).toNat then (r.2.unqueue q (r.1.headD 0)).planDeferred q t
      else
        let y := r.2.mon.planner
        r.2.setPlanner { y with tasks := tabPut none y.tasks q (some { t with todo := r.1, since := since }) }

/-- The sequencer that runs MARGIN_PLAN with its packet whole. -/
def State.planSeq (s : State) : Option Nat :=
  programSqs.find? fun q =>
    let x := s.seq q
    x.live && decide (x.program = 6 ∧ x.pktLen ≤ x.pktGot)

/-- `ticks` ticks of 1.6 ns pass for the handler's watches; those that run out submit part 1 (R525). -/
def State.watchTick (s : State) (ticks : Nat) : State :=
  let x := s.mon.planner
  let left := x.watch.map fun e => (e.1, e.2 - 16 * ticks)
  s.setPlanner { x with watch := left.filter (fun e => decide (e.2 ≠ 0)),
                        pkts := x.pkts ++ (left.filter fun e => decide (e.2 = 0)).map Prod.fst }

/-- A tick of the library's planner: the tasks of sequencers that no longer run it go, and the run in progress acts.
DESIGN CHOICE (log 39). -/
def State.planTick (s : State) (ticks : Nat) : State :=
  let s := s.watchTick ticks
  let x := s.mon.planner
  let s := s.setPlanner { x with tasks := x.tasks.filter fun e => (s.seq e.1).live && decide ((s.seq e.1).program = 6) }
  match s.planSeq with
  | none => s
  | some q => if s.sorwick then s.planStep q else s

end Sys2Proof.Machine
end

