-- ==== Sys2Proof/Machine/Tick.lean ====
section
/-!
DEFINITION. One tick of device time with nothing commanded (log 7).
-/

namespace Sys2Proof.Machine

/-- Ticks of 1.6 ns in one step of device time: 25 where it counts on AON cycles (R452). -/
def State.tickTicks (s : State) : Nat := if s.ticking then 1 else 25

/-- Device time in whole milliseconds. -/
def State.millis (s : State) : Nat := s.time.toNat / 1000000

/-- GLB_TEMP reports the hottest of 24 junction sensors every 1 ms, which is `before` no longer; what a sensor reads is the
die's own, a free value (R551). DESIGN CHOICE (log 2). -/
def State.tempTick (s : State) (before : Nat) : State :=
  if s.millis = before then s
  else
    let r := s.takeWord
    (r.2.wr F.GLB_TEMP_temp (r.1 % 1024)).wr F.GLB_TEMP_sensor (r.1 / 1024 % 24)

/-- Ticks of 1.6 ns pass: while no slice runs on the grid, it runs on the clocks alone, 640 ticks a frame (R335, R360).
DESIGN CHOICE (log 7). -/
def State.gridTick (s : State) (ticks : Nat) : State :=
  if s.ticking = false ∨ s.gridSlices ≠ [] then s
  else if s.grid.ticks + ticks < 640 then { s with grid := { s.grid with ticks := s.grid.ticks + ticks } }
  else
    let t := s.gridFrame
    { t with grid := { t.grid with ticks := s.grid.ticks + ticks - 640 } }

/-- The rounds that have passed for the uses whose grants are commands: the sequencers, the calibration engines and the message service
(R427). -/
def State.useTick (s : State) (ticks : Nat) : State := ((s.seqTick ticks).engineTick ticks).svcTick ticks

/-- A tick of the time counter with nothing commanded: time advances, a phase step slews, the arbiters of the Poryon ports
and of the cellar serve the rounds that have passed, the requests of the other uses age, the library's planner acts, the transmit grid runs where no slice does, and the
junction sensors are read (R335, R428, R433, R450, R452, R523, R551). DESIGN CHOICE (log 7). -/
def State.idleTick (s : State) : State :=
  let t := ((s.tick.slewTick).pryTick s.tickTicks).celTick s.tickTicks
  (((t.useTick s.tickTicks).planTick s.tickTicks).gridTick s.tickTicks).tempTick s.millis

end Sys2Proof.Machine
end

