-- ==== Sys2Proof/Safety.lean ====
section
/-!
DEFINITION. What the statements are said in: the canonical form of the block's memories, the events that have been raised, and
the parts of the state that a command leaves alone. A run is safe while every step answers a next state whose memories keep
their canonical form.
-/

namespace Sys2Proof.Machine

/-- The canonical form of the on-chip rows and what has been added to their symbols, and of the blocks and lines of the cellar.
DEDUCED (log 35). -/
def Cel.wf (c : Cel) : Bool := tabWf false c.rows && tabWf [] c.bad && tabWf [] c.blocks && tabWf false c.lines && tabWf [] c.hard

/-- The canonical form of the addressed memories: the instruction store and the loader's buffer, the cask, host memory, the
on-chip rows and what has been added to their symbols, the blocks and lines of the cellar, and the local scratch of every
sequencer. DEDUCED (log 35). -/
def State.memWf (s : State) : Bool :=
  tabWf none s.exec.store && tabWf none s.exec.loadBuf && tabWf 255 s.cask && tabWf 0 s.hif.hostMem
    && s.cel.wf && s.seqs.all fun e => tabWf 0 e.2.scratch

/-- The keys of register field instances. -/
def keysOf (l : List (Fld × List Nat)) : List Nat := l.map fun e => fldKey e.1 e.2

/-- The register fields that the delivery of an event can write: the pending words, the injection slots that it triggers, and
what the trigger of a line capture sets (R171, R201, R502, R542). -/
def eventKeys : List Nat :=
  keysOf ([0, 1, 2, 3, 4, 5].map (fun j => (F.GLB_EVT_PEND_bits, [j]))
    ++ ((List.range 16).flatMap fun q => [(F.MON_INJ_STAT_merged, [q]), (F.MON_INJ_STAT_status, [q])])
    ++ [0, 1, 2, 3, 4, 5, 6, 7].flatMap fun i =>
      [F.CNV_CAP_STAT_state, F.CNV_CAP_STAT_pre_short, F.CNV_CAP_STAT_hb, F.CNV_CAP_STAT_missed, F.CNV_CAP_TIME_H_value,
       F.CNV_CAP_TIME_L_value, F.CNV_CAP_SF_value].map fun f => (f, [i]))

/-- Device event e is pending in GLB_EVT_PEND (R542). -/
def State.pends (s : State) (e : Nat) : Bool := decide (s.rd F.GLB_EVT_PEND_bits [e / 24] / 2 ^ (e % 24) % 2 = 1)

/-- The state without its register file: equal in two states where nothing but register fields differs. -/
def State.noRegs (s : State) : State := { s with regs := [] }

/-- The state without the parts that the delivery of an event reaches: registers, event sets of sequencers, the host's
vectors, the Poryon ports, counters and injection slots. -/
def State.noEvents (s : State) : State :=
  { s with regs := [], seqs := [], hif := Hif.reset, pry := Pry.fresh, counters := [], mon := Mon.fresh }

end Sys2Proof.Machine
end

