-- ==== Sys2Proof/Certificates/Slice0/Obligations.lean ====
section
/-!
DEFINITION. The statements for the provers. Each says of which rules of the spec it speaks; a clause over a command says for
every state that meets its conditions that exec answers a next state, what that state holds, and what it keeps.
-/

namespace Sys2Proof.Machine

/-- Sequencer q runs, and the word at its program counter is the instruction i. -/
def Fetches (s : State) (q : Fin 16) (i : Ins) : Prop := (s.seq q).state = .running ∧ (s.fetch q).1 = some i

/-- The state in which a fetched instruction of sequencer q acts. -/
def atIssue (s : State) (q : Fin 16) : State := (s.fetch q).2.setSeq q { (s.fetch q).2.seq q with slowUnits := 0 }

/-- What an instruction that changes its own sequencer alone leaves: every other sequencer, every register field, queue,
claim, image, port and flash byte. -/
def SeqFrame (s t : State) (q : Fin 16) : Prop :=
  (∀ p, p ≠ q.val → t.seq p = s.seq p) ∧ t.regs = s.regs ∧ t.queues = s.queues ∧ t.exec = s.exec ∧ t.vtg = s.vtg
    ∧ t.pry = s.pry ∧ t.cask = s.cask ∧ t.ctl = s.ctl ∧ t.tim = s.tim ∧ t.hif = s.hif ∧ t.pending = s.pending

/-- Sequencers x and y differ in their registers, flags, program counter and waiting alone. -/
def Seq.SameBut (x y : Seq) : Prop :=
  { y with w := x.w, z := x.z, n := x.n, c := x.c, v := x.v, pc := x.pc, wait := x.wait, slowUnits := x.slowUnits } = x

/-- Every working register but Wa is unchanged. -/
def RegsBut (x y : Seq) (a : Nat) : Prop := ∀ r, r ≠ a → y.reg r = x.reg r

/-- Sequencer q has ended its program: it is idle and holds no resource. -/
def Ended (t : State) (q : Fin 16) : Prop := (t.seq q).state = .idle ∧ ∀ n, t.holds q n = false

/-- A queue that holds nothing and drops nothing: the next word begins a packet. -/
def Queue.fresh (x : Queue) : Prop := x.pkts = [] ∧ x.refuse = 0 ∧ x.discard = 0 ∧ x.taker = none

/-- Into a journal ring that holds nothing goes the one record `ws` (R79). -/
def JournalGets (s t : State) (ws : List Word) : Prop :=
  (s.queue 32).fresh → (t.queue 32).pkts.map QPkt.words = [ws]

/-- Sequencer q has ended its program with a status and a fault code: it is idle and holds no resource, its in-flight entry is
gone, and the journal gets its outcome record (R77, R79, R81). -/
def EndedBy (s t : State) (q : Fin 16) (status fault : Nat) : Prop :=
  Ended t q ∧ tabGet none t.exec.inFlight q = none
    ∧ ((s.seq q).func < 16 →
        JournalGets s t (recordWords (s.seq q).tag (s.seq q).program (s.seq q).step status q (s.seq q).func fault s.time))

/-- Every register field but those listed is unchanged. -/
def RegsExcept (s t : State) (l : List (Fld × List Nat)) : Prop :=
  ∀ f is, fldKey f is ∉ keysOf l → t.rd f is = s.rd f is

/-- Every register field but those listed, and those that the delivery of an event writes, is unchanged. -/
def RegsExceptE (s t : State) (l : List (Fld × List Nat)) : Prop :=
  ∀ f is, fldKey f is ∉ keysOf l → fldKey f is ∉ eventKeys → t.rd f is = s.rd f is


/-- The word of the table "Instruction word" with these fields (R91). -/
def insWord (op a b c m : Nat) : Nat := op * 2 ^ 18 + a * 2 ^ 14 + b * 2 ^ 10 + c * 2 ^ 6 + m

/-- The fields that the tables of chapter 04 define for each opcode (R92, R100, R102 to R104, R108, R110, R113, R115, R117,
R119). That SIGNAL takes its number from a register is the model's reading of R110 (log 8). -/
def TsuileForm (op a b c m : Nat) : Prop :=
  match op with
  | 0x00 | 0x20 | 0x21 | 0x22 | 0x23 | 0x24 | 0x25 | 0x26 | 0x28 => True
  | 0x01 | 0x03 | 0x07 | 0x08 | 0x09 => m = 0
  | 0x02 | 0x04 | 0x15 | 0x16 => c = 0
  | 0x05 | 0x06 | 0x11 | 0x12 => m < 2
  | 0x0A | 0x13 | 0x2E => c = 0 ∧ m = 0
  | 0x0B | 0x0C | 0x0D | 0x0E => m = 32 ∨ m < 32 ∧ c = 0
  | 0x0F => a = 0 ∧ m = 0
  | 0x10 | 0x3A => a = 0 ∧ c = 0
  | 0x14 => b = 0 ∧ c = 0 ∧ m = 0
  | 0x18 | 0x19 => m % 8 = 0 ∧ (32 ≤ m → b = 0) ∧ (m / 8 % 2 = 0 → c = 0)
  | 0x1A | 0x3B => m % 8 = 0 ∧ 32 ≤ m ∧ (m / 8 % 2 = 0 → c = 0)
  | 0x1B => 32 ≤ m ∧ m / 8 % 2 = 0
  | 0x27 => a = 0 ∧ c = 0 ∧ m = 0
  | 0x29 => a = 0 ∧ b = 0 ∧ c = 0 ∧ m = 0
  | 0x2C => a = 0 ∧ m / 8 ≠ 7
  | 0x2D => m / 8 ≠ 0 ∧ m / 8 ≠ 7
  | 0x30 => a = 0 ∧ m / 8 % 4 = 0 ∧ (32 ≤ m → c = 0)
  | 0x31 => a = 0 ∧ m % 32 = 0 ∧ (32 ≤ m → c = 0)
  | 0x32 => a = 0 ∧ b = 0 ∧ c = 0
  | 0x33 => m / 8 % 4 = 0
  | 0x34 => a = 0 ∧ m < 8
  | 0x35 => m % 32 = 0 ∧ (m < 32 → 8 ≤ b) ∧ (32 ≤ m → c = 0)
  | 0x38 => m = 0 ∧ ¬(a = 0 ∧ b = 0 ∧ c = 0)
  | 0x39 => m = 0 ∨ m = 32 ∧ a = 0 ∧ c = 0
  | 0x3C => m < 4 ∧ b = 0 ∧ c = 0 ∨ m = 4
  | 0x3D => a = 0 ∧ b = 0 ∧ c = 0 ∧ m < 2
  | _ => False

/-- The opcodes and modifiers that have an extension word (R91, R103, R104, R115). -/
def TsuileLong (op m : Nat) : Prop := op = 0x14 ∨ op ∈ [0x18, 0x19, 0x1A, 0x1B, 0x3B] ∧ 32 ≤ m

/-- The trigger that the capture waits for, as its go found it: the firing of its timer, or its event (R201). -/
def CapWaits (s : State) : CapTrig → Prop
  | .timer n => s.capture.trig = 1 ∧ s.capture.timer = n.val
  | .event e => s.capture.trig = 2 ∧ s.capture.event = e.val

/-- What MATCH requires of a spare: means within 1/16 LSB, sums of 2^16 codes in units of 2^-20 LSB, and RMS values within
2^-12 of each other (R178). -/
def Matched (m : MatchResult) : Prop :=
  16 * (m.spare.sum - m.incumbent.sum).natAbs ≤ 2 ^ 36 ∧ 4095 ^ 2 * m.incumbent.squares ≤ 4096 ^ 2 * m.spare.squares
    ∧ 4096 ^ 2 * m.spare.squares ≤ 4097 ^ 2 * m.incumbent.squares

/-- The trim fields of interleave slice p of ADC a, and those that MATCH may write in slice i (R178, R181). -/
def adcTrimFields (i : Fin 8) (a p : Nat) : List (Fld × List Nat) :=
  [(F.CNV_ADC_TRIM_A_gain, [i, a, p]), (F.CNV_ADC_TRIM_A_offset, [i, a, p]), (F.CNV_ADC_TRIM_B_skew, [i, a, p])]
def matchFields (s : State) (i : Fin 8) : List (Fld × List Nat) :=
  (F.CNV_STAT_trim_sat, [i.val]) :: [0, 1, 2, 3].flatMap fun a => adcTrimFields i a (s.rd F.CNV_ADC_STAT_spare_pos [i, a])

/-- The 16 codewords of the interleave group that slice i holds, under the code that its blocks were received with
(R254, R262). -/
def outerWord (s : State) (i : Fin 8) (j : Nat) : List Bool :=
  let c := ((s.align1 i).held.headD ⟨0, 0, false, false, false, false, 0, ⟨0, 0, 0⟩, []⟩).code
  let stream := ((s.align1 i).held.take 16).flatMap fun b => (blockBits c.const c.ent c.rate b.bits).1
  (List.range (blockInfo c.const c.ent c.rate)).map fun k => stream.getD (outerPosition k j) false

/-- What a block's samples become on arrival: the block, and the state after RXD and its guarantee (R225, R252, R266 to R268). -/
def arrival (s : State) (i : Fin 8) (samples : List AdcSample) : Block × State :=
  let g := s.takeGuar i
  let a := s.align1 i
  let code : CodeSet := ⟨(s.rxSet i).const, (s.rxSet i).ent, s.rxdv F.FEC_CODE_CFG_rate i⟩
  let r := (g.2.setAlign i { a with formed := a.formed + 1 }).rxBlock i samples
  (⟨s.pool.nextId, i, g.1, s.pool.slot + 128 * s.deadlineUs i, 0, 0, 0, r.1, g.2.groupFirst i, (a.serial, a.formed), code, r.2.1,
    Decoding.start code.rate r.2.1⟩, r.2.2)

/-- The blocks of the cellar that a member's frame is stored in: its slots' 40 bytes each, and its entry (R343, R403). -/
def cellBlocks (f : MemFrame) : List Nat := ((f.cells.flatMap fun a => blocksOf a 40) ++ blocksOf f.entry 4).eraseDups

/-- No row that image `img` of the vintage store holds has an error or a failed cell (R411, R413). -/
def Sound (s : State) (img : Nat) : Prop := ∀ e, e ∈ s.cel.bad ++ s.cel.hard → vintImage e.1 ≠ some img

/-- A fundamental or cold reset of the device. -/
def resetCommand : Instr → Bool
  | .coldStart .. | .vddaonLow | .perstNAssert => true
  | _ => false

/-- The commands that write a word of the control fabric: on behalf of the host, a program or a manager. -/
def fabricCommand : Instr → Bool
  | .fabricWrite .. | .fwr .. | .frmw .. | .bar0Access .. | .rfwRead .. | .rfwWrite .. | .tunnelRequestRx .. => true
  | _ => false

/-- The commands by which a pair of twins ends or a mirrored item arrives (R473, R475, R484). -/
def twinCommand : Instr → Bool
  | .linkLoss .. | .twinDetach .. | .pair .. | .joinTimeout .. | .mirror .. => true
  | _ => false

/-- The boundaries at which vintages take effect (R133, R141). -/
def effectCommand : Instr → Bool
  | .commitTakeEffect .. | .returnTakeEffect .. => true
  | _ => false

/-- The commands that load program sets. -/
def loadCommand : Instr → Bool
  | .bootstrapImageVerify .. | .loadBegin .. | .loadData .. | .loadVerifyDone => true
  | _ => false

/-- The commands that program or erase the cask flash (R194, R521, R555). -/
def caskCommand : Instr → Bool
  | .caskSave .. | .ageingRecordWrite .. | .caskWinDone .. => true
  | _ => false

/-- The commands that change a key slot beside the twins' and the fabric's (R160, R365 to R369, R378). -/
def slotCommand : Instr → Bool
  | .functionLevelReset .. | .keyLoadSlot .. | .keyEraseSlot .. | .msgServiceGrant .. => true
  | _ => false

/-- The commands that work on the decoder pool (R256 to R272, R536). -/
def poolCommand : Instr → Bool
  | .sliceResetCmd .. | .framePulseWatchdog .. | .dpSliceHoldEnd .. | .blockArrival .. | .iterationSlot .. | .reorderRelease ..
  | .marginInterval .. => true
  | _ => false

/-- The commands at which an image may come into force: at a boundary, with a pair of twins, by the fabric or at power-up (R133, R141,
R353, R387). -/
def switchCommand (c : Instr) : Bool :=
  effectCommand c || twinCommand c || fabricCommand c || match c with
    | .powerUpComplete .. => true
    | _ => false

/-- The commands that put frames into a channel's GFP stream, or take some out (R335, R382, R384). -/
def gfpCommand : Instr → Bool
  | .clientFrameRx .. | .clientMgmtPeriod .. | .outputFrameRead .. | .txFrameBoundary .. => true
  | _ => false

end Sys2Proof.Machine

open Sys2Proof Sys2Proof.Machine

/-- A step takes the command at the front of the queue and runs it on the state with the queue's rest. On an empty
queue a tick of device time passes, which is the model's choice (log 7). -/
def Obligations.StepTakesFrontCommand : Prop :=
  (∀ (c : Instr) (cs : List Instr) (s : State), step { s with pending := c :: cs } = exec c { s with pending := cs }) ∧
  (∀ s : State, s.pending = [] → step s = .next s.idleTick)

/-- R10, R54, R87, R126: reset. Every field reads its reset value, CURRENT holds reset values, every sequencer is
idle and every queue empty, nothing is claimed, and the memories have their canonical form. The value of a field
whose reset the spec does not give is the model's choice (logs 4 to 6). -/
def Obligations.ResetState : Prop :=
  (∀ f is, State.reset.rd f is = f.reset is) ∧ (∀ f is, State.reset.cur f is = f.reset is) ∧ State.reset.mode = modeDormant
    ∧ State.reset.ctl.boot = .done ∧ State.reset.bit F.GLB_MODE_boot_done = true
    ∧ State.reset.bit F.GLB_MODE_busy = false ∧ (∀ i, i < 8 → State.reset.sliceState i = slDark)
    ∧ (∀ q, (State.reset.seq q).state = .idle) ∧ (∀ q, State.reset.queue q = Queue.empty)
    ∧ (∀ n, State.reset.claimed n = false) ∧ State.reset.vtg.commit = none ∧ State.reset.memWf = true
    ∧ State.reset.pending = []

/-- Every command of the table comes to a next state, whatever the state, and none touches the commands that wait
behind it. That the block stops on nothing is the model's form (log 1). -/
def Obligations.EveryCommandKeepsTheQueue : Prop :=
  (∀ (c : Instr) (s : State), ∃ t, exec c s = .next t ∧ t.pending = s.pending) ∧
  (∀ s : State, ∃ t, step s = .next t ∧ t.pending = s.pending.tail)

/-- The canonical form of every addressed memory (the instruction store, the loader's buffer, the cask, host memory,
the memory rows and the sequencers' scratch) is kept by every command and by every step. -/
def Obligations.MemoriesKeepTheirForm : Prop :=
  ∀ s t : State, s.memWf = true → ((∃ c, exec c s = .next t) ∨ step s = .next t) → t.memWf = true

/-- R77: whatever ends a program or resets its sequencer frees all its claims in the same step. -/
def Obligations.ClaimsEndWithTheProgram : Prop :=
  ∀ (c : Instr) (s t : State) (q : Nat), exec c s = .next t → q ∈ programSqs → (s.seq q).live = true →
    (t.seq q).live = false → ∀ n, t.holds q n = false

/-- R126, R133, R141, R143, R484: who changes which vintage. CURRENT and PREVIOUS change at a boundary, at power-up,
with a mirrored item or when a joined pair ends, and no commit, staging write or program changes them otherwise. -/
def Obligations.VintageIsolation : Prop :=
  ∀ (c : Instr) (s t : State), exec c s = .next t → resetCommand c = false →
    ((effectCommand c || twinCommand c || fabricCommand c) = false → (∀ r, c ≠ .powerUpComplete r) →
      t.vtg.current = s.vtg.current) ∧
    ((effectCommand c || twinCommand c || fabricCommand c) = false → t.vtg.previous = s.vtg.previous
      ∧ t.vtg.curDomain = s.vtg.curDomain) ∧
    ((∀ r, c ≠ .powerUpComplete r) → t.vtg.rescue = s.vtg.rescue) ∧
    (effectCommand c = false → c ≠ .mirror → t.vtg.archive = s.vtg.archive)

/-- R56, R64, R193, R353, R554 to R556: who changes what is stored. OTP and the cask survive every reset; a
programmed owner key stays; the instruction store, key slots, KEKs, host memory, the decoder pool, the frames of
channels and the calendars change by their own commands alone. -/
def Obligations.StorageIsolation : Prop :=
  ∀ (c : Instr) (s t : State), exec c s = .next t →
    (caskCommand c = false → t.cask = s.cask) ∧
    (∀ k, s.ctl.otpOwner = some k → t.ctl.otpOwner = some k) ∧
    ((∀ f v p k, c ≠ .otpProg f v p k) → t.ctl.otpOwner = s.ctl.otpOwner ∧ t.ctl.otpKcv = s.ctl.otpKcv
      ∧ t.cip.devKek = s.cip.devKek) ∧
    t.ctl.otpSerial = s.ctl.otpSerial ∧
    ((∀ d b, c ≠ .dmaPacketWrite d b) → (∀ h e, c ≠ .msgServiceGrant h e) → t.hif.hostMem = s.hif.hostMem) ∧
    (resetCommand c = false →
      ((loadCommand c || fabricCommand c) = false → t.exec.store = s.exec.store) ∧
      ((slotCommand c || twinCommand c || fabricCommand c) = false → t.cip.slots = s.cip.slots) ∧
      (fabricCommand c = false → (∀ f, c ≠ .kekLoad f) → (∀ f, c ≠ .kekErase f) → t.cip.keks = s.cip.keks) ∧
      ((poolCommand c || fabricCommand c) = false → t.pool = s.pool) ∧
      ((gfpCommand c || switchCommand c) = false → t.gfp = s.gfp) ∧
      (switchCommand c = false → t.calendars = s.calendars))

/-- R91 to R93: an instruction word is legal exactly where the tables define its fields, with every field at every
value; it is read with those fields, a long form with the word that follows; the program directory, an illegal word
and a program counter past the end of the store are as R93 says. -/
def Obligations.TsuileWordForms : Prop :=
  (∀ op a b c m, op < 64 → a < 16 → b < 16 → c < 16 → m < 64 →
    (legalWord (insWord op a b c m) = true ↔ TsuileForm op a b c m) ∧
    (∀ ext next, let i : Ins := ⟨insWord op a b c m, ext, next⟩
      i.op = op ∧ i.a = a ∧ i.b = b ∧ i.c = c ∧ i.m = m ∧ i.num = b * 16 + c ∧ i.stepNum = a * 256 + b * 16 + c
        ∧ (i.imm6.toInt = if m < 32 then (m : Int) else (m : Int) - 64)) ∧
    (∀ (s : State) (q : Fin 16), 0x2000 ≤ (s.seq q).pc.toNat → (s.storeWord (s.seq q).pc.toNat).toNat = insWord op a b c m →
      (s.memRead 4 (storeRow (s.seq q).pc.toNat)).1 = false →
      (TsuileForm op a b c m → ¬TsuileLong op m →
        (s.fetch q).1 = some ⟨insWord op a b c m, 0, (s.seq q).pc + 1⟩) ∧
      (TsuileForm op a b c m → TsuileLong op m → 0x2000 ≤ ((s.seq q).pc + 1).toNat →
        ((s.memRead 4 (storeRow (s.seq q).pc.toNat)).2.memRead 4 (storeRow ((s.seq q).pc + 1).toNat)).1 = false →
        (s.fetch q).1 = some ⟨insWord op a b c m, (s.storeWord ((s.seq q).pc + 1).toNat).toNat, (s.seq q).pc + 2⟩) ∧
      (¬TsuileForm op a b c m → (s.fetch q).1 = none))) ∧
  (∀ (s : State) (q : Fin 16), (s.seq q).pc.toNat < 0x2000 → (s.fetch q).1 = none) ∧
  (∀ (s : State) (q : Fin 16), 0x2000 ≤ (s.seq q).pc.toNat → tabGet none s.exec.store (s.seq q).pc.toNat = none →
    (s.memRead 4 (storeRow (s.seq q).pc.toNat)).1 = false → ∃ i, (s.fetch q).1 = some i ∧ i.op = 0)

/-- R40, R41, R54 to R56, R547, R549: the steps of power-up. A cold start and a fundamental reset restart it, keep
the cask and OTP, and leave every other register but those of R56 at its reset value; each later event moves it one
phase on. R54, R55, R552, R554: the cask is discovered and the bootstrap image decided: image 0 where it verifies,
else image 1, else there is no program set. Then calibration and RESCUE load and the device reaches DORMANT. -/
def Obligations.PowerUp : Prop :=
  (∀ s : State,
      (∀ st, ∃ t, exec (.coldStart st) s = .next t ∧ t.ctl.boot = .perst ∧ t.rd F.GLB_RST_CAUSE_cold = 1
        ∧ t.rd F.GLB_STRAP_oscdly = st.oscdly ∧ t.rd F.GLB_STRAP_role = st.role ∧ t.rd F.GLB_STRAP_twin_side = b2n st.twinSide
        ∧ t.rd F.GLB_STRAP_nopcie = b2n (st.noPcie && decide (st.role = 1)) ∧ t.ctl.tmode = st.tmode
        ∧ t.rd F.GLB_MODE_boot_done = 0 ∧ t.rd F.TIM_CLK_STAT_on_fallback = 1 ∧ t.mode = modeDormant
        ∧ t.seqs = [] ∧ t.queues = [] ∧ t.exec = Exec.reset ∧ t.cask = s.cask ∧ t.hif.hostMem = s.hif.hostMem
        ∧ t.ctl.otpOwner = s.ctl.otpOwner ∧ t.ctl.otpSerial = s.ctl.otpSerial ∧ t.pending = s.pending
        ∧ ∀ f is, fldKey f is ∉ keysOf (fuseFields ++ [(F.GLB_RST_CAUSE_cold, []), (F.GLB_STRAP_oscdly, []),
            (F.TIM_CLK_STAT_oscdly, []), (F.GLB_STRAP_role, []), (F.GLB_STRAP_twin_side, []), (F.PRY_TWIN_STAT_side, []),
            (F.GLB_STRAP_nopcie, []), (F.GLB_MODE_boot_done, []), (F.SEQ_PSET_ID_id, []), (F.TIM_CLK_STAT_hostclk_good, []),
            (F.TIM_CLK_STAT_on_fallback, [])]) → t.rd f is = f.reset is) ∧
      (∃ t, exec .vddaonLow s = .next t ∧ t.ctl.boot = .held ∧ t.rd F.GLB_MODE_boot_done = 0 ∧ t.mode = modeDormant
        ∧ t.rd F.TIM_CLK_STAT_on_fallback = 1 ∧ t.seqs = [] ∧ t.queues = [] ∧ t.exec = Exec.reset ∧ t.cask = s.cask
        ∧ t.hif.hostMem = s.hif.hostMem ∧ t.ctl.otpOwner = s.ctl.otpOwner ∧ t.ctl.otpSerial = s.ctl.otpSerial
        ∧ t.pending = s.pending
        ∧ ∀ f is, fldKey f is ∉ keysOf (fuseFields ++ [(F.GLB_MODE_boot_done, []), (F.SEQ_PSET_ID_id, []),
            (F.TIM_CLK_STAT_hostclk_good, []), (F.TIM_CLK_STAT_on_fallback, [])]) → t.rd f is = f.reset is) ∧
      (s.bit F.GLB_STRAP_nopcie = false → s.ctl.boot ≠ .held →
        ∃ t, exec .perstNAssert s = .next t ∧ t.ctl.boot = .perst ∧ t.rd F.GLB_RST_CAUSE_fund = 1
          ∧ t.rd F.GLB_MODE_boot_done = 0 ∧ t.rd F.TIM_CLK_STAT_on_fallback = 1 ∧ t.mode = modeDormant ∧ t.seqs = []
          ∧ t.exec.inFlight = s.exec.inFlight ∧ t.exec.store = [] ∧ t.queue 32 = s.queue 32
          ∧ (∀ q, q ≠ 32 → t.queue q = Queue.empty) ∧ t.tim.now = s.tim.now ∧ t.vtg.lastSerial = s.vtg.lastSerial
          ∧ t.cask = s.cask ∧ t.hif.hostMem = s.hif.hostMem ∧ t.ctl.otpOwner = s.ctl.otpOwner ∧ t.pending = s.pending
          ∧ ∀ f is, fldKey f is ∉ keysOf (alwaysOnFields ++ [(F.GLB_MODE_boot_done, []), (F.SEQ_PSET_ID_id, []),
              (F.TIM_CLK_STAT_hostclk_good, []), (F.TIM_CLK_STAT_on_fallback, [])]) → t.rd f is = f.reset is) ∧
      (s.bit F.GLB_STRAP_nopcie = true → exec .perstNAssert s = .next s) ∧
      (∀ st, s.ctl.boot = .perst → s.bit F.GLB_STRAP_nopcie = false →
        ∃ t, exec (.perstNDeassert st) s = .next t ∧ t.ctl = { s.ctl with boot := .oscdly, tmode := st.tmode }
          ∧ t.rd F.GLB_STRAP_oscdly = st.oscdly ∧ t.rd F.GLB_STRAP_role = st.role
          ∧ t.rd F.GLB_STRAP_twin_side = b2n st.twinSide ∧ t.rd F.GLB_STRAP_nopcie = b2n (st.noPcie && decide (st.role = 1))
          ∧ RegsExcept s t [(F.GLB_STRAP_oscdly, []), (F.TIM_CLK_STAT_oscdly, []), (F.GLB_STRAP_role, []),
              (F.GLB_STRAP_twin_side, []), (F.PRY_TWIN_STAT_side, []), (F.GLB_STRAP_nopcie, [])]
          ∧ ({ t with regs := s.regs, ctl := s.ctl } : State) = s) ∧
      (∀ st, s.ctl.boot = .perst → s.bit F.GLB_STRAP_nopcie = true →
        ∃ t, exec (.upReceiverFirstLock st) s = .next t ∧ t.ctl = { s.ctl with boot := .oscdly, tmode := st.tmode }
          ∧ t.rd F.GLB_STRAP_oscdly = st.oscdly ∧ t.rd F.GLB_STRAP_role = st.role
          ∧ RegsExcept s t [(F.GLB_STRAP_oscdly, []), (F.TIM_CLK_STAT_oscdly, []), (F.GLB_STRAP_role, []),
              (F.GLB_STRAP_twin_side, []), (F.PRY_TWIN_STAT_side, []), (F.GLB_STRAP_nopcie, [])]
          ∧ ({ t with regs := s.regs, ctl := s.ctl } : State) = s) ∧
      (s.ctl.boot = .oscdly →
        ∃ t, exec (.oscdlyExpiry true) s = .next t ∧ t.ctl = { s.ctl with boot := .mainLoop, hostClk := true }
          ∧ t.rd F.TIM_CLK_STAT_hostclk_good = 1 ∧ t.rd F.TIM_CLK_STAT_on_fallback = 0
          ∧ RegsExcept s t [(F.TIM_CLK_STAT_hostclk_good, []), (F.TIM_CLK_STAT_on_fallback, [])]
          ∧ ({ t with regs := s.regs, ctl := s.ctl } : State) = s) ∧
      (s.ctl.boot = .oscdly →
        ∃ t, exec (.oscdlyExpiry false) s = .next t ∧ t.ctl = { s.ctl with boot := .waitClock }
          ∧ t.rd F.TIM_CLK_STAT_hostclk_good = 0 ∧ RegsExcept s t [(F.TIM_CLK_STAT_hostclk_good, [])]
          ∧ ({ t with regs := s.regs, ctl := s.ctl } : State) = s) ∧
      (s.ctl.boot = .waitClock → exec .hostClockFound s = .next { s with ctl := { s.ctl with boot := .oscdly } }) ∧
      (s.ctl.boot = .mainLoop →
        ∃ t, exec .mainLoopLock s = .next t ∧ t.ctl = { s.ctl with boot := .image, powerDown := false }
          ∧ t.rd F.TIM_CLK_STAT_main_lock = b2n (!s.bit F.TIM_CLK_STAT_on_fallback)
          ∧ t.hif = { s.hif with linkUp := !s.bit F.TIM_CLK_STAT_on_fallback && !s.bit F.GLB_STRAP_nopcie }
          ∧ t.mon = { s.mon with vddDue := some (vddOf []), vddTry := 0 } ∧ RegsExcept s t [(F.TIM_CLK_STAT_main_lock, [])]
          ∧ ({ t with regs := s.regs, ctl := s.ctl, hif := s.hif, mon := s.mon } : State) = s)) ∧
  (∀ s : State,
      (∀ cask, s.ctl.boot = .image → ∃ t, exec (.bootstrapImageVerify cask) s = .next t
        ∧ t.ctl = { s.ctl with boot := .loading } ∧ t.rd F.GLB_CASK_STAT_present = b2n cask.isSome
        ∧ (t.bootGood 0 = true → t.rd F.GLB_MODE_boot_img = 0 ∧ t.rd F.SEQ_PSET_ID_id = t.bootWord 0 1 % 2 ^ 24
          ∧ ∀ j, j < t.bootWord 0 2 → tabGet none t.exec.store j = some (BitVec.ofNat 24 (t.bootWord 0 (3 + j))))
        ∧ (t.bootGood 0 = false → t.bootGood 1 = true → t.rd F.GLB_MODE_boot_img = 1
          ∧ t.rd F.SEQ_PSET_ID_id = t.bootWord 1 1 % 2 ^ 24
          ∧ ∀ j, j < t.bootWord 1 2 → tabGet none t.exec.store j = some (BitVec.ofNat 24 (t.bootWord 1 (3 + j))))
        ∧ (t.bootGood 0 = false → t.bootGood 1 = false → t.rd F.GLB_MODE_no_image = 1 ∧ t.rd F.GLB_MODE_boot_img = 1
          ∧ t.rd F.SEQ_PSET_ID_id = s.rd F.SEQ_PSET_ID_id ∧ t.exec = s.exec)
        ∧ RegsExcept s t [(F.GLB_CASK_STAT_present, []), (F.GLB_CASK_STAT_dtr, []), (F.GLB_CASK_STAT_size, []),
            (F.GLB_CASK_STAT_dir_bad, []), (F.GLB_MODE_boot_img, []), (F.GLB_MODE_no_image, []), (F.SEQ_PSET_ID_id, [])]
        ∧ ({ t with regs := s.regs, ctl := s.ctl, exec := s.exec, cel := s.cel } : State) = s) ∧
      (s.ctl.boot = .image → ∃ t, exec (.bootstrapImageVerify none) s = .next t ∧ t.rd F.GLB_CASK_STAT_present = 0
        ∧ t.rd F.GLB_MODE_no_image = 1 ∧ t.ctl.boot = .loading ∧ t.exec = s.exec) ∧
      (∀ rescue, s.ctl.boot = .loading → ∃ t, exec (.powerUpComplete rescue) s = .next t ∧ t.ctl.boot = .done
        ∧ t.ctl.powerDown = true ∧ t.rd F.TIM_CLK_STAT_main_lock = 0 ∧ t.rd F.GLB_MODE_boot_done = 1
        ∧ t.vtg.current = t.vtg.rescue ∧ t.vtg.staged = t.vtg.rescue
        ∧ (s.bit F.GLB_CASK_STAT_present = false → t.vtg.rescue = s.rescueImage none)
        ∧ (s.upClocked = true → t.rd F.PRY_PORT_STAT_pwr [1] = 1) ∧ t.cask = s.cask ∧ t.pending = s.pending))

/-- R532, R533, R136, R139: a control-complex reset stops every program sequencer, empties the queues, flushes the
crossings to the slices and applies CURRENT again, whose image STAGED takes, unless its rows cannot be read; an
expiry of the watchdog counts towards CC_LOOP, and in a judged probation starts the return. The restart ends the
reset. R57, R58: a side that enters reset flushes the crossing and counts what is in flight; REQ, its repeat and ACK
open it again. Nothing but the one crossing changes. -/
def Obligations.ControlComplexReset : Prop :=
  (∀ s : State,
      (∃ t, exec .ccResetCmd s = .next t ∧ t.vtg.staged = t.vtg.current ∧ t.vtg.current = s.vtg.current
        ∧ t.ctl.ccPending = true ∧ t.exec.session = false ∧ t.rd F.SEQ_EXEC_STAT_alive = 0 ∧ t.mode = s.mode
        ∧ (∀ q, 1 ≤ q → q < 16 → (t.seq q).state = .inReset)
        ∧ (∀ q, q < 41 → q ≠ 32 → q ≠ 34 → t.queue q = Queue.empty)
        ∧ (∀ x, x < 8 → (t.crossing x).flushed = true)) ∧
      (∀ w, ∃ t, exec (.ccWatchdogExpiry w) s = .next t ∧ t.vtg.staged = t.vtg.current ∧ t.vtg.current = s.vtg.current
        ∧ t.ctl.ccPending = true ∧ t.ctl.ccExpiries = (if w then min 3 (s.ctl.ccExpiries + 1) else 1)
        ∧ (∀ q, 1 ≤ q → q < 16 → (t.seq q).state = .inReset)
        ∧ (s.vtState = vtProbation → s.curBit F.VTG_PROB_CFG_wdog_en = true → s.bit F.VTG_STAT_prev_valid = true →
            Sound s 2 → t.vtState = vtReturning ∧ t.vtg.retCause = 4)) ∧
      (s.ctl.ccPending = true → s.ctl.ccLoop = false → s.ctl.rePrev = false → s.ctl.recoverRun = false →
        Sound s 0 →
        ∃ t, exec .executiveRestart s = .next t ∧ t.vtg.curValid = true ∧ t.ctl.ccPending = false
          ∧ t.rd F.GLB_RST_CAUSE_cc = 1 ∧ t.pends 0x04 = true ∧ t.mode = s.mode
          ∧ t.rd F.SEQ_EXEC_STAT_alive = b2n (decide (s.mode ≠ modeDormant))
          ∧ (∀ q, 1 ≤ q → q < 16 → (t.seq q).state ≠ .inReset)) ∧
      (s.ctl.ccPending = true → s.ctl.ccLoop = false → s.ctl.rePrev = false → s.ctl.recoverRun = false →
        s.exec.inFlight = [] → (s.vintRead 0).1 = true →
        ∃ t, exec .executiveRestart s = .next t ∧ t.vtg.curValid = false ∧ t.ctl.ccPending = false
          ∧ t.rd F.GLB_RST_CAUSE_cc = 1)) ∧
  (∀ (s : State) (x : Nat),
      (∀ b n, ∃ t, exec (.crossingReset x b n) s = .next t ∧ (t.crossing x).flushed = true
        ∧ (t.crossing x).drops = (s.crossing x).drops + n ∧ (b = true → (t.crossing x).bInReset = true)
        ∧ (b = false → (t.crossing x).aInReset = true) ∧ (∀ y, y ≠ x → t.crossing y = s.crossing y)
        ∧ ({ t with ctl := s.ctl } : State) = s) ∧
      ((s.crossing x).flushed = true → s.heldCrossing x = false →
        ∃ t, exec (.crossingReq x) s = .next t ∧ (t.crossing x).ackOut = true ∧ (t.crossing x).flushed = true
          ∧ (∀ y, y ≠ x → t.crossing y = s.crossing y) ∧ ({ t with ctl := s.ctl } : State) = s) ∧
      ((s.crossing x).flushed = true → (s.crossing x).ackOut = false → s.heldCrossing x = false →
        ∃ t, exec (.crossingReqResend x) s = .next t ∧ (t.crossing x).reqOut = true ∧ (t.crossing x).flushed = true
          ∧ (∀ y, y ≠ x → t.crossing y = s.crossing y) ∧ ({ t with ctl := s.ctl } : State) = s) ∧
      ((s.crossing x).flushed = true → (s.crossing x).ackOut = true →
        ∃ t, exec (.crossingAck x) s = .next t ∧ (t.crossing x).flushed = false
          ∧ (t.crossing x).drops = (s.crossing x).drops ∧ (∀ y, y ≠ x → t.crossing y = s.crossing y)
          ∧ ({ t with ctl := s.ctl } : State) = s))

/-- R31 to R33: a request for a mode that the table allows starts a transition, one made during a transition is
held, one for the mode in force changes nothing, and one that the table does not allow is refused with MODE_REFUSED.
R33, R85: a request for DORMANT on a device whose sequencers are idle and whose slices are DARK starts its
transition. R31, R33: the end of a transition makes its target the mode in force and the mode that it left prev;
busy clears. Stated for transitions from modes other than DORMANT and RECOVERY with no request held; into DORMANT
with every slice DARK and no program running, and before every slice is DARK nothing ends. -/
def Obligations.ModeRequests : Prop :=
  (∀ s : State,
      (∀ c v, (c, v) ∈ [(Instr.reqPrepare, modePrepare), (.reqService, modeService), (.reqShadow, modeShadow),
          (.reqProving, modeProving), (.reqPreviousMode, s.rd F.GLB_MODE_prev)] →
        s.bit F.GLB_MODE_busy = false → v ≠ s.mode → v ≠ modeDormant → v ≠ modeRecovery → v < 8 → s.modeAllowed v = true →
        ∃ t, exec c s = .next t ∧ t.bit F.GLB_MODE_busy = true ∧ t.ctl = { s.ctl with transTo := some v }
          ∧ t.rd F.GLB_MODE_req = v ∧ t.mode = s.mode ∧ RegsExcept s t [(F.GLB_MODE_busy, []), (F.GLB_MODE_req, [])]
          ∧ ({ t with regs := s.regs, ctl := s.ctl } : State) = s) ∧
      (∀ c v, (c, v) ∈ [(Instr.reqDormant, modeDormant), (.reqPrepare, modePrepare), (.reqService, modeService),
          (.reqShadow, modeShadow), (.reqProving, modeProving), (.reqRecovery, modeRecovery),
          (.reqPreviousMode, s.rd F.GLB_MODE_prev)] → v < 8 →
        (s.bit F.GLB_MODE_busy = true →
          ∃ t, exec c s = .next t ∧ t.ctl = { s.ctl with heldReq := true } ∧ t.rd F.GLB_MODE_req = v ∧ t.mode = s.mode
            ∧ RegsExcept s t [(F.GLB_MODE_req, [])] ∧ ({ t with regs := s.regs, ctl := s.ctl } : State) = s) ∧
        (s.bit F.GLB_MODE_busy = false → v = s.mode → v ≠ modeRecovery →
          ∃ t, exec c s = .next t ∧ t.rd F.GLB_MODE_req = v ∧ t.mode = s.mode ∧ RegsExcept s t [(F.GLB_MODE_req, [])]
            ∧ t.noRegs = s.noRegs) ∧
        (s.bit F.GLB_MODE_busy = false → (v = modeRecovery ∨ v ≠ s.mode ∧ s.modeAllowed v = false) → s.mode < 8 →
          ∃ t, exec c s = .next t ∧ t.rd F.GLB_MODE_refused = 1 ∧ t.rd F.GLB_MODE_req = s.mode ∧ t.mode = s.mode
            ∧ t.pends 0x03 = true ∧ t.noEvents = s.noEvents
            ∧ RegsExceptE s t [(F.GLB_MODE_req, []), (F.GLB_MODE_refused, [])]))) ∧
  (∀ s : State, s.bit F.GLB_MODE_busy = false → s.mode ≠ modeDormant → s.modeAllowed modeDormant = true →
      (∀ q, q < 16 → (s.seq q).live = false) → (∀ i, i < 8 → s.sliceState i = slDark) →
      ∃ t, exec .reqDormant s = .next t ∧ t.bit F.GLB_MODE_busy = true ∧ t.ctl = { s.ctl with transTo := some modeDormant }
        ∧ t.mode = s.mode ∧ (∀ i, i < 8 → t.bit F.GLB_SLICE_STAT_wake_pending [i] = false)
        ∧ RegsExcept s t ([(F.GLB_MODE_busy, []), (F.GLB_MODE_req, [])]
            ++ slices8.map fun i => (F.GLB_SLICE_STAT_wake_pending, [i]))
        ∧ ({ t with regs := s.regs, ctl := s.ctl } : State) = s) ∧
  (∀ (s : State) (v : Nat), s.ctl.transTo = some v → s.ctl.heldReq = false → s.mode ≠ modeDormant → s.mode ≠ modeRecovery →
      s.mode < 8 →
      (v < 8 → v ≠ modeDormant →
        ∃ t, exec .modeTransitionEnd s = .next t ∧ t.mode = v ∧ t.rd F.GLB_MODE_prev = s.mode ∧ t.rd F.GLB_MODE_req = v
          ∧ t.bit F.GLB_MODE_busy = false ∧ t.ctl.transTo = none ∧ t.vtg = s.vtg ∧ t.exec = s.exec
          ∧ ∀ q, (t.seq q).state = (s.seq q).state) ∧
      (v = modeDormant → (∀ q, q < 16 → (s.seq q).live = false) → (∀ i, i < 8 → s.sliceState i = slDark) →
        ∃ t, exec .modeTransitionEnd s = .next t ∧ t.mode = modeDormant ∧ t.rd F.GLB_MODE_prev = s.mode
          ∧ t.bit F.GLB_MODE_busy = false ∧ t.rd F.SEQ_EXEC_STAT_alive = 0 ∧ t.rd F.TIM_CLK_STAT_main_lock = 0
          ∧ t.ctl.transTo = none ∧ t.vtg = s.vtg) ∧
      (v = modeDormant → (∃ i, i < 8 ∧ s.sliceState i ≠ slDark) → exec .modeTransitionEnd s = .next s))

/-- R46, R47, R50, R44: the loss and the return of the host clock, and the release of NMI_N. -/
def Obligations.HostClock : Prop :=
  ∀ s : State,
    (s.bit F.TIM_CLK_STAT_main_lock = true →
      ∃ t, exec .hostclkCoast s = .next t ∧ t.rd F.TIM_CLK_STAT_main_coast = 1 ∧ t.rd F.TIM_CLK_STAT_main_lock = 0
        ∧ t.ctl = { s.ctl with hostClk := false }
        ∧ RegsExcept s t [(F.TIM_CLK_STAT_main_coast, []), (F.TIM_CLK_STAT_main_lock, [])]
        ∧ ({ t with regs := s.regs, ctl := s.ctl } : State) = s) ∧
    (s.ctl.boot = .done → s.mode = modeDormant → s.bit F.TIM_CLK_STAT_on_fallback = false → s.bit F.GLB_MODE_busy = false →
      ∃ t, exec .hostclkFailDeclare s = .next t ∧ t.ctl = { s.ctl with nmi := true, hostClk := false }
        ∧ t.rd F.TIM_CLK_STAT_on_fallback = 1 ∧ t.rd F.TIM_CLK_STAT_hostclk_fail = 1 ∧ t.rd F.TIM_CLK_STAT_main_lock = 0
        ∧ t.hif.linkUp = false ∧ t.mode = modeDormant ∧ t.pends 0x00 = true
        ∧ RegsExceptE s t ([(F.TIM_CLK_STAT_hostclk_fail, []), (F.TIM_CLK_STAT_on_fallback, []),
            (F.TIM_CLK_STAT_hostclk_good, []), (F.TIM_CLK_STAT_main_lock, [])]
            ++ candidates.map fun n => (F.TIM_CAND_OFF_off, [n]))
        ∧ ({ t.noEvents with ctl := s.ctl } : State) = s.noEvents) ∧
    (s.ctl.boot = .done → s.mode ≠ modeDormant → s.mode ≠ modeRecovery → s.bit F.TIM_CLK_STAT_on_fallback = false →
      ∃ t, exec .hostclkFailDeclare s = .next t ∧ t.ctl.nmi = true ∧ t.mode = modeRecovery ∧ t.hif.linkUp = false
        ∧ t.rd F.GLB_REC_STAT_cause = 1 ∧ t.rd F.TIM_CLK_STAT_on_fallback = 1 ∧ t.pends 0x01 = true) ∧
    (s.ctl.boot = .done → s.bit F.TIM_CLK_STAT_on_fallback = true →
      ∃ t, exec .hostclkReturn s = .next t ∧ t.rd F.TIM_CLK_STAT_on_fallback = 0 ∧ t.rd F.TIM_CLK_STAT_hostclk_good = 1
        ∧ 1 ∉ t.ctl.faultsOpen ∧ t.ctl.nmi = s.ctl.nmi ∧ t.ctl.hostClk = true
        ∧ t.hif.linkUp = (!s.bit F.GLB_STRAP_nopcie) ∧ t.vtg = s.vtg ∧ t.seqs = s.seqs ∧ t.exec = s.exec
        ∧ RegsExcept s t [(F.TIM_CLK_STAT_on_fallback, []), (F.TIM_CLK_STAT_hostclk_good, []), (F.TIM_CLK_STAT_main_lock, [])]) ∧
    (∃ t, exec .hostclkFailClear s = .next t ∧ t.rd F.TIM_CLK_STAT_hostclk_fail = 0 ∧ t.ctl = { s.ctl with nmi := false }
      ∧ RegsExcept s t [(F.TIM_CLK_STAT_hostclk_fail, [])]
      ∧ ({ t with regs := s.regs, ctl := s.ctl } : State) = s) ∧
    (exec .sscPeriodEnd s = .next { s with ctl := { s.ctl with
      sscNow := (s.rd F.TIM_CLK_SSC_en, s.rd F.TIM_CLK_SSC_depth, s.rd F.TIM_CLK_SSC_rate) } })

/-- R538 to R541, R534, R49: a THERMAL fault outside DORMANT and RECOVERY drains every LIT slice, enters RECOVERY
and raises RECOVERY_ENTER; clearing it, the restart by the device, the end of giving up, and the host's silence. -/
def Obligations.Recovery : Prop :=
  ∀ s : State,
    (s.mode ≠ modeDormant → s.mode ≠ modeRecovery →
      ∃ t, exec .thermalFault s = .next t ∧ t.mode = modeRecovery ∧ t.rd F.GLB_REC_STAT_cause = 4 ∧ t.pends 0x01 = true
        ∧ t.bit F.GLB_MODE_busy = false ∧ 4 ∈ t.ctl.faultsOpen ∧ ∀ i, i < 8 → t.sliceState i ≠ slLit) ∧
    (∃ t, exec .thermalClear s = .next t ∧ (∀ c, c ∈ t.ctl.faultsOpen ↔ c ∈ s.ctl.faultsOpen ∧ c ≠ 4)
      ∧ ({ t with ctl := s.ctl } : State) = s) ∧
    (∀ aged, s.mode = modeRecovery → s.bit F.GLB_MODE_busy = false → s.ctl.faultsOpen = [] → s.ctl.recoverWord = none →
      s.ctl.recoverRun = false → s.bit F.GLB_REC_STAT_given_up = false → s.rd F.GLB_REC_CFG_delay ≠ 0 →
      (s.ctl.restarts - aged < max 1 (s.rd F.GLB_REC_CFG_max) →
        ∃ t, exec (.recoveryRestart aged) s = .next t
          ∧ t.ctl = { s.ctl with recoverWord := some (s.rd F.GLB_REC_CFG_policy), restarts := s.ctl.restarts - aged + 1 }
          ∧ ({ t with ctl := s.ctl } : State) = s) ∧
      (max 1 (s.rd F.GLB_REC_CFG_max) ≤ s.ctl.restarts - aged →
        ∃ t, exec (.recoveryRestart aged) s = .next t ∧ t.rd F.GLB_REC_STAT_given_up = 1
          ∧ t.ctl = { s.ctl with restarts := s.ctl.restarts - aged }
          ∧ RegsExcept s t [(F.GLB_REC_STAT_given_up, [])]
          ∧ ({ t with regs := s.regs, ctl := s.ctl } : State) = s)) ∧
    (∃ t, exec .givenUpClear s = .next t ∧ t.rd F.GLB_REC_STAT_given_up = 0 ∧ t.ctl = { s.ctl with restarts := 0 }
      ∧ RegsExcept s t [(F.GLB_REC_STAT_given_up, [])]
      ∧ ({ t with regs := s.regs, ctl := s.ctl } : State) = s) ∧
    (s.bit F.GLB_HOST_STAT_unatt = false →
      ∃ t, exec .hostSilenceExpiry s = .next t ∧ t.bit F.GLB_HOST_STAT_unatt = true ∧ t.pends 0x06 = true
        ∧ RegsExceptE s t [(F.GLB_HOST_STAT_unatt, [])] ∧ t.noEvents = s.noEvents) ∧
    (s.bit F.GLB_HOST_STAT_unatt = true →
      ∃ t, exec .hostActivity s = .next t ∧ t.bit F.GLB_HOST_STAT_unatt = false ∧ t.pends 0x06 = true
        ∧ RegsExceptE s t [(F.GLB_HOST_STAT_unatt, [])] ∧ t.noEvents = s.noEvents)

/-- R34, R35, R37, R38, R180: a held enable wakes a DARK slice; the steps of WAKING run in the order of the table,
the last one kept by a converter check that fails; a drain ends in DARK once nothing of the slice is left. The order
of the steps is R35's; that a command names the step that ended is the model's form (log 9). R35, R39, R577: the
ends of WAKING: LIT with its checks passed; after 5 ms wake_fail, SLICE_WAKE_FAIL and a drain. -/
def Obligations.SliceStates : Prop :=
  (∀ (s : State) (i : Fin 8),
      (s.bit F.GLB_SLICE_STAT_wake_pending [i] = true → s.sliceState i = slDark → s.enabled i = true → s.wakeMode = true →
        ∃ t, exec (.sliceEnableHeldWake i) s = .next t ∧ t.sliceState i = slWaking
          ∧ t.rd F.GLB_SLICE_STAT_wake_step [i] = 1 ∧ t.bit F.GLB_SLICE_STAT_wake_pending [i] = false
          ∧ RegsExcept s t [(F.GLB_SLICE_STAT_state, [i]), (F.GLB_SLICE_STAT_wake_pending, [i]),
              (F.GLB_SLICE_STAT_wake_step, [i])] ∧ t.noRegs = s.noRegs) ∧
      (∀ w n, (w, n) ∈ [(WakeStep.powerRamp, 1), (.synthLock, 2)] → s.sliceState i = slWaking →
        s.rd F.GLB_SLICE_STAT_wake_step [i] = n →
        ∃ t, exec (.wakingComplete i w) s = .next t ∧ t.rd F.GLB_SLICE_STAT_wake_step [i] = n + 1
          ∧ t.sliceState i = slWaking ∧ RegsExcept s t [(F.GLB_SLICE_STAT_wake_step, [i])] ∧ t.noRegs = s.noRegs) ∧
      (s.sliceState i = slWaking → s.rd F.GLB_SLICE_STAT_wake_step [i] = 3 →
        ∃ t, exec (.wakingComplete i .trimLoad) s = .next t ∧ t.rd F.GLB_SLICE_STAT_wake_step [i] = 4
          ∧ t.sliceState i = slWaking ∧ t.vtg = s.vtg ∧ t.seqs = s.seqs) ∧
      (∀ bad, s.sliceState i = slWaking → s.rd F.GLB_SLICE_STAT_wake_step [i] = 4 →
        ([0, 1, 2, 3].all fun a => s.checkPasses i bad a) = false →
        ∃ t, exec (.wakingComplete i (.converterCheck bad)) s = .next t ∧ t.rd F.GLB_SLICE_STAT_wake_step [i] = 4
          ∧ t.sliceState i = slWaking
          ∧ RegsExcept s t ([0, 1, 2, 3].flatMap fun a =>
              [(F.CNV_ADC_STAT_spare_used, [i.val, a]), (F.CNV_ADC_STAT_failed_slice, [i.val, a])])
          ∧ t.noRegs = s.noRegs) ∧
      (∀ w : WakeStep, s.sliceState i = slWaking → s.rd F.GLB_SLICE_STAT_wake_step [i] ≠ w.code →
        exec (.wakingComplete i w) s = .next s) ∧
      (∀ us, s.sliceState i = slDraining →
        (tabGet false s.ctl.drainShort i = true ∨ s.poolHolds i = false ∧ (s.tx1 i).amp = 0) →
        ∃ t, exec (.drainComplete i us) s = .next t ∧ t.sliceState i = slDark
          ∧ t.rd F.GLB_SLICE_STAT_last_drain [i] = us.toNat
          ∧ (t.tdl1 i).sending = none
          ∧ RegsExcept s t [(F.GLB_SLICE_STAT_state, [i]), (F.GLB_SLICE_STAT_last_drain, [i]), (F.TDL_MB_TX_CMD_busy, [i]),
              (F.TDL_RX_STAT_rx, [i]), (F.TDL_PROP_STAT_held, [i])]
          ∧ ({ t with regs := s.regs, tx := s.tx, tdl := s.tdl, lfr := s.lfr, ctl := s.ctl } : State) = s)) ∧
  (∀ (s : State) (i : Fin 8), s.sliceState i = slWaking →
      (∀ bad, s.rd F.GLB_SLICE_STAT_wake_step [i] = 4 → ([0, 1, 2, 3].all fun a => s.checkPasses i bad a) = true →
        ∃ t, exec (.wakingComplete i (.converterCheck bad)) s = .next t ∧ t.sliceState i = slLit
          ∧ t.rd F.GLB_SLICE_STAT_wake_step [i] = 0 ∧ t.rd F.LFR_TX_SFC_count [i] = 0 ∧ t.acq i = acqSignal) ∧
      (∃ t, exec (.wakeTimeout i) s = .next t ∧ t.sliceState i = slDraining ∧ t.rd F.GLB_SLICE_STAT_wake_fail [i] = 1
        ∧ t.rd F.GLB_SLICE_STAT_wake_step [i] = 0 ∧ t.pends 0x0B = true ∧ t.mode = s.mode))

/-- R535 to R537, R57: resets of a slice's datapath and its crossing, the end of its hold, stalls, the supervisor of
the shared stages, and gates (R52). -/
def Obligations.DatapathFaults : Prop :=
  ∀ s : State,
    (∀ i : Fin 8, s.lit i = true →
      ∃ t, exec (.sliceResetCmd i) s = .next t ∧ t.rd F.TXD_STAT_muted [i] = 1 ∧ (t.tx1 i).amp = 0
        ∧ t.rd F.GLB_RST_CAUSE_slice = 1 ∧ (t.crossing i).flushed = true ∧ t.poolHolds i = false
        ∧ t.rd F.FEC_STAT_sync [i] = 0 ∧ t.rd F.LFR_STAT_state [i] = 0
        ∧ (s.bit F.TIM_CLK_STAT_on_fallback = false → s.acq i ≠ acqIdle → t.acq i = acqSignal)) ∧
    (∀ i : Fin 8, s.lit i = false →
      ∃ t, exec (.sliceResetCmd i) s = .next t ∧ t.rd F.GLB_RST_CMD_sel = i ∧ RegsExcept s t [(F.GLB_RST_CMD_sel, [])]
        ∧ t.noRegs = s.noRegs) ∧
    (∀ i : Fin 8, s.held i = true → s.lit i = true →
      ∃ t, exec (.dpSliceHoldEnd i) s = .next t ∧ t.rd F.TXD_STAT_muted [i] = 1 ∧ (t.tx1 i).amp = 0 ∧ t.held i = false
        ∧ t.poolHolds i = false ∧ t.rd F.FEC_STAT_sync [i] = 0) ∧
    (∀ i : Fin 8, s.watched i = true → tabGet 0 s.ctl.sliceFires i = 2 →
      ∃ t, exec (.framePulseWatchdog i true) s = .next t ∧ t.held i = true ∧ t.pends 0x09 = true ∧ (t.tx1 i).amp = 0
        ∧ t.rd F.GLB_RST_CAUSE_slice = 1 ∧ tabGet 0 t.ctl.sliceFires i = 0) ∧
    (∀ i : Fin 8, s.watched i = true →
      ∃ t, exec (.framePulseWatchdog i false) s = .next t ∧ t.held i = false ∧ tabGet 0 t.ctl.sliceFires i = 1
        ∧ (t.tx1 i).amp = 0 ∧ t.rd F.TXD_STAT_muted [i] = 1) ∧
    (∀ (i : Fin 8) (b : Fin 16) stage, 2 ≤ b.val → b.val ≤ 10 →
      ∃ t, exec (.dpStall b i stage) s = .next t ∧ t.rd F.GLB_DP_STAT_stalls = min 4095 (s.rd F.GLB_DP_STAT_stalls + 1)
        ∧ t.pends 0x08 = true
        ∧ (b.val < 8 → RegsExceptE s t [(F.GLB_DP_STAT_stalls, [])]
            ∧ ({ t.noEvents with lfr := s.lfr } : State) = s.noEvents)
        ∧ (b.val = 2 ∨ b.val = 3 ∨ b.val = 5 ∨ b.val = 7 →
            (t.lfr1 i).window = (s.lfr1 i).window.map fun e => (e.1, true))) ∧
    (∀ b : Fin 16, sharedStage b = true → s.mode ≠ modeDormant →
      ∃ t, exec (.sharedStageWatchdog b false) s = .next t ∧ t.ctl.sharedResets = 1 ∧ t.pends 0x0A = true
        ∧ t.rd F.GLB_DP_STAT_shared = min 255 (s.rd F.GLB_DP_STAT_shared + 1) ∧ t.mode = s.mode) ∧
    (∀ (b : Fin 16) busy, ∃ t, exec (.gateCloseRequest b busy) s = .next t
      ∧ (busy = false → t.gate b = ⟨false, true⟩) ∧ (busy = true → t.gate b = ⟨true, (s.gate b).closed⟩)
      ∧ (∀ c, c ≠ b.val → t.gate c = s.gate c) ∧ ({ t with ctl := s.ctl } : State) = s)

/-- R88, R89, R100, R101: sums and differences modulo 2^24 with Z, N, C and V. CMP and CMPI write no register; no
other flag changes. -/
def Obligations.TsuileSums : Prop :=
  ∀ (s : State) (q : Fin 16) (i : Ins), Fetches s q i →
    let x := s.seq q
    (∀ c v, (c, i.op, v) ∈ [(Instr.add q, 0x01, x.reg i.c), (.addi q, 0x02, i.imm6)] →
      ∃ t, exec c s = .next t ∧ (t.seq q).reg i.a = x.reg i.b + v ∧ (t.seq q).pc = i.next
        ∧ (t.seq q).z = decide (x.reg i.b + v = 0) ∧ (t.seq q).n = (x.reg i.b + v).msb
        ∧ ((t.seq q).c = true ↔ 2 ^ 24 ≤ (x.reg i.b).toNat + v.toNat)
        ∧ ((t.seq q).v = true ↔ (x.reg i.b).toInt + v.toInt ≠ (x.reg i.b + v).toInt)
        ∧ (t.seq q).t = x.t ∧ RegsBut x (t.seq q) i.a ∧ x.SameBut (t.seq q) ∧ SeqFrame s t q) ∧
    (∀ c v, (c, i.op, v) ∈ [(Instr.sub q, 0x03, x.reg i.c), (.subi q, 0x04, i.imm6)] →
      ∃ t, exec c s = .next t ∧ (t.seq q).reg i.a = x.reg i.b - v ∧ (t.seq q).pc = i.next
        ∧ (t.seq q).z = decide (x.reg i.b - v = 0) ∧ (t.seq q).n = (x.reg i.b - v).msb
        ∧ ((t.seq q).c = true ↔ (x.reg i.b).toNat < v.toNat)
        ∧ ((t.seq q).v = true ↔ (x.reg i.b).toInt - v.toInt ≠ (x.reg i.b - v).toInt)
        ∧ (t.seq q).t = x.t ∧ RegsBut x (t.seq q) i.a ∧ x.SameBut (t.seq q) ∧ SeqFrame s t q) ∧
    (∀ c v, (c, i.op, v) ∈ [(Instr.cmp q, 0x0F, x.reg i.c), (.cmpi q, 0x10, i.imm6)] →
      ∃ t, exec c s = .next t ∧ (t.seq q).w = x.w ∧ (t.seq q).pc = i.next
        ∧ (t.seq q).z = decide (x.reg i.b - v = 0) ∧ (t.seq q).n = (x.reg i.b - v).msb
        ∧ ((t.seq q).c = true ↔ (x.reg i.b).toNat < v.toNat)
        ∧ ((t.seq q).v = true ↔ (x.reg i.b).toInt - v.toInt ≠ (x.reg i.b - v).toInt)
        ∧ (t.seq q).t = x.t ∧ x.SameBut (t.seq q) ∧ SeqFrame s t q)

/-- R89, R100: products, logic, minimum and maximum set Z and N from the result and change no other flag. -/
def Obligations.TsuileLogic : Prop :=
  ∀ (s : State) (q : Fin 16) (i : Ins), Fetches s q i →
    let x := s.seq q
    let u := x.reg i.b
    let v := x.reg i.c
    ∀ c r, (c, i.op, r) ∈ [(Instr.and q, 0x07, u &&& v), (.or q, 0x08, u ||| v), (.xor q, 0x09, u ^^^ v), (.not q, 0x0A, ~~~u),
        (.mull q, 0x05, u * v), (.mulh q, 0x06,
          if i.mBit 0 then (u.signExtend 48 * v.signExtend 48).extractLsb' 24 24
          else (u.setWidth 48 * v.setWidth 48).extractLsb' 24 24),
        (.min q, 0x11, if i.mBit 0 then (if u.toInt ≤ v.toInt then u else v) else (if u.toNat ≤ v.toNat then u else v)),
        (.max q, 0x12, if i.mBit 0 then (if u.toInt ≤ v.toInt then v else u) else (if u.toNat ≤ v.toNat then v else u))] →
      ∃ t, exec c s = .next t ∧ (t.seq q).reg i.a = r ∧ (t.seq q).pc = i.next ∧ (t.seq q).z = decide (r = 0)
        ∧ (t.seq q).n = r.msb ∧ (t.seq q).c = x.c ∧ (t.seq q).v = x.v ∧ (t.seq q).t = x.t
        ∧ RegsBut x (t.seq q) i.a ∧ x.SameBut (t.seq q) ∧ SeqFrame s t q

/-- R102: the shift amount is m[4:0] or Wc[4:0]; 0 leaves Wb and C, up to 24 C is the last bit shifted out, and
beyond that SHL and SHR give 0 with C clear, SAR copies of bit 23 with C equal to it. ROT changes Z and N alone. -/
def Obligations.TsuileShifts : Prop :=
  ∀ (s : State) (q : Fin 16) (i : Ins), Fetches s q i →
    let x := s.seq q
    let u := x.reg i.b
    let n := if i.mBit 5 then (x.reg i.c).toNat % 32 else i.w % 32
    ∀ c r k, (c, i.op, r, k) ∈
        [(Instr.shl q, 0x0B, u <<< n, if n = 0 then x.c else decide (n ≤ 24) && u.getLsbD (24 - n)),
         (.shr q, 0x0C, u >>> n, if n = 0 then x.c else u.getLsbD (n - 1)),
         (.sar q, 0x0D, u.sshiftRight n, if n = 0 then x.c else if n ≤ 24 then u.getLsbD (n - 1) else u.msb),
         (.rot q, 0x0E, u.rotateLeft n, x.c)] →
      ∃ t, exec c s = .next t ∧ (t.seq q).reg i.a = r ∧ (t.seq q).c = k ∧ (t.seq q).z = decide (r = 0)
        ∧ (t.seq q).n = r.msb ∧ (t.seq q).v = x.v ∧ (t.seq q).t = x.t ∧ (t.seq q).pc = i.next
        ∧ RegsBut x (t.seq q) i.a ∧ x.SameBut (t.seq q) ∧ SeqFrame s t q

/-- R90, R103: moves and local memory change no flag. A local address above 0x3FFF ends the program with SCRATCH, a
packet word that has not arrived blocks, a poisoned row ends LDL. -/
def Obligations.TsuileMoves : Prop :=
  ∀ (s : State) (q : Fin 16) (i : Ins), Fetches s q i →
    let x := s.seq q
    let a := ((x.reg i.b).toNat + i.m) % 2 ^ 24
    (∀ c v, (c, i.op, v) ∈ [(Instr.mov q, 0x13, x.reg i.b), (.ldi q, 0x14, BitVec.ofNat 24 i.ext)] →
      ∃ t, exec c s = .next t ∧ (t.seq q).reg i.a = v ∧ (t.seq q).pc = i.next
        ∧ (t.seq q).z = x.z ∧ (t.seq q).n = x.n ∧ (t.seq q).c = x.c ∧ (t.seq q).v = x.v ∧ (t.seq q).t = x.t
        ∧ RegsBut x (t.seq q) i.a ∧ x.SameBut (t.seq q) ∧ SeqFrame s t q) ∧
    (i.op = 0x15 → a ≤ 0x3FFF → x.arrivedAt a = true → ((atIssue s q).memRead 5 (scratchRow q a)).1 = false →
      ∃ t, exec (.ldl q) s = .next t ∧ (t.seq q).reg i.a = x.mem a ∧ (t.seq q).pc = i.next
        ∧ (t.seq q).z = x.z ∧ (t.seq q).n = x.n ∧ (t.seq q).c = x.c ∧ (t.seq q).v = x.v ∧ (t.seq q).t = x.t
        ∧ RegsBut x (t.seq q) i.a ∧ x.SameBut (t.seq q) ∧ SeqFrame s t q) ∧
    (i.op = 0x15 → a ≤ 0x3FFF → x.arrivedAt a = true → ((atIssue s q).memRead 5 (scratchRow q a)).1 = true →
      s.ctl.recoverRun = false → ∃ t, exec (.ldl q) s = .next t ∧ EndedBy s t q stFault 6) ∧
    (i.op = 0x16 → a ≤ 0x3FFF → x.arrivedAt a = true → ((atIssue s q).memWrite 5 (scratchRow q a) false).1 = true →
      ∃ t, exec (.stl q) s = .next t ∧ (t.seq q).mem a = x.reg i.a ∧ (∀ b, b ≠ a → (t.seq q).mem b = x.mem b)
        ∧ (t.seq q).w = x.w ∧ (t.seq q).pc = i.next ∧ SeqFrame s t q) ∧
    ((i.op = 0x15 ∨ i.op = 0x16) → a ≤ 0x3FFF → x.arrivedAt a = false →
      ∃ t, exec (if i.op = 0x15 then .ldl q else .stl q) s = .next t ∧ (t.seq q).state = .blocked ∧ (t.seq q).pc = x.pc
        ∧ (t.seq q).w = x.w ∧ (t.seq q).scratch = x.scratch ∧ SeqFrame s t q) ∧
    ((i.op = 0x15 ∨ i.op = 0x16) → 0x3FFF < a → s.ctl.recoverRun = false →
      ∃ t, exec (if i.op = 0x15 then .ldl q else .stl q) s = .next t ∧ EndedBy s t q stFault 6)

/-- R108, R93: branches count from the word after the branch, modulo 2^19; BT clears T when taken, CALL saves the
return address in W15, RET jumps to Wb[18:0], LOOP counts Wa down. No flow instruction changes another flag. -/
def Obligations.TsuileFlow : Prop :=
  ∀ (s : State) (q : Fin 16) (i : Ins), Fetches s q i →
    let x := s.seq q
    let to18 := i.next + (BitVec.ofNat 18 (i.w % 2 ^ 18)).signExtend 19
    (∀ c b, (c, i.op, b) ∈ [(Instr.br q, 0x20, true), (.bz q, 0x21, x.z), (.bnz q, 0x22, !x.z), (.bn q, 0x23, x.n),
        (.bc q, 0x24, x.c)] →
      ∃ t, exec c s = .next t ∧ (t.seq q).pc = (if b then to18 else i.next) ∧ (t.seq q).w = x.w
        ∧ (t.seq q).z = x.z ∧ (t.seq q).n = x.n ∧ (t.seq q).c = x.c ∧ (t.seq q).v = x.v ∧ (t.seq q).t = x.t
        ∧ x.SameBut (t.seq q) ∧ SeqFrame s t q) ∧
    (i.op = 0x25 → ∃ t, exec (.bt q) s = .next t ∧ (t.seq q).pc = (if x.t then to18 else i.next) ∧ (t.seq q).t = false
      ∧ (t.seq q).w = x.w ∧ (t.seq q).z = x.z ∧ (t.seq q).n = x.n ∧ (t.seq q).c = x.c ∧ (t.seq q).v = x.v
      ∧ SeqFrame s t q) ∧
    (i.op = 0x26 → ∃ t, exec (.call q) s = .next t ∧ (t.seq q).pc = to18 ∧ ((t.seq q).reg 15).toNat = i.next.toNat
      ∧ RegsBut x (t.seq q) 15 ∧ (t.seq q).t = x.t ∧ x.SameBut (t.seq q) ∧ SeqFrame s t q) ∧
    (i.op = 0x27 → ∃ t, exec (.ret q) s = .next t ∧ (t.seq q).pc.toNat = (x.reg i.b).toNat % 2 ^ 19 ∧ (t.seq q).w = x.w
      ∧ (t.seq q).t = x.t ∧ x.SameBut (t.seq q) ∧ SeqFrame s t q) ∧
    (i.op = 0x28 → ∃ t, exec (.loop q) s = .next t ∧ (t.seq q).reg i.a = x.reg i.a - 1
      ∧ (t.seq q).pc = (if x.reg i.a = 1 then i.next else i.next + (BitVec.ofNat 14 (i.w % 2 ^ 14)).signExtend 19)
      ∧ RegsBut x (t.seq q) i.a ∧ (t.seq q).z = x.z ∧ (t.seq q).c = x.c ∧ (t.seq q).t = x.t ∧ x.SameBut (t.seq q)
      ∧ SeqFrame s t q)

/-- R77, R79, R81, R83, R92, R93, R108, R109: the ends of a program by its own instruction: TRAP, an illegal word,
HALT, and DONE once its result words have arrived, which its response carries. Each frees every claim and leaves its
outcome record. R97: a T-check instruction that starts with T = 1 does not execute: the program ends. -/
def Obligations.TsuileEnds : Prop :=
  (∀ (s : State) (q : Fin 16), (s.seq q).state = .running → s.ctl.recoverRun = false →
      (∀ i, (s.fetch q).1 = some i →
        let x := s.seq q
        let a := (x.reg i.b).toNat
        (i.op = 0x00 → ∃ t, exec (.trap q) s = .next t ∧ EndedBy s t q stFault 1 ∧ t.vtg = s.vtg) ∧
        (i.op = 0x29 → x.t = false → ∃ t, exec (.halt q) s = .next t ∧ EndedBy s t q stComplete 0 ∧ t.vtg = s.vtg) ∧
        (∀ ws u, i.op = 0x3A → x.t = false → (i.m = 0 ∨ a + i.m ≤ 0x4000) → x.allArrived a i.m = true →
          (atIssue s q).readWords q a i.m = (some ws, u) →
          ∃ t, exec (.done q) s = .next t ∧ EndedBy s t q stComplete 0 ∧ t.vtg = s.vtg
            ∧ (x.func < 16 → (s.queue (16 + x.func)).fresh →
                (t.queue (16 + x.func)).pkts.map QPkt.words =
                  [[BitVec.ofNat 24 (x.program % 4096 * 4096 + (3 + ws.length)), x.tag,
                    BitVec.ofNat 24 (8 * 2 ^ 20 + q.val * 2 ^ 12 + x.step % 4096)] ++ ws])) ∧
        (i.op = 0x3A → x.t = false → i.m ≠ 0 → 0x4000 < a + i.m →
          ∃ t, exec (.done q) s = .next t ∧ EndedBy s t q stFault 6)) ∧
      ((s.fetch q).1 = none → ∃ t, exec (.illegalOpcode q) s = .next t ∧ EndedBy s t q stFault 2 ∧ t.vtg = s.vtg)) ∧
  (∀ (s : State) (q : Fin 16) (i : Ins), Fetches s q i → (s.seq q).t = true → s.ctl.recoverRun = false →
      ∀ c, (c, i.op) ∈ [(Instr.frd q, 0x18), (.fwr q, 0x19), (.frmw q, 0x1A), (.fpoll q, 0x1B), (.halt q, 0x29),
          (.claim q, 0x30), (.waite q, 0x33), (.waitt q, 0x34), (.step q, 0x38), (.jrec q, 0x39), (.done q, 0x3A),
          (.vstg q, 0x3B), (.vcmt q, 0x3C), (.vabt q, 0x3D), (.send q, 0x2C), (.recv q, 0x2D)] →
        ∃ t, exec c s = .next t ∧ EndedBy s t q stTimeout 7 ∧ t.vtg = s.vtg)

/-- R98, R104 to R107: a successful access clears C; an error response with e = 1 sets it and goes on, with e = 0 it
ends the program. FRMW writes nothing after an error response to its read; FPOLL ends on a match and else waits.
R107: a further read of a waiting FPOLL ends it on a match; R52, R98: an access of FPOLL that times out ends it with
Z = 0 and Wa = 0, and the host's access gets the error response. -/
def Obligations.TsuileFabric : Prop :=
  (∀ (s : State) (q : Fin 16) (i : Ins), Fetches s q i → (s.seq q).t = false →
      let x := s.seq q
      let u := atIssue s q
      let a := i.fabricAddr x
      (∀ v u', i.op = 0x18 → u.innerRead a = (some v, u') →
        ∃ t, exec (.frd q) s = .next t ∧ (t.seq q).reg i.a = BitVec.ofNat 24 v ∧ (t.seq q).c = false
          ∧ (t.seq q).z = decide (BitVec.ofNat 24 v = 0) ∧ (t.seq q).pc = i.next ∧ t.regs = u'.regs ∧ t.vtg = s.vtg) ∧
      (∀ u', i.op = 0x18 → u.innerRead a = (none, u') → i.mBit 4 = true →
        ∃ t, exec (.frd q) s = .next t ∧ (t.seq q).reg i.a = 0 ∧ (t.seq q).c = true ∧ (t.seq q).pc = i.next) ∧
      (∀ u', i.op = 0x18 → u.innerRead a = (none, u') → i.mBit 4 = false → s.ctl.recoverRun = false →
        ∃ t, exec (.frd q) s = .next t ∧ EndedBy s t q stFault 5) ∧
      (∀ u', i.op = 0x19 → State.innerWrite State.fabricWrite u a (x.reg i.a).toNat = (true, u') → (u'.seq q).live = true →
        ∃ t, exec (.fwr q) s = .next t ∧ (t.seq q).c = false ∧ (t.seq q).pc = i.next ∧ t.regs = u'.regs) ∧
      (∀ u', i.op = 0x19 → State.innerWrite State.fabricWrite u a (x.reg i.a).toNat = (false, u') → (u'.seq q).live = true → i.mBit 4 = true →
        ∃ t, exec (.fwr q) s = .next t ∧ (t.seq q).c = true ∧ (t.seq q).pc = i.next ∧ t.regs = u'.regs) ∧
      (∀ v u' u'', i.op = 0x1A → u.innerRead a = (some v, u') →
        State.innerWrite State.fabricWrite u' a ((BitVec.ofNat 24 v &&& ~~~(x.reg i.b)) ||| (x.reg i.a &&& x.reg i.b)).toNat = (true, u'') →
        (u''.seq q).live = true →
        ∃ t, exec (.frmw q) s = .next t ∧ (t.seq q).c = false ∧ (t.seq q).pc = i.next ∧ t.regs = u''.regs) ∧
      (∀ u', i.op = 0x1A → u.innerRead a = (none, u') → i.mBit 4 = true →
        ∃ t, exec (.frmw q) s = .next t ∧ (t.seq q).c = true ∧ t.regs = u'.regs) ∧
      (∀ v u', i.op = 0x1B → u.innerRead (BitVec.ofNat 24 i.ext).toNat = (some v, u') →
        (BitVec.ofNat 24 v &&& x.reg i.b = x.reg i.c &&& x.reg i.b →
          ∃ t, exec (.fpoll q) s = .next t ∧ (t.seq q).z = true ∧ (t.seq q).c = false
            ∧ (t.seq q).reg i.a = BitVec.ofNat 24 v ∧ (t.seq q).pc = x.pc + 2 ∧ t.regs = u'.regs) ∧
        (BitVec.ofNat 24 v &&& x.reg i.b ≠ x.reg i.c &&& x.reg i.b →
          ∃ t, exec (.fpoll q) s = .next t ∧ (t.seq q).state = .blocked ∧ (t.seq q).pc = x.pc ∧ (t.seq q).w = x.w))) ∧
  (∀ (s : State) (q : Fin 16) (ad : Word) (a : Nat) (mask cmp : Word) (e : Bool) (last : Word),
      (s.seq q).live = true → (s.seq q).wait = some (.poll ad a mask cmp e last) →
      (∀ v u, s.innerRead ad.toNat = (some v, u) → BitVec.ofNat 24 v &&& mask = cmp &&& mask →
        ∃ t, exec (.fpollRead q) s = .next t ∧ (t.seq q).z = true ∧ (t.seq q).c = false ∧ (t.seq q).state = .running
          ∧ (t.seq q).reg a = BitVec.ofNat 24 v ∧ (t.seq q).pc = (s.seq q).pc + 2 ∧ t.regs = u.regs) ∧
      (∀ b : Fin 16, ad.toNat / 2 ^ 20 = b.val → e = true →
        ∃ t, exec (.fabricAccessTimeout b 0 (.seq q)) s = .next t ∧ (t.seq q).z = false ∧ (t.seq q).c = true
          ∧ (t.seq q).reg a = 0 ∧ (t.seq q).state = .running) ∧
      (∀ (b : Fin 16) (ha : Addr), ha.toNat / 2 ^ 20 = b.val →
        ∃ t, exec (.fabricAccessTimeout b ha .host) s = .next t ∧ t.rd F.HIF_ERR_STAT_fabric = 1 ∧ t.pends 0x07 = true
          ∧ (s.bit F.HIF_ERR_STAT_fabric = false → t.rd F.HIF_ERR_ADDR_addr = ha.toNat)
          ∧ ((s.gate b).closing = true → t.gate b = ⟨false, true⟩)
          ∧ RegsExceptE s t [(F.HIF_ERR_STAT_fabric, []), (F.HIF_ERR_ADDR_addr, [])]))

/-- R75, R76, R110, R432: claims go in ascending order, a held resource is waited for, a freed one goes to the
waiter that arrived first, and a FREE of a resource that is not held ends the program. R110, R111, R112, R113:
YIELD, WAITE with a pending event, the completion of a waiting WAITE, and SIGNAL, which reaches every running
sequencer. -/
def Obligations.TsuileCoordination : Prop :=
  ((∀ (s : State) (q : Fin 16) (i : Ins), Fetches s q i → (s.seq q).t = false →
      let x := s.seq q
      let n := if i.mBit 5 then (x.reg i.b).toNat % 256 else i.num
      (i.op = 0x30 → (∀ k, n ≤ k → k < 256 → s.holds q k = false) → s.freeClaim n = true → (s.claim n).waiters = [] →
        ∃ t, exec (.claim q) s = .next t ∧ t.holds q n = true ∧ (t.seq q).pc = i.next ∧ (t.seq q).w = x.w
          ∧ (∀ k, k ≠ n → t.claim k = s.claim k) ∧ t.regs = s.regs ∧ t.vtg = s.vtg) ∧
      (i.op = 0x30 → (∀ k, n ≤ k → k < 256 → s.holds q k = false) → s.claimed n = true →
        ∃ t, exec (.claim q) s = .next t ∧ (t.seq q).state = .blocked ∧ (t.seq q).pc = x.pc
          ∧ (t.claim n).waiters = (s.claim n).waiters ++ [q.val] ∧ (t.claim n).holder = (s.claim n).holder) ∧
      (i.op = 0x30 → (∃ k, n ≤ k ∧ k < 256 ∧ s.holds q k = true) → s.ctl.recoverRun = false →
        ∃ t, exec (.claim q) s = .next t ∧ EndedBy s t q stFault 3) ∧
      (i.op = 0x31 → s.holds q n = true →
        ∃ t, exec (.free q) s = .next t ∧ t.claimed n = false ∧ (t.claim n).waiters = (s.claim n).waiters
          ∧ (t.seq q).pc = i.next ∧ (∀ k, k ≠ n → t.claim k = s.claim k) ∧ t.regs = s.regs) ∧
      (i.op = 0x31 → s.holds q n = false → s.ctl.recoverRun = false → ∃ t, exec (.free q) s = .next t ∧ EndedBy s t q stFault 4)) ∧
    (∀ (s : State) (n : Fin 256) (w : Nat) (ws : List Nat), (s.claim n).waiters = w :: ws → s.freeClaim n = true →
      (s.seq w).live = true → (s.seq w).wait = some (.claim n) →
        ∃ t, exec (.claimGrant n) s = .next t ∧ t.claim n = ⟨some w, ws⟩ ∧ (t.seq w).state = .running
          ∧ (t.seq w).pc = (s.seq w).pc + 1 ∧ (∀ k, k ≠ n.val → t.claim k = s.claim k) ∧ t.regs = s.regs ∧ t.vtg = s.vtg)) ∧
  (∀ (s : State) (q : Fin 16),
      (∀ i, Fetches s q i → i.op = 0x32 →
        ∃ t, exec (.yield q) s = .next t ∧ (t.seq q).slowUnits = i.m + 1 ∧ (t.seq q).pc = i.next ∧ (t.seq q).w = (s.seq q).w
          ∧ SeqFrame s t q) ∧
      (∀ i, Fetches s q i → (s.seq q).t = false → i.op = 0x33 → i.mBit 5 = false →
        (((s.seq q).ev i.num).pend = true →
          ∃ t, exec (.waite q) s = .next t ∧ (t.seq q).reg i.a = ((s.seq q).ev i.num).data
            ∧ (t.seq q).c = ((s.seq q).ev i.num).merged ∧ ((t.seq q).ev i.num).pend = false ∧ (t.seq q).pc = i.next
            ∧ SeqFrame s t q) ∧
        (((s.seq q).ev i.num).pend = false →
          ∃ t, exec (.waite q) s = .next t ∧ (t.seq q).state = .blocked ∧ (t.seq q).pc = (s.seq q).pc ∧ SeqFrame s t q)) ∧
      (∀ i, Fetches s q i → (s.seq q).t = false → i.op = 0x33 → i.mBit 5 = true →
        ∃ t, exec (.waite q) s = .next t ∧ (t.seq q).state = .blocked ∧ ((t.seq q).ev i.num).pend = false ∧ SeqFrame s t q) ∧
      (∀ ev a, (s.seq q).live = true → (s.seq q).wait = some (.event ev a) → ((s.seq q).ev ev).pend = true →
        ∃ t, exec (.waiteComplete q) s = .next t ∧ (t.seq q).reg a = ((s.seq q).ev ev).data
          ∧ ((t.seq q).ev ev).pend = false ∧ (t.seq q).state = .running ∧ (t.seq q).pc = (s.seq q).pc + 1 ∧ SeqFrame s t q) ∧
      (∀ i, Fetches s q i → i.op = 0x35 → i.mBit 5 = false → 128 ≤ i.num →
        ∃ t, exec (.signal q) s = .next t ∧ (t.seq q).pc = i.next
          ∧ ∀ p, p ∈ programSqs → (s.seq p).live = true →
              ((t.seq p).ev i.num).pend = true ∧ ((t.seq p).ev i.num).data = (s.seq q).reg i.a))

/-- R114, R115: WAITT completes at once with C = 1 where its target is not ahead, else waits for it; TNOW reads
device time. R96, R107, R110, R121: an expired timeout sets T, and the program goes on at the next instruction with
no register written, but for FPOLL, which leaves the last word read in Wa with Z = 0. A CLAIM that times out holds
nothing. -/
def Obligations.TsuileTime : Prop :=
  (∀ (s : State) (q : Fin 16),
      (∀ i, Fetches s q i → (s.seq q).t = false → i.op = 0x34 →
        let target := BitVec.ofNat 32 (((s.seq q).reg i.c).toNat % 256 * 2 ^ 24 + ((s.seq q).reg i.b).toNat)
        ((target - s.time).toInt ≤ 0 →
          ∃ t, exec (.waitt q) s = .next t ∧ (t.seq q).c = true ∧ (t.seq q).pc = i.next ∧ SeqFrame s t q) ∧
        (0 < (target - s.time).toInt →
          ∃ t, exec (.waitt q) s = .next t ∧ (t.seq q).state = .blocked ∧ (t.seq q).wait = some (.time target)
            ∧ SeqFrame s t q)) ∧
      (∀ target, (s.seq q).live = true → (s.seq q).wait = some (.time target) → (target - s.time).toInt ≤ 0 →
        ∃ t, exec (.waittComplete q) s = .next t ∧ (t.seq q).c = false ∧ (t.seq q).state = .running
          ∧ (t.seq q).pc = (s.seq q).pc + 1 ∧ (t.seq q).w = (s.seq q).w ∧ SeqFrame s t q) ∧
      (∀ i, Fetches s q i → i.op = 0x2E → i.a ≠ i.b →
        ∃ t, exec (.tnow q) s = .next t ∧ ((t.seq q).reg i.a).toNat = s.time.toNat % 2 ^ 24
          ∧ ((t.seq q).reg i.b).toNat = s.time.toNat / 2 ^ 24 ∧ (t.seq q).pc = i.next ∧ SeqFrame s t q)) ∧
  (∀ (s : State) (q : Fin 16), (s.seq q).live = true →
      (∀ ev a, (s.seq q).wait = some (.event ev a) → ((s.seq q).ev ev).pend = false →
        ∃ t, exec (.blockingTimeout q) s = .next t ∧ (t.seq q).t = true ∧ (t.seq q).w = (s.seq q).w
          ∧ (t.seq q).pc = (s.seq q).pc + 1 ∧ (t.seq q).state = .running ∧ SeqFrame s t q) ∧
      (∀ n, (s.seq q).wait = some (.claim n) → s.claimed n = true →
        ∃ t, exec (.blockingTimeout q) s = .next t ∧ (t.seq q).t = true ∧ q.val ∉ (t.claim n).waiters
          ∧ (t.claim n).holder = (s.claim n).holder ∧ (t.seq q).w = (s.seq q).w ∧ t.regs = s.regs) ∧
      (∀ ad a m c e last, (s.seq q).wait = some (.poll ad a m c e last) →
        ∃ t, exec (.blockingTimeout q) s = .next t ∧ (t.seq q).t = true ∧ (t.seq q).z = false ∧ (t.seq q).reg a = last
          ∧ (t.seq q).pc = (s.seq q).pc + 2 ∧ SeqFrame s t q))

/-- R79, R80, R115: STEP and JREC write their record and go on; the outcome record will hold STEP's number. -/
def Obligations.TsuileJournal : Prop :=
  ∀ (s : State) (q : Fin 16) (i : Ins), Fetches s q i → (s.seq q).t = false →
    let x := s.seq q
    (i.op = 0x38 → ∃ t, exec (.step q) s = .next t ∧ (t.seq q).step = i.stepNum ∧ (t.seq q).pc = i.next
      ∧ (t.seq q).w = x.w ∧ t.vtg = s.vtg
      ∧ JournalGets s t (recordWords x.tag x.program i.stepNum 0 q x.func 0 s.time)) ∧
    (i.op = 0x39 → ∃ t, exec (.jrec q) s = .next t ∧ (t.seq q).pc = i.next ∧ (t.seq q).step = x.step ∧ (t.seq q).w = x.w
      ∧ t.vtg = s.vtg
      ∧ JournalGets s t (recordWords x.tag x.program (if i.mBit 5 then (x.reg i.b).toNat % 4096 else i.stepNum) 2 q
          x.func 0 s.time))

/-- R116 to R118, R127: staging, the request of a commit, its refusal, the reset of STAGED and the withdrawal, with
C. -/
def Obligations.TsuileVintages : Prop :=
  ∀ (s : State) (q : Fin 16) (i : Ins), Fetches s q i → (s.seq q).t = false →
    let x := s.seq q
    let a := i.fabricAddr x
    (i.op = 0x3B → s.stageable a = true → s.stagedLocked = false →
      ((atIssue s q).memWrite 6 (vintRow 1 a) false).1 = true →
      ∃ t, exec (.vstg q) s = .next t ∧ t.vtg.staged = imgMerge s.vtg.staged a (x.reg i.a).toNat (x.reg i.b).toNat
        ∧ t.vtg.current = s.vtg.current ∧ (t.seq q).c = false ∧ (t.seq q).pc = i.next ∧ t.regs = s.regs) ∧
    (i.op = 0x3B → (s.stageable a = false ∨ s.stagedLocked = true) → i.mBit 4 = true →
      ∃ t, exec (.vstg q) s = .next t ∧ t.vtg = s.vtg ∧ (t.seq q).c = true ∧ (t.seq q).pc = i.next) ∧
    (i.op = 0x3C → s.refusal (i.m % 8) = 0 →
      ∃ t, exec (.vcmt q) s = .next t ∧ t.vtState = vtValidating ∧ t.vtg.lastSerial = BitVec.ofNat 24 s.newSerial
        ∧ t.vtg.commit.map Commit.image = some s.vtg.staged ∧ t.vtg.current = s.vtg.current
        ∧ (t.seq q).reg i.a = BitVec.ofNat 24 s.newSerial ∧ (t.seq q).c = false ∧ (t.seq q).pc = i.next) ∧
    (i.op = 0x3C → s.refusal (i.m % 8) ≠ 0 →
      ∃ t, exec (.vcmt q) s = .next t ∧ (t.seq q).c = true ∧ (t.seq q).reg i.a = BitVec.ofNat 24 (s.refusal (i.m % 8))
        ∧ (t.seq q).pc = i.next ∧ SeqFrame s t q) ∧
    (i.op = 0x3D → i.mBit 0 = false →
      (s.stagedLocked = false → ∃ t, exec (.vabt q) s = .next t ∧ t.vtg.staged = s.vtg.current ∧ (t.seq q).c = false
        ∧ (t.seq q).pc = i.next ∧ t.regs = s.regs) ∧
      (s.stagedLocked = true → ∃ t, exec (.vabt q) s = .next t ∧ (t.seq q).c = true ∧ SeqFrame s t q)) ∧
    (i.op = 0x3D → i.mBit 0 = true → s.withdrawable = true → s.vtg.commit.isSome = true →
      ∃ t, exec (.vabt q) s = .next t ∧ t.vtg.commit = none ∧ t.vtg.staged = s.vtg.current ∧ (t.seq q).c = false)

/-- R119 to R121, R464: a SEND to a LINKED Poryon port leaves as one message, one to a port that is not LINKED
waits, and a waiting one goes on once the port is LINKED; RECV waits for its port and completes with the packet's
length in Wa. -/
def Obligations.TsuileMessages : Prop :=
  ∀ (s : State) (q : Fin 16),
    (∀ i ws u, Fetches s q i → (s.seq q).t = false → i.op = 0x2C → 1 ≤ i.m / 8 → i.m / 8 ≤ 6 →
      let n := ((s.seq q).reg i.c).toNat
      let a := ((s.seq q).reg i.b).toNat
      1 ≤ n → n ≤ 4096 → a + n ≤ 0x4000 → (s.seq q).allArrived a n = true → (atIssue s q).readWords q a n = (some ws, u) →
      (s.linked (i.m / 8 - 1) = true →
        ∃ t, exec (.send q) s = .next t ∧ (t.seq q).pc = (s.seq q).pc + 1 ∧ (t.seq q).c = false
          ∧ (t.seq q).w = (s.seq q).w ∧ (t.port (i.m / 8 - 1)).wait = (s.port (i.m / 8 - 1)).wait
              ++ [(⟨3, 0, 0, s.rd F.PRY_DOM_STAT_dom, ws.map BitVec.toNat⟩, pryFrames ⟨3, 0, 0, 0, ws.map BitVec.toNat⟩)]) ∧
      (s.linked (i.m / 8 - 1) = false → ∃ t, exec (.send q) s = .next t ∧ (t.seq q).state = .blocked
        ∧ (t.seq q).pc = (s.seq q).pc)) ∧
    (∀ a n dst ws u, (s.seq q).live = true → (s.seq q).wait = some (.send a n dst) → 1 ≤ dst → dst ≤ 6 →
      (s.seq q).allArrived a n = true → s.readWords q a n = (some ws, u) → s.linked (dst - 1) = true →
      ∃ t, exec (.sendRoom q) s = .next t ∧ (t.seq q).pc = (s.seq q).pc + 1 ∧ (t.seq q).state = .running
        ∧ (t.seq q).w = (s.seq q).w ∧ (t.seq q).c = false
        ∧ (t.port (dst - 1)).wait = (s.port (dst - 1)).wait
            ++ [(⟨3, 0, 0, s.rd F.PRY_DOM_STAT_dom, ws.map BitVec.toNat⟩, pryFrames ⟨3, 0, 0, 0, ws.map BitVec.toNat⟩)]) ∧
    (∀ i, Fetches s q i → (s.seq q).t = false → i.op = 0x2D → (s.queue (34 + i.m / 8)).pkts = [] →
      ∃ t, exec (.recv q) s = .next t ∧ (t.seq q).state = .blocked ∧ (t.seq q).pc = (s.seq q).pc
        ∧ t.receivers (i.m / 8) = s.receivers (i.m / 8) ++ [q.val]) ∧
    (∀ a base mx src len, (s.seq q).live = true → (s.seq q).wait = some (.recv a base mx src len len true) →
      ∃ t, exec (.recvComplete q) s = .next t ∧ (t.seq q).reg a = BitVec.ofNat 24 len ∧ (t.seq q).c = decide (mx < len)
        ∧ (t.seq q).pc = (s.seq q).pc + 1 ∧ (t.seq q).state = .running ∧ SeqFrame s t q)

/-- R67 to R70, R83, R87, R431: with one queue alone offering a whole packet of a program that the directory names,
and SQ1 idle, dispatch starts it there with its length, tag and function in W0 to W2. R67, R71 to R73, R84: the
executive ends programs: at the packet timeout, the budget, the sequencer watchdog, and a host abort, which finds
its program by tag and function or sets nomatch. -/
def Obligations.ProgramDispatchAndAbort : Prop :=
  (∀ (s : State) (f : Fin 16) (p : QPkt), s.bit F.SEQ_EXEC_STAT_alive = true → s.exec.sol = Solera.empty →
      s.ctl.recoverWord = none → s.exec.timerPkts = [] → s.mon.planner.pkts = [] → s.ctl.transTo ≠ some modeDormant →
      (s.queue f).pkts = [p] → (s.queue f).taker = none →
      p.arrived = p.len → p.words.length = p.len → 2 ≤ p.len → p.len ≤ 4096 →
      (∀ g : Fin 16, g ≠ f → (s.queue g).pkts = []) → (∀ k, k ∈ programSqs → (s.seq k).state = .idle) →
      s.rd F.SEQ_SOL_RES_res ≤ 1 → s.rejectReason f p.len p.words = 0 →
      ∃ t, exec .packetDispatch s = .next t ∧ (t.seq 1).state = .running ∧ (t.seq 1).func = f.val
        ∧ (t.seq 1).reg 0 = BitVec.ofNat 24 p.len ∧ (t.seq 1).reg 1 = p.words.getD 1 0 ∧ ((t.seq 1).reg 2).toNat = f.val
        ∧ (t.seq 1).pc = BitVec.ofNat 19 (s.dirEntry (pktProgram p.words)) ∧ (t.seq 1).pktGot = p.len
        ∧ (t.queue f).pkts = [] ∧ t.vtg = s.vtg
        ∧ tabGet none t.exec.inFlight 1 = some ⟨p.words.getD 1 0, pktProgram p.words, f.val, 0⟩) ∧
  (∀ (s : State) (q : Fin 16), s.ctl.recoverRun = false →
      ((s.seq q).live = true →
        ((s.seq q).pktQ ≠ none → (s.seq q).pktGot < (s.seq q).pktLen →
          ∃ t, exec (.packetTimeout q) s = .next t ∧ EndedBy s t q stTimeout 9 ∧ t.vtg = s.vtg) ∧
        (∃ t, exec (.budgetExpiry q) s = .next t ∧ EndedBy s t q stTimeout 8 ∧ t.vtg = s.vtg) ∧
        (∃ t, exec (.sqWatchdogExpiry q) s = .next t ∧ EndedBy s t q stReset 0xA ∧ t.rd F.GLB_RST_CAUSE_sq = 1
          ∧ t.pends 0x05 = true ∧ t.vtg = s.vtg)) ∧
      (∀ f : Fin 16, (programSqs.find? fun p => (s.seq p).live
          && decide ((s.seq p).func = f ∧ (s.seq p).tag.toNat = s.rd F.SEQ_ABORT_TAG_tag)) = some q.val →
        ∃ t, exec (.hostAbort f) s = .next t ∧ EndedBy s t q stPreempted 0xC ∧ t.vtg = s.vtg
          ∧ t.rd F.SEQ_ABORT_CMD_func = f) ∧
      (∀ f : Fin 16, (programSqs.find? fun p => (s.seq p).live
          && decide ((s.seq p).func = f ∧ (s.seq p).tag.toNat = s.rd F.SEQ_ABORT_TAG_tag)) = none →
        ∃ t, exec (.hostAbort f) s = .next t ∧ t.rd F.SEQ_ABORT_CMD_nomatch = 1 ∧ t.noRegs = s.noRegs
          ∧ RegsExcept s t [(F.SEQ_ABORT_CMD_func, []), (F.SEQ_ABORT_CMD_nomatch, [])]))

/-- R63, R64: a load session: begin clears the store, each data word lands in its place, verify closes the session,
and the check leaves its result; a begin with verify is refused. R64: the check of a loaded image ends: busy clears,
and the result and the program-set identifier are set. -/
def Obligations.LoadSession : Prop :=
  (∀ s : State, s.mode = modeDormant → s.bit F.SEQ_LOAD_CMD_busy = false →
      (∃ t, exec (.loadBegin false) s = .next t ∧ t.exec.session = true ∧ t.exec.store = [] ∧ t.rd F.SEQ_LOAD_ADDR_addr = 0
        ∧ t.rd F.SEQ_PSET_ID_id = 0 ∧ t.rd F.GLB_MODE_no_image = 1 ∧ t.vtg = s.vtg ∧ t.seqs = s.seqs
        ∧ RegsExcept s t [(F.SEQ_PSET_ID_id, []), (F.GLB_MODE_no_image, []), (F.SEQ_LOAD_ADDR_addr, []), (F.SEQ_LOAD_CMD_result, [])]) ∧
      (∃ t, exec (.loadBegin true) s = .next t ∧ t.rd F.SEQ_LOAD_CMD_result = 5 ∧ t.noRegs = s.noRegs
        ∧ RegsExcept s t [(F.SEQ_LOAD_CMD_result, [])]) ∧
      (∀ w, s.exec.session = true → s.rd F.SEQ_LOAD_ADDR_addr < 3 →
        ∃ t, exec (.loadData w) s = .next t ∧ tabGet none t.exec.loadBuf (s.rd F.SEQ_LOAD_ADDR_addr) = some w
          ∧ t.rd F.SEQ_LOAD_ADDR_addr = s.rd F.SEQ_LOAD_ADDR_addr + 1 ∧ t.exec.store = s.exec.store
          ∧ RegsExcept s t [(F.SEQ_LOAD_ADDR_addr, [])]) ∧
      (∀ w n, s.exec.session = true → s.loadN = some n → 3 ≤ s.rd F.SEQ_LOAD_ADDR_addr → s.rd F.SEQ_LOAD_ADDR_addr < n + 3 →
        (s.memWrite 4 (storeRow (s.rd F.SEQ_LOAD_ADDR_addr - 3)) false).1 = true →
        ∃ t, exec (.loadData w) s = .next t ∧ tabGet none t.exec.store (s.rd F.SEQ_LOAD_ADDR_addr - 3) = some w
          ∧ t.exec.loadBuf = s.exec.loadBuf ∧ RegsExcept s t [(F.SEQ_LOAD_ADDR_addr, [])]) ∧
      (s.exec.session = true → ∃ t, exec (.loadVerify false) s = .next t ∧ t.bit F.SEQ_LOAD_CMD_busy = true
        ∧ t.exec.session = false ∧ t.exec.store = s.exec.store ∧ t.vtg = s.vtg
        ∧ RegsExcept s t [(F.SEQ_LOAD_CMD_busy, []), (F.SEQ_LOAD_CMD_result, [])])) ∧
  (∀ s : State, s.bit F.SEQ_LOAD_CMD_busy = true →
      ∃ t, exec .loadVerifyDone s = .next t ∧ t.bit F.SEQ_LOAD_CMD_busy = false ∧ t.rd F.SEQ_LOAD_CMD_result = s.loadResult
        ∧ t.vtg = s.vtg
        ∧ (s.loadResult = 1 → t.rd F.SEQ_PSET_ID_id = ((tabGet none s.exec.loadBuf 1).getD 0).toNat
            ∧ t.rd F.GLB_MODE_no_image = 0 ∧ t.exec.loadBuf = s.exec.loadBuf
            ∧ (∀ n j, s.loadN = some n → tabGet none t.exec.store j = if j < n then tabGet none s.exec.store j else none)
            ∧ ({ t.noRegs with exec := s.exec, cel := s.cel } : State) = s.noRegs
            ∧ RegsExcept s t [(F.SEQ_LOAD_CMD_busy, []), (F.SEQ_LOAD_CMD_result, []), (F.SEQ_PSET_ID_id, []),
                (F.GLB_MODE_no_image, [])])
        ∧ (s.loadResult ≠ 1 → t.exec.store = []
            ∧ RegsExcept s t [(F.SEQ_LOAD_CMD_busy, []), (F.SEQ_LOAD_CMD_result, []), (F.SEQ_LOAD_ADDR_addr, [])]))

/-- R119, R158, R163 to R166: a word that starts a packet with room is admitted, one without room is refused and
counted, a word whose byte enables are wrong is refused by the push window, and a queue reset empties the queue. -/
def Obligations.QueueWords : Prop :=
  ∀ (s : State) (q : Fin 41), (s.queue q).pkts = [] → (s.queue q).refuse = 0 → (s.queue q).discard = 0 →
    (s.queue q).taker = none →
    (∀ w len, 1 < packetLen q w len → packetLen q w len ≤ queueFree q (s.queue q) →
      ∃ t, exec (.queuePush q w len false) s = .next t ∧ (t.queue q).pkts = [⟨packetLen q w len, 1, [w], false⟩]
        ∧ (∀ p, p ≠ q.val → t.queue p = s.queue p) ∧ t.vtg = s.vtg ∧ t.seqs = s.seqs
        ∧ RegsExcept s t [(F.HIF_Q_PEAK_peak, [q]), (F.HIF_Q_STAT_wm_hit, [q])]) ∧
    (∀ w len, queueFree q (s.queue q) < packetLen q w len →
      ∃ t, exec (.queuePush q w len false) s = .next t ∧ (t.queue q).pkts = []
        ∧ (t.queue q).refuse = packetLen q w len - 1
        ∧ t.rd F.HIF_Q_OVF_pkts [q] = min 4095 (s.rd F.HIF_Q_OVF_pkts [q] + 1) ∧ t.vtg = s.vtg ∧ t.seqs = s.seqs
        ∧ RegsExcept s t [(F.HIF_Q_OVF_pkts, [q]), (F.HIF_Q_OVF_words, [q])]) ∧
    (∀ (f : Fin 16) (d : BitVec 32), f.val = q.val → s.reaches f = true → 1 < d.toNat % 4096 →
      ∃ t, exec (.pushWindowWrite f [(d, true)]) s = .next t
        ∧ (t.queue q).pkts = [⟨d.toNat % 4096, 1, [d.extractLsb' 0 24], false⟩] ∧ t.vtg = s.vtg) ∧
    (∀ (f : Fin 16) (d : BitVec 32), f.val = q.val → s.reaches f = true →
      ∃ t, exec (.pushWindowWrite f [(d, false)]) s = .next t ∧ t.queues = s.queues
        ∧ t.rd F.HIF_Q_OVF_words [q] = min 4095 (s.rd F.HIF_Q_OVF_words [q] + 1) ∧ t.vtg = s.vtg) ∧
    (∃ t, exec (.queueReset q) s = .next t ∧ t.queue q = Queue.empty ∧ t.rd F.HIF_Q_PEAK_peak [q] = 0
      ∧ t.rd F.HIF_Q_OVF_pkts [q] = 0 ∧ t.rd F.HIF_Q_OVF_words [q] = 0 ∧ (∀ p, p ≠ q.val → t.queue p = s.queue p)
      ∧ RegsExcept s t [(F.HIF_Q_PEAK_peak, [q]), (F.HIF_Q_OVF_pkts, [q]), (F.HIF_Q_OVF_words, [q])]
      ∧ ({ t with regs := s.regs, queues := s.queues } : State) = s)

/-- R15, and R6, R8, R47, R152, R154, R155, R159, R167: what the host reads: the words of the pop window, the peak,
which then is the count, the Device ID, and words of the fabric; while the link does not answer nothing is read and
nothing acts; an unassigned offset reads zero and discards what is written, each with an error response. A write of
1 clears a K-class bit and 0 leaves it, an L-class field takes the word, and a V-class field keeps its value in
force. -/
def Obligations.HostAccess : Prop :=
  (∀ s : State,
      (∀ (f : Fin 16) w last u, s.reaches f = true → (s.hostRequest f).dmaOn (16 + f) = false →
        (s.hostRequest f).popWord (16 + f) = some (w, last, u) →
        ∃ t, exec (.popWindowRead f 1) s = .next t ∧ t.queues = u.queues
          ∧ t.hif.popOut = [BitVec.ofNat 32 (w.toNat + 2 ^ 24 + (if last then 2 ^ 25 else 0))]) ∧
      (∀ q : Fin 41, (s.queue q).held ≤ queueDepth q →
        ∃ t, exec (.peakRead q) s = .next t ∧ t.rd F.HIF_Q_PEAK_peak [q] = (s.queue q).held
          ∧ t.hif.popOut = [BitVec.ofNat 32 (s.rd F.HIF_Q_PEAK_peak [q] * 2 ^ 9)] ∧ t.queues = s.queues
          ∧ RegsExcept s t [(F.HIF_Q_PEAK_peak, [q])] ∧ ({ t with regs := s.regs, hif := s.hif } : State) = s) ∧
      (∀ sp wr (a : Addr) ds, s.linkAnswers = false → exec (.bar0Access sp wr a ds) s = .next s) ∧
      (∀ d, s.linkAnswers = true → ∃ t, exec (.bar0Access (.config 0 .id) false 0 [d]) s = .next t
        ∧ t.hif.popOut = [BitVec.ofNat 32 (s.deviceId * 2 ^ 16 + Config.vendorId.toNat)]
        ∧ ({ t with hif := s.hif } : State) = s) ∧
      (∀ (a : Addr) d v u, s.reaches 0 = true → s.hostActive.fabricRead a.toNat = (some v, u) →
        ∃ t, exec (.bar0Access .bar0 false a [d]) s = .next t ∧ t.hif.popOut = [BitVec.ofNat 32 v] ∧ t.regs = u.regs) ∧
      (∀ (a : Addr) d u, s.reaches 0 = true → s.hostActive.fabricRead a.toNat = (none, u) →
        ∃ t, exec (.bar0Access .bar0 false a [d]) s = .next t ∧ t.hif.popOut = [0] ∧ t.rd F.HIF_ERR_STAT_fabric = 1
          ∧ t.pends 0x07 = true) ∧
      (∀ (a : Addr) d u, s.reaches 0 = true → s.hostActive.fabricWrite a.toNat (d.toNat % 2 ^ 24) = (true, u) →
        exec (.bar0Access .bar0 true a [(d, true)]) s = .next u) ∧
      (∀ (a : Addr) (d : BitVec 32), s.reaches 0 = true → regAt a.toNat = none →
        (s.fabricRead a.toNat).1 = none ∧ (∀ w, s.fabricWrite a.toNat w = (false, s)) ∧
        (∃ t, exec (.bar0Access .bar0 false a [(d, true)]) s = .next t ∧ t.hif.popOut = [0] ∧ t.rd F.HIF_ERR_STAT_fabric = 1) ∧
        (∃ t, exec (.bar0Access .bar0 true a [(d, true)]) s = .next t ∧ t.rd F.HIF_ERR_STAT_fabric = 1
          ∧ RegsExceptE s t [(F.HIF_ERR_STAT_fabric, []), (F.HIF_ERR_ADDR_addr, []), (F.GLB_HOST_STAT_unatt, [])]
          ∧ t.noEvents = s.noEvents))) ∧
  (∀ s : State,
      (∀ (j : Fin 6) (w : Word), ∃ t, exec (.fabricWrite (0x000040 + BitVec.ofNat 24 j) w) s = .next t
        ∧ t.rd F.GLB_EVT_PEND_bits [j] = (s.rd F.GLB_EVT_PEND_bits [j] - (s.rd F.GLB_EVT_PEND_bits [j] &&& w.toNat)) % 2 ^ 24
        ∧ t.vtg = s.vtg ∧ t.seqs = s.seqs ∧ t.queues = s.queues) ∧
      (∀ (j : Fin 6) (w : Word), ∃ t, exec (.fabricWrite (0x000048 + BitVec.ofNat 24 j) w) s = .next t
        ∧ t.rd F.GLB_FAULT_EN_bits [j] = (if j.val = 5 then w.toNat % 256 else w.toNat) ∧ t.vtg = s.vtg ∧ t.seqs = s.seqs ∧ t.queues = s.queues) ∧
      (∀ (i : Fin 8) (w : Word), ∃ t, exec (.fabricWrite (0x000018 + BitVec.ofNat 24 i) w) s = .next t
        ∧ t.vtg = s.vtg ∧ t.regs = s.regs))

/-- R172 to R175, R160, R171: DMA engines, events, vectors and the Function Level Reset. -/
def Obligations.HostDelivery : Prop :=
  ∀ s : State,
    (∀ d : Fin 18, s.bit F.HIF_DMA_CFG_en [d] = false →
      ∃ t, exec (.dmaEnable d) s = .next t ∧ t.bit F.HIF_DMA_CFG_en [d] = true ∧ t.rd F.HIF_DMA_HEAD_count [d] = 0
        ∧ t.rd F.HIF_DMA_TAIL_count [d] = 0
        ∧ RegsExcept s t [(F.HIF_DMA_CFG_en, [d]), (F.HIF_DMA_HEAD_count, [d]), (F.HIF_DMA_TAIL_count, [d])] ∧ ({ t with regs := s.regs, hif := s.hif } : State) = s) ∧
    (∀ (d : Fin 18) p ps, (s.queue (16 + d)).pkts = p :: ps → s.bit F.HIF_DMA_CFG_en [d] = true → p.arrived = p.len →
      1 ≤ p.words.length → p.words.length ≤ s.ringFree d → s.linkAnswers = true →
      (∃ t, exec (.dmaPacketWrite d true) s = .next t ∧ t.bit F.HIF_DMA_CFG_en [d] = false ∧ t.rd F.HIF_DMA_CFG_err [d] = 1
        ∧ t.queues = s.queues ∧ RegsExcept s t [(F.HIF_DMA_CFG_en, [d]), (F.HIF_DMA_CFG_err, [d])]
        ∧ ({ t with regs := s.regs, hif := s.hif } : State) = s) ∧
      (∃ t, exec (.dmaPacketWrite d false) s = .next t
        ∧ tabGet 0 t.hif.dmaDone d = tabGet 0 s.hif.dmaDone d + p.words.length
        ∧ t.rd F.HIF_DMA_TAIL_count [d] = (tabGet 0 s.hif.dmaDone d + p.words.length) % 2 ^ 21
        ∧ (t.queue (16 + d)).pkts = ps ∧ t.vtg = s.vtg)) ∧
    (∀ (e : Fin 256) d, e.val < 128 → ∃ t, exec (.eventOccurrence e d) s = .next t ∧ t.pends e = true
      ∧ t.ctl = (if e = 0 then { s.ctl with nmi := true } else s.ctl)
      ∧ RegsExceptE s t [] ∧ ({ t.noEvents with ctl := s.ctl } : State) = s.noEvents) ∧
    (∀ (e : Fin 256) d q, q ∈ programSqs → (s.seq q).live = true →
      ∃ t, exec (.eventOccurrence e d) s = .next t ∧ ((t.seq q).ev e).pend = true ∧ ((t.seq q).ev e).data = d) ∧
    (∀ (f : Fin 16) v, v ≤ lastVec f → tabGet false s.hif.vecPend (f * 512 + v) = true → s.linkAnswers = true →
      tabGet false s.hif.msixFMask f = false → (tabGet 1 s.hif.msixTbl ((f * 512 + v) * 4 + 3)).getLsbD 0 = false →
      ∃ t, exec (.msixPendingSend f v .enable) s = .next t ∧ tabGet false t.hif.vecPend (f * 512 + v) = false
        ∧ tabGet 0 t.hif.sent (f * 512 + v) = tabGet 0 s.hif.sent (f * 512 + v) + 1
        ∧ ({ t with hif := s.hif } : State) = s) ∧
    (∀ f : Fin 16, f ≠ 0 → s.ctl.recoverRun = false →
      ∃ t, exec (.functionLevelReset f) s = .next t ∧ tabGet false t.hif.msixEn f = false
      ∧ t.rd F.HIF_DMA_CFG_en [f] = 0 ∧ t.queue f = Queue.empty ∧ t.queue (16 + f) = Queue.empty ∧ t.mode = s.mode
      ∧ (∀ q, 1 ≤ q → q < 16 → (t.seq q).live = true → (t.seq q).func ≠ f.val) ∧ t.vtg = s.vtg) ∧
    (∃ t, exec (.functionLevelReset 0) s = .next t ∧ t.mode = s.mode ∧ t.vtg = s.vtg
      ∧ ∀ f, f < 16 → tabGet false t.hif.msixEn f = false ∧ t.rd F.HIF_DMA_CFG_en [f] = 0 ∧ t.queue f = Queue.empty)

/-- R126 to R134, R145, R146: the stages of a commit before its boundary, and its failures, which make STAGED a copy
of CURRENT and raise VTG_DONE. -/
def Obligations.CommitStages : Prop :=
  ∀ (s : State) (c : Commit), s.vtg.commit = some c →
    (s.vtState = vtValidating → s.validationCode c.image = 0 →
      ∃ t, exec .validationDone s = .next t ∧ t.vtState = vtLoading ∧ t.noRegs = s.noRegs
        ∧ RegsExcept s t [(F.VTG_STAT_state, [])]) ∧
    (s.vtState = vtValidating → s.validationCode c.image ≠ 0 →
      ∃ t, exec .validationDone s = .next t ∧ t.vtg.commit = none ∧ t.vtg.staged = s.vtg.current
        ∧ t.vtg.current = s.vtg.current ∧ t.vtState = vtIdle
        ∧ t.rd F.VTG_STAT_last_fail = s.validationCode c.image ∧ t.pends 0x0C = true) ∧
    (∀ n, s.vtState = vtLoading → Sound s 1 → c.slices ≠ [] → (∀ i, i ∈ c.slices → s.bit F.TDL_PROP_STAT_held [i] = false) →
      ∃ t, exec (.loadingDone false n) s = .next t ∧ t.vtState = vtNegotiating ∧ t.vtg.current = s.vtg.current
        ∧ t.vtg.staged = s.vtg.staged ∧ t.vtg.commit.map Commit.image = some c.image
        ∧ t.vtg.commit.map Commit.slices = some c.slices) ∧
    (∀ n, s.vtState = vtLoading → Sound s 1 → c.slices = [] → s.bit F.VTG_STAT_domain = false →
      ∃ t, exec (.loadingDone false n) s = .next t ∧ t.vtState = vtArmed ∧ t.vtg.current = s.vtg.current) ∧
    (∀ n, s.vtState = vtLoading → Sound s 1 → c.slices = [] → s.bit F.VTG_STAT_domain = true →
      ∃ t, exec (.loadingDone false n) s = .next t ∧ t.vtState = vtHeld ∧ t.noRegs = s.noRegs
        ∧ RegsExcept s t [(F.VTG_STAT_state, [])]) ∧
    (∀ e n, s.vtState = vtLoading → (e = true ∨ (s.vintRead 1).1 = true) →
      ∃ t, exec (.loadingDone e n) s = .next t ∧ t.vtg.commit = none ∧ t.vtg.staged = s.vtg.current
        ∧ t.vtState = vtIdle ∧ t.rd F.VTG_STAT_last_fail = 7 ∧ t.pends 0x0C = true) ∧
    (s.vtState = vtHeld → ∃ t, exec .vtgRelease s = .next t ∧ t.vtState = vtArmed ∧ t.vtg.current = s.vtg.current) ∧
    (s.vtState = vtHeld → s.releaseOver c = true →
      ∃ t, exec .domainReleaseDeadline s = .next t ∧ t.vtg.commit = none ∧ t.vtg.staged = s.vtg.current
        ∧ t.vtState = vtIdle ∧ t.rd F.VTG_STAT_last_fail = 10 ∧ t.pends 0x0C = true) ∧
    (s.vtState = vtNegotiating → s.cutoff = true →
      ∃ t, exec .agreementCutoff s = .next t ∧ t.vtg.commit = none ∧ t.vtg.staged = s.vtg.current
        ∧ t.vtState = vtIdle ∧ t.rd F.VTG_STAT_last_fail = 8 ∧ t.pends 0x0C = true) ∧
    (s.withdrawable = true →
      ∃ t, exec .vtgWithdraw s = .next t ∧ t.vtg.commit = none ∧ t.vtg.staged = s.vtg.current ∧ t.vtState = vtIdle
        ∧ t.rd F.VTG_STAT_last_fail = 9 ∧ t.pends 0x0C = true) ∧
    (s.withdrawable = false → exec .vtgWithdraw s = .next s)

/-- R126, R133, R135, R140, R141: a commit that takes effect makes its image CURRENT and the outgoing image
PREVIOUS; a return makes PREVIOUS CURRENT again. Both raise VTG_DONE. -/
def Obligations.VintagesTakeEffect : Prop :=
  ∀ s : State,
    (∀ (c : Commit) (bnd : Fin 4), s.vtg.commit = some c → s.vtState = vtArmed → s.boundaryHere c bnd = true →
      (∀ i, i ∈ c.slices → (s.tdl1 i).farCancel = false) →
      ∃ t, exec (.commitTakeEffect bnd) s = .next t ∧ t.vtg.current = c.image ∧ t.vtg.previous = s.vtg.current
        ∧ t.vtg.staged = c.image ∧ t.vtg.commit = none ∧ t.bit F.VTG_STAT_prev_valid = true
        ∧ t.vtState = (if s.standby then vtIdle else vtProbation) ∧ t.pends 0x0C = true) ∧
    (∀ b, s.vtState = vtReturning → s.returnHere b = true →
      ∃ t, exec (.returnTakeEffect b) s = .next t ∧ t.vtg.current = s.vtg.previous ∧ t.vtg.previous = s.vtg.current
        ∧ t.vtg.staged = s.vtg.previous ∧ t.bit F.VTG_STAT_prev_valid = false ∧ t.vtState = vtIdle ∧ t.pends 0x0C = true)

/-- R136 to R142, R148: the causes of a return, the host's and a domain's request, the ends of probation, and its
check intervals. -/
def Obligations.Probation : Prop :=
  ∀ s : State, s.bit F.VTG_STAT_prev_valid = true →
    (∀ c k, (c, k) ∈ [(Instr.vtgRet, 6), (.vtgDomRet, 8)] → s.vtState ≠ vtReturning → s.commitPending = false →
      (Sound s 2 →
        ∃ t, exec c s = .next t ∧ t.vtg.retCause = k ∧ t.vtState = vtReturning ∧ t.vtg.current = s.vtg.current) ∧
      ((s.vintRead 2).1 = true →
        ∃ t, exec c s = .next t ∧ t.rd F.VTG_CMD_nomatch = 1 ∧ t.vtState = s.vtState ∧ t.vtg = s.vtg)) ∧
    (s.vtState = vtProbation → s.commitPending = false → s.curBit F.VTG_PROB_CFG_host_en = true → Sound s 2 →
      ∃ t, exec .vtgFail s = .next t ∧ t.vtg.retCause = 5 ∧ t.vtState = vtReturning ∧ t.vtg.current = s.vtg.current) ∧
    (s.vtState = vtProbation → ∃ t, exec .vtgAccept s = .next t ∧ t.vtState = vtIdle ∧ t.noRegs = s.noRegs
      ∧ t.bit F.VTG_STAT_prev_valid = true ∧ RegsExcept s t [(F.VTG_STAT_state, []), (F.VTG_STAT_line, [])]) ∧
    (s.probing = true → 10 * s.window ≤ s.vtg.probTicks →
      ∃ t, exec .probationEnd s = .next t ∧ t.vtState = vtIdle ∧ t.noRegs = s.noRegs
        ∧ RegsExcept s t [(F.VTG_STAT_state, []), (F.VTG_STAT_line, [])]) ∧
    (s.probing = true → s.overLimit s.vtg.ucb (s.cur F.VTG_PROB_THR_ucb_thr) = false →
      s.overLimit s.vtg.dlm (s.cur F.VTG_PROB_THR_dlm_thr) = false →
      ∃ t, exec .probationCheckInterval s = .next t ∧ t.vtg.probTicks = s.vtg.probTicks + 1 ∧ t.vtg.ucb = []
        ∧ t.vtg.dlm = [] ∧ t.vtState = vtProbation ∧ RegsExcept s t [(F.VTG_PROB_STAT_elapsed, [])]
        ∧ ({ t with regs := s.regs, vtg := s.vtg } : State) = s) ∧
    (s.probing = true → s.overLimit s.vtg.ucb (s.cur F.VTG_PROB_THR_ucb_thr) = true → s.commitPending = false → Sound s 2 →
      ∃ t, exec .probationCheckInterval s = .next t ∧ t.vtg.retCause = 2 ∧ t.vtState = vtReturning
        ∧ t.vtg.current = s.vtg.current)

/-- R127, R128, R143 to R145: host staging and the images that STAGED can be loaded with. -/
def Obligations.Staging : Prop :=
  ∀ s : State, s.stagedLocked = false →
    let a := s.rd F.VTG_STG_ADDR_value
    (s.standby = false → s.stageable a = true → (s.memWrite 6 (vintRow 1 a) false).1 = true →
      ∃ t, exec (.stageGo false) s = .next t
        ∧ t.vtg = { s.vtg with staged := imgMerge s.vtg.staged a (s.rd F.VTG_STG_DATA_value) (s.rd F.VTG_STG_MASK_value) }
        ∧ ({ t with vtg := s.vtg, cel := s.cel } : State) = s) ∧
    (s.standby = false → s.stageable a = true → (s.memWrite 6 (vintRow 1 a) false).1 = false →
      ∃ t, exec (.stageGo false) s = .next t ∧ t.vtg = s.vtg ∧ t.regs = s.regs) ∧
    (s.stageable a = true →
      ∃ t, exec .stageRead s = .next t ∧ t.rd F.VTG_STG_DATA_value = imgWord s.vtg.staged a % 2 ^ 24
        ∧ RegsExcept s t [(F.VTG_STG_DATA_value, [])] ∧ t.noRegs = s.noRegs) ∧
    (s.vtState ≠ vtReturning →
      (∃ t, exec .vtgResetStaged s = .next t ∧ t.vtg = { s.vtg with staged := s.vtg.current }
        ∧ ({ t with vtg := s.vtg, cel := s.cel } : State) = s) ∧
      (Sound s 3 → ∃ t, exec .vtgLoadRescue s = .next t ∧ t.vtg = { s.vtg with staged := s.vtg.rescue }
        ∧ ({ t with vtg := s.vtg, cel := s.cel } : State) = s) ∧
      ((s.vintRead 3).1 = true → ∃ t, exec .vtgLoadRescue s = .next t ∧ t.rd F.VTG_CMD_nomatch = 1 ∧ t.vtg = s.vtg) ∧
      (∀ x, s.archived (s.rd F.VTG_ARCH_SEL_serial) = some x →
        (s.celWaits = true → exec .vtgLoadArch s
          = .next { s with vtg := { s.vtg with loading := some (s.rd F.VTG_ARCH_SEL_serial) } }) ∧
        (∀ m u, s.celWaits = false → s.readImage x = (some m, u) →
          ∃ t, exec .vtgLoadArch s = .next t ∧ t.vtg = { u.vtg with staged := m }
            ∧ ({ t with vtg := u.vtg, cel := u.cel } : State) = u) ∧
        (∀ u, s.celWaits = false → s.readImage x = (none, u) → exec .vtgLoadArch s = .next (u.wr F.VTG_CMD_nomatch 1))) ∧
      (s.archived (s.rd F.VTG_ARCH_SEL_serial) = none → ∃ t, exec .vtgLoadArch s = .next t ∧ t.rd F.VTG_CMD_nomatch = 1
        ∧ t.noRegs = s.noRegs ∧ RegsExcept s t [(F.VTG_CMD_nomatch, [])]))

/-- R293, R295 to R301: what a received PROPOSE, ACCEPT, REFUSE, CANCEL and RETURN do, the end of a held proposal,
and the repeat of an unanswered PROPOSE. -/
def Obligations.Agreements : Prop :=
  ∀ (s : State) (i : Fin 8),
    (∀ g, s.tdlHead i (fun t => decide (t = tyPropose)) = some g → s.vtg.commit = none →
      ∃ t, exec (.propose i) s = .next t ∧ t.bit F.TDL_PROP_STAT_held [i] = true
        ∧ t.rd F.TDL_PROP_ID_value [i] = payWord g.body 0 % 2 ^ 24 ∧ t.rd F.TDL_PROP_BND_value [i] = payWord g.body 1 % 2 ^ 24
        ∧ t.vtg = s.vtg) ∧
    (∀ g, s.tdlHead i (fun t => decide (t = tyPropose)) = some g → s.vtg.commit.isSome = true → s.commits i = false →
      s.lit i = true → s.standby = false →
      ∃ t, exec (.propose i) s = .next t ∧ t.regs = s.regs ∧ t.vtg = s.vtg
        ∧ (t.tdl1 i).queue = (s.tdl1 i).queue ++ [⟨tyRefuse, wordBytes (payWord g.body 0) ++ wordBytes (3 * 2 ^ 20)⟩]) ∧
    (∀ g, s.tdlHead i (fun t => decide (t = tyAccept)) = some g → s.commits i = true → s.vtState = vtNegotiating →
      payWord g.body 0 = s.changeId i → payWord g.body 1 = s.rd F.TDL_AGR_BND_value [i] →
      ∃ t, exec (.accept i) s = .next t ∧ (t.tdl1 i).accRx = true ∧ (t.tdl1 i).inbox = (s.tdl1 i).inbox.tail
        ∧ t.vtg.current = s.vtg.current ∧ t.vtg.staged = s.vtg.staged) ∧
    (∀ g, s.tdlHead i (fun t => decide (t = tyRefuse)) = some g → s.commits i = true → s.withdrawable = true →
      payWord g.body 0 = s.changeId i →
      ∃ t, exec (.refuse i) s = .next t ∧ t.vtg.commit = none ∧ t.vtg.staged = s.vtg.current ∧ t.vtState = vtIdle
        ∧ t.rd F.VTG_STAT_last_fail = 8 ∧ t.rd F.TDL_EVT_refused [i] = 1 ∧ t.pends 0x0C = true) ∧
    (∀ g, s.tdlHead i (fun t => decide (t = tyCancel)) = some g → s.commits i = true → s.withdrawable = true →
      payWord g.body 0 = s.changeId i →
      ∃ t, exec (.cancel i) s = .next t ∧ t.vtg.commit = none ∧ t.vtg.staged = s.vtg.current ∧ t.vtState = vtIdle
        ∧ t.rd F.VTG_STAT_last_fail = 8 ∧ t.pends 0x0C = true) ∧
    (∀ g, s.tdlHead i (fun t => decide (t = tyReturn)) = some g → (s.tdl1 i).curId = some (payWord g.body 0) →
      s.bit F.VTG_STAT_prev_valid = true → s.vtState ≠ vtReturning → s.commitPending = false → Sound s 2 →
      ∃ t, exec (.returnMsg i) s = .next t ∧ t.vtg.retCause = 7 ∧ t.vtState = vtReturning
        ∧ t.vtg.current = s.vtg.current) ∧
    (s.bit F.TDL_PROP_STAT_held [i] = true →
      ∃ t, exec (.proposalHoldExpiry i) s = .next t ∧ t.bit F.TDL_PROP_STAT_held [i] = false
        ∧ (s.lit i = true → s.standby = false → (t.tdl1 i).queue = (s.tdl1 i).queue
            ++ [⟨tyRefuse, wordBytes (s.rd F.TDL_PROP_ID_value [i]) ++ wordBytes (1 * 2 ^ 20)⟩])
        ∧ RegsExcept s t [(F.TDL_PROP_STAT_held, [i])] ∧ ({ t with regs := s.regs, tdl := s.tdl } : State) = s) ∧
    (s.vtState = vtNegotiating → s.commits i = true → (s.tdl1 i).accRx = false → s.lit i = true → s.standby = false →
      ((s.tdl1 i).queue.all fun p => p.typ ≠ tyPropose) = true →
      ∃ t, exec (.proposeRetry i) s = .next t ∧ ((t.tdl1 i).queue.any fun p => p.typ = tyPropose) = true
        ∧ ({ t with tdl := s.tdl } : State) = s) ∧
    (∀ p, (s.tdl1 i).sending = some p → p.typ ≠ tyAccept →
      ∃ t, exec (.tendrilPacketSent i) s = .next t ∧ (t.tdl1 i).sending = none
        ∧ (0x80 ≤ p.typ → t.bit F.TDL_MB_TX_CMD_busy [i] = false) ∧ (p.typ = tyRefuse → t.rd F.TDL_EVT_refused [i] = 1)
        ∧ RegsExcept s t [(F.TDL_MB_TX_CMD_busy, [i]), (F.TDL_EVT_refused, [i])]
        ∧ ({ t with regs := s.regs, tdl := s.tdl, counters := s.counters } : State) = s)

/-- R490, R491: a window's transaction to another domain leaves as a TUNNEL message, a response ends it, and so does
its timeout. -/
def Obligations.RemoteFabric : Prop :=
  ∀ (s : State) (w : Fin 4),
    (∀ c k, (c, k) ∈ [(Instr.rfwRead w, 0), (.rfwWrite w, 1)] → s.blockGated 15 = false → s.bit F.PRY_RFW_CMD_busy [w] = false →
      s.rd F.PRY_RFW_CMD_dom [w] ≠ s.rd F.PRY_DOM_STAT_dom →
      s.bit F.PRY_DOM_NODE_present [s.rd F.PRY_RFW_CMD_dom [w]] = true → s.rd F.PRY_RFW_CMD_dom [w] < 64 →
      s.portFor (s.rd F.PRY_RFW_CMD_dom [w]) < 6 → s.linked (s.portFor (s.rd F.PRY_RFW_CMD_dom [w])) = true →
      ∃ t, exec c s = .next t ∧ t.bit F.PRY_RFW_CMD_busy [w] = true ∧ t.rd F.PRY_RFW_CMD_op [w] = k
        ∧ tabGet none t.pry.txn w = some (s.pry.nextTxn % 256, decide (k = 1))
        ∧ (t.port (s.portFor (s.rd F.PRY_RFW_CMD_dom [w]))).wait = (s.port (s.portFor (s.rd F.PRY_RFW_CMD_dom [w]))).wait
            ++ [(⟨2, k, s.rd F.PRY_RFW_CMD_dom [w], s.rd F.PRY_DOM_STAT_dom,
                [s.pry.nextTxn % 256 * 2 ^ 16, s.rd F.PRY_RFW_ADDR_value [w], s.rd F.PRY_RFW_DATA_value [w]]⟩, 1)]
        ∧ t.vtg = s.vtg ∧ RegsExcept s t [(F.PRY_RFW_CMD_op, [w]), (F.PRY_RFW_CMD_busy, [w])]) ∧
    (∀ c, c ∈ [Instr.rfwRead w, .rfwWrite w] → s.blockGated 15 = true → exec c s = .next s) ∧
    (∀ c, c ∈ [Instr.rfwRead w, .rfwWrite w] → s.blockGated 15 = false → s.bit F.PRY_RFW_CMD_busy [w] = true →
      ∃ t, exec c s = .next t ∧ t.rd F.PRY_RFW_CMD_refused [w] = 1 ∧ t.noRegs = s.noRegs
        ∧ RegsExcept s t [(F.PRY_RFW_CMD_op, [w]), (F.PRY_RFW_CMD_refused, [w])]) ∧
    ((tabGet none s.pry.txn w).isSome = true →
      ∃ t, exec (.rfwTimeout w) s = .next t ∧ t.bit F.PRY_RFW_CMD_busy [w] = false ∧ t.rd F.PRY_RFW_CMD_status [w] = 3
        ∧ tabGet none t.pry.txn w = none ∧ t.vtg = s.vtg
        ∧ RegsExcept s t [(F.PRY_RFW_CMD_busy, [w]), (F.PRY_RFW_CMD_status, [w])]
        ∧ ({ t with regs := s.regs, pry := s.pry } : State) = s) ∧
    (∀ (p : Fin 6) m rest, takeMsg (fun m => decide (m.cls = 2 ∧ m.kind = 2)) (s.port p).inbox = some (m, rest) →
      s.tunnelHere m = true → s.windowOf (m.words.getD 0 0 / 2 ^ 16 % 256) = some w.val →
      ∃ t, exec (.response p) s = .next t ∧ t.bit F.PRY_RFW_CMD_busy [w] = false
        ∧ t.rd F.PRY_RFW_CMD_status [w] = m.words.getD 0 0 / 2 ^ 14 % 4 ∧ tabGet none t.pry.txn w = none) ∧
    (∀ (p : Fin 6) m rest, takeMsg (fun m => decide (m.cls = 2 ∧ m.kind ≤ 1)) (s.port p).inbox = some (m, rest) →
      s.tunnelHere m = false → s.portFor m.dst ≠ p.val → s.linked (s.portFor m.dst) = true →
      ∃ t, exec (.tunnelRequestRx p) s = .next t
        ∧ (t.port (s.portFor m.dst)).wait = (s.port (s.portFor m.dst)).wait ++ [(m, pryFrames m)]
        ∧ (t.port p).inbox = rest ∧ ({ t with pry := s.pry } : State) = s) ∧
    (∀ (p : Fin 6) m rest v u, takeMsg (fun m => decide (m.cls = 2 ∧ m.kind ≤ 1)) (s.port p).inbox = some (m, rest) →
      s.tunnelHere m = true → m.kind = 0 → s.upClocked = false →
      (s.setPort p { s.port p with inbox := rest }).innerRead (m.words.getD 1 0) = (some v, u) → u.linked p = true →
      ∃ t, exec (.tunnelRequestRx p) s = .next t ∧ (t.port p).inbox = rest ∧ t.regs = u.regs
        ∧ (t.port p).wait = (s.port p).wait
            ++ [(⟨2, 2, m.src, m.dst, [m.words.getD 0 0 / 2 ^ 16 % 256 * 2 ^ 16, v]⟩, 1)])

/-- R184 to R188, R197: the causes of a recalibration run wait until it starts, a run in progress aborts into a
restore rotation, and a free engine starts what waits. -/
def Obligations.RecalCauses : Prop :=
  ∀ (s : State) (i : Fin 8),
    (s.sliceState i = slDark → exec (.recalRunCmd i) s = .next s) ∧
    ((s.curBit F.CNV_GEN_CFG_use [i] = true ∨ s.lit i = false) → s.sliceState i ≠ slDark →
      ∃ t, exec (.recalRunCmd i) s = .next t ∧ t.rd F.CNV_RECAL_CMD_refused [i] = 1 ∧ t.noRegs = s.noRegs
        ∧ RegsExcept s t [(F.CNV_RECAL_CMD_refused, [i])]) ∧
    (s.curBit F.CNV_GEN_CFG_use [i] = false → s.lit i = true →
      ∃ t, exec (.recalRunCmd i) s = .next t ∧ t.bit F.CNV_STAT_pending [i] = true ∧ 3 ∈ (t.conv1 i).pendCauses
        ∧ (1 ≤ s.mode → s.mode ≤ 4 → s.calBusy i = false → (s.conv1 i).wait ≠ some true →
            (t.conv1 i).wait = some false ∧ ∃ r, r ∈ t.calEng.reqs ∧ r.cls = i.val)
        ∧ RegsExcept s t [(F.CNV_STAT_pending, [i])]
        ∧ ({ t with regs := s.regs, conv := s.conv, calEng := s.calEng } : State) = s) ∧
    (s.cur F.CNV_RECAL_CFG_interval [i] = 0 → exec (.recalIntervalExpiry i) s = .next s) ∧
    (s.cur F.CNV_RECAL_CFG_interval [i] ≠ 0 →
      ∃ t, exec (.recalIntervalExpiry i) s = .next t ∧ t.bit F.CNV_STAT_pending [i] = true ∧ 2 ∈ (t.conv1 i).pendCauses
        ∧ RegsExcept s t [(F.CNV_STAT_pending, [i])]
        ∧ ({ t with regs := s.regs, conv := s.conv, calEng := s.calEng } : State) = s) ∧
    (∀ temp : BitVec 10, ∃ t, exec (.converterTempReading i temp) s = .next t ∧ t.rd F.CNV_STAT_temp [i] = temp.toNat
      ∧ (s.tempCause i temp.toInt = true → t.bit F.CNV_STAT_pending [i] = true ∧ 1 ∈ (t.conv1 i).pendCauses)
      ∧ (s.tempCause i temp.toInt = false → t.conv = s.conv)
      ∧ RegsExcept s t [(F.CNV_STAT_temp, [i]), (F.CNV_STAT_pending, [i])]
      ∧ ({ t with regs := s.regs, conv := s.conv, calEng := s.calEng } : State) = s) ∧
    (s.bit F.CNV_STAT_run_active [i] = false → exec (.recalAbortCmd i) s = .next s) ∧
    (s.bit F.CNV_STAT_run_active [i] = true →
      ∃ t, exec (.recalAbortCmd i) s = .next t ∧ t.bit F.CNV_STAT_run_active [i] = false ∧ (t.conv1 i).wait = some true
        ∧ (t.conv1 i).goal = s.genInUse i ∧ (t.conv1 i).newest = (s.conv1 i).newest ∧ (t.conv1 i).work = []
        ∧ t.cask = s.cask ∧ (∃ r, r ∈ t.calEng.reqs ∧ r.cls = i.val ∧ 3 ≤ r.entry)
        ∧ RegsExcept s t [(F.CNV_STAT_run_active, [i]), (F.CNV_STAT_restore_active, [i]), (F.CNV_RECAL_STAT_stage, [i]),
            (F.CNV_RECAL_STAT_phase, [i]), (F.CNV_CAP_STAT_hb, [i])]
        ∧ ({ t with regs := s.regs, conv := s.conv, calEng := s.calEng, capture := s.capture } : State) = s) ∧
    (s.claimed 0x14 = true ∨ 4 ≤ s.enginesBusy → exec .calEngineGrant s = .next s) ∧
    (∀ r x, s.claimed 0x14 = false → s.enginesBusy < 4 → r.cls = i.val →
      s.calEng.grant (fun i => max 1 (s.rd F.CNV_SOL_CFG_weight [i])) (fun r => s.engineOk r.cls) = some (r, x) →
      ∃ t, exec .calEngineGrant s = .next t ∧ t.rd F.CNV_RECAL_STAT_stage [i] = 1 ∧ t.rd F.CNV_RECAL_STAT_phase [i] = 0
        ∧ ((s.conv1 i).wait = some true → t.bit F.CNV_STAT_restore_active [i] = true
            ∧ (t.conv1 i).goal = (s.conv1 i).goal)
        ∧ ((s.conv1 i).wait ≠ some true → t.bit F.CNV_STAT_run_active [i] = true ∧ (t.conv1 i).pendCauses = []
            ∧ t.bit F.CNV_STAT_pending [i] = false ∧ (t.conv1 i).cause = topCause (s.conv1 i).pendCauses
            ∧ (t.conv1 i).work = s.trimsInForce i)
        ∧ (t.conv1 i).newest = (s.conv1 i).newest
        ∧ RegsExcept s t [(F.CNV_STAT_run_active, [i]), (F.CNV_STAT_restore_active, [i]), (F.CNV_STAT_pending, [i]),
            (F.CNV_RECAL_STAT_stage, [i]), (F.CNV_RECAL_STAT_phase, [i]), (F.CNV_RECAL_STAT_cause, [i])]
        ∧ ({ t with regs := s.regs, conv := s.conv, calEng := s.calEng } : State) = s)

/-- R178 to R181, R183, R190, R192, R198: the phases of a run, its new generation, the rotation that restores one,
and the save. -/
def Obligations.RecalPhases : Prop :=
  ∀ (s : State) (i : Fin 8),
    (∀ (adcs : List MatchResult) (a : Fin 4) m, adcs[a.val]? = some m →
      (s.matchFails i adcs / 2 ^ a.val % 2 = 1 ↔ s.noSpare i / 2 ^ a.val % 2 = 0 ∧ ¬Matched m)) ∧
    (∀ adcs, s.rd F.CNV_RECAL_STAT_stage [i] = 1 → s.matchFails i adcs ≠ 0 → (s.conv1 i).retried = 0 →
      ∃ t, exec (.spareMatchEnd i adcs) s = .next t ∧ (t.conv1 i).retried = s.matchFails i adcs
        ∧ (∀ a : Fin 4, s.noSpare i / 2 ^ a.val % 2 ≠ 1 →
            t.rd F.CNV_ADC_TRIM_A_gain [i, a, s.rd F.CNV_ADC_STAT_spare_pos [i, a]]
              = ofSigned 12 (clampBits 12 ((adcs[a.val]?.map MatchResult.trims).getD ⟨0, 0, 0⟩).gain))
        ∧ RegsExcept s t (matchFields s i) ∧ ({ t with regs := s.regs, conv := s.conv } : State) = s) ∧
    (∀ adcs, s.rd F.CNV_RECAL_STAT_stage [i] = 1 → s.matchFails i adcs ≠ 0 → (s.conv1 i).retried ≠ 0 →
      ∃ t, exec (.spareMatchEnd i adcs) s = .next t ∧ t.rd F.CNV_RECAL_STAT_stage [i] = 2
        ∧ t.rd F.CNV_STAT_phase_skip [i] = 1 ∧ t.pends 0x11 = true
        ∧ (t.conv1 i).retried = s.matchFails i adcs ||| s.noSpare i
        ∧ RegsExceptE s t ((F.CNV_RECAL_STAT_stage, [i.val]) :: (F.CNV_STAT_phase_skip, [i.val]) :: matchFields s i)) ∧
    (∀ adcs, s.rd F.CNV_RECAL_STAT_stage [i] = 1 → s.noSpare i = 0 → s.matchFails i adcs = 0 →
      ∃ t, exec (.spareMatchEnd i adcs) s = .next t ∧ t.rd F.CNV_RECAL_STAT_stage [i] = 2 ∧ (t.conv1 i).retried = 0
        ∧ RegsExcept s t ((F.CNV_RECAL_STAT_stage, [i.val]) :: matchFields s i)
        ∧ ({ t with regs := s.regs, conv := s.conv } : State) = s) ∧
    (∀ adc taps, s.bit F.CNV_STAT_run_active [i] = true → s.rd F.CNV_RECAL_STAT_stage [i] = 2 →
      ∃ t, exec (.runStepHandBack i (some (adc, taps))) s = .next t ∧ t.rd F.CNV_RECAL_STAT_stage [i] = 3
        ∧ (∀ a : Fin 4, (s.conv1 i).retried / 2 ^ a.val % 2 ≠ 1 →
            imgGet (t.conv1 i).work F.CNV_ADC_TRIM_A_gain [i, a, s.rd F.CNV_RECAL_STAT_phase [i]]
              = ofSigned 12 (clampBits 12 (adc.getD a ⟨0, 0, 0⟩).gain))
        ∧ RegsExcept s t [(F.CNV_RECAL_STAT_stage, [i]), (F.CNV_STAT_trim_sat, [i])]
        ∧ ({ t with regs := s.regs, conv := s.conv } : State) = s) ∧
    (∀ m, s.bit F.CNV_STAT_run_active [i] = false → s.bit F.CNV_STAT_restore_active [i] = true →
      s.rd F.CNV_RECAL_STAT_stage [i] = 2 →
      ∃ t, exec (.runStepHandBack i (some m)) s = .next t ∧ t.rd F.CNV_RECAL_STAT_stage [i] = 3
        ∧ RegsExcept s t [(F.CNV_RECAL_STAT_stage, [i])] ∧ ({ t with regs := s.regs } : State) = s) ∧
    (∀ a : Fin 4, s.calBusy i = true → s.rd F.CNV_RECAL_STAT_stage [i] = 3 → s.rd F.CNV_RECAL_STAT_phase [i] < 63 →
      (s.conv1 i).retried / 2 ^ a.val % 2 ≠ 1 →
      let p := s.rd F.CNV_RECAL_STAT_phase [i]
      let m := if s.bit F.CNV_STAT_run_active [i] then (s.conv1 i).work else (s.conv1 i).goal.trims
      ∃ t, exec (.runStepHandBack i none) s = .next t
        ∧ t.rd F.CNV_RECAL_STAT_phase [i] = p + 1 ∧ t.rd F.CNV_RECAL_STAT_stage [i] = 1 ∧ (t.conv1 i).retried = 0
        ∧ (∀ f, f ∈ [F.CNV_ADC_TRIM_A_gain, F.CNV_ADC_TRIM_A_offset, F.CNV_ADC_TRIM_B_skew] →
            t.rd f [i, a, p] = imgGet m f [i, a, p] % 2 ^ fldWidth f)
        ∧ RegsExcept s t ((F.CNV_RECAL_STAT_stage, [i.val]) :: (F.CNV_RECAL_STAT_phase, [i.val])
            :: (F.CNV_CAP_STAT_hb, [i.val]) :: [0, 1, 2, 3].flatMap fun a => adcTrimFields i a p)
        ∧ ({ t with regs := s.regs, conv := s.conv, capture := s.capture } : State) = s) ∧
    (s.calBusy i = true → s.rd F.CNV_RECAL_STAT_stage [i] = 3 → 63 ≤ s.rd F.CNV_RECAL_STAT_phase [i] →
      ∃ t, exec (.runStepHandBack i none) s = .next t ∧ (t.conv1 i).lateStep = true
        ∧ t.rd F.CNV_RECAL_STAT_stage [i] = 0 ∧ t.vtg = s.vtg ∧ t.cask = s.cask) ∧
    (∀ dac (d : Fin 4), s.bit F.CNV_STAT_run_active [i] = true → (s.conv1 i).lateStep = true →
      ∃ t, exec (.runComplete i dac) s = .next t ∧ t.bit F.CNV_STAT_run_active [i] = false
        ∧ (t.conv1 i).newest.serial = nextSerial (s.conv1 i).lastIssued
        ∧ t.rd F.CNV_GEN_NEW_serial [i] = nextSerial (s.conv1 i).lastIssued
        ∧ (t.conv1 i).previous = (if (s.conv1 i).replacing then (s.conv1 i).previous else some (s.conv1 i).newest)
        ∧ (t.conv1 i).saves = (s.conv1 i).saves ++ [(t.conv1 i).newest] ∧ t.pends 0x10 = true ∧ t.cask = s.cask
        ∧ t.rd F.CNV_DAC_TRIM_A_gain [i, d] = ofSigned 12 (clampBits 12 (dac.getD d ⟨0, 0, 0⟩).gain) ∧ t.vtg = s.vtg) ∧
    (∀ d : Fin 4, s.bit F.CNV_STAT_restore_active [i] = true → (s.conv1 i).lateStep = true →
      ∃ t, exec (.restoreRotationComplete i) s = .next t ∧ t.bit F.CNV_STAT_restore_active [i] = false
        ∧ (t.conv1 i).lateStep = false ∧ (t.conv1 i).newest = (s.conv1 i).newest
        ∧ (t.conv1 i).previous = (s.conv1 i).previous
        ∧ t.rd F.CNV_DAC_TRIM_A_gain [i, d] = imgGet (s.conv1 i).goal.trims F.CNV_DAC_TRIM_A_gain [i, d] % 2 ^ 12
        ∧ t.cask = s.cask ∧ t.vtg = s.vtg) ∧
    (∀ g gs, (s.conv1 i).saves = g :: gs → s.claimed 0x1F = false →
      let sec := s.saveSector (s.areaStart 1 + 3 * i * 4096)
      let done := (s.caskErase sec).caskProgram sec (recordBytes i g)
      (∃ t, exec (.caskSave i true) s = .next t ∧ t.cask = done.cask ∧ (t.conv1 i).saves = gs
        ∧ (t.conv1 i).newest = (s.conv1 i).newest ∧ ({ t with cask := s.cask, conv := s.conv } : State) = s) ∧
      ((s.conv1 i).saveRetry = false → ∃ t, exec (.caskSave i false) s = .next t ∧ t.recordSerial sec = none
        ∧ (∀ a, a < sec ∨ sec + 4096 ≤ a → t.caskByte a = s.caskByte a)
        ∧ (t.conv1 i).saves = g :: gs ∧ (t.conv1 i).saveRetry = true
        ∧ ({ t with cask := s.cask, conv := s.conv, free := s.free } : State) = s) ∧
      ((s.conv1 i).saveRetry = true → ∃ t, exec (.caskSave i false) s = .next t ∧ (t.conv1 i).saves = gs
        ∧ (t.conv1 i).saveRetry = false ∧ (s.sliceState i ≠ slDark → t.rd F.CNV_STAT_save_fail [i] = 1) ∧ t.pends 0x12 = true
        ∧ (∀ a, a < sec ∨ sec + 4096 ≤ a → t.caskByte a = s.caskByte a)
        ∧ RegsExceptE s t [(F.CNV_STAT_save_fail, [i])]))

/-- R200 to R204, R398, R400, R405: clipping in a window of a LIT slice, and the line capture: go, trigger, filled
and drained segments, stop. -/
def Obligations.ClippingAndCapture : Prop :=
  ∀ (s : State) (i : Fin 8),
    (s.lit i = false → ∀ codes, exec (.clipWindow i codes) s = .next s) ∧
    (∀ codes (a : Fin 4), s.lit i = true → s.rd F.CNV_CLIP_CFG_k [i] = 0 →
      let n := (codes.filter fun c => decide (c.1 = a ∧ c.2.1.val ≠ s.offlineSlice i a)).countP fun c =>
        decide (c.2.2 = 127#8 ∨ c.2.2 = 128#8)
      ∃ t, exec (.clipWindow i codes) s = .next t
        ∧ t.rd F.CNV_ADC_STAT_ovr [i, a] = (if n = 0 then s.rd F.CNV_ADC_STAT_ovr [i, a] else 1)
        ∧ tabGet 0 t.counters (8 * i + a) = (tabGet 0 s.counters (8 * i + a) + n) % 2 ^ 48
        ∧ RegsExcept s t [(F.CNV_ADC_STAT_ovr, [i, 0]), (F.CNV_ADC_STAT_ovr, [i, 1]), (F.CNV_ADC_STAT_ovr, [i, 2]),
            (F.CNV_ADC_STAT_ovr, [i, 3])]
        ∧ ({ t with regs := s.regs, counters := s.counters, tx := s.tx } : State) = s) ∧
    (∀ codes n, s.lit i = true → n ∈ s.clipCounts i codes → n.1 < n.2 * 2 ^ s.rd F.CNV_CLIP_CFG_k [i] →
      s.rd F.CNV_CLIP_CFG_k [i] ≠ 0 → ∃ t, exec (.clipWindow i codes) s = .next t ∧ t.pends 0x13 = true) ∧
    (s.sliceState i = slDark → exec (.captureGo i) s = .next s) ∧
    ((s.capture.slice ≠ none ∨ s.lit i = false) → s.sliceState i ≠ slDark →
      ∃ t, exec (.captureGo i) s = .next t ∧ t.rd F.CNV_CAP_CMD_refused [i] = 1 ∧ t.noRegs = s.noRegs
        ∧ RegsExcept s t [(F.CNV_CAP_CMD_refused, [i])]) ∧
    (s.capture.slice = none → s.lit i = true →
      let latched : Capture := ⟨some i, max 1 (s.rd F.CNV_CAP_LEN_segs [i]), s.rd F.CNV_CAP_CFG_src [i],
        s.rd F.CNV_CAP_CFG_trig [i], s.rd F.CNV_CAP_CFG_timer [i], s.rd F.CNV_CAP_CFG_event [i], s.rd F.CNV_CAP_LEN_post [i],
        s.tim.now, none, []⟩
      (s.rd F.CNV_CAP_CFG_trig [i] = 1 ∨ s.rd F.CNV_CAP_CFG_trig [i] = 2 →
        ∃ t, exec (.captureGo i) s = .next t ∧ t.rd F.CNV_CAP_STAT_state [i] = 1 ∧ t.rd F.CNV_CAP_STAT_done [i] = 0
          ∧ t.capture = latched ∧ RegsExcept s t [(F.CNV_CAP_STAT_state, [i]), (F.CNV_CAP_STAT_done, [i])]
          ∧ ({ t with regs := s.regs, capture := s.capture } : State) = s) ∧
      (s.rd F.CNV_CAP_CFG_trig [i] = 0 ∨ s.rd F.CNV_CAP_CFG_trig [i] = 3 →
        ∃ t, exec (.captureGo i) s = .next t ∧ t.rd F.CNV_CAP_STAT_state [i] = 2 ∧ t.rd F.CNV_CAP_STAT_done [i] = 0
          ∧ t.capture = latched ∧ t.rd F.CNV_CAP_TIME_H_value [i] = s.time.toNat / 2 ^ 24
          ∧ t.rd F.CNV_CAP_TIME_L_value [i] = s.time.toNat % 2 ^ 24
          ∧ (s.rd F.CNV_CAP_LEN_post [i] < 4096 → t.rd F.CNV_CAP_STAT_pre_short [i] = 1)
          ∧ RegsExcept s t [(F.CNV_CAP_STAT_state, [i]), (F.CNV_CAP_STAT_done, [i]), (F.CNV_CAP_STAT_pre_short, [i]),
              (F.CNV_CAP_TIME_H_value, [i]), (F.CNV_CAP_TIME_L_value, [i]), (F.CNV_CAP_SF_value, [i])]
          ∧ ({ t with regs := s.regs, capture := s.capture } : State) = s)) ∧
    (s.capture.slice = none → (∀ trig, exec (.captureTrigger trig) s = .next s) ∧ exec .captureSegmentFilled s = .next s
      ∧ (∀ codes, exec (.captureSegmentDrained codes) s = .next s) ∧ exec (.captureStop i) s = .next s) ∧
    (s.capture.slice = some i →
      (∀ trig, ¬CapWaits s trig → exec (.captureTrigger trig) s = .next s) ∧
      (∀ trig, CapWaits s trig → s.rd F.CNV_CAP_STAT_state [i] = 1 →
        ∃ t, exec (.captureTrigger trig) s = .next t ∧ t.rd F.CNV_CAP_STAT_state [i] = 2 ∧ t.noRegs = s.noRegs
          ∧ (s.rd F.CNV_CAP_STAT_done [i] = 0 → t.rd F.CNV_CAP_TIME_H_value [i] = s.time.toNat / 2 ^ 24)
          ∧ (instantsIn (s.cur F.RXD_MODE_CFG_baud [i]) (s.tim.now - s.capture.armedAt) + 512 * s.capture.post < 2 ^ 21 →
              t.rd F.CNV_CAP_STAT_pre_short [i] = 1)
          ∧ RegsExcept s t [(F.CNV_CAP_STAT_state, [i]), (F.CNV_CAP_STAT_pre_short, [i]), (F.CNV_CAP_STAT_hb, [i]),
            (F.CNV_CAP_TIME_H_value, [i]), (F.CNV_CAP_TIME_L_value, [i]), (F.CNV_CAP_SF_value, [i])]) ∧
      (∀ trig, CapWaits s trig → s.rd F.CNV_CAP_STAT_state [i] ≠ 1 →
        ∃ t, exec (.captureTrigger trig) s = .next t ∧ t.noRegs = s.noRegs
          ∧ t.rd F.CNV_CAP_STAT_missed [i] = (if s.sliceState i = slDark then s.rd F.CNV_CAP_STAT_missed [i] else 1)
          ∧ RegsExcept s t [(F.CNV_CAP_STAT_missed, [i])]) ∧
      (s.rd F.CNV_CAP_STAT_state [i] = 2 →
        ∃ t, exec .captureSegmentFilled s = .next t ∧ t.rd F.CNV_CAP_STAT_state [i] = 3
          ∧ tabGet 0 t.cel.work 5 = tabGet 0 s.cel.work 5 + 69632 ∧ (∃ r, r ∈ t.cel.sol.reqs ∧ r.cls = 5)
          ∧ RegsExcept s t [(F.CNV_CAP_STAT_state, [i])] ∧ ({ t with regs := s.regs, cel := s.cel } : State) = s) ∧
      (s.celWaits = true → ∀ codes, exec (.captureSegmentDrained codes) s = .next s) ∧
      (∀ codes, s.rd F.CNV_CAP_STAT_state [i] = 3 → s.celWaits = false → s.bit F.CEL_STAT_avail = true →
        s.rd F.CNV_CAP_STAT_done [i] < s.rd F.CEL_CAP_STAT_segs → s.rd F.CNV_CAP_STAT_done [i] < 4095 →
        (s.memRead 1 0).1 = false →
        (s.rd F.CNV_CAP_STAT_done [i] + 1 < s.capture.segs → s.capture.trig = 1 ∨ s.capture.trig = 2 →
          ∃ t, exec (.captureSegmentDrained codes) s = .next t
            ∧ t.rd F.CNV_CAP_STAT_done [i] = s.rd F.CNV_CAP_STAT_done [i] + 1 ∧ t.rd F.CNV_CAP_STAT_state [i] = 1
            ∧ t.capture = { s.capture with armedAt := s.tim.now, handBack := none, dac := [] } ∧ tabGet 0 t.cel.work 5 = 0
            ∧ RegsExcept s t [(F.CNV_CAP_STAT_state, [i]), (F.CNV_CAP_STAT_done, [i])]) ∧
        (s.capture.segs ≤ s.rd F.CNV_CAP_STAT_done [i] + 1 →
          ∃ t, exec (.captureSegmentDrained codes) s = .next t
            ∧ t.rd F.CNV_CAP_STAT_done [i] = s.rd F.CNV_CAP_STAT_done [i] + 1 ∧ t.rd F.CNV_CAP_STAT_state [i] = 0
            ∧ t.capture = Capture.idle ∧ t.pends 0x14 = true
            ∧ RegsExceptE s t [(F.CNV_CAP_STAT_state, [i]), (F.CNV_CAP_STAT_done, [i])])) ∧
      (∀ codes, s.rd F.CNV_CAP_STAT_state [i] = 3 → s.celWaits = false →
        s.bit F.CEL_STAT_avail = false ∨ s.rd F.CEL_CAP_STAT_segs ≤ s.rd F.CNV_CAP_STAT_done [i] →
        ∃ t, exec (.captureSegmentDrained codes) s = .next t ∧ t.rd F.CNV_CAP_STAT_state [i] = 0
          ∧ (s.sliceState i ≠ slDark → t.rd F.CNV_CAP_STAT_trunc [i] = 1)
          ∧ t.capture.slice = none ∧ t.pends 0x14 = true
          ∧ RegsExceptE s t [(F.CNV_CAP_STAT_state, [i]), (F.CNV_CAP_STAT_trunc, [i])]) ∧
      (s.rd F.CNV_CAP_STAT_state [i] = 1 →
        ∃ t, exec (.captureStop i) s = .next t ∧ t.rd F.CNV_CAP_STAT_state [i] = 0 ∧ t.capture.slice = none
          ∧ t.pends 0x14 = true ∧ RegsExceptE s t [(F.CNV_CAP_STAT_state, [i])]) ∧
      (s.rd F.CNV_CAP_STAT_state [i] = 2 →
        ∃ t, exec (.captureStop i) s = .next t ∧ t.rd F.CNV_CAP_STAT_state [i] = 3 ∧ t.rd F.CNV_CAP_STAT_trunc [i] = 1
          ∧ t.capture.segs = s.rd F.CNV_CAP_STAT_done [i] + 1
          ∧ RegsExcept s t [(F.CNV_CAP_STAT_state, [i]), (F.CNV_CAP_STAT_trunc, [i])]) ∧
      (s.rd F.CNV_CAP_STAT_state [i] = 3 →
        exec (.captureStop i) s = .next { s with capture := { s.capture with segs := s.rd F.CNV_CAP_STAT_done [i] + 1 } }))

/-- R207 to R219, R227 to R232: the moves of the acquisition state machine, its limits and failures, and cycle
slips. The clauses of a loss in TRACK are those of a device that runs on its reference. The units in which offsets,
spreads and correlations are given are the model's (log 17). -/
def Obligations.Acquisition : Prop :=
  ∀ (s : State) (i : Fin 8),
    (∀ samples, s.acq i = acqPilotSync →
      let n := symbolsIn samples.length
      let eq := (s.frontEnd i samples.length samples).2.equalised i n n (s.frontEnd i samples.length samples).1
      (∀ p, syncFound (s.rxSet i).period (s.rxBaud i) eq.1 = some p →
        ∃ t, exec (.pilotSyncFound i samples) s = .next t ∧ t.acq i = acqCarrier
          ∧ (t.dsp1 i).pos = (p + n) % superframeSymbols (s.rxBaud i) ∧ (t.dsp1 i).since = s.tim.now
          ∧ (t.dsp1 i).taps = (s.dsp1 i).taps ∧ (t.dsp1 i).freq = (s.dsp1 i).freq
          ∧ RegsExcept s t [(F.RXD_ACQ_STAT_state, [i]), (F.RXD_ACQ_STAT_los, [i]), (F.RXD_EVT_sat, [i])]
          ∧ ({ t with regs := s.regs, rx := s.rx, free := s.free } : State) = s) ∧
      (syncFound (s.rxSet i).period (s.rxBaud i) eq.1 = none →
        ∃ t, exec (.pilotSyncFound i samples) s = .next t ∧ t.acq i = acqPilotSync
          ∧ RegsExcept s t [(F.RXD_EVT_sat, [i])] ∧ ({ t with regs := s.regs, rx := s.rx, free := s.free } : State) = s)) ∧
    (s.acq i = acqHold →
      ∃ t, exec (.inputReturn i) s = .next t ∧ t.acq i = acqPilotSync ∧ t.rd F.RXD_ACQ_STAT_los [i] = 0 ∧ (t.dsp1 i).since = s.tim.now
        ∧ (t.dsp1 i).nco = (s.dsp1 i).nco ∧ (t.dsp1 i).taps = (s.dsp1 i).taps ∧ (t.dsp1 i).freq = (s.dsp1 i).freq
        ∧ RegsExcept s t [(F.RXD_ACQ_STAT_state, [i]), (F.RXD_ACQ_STAT_los, [i])]
        ∧ ({ t with regs := s.regs, rx := s.rx } : State) = s) ∧
    (s.acq i = acqHold → s.acqOver i = true →
      ∃ t, exec (.holdExpiry i) s = .next t ∧ t.acq i = acqSignal ∧ t.rd F.RXD_ACQ_STAT_los [i] = 0
        ∧ (t.rx1 i).posSet = false ∧ RegsExcept s t [(F.RXD_ACQ_STAT_state, [i]), (F.RXD_ACQ_STAT_los, [i])]
        ∧ ({ t with regs := s.regs, rx := s.rx } : State) = s) ∧
    (∀ off, s.acq i = acqClock →
      (off.natAbs ≤ 204800 → ∃ t, exec (.clockLock i off) s = .next t ∧ t.acq i = acqBlind ∧ (t.dsp1 i).nco = off
        ∧ (t.dsp1 i).taps = unitTaps (eqTaps (s.cur F.RXD_EQ_CFG_taps [i]))
        ∧ RegsExcept s t [(F.RXD_ACQ_STAT_state, [i]), (F.RXD_ACQ_STAT_los, [i])]
        ∧ ({ t with regs := s.regs, rx := s.rx } : State) = s) ∧
      (204800 < off.natAbs → ∃ t, exec (.clockLock i off) s = .next t ∧ t.acq i = acqClock
        ∧ (t.dsp1 i).nco = (if off < 0 then -204800 else 204800) ∧ ({ t with rx := s.rx } : State) = s)) ∧
    (∀ dgd cd, s.acq i = acqBlind →
      let r := baudOf (s.rxBaud i)
      let resid := cd - toSigned 24 (s.rd F.RXD_CD_EST_cd [i])
      let limit := (eqTaps (s.cur F.RXD_EQ_CFG_taps [i]) - 7) * (4 * 10 ^ 9)
      (dgd * r * 10 ^ 4 + resid.natAbs * 80137 * r ^ 2 ≤ limit →
        ∃ t, exec (.blindConverged i dgd cd) s = .next t ∧ t.acq i = acqPilotSync
          ∧ RegsExcept s t [(F.RXD_ACQ_STAT_state, [i]), (F.RXD_ACQ_STAT_los, [i])]
          ∧ ({ t with regs := s.regs, rx := s.rx } : State) = s) ∧
      (limit < dgd * r * 10 ^ 4 + resid.natAbs * 80137 * r ^ 2 → exec (.blindConverged i dgd cd) s = .next s)) ∧
    (s.acq i = acqSignal → s.held i = false →
      ∃ t, exec (.acqSignalDetect i) s = .next t ∧ t.acq i = acqCd ∧ (t.rx1 i).singulars = 0 ∧ (t.dsp1 i).since = s.tim.now
        ∧ RegsExcept s t [(F.RXD_ACQ_STAT_state, [i]), (F.RXD_ACQ_STAT_los, [i])]
        ∧ ({ t with regs := s.regs, rx := s.rx } : State) = s) ∧
    (∀ coarse fine peak, s.acq i = acqCd → s.scanDone i = true →
      ∃ t, exec (.cdScanEnd i coarse fine peak) s = .next t ∧ t.acq i = acqClock
        ∧ t.rd F.RXD_CD_EST_cd [i] = ofSigned 24 (s.bulkValue i coarse fine peak) ∧ (t.rx1 i).fullScan = false
        ∧ RegsExcept s t [(F.RXD_ACQ_STAT_state, [i]), (F.RXD_ACQ_STAT_los, [i]), (F.RXD_CD_EST_cd, [i])]
        ∧ ({ t with regs := s.regs, rx := s.rx } : State) = s) ∧
    (∀ corr, corr ≤ 900 → exec (.singularityCheck i corr) s = .next s) ∧
    (∀ corr, s.acq i = acqBlind → 900 < corr → (s.rx1 i).singulars < 4 →
      ∃ t, exec (.singularityCheck i corr) s = .next t ∧ (t.rx1 i).singulars = (s.rx1 i).singulars + 1
        ∧ (t.dsp1 i).taps = fixSingular (s.dsp1 i).taps ∧ (t.dsp1 i).since = s.tim.now
        ∧ t.rd F.RXD_EVT_singular [i] = 1 ∧ RegsExcept s t [(F.RXD_EVT_singular, [i])]
        ∧ ({ t with regs := s.regs, rx := s.rx } : State) = s) ∧
    (∀ c, (c = .acqStateLimit i ∧ acqClock ≤ s.acq i ∧ s.acq i ≤ acqCarrier ∧ s.acqOver i = true)
        ∨ (∃ corr, c = .singularityCheck i corr ∧ 900 < corr ∧ s.acq i = acqBlind ∧ 4 ≤ (s.rx1 i).singulars) →
      ∃ t, exec c s = .next t ∧ t.acq i = acqCd ∧ t.rd F.RXD_EVT_acq_fail [i] = 1
        ∧ t.rd F.RXD_ACQ_STAT_fails [i] = min 255 (s.rd F.RXD_ACQ_STAT_fails [i] + 1)
        ∧ (s.cur F.RXD_CD_SCAN_mode [i] = 2 → (t.rx1 i).fullScan = true)
        ∧ (c ≠ .acqStateLimit i → t.rd F.RXD_EVT_singular [i] = 1 ∧ (t.dsp1 i).taps = fixSingular (s.dsp1 i).taps)
        ∧ (c = .acqStateLimit i → t.rd F.RXD_EVT_singular [i] = s.rd F.RXD_EVT_singular [i])
        ∧ RegsExcept s t [(F.RXD_ACQ_STAT_state, [i]), (F.RXD_ACQ_STAT_los, [i]), (F.RXD_EVT_acq_fail, [i]),
            (F.RXD_ACQ_STAT_fails, [i]), (F.RXD_EVT_singular, [i])]
        ∧ ({ t with regs := s.regs, rx := s.rx } : State) = s) ∧
    (s.acq i = acqCarrier → (s.dsp1 i).freq.natAbs ≤ 5000000000 → 16 ≤ (s.dsp1 i).good →
      ∃ t, exec (.carrierLock i) s = .next t ∧ t.acq i = acqTrack ∧ t.rd F.FEC_STAT_sync [i] = 1
        ∧ t.rd F.FEC_STAT_hyp [i] = 0 ∧ (t.dsp1 i).freq = (s.dsp1 i).freq ∧ t.pends 0x18 = true
        ∧ RegsExceptE s t [(F.RXD_ACQ_STAT_state, [i]), (F.RXD_ACQ_STAT_los, [i]), (F.FEC_STAT_sync, [i]),
            (F.FEC_STAT_hyp, [i])]) ∧
    (s.bit F.TIM_CLK_STAT_on_fallback = false → acqClock ≤ s.acq i → s.acq i ≤ acqCarrier →
      ∃ t, exec (.inputLoss i) s = .next t ∧ t.acq i = acqHold ∧ t.rd F.RXD_ACQ_STAT_los [i] = 1
        ∧ (t.dsp1 i).nco = (s.dsp1 i).nco ∧ (t.dsp1 i).taps = (s.dsp1 i).taps ∧ (t.dsp1 i).freq = (s.dsp1 i).freq
        ∧ RegsExcept s t [(F.RXD_ACQ_STAT_state, [i]), (F.RXD_ACQ_STAT_los, [i])]
        ∧ ({ t with regs := s.regs, rx := s.rx } : State) = s) ∧
    (s.bit F.TIM_CLK_STAT_on_fallback = false → s.acq i = acqTrack →
      ∀ c b, (c, b) ∈ [(Instr.inputLoss i, acqHold), (.trackSnrLoss i, acqBlind), (.acqRestart i, acqSignal)] →
        (c = .trackSnrLoss i → 64 ≤ (s.dsp1 i).low.1 ∨ 64 ≤ (s.dsp1 i).low.2) →
      ∃ t, exec c s = .next t ∧ t.acq i = b ∧ t.rd F.FEC_STAT_sync [i] = 0 ∧ t.rd F.LFR_STAT_state [i] = 0
        ∧ t.candState (4 + i) = candUnavailable ∧ t.rd F.RXD_CD_EST_cd [i] = s.rd F.RXD_CD_EST_cd [i]
        ∧ t.pends 0x19 = true ∧ t.vtg = s.vtg) ∧
    (∀ y err, s.acq i = acqCarrier ∨ s.acq i = acqTrack → 51471 < err.natAbs →
      ∃ t, exec (.cycleSlip i y err) s = .next t ∧ t.rd F.RXD_EVT_slip [i] = 1
        ∧ tabGet 0 t.counters (64 + 2 * i + 1) = (tabGet 0 s.counters (64 + 2 * i + 1) + 1) % 2 ^ 48
        ∧ (if y then (t.dsp1 i).pilots.1 = (s.dsp1 i).pilots.1 ∧ (t.dsp1 i).pilots.2.length = 1
            else (t.dsp1 i).pilots.2 = (s.dsp1 i).pilots.2 ∧ (t.dsp1 i).pilots.1.length = 1)
        ∧ RegsExcept s t [(F.RXD_EVT_slip, [i])]
        ∧ ({ t with regs := s.regs, counters := s.counters, rx := s.rx } : State) = s)

/-- R37, R244, R248 to R250, R257, R309, R311, R335, R483: the transmitter's frame and superframe boundaries, and
the rate cause. -/
def Obligations.TransmitBoundaries : Prop :=
  ∀ (s : State) (i : Fin 8),
    (∀ psd, s.onGrid i = true →
      (s.gridTurn i = none → exec (.txFrameBoundary i psd) s = .next s) ∧
      (∀ u, s.gridTurn i = some u →
        ∃ t, exec (.txFrameBoundary i psd) s = .next t ∧ (t.lfr1 i).txMfas = ((s.lfr1 i).txMfas + 1) % 256
          ∧ t.grid = u.grid ∧ t.vtg = s.vtg
          ∧ (s.bit F.TXD_MUTE_force [i] = true → s.held i = false → (t.tx1 i).amp = (s.tx1 i).amp - 250))) ∧
    (s.onGrid i = true → s.txPlace i = 4095 → s.grid.frame = 4095 → s.rd F.PRY_TWIN_STAT_pair = 2 →
      s.bit F.PRY_TWIN_CFG_mark_en = true → (∀ k, k ∈ s.gridSlices → s.txPlace k = 4095) →
      ∃ u, s.gridTurn i = some u ∧ u.grid = ⟨0, 0⟩ ∧ u.pry.mark = s.pry.mark + 1 ∧ u.pry.hold = 50) ∧
    (∀ psd, s.lit i = true → (s.tx1 i).first = true → s.bit F.TXD_MUTE_force [i] = true → s.held i = false →
      ∃ t, exec (.txFrameBoundary i psd) s = .next t ∧ (t.tx1 i).amp = (s.tx1 i).amp - 250 ∧ t.lfr = s.lfr
        ∧ t.grid = s.grid ∧ t.pool = s.pool ∧ t.vtg = s.vtg
        ∧ RegsExceptE s t ([(F.TXD_STAT_muted, [i.val]), (F.TXD_STAT_limiting, [i.val]), (F.TXD_STAT_mask_alarm, [i.val])]
            ++ (List.range 64).map fun b => (F.TXD_MASK_ATT_att, [i.val, b]))) ∧
    (∀ psd, s.sliceState i = slDraining → s.held i = false → tabGet false s.ctl.drainShort i = false →
      ∃ t, exec (.txFrameBoundary i psd) s = .next t ∧ (t.tx1 i).amp = (s.tx1 i).amp - 16
        ∧ t.rd F.TXD_STAT_muted [i] = b2n (decide ((s.tx1 i).amp ≤ 16)) ∧ t.pool = s.pool ∧ t.vtg = s.vtg
        ∧ (t.lfr1 i).txMfas = ((s.lfr1 i).txMfas + 1) % 256 ∧ t.grid = s.grid
        ∧ RegsExceptE s t ([(F.TXD_STAT_muted, [i.val]), (F.TXD_STAT_limiting, [i.val]), (F.TXD_STAT_mask_alarm, [i.val]),
            (F.LFR_STAT_rdi_tx, [i.val]), (F.CNV_STAT_dac_clip, [i.val])]
            ++ (List.range 64).map fun b => (F.TXD_MASK_ATT_att, [i.val, b]))) ∧
    (∀ psd, s.sliceState i = slDraining → tabGet false s.ctl.drainShort i = true →
      exec (.txFrameBoundary i psd) s = .next s) ∧
    (∀ m, s.nextImg = some m → imgGet m F.TXD_MODE_CFG_baud [i] ≠ s.cur F.TXD_MODE_CFG_baud [i] → s.lit i = true →
      ∃ t, exec (.rateMuteStart i) s = .next t ∧ (t.tx1 i).rate = .muting ∧ t.muteTarget i = true
        ∧ ({ t with tx := s.tx } : State) = s) ∧
    (∀ a b, (a, b) ∈ [(RatePhase.relock, RatePhase.locked), (.restartRelock, .restart)] → (s.tx1 i).rate = a →
      ∃ t, exec (.synthRelock i) s = .next t ∧ (t.tx1 i).rate = b ∧ ({ t with tx := s.tx } : State) = s) ∧
    (s.lit i = true → (s.tx1 i).first = false → s.txPlace i ≠ 4095 → exec (.txSuperframeBoundary i) s = .next s) ∧
    (s.lit i = true → (s.tx1 i).first = false → s.txPlace i = 4095 →
      ∃ t, exec (.txSuperframeBoundary i) s = .next t ∧ (t.lfr1 i).txMfas = 255 ∧ (t.lfr1 i).txMfi = 15
        ∧ t.rd F.LFR_TX_SFC_count [i] = (s.rd F.LFR_TX_SFC_count [i] + 1) % 2 ^ 24
        ∧ ((s.tx1 i).newStart = true → (s.tx1 i).rate = .none →
            (t.tx1 i).newStart = false ∧ (t.tx1 i).labels = [] ∧ (t.tx1 i).pos = 0 ∧ (t.lfr1 i).txPhase = 0)
        ∧ ((s.tx1 i).newStart = false → (t.lfr1 i).txPhase = ((s.lfr1 i).txPhase + 1) % 3)
        ∧ RegsExcept s t [(F.LFR_TX_SFC_count, [i])] ∧ t.vtg = s.vtg ∧ t.grid = s.grid) ∧
    (s.lit i = true → (s.tx1 i).first = true → s.gridSlices ≠ [] →
      (s.grid.frame ≠ 0 ∧ s.grid.frame ≠ 4095 → exec (.txSuperframeBoundary i) s = .next s) ∧
      (s.grid.frame = 0 ∨ s.grid.frame = 4095 →
        ∃ t, exec (.txSuperframeBoundary i) s = .next t ∧ (t.lfr1 i).txMfas = 255 ∧ (t.lfr1 i).txMfi = 15
          ∧ (t.tx1 i).first = false ∧ t.regs = s.regs ∧ t.vtg = s.vtg ∧ t.grid = s.grid)) ∧
    (s.lit i = true → (s.tx1 i).first = true → s.gridSlices = [] →
      ∃ t, exec (.txSuperframeBoundary i) s = .next t ∧ (t.lfr1 i).txMfas = 255 ∧ (t.lfr1 i).txMfi = 15
        ∧ (t.tx1 i).first = false ∧ t.rd F.LFR_TX_SFC_count [i] = s.rd F.LFR_TX_SFC_count [i] ∧ t.grid = ⟨0, 4095⟩
        ∧ (15 ≤ s.grid.frame / 256 → t.regs = s.regs) ∧ t.vtg = s.vtg)

/-- R225, R226, R259, R260, R262, R263, R266 to R272, R277: blocks in the decoder pool, their release, block
alignment, outer groups and the margin. What the spec leaves open of the decoding is an opaque function (log 17). -/
def Obligations.DecoderPool : Prop :=
  ∀ (s : State) (i : Fin 8),
    (∀ samples, s.acq i ≠ acqTrack → exec (.blockArrival i samples) s = .next s) ∧
    (∀ samples, s.acq i = acqTrack → s.lit i = true →
      let b := (arrival s i samples).1
      (s.pool.blocks.length < 4096 →
        ∃ t, exec (.blockArrival i samples) s = .next t ∧ t.pool.blocks = s.pool.blocks ++ [b]
          ∧ t.pool.nextId = s.pool.nextId + 1 ∧ t.rd F.FEC_POOL_CTX_value = s.pool.blocks.length + 1
          ∧ (s.rxdTarget i = (s.rx1 i).rxd → s.cel.inj = none → tabGet [] s.cel.hard (rowKey 2 i) = [] →
              RegsExcept s t [(F.FEC_POOL_CTX_value, []), (F.FEC_POOL_PEAK_value, []), (F.RXD_EVT_sat, [i]),
                (F.RXD_EVT_slip, [i])])) ∧
      (∀ v, 4096 ≤ s.pool.blocks.length → (s.pool.blocks.find? fun x => s.classB x) = some v → v.slice < 8 →
        ∃ t, exec (.blockArrival i samples) s = .next t
          ∧ t.pool.blocks = s.pool.blocks.filter (fun x => x.id ≠ v.id) ++ [b] ∧ t.rd F.FEC_EVT_evict [v.slice] = 1) ∧
      (4096 ≤ s.pool.blocks.length → (s.pool.blocks.find? fun x => s.classB x) = none →
        (∀ x, x ∈ s.pool.blocks → x.id < s.pool.nextId) →
        ∃ t, exec (.blockArrival i samples) s = .next t ∧ t.pool.blocks = s.pool.blocks ∧ t.rd F.FEC_EVT_bypass [i] = 1
          ∧ t.pool.store = s.pool.store ++ [⟨b.id, i, true, b.first, decide ((arrival s i samples).2.rd F.FEC_STAT_sync [i] = 2),
              false, b.pos, b.code, hardBits b.llrs⟩])) ∧
    (∃ t, exec .iterationSlot s = .next t ∧ t.pool.slot = s.pool.slot + 1
      ∧ t.rd F.FEC_POOL_STAT_engines = s.slotBlocks.1.length) ∧
    (∀ b, s.pool.blocks = [b] → s.slotBlocks.1 = [b] → (s.memRead 3 (contextRow b)).1 = false →
      let d := b.state.iterate b.code.rate
      (d.unsat b.code.rate = 0 →
        ∃ t, exec .iterationSlot s = .next t ∧ t.pool.blocks = []
          ∧ t.pool.store = s.pool.store ++ [⟨b.id, b.slice, false, b.first, decide (s.rd F.FEC_STAT_sync [b.slice] = 2), false, b.pos,
              b.code, d.sent b.code.rate⟩]) ∧
      (d.unsat b.code.rate ≠ 0 → b.iters < 23 → s.pool.slot + 1 < b.deadline → s.cur F.FEC_POOL_SLICE_weight [b.slice] ≠ 0 →
        ∃ t x, exec .iterationSlot s = .next t ∧ t.pool.blocks = [x] ∧ x.iters = b.iters + 1 ∧ x.state = d ∧ x.llrs = b.llrs
          ∧ x.id = b.id ∧ t.pool.store = s.pool.store)) ∧
    (s.pool.nextRelease i = none → exec (.reorderRelease i) s = .next s) ∧
    (∀ d, s.pool.nextRelease i = some d → d.locked = true →
      let held := (s.align1 i).held
      let d' := { d with lost := (s.memRead 3 (reorderRow i d.id)).1 }
      ∃ t, exec (.reorderRelease i) s = .next t ∧ t.pool.store = s.pool.store.filter (fun x => x.id ≠ d.id)
        ∧ (d.first = true → (t.align1 i).held = held.take (held.length / 16 * 16) ++ [d'])
        ∧ (d.first = false → held.length % 16 ≠ 0 → (t.align1 i).held = held ++ [d'])
        ∧ (d.first = false → held.length % 16 = 0 → (t.align1 i).held = held)
        ∧ (t.lfr1 i).uncTot = (s.lfr1 i).uncTot + 1 ∧ (t.lfr1 i).uncBad = (s.lfr1 i).uncBad + b2n d.unconv
        ∧ (d'.lost = false → t.regs = s.regs)) ∧
    (∀ d, s.pool.nextRelease i = some d → d.locked = false →
      ∃ t, exec (.reorderRelease i) s = .next t ∧ t.pool.store = s.pool.store.filter (fun x => x.id ≠ d.id)
        ∧ t.align = s.align ∧ t.lfr = s.lfr ∧ ((s.memRead 3 (reorderRow i d.id)).1 = false → t.regs = s.regs)) ∧
    (s.rd F.FEC_STAT_sync [i] = 1 → 16 ≤ (s.align1 i).trial →
      (12 ≤ (s.align1 i).good → ∃ t, exec (.blockSyncTrial i) s = .next t ∧ t.rd F.FEC_STAT_sync [i] = 2
        ∧ (t.align1 i).held = [] ∧ t.pends 0x1C = true ∧ RegsExceptE s t [(F.FEC_STAT_sync, [i])]) ∧
      ((s.align1 i).good < 12 → ∃ t, exec (.blockSyncTrial i) s = .next t ∧ t.rd F.FEC_STAT_sync [i] = 1
        ∧ t.rd F.FEC_STAT_hyp [i] = (s.rd F.FEC_STAT_hyp [i] + 1) % hypotheses (s.rxBaud i)
            (s.rxdv F.RXD_MODE_CFG_const i) (s.rxdv F.RXD_MODE_CFG_pilot i)
        ∧ (t.align1 i).trial = 0 ∧ (t.align1 i).formed = 0 ∧ (t.align1 i).serial = (s.align1 i).serial + 1
        ∧ RegsExcept s t [(F.FEC_STAT_hyp, [i])]
        ∧ ({ t with regs := s.regs, align := s.align, rx := s.rx } : State) = s)) ∧
    (s.rd F.FEC_STAT_sync [i] = 2 → 64 ≤ (s.align1 i).bad →
      ∃ t, exec (.blockSyncLost i) s = .next t ∧ t.rd F.FEC_STAT_sync [i] = 1 ∧ t.rd F.FEC_EVT_sync_lost [i] = 1
        ∧ t.rd F.LFR_STAT_state [i] = 0 ∧ t.pends 0x1D = true) ∧
    ((s.align1 i).held.length < 16 → exec (.outerGroupDecode i) s = .next s) ∧
    (∀ h hs, (s.align1 i).held = h :: hs → 15 ≤ hs.length →
      let ib := blockInfo h.code.const h.code.ent h.code.rate
      let tags := ((h :: hs).take 16).zipIdx.map fun b => (b.2 * ib, b.1.pos)
      ∃ t, exec (.outerGroupDecode i) s = .next t ∧ (t.align1 i).held = (h :: hs).drop 16
        ∧ (∃ out : List (Bool × Bool), out.length = (ib - 180) * 16
            ∧ (t.lfr1 i).window = ((s.lfr1 i).append (2 * s.rxFrame i + 48) out tags).window
            ∧ ((∃ b, b ∈ (h :: hs).take 16 ∧ b.lost = true) → ∀ o, o ∈ out → o.2 = true)
            ∧ ((∃ j : Fin 16, errorPlaces (outerWord s i j) = none) → ∀ o, o ∈ out → o.2 = true))
        ∧ ((∃ j : Fin 16, errorPlaces (outerWord s i j) = none) → t.rd F.FEC_EVT_uncorr [i] = 1)
        ∧ ((∀ j : Fin 16, errorPlaces (outerWord s i j) ≠ none) → t.rd F.FEC_EVT_uncorr [i] = s.rd F.FEC_EVT_uncorr [i])
        ∧ RegsExcept s t [(F.FEC_EVT_uncorr, [i]), (F.FEC_EVT_dm_bad, [i])]) ∧
    (s.acq i = acqTrack →
      let m := tabGet (0, 0, 0) s.pool.margin i
      (m.2.1 = 0 ∨ m.2.1 + m.2.2 < 100 * m.2.2 →
        ∃ t, exec (.marginInterval i) s = .next t ∧ t.rd F.FEC_MARGIN_valid [i] = 0
          ∧ tabGet (0, 0, 0) t.pool.margin i = (0, 0, 0) ∧ RegsExcept s t [(F.FEC_MARGIN_valid, [i])]) ∧
      (m.2.1 ≠ 0 → 100 * m.2.2 ≤ m.2.1 + m.2.2 →
        ∃ t, exec (.marginInterval i) s = .next t ∧ t.rd F.FEC_MARGIN_valid [i] = 1
          ∧ t.rd F.FEC_MARGIN_margin [i] = fecMargin m.1 (24576 * m.2.1) (s.rxdv F.FEC_CODE_CFG_rate i) % 2 ^ 12
          ∧ tabGet (0, 0, 0) t.pool.margin i = (0, 0, 0)
          ∧ RegsExcept s t [(F.FEC_MARGIN_valid, [i]), (F.FEC_MARGIN_margin, [i])]))

/-- R280, R286 to R288, R290, R291, R293, R294: packets of the tendril leave and arrive, and the mailboxes. The form
of a detection and of a decided symbol is the model's (log 19). -/
def Obligations.TendrilPackets : Prop :=
  ∀ (s : State) (i : Fin 8),
    (∀ p, (s.tdl1 i).sending = none → nextPkt (s.tdl1 i).queue = some p → s.lit i = true →
      ∃ t, exec (.tendrilPacketStart i) s = .next t ∧ (t.tdl1 i).sending = some (s.formPkt i p)
        ∧ (t.tdl1 i).sendSf = s.cur F.TDL_TX_CFG_sf [i] ∧ (t.tdl1 i).queue = (s.tdl1 i).queue.erase p ∧ (t.tdl1 i).seqNo = ((s.tdl1 i).seqNo + 1) % 64
        ∧ ({ t with tdl := s.tdl } : State) = s) ∧
    (s.curBit F.TDL_TX_CFG_en [i] = true → s.cur F.TDL_TX_CFG_hello [i] ≠ 0 → s.lit i = true → s.standby = false →
      ∃ t, exec (.helloInterval i) s = .next t
        ∧ (t.tdl1 i).queue = (s.tdl1 i).queue.filter (fun p => p.typ ≠ tyHello) ++ [⟨tyHello, []⟩]
        ∧ ({ t with tdl := s.tdl } : State) = s) ∧
    (∀ d, s.acq i = acqTrack → s.inSearch i d = true ∧ s.detectPeak i d = d.peak) ∧
    (∀ d, s.acq i ≠ acqTrack → 5 * 10 ^ 9 < d.offset.natAbs → exec (.tendrilDetection i [d]) s = .next s) ∧
    (∀ d, s.lit i = true → s.tdlSearches i d.sf = true → s.inSearch i d = true → d.startErrs ≤ 2 →
      let p := s.detectPeak i d
      2 * s.cur F.TDL_RX_CFG_det_thr [i] ≤ p →
      ((s.tdl1 i).rx = none →
        ∃ t, exec (.tendrilDetection i [d]) s = .next t ∧ (t.tdl1 i).rx = some ⟨d.sf, p, d.chip, none, []⟩
          ∧ t.rd F.TDL_RX_STAT_rx [i] = 1 ∧ t.rd F.TDL_RX_STAT_snr [i] = min 255 p ∧ (t.dsp1 i).gains = []
          ∧ RegsExcept s t [(F.TDL_RX_STAT_rx, [i]), (F.TDL_RX_STAT_sf, [i]), (F.TDL_RX_STAT_src, [i]), (F.TDL_RX_STAT_snr, [i])]
          ∧ ({ t with regs := s.regs, tdl := s.tdl, rx := s.rx } : State) = s) ∧
      (∀ r, (s.tdl1 i).rx = some r → ¬(d.sf = r.sf ∧ (d.chip - r.chip).natAbs ≤ 1) →
        (r.peak + 2 * s.cur F.TDL_RX_CFG_cap_margin [i] ≤ p →
          ∃ t, exec (.tendrilDetection i [d]) s = .next t ∧ (t.tdl1 i).rx = some ⟨d.sf, p, d.chip, none, []⟩
            ∧ t.rd F.TDL_EVT_preempt [i] = 1) ∧
        (p < r.peak + 2 * s.cur F.TDL_RX_CFG_cap_margin [i] →
          ∃ t, exec (.tendrilDetection i [d]) s = .next t ∧ t.rd F.TDL_EVT_missed [i] = 1
            ∧ RegsExcept s t [(F.TDL_EVT_missed, [i])] ∧ ({ t with regs := s.regs, counters := s.counters } : State) = s))) ∧
    (∀ r decided, (s.tdl1 i).rx = some r → r.header = none →
      let got := r.got ++ decided.map TdlDecision.bit
      (108 ≤ got.length → (headerOf (withoutPilots got) = none ∨
          ∃ h, headerOf (withoutPilots got) = some h ∧ 240 < hdrField h 32 8) →
        ∃ t, exec (.tendrilHeaderDecode i decided) s = .next t ∧ (t.tdl1 i).rx = none ∧ t.rd F.TDL_EVT_hdr [i] = 1
          ∧ t.rd F.TDL_RX_STAT_rx [i] = 0 ∧ RegsExcept s t [(F.TDL_EVT_hdr, [i]), (F.TDL_RX_STAT_rx, [i])]) ∧
      (∀ h, 108 ≤ got.length → headerOf (withoutPilots got) = some h → hdrField h 32 8 ≤ 240 →
        ∃ t, exec (.tendrilHeaderDecode i decided) s = .next t
          ∧ (t.tdl1 i).rx = some { r with header := some h, got := got }
          ∧ ({ t with tdl := s.tdl, rx := s.rx } : State) = s) ∧
      (got.length < 108 →
        ∃ t, exec (.tendrilHeaderDecode i decided) s = .next t ∧ (t.tdl1 i).rx = some { r with got := got }
          ∧ ({ t with tdl := s.tdl, rx := s.rx } : State) = s)) ∧
    (∀ r d, (s.tdl1 i).rx = some r →
      let gains := (d.gain :: (s.dsp1 i).gains).take 16
      ∃ t, exec (.tendrilHeaderDecode i [d]) s = .next t ∧ (t.dsp1 i).gains = gains
        ∧ (s.curBit F.RXD_TDC_CFG_en [i] = true → 4 * (3 + s.cur F.RXD_TDC_CFG_conf [i]) ≤ d.snr →
            (t.dsp1 i).reports = ⟨d.start, r.sf, d.bit, ⟨cxSum (gains.map Dual.x), cxSum (gains.map Dual.y)⟩, gains.length⟩
                :: (s.dsp1 i).reports ∧ (t.dsp1 i).left = (s.dsp1 i).left)
        ∧ (s.curBit F.RXD_TDC_CFG_en [i] = true → d.snr < 4 * (3 + s.cur F.RXD_TDC_CFG_conf [i]) →
            (t.dsp1 i).reports = (s.dsp1 i).reports ∧ (t.dsp1 i).left = (s.dsp1 i).left + 1)) ∧
    (∀ r h decided, (s.tdl1 i).rx = some r → r.header = some h →
      let n := hdrField h 32 8
      let got := r.got ++ decided.map TdlDecision.bit
      let body := bodyOf (codewords n - 4) (withoutPilots got)
      let payload := body.take (8 * n)
      let crc := ofBits ((body.drop (8 * n)).take 32)
      (got.length < 27 * codewords n →
        ∃ t, exec (.tendrilReceptionEnd i decided) s = .next t ∧ (t.tdl1 i).rx = some { r with got := got }
          ∧ ({ t with tdl := s.tdl, rx := s.rx } : State) = s) ∧
      (27 * codewords n ≤ got.length → fcs32 (h ++ payload) ≠ crc →
        ∃ t, exec (.tendrilReceptionEnd i decided) s = .next t ∧ (t.tdl1 i).rx = none ∧ t.rd F.TDL_EVT_crc [i] = 1
          ∧ (t.tdl1 i).inbox = (s.tdl1 i).inbox ∧ RegsExcept s t [(F.TDL_RX_STAT_rx, [i]), (F.TDL_EVT_crc, [i])]) ∧
      (27 * codewords n ≤ got.length → fcs32 (h ++ payload) = crc → 0x80 ≤ hdrField h 24 8 →
        (s.tdl1 i).last ≠ some (hdrField h 0 24, hdrField h 40 6) →
        ∃ t, exec (.tendrilReceptionEnd i decided) s = .next t ∧ (t.tdl1 i).rx = none
          ∧ (t.tdl1 i).inbox = (s.tdl1 i).inbox
              ++ [⟨hdrField h 24 8, (groupsOf 8 n payload).map ofBits, hdrField h 0 24, false⟩]
          ∧ RegsExcept s t [(F.TDL_RX_STAT_rx, [i])])) ∧
    (∀ g, s.tdlHead i (fun t => decide (t = tyHello)) = some g →
      ∃ t, exec (.hello i) s = .next t ∧ (t.tdl1 i).inbox = (s.tdl1 i).inbox.tail ∧ ({ t with tdl := s.tdl } : State) = s) ∧
    (∀ g, s.tdlHead i (fun t => decide (t = tySwitch)) = some g →
      ∃ t, exec (.switch i) s = .next t ∧ (t.tdl1 i).inbox = (s.tdl1 i).inbox.tail ∧ t.pends 0x22 = true
        ∧ RegsExceptE s t []) ∧
    (∀ g, s.tdlHead i (fun t => decide (0x80 ≤ t)) = some g → s.bit F.TDL_MB_RX_STAT_full [i] = false →
      g.body.length ≤ 240 →
      ∃ t, exec (.mailboxPacketRx i) s = .next t ∧ t.rd F.TDL_MB_RX_STAT_full [i] = 1
        ∧ t.rd F.TDL_MB_RX_STAT_len [i] = g.body.length ∧ t.pends 0x21 = true ∧ (t.tdl1 i).inbox = (s.tdl1 i).inbox.tail) ∧
    (∀ g, s.tdlHead i (fun t => decide (0x80 ≤ t)) = some g → s.bit F.TDL_MB_RX_STAT_full [i] = true →
      ∃ t, exec (.mailboxPacketRx i) s = .next t ∧ t.rd F.TDL_EVT_mb_drop [i] = 1
        ∧ RegsExcept s t [(F.TDL_EVT_mb_drop, [i])] ∧ (t.tdl1 i).inbox = (s.tdl1 i).inbox.tail) ∧
    (s.sliceState i = slDark → exec (.mailboxGo i) s = .next s ∧ exec (.mailboxRelease i) s = .next s) ∧
    (s.sliceState i ≠ slDark → s.bit F.TDL_MB_TX_CMD_busy [i] = true ∨ s.rd F.TDL_MB_TX_CMD_type [i] < 0x80 →
      ∃ t, exec (.mailboxGo i) s = .next t ∧ t.rd F.TDL_EVT_mb_refused [i] = 1 ∧ t.noRegs = s.noRegs
        ∧ RegsExcept s t [(F.TDL_EVT_mb_refused, [i])]) ∧
    (s.bit F.TDL_MB_TX_CMD_busy [i] = false → 0x80 ≤ s.rd F.TDL_MB_TX_CMD_type [i] → s.sliceState i ≠ slDark →
      ∃ t, exec (.mailboxGo i) s = .next t ∧ t.rd F.TDL_MB_TX_CMD_busy [i] = 1
        ∧ (t.tdl1 i).queue = (s.tdl1 i).queue ++ [⟨s.rd F.TDL_MB_TX_CMD_type [i],
            s.mailboxBytes i (min 240 (s.rd F.TDL_MB_TX_CMD_len [i]))⟩]
        ∧ RegsExcept s t [(F.TDL_MB_TX_CMD_busy, [i])]) ∧
    (s.sliceState i ≠ slDark → ∃ t, exec (.mailboxRelease i) s = .next t ∧ t.rd F.TDL_MB_RX_STAT_full [i] = 0
      ∧ t.noRegs = s.noRegs ∧ RegsExcept s t [(F.TDL_MB_RX_STAT_full, [i])])

/-- R310, R314 to R320, R322 to R325: frame and multiframe alignment, false lock, the received superframe count, the
delay block, and signal fail. The received bits arrive with the outer groups, which is the model's form (log 20). -/
def Obligations.LineFrame : Prop :=
  ∀ (s : State) (i : Fin 8),
    let l := s.lfr1 i
    (s.rd F.FEC_STAT_sync [i] = 2 → s.rd F.LFR_STAT_state [i] = 0 → l.cand = none →
      (∀ p, l.findFas (s.cur F.LFR_ALIGN_CFG_srch_err [i]) = some p →
        ∃ t, exec (.fasCandidateCheck i) s = .next t ∧ t.rd F.LFR_STAT_state [i] = 1
          ∧ (t.lfr1 i).cand = some (p, 0) ∧ (t.lfr1 i).start = p ∧ (t.lfr1 i).next = p + s.rxFrame i
          ∧ RegsExcept s t [(F.LFR_STAT_state, [i])] ∧ ({ t with regs := s.regs, lfr := s.lfr } : State) = s) ∧
      (l.findFas (s.cur F.LFR_ALIGN_CFG_srch_err [i]) = none →
        ∃ t, exec (.fasCandidateCheck i) s = .next t ∧ (t.lfr1 i).next = max l.next (l.window.length - 47)
          ∧ ({ t with lfr := s.lfr } : State) = s)) ∧
    (∀ c, s.rd F.FEC_STAT_sync [i] = 2 → s.rd F.LFR_STAT_state [i] = 1 → l.cand = some c → l.holds l.next 49 = true →
      (l.fasErrs l.nextStart ≤ s.cur F.LFR_ALIGN_CFG_keep_err [i] →
        max 1 (s.cur F.LFR_ALIGN_CFG_next_chk [i]) ≤ c.2 + 1 →
        ∃ t, exec (.fasCandidateCheck i) s = .next t ∧ t.rd F.LFR_STAT_state [i] = 2 ∧ (t.lfr1 i).next = l.nextStart
          ∧ (t.lfr1 i).imSeen = false ∧ RegsExcept s t [(F.LFR_STAT_state, [i])]) ∧
      (l.fasErrs l.nextStart ≤ s.cur F.LFR_ALIGN_CFG_keep_err [i] →
        c.2 + 1 < max 1 (s.cur F.LFR_ALIGN_CFG_next_chk [i]) →
        ∃ t, exec (.fasCandidateCheck i) s = .next t ∧ (t.lfr1 i).cand = some (c.1, c.2 + 1)
          ∧ ({ t with lfr := s.lfr } : State) = s) ∧
      (s.cur F.LFR_ALIGN_CFG_keep_err [i] < l.fasErrs l.nextStart →
        ∃ t, exec (.fasCandidateCheck i) s = .next t ∧ t.rd F.LFR_STAT_state [i] = 0
          ∧ (t.lfr1 i).cand = none ∧ (t.lfr1 i).next = c.1 + 1 ∧ RegsExcept s t [(F.LFR_STAT_state, [i])])) ∧
    (s.rd F.LFR_STAT_state [i] = 2 → l.holds l.next 97 = true → s.cel.inj = none → tabGet [] s.cel.hard (rowKey 10 i) = [] →
      (l.fasErrs l.nextStart ≤ s.cur F.LFR_ALIGN_CFG_keep_err [i] →
        ∃ t, exec (.outOfFrame i) s = .next t ∧ (t.lfr1 i).badFas = 0 ∧ (t.lfr1 i).start = l.nextStart
          ∧ (t.lfr1 i).got = scramble (((l.window.drop l.start).take (l.nextStart - l.start)).map Prod.fst)
          ∧ ({ t with lfr := s.lfr, cel := s.cel } : State) = s) ∧
      (s.cur F.LFR_ALIGN_CFG_keep_err [i] < l.fasErrs l.nextStart →
        max 1 (s.cur F.LFR_ALIGN_CFG_oof_n [i]) ≤ l.badFas + 1 →
        ∃ t, exec (.outOfFrame i) s = .next t ∧ t.rd F.LFR_STAT_state [i] = 0 ∧ t.rd F.LFR_STAT_im [i] = 0
          ∧ RegsExcept s t [(F.LFR_STAT_state, [i]), (F.LFR_STAT_im, [i]), (F.LFR_STAT_sf_ok, [i])]) ∧
      (s.cur F.LFR_ALIGN_CFG_keep_err [i] < l.fasErrs l.nextStart →
        l.badFas + 1 < max 1 (s.cur F.LFR_ALIGN_CFG_oof_n [i]) →
        ∃ t, exec (.outOfFrame i) s = .next t ∧ (t.lfr1 i).badFas = l.badFas + 1
          ∧ ({ t with lfr := s.lfr, cel := s.cel } : State) = s)) ∧
    (∀ p, s.rd F.LFR_STAT_state [i] = 2 → l.got ≠ [] → l.lastMf = some p → (l.gotField 48 8, l.gotField 56 4) = nextMf p →
      (s.bit F.LFR_STAT_im [i] = false →
        ∃ t, exec (.multiframeAlign i) s = .next t ∧ t.rd F.LFR_STAT_im [i] = 1 ∧ (t.rx1 i).posSet = true
          ∧ (t.lfr1 i).lastMf = some (nextMf p) ∧ RegsExcept s t [(F.LFR_STAT_im, [i])]) ∧
      (s.bit F.LFR_STAT_im [i] = true → s.bit F.LFR_STAT_sf_ok [i] = true → nextMf p = (0, 0) →
        ∃ t, exec (.multiframeAlign i) s = .next t
          ∧ t.rd F.LFR_RX_SFC_count [i] = (s.rd F.LFR_RX_SFC_count [i] + 1) % 2 ^ 24
          ∧ RegsExcept s t [(F.LFR_RX_SFC_count, [i])]) ∧
      (s.bit F.LFR_STAT_im [i] = true → nextMf p ≠ (0, 0) →
        ∃ t, exec (.multiframeAlign i) s = .next t ∧ (t.lfr1 i).lastMf = some (nextMf p)
          ∧ ({ t with lfr := s.lfr } : State) = s)) ∧
    (∀ p, s.rd F.LFR_STAT_state [i] = 2 → l.got ≠ [] → l.lastMf = some p → s.bit F.LFR_STAT_im [i] = false →
      (l.gotField 48 8 = (p.1 + 1) % 256 → l.gotField 56 4 = p.2 →
        ∃ t, exec (.multiframeAlign i) s = .next t ∧ t.rd F.LFR_STAT_im [i] = 1 ∧ RegsExcept s t [(F.LFR_STAT_im, [i])]) ∧
      (l.gotField 48 8 ≠ (p.1 + 1) % 256 →
        ∃ t, exec (.multiframeAlign i) s = .next t ∧ (t.lfr1 i).noIm = l.noIm + 1
          ∧ ({ t with lfr := s.lfr } : State) = s)) ∧
    (s.rd F.LFR_STAT_state [i] = 2 → l.imSeen = false → max 2 (s.cur F.LFR_ALIGN_CFG_false_n [i]) ≤ l.noIm →
      ∃ t, exec (.falseLock i) s = .next t ∧ t.rd F.LFR_STAT_state [i] = 0 ∧ t.rd F.LFR_EVT_false_lock [i] = 1
        ∧ (t.lfr1 i).excluded.isSome = true ∧ t.pends 0x25 = true
        ∧ RegsExceptE s t [(F.LFR_STAT_state, [i]), (F.LFR_EVT_false_lock, [i]), (F.LFR_STAT_im, [i]),
            (F.LFR_STAT_sf_ok, [i])]) ∧
    (s.bit F.LFR_STAT_im [i] = true → l.lastMf.map Prod.fst = some 1 →
      let v := tabGet 0 l.mdo 0 * 2 ^ 8 + tabGet 0 l.mdo 1 / 2 ^ 8
      let mfi := (l.lastMf.map Prod.snd).getD 0
      (crc8 (toBits 24 v) ≠ tabGet 0 l.mdo 1 % 2 ^ 8 →
        ∃ t, exec (.sfcAdopt i) s = .next t ∧ (t.lfr1 i).sfc = none ∧ ({ t with lfr := s.lfr } : State) = s) ∧
      (∀ p, crc8 (toBits 24 v) = tabGet 0 l.mdo 1 % 2 ^ 8 → s.bit F.LFR_STAT_sf_ok [i] = false → l.sfc = some p →
        v = nextSfc p.1 p.2 → mfi = (p.2 + 1) % 16 →
        ∃ t, exec (.sfcAdopt i) s = .next t ∧ t.rd F.LFR_RX_SFC_count [i] = v % 2 ^ 24
          ∧ t.rd F.LFR_STAT_sf_ok [i] = 1 ∧ (t.lfr1 i).sfc = some (v, mfi)
          ∧ RegsExcept s t [(F.LFR_RX_SFC_count, [i]), (F.LFR_STAT_sf_ok, [i])]) ∧
      (crc8 (toBits 24 v) = tabGet 0 l.mdo 1 % 2 ^ 8 → s.bit F.LFR_STAT_sf_ok [i] = true → v ≠ s.rd F.LFR_RX_SFC_count [i] →
        2 ≤ l.sfcBad →
        ∃ t, exec (.sfcAdopt i) s = .next t ∧ t.rd F.LFR_RX_SFC_count [i] = v % 2 ^ 24 ∧ t.rd F.LFR_EVT_sfc_bad [i] = 1
          ∧ RegsExcept s t [(F.LFR_RX_SFC_count, [i]), (F.LFR_EVT_sfc_bad, [i])])) ∧
    (∀ rx, s.bit F.LFR_STAT_im [i] = true → l.lastMf.map Prod.fst = some 8 →
      let dtx := l.delayWord 2
      let dec := l.delayWord 4
      let turn := l.delayWord 6
      (crc16 (toBits 32 dtx.toNat ++ toBits 32 dec.toNat ++ toBits 32 turn.toNat) = tabGet 0 l.mdo 8 →
        ∃ t, exec (.delayBlockRx i rx) s = .next t ∧ (t.lfr1 i).dlyRt = rx - dec - turn
          ∧ (t.lfr1 i).dlyRx = some (dtx, rx) ∧ (t.lfr1 i).dlyOk = true
          ∧ t.rd F.LFR_DLY_RT_rt [i] = min 0xFFFFFF ((rx - dec - turn).toNat / 8)
          ∧ RegsExcept s t [(F.LFR_DLY_RT_rt, [i])]) ∧
      (crc16 (toBits 32 dtx.toNat ++ toBits 32 dec.toNat ++ toBits 32 turn.toNat) ≠ tabGet 0 l.mdo 8 →
        ∃ t, exec (.delayBlockRx i rx) s = .next t ∧ t.rd F.LFR_EVT_dly_bad [i] = 1 ∧ (t.lfr1 i).dlyOk = false
          ∧ (t.lfr1 i).dlyRx = l.dlyRx ∧ RegsExcept s t [(F.LFR_EVT_dly_bad, [i])]
          ∧ ({ t with regs := s.regs, lfr := s.lfr } : State) = s)) ∧
    (s.bit F.LFR_STAT_ssf [i] = true → ∃ t, exec (.ssfHoldoffExpiry i) s = .next t ∧ (t.lfr1 i).reqSf = true
      ∧ ({ t with lfr := s.lfr } : State) = s) ∧
    (s.bit F.LFR_STAT_ssf [i] = false → exec (.ssfHoldoffExpiry i) s = .next s) ∧
    (∀ fr, s.lit i = true → s.rd F.LFR_STAT_state [i] ≠ 2 → (s.tdl1 i).rxAt = none → (s.tdl1 i).farRet = none →
      s.judged i = false →
      ∃ t, exec (.defectEvaluation i fr) s = .next t ∧ t.rd F.LFR_STAT_ssf [i] = 1
        ∧ t.rd F.LFR_STAT_dlob [i] = b2n (decide (s.rd F.FEC_STAT_sync [i] ≠ 2))) ∧
    (∀ fr, s.lit i = false → ∃ t, exec (.defectEvaluation i fr) s = .next t ∧ t.rd F.LFR_STAT_ssf [i] = 0
      ∧ t.rd F.LFR_STAT_dlof [i] = 0 ∧ (∀ k, k < 16 → t.rd F.RXD_MON_value [i, k] = 0x800000)
      ∧ t.vtg = s.vtg ∧ t.lfr = s.lfr ∧ t.tdl = s.tdl)

/-- R338 to R346, R351, R353, R361, R372, R373, R400, R412: numbering, measuring, growth, output frames, mismatch
and verification of channels. That records are read where the frames hold them is the model's form (log 21). -/
def Obligations.ChannelMembers : Prop :=
  ∀ (s : State) (c : Fin 512),
    (∀ (m : Fin 8) arr d r, (s.members c).find? (fun d => d.m = m.val) = some d → s.memRecord c d = some r →
      r.valid = true → r.ch = c →
      let x := s.mem c d.slice
      (∀ p, x.ctr = some p → r.ctr = (p + 1) % 2 ^ 48 →
        ∃ t, exec (.memberNumberingAdopt c m arr) s = .next t ∧ (t.mem c d.slice).num = true ∧ (t.mem c d.slice).arr = arr
          ∧ (x.num = false ∨ x.gap = true → (t.mem c d.slice).id = 256 * (r.ctr + 1) + c / 2)
          ∧ (x.num = true → x.gap = false → (t.mem c d.slice).id = x.id ∧ (t.mem c d.slice).store = x.store)
          ∧ t.rd F.MAP_MEM_STAT_ok_num [c, m] = 1 ∧ t.vtg = s.vtg
          ∧ (s.rd F.MAP_CH_STAT_align [c] ≠ 2 → RegsExcept s t [(F.MAP_MEM_STAT_ok_num, [c, m])]
              ∧ ({ t with regs := s.regs, mems := s.mems } : State) = s)) ∧
      (x.ctr = none →
        ∃ t, exec (.memberNumberingAdopt c m arr) s = .next t ∧ (t.mem c d.slice).ctr = some r.ctr
          ∧ (t.mem c d.slice).num = x.num ∧ (t.mem c d.slice).arr = x.arr
          ∧ ({ t with mems := s.mems } : State) = s)) ∧
    (∀ (m : Fin 8) arr d, (s.members c).find? (fun d => d.m = m.val) = some d → s.memRecord c d = none →
      exec (.memberNumberingAdopt c m arr) s = .next s) ∧
    (s.rd F.MAP_CH_STAT_align [c] = 1 → ((s.members c).filter fun d => !s.memSsf d && (s.mem c d.slice).num) ≠ [] →
      ∃ t, exec (.measuringEnd c true) s = .next t ∧ t.rd F.MAP_CH_STAT_align [c] = 2
        ∧ (t.chan c).id = ((((s.members c).filter fun d => t.usable c d).map fun d => (s.mem c d.slice).id).min?).getD 0 + 1
            - guardOf (s.chanImg c) c
        ∧ t.vtg = s.vtg) ∧
    (s.rd F.MAP_CH_STAT_align [c] = 2 → (s.members c).any (fun d => s.usable c d && !s.covered c d) = true →
      2 ^ s.growK ≤ (s.chan c).frames →
      let u := s.judgeSkew c
      ((u.members c).any (fun d => u.usable c d && !u.covered c d) = true →
        ∃ t, exec (.dcGrowthStep c) s = .next t ∧ (t.chan c).read = (s.chan c).read + 1024 ∧ (t.chan c).frames = 1
          ∧ tabGet 0 t.counters (1024 + 4 * c + 2) = (tabGet 0 s.counters (1024 + 4 * c + 2) + 1) % 2 ^ 48 ∧ t.vtg = s.vtg) ∧
      ((u.members c).any (fun d => u.usable c d && !u.covered c d) = false →
        ∃ t, exec (.dcGrowthStep c) s = .next t ∧ t.chans = s.chans ∧ t.counters = s.counters ∧ t.vtg = s.vtg)) ∧
    ((s.chan c).frames < 2 ^ s.growK → exec (.dcGrowthStep c) s = .next s) ∧
    ((s.chan c).renum = none → (s.chan c).turns = [] → s.rd F.MAP_CH_STAT_align [c] ≠ 2 →
      ∀ errs, exec (.outputFrameRead c errs) s = .next s) ∧
    ((s.chan c).renum = none → (s.chan c).turns = [] → s.rd F.MAP_CH_STAT_align [c] = 2 →
      (∀ errs,
        let r := s.readMembers c (readErrs errs) (s.members c)
        ∃ t, exec (.outputFrameRead c errs) s = .next t ∧ (t.chan c).frames = (s.chan c).frames + 1
          ∧ (t.chan c).id = (s.chan c).id + 1 ∧ t.vtg = s.vtg
          ∧ t.bit F.MAP_CH_STAT_csf [c] = r.2.csfNow c (memMask r.1 fun f => f.all MemFrame.mark)) ∧
      ((∀ d f, d ∈ s.members c → s.memFrame c d = some f →
          f.cel = false ∧ (s.memRead 0 (deskewRow c d.slice f.id)).1 = false) →
        ∃ t, exec (.outputFrameRead c []) s = .next t
          ∧ RegsExceptE s t ((F.MAP_CH_STAT_csf, [c.val])
              :: (F.CIP_SLOT_STAT_full, [slotInForce (s.chanImg c) c 1]) :: (F.CIP_SLOT_KCV_kcv, [slotInForce (s.chanImg c) c 1])
              :: (List.range 64).map fun p => (F.CLI_PORT_STAT_drop, [p]))) ∧
      (∀ errs d f, s.members c = [d] → s.memFrame c d = some f → f.cel = true →
        (s.celServes = false → ∃ t, exec (.outputFrameRead c errs) s = .next t
          ∧ tabGet 0 t.counters (1024 + 4 * c + 3) = (tabGet 0 s.counters (1024 + 4 * c + 3) + 1) % 2 ^ 48) ∧
        (∀ b bs, s.celServes = true → cellBlocks f = b :: bs → s.lineValid b = true →
          rsDecode 4 (disturb (s.stored b) (errsAt (readErrs errs) b)) = .poisoned →
          ∃ t, exec (.outputFrameRead c errs) s = .next t ∧ t.pends 0x31 = true))) ∧
    (∀ (m : Fin 8) d r, (s.members c).find? (fun d => d.m = m.val) = some d → s.memRecord c d = some r →
      s.rd F.MAP_CH_STAT_align [c] ≠ 0 →
      (r.valid = false → (s.mem c d.slice).badRec = 2 → (s.mem c d.slice).mism = false →
        ∃ t, exec (.memberMismatch c m) s = .next t ∧ (t.mem c d.slice).mism = true ∧ t.rd F.MAP_MEM_STAT_mism [c, m] = 1
          ∧ t.pends 0x2A = true ∧ RegsExceptE s t [(F.MAP_MEM_STAT_mism, [c, m])]) ∧
      (r.valid = true → r.ch = c → r.members + 1 = (s.members c).length →
        ∃ t, exec (.memberMismatch c m) s = .next t ∧ (t.mem c d.slice).mism = false ∧ (t.mem c d.slice).badRec = 0
          ∧ t.rd F.MAP_CH_FAR_req [c] = r.req % 16 ∧ t.rd F.MAP_CH_FAR_sel_mem [c] = r.sel % 8
          ∧ RegsExcept s t [(F.MAP_CH_FAR_req, [c]), (F.MAP_CH_FAR_sel_mem, [c]), (F.MAP_CH_FAR_valid, [c])])) ∧
    (s.rd F.MAP_CH_STAT_align [c] = 0 → exec (.channelMessageVerify c) s = .next s) ∧
    (s.rd F.MAP_CH_STAT_align [c] ≠ 0 →
      (((s.cipCh c).rcd = none ∨ (s.cipCh c).num = none ∨ ∃ r, (s.cipCh c).rcd = some r ∧ s.verifiable c r = false) →
        ∃ t, exec (.channelMessageVerify c) s = .next t
          ∧ tabGet 0 t.counters (cipCnt c 2) = (tabGet 0 s.counters (cipCnt c 2) + 1) % 2 ^ 48
          ∧ ({ t with counters := s.counters, cip := s.cip } : State) = s) ∧
      (∀ r n, (s.cipCh c).rcd = some r → (s.cipCh c).num = some n → s.verifiable c r = true →
        (r.ctr = n → b2n r.epoch = (s.cipCh c).last.epoch → (s.cipCh c).last.bad = false →
          (r.tag = s.rxTag c n → ∃ t, exec (.channelMessageVerify c) s = .next t ∧ t.mfc c 1 = n % 2 ^ 48
            ∧ (t.cipCh c).failRun = 0 ∧ (t.cipCh c).okRun = (s.cipCh c).okRun + 1 ∧ (t.cipCh c).rcd = none) ∧
          (r.tag ≠ s.rxTag c n → ∃ t, exec (.channelMessageVerify c) s = .next t
            ∧ t.rd F.CIP_CH_STAT_auth_fail [c] = 1 ∧ (t.cipCh c).failRun = (s.cipCh c).failRun + 1
            ∧ (t.cipCh c).okRun = 0)) ∧
        (r.ctr ≠ n → (s.cipCh c).misCtr = none →
          ∃ t, exec (.channelMessageVerify c) s = .next t ∧ t.rd F.CIP_CH_STAT_ctr_mis [c] = 1
            ∧ t.rd F.CIP_CH_STAT_auth_fail [c] = 1 ∧ (t.cipCh c).misCtr = some r.ctr) ∧
        (∀ p, r.ctr ≠ n → (s.cipCh c).misCtr = some p → r.ctr = (p + 1) % 2 ^ 48 →
          ∃ t, exec (.channelMessageVerify c) s = .next t ∧ (t.chan c).renum = some (n, r.ctr)
            ∧ t.rd F.CIP_CH_STAT_auth_fail [c] = 1)))

/-- R340, R347 to R349: the selector of a protected channel, its commands, realignment and wait-to-restore. -/
def Obligations.Selectors : Prop :=
  ∀ (s : State) (c : Fin 512),
    (s.blockGated 8 = true →
      ∀ cmd, cmd ∈ [Instr.psClear c, .psLockout c, .psForcedSwitch c, .psManualA c, .psManualB c, .realign c] →
        exec cmd s = .next s) ∧
    (∀ cmd k, (cmd, k) ∈ [(Instr.psClear c, 0), (.psLockout c, 1), (.psForcedSwitch c, 2), (.psManualA c, 3), (.psManualB c, 4)] →
      s.blockGated 8 = false →
      (s.isProt c = true → (k ≠ 0 → s.selRequest c ≤ cmdRank k) →
        ∃ t, exec cmd s = .next t ∧ (t.chan c).cmd = k ∧ t.rd F.MAP_CH_CMD_code [c] = k ∧ t.vtg = s.vtg) ∧
      ((s.isProt c = false ∨ k ≠ 0 ∧ cmdRank k < s.selRequest c) →
        ∃ t, exec cmd s = .next t ∧ t.rd F.MAP_CH_CMD_refused [c] = 1 ∧ t.noRegs = s.noRegs
          ∧ RegsExcept s t [(F.MAP_CH_CMD_refused, [c]), (F.MAP_CH_CMD_code, [c])])) ∧
    (s.isProt c = true → (s.chan c).cmd = 1 → s.selRequest c = reqLO) ∧
    (s.isProt c = true → (s.chan c).cmd ≠ 1 → s.legRequests c true = true → s.selRequest c = reqSFB) ∧
    (s.isProt c = true → (s.chan c).cmd = 2 → s.legRequests c true = false → s.selRequest c = reqFS) ∧
    (s.rd F.MAP_CH_STAT_align [c] ≠ 0 → s.blockGated 8 = false →
      ∃ t, exec (.realign c) s = .next t ∧ t.rd F.MAP_CH_STAT_align [c] = 1 ∧ t.bit F.MAP_CH_STAT_csf [c] = true
        ∧ RegsExceptE s t [(F.MAP_CH_STAT_align, [c]), (F.MAP_CH_STAT_csf, [c])]) ∧
    (s.bit F.MAP_CH_STAT_wtr_run [c] = true → s.standby = true → exec (.wtrExpiry c) s = .next s) ∧
    (s.bit F.MAP_CH_STAT_wtr_run [c] = true → s.standby = false →
      ∃ t, exec (.wtrExpiry c) s = .next t ∧ t.rd F.MAP_CH_STAT_req [c] = 0 ∧ t.rd F.MAP_CH_STAT_wtr_run [c] = 0
        ∧ t.bit F.MAP_CH_STAT_sel [c] = false
        ∧ (s.mirrors = false →
            RegsExceptE s t [(F.MAP_CH_STAT_req, [c]), (F.MAP_CH_STAT_wtr_run, [c]), (F.MAP_CH_STAT_sel, [c])])) ∧
    (s.rd F.MAP_CH_STAT_align [c] ≠ 0 →
      (s.isProt c = false → ∃ t, exec (.selectorEvaluation c) s = .next t ∧ t.rd F.MAP_CH_STAT_req [c] = 0
        ∧ t.bit F.MAP_CH_STAT_sel [c] = false) ∧
      (s.isProt c = true → (s.chan c).cmd = 1 → ∃ t, exec (.selectorEvaluation c) s = .next t
        ∧ t.rd F.MAP_CH_STAT_req [c] = reqLO ∧ t.bit F.MAP_CH_STAT_sel [c] = false) ∧
      (s.isProt c = true → (s.chan c).cmd ≠ 1 → s.legRequests c true = true →
        ∃ t, exec (.selectorEvaluation c) s = .next t ∧ t.rd F.MAP_CH_STAT_req [c] = reqSFB
          ∧ t.bit F.MAP_CH_STAT_sel [c] = false) ∧
      (s.isProt c = true → (s.chan c).cmd = 2 → s.legRequests c true = false →
        ∃ t, exec (.selectorEvaluation c) s = .next t ∧ t.rd F.MAP_CH_STAT_req [c] = reqFS
          ∧ t.bit F.MAP_CH_STAT_sel [c] = true) ∧
      (s.isProt c = true → (s.chan c).cmd ≠ 1 → (s.chan c).cmd ≠ 2 → s.legRequests c true = false →
        s.legRequests c false = true →
        ∃ t, exec (.selectorEvaluation c) s = .next t ∧ t.rd F.MAP_CH_STAT_req [c] = reqSFA
          ∧ t.bit F.MAP_CH_STAT_sel [c] = true))

/-- R365 to R369: the status of key commands, in the order of their checks, and what a load or an erase leaves. -/
def Obligations.KeyCommands : Prop :=
  ∀ (s : State) (f : Fin 16),
    let n := s.rd F.CIP_UP_KEY_CMD_slot [f]
    let g := s.rd F.CIP_UP_KEY_CMD_func [f]
    let status := fun (c : Instr) (k : Nat) => ∃ t, exec c s = .next t ∧ t.rd F.CIP_UP_KEY_CMD_status [f] = k
      ∧ t.noRegs = s.noRegs ∧ RegsExcept s t [(F.CIP_UP_KEY_CMD_status, [f])]
    (s.blockGated 9 = true → ∀ c, c ∈ [Instr.keyLoadSlot f, .keyEraseSlot f, .kekLoad f, .kekErase f] → exec c s = .next s) ∧
    (s.blockGated 9 = false →
      (∀ c, c ∈ [Instr.keyLoadSlot f, .keyEraseSlot f] →
        (s.slotGranted f n = false → status c 2) ∧ (s.slotGranted f n = true → s.slotInUse n = true → status c 3)) ∧
      (∀ kek, s.slotGranted f n = true → s.slotInUse n = false → s.cip.devKek ≠ none → s.kekOf f = some kek →
        s.rd F.CIP_UP_KEY_CMD_use [f] ≠ 3 → n < 2048 →
        ∃ t, exec (.keyLoadSlot f) s = .next t ∧ (∀ k, k ≠ n → t.slot k = s.slot k) ∧ t.vtg = s.vtg
          ∧ (∀ key, unwrapKey kek (s.wrappedBytes f) = some key → t.rd F.CIP_UP_KEY_CMD_status [f] = 0
              ∧ t.slot n = ⟨key, 0⟩ ∧ t.slotFull n = true)
          ∧ (unwrapKey kek (s.wrappedBytes f) = none → t.rd F.CIP_UP_KEY_CMD_status [f] = 1 ∧ t.noRegs = s.noRegs
              ∧ RegsExcept s t [(F.CIP_UP_KEY_CMD_status, [f])])) ∧
      (s.slotGranted f n = true → s.slotInUse n = false → s.kekOf f = none → status (.keyLoadSlot f) 4) ∧
      (s.slotGranted f n = true → s.slotInUse n = false → n < 2048 →
        ∃ t, exec (.keyEraseSlot f) s = .next t ∧ t.rd F.CIP_UP_KEY_CMD_status [f] = 0 ∧ t.slot n = KeySlot.empty
          ∧ t.slotFull n = false ∧ (∀ k, k ≠ n → t.slot k = s.slot k)
          ∧ RegsExcept s t [(F.CIP_UP_KEY_CMD_status, [f]), (F.CIP_SLOT_STAT_full, [n]), (F.CIP_SLOT_STAT_use, [n]),
              (F.CIP_SLOT_STAT_func, [n]), (F.CIP_SLOT_KCV_kcv, [n])]) ∧
      (f ≠ 0 → status (.kekLoad f) 5 ∧ status (.kekErase f) 5) ∧
      (f = 0 → s.cip.devKek = none → status (.kekLoad f) 4) ∧
      (∀ kek, f = 0 → s.cip.devKek = some kek → g ≠ 0 →
        ∃ t, exec (.kekLoad f) s = .next t ∧ t.cip.slots = s.cip.slots
          ∧ RegsExcept s t [(F.CIP_UP_KEY_CMD_status, [f]), (F.CIP_STAT_kek, [])]
          ∧ (∀ key, unwrapKey kek (s.wrappedBytes f) = some key → tabGet none t.cip.keks g = some key
              ∧ t.rd F.CIP_UP_KEY_CMD_status [f] = 0)
          ∧ (unwrapKey kek (s.wrappedBytes f) = none → t.cip.keks = s.cip.keks ∧ t.rd F.CIP_UP_KEY_CMD_status [f] = 1)) ∧
      (f = 0 → g ≠ 0 →
        ∃ t, exec (.kekErase f) s = .next t ∧ tabGet none t.cip.keks g = none ∧ t.rd F.CIP_UP_KEY_CMD_status [f] = 0
          ∧ t.cip.slots = s.cip.slots ∧ RegsExcept s t [(F.CIP_UP_KEY_CMD_status, [f]), (F.CIP_STAT_kek, [])]))

/-- R374 to R377, R429: the message service: queueing, the grant of the engine, and the end of a message. -/
def Obligations.MessageService : Prop :=
  ∀ (s : State) (f : Fin 16),
    (s.blockGated 9 = true → exec (.msgQueueGo f) s = .next s) ∧
    (s.blockGated 9 = false → 8 ≤ (s.svc f).queue.length →
      ∃ t, exec (.msgQueueGo f) s = .next t ∧ t.rd F.CIP_UP_MSG_CMD_refused [f] = 1 ∧ t.noRegs = s.noRegs
        ∧ RegsExcept s t [(F.CIP_UP_MSG_CMD_refused, [f])]) ∧
    (s.blockGated 9 = false → (s.svc f).queue.length < 8 →
      ∃ t, exec (.msgQueueGo f) s = .next t ∧ t.rd F.CIP_UP_MSG_CMD_pending [f] = (s.svc f).queue.length + 1
        ∧ (t.svc f).queue = (s.svc f).queue ++ [(List.range 20).map fun w => s.rd F.CIP_UP_DESC_word [f, w]]
        ∧ (t.svc f).run = (s.svc f).run ∧ RegsExcept s t [(F.CIP_UP_MSG_CMD_pending, [f])]) ∧
    (∀ host err q x d ds, s.svcSol.grant (fun f => s.rd F.CIP_SOL_CFG_weight [f]) (fun _ => true) = some (q, x) → q.cls = f.val →
      (s.svc f).queue = d :: ds → (s.svc f).run = none → (s.memRead 9 (descSlot d)).1 = false →
      (s.svcReason f d ≠ 0 → ∃ t, exec (.msgServiceGrant host err) s = .next t
        ∧ (t.svc f).run = some ⟨0, false, 0, 0, s.svcReason f d, true⟩ ∧ ({ t.hif with hostMem := s.hif.hostMem } : Hif) = s.hif
        ∧ t.regs = s.regs) ∧
      (s.svcReason f d = 0 → descDecrypt d = false → ∃ t, exec (.msgServiceGrant host err) s = .next t
        ∧ (t.slot (descSlot d)).ctr = (s.slot (descSlot d)).ctr + 1 ∧ (t.svc f).queue = d :: ds ∧ t.regs = s.regs)) ∧
    (∀ host err q x d ds k, s.svcSol.grant (fun f => s.rd F.CIP_SOL_CFG_weight [f]) (fun _ => true) = some (q, x) →
      q.cls = f.val → (s.svc f).queue = d :: ds → (s.svc f).run = some k → k.past = false → err = false →
      0 < descAad d → descAad d ≤ 64 → descText d = 0 → k.done = 0 →
      ∃ t r, exec (.msgServiceGrant host err) s = .next t ∧ (t.svc f).run = some r ∧ r.past = true ∧ r.done = descAad d
        ∧ r.ghash = (List.range (descAad d)).foldl (fun g j =>
            ghashStep (hashKey (s.slot (descSlot d)).key) g (t.hif.dmaBlock (f * 2 ^ 60 + descAddr d 4 / 4 + 4 * j))) k.ghash
        ∧ t.regs = s.regs) ∧
    (∀ d ds r err, (s.svc f).queue = d :: ds → (s.svc f).run = some r → r.past = true → ds.length < 8 →
      ∃ t, exec (.msgServiceEnd f err) s = .next t ∧ t.svc f = ⟨ds, none⟩
        ∧ t.rd F.CIP_UP_MSG_CMD_pending [f] = ds.length ∧ t.vtg = s.vtg)

/-- R380 to R385, R387, R389 to R391: client frames and indications, egress, host-side conditions, calendars and
lanes. The GFP fields that the spec takes from its standard are the model's (log 36). -/
def Obligations.ClientLanes : Prop :=
  ∀ s : State,
    (∀ (k : Fin 576) (frame : List Byte) err corr unc,
      let f := frame.map BitVec.toNat
      let g := if err then stomp f else f
      (s.clientRuns false k = false → (64 ≤ k.val ∨ s.curBit F.CLI_PORT_CFG_en [k] = false) →
        exec (.clientFrameRx k frame err corr unc) s = .next s) ∧
      (s.clientRuns false k = false → k.val < 64 → s.curBit F.CLI_PORT_CFG_en [k] = true → corr ≠ 0 → unc ≠ 0 →
        ∃ t, exec (.clientFrameRx k frame err corr unc) s = .next t ∧ t.rd F.CLI_PORT_STAT_fec_unc [k] = 1
          ∧ tabGet 0 t.counters (cliCnt k 9) = (tabGet 0 s.counters (cliCnt k 9) + corr) % 2 ^ 48
          ∧ tabGet 0 t.counters (cliCnt k 10) = (tabGet 0 s.counters (cliCnt k 10) + unc) % 2 ^ 48
          ∧ RegsExcept s t [(F.CLI_PORT_STAT_fec_unc, [k])]
          ∧ ({ t with regs := s.regs, counters := s.counters } : State) = s) ∧
      (s.clientRuns false k = true → s.standby = false →
        (s.ptpOf f = none →
          ∃ t, exec (.clientFrameRx k frame err corr unc) s = .next t
            ∧ (t.gfp1 (s.clientCh k)).queue = (s.gfp1 (s.clientCh k)).queue ++ [payloadArea 0 0x01 g]
            ∧ RegsExcept s t [(F.CLI_PORT_STAT_fec_unc, [k])]
            ∧ ({ t with regs := s.regs, counters := s.counters, gfp := s.gfp } : State) = s) ∧
        (∀ p, s.ptpOf f = some p →
          ∃ t, exec (.clientFrameRx k frame err corr unc) s = .next t
            ∧ (t.gfp1 (s.clientCh k)).queue
                = (s.gfp1 (s.clientCh k)).queue ++ [payloadArea 0 0xE8 (beBytes 6 s.stamp ++ [0, 0] ++ g)]
            ∧ RegsExcept s t [(F.CLI_PORT_STAT_fec_unc, [k])]
            ∧ ({ t with regs := s.regs, counters := s.counters, gfp := s.gfp } : State) = s)) ∧
      (s.clientRuns false k = true → s.standby = true →
        ∃ t, exec (.clientFrameRx k frame err corr unc) s = .next t ∧ t.gfp = s.gfp
          ∧ ({ t with regs := s.regs, counters := s.counters } : State) = s)) ∧
    (∀ k : Fin 576, s.clientOn k = true →
      (∃ t, exec (.egressReplacement k) s = .next t ∧ (t.client k).eg = s.egressOf k ∧ t.vtg = s.vtg
        ∧ (s.egressOf k ≠ .frames → (t.client k).buf = []) ∧ (s.egressOf k = .frames → (t.client k).buf = (s.client k).buf)
        ∧ RegsExcept s t [(F.CLI_PORT_STAT_lf_tx, [k])]) ∧
      (∀ upi bs rest, s.clientRuns true k = true → s.clientOutput = true → (s.client k).eg = .frames → s.pry.hold = 0 →
        (s.client k).buf = (upi, bs) :: rest →
        s.ptpOf (clientFrame upi bs) = none →
        ∃ t, exec (.clientFrameEgress k) s = .next t ∧ (t.client k).out = clientFrame upi bs ∧ (t.client k).buf = rest
          ∧ (t.client k).gap = (if 32768 < s.egressHeld k then 8 else 12) ∧ t.regs = s.regs) ∧
      ((s.clientRuns true k = false ∨ s.clientOutput = false ∨ (s.client k).eg ≠ .frames ∨ s.pry.hold ≠ 0 ∨ (s.client k).buf = []) →
        exec (.clientFrameEgress k) s = .next s) ∧
      (s.standby = false → ∃ t, exec (.clientMgmtPeriod k) s = .next t
        ∧ (t.gfp1 (s.clientCh k)).queue
            = (s.gfp1 (s.clientCh k)).queue ++ ((s.hostConditions k).map fun upi => payloadArea 4 upi [])
        ∧ ({ t with gfp := s.gfp } : State) = s)) ∧
    (∀ (k : Fin 576) (upi : BitVec 8), ∃ t, exec (.clientIndicationExpiry k upi) s = .next t
      ∧ (t.client k).ind2 = ((s.client k).ind2 && decide (upi ≠ 2)) ∧ (t.client k).ind4 = ((s.client k).ind4 && decide (upi ≠ 4))
      ∧ (t.client k).ind5 = ((s.client k).ind5 && decide (upi ≠ 5)) ∧ ({ t with clients := s.clients } : State) = s) ∧
    (∀ (p : Fin 64) h, s.curBit F.CLI_PORT_CFG_en [p] = false → exec (.hostSideConditionChange p h) s = .next s) ∧
    (∀ (p : Fin 64) h, s.curBit F.CLI_PORT_CFG_en [p] = true → s.bit F.TIM_CLK_STAT_on_fallback = false →
      ∃ t, exec (.hostSideConditionChange p h) s = .next t ∧ t.rd F.CLI_PORT_STAT_lf_rx [p] = b2n h.lf
        ∧ t.rd F.CLI_PORT_STAT_rf_rx [p] = b2n h.rf ∧ t.rd F.CLI_PORT_STAT_hi_ber [p] = b2n h.hiBer
        ∧ t.vtg = s.vtg ∧ t.clients = s.clients) ∧
    (∀ (g : Fin 16) tx rx oh mis,
      let n := (tabGet Calendar.empty s.calendars g).next
      let now := (if tx then n else s.rd F.CLI_FXG_STAT_tx_cal [g], if rx then n else s.rd F.CLI_FXG_STAT_rx_cal [g])
      ∃ t, exec (.calendarSwitch g tx rx oh mis) s = .next t ∧ t.rd F.CLI_FXG_STAT_oh_lock [g] = b2n oh
        ∧ t.calendars = s.calendars ∧ t.noRegs = s.noRegs
        ∧ RegsExcept s t [(F.CLI_FXG_STAT_oh_lock, [g]), (F.CLI_FXG_STAT_mismatch, [g]), (F.CLI_FXG_STAT_tx_cal, [g]),
            (F.CLI_FXG_STAT_rx_cal, [g]), (F.CLI_FXG_STAT_sw_pend, [g])]
        ∧ (s.bit F.CLI_FXG_STAT_sw_pend [g] = true → n < 2 →
            t.rd F.CLI_FXG_STAT_tx_cal [g] = now.1 ∧ t.rd F.CLI_FXG_STAT_rx_cal [g] = now.2
              ∧ t.bit F.CLI_FXG_STAT_sw_pend [g] = !decide (now = (n, n)))
        ∧ (s.bit F.CLI_FXG_STAT_sw_pend [g] = false → t.rd F.CLI_FXG_STAT_tx_cal [g] = s.rd F.CLI_FXG_STAT_tx_cal [g]
            ∧ t.bit F.CLI_FXG_STAT_sw_pend [g] = false
            ∧ t.rd F.CLI_FXG_STAT_rx_cal [g]
                = (if rx then 1 - s.rd F.CLI_FXG_STAT_rx_cal [g] else s.rd F.CLI_FXG_STAT_rx_cal [g]))) ∧
    (∀ l : Fin 64, s.rd F.CLI_LANE_STAT_pstate [l] = laneLeaving → (s.lane l).held = none → (s.lane l).target < 4 →
      ∃ t, exec (.laneDeepExit l) s = .next t ∧ t.rd F.CLI_LANE_STAT_pstate [l] = (s.lane l).target
        ∧ t.rd F.CLI_LANE_STAT_exit_pend [l] = 0
        ∧ RegsExcept s t [(F.CLI_LANE_STAT_pstate, [l]), (F.CLI_LANE_STAT_exit_pend, [l])])

/-- R397, R400, R409 to R412, R415 to R417, R419, R428: training, the access window, TOUCH, repair and injection.
That the effect of an access comes at once and busy lasts until its grants is the model's choice (log 24). -/
def Obligations.CellarCommands : Prop :=
  ∀ s : State,
    let b := s.accBlock
    (s.cel.trainDue = true → s.celAsleep = false → ∃ t, exec .cellarTrain s = .next t ∧ t.rd F.CEL_STAT_avail = 0 ∧ t.cel.training = true
      ∧ t.cel.trainDue = false ∧ (s.vtg.loading ≠ none → t.rd F.VTG_CMD_nomatch = 1 ∧ t.vtg.loading = none)
      ∧ RegsExcept s t [(F.CEL_STAT_avail, []), (F.CEL_STAT_ch_ok, []), (F.CEL_CAP_STAT_segs, []), (F.CEL_STAT_arch_lost, []),
          (F.CEL_STAT_jarc_lost, []), (F.VTG_CMD_nomatch, [])]) ∧
    (s.cel.trainDue = false ∨ s.celAsleep = true → exec .cellarTrain s = .next s) ∧
    (s.blockGated 11 = true → ∀ cmd errs xs b, cmd ∈ [Instr.cellarRetrain, .accRead errs, .accWrite, .accRawWrite, .touchGo xs, .pprGo b,
      .memInjArm] → exec cmd s = .next s) ∧
    (s.blockGated 11 = false → s.celRouted = true → ∃ t, exec .cellarRetrain s = .next t ∧ t.rd F.CEL_CMD_refused = 1 ∧ t.noRegs = s.noRegs
      ∧ RegsExcept s t [(F.CEL_CMD_refused, [])]) ∧
    (s.blockGated 11 = false → s.celRouted = false → s.celAsleep = true → exec .cellarRetrain s = .next s) ∧
    (s.blockGated 11 = false → s.celRouted = false → s.celAsleep = false → ∃ t, exec .cellarRetrain s = .next t ∧ t.rd F.CEL_STAT_avail = 0 ∧ t.cel.training = true) ∧
    (∀ ok dense, s.cel.training = true →
      ∃ t, exec (.cellarTrainDone ok dense) s = .next t ∧ t.cel.training = false ∧ t.rd F.CEL_STAT_ch_ok = ok.toNat
        ∧ t.bit F.CEL_STAT_avail = decide (ok = 255) ∧ (ok ≠ 255 → t.pends 0x30 = true)) ∧
    (∀ errs, s.blockGated 11 = false → s.bit F.CEL_ACC_CMD_busy = false → s.blockExists b = true →
      (s.lineValid b = false → ∃ t, exec (.accRead errs) s = .next t ∧ t.rd F.CEL_ACC_CMD_busy = 1
        ∧ t.rd F.CEL_ACC_CMD_result = 3 ∧ (∀ w, w < 22 → t.rd F.CEL_ACC_DATA_bytes [w] = 0)
        ∧ t.cel.blocks = s.cel.blocks ∧ tabGet 0 t.cel.work 4 = tabGet 0 s.cel.work 4 + 1) ∧
      (s.lineValid b = true → rsDecode 4 (disturb (s.stored b) (errs.map fun e => (e.1.val, e.2.toNat))) = .clean →
        ∃ t, exec (.accRead errs) s = .next t ∧ t.rd F.CEL_ACC_CMD_busy = 1 ∧ t.rd F.CEL_ACC_CMD_result = 0
          ∧ t.cel.blocks = s.cel.blocks ∧ tabGet 0 t.cel.work 4 = tabGet 0 s.cel.work 4 + 1) ∧
      (∀ k w, s.lineValid b = true →
        rsDecode 4 (disturb (s.stored b) (errs.map fun e => (e.1.val, e.2.toNat))) = .corrected k w →
        ∃ t, exec (.accRead errs) s = .next t ∧ t.rd F.CEL_ACC_CMD_busy = 1 ∧ t.rd F.CEL_ACC_CMD_result = 1
          ∧ tabGet [] t.cel.blocks b = w ∧ t.rd F.CEL_ELOG_CE_ch = blockChannel b) ∧
      (s.lineValid b = true →
        rsDecode 4 (disturb (s.stored b) (errs.map fun e => (e.1.val, e.2.toNat))) = .poisoned →
        ∃ t, exec (.accRead errs) s = .next t ∧ t.rd F.CEL_ACC_CMD_busy = 1 ∧ t.rd F.CEL_ACC_CMD_result = 2
          ∧ t.pends 0x31 = true ∧ t.rd F.CEL_ELOG_UE_ch = blockChannel b) ∧
      (s.accWriteRefused b = false → ∃ t, exec .accWrite s = .next t ∧ t.rd F.CEL_ACC_CMD_busy = 1
        ∧ tabGet [] t.cel.blocks b = s.accBytes ++ rsCheck 4 s.accBytes
        ∧ tabGet 0 t.cel.work 4 = tabGet 0 s.cel.work 4 + writeGrants (s.lineValid b)
        ∧ (s.lineValid b = true → ∀ b', b' ≠ b → tabGet [] t.cel.blocks b' = tabGet [] s.cel.blocks b')
        ∧ RegsExcept s t [(F.CEL_ACC_CMD_busy, [])]) ∧
      (s.accWriteRefused b = true → ∃ t, exec .accWrite s = .next t ∧ t.rd F.CEL_ACC_CMD_refused = 1
        ∧ t.noRegs = s.noRegs ∧ RegsExcept s t [(F.CEL_ACC_CMD_refused, [])]) ∧
      (s.accWriteRefused b = false → s.mode = modeProving → ∃ t, exec .accRawWrite s = .next t
        ∧ tabGet [] t.cel.blocks b
            = s.accBytes ++ wordBytes (s.rd F.CEL_ACC_CHK_bytes) ++ [s.rd F.CEL_ACC_CHK3_byte]
        ∧ tabGet 0 t.cel.work 4 = tabGet 0 s.cel.work 4 + writeGrants (s.lineValid b)
        ∧ RegsExcept s t [(F.CEL_ACC_CMD_busy, [])]) ∧
      (s.mode ≠ modeProving → ∃ t, exec .accRawWrite s = .next t ∧ t.rd F.CEL_ACC_CMD_refused = 1 ∧ t.noRegs = s.noRegs)) ∧
    (∀ cmd errs, cmd ∈ [Instr.accRead errs, .accWrite, .accRawWrite] → s.blockGated 11 = false →
      (s.bit F.CEL_ACC_CMD_busy = true ∨ s.blockExists b = false) →
      ∃ t, exec cmd s = .next t ∧ t.rd F.CEL_ACC_CMD_refused = 1 ∧ t.noRegs = s.noRegs
        ∧ RegsExcept s t [(F.CEL_ACC_CMD_refused, [])]) ∧
    (s.celWaits = true → exec .accDone s = .next s) ∧
    (s.celWaits = false → ∃ t, exec .accDone s = .next t ∧ t.rd F.CEL_ACC_CMD_busy = 0 ∧ tabGet 0 t.cel.work 4 = 0
      ∧ t.cel.blocks = s.cel.blocks ∧ RegsExcept s t [(F.CEL_ACC_CMD_busy, [])]
      ∧ ({ t with regs := s.regs, cel := s.cel } : State) = s) ∧
    (∀ errs, s.blockGated 11 = false → s.bit F.CEL_TOUCH_CMD_busy = false → s.bit F.CEL_STAT_avail = true →
      ∃ t, exec (.touchGo errs) s = .next t ∧ t.rd F.CEL_TOUCH_CMD_busy = 1) ∧
    (∀ errs, s.blockGated 11 = false → (s.bit F.CEL_TOUCH_CMD_busy = true ∨ s.bit F.CEL_STAT_avail = false) →
      ∃ t, exec (.touchGo errs) s = .next t ∧ t.rd F.CEL_TOUCH_CMD_refused = 1 ∧ t.noRegs = s.noRegs
        ∧ RegsExcept s t [(F.CEL_TOUCH_CMD_refused, [])]) ∧
    (s.bit F.CEL_TOUCH_CMD_busy = true → ∃ t, exec .celTouchDone s = .next t ∧ t.rd F.CEL_TOUCH_CMD_busy = 0
      ∧ t.pends 0x33 = true ∧ tabGet 0 t.cel.work 6 = 0 ∧ RegsExceptE s t [(F.CEL_TOUCH_CMD_busy, [])]) ∧
    (s.bit F.CEL_TOUCH_CMD_busy = false → exec .celTouchDone s = .next s) ∧
    (∀ b k, (b, s.celRouted, k) ∈ [(true, true, 4), (false, true, 4), (false, false, 3)] → s.blockGated 11 = false →
      s.rd F.CEL_PPR_CMD_status ≠ 1 → ∃ t, exec (.pprGo b) s = .next t ∧ t.rd F.CEL_PPR_CMD_status = k
        ∧ t.noRegs = s.noRegs ∧ RegsExcept s t [(F.CEL_PPR_CMD_status, [])]) ∧
    (s.celRouted = false → s.blockGated 11 = false → s.rd F.CEL_PPR_CMD_status ≠ 1 →
      ∃ t, exec (.pprGo true) s = .next t ∧ t.rd F.CEL_PPR_CMD_status = 1 ∧ t.vtg = s.vtg
        ∧ (s.pprBlocks = [] → t.noRegs = s.noRegs ∧ RegsExcept s t [(F.CEL_PPR_CMD_status, [])])) ∧
    (∀ b, s.rd F.CEL_PPR_CMD_status = 1 → exec (.pprGo b) s = .next s ∧
      ∃ t, exec (.celPprDone b) s = .next t ∧ t.rd F.CEL_PPR_CMD_status = (if b then 2 else 5) ∧ t.pends 0x34 = true
        ∧ (s.vtg.loading = none → s.cel.waiting = [] → RegsExceptE s t [(F.CEL_PPR_CMD_status, [])])) ∧
    (s.mode ≠ modeProving → exec .memInjArm s = .next s) ∧
    (s.blockGated 11 = false → s.mode = modeProving → ∃ t, exec .memInjArm s = .next t ∧ t.cel.inj = some ⟨s.rd F.CEL_MEM_INJ_cls,
      s.rd F.CEL_MEM_INJ_sym0, s.rd F.CEL_MEM_INJ_sym1, s.bit F.CEL_MEM_INJ_two⟩ ∧ ({ t with cel := s.cel } : State) = s)

/-- R436 to R451: the gates of the reference candidates, their availability, the selector's commands and states, and
the phase step. -/
def Obligations.References : Prop :=
  ∀ s : State,
    (∀ (i : Fin 16) off, s.measured i = false →
      ∃ t, exec (.candGate100ms i off) s = .next t ∧ t.rd F.TIM_CAND_OFF_off [i] = 0x800000 ∧ t.noRegs = s.noRegs
        ∧ RegsExcept s t [(F.TIM_CAND_OFF_off, [i])]) ∧
    (∀ (i : Fin 16) off, s.measured i = true → beyond (s.cur F.TIM_CAND_LIM_soft [i]) off.toInt = false →
      (s.candState i = candAlarm → s.curBit F.TIM_SEL_CFG_revert = true → s.tim.selValid = true →
        s.rd F.TIM_SEL_STAT_cmd ≠ 0) →
      ∃ t, exec (.candGate100ms i off) s = .next t ∧ t.rd F.TIM_CAND_OFF_off [i] = off.toNat
        ∧ (s.candState i = candAlarm → t.candState i = candQualified)
        ∧ (s.candState i = candDisqualified → t.candState i = candWtr)
        ∧ RegsExcept s t [(F.TIM_CAND_OFF_off, [i]), (F.TIM_CAND_STAT_state, [i])]) ∧
    (∀ (i : Fin 16) off, s.measured i = true → beyond (s.cur F.TIM_CAND_LIM_soft [i]) off.toInt = true →
      ∃ t, exec (.candGate100ms i off) s = .next t ∧ t.rd F.TIM_CAND_STAT_soft_hit [i] = 1 ∧ t.pends 0x38 = true) ∧
    (∀ (i : Fin 16) off, s.measured i = true → beyond (s.hardLimit i) off.toInt = true → s.isSelected i = false →
      s.rd F.TIM_SEL_STAT_cmd = 0 → s.selState = selHoldOff →
      ∃ t, exec (.candGate1ms [(i, off)]) s = .next t ∧ t.rd F.TIM_CAND_STAT_hard_hit [i] = 1
        ∧ t.candState i = candDisqualified ∧ t.noRegs = s.noRegs
        ∧ RegsExcept s t [(F.TIM_CAND_STAT_hard_hit, [i]), (F.TIM_CAND_STAT_state, [i])]) ∧
    (∀ i : Fin 16, s.isSelected i = false →
      (s.candState i = candWtr → s.curBit F.TIM_SEL_CFG_revert = false →
        ∃ t, exec (.candWtrExpiry i) s = .next t ∧ t.candState i = candQualified ∧ t.noRegs = s.noRegs
          ∧ RegsExcept s t [(F.TIM_CAND_STAT_state, [i])]) ∧
      (s.candState i = candUnavailable → s.sourceHolds i ≠ some false →
        ∃ t, exec (.candidateAvailable i) s = .next t ∧ t.candState i = candWtr
          ∧ RegsExcept s t [(F.TIM_CAND_STAT_state, [i])]) ∧
      (s.candState i ≠ candUnavailable → s.sourceHolds i ≠ some true →
        ∃ t, exec (.candAvailLoss i) s = .next t ∧ t.candState i = candUnavailable ∧ t.rd F.TIM_CAND_STAT_lost [i] = 1
          ∧ t.rd F.TIM_CAND_OFF_off [i] = 0x800000 ∧ t.pends 0x39 = true)) ∧
    (s.selState = selHoldOff → s.bestCandidate = none → s.bit F.TIM_CLK_STAT_on_fallback = false →
      ∃ t, exec .selHoldoffExpiry s = .next t ∧ t.selState = selFreeRun ∧ t.tim.selValid = false
        ∧ RegsExcept s t [(F.TIM_SEL_STAT_state, [])]) ∧
    (∀ b, s.selState = selHoldOff → s.bestCandidate = some b → s.isSelected b = false →
      ∃ t, exec .selHoldoffExpiry s = .next t ∧ t.selState = selAcquiring ∧ t.rd F.TIM_SEL_STAT_sel = b
        ∧ t.tim.selValid = true ∧ t.pends 0x3A = true) ∧
    (∀ c k, (c, k) ∈ [(Instr.selForce, 1), (.selManual, 2)] →
      (s.selState ≠ selNotRunning → s.cmdHolds k (s.rd F.TIM_SEL_CMD_cand) = true →
        s.isSelected (s.rd F.TIM_SEL_CMD_cand) = false → s.rd F.TIM_SEL_CMD_cand < 16 →
        ∃ t, exec c s = .next t ∧ t.rd F.TIM_SEL_STAT_cmd = k ∧ t.rd F.TIM_SEL_STAT_sel = s.rd F.TIM_SEL_CMD_cand
          ∧ t.selState = selAcquiring ∧ t.tim.cmdCand = s.rd F.TIM_SEL_CMD_cand ∧ t.pends 0x3A = true) ∧
      (s.cmdHolds k (s.rd F.TIM_SEL_CMD_cand) = false →
        ∃ t, exec c s = .next t ∧ t.rd F.TIM_SEL_STAT_cmd = 0 ∧ t.rd F.TIM_SEL_CMD_refused = 1 ∧ t.vtg = s.vtg)) ∧
    (∃ t, exec .selClear s = .next t ∧ t.rd F.TIM_SEL_STAT_cmd = 0 ∧ t.vtg = s.vtg) ∧
    (s.selState = selAcquiring → s.outOfRange = true → exec .selLocked s = .next s) ∧
    (s.selState = selAcquiring → s.outOfRange = false → s.candState (s.rd F.TIM_SEL_STAT_sel) ≠ candAlarm →
      ∃ t, exec .selLocked s = .next t ∧ t.selState = Sys2Proof.Machine.selLocked ∧ t.noRegs = s.noRegs
        ∧ RegsExcept s t [(F.TIM_SEL_STAT_state, [])]) ∧
    (let r := s.phaseRem + toSigned 20 (s.rd F.TIM_PHS_AMT_amt)
     ∃ t, exec .phaseStepGo s = .next t ∧ t.phaseRem = clampInt (-500000) 500000 r
      ∧ t.bit F.TIM_PHS_CMD_busy = decide (clampInt (-500000) 500000 r ≠ 0)
      ∧ (clampInt (-500000) 500000 r ≠ r → t.rd F.TIM_PHS_CMD_clamp = 1)
      ∧ RegsExcept s t [(F.TIM_PHS_REM_rem, []), (F.TIM_PHS_CMD_busy, []), (F.TIM_PHS_CMD_clamp, [])]) ∧
    (∃ t, exec .phaseSlewDone s = .next t ∧ t.rd F.TIM_PHS_REM_rem = 0 ∧ t.rd F.TIM_PHS_CMD_busy = 0 ∧ t.noRegs = s.noRegs)

/-- R452 to R457: device time is set, adjusted and wraps; timers arm, disarm and fire; a multiframe without a valid
delay block counts towards the loss of the transparent clock's lock. -/
def Obligations.DeviceTime : Prop :=
  ∀ s : State,
    ((∀ n, n < 16 → s.bit F.TIM_TMR_CTL_armed [n] = false) →
      (exec .todSet s = .next (s.setNow (BitVec.ofNat 64
        ((s.rd F.TIM_TOD_SET_H_value % 256 * 2 ^ 24 + s.rd F.TIM_TOD_SET_L_value) * 2 ^ 32)))) ∧
      (exec .todAdj s = .next (s.setNow (s.tim.now
        + BitVec.ofNat 64 (ofSigned 32 (toSigned 24 (s.rd F.TIM_TOD_ADJ_value)) * 2 ^ 32))))) ∧
    (∃ t, exec .todWrap s = .next t ∧ t.tim.now = 0 ∧ (s.bit F.TIM_TOD_CFG_wrap_en = true → t.pends 0x3B = true)
      ∧ (s.bit F.TIM_TOD_CFG_wrap_en = false → ({ t with tim := s.tim } : State) = s)) ∧
    (∀ n : Fin 16,
      (s.reached (s.timerTarget n) = false → ∃ t, exec (.timerArm n) s = .next t ∧ t.rd F.TIM_TMR_CTL_armed [n] = 1
        ∧ t.noRegs = s.noRegs ∧ RegsExcept s t [(F.TIM_TMR_CTL_armed, [n])]) ∧
      (s.reached (s.timerTarget n) = true → s.rd F.TIM_TMR_PER_value [n] = 0 → s.rd F.TIM_TMR_CFG_action [n] ≠ 3 →
        ∃ t, exec (.timerArm n) s = .next t ∧ t.rd F.TIM_TMR_CTL_fired [n] = 1 ∧ t.rd F.TIM_TMR_CTL_late [n] = 1
          ∧ t.rd F.TIM_TMR_CTL_armed [n] = 0 ∧ t.pends 0x3C = true) ∧
      (∃ t, exec (.timerDisarm n) s = .next t ∧ t.rd F.TIM_TMR_CTL_armed [n] = 0 ∧ t.noRegs = s.noRegs
        ∧ RegsExcept s t [(F.TIM_TMR_CTL_armed, [n])]) ∧
      (s.bit F.TIM_TMR_CTL_armed [n] = true → s.reached (s.timerTarget n) = true → s.rd F.TIM_TMR_PER_value [n] = 0 →
        s.rd F.TIM_TMR_CFG_action [n] ≠ 3 →
        ∃ t, exec (.timerFire n) s = .next t ∧ t.rd F.TIM_TMR_CTL_fired [n] = 1 ∧ t.rd F.TIM_TMR_CTL_armed [n] = 0
          ∧ t.rd F.TIM_TMR_CTL_late [n] = s.rd F.TIM_TMR_CTL_late [n] ∧ t.pends 0x3C = true
          ∧ (s.rd F.TIM_TMR_CFG_action [n] = 1 →
              t.exec.timerPkts = s.exec.timerPkts ++ [(n.val, false, s.timerTarget n)]))) ∧
    (s.bit F.TIM_LTC_CFG_en = false → exec .ltcMultiframe s = .next s) ∧
    (s.bit F.TIM_LTC_CFG_en = true →
      let l := s.lfr1 (s.rd F.TIM_LTC_CFG_slice)
      ((l.dlyOk = false ∨ l.dlyRx = none) →
        ∃ t, exec .ltcMultiframe s = .next t ∧ t.tim.ltcMiss = min 16 (s.tim.ltcMiss + 1) ∧ t.tim.ltcGood = s.tim.ltcGood
          ∧ t.tim.now = s.tim.now ∧ (15 ≤ s.tim.ltcMiss → t.rd F.TIM_LTC_STAT_lock = 0)
          ∧ RegsExcept s t [(F.TIM_LTC_STAT_lock, [])]) ∧
      (l.dlyOk = true → l.dlyRx ≠ none → ∃ t, exec .ltcMultiframe s = .next t ∧ t.tim.ltcMiss = 0))

/-- R461 to R469, R471: the attempts of a Poryon port, its link and its loss, and the frames and messages that it
receives. How a message waits at its port is the model's reading (log 27). -/
def Obligations.PoryonLinks : Prop :=
  ∀ (s : State) (p : Fin 6),
    (∀ c k b, (c, k, b) ∈ [(Instr.linkAttemptStart p, portDown, false), (.linkBackoffExpiry p, portBackoff, false),
        (.absentProbe p, portAbsent, true), (.mismatchRetry p, portMismatch, false)] →
      s.portRuns p = true → s.portState p = k →
      ∃ t, exec c s = .next t ∧ t.portState p = portTraining ∧ t.rd F.PRY_PORT_STAT_pwr [p] = 0 ∧ (t.port p).probe = b
        ∧ (t.port p).losses = 0 ∧ (t.port p).wait = [(⟨0, 0, 0, s.rd F.PRY_DOM_STAT_dom, s.identWords p⟩, 1)] ∧ RegsExcept s t [(F.PRY_PORT_STAT_state, [p]), (F.PRY_PORT_STAT_pwr, [p])]) ∧
    (s.portState p = portTraining → (s.port p).probe = false →
      (s.rd F.PRY_PORT_STAT_fails [p] < 7 →
        ∃ t, exec (.linkAttemptTimeout p) s = .next t ∧ t.portState p = portBackoff
          ∧ t.rd F.PRY_PORT_STAT_fails [p] = s.rd F.PRY_PORT_STAT_fails [p] + 1 ∧ t.noRegs = s.noRegs
          ∧ RegsExcept s t [(F.PRY_PORT_STAT_state, [p]), (F.PRY_PORT_STAT_fails, [p]), (F.PRY_PORT_STAT_pwr, [p])]) ∧
      (7 ≤ s.rd F.PRY_PORT_STAT_fails [p] →
        ∃ t, exec (.linkAttemptTimeout p) s = .next t ∧ t.portState p = portAbsent ∧ t.rd F.PRY_PORT_STAT_fails [p] = 8
          ∧ t.pends 0x42 = true)) ∧
    (s.portState p = portTraining → (s.port p).probe = true →
      ∃ t, exec (.linkAttemptTimeout p) s = .next t ∧ t.portState p = portAbsent ∧ t.noRegs = s.noRegs
        ∧ RegsExcept s t [(F.PRY_PORT_STAT_state, [p]), (F.PRY_PORT_STAT_pwr, [p])]) ∧
    (s.portState p = portTraining → (s.port p).losses < 4 →
      ∃ t, exec (.attemptSignalLoss p) s = .next t ∧ (t.port p).losses = (s.port p).losses + 1
        ∧ t.rd F.PRY_PORT_STAT_los [p] = 1 ∧ t.portState p = portTraining ∧ RegsExcept s t [(F.PRY_PORT_STAT_los, [p])]) ∧
    (s.linked p = true → s.bit F.PRY_PORT_CFG_keep [p] = false → (s.port p).wait = [] →
      ∃ t, exec (.portIdleTimeout p) s = .next t ∧ t.rd F.PRY_PORT_STAT_pwr [p] = 1 ∧ t.noRegs = s.noRegs
        ∧ RegsExcept s t [(F.PRY_PORT_STAT_pwr, [p])]) ∧
    ((s.linked p = false ∨ s.bit F.PRY_PORT_CFG_keep [p] = true ∨ (s.port p).wait ≠ []) →
      exec (.portIdleTimeout p) s = .next s) ∧
    (s.linked p = true → (p ≠ 0 ∨ s.pairState = pairSolo) →
      ∃ t, exec (.linkLoss p) s = .next t ∧ t.portState p = portTraining ∧ t.rd F.PRY_PORT_STAT_lost [p] = 1
        ∧ t.rd F.PRY_PORT_STAT_fails [p] = 0 ∧ t.pends 0x41 = true ∧ t.vtg = s.vtg) ∧
    (∀ m rest, takeMsg (fun m => decide (m.cls = 0 ∧ m.kind = 0)) (s.port p).inbox = some (m, rest) →
      s.portState p = portTraining →
      (s.rolesPass p (m.words.getD 1 0) (m.words.getD 2 0) = true → m.words.getD 3 0 = s.ownSerial →
        ∃ t, exec (.ident p) s = .next t ∧ t.portState p = portLinked
          ∧ t.rd F.PRY_PORT_PEER_serial [p] = m.words.getD 0 0 % 2 ^ 24 ∧ t.pends 0x40 = true) ∧
      (s.rolesPass p (m.words.getD 1 0) (m.words.getD 2 0) = true → m.words.getD 3 0 ≠ s.ownSerial →
        ∃ t, exec (.ident p) s = .next t ∧ t.portState p = portTraining
          ∧ (t.port p).wait.length = (s.port p).wait.length + 1
          ∧ RegsExcept s t [(F.PRY_PORT_PEER_serial, [p]), (F.PRY_PORT_PINFO_info, [p])]) ∧
      (s.rolesPass p (m.words.getD 1 0) (m.words.getD 2 0) = false →
        ∃ t, exec (.ident p) s = .next t ∧ t.portState p = portMismatch ∧ t.pends 0x43 = true
          ∧ RegsExceptE s t [(F.PRY_PORT_STAT_state, [p]), (F.PRY_PORT_PEER_serial, [p]), (F.PRY_PORT_PINFO_info, [p])])) ∧
    (∀ content codes, s.portState p = portLinked → (codes = false ∨ content.length ≠ 62) →
      ∃ t, exec (.poryonFrameRx p content codes) s = .next t
        ∧ tabGet 0 t.counters (pryCnt p 2) = (tabGet 0 s.counters (pryCnt p 2) + 1) % 2 ^ 48
        ∧ ({ t with counters := s.counters } : State) = s) ∧
    (∀ content : List Byte,
      let bits := byteBits (content.map BitVec.toNat)
      s.portState p = portLinked → content.length = 62 → fcs32 (bits.take 464) = ofBits (bits.drop 464) →
      ofBits (bits.take 4) = 3 → ofBits ((bits.drop 4).take 4) = 0 → ofBits ((bits.drop 10).take 5) ≤ 18 →
      ofBits ((bits.drop 8).take 1) = 1 → ofBits ((bits.drop 9).take 1) = 1 → tabGet none (s.port p).part 3 = none →
      ∃ t, exec (.poryonFrameRx p content true) s = .next t
        ∧ (t.port p).inbox = (s.port p).inbox ++ [⟨3, 0, ofBits ((bits.drop 15).take 6), ofBits ((bits.drop 21).take 6),
            (List.range (ofBits ((bits.drop 10).take 5))).map fun k => ofBits ((bits.drop (32 + 24 * k)).take 24)⟩]
        ∧ t.regs = s.regs ∧ t.vtg = s.vtg) ∧
    (∀ m rest, takeMsg (fun m => decide (m.cls = 3)) (s.port p).inbox = some (m, rest) →
      m.words.length ≤ queueFree (35 + p) (s.queue (35 + p)) →
      exec (.message p) s = .next ((s.setPort p { s.port p with inbox := rest }).pushAll (35 + p)
        (m.words.map (BitVec.ofNat 24))))

/-- R473, R474, R478 to R484: heartbeats, the loss of the partner, takeover, release, detach, and the messages of
the pair. The words of PAIR messages and the content of the items are the model's (log 40). -/
def Obligations.TwinPair : Prop :=
  ∀ s : State,
    (s.linked 0 = true → s.mode ≠ modeRecovery → s.mirrored = false → s.joinSlot = none →
      ∃ t ws, exec .heartbeatSend s = .next t ∧ t.pry.beats = s.pry.beats + 1
        ∧ (t.port 0).wait = (s.port 0).wait ++ [(⟨0, 1, 0, s.rd F.PRY_DOM_STAT_dom, t.beatWords⟩, 1),
            (⟨0, 2, 0, s.rd F.PRY_DOM_STAT_dom, ws⟩, 1)]
        ∧ ({ t with pry := s.pry } : State) = s) ∧
    (s.linked 0 = false → exec .heartbeatSend s = .next s) ∧
    (∀ m rest, takeMsg (fun m => decide (m.cls = 0 ∧ m.kind = 1)) (s.port 0).inbox = some (m, rest) →
      ∃ t, exec (.heartbeat 0) s = .next t ∧ t.pry.beat = true
        ∧ t.rd F.PRY_TWIN_STAT_peer_active = m.words.getD 2 0 / 2 ^ 18 % 2 ∧ (t.port 0).inbox = rest
        ∧ RegsExcept s t [(F.PRY_TWIN_STAT_peer_active, []), (F.PRY_TWIN_STAT_ready, []), (F.PRY_TWIN_STAT_pair, [])]) ∧
    (s.pairState = pairPaired → s.isActive = true →
      ∃ t, exec .twinHeartbeatLoss s = .next t ∧ t.pairState = pairSolo ∧ t.rd F.PRY_TWIN_STAT_lost = 1
        ∧ t.pends 0x44 = true ∧ t.mode = s.mode ∧ t.vtg = s.vtg) ∧
    (s.pairState = pairPaired → s.isActive = false → (s.bit F.PRY_TWIN_CFG_take_en = false ∨ s.mode ≠ modeShadow) →
      ∃ t, exec .twinHeartbeatLoss s = .next t ∧ t.pairState = pairSolo ∧ t.rd F.PRY_TWIN_STAT_lost = 1
        ∧ t.pends 0x44 = true ∧ t.mode = s.mode ∧ t.vtg = s.vtg) ∧
    (s.pairState = pairPaired → s.isActive = false → s.bit F.PRY_TWIN_CFG_take_en = true → s.mode = modeShadow →
      ∃ t, exec .twinHeartbeatLoss s = .next t ∧ t.pairState = pairTaking ∧ t.isActive = true ∧ t.mode = modeService
        ∧ t.rd F.PRY_TWIN_STAT_lost = 1 ∧ t.pends 0x44 = true) ∧
    (s.isActive = true → s.pry.beat = false →
      ∃ t, exec .peerActiveAssert s = .next t ∧ t.isActive = false ∧ t.rd F.PRY_TWIN_STAT_deposed = 1
        ∧ t.pends 0x45 = true ∧ t.pairState = pairSolo) ∧
    (s.pairState = pairTaking → (∀ i, i ∈ slices8 → s.lit i = false ∨ s.muteTarget i = true ∨ (s.tx1 i).amp = 4000) →
      ∃ t, exec .takeoverFullAmplitude s = .next t ∧ t.pairState = pairSolo ∧ t.vtg = s.vtg) ∧
    (s.blockGated 15 = true → ∀ c, c ∈ [Instr.twinRelease, .twinDetach, .twinResync] → exec c s = .next s) ∧
    (s.blockGated 15 = false → s.pairState = pairPaired → s.isActive = true → s.bit F.PRY_TWIN_STAT_ready = true →
      ∃ t, exec .twinRelease s = .next t ∧ t.pry.relAt = some ((s.gridSfc + 4) % 2 ^ 24) ∧ t.pry.relAck = false
        ∧ t.pairState = pairPaired ∧ t.isActive = true ∧ t.vtg = s.vtg) ∧
    (s.blockGated 15 = false → (s.pairState ≠ pairPaired ∨ s.isActive = false ∨ s.bit F.PRY_TWIN_STAT_ready = false) →
      ∃ t, exec .twinRelease s = .next t ∧ t.rd F.PRY_TWIN_STAT_refused = 1 ∧ t.rd F.PRY_TWIN_STAT_reason = 7
        ∧ t.noRegs = s.noRegs ∧ RegsExcept s t [(F.PRY_TWIN_STAT_refused, []), (F.PRY_TWIN_STAT_reason, [])]) ∧
    (s.pry.relAt ≠ none → s.pry.relAck = false →
      ∃ t, exec .releaseAckTimeout s = .next t ∧ t.pry.relAt = none ∧ t.rd F.PRY_TWIN_STAT_refused = 1
        ∧ t.rd F.PRY_TWIN_STAT_reason = 8
        ∧ RegsExcept s t [(F.PRY_TWIN_STAT_refused, []), (F.PRY_TWIN_STAT_reason, [])]) ∧
    (s.pairState = pairPaired → s.isActive = true → s.pry.relAck = true → s.pry.relAt = some s.gridSfc →
      ∃ t, exec .releaseBoundary s = .next t ∧ t.isActive = false ∧ t.pry.relAt = none ∧ t.pairState = pairPaired
        ∧ (s.mode = modeService → t.mode = modeShadow)) ∧
    (s.pairState = pairPaired → s.isActive = false → s.pry.takeAt = some s.gridSfc → s.mode = modeShadow →
      ∃ t, exec .releaseBoundary s = .next t ∧ t.isActive = true ∧ t.pry.takeAt = none ∧ t.pairState = pairPaired
        ∧ t.mode = modeService) ∧
    (s.blockGated 15 = false → s.pairState = pairPaired → ∃ t, exec .twinDetach s = .next t ∧ t.pairState = pairSolo ∧ t.mode = s.mode
      ∧ t.vtg = s.vtg) ∧
    (s.mirrors = false → exec .twinResync s = .next s) ∧
    (s.blockGated 15 = false → s.mirrors = true → ∃ t, exec .twinResync s = .next t ∧ t.vtg = s.vtg ∧ t.cip = s.cip ∧ t.pairState = s.pairState
      ∧ (s.linked 0 = true → (∀ e, e ∈ (s.port 0).wait → e.1.cls ≠ 1) → (s.queue 34).fresh →
          ∃ ws n, (t.port 0).wait = (s.port 0).wait ++ [(⟨1, 0, 0, s.rd F.PRY_DOM_STAT_dom, ws⟩, n)]
            ∧ ws.getD 1 0 = s.pry.mirSeq % 2 ^ 24)) ∧
    (s.pairState = pairJoining → s.isActive = true →
      ∃ t, exec .joinTimeout s = .next t ∧ t.pairState = pairSolo ∧ t.queue 34 = Queue.empty ∧ t.vtg = s.vtg) ∧
    (∀ m rest, takeMsg (fun m => decide (m.cls = 0 ∧ m.kind = 3)) (s.port 0).inbox = some (m, rest) →
      (m.words.getD 0 0 = 3 → s.pry.relAt = some (m.words.getD 1 0) →
        ∃ t, exec .pair s = .next t ∧ t.pry.relAck = true ∧ ({ t with pry := s.pry } : State) = s) ∧
      (m.words.getD 0 0 = 2 → s.pairState = pairPaired → s.isActive = false →
        ∃ t, exec .pair s = .next t ∧ t.pry.takeAt = some (m.words.getD 1 0) ∧ t.vtg = s.vtg) ∧
      (m.words.getD 0 0 = 5 → s.pairState = pairPaired →
        ∃ t, exec .pair s = .next t ∧ t.pairState = pairSolo ∧ t.vtg = s.vtg)) ∧
    (∀ m rest, takeMsg (fun m => decide (m.cls = 1)) (s.port 0).inbox = some (m, rest) → s.mirrored = true →
      m.words.getD 0 0 / 2 ^ 16 % 256 = 7 →
      ∃ t, exec .mirror s = .next t ∧ t.pry.mirRx = some ((m.words.getD 1 0 + 1) % 2 ^ 24)
        ∧ t.pry.peerCnt = mirCounts (if (m.words.drop 2).getD 0 0 = 1 then [] else s.pry.peerCnt) ((m.words.drop 2).drop 1)
        ∧ (s.pry.mirRx ≠ none → s.pry.mirRx ≠ some (m.words.getD 1 0) →
            t.rd F.PRY_TWIN_STAT_mirror_ok = 0 ∧ t.rd F.PRY_TWIN_STAT_ready = 0)
        ∧ t.vtg = s.vtg)

/-- R485 to R489: domain numbers, manager heartbeats, and the loss of the manager. The words of DOMAIN messages are
the model's (log 40). -/
def Obligations.DomainTree : Prop :=
  ∀ s : State,
    (∀ m rest, takeMsg (fun m => decide (m.cls = 0 ∧ m.kind = 4)) (s.port 1).inbox = some (m, rest) →
      m.words.getD 0 0 = 2 → m.words.getD 1 0 = s.ownSerial →
      ∃ t, exec (.domain 1) s = .next t ∧ t.rd F.PRY_DOM_STAT_dom = m.words.getD 2 0 % 64 ∧ (t.port 1).inbox = rest
        ∧ (s.domRole ≠ 2 → RegsExcept s t [(F.PRY_DOM_STAT_dom, [])])) ∧
    (s.domRole = 2 → s.mirrored = false →
      ∃ t, exec .managerHeartbeatSend s = .next t ∧ t.pry.beats = s.pry.beats + 1
        ∧ (∀ p, p ∈ dnPorts → s.linked p = true → (t.port p).wait.length = (s.port p).wait.length + 2)
        ∧ ({ t with pry := s.pry } : State) = s) ∧
    (∀ (p : Fin 6) m rest, takeMsg (fun m => decide (m.cls = 0 ∧ m.kind = 4)) (s.port p).inbox = some (m, rest) →
      s.domRole = 2 → m.words.getD 0 0 = 1 →
      (∀ d, s.numberFor (m.words.getD 1 0) = some d →
        ∃ t, exec (.domain p) s = .next t ∧ t.rd F.PRY_DOM_NODE_present [d] = 1
          ∧ t.rd F.PRY_DOM_SER_serial [d] = m.words.getD 1 0 % 2 ^ 24 ∧ t.vtg = s.vtg) ∧
      (s.numberFor (m.words.getD 1 0) = none →
        ∃ t, exec (.domain p) s = .next t ∧ t.rd F.PRY_DOM_STAT_full = 1 ∧ t.pends 0x47 = true ∧ t.vtg = s.vtg)) ∧
    (s.domRole = 1 → s.pry.orphan = false →
      ∃ t, exec .managerLoss s = .next t ∧ t.pry.orphan = true ∧ t.rd F.PRY_DOM_STAT_mgr_ok = 0
        ∧ t.rd F.PRY_DOM_STAT_mgr_lost = 1 ∧ t.pends 0x46 = true) ∧
    (s.domRole = 1 → s.pry.orphan = false → s.vtState = vtHeld → s.bit F.VTG_STAT_domain = true → s.vtg.commit ≠ none →
      ∃ t, exec .managerLoss s = .next t ∧ t.vtg.commit = none ∧ t.pends 0x0C = true) ∧
    (∀ (p : Fin 6) m rest, takeMsg (fun m => decide (m.cls = 4)) (s.port p).inbox = some (m, rest) →
      (s.domRole = 2 → m.kind = 0 →
        exec (.event p) s = .next ((s.setPort p { s.port p with inbox := rest }).pushAll 33 ([m.src * 2 ^ 18 + 2 ^ 17 + 4,
          m.words.getD 0 0 % 2 ^ 8, m.words.getD 1 0, m.words.getD 2 0].map (BitVec.ofNat 24)))) ∧
      (s.domRole = 2 → m.kind ≠ 0 →
        exec (.event p) s = .next ((s.setPort p { s.port p with inbox := rest }).pushAll 33 (m.words.map (BitVec.ofNat 24)))) ∧
      (s.domRole ≠ 2 → s.linked 1 = true → ∃ t, exec (.event p) s = .next t
        ∧ (t.port 1).wait = (s.port 1).wait ++ [(m, pryFrames m)] ∧ ({ t with pry := s.pry } : State) = s) ∧
      (s.domRole ≠ 2 → s.linked 1 = false → ∃ t, exec (.event p) s = .next t
        ∧ tabGet 0 t.counters (pryCnt 1 4) = (tabGet 0 s.counters (pryCnt 1 4) + 1) % 2 ^ 48 ∧ t.regs = s.regs))

/-- R495 to R507, R510: the monitor's sequences, accumulators, injections, calibrations and synchronisation. -/
def Obligations.MonitorSampling : Prop :=
  ∀ s : State,
    (s.blockGated 14 = true → ∀ c q, c ∈ [Instr.monSeqGo, .monSeqStop, .accSnap, .injectionTrigger q, .fgCalStart, .syncGo] →
      exec c s = .next s) ∧
    (s.blockGated 14 = false → exec .monSeqGo s = .next { s with mon := { s.mon with start := true } }) ∧
    (s.blockGated 14 = false → ∃ t, exec .monSeqStop s = .next t ∧ t.bit F.MON_SEQ_CTL_running = false ∧ t.mon.start = false
      ∧ RegsExcept s t [(F.MON_SEQ_CTL_running, [])]) ∧
    (s.blockGated 14 = false → ∃ t, exec .accSnap s = .next t ∧ t.mon.bank = s.mon.live
      ∧ t.mon.live = (if s.bit F.MON_ACC_CMD_clr then [] else s.mon.live) ∧ t.pends 0x48 = true ∧ RegsExceptE s t []) ∧
    (∀ q : Fin 16, s.blockGated 14 = false → (s.rd F.MON_INJ_CFG_trig [q] = 0 ∨ s.rd F.MON_INJ_CFG_trig [q] = 3) →
      ((s.inj q).trig = none → ∃ t, exec (.injectionTrigger q) s = .next t ∧ (t.inj q).trig = some s.time
        ∧ (t.inj q).held = decide (s.mon.fg / 2 ^ s.injConv q % 2 = 1) ∧ t.rd F.MON_INJ_STAT_status [q] = 0
        ∧ RegsExcept s t [(F.MON_INJ_STAT_status, [q])]) ∧
      ((s.inj q).trig ≠ none → ∃ t, exec (.injectionTrigger q) s = .next t
        ∧ t.rd F.MON_INJ_STAT_merged [q] = min 255 (s.rd F.MON_INJ_STAT_merged [q] + 1) ∧ t.noRegs = s.noRegs
        ∧ RegsExcept s t [(F.MON_INJ_STAT_merged, [q])])) ∧
    (∀ q : Fin 16, (s.inj q).done = true →
      ∃ t, exec (.injectionDone q) s = .next t ∧ t.rd F.MON_INJ_STAT_status [q] = (if (s.inj q).held then 2 else 1)
        ∧ tabGet Acc.zero t.mon.injRes q = (s.inj q).acc ∧ t.inj q = Inj.fresh ∧ t.pends 0x49 = true) ∧
    (∀ (q : Fin 16) t0, (s.inj q).trig = some t0 → (s.inj q).held = true → (s.inj q).began = none →
      1000 * max 1 (s.rd F.MON_INJ_CFG_dl [q]) < (s.time - t0).toNat →
      ∃ t, exec (.injectionMissed q) s = .next t ∧ t.rd F.MON_INJ_STAT_status [q] = 3 ∧ t.inj q = Inj.fresh
        ∧ RegsExcept s t [(F.MON_INJ_STAT_status, [q])]) ∧
    (s.mon.bgStage = 1 → exec .bgCalTurn s = .next { s with mon := { s.mon with bgStage := 2 } }) ∧
    (s.mon.bgStage = 2 → s.bit F.MON_CAL_CFG_bg_en = true → s.mon.bgNext < 16 →
      ∃ t, exec .bgCalTurn s = .next t ∧ t.mon.bgStage = 1 ∧ t.rd F.MON_CAL_CFG_bg_pos = s.mon.bgNext
        ∧ t.mon.bgNext = (s.mon.bgNext + 1) % 16 ∧ RegsExcept s t [(F.MON_CAL_CFG_bg_pos, [])]) ∧
    (s.blockGated 14 = false → s.bit F.MON_CAL_CMD_busy = false → s.injBusy (s.rd F.MON_CAL_CMD_mask) = false →
      ∃ t, exec .fgCalStart s = .next t ∧ t.bit F.MON_CAL_CMD_busy = true ∧ t.mon.fg = s.rd F.MON_CAL_CMD_mask
        ∧ t.mon.fgWait = none ∧ RegsExcept s t [(F.MON_CAL_CMD_busy, []), (F.MON_CAL_CFG_bg_pos, [])]) ∧
    (s.blockGated 14 = false → s.bit F.MON_CAL_CMD_busy = true → ∃ t, exec .fgCalStart s = .next t
      ∧ t.mon.fgHeld = some (s.rd F.MON_CAL_CMD_mask ||| s.mon.fgHeld.getD 0) ∧ t.regs = s.regs) ∧
    (s.bit F.MON_CAL_CMD_busy = true → s.mon.fgWait = none → s.mon.fgHeld = none →
      ∃ t, exec .fgCalEnd s = .next t ∧ t.bit F.MON_CAL_CMD_busy = false ∧ t.mon.fg = 0
        ∧ RegsExcept s t [(F.MON_CAL_CMD_busy, [])]) ∧
    (exec .msyncFall s = .next { s with mon := { s.mon with msyncAt := some s.time } }) ∧
    (s.blockGated 14 = false → ∃ t, exec .syncGo s = .next t ∧ t.mon.msyncAt = some s.time ∧ t.mon.msync = s.mon.msync + 1
      ∧ ({ t with mon := s.mon } : State) = s) ∧
    (∀ codes, ∃ t, exec (.conversionClockEdge codes) s = .next t ∧ t.mon.edges = s.mon.edges + 1
      ∧ (s.mon.start = true → t.bit F.MON_SEQ_CTL_running = true ∧ t.mon.start = false)) ∧
    (∀ (codes : List Int) (a : Fin 16) n pos, s.mon.start = false → s.mon.msyncAt = none → s.mon.fg = 0 → s.mon.fgWait = none →
      s.mon.prv = [] → (∀ q, q < 16 → (s.inj q).trig = none) → (∀ c, c < 64 → s.rd F.MON_DC_CFG_src [c] ≠ 0) →
      s.nextInput a = some (n, pos) → tabGet 0 s.mon.dirty a.val = 0 → s.tdacDirty n = false → s.onTestDac n = false →
      -8192 ≤ codes.getD a 0 → codes.getD a 0 ≤ 8191 →
      ∃ t, exec (.conversionClockEdge codes) s = .next t ∧ (t.liveAcc n).sum = (satSum (s.liveAcc n).sum (codes.getD a 0)).1
        ∧ (t.liveAcc n).count = min (2 ^ 24 - 1) ((s.liveAcc n).count + 1))

/-- R511, R514, R517: responses of the decimation chains, counter windows, snapshots and the live counter. -/
def Obligations.MonitorCounters : Prop :=
  ∀ s : State,
    (s.blockGated 14 = true → ∀ c r fade v, exec (.dcRespRequest c r fade) s = .next s ∧ exec (.counterSelect v) s = .next s) ∧
    (∀ (c : Fin 64) (r : Fin 32) (fade : BitVec 10), s.blockGated 14 = false →
      (s.bit F.MON_DC_STAT_fading [c] = false → r.val ≠ s.rd F.MON_DC_STAT_r_now [c] →
        ∃ t, exec (.dcRespRequest c r fade) s = .next t ∧ t.rd F.MON_DC_STAT_r_now [c] = r.val
          ∧ t.bit F.MON_DC_STAT_fading [c] = true ∧ (t.dc c).fadeLen = min 1024 (max 16 fade.toNat)
          ∧ (t.dc c).fadeOld = s.rd F.MON_DC_STAT_r_now [c]
          ∧ RegsExcept s t [(F.MON_DC_RESP_r, [c]), (F.MON_DC_RESP_fade, [c]), (F.MON_DC_STAT_r_now, [c]),
              (F.MON_DC_STAT_fading, [c])]) ∧
      (s.bit F.MON_DC_STAT_fading [c] = true →
        ∃ t, exec (.dcRespRequest c r fade) s = .next t ∧ t.rd F.MON_DC_STAT_held [c] = 1
          ∧ (t.dc c).request = some (r.val, min 1024 (max 16 fade.toNat))
          ∧ RegsExcept s t [(F.MON_DC_RESP_r, [c]), (F.MON_DC_RESP_fade, [c]), (F.MON_DC_STAT_held, [c])])) ∧
    (∀ c : Fin 64, s.bit F.MON_DC_STAT_fading [c] = true → (s.dc c).fadeNow = (s.dc c).fadeLen → (s.dc c).request = none →
      ∃ t, exec (.dcFadeEnd c) s = .next t ∧ t.bit F.MON_DC_STAT_fading [c] = false
        ∧ RegsExcept s t [(F.MON_DC_STAT_fading, [c]), (F.MON_DC_STAT_held, [c])]) ∧
    (s.bit F.MON_CNT_CFG_en = true → s.bit F.MON_CNT_CFG_tmr_en = false → s.bit F.MON_ACC_CMD_auto = false →
      exec .counterWindowBoundary s = .next { s with mon := { s.mon with latch := some s.counters } }) ∧
    (∀ new, s.mon.latch = some new →
      ∃ t, exec .monSnap s = .next t ∧ t.mon.snap = new ∧ t.mon.latch = none
        ∧ t.rd F.MON_SNAP_STAT_seq = (s.rd F.MON_SNAP_STAT_seq + 1) % 2 ^ 24 ∧ t.pends 0x4A = true ∧ t.vtg = s.vtg) ∧
    (∀ v : Word, s.blockGated 14 = false → ∃ t, exec (.counterSelect v) s = .next t ∧ t.rd F.MON_CNT_SEL_value = v.toNat
      ∧ t.rd F.MON_CNT_LIVE_H_value = bankAt s.counters (v.toNat % 2 ^ 14) / 2 ^ 24 % 2 ^ 24
      ∧ t.rd F.MON_CNT_LIVE_L_value = bankAt s.counters (v.toNat % 2 ^ 14) % 2 ^ 24 ∧ t.noRegs = s.noRegs
      ∧ RegsExcept s t [(F.MON_CNT_SEL_value, []), (F.MON_CNT_LIVE_H_value, []), (F.MON_CNT_LIVE_L_value, [])])

/-- R518, R519, R521, R522, R552 to R557: sentinel passes, ageing records, the core voltage, the cask window, OTP
and the front-end SPI masters. -/
def Obligations.AgeingAndPackage : Prop :=
  ∀ s : State,
    (s.mode ≠ modeDormant → s.mon.agePass = false →
      exec .sentinelPassStart s = .next { s with mon := { s.mon with agePass := true, ageDue := false } }) ∧
    (∀ sites eyes, s.mon.agePass = true →
      ∃ t, exec (.sentinelPassEnd sites eyes) s = .next t ∧ t.mon.agePass = false ∧ t.pends 0x4C = true
        ∧ (∀ k : Fin 96, (sites.getD k none = none ∨ s.siteGated k = true) → t.rd F.MON_AGE_SITE_stale [k] = 1
            ∧ t.rd F.MON_AGE_SITE_shift [k] = s.rd F.MON_AGE_SITE_shift [k])
        ∧ (∀ (k : Fin 96) (prot stress : Nat) (ppm : Int), sites.getD k none = some (prot, stress) → s.siteGated k = false →
            stress ≠ 0 → ((prot : Int) - stress) * 10 ^ 7 = ppm * stress →
            -(2 ^ 22) ≤ ppm - (Config.siteBaseline k).toInt → ppm - (Config.siteBaseline k).toInt < 2 ^ 22 →
            t.rd F.MON_AGE_SITE_shift [k] = ofSigned 23 (ppm - (Config.siteBaseline k).toInt)
              ∧ t.rd F.MON_AGE_SITE_stale [k] = 0)) ∧
    (∀ hours ok, s.claimed 0x1F = false → s.mon.recSlot % 64 ≠ 0 →
      let body := s.ageBody (s.mon.hours + hours)
      ∃ t, exec (.ageingRecordWrite hours true ok) s = .next t
        ∧ t.cask = (s.caskProgram (s.areaStart 2 + s.mon.recSlot / 64 * 4096 + s.mon.recSlot % 64 * 64)
            (body ++ fcsBytes (crc32 body))).cask
        ∧ t.mon.recNext = (s.mon.recNext + 1) % 2 ^ 24 ∧ t.mon.recSlot = (s.mon.recSlot + 1) % 4096
        ∧ t.mon.hours = s.mon.hours + hours ∧ t.regs = s.regs) ∧
    (∀ hours ok1 ok2, s.claimed 0x1F = true → exec (.ageingRecordWrite hours ok1 ok2) s = .next s) ∧
    (∀ mv, s.mon.vddDue = some mv → s.claimed 0x1E = false →
      (∃ t, exec (.avsVout true) s = .next t ∧ t.mon.vddSent = mv ∧ t.mon.vddDue = none ∧ ({ t with mon := s.mon } : State) = s) ∧
      (s.mon.vddTry < 7 → ∃ t, exec (.avsVout false) s = .next t ∧ t.mon.vddTry = s.mon.vddTry + 1 ∧ t.mon.vddDue = some mv
        ∧ ({ t with mon := s.mon } : State) = s) ∧
      (7 ≤ s.mon.vddTry → ∃ t, exec (.avsVout false) s = .next t ∧ t.rd F.MON_AGE_STAT2_avs_fail = 1
        ∧ t.mon.vddDue = none ∧ t.mon.vddSent = s.mon.vddSent ∧ t.pends 0x4D = true
        ∧ RegsExceptE s t [(F.MON_AGE_STAT2_avs_fail, [])])) ∧
    (∀ c k, (c, k) ∈ [(Instr.caskWinRead, 0), (.caskWinProgram, 1), (.caskWinErase, 2)] →
      (s.winBad k s.winAddr = false → s.deviceCask = false → s.bit F.GLB_CASK_WIN_CMD_busy = false →
        ∃ t, exec c s = .next t ∧ t.bit F.GLB_CASK_WIN_CMD_busy = true
          ∧ t.ctl.caskOp = some (k, s.winAddr, s.rd F.GLB_CASK_WIN_DATA_data) ∧ t.cask = s.cask
          ∧ RegsExcept s t [(F.GLB_CASK_WIN_CMD_op, []), (F.GLB_CASK_WIN_CMD_busy, [])]) ∧
      ((s.winBad k s.winAddr = true ∨ s.deviceCask = true ∨ s.bit F.GLB_CASK_WIN_CMD_busy = true) →
        ∃ t, exec c s = .next t ∧ t.rd F.GLB_CASK_WIN_CMD_refused = 1 ∧ t.noRegs = s.noRegs
          ∧ RegsExcept s t [(F.GLB_CASK_WIN_CMD_op, []), (F.GLB_CASK_WIN_CMD_refused, [])])) ∧
    (∀ a d, (s.ctl.caskOp = some (0, a, d) → ∃ t, exec (.caskWinDone false) s = .next t
        ∧ t.rd F.GLB_CASK_WIN_DATA_data = s.caskWord a % 2 ^ 24 ∧ t.bit F.GLB_CASK_WIN_CMD_busy = false
        ∧ t.rd F.GLB_CASK_WIN_ADDR_addr = (a + 3) % 2 ^ 24 ∧ t.cask = s.cask ∧ t.ctl.caskOp = none) ∧
      (s.ctl.caskOp = some (1, a, d) → ∃ t, exec (.caskWinDone false) s = .next t
        ∧ t.cask = (s.caskProgram a (word3 d)).cask ∧ t.bit F.GLB_CASK_WIN_CMD_busy = false
        ∧ t.rd F.GLB_CASK_WIN_ADDR_addr = (a + 3) % 2 ^ 24) ∧
      (s.ctl.caskOp = some (2, a, d) → ∃ t, exec (.caskWinDone false) s = .next t
        ∧ t.cask = (s.caskErase (a / 4096 * 4096)).cask ∧ t.bit F.GLB_CASK_WIN_CMD_busy = false)) ∧
    (∀ (i : Fin 8) c r, (c, r) ∈ [(Instr.fesWrite i, false), (.fesRead i, true)] →
      (s.bit F.GLB_FES_CMD_busy [i] = true → ∃ t, exec c s = .next t ∧ t.rd F.GLB_FES_CMD_refused [i] = 1
        ∧ t.noRegs = s.noRegs) ∧
      (s.bit F.GLB_FES_CMD_busy [i] = false → ∃ t, exec c s = .next t ∧ t.bit F.GLB_FES_CMD_busy [i] = true
        ∧ tabGet none t.ctl.fesRun i = some (r, s.rd F.GLB_FES_CMD_cs [i], s.rd F.GLB_FES_ADDR_addr [i], s.rd F.GLB_FES_DATA_data [i])
        ∧ tabGet [] t.ctl.fesOut i = fesFrame r (s.rd F.GLB_FES_ADDR_addr [i]) (s.rd F.GLB_FES_DATA_data [i])
        ∧ RegsExcept s t [(F.GLB_FES_CMD_op, [i]), (F.GLB_FES_CMD_busy, [i])])) ∧
    (∀ (i : Fin 8) x r, tabGet none s.ctl.fesRun i = some (true, x) → fesGood true r = true →
      ∃ t, exec (.fesFrameDone i [r]) s = .next t ∧ t.bit F.GLB_FES_CMD_busy [i] = false
        ∧ t.rd F.GLB_FES_DATA_data [i] = r.1.toNat ∧ tabGet none t.ctl.fesRun i = none
        ∧ RegsExcept s t [(F.GLB_FES_CMD_busy, [i]), (F.GLB_FES_DATA_data, [i])]) ∧
    (∀ value vpp tck, (vpp = true → tck = true → s.mode = modeDormant → s.ctl.otpOwner = none →
        exec (.otpProg 2 value vpp tck) s = .next { s with ctl := { s.ctl with otpOwner := some value } }) ∧
      ((vpp = false ∨ tck = false ∨ s.mode ≠ modeDormant ∨ s.ctl.otpOwner ≠ none) →
        exec (.otpProg 2 value vpp tck) s = .next { s with ctl := { s.ctl with otpRefused := true } }))
end

