-- ==== Sys2Proof/Laws/Tab.lean ====
section
/-!
SUPPORT. What the operations over sparse tables do: reads after writes, and the canonical form.
-/

namespace Sys2Proof.Machine

variable {α : Type}

theorem tabGet_erase_self (d : α) (t : Tab α) (n : Nat) : tabGet d (tabErase t n) n = d := by
  induction t with
  | nil => rfl
  | cons e t ih =>
    obtain ⟨k, v⟩ := e
    by_cases h : k = n <;> simp [tabErase, tabGet, h, ih]

theorem tabGet_erase_ne (d : α) (t : Tab α) {n m : Nat} (h : m ≠ n) : tabGet d (tabErase t n) m = tabGet d t m := by
  induction t with
  | nil => rfl
  | cons e t ih =>
    obtain ⟨k, v⟩ := e
    by_cases hk : k = n
    · subst hk; simp [tabErase, tabGet, ih, Ne.symm h]
    · by_cases hm : k = m
      · subst hm; simp [tabErase, tabGet, hk]
      · simp [tabErase, tabGet, hk, hm, ih]

theorem tabGet_ins_self (d : α) (t : Tab α) (n : Nat) (v : α) : tabGet d (tabIns t n v) n = v := by
  induction t with
  | nil => simp [tabIns, tabGet]
  | cons e t ih =>
    obtain ⟨k, w⟩ := e
    by_cases hk : n = k
    · simp [tabIns, tabGet, hk]
    · by_cases hl : n < k <;> simp [tabIns, tabGet, hk, hl, ih, Ne.symm hk]

theorem tabGet_ins_ne (d : α) (t : Tab α) {n m : Nat} (v : α) (h : m ≠ n) :
    tabGet d (tabIns t n v) m = tabGet d t m := by
  induction t with
  | nil => simp [tabIns, tabGet, Ne.symm h]
  | cons e t ih =>
    obtain ⟨k, w⟩ := e
    by_cases hk : n = k
    · subst hk; simp [tabIns, tabGet, Ne.symm h]
    · by_cases hl : n < k
      · simp [tabIns, tabGet, hk, hl, Ne.symm h]
      · by_cases hm : k = m
        · subst hm; simp [tabIns, tabGet, hk, hl]
        · simp [tabIns, tabGet, hk, hl, hm, ih]

variable [DecidableEq α]

/-- A read after a write to the same index gives the value written. -/
@[simp] theorem tabGet_put_self (d : α) (t : Tab α) (n : Nat) (v : α) : tabGet d (tabPut d t n v) n = v := by
  by_cases h : v = d
  · simp [tabPut, h, tabGet_erase_self]
  · simp [tabPut, h, tabGet_ins_self]

/-- A write leaves every other index alone, whatever each index reads as when it is unlisted. -/
theorem tabGet_put_ne (d d' : α) (t : Tab α) {n m : Nat} (v : α) (h : m ≠ n) :
    tabGet d' (tabPut d t n v) m = tabGet d' t m := by
  by_cases hv : v = d
  · simp [tabPut, hv, tabGet_erase_ne d' t h]
  · simp [tabPut, hv, tabGet_ins_ne d' t v h]

theorem tabWfFrom_mono (d : α) {lo lo' : Nat} (t : Tab α) (h : lo' ≤ lo) (w : tabWfFrom d lo t = true) :
    tabWfFrom d lo' t = true := by
  cases t with
  | nil => rfl
  | cons e t =>
    obtain ⟨k, v⟩ := e
    simp only [tabWfFrom, Bool.and_eq_true, decide_eq_true_eq] at w ⊢
    exact ⟨⟨Nat.le_trans h w.1.1, w.1.2⟩, w.2⟩

theorem tabWfFrom_erase (d : α) (t : Tab α) (lo n : Nat) (w : tabWfFrom d lo t = true) :
    tabWfFrom d lo (tabErase t n) = true := by
  induction t generalizing lo with
  | nil => rfl
  | cons e t ih =>
    obtain ⟨k, v⟩ := e
    simp only [tabWfFrom, Bool.and_eq_true, decide_eq_true_eq] at w
    by_cases h : k = n
    · simp only [tabErase, h, if_true]
      exact tabWfFrom_mono d _ (by omega) (ih _ w.2)
    · simp only [tabErase, h, if_false, tabWfFrom, Bool.and_eq_true, decide_eq_true_eq]
      exact ⟨w.1, ih _ w.2⟩

theorem tabWfFrom_ins (d : α) (t : Tab α) (lo n : Nat) (v : α) (hn : lo ≤ n) (hv : v ≠ d)
    (w : tabWfFrom d lo t = true) : tabWfFrom d lo (tabIns t n v) = true := by
  induction t generalizing lo with
  | nil => simp [tabIns, tabWfFrom, hn, hv]
  | cons e t ih =>
    obtain ⟨k, x⟩ := e
    simp only [tabWfFrom, Bool.and_eq_true, decide_eq_true_eq] at w
    by_cases hk : n = k
    · subst hk
      simp [tabIns, tabWfFrom, hn, hv, w.2]
    · by_cases hl : n < k
      · simp only [tabIns, hk, hl, if_true, if_false, tabWfFrom, Bool.and_eq_true, decide_eq_true_eq]
        exact ⟨⟨hn, hv⟩, ⟨⟨by omega, w.1.2⟩, w.2⟩⟩
      · simp only [tabIns, hk, hl, if_false, tabWfFrom, Bool.and_eq_true, decide_eq_true_eq]
        exact ⟨w.1, ih _ (by omega) w.2⟩

/-- A write keeps the canonical form. -/
theorem tabWf_put (d : α) (t : Tab α) (n : Nat) (v : α) (w : tabWf d t = true) : tabWf d (tabPut d t n v) = true := by
  by_cases h : v = d
  · simp [tabWf, tabPut, h, tabWfFrom_erase d t 0 n w]
  · simp [tabWf, tabPut, h, tabWfFrom_ins d t 0 n v (Nat.zero_le n) h w]

end Sys2Proof.Machine
end

