-- ==== Sys2Proof/Laws/State.lean ====
section
/-!
SUPPORT. One lemma per update of the state and field of State that it leaves alone, and the read after a write of each record
that the state holds.
-/

namespace Sys2Proof.Machine

/-! ### Register fields -/

/-- A field reads what was written, reduced to its width. -/
@[simp] theorem State.rd_wr_self (s : State) (f : Fld) (v : Nat) (is : List Nat) :
    (s.wr f v is).rd f is = v % 2 ^ fldWidth f := by
  simp [State.rd, State.wr]

/-- A field with another key keeps its value. -/
theorem State.rd_wr_ne (s : State) (f g : Fld) (v : Nat) (is js : List Nat) (h : fldKey g js ≠ fldKey f is) :
    (s.wr f v is).rd g js = s.rd g js := by
  simp only [State.rd, State.wr]
  exact tabGet_put_ne _ _ _ _ h

/-- V-class values in force do not change with the register file. -/
@[simp] theorem State.cur_wr (s : State) (f g : Fld) (v : Nat) (is js : List Nat) : (s.wr f v is).cur g js = s.cur g js := rfl

/-! ### wr -/

@[simp] theorem State.wr_pending (s : State) (f : Fld) (v : Nat) (is : List Nat) : (s.wr f v is).pending = s.pending := rfl
@[simp] theorem State.wr_counters (s : State) (f : Fld) (v : Nat) (is : List Nat) : (s.wr f v is).counters = s.counters := rfl
@[simp] theorem State.wr_ctl (s : State) (f : Fld) (v : Nat) (is : List Nat) : (s.wr f v is).ctl = s.ctl := rfl
@[simp] theorem State.wr_exec (s : State) (f : Fld) (v : Nat) (is : List Nat) : (s.wr f v is).exec = s.exec := rfl
@[simp] theorem State.wr_seqs (s : State) (f : Fld) (v : Nat) (is : List Nat) : (s.wr f v is).seqs = s.seqs := rfl
@[simp] theorem State.wr_queues (s : State) (f : Fld) (v : Nat) (is : List Nat) : (s.wr f v is).queues = s.queues := rfl
@[simp] theorem State.wr_vtg (s : State) (f : Fld) (v : Nat) (is : List Nat) : (s.wr f v is).vtg = s.vtg := rfl
@[simp] theorem State.wr_hif (s : State) (f : Fld) (v : Nat) (is : List Nat) : (s.wr f v is).hif = s.hif := rfl
@[simp] theorem State.wr_tim (s : State) (f : Fld) (v : Nat) (is : List Nat) : (s.wr f v is).tim = s.tim := rfl
@[simp] theorem State.wr_conv (s : State) (f : Fld) (v : Nat) (is : List Nat) : (s.wr f v is).conv = s.conv := rfl
@[simp] theorem State.wr_calEng (s : State) (f : Fld) (v : Nat) (is : List Nat) : (s.wr f v is).calEng = s.calEng := rfl
@[simp] theorem State.wr_capture (s : State) (f : Fld) (v : Nat) (is : List Nat) : (s.wr f v is).capture = s.capture := rfl
@[simp] theorem State.wr_rx (s : State) (f : Fld) (v : Nat) (is : List Nat) : (s.wr f v is).rx = s.rx := rfl
@[simp] theorem State.wr_tx (s : State) (f : Fld) (v : Nat) (is : List Nat) : (s.wr f v is).tx = s.tx := rfl
@[simp] theorem State.wr_pool (s : State) (f : Fld) (v : Nat) (is : List Nat) : (s.wr f v is).pool = s.pool := rfl
@[simp] theorem State.wr_align (s : State) (f : Fld) (v : Nat) (is : List Nat) : (s.wr f v is).align = s.align := rfl
@[simp] theorem State.wr_tdl (s : State) (f : Fld) (v : Nat) (is : List Nat) : (s.wr f v is).tdl = s.tdl := rfl
@[simp] theorem State.wr_lfr (s : State) (f : Fld) (v : Nat) (is : List Nat) : (s.wr f v is).lfr = s.lfr := rfl
@[simp] theorem State.wr_grid (s : State) (f : Fld) (v : Nat) (is : List Nat) : (s.wr f v is).grid = s.grid := rfl
@[simp] theorem State.wr_mems (s : State) (f : Fld) (v : Nat) (is : List Nat) : (s.wr f v is).mems = s.mems := rfl
@[simp] theorem State.wr_chans (s : State) (f : Fld) (v : Nat) (is : List Nat) : (s.wr f v is).chans = s.chans := rfl
@[simp] theorem State.wr_cip (s : State) (f : Fld) (v : Nat) (is : List Nat) : (s.wr f v is).cip = s.cip := rfl
@[simp] theorem State.wr_svcSol (s : State) (f : Fld) (v : Nat) (is : List Nat) : (s.wr f v is).svcSol = s.svcSol := rfl
@[simp] theorem State.wr_clients (s : State) (f : Fld) (v : Nat) (is : List Nat) : (s.wr f v is).clients = s.clients := rfl
@[simp] theorem State.wr_gfp (s : State) (f : Fld) (v : Nat) (is : List Nat) : (s.wr f v is).gfp = s.gfp := rfl
@[simp] theorem State.wr_lanes (s : State) (f : Fld) (v : Nat) (is : List Nat) : (s.wr f v is).lanes = s.lanes := rfl
@[simp] theorem State.wr_calendars (s : State) (f : Fld) (v : Nat) (is : List Nat) : (s.wr f v is).calendars = s.calendars := rfl
@[simp] theorem State.wr_cel (s : State) (f : Fld) (v : Nat) (is : List Nat) : (s.wr f v is).cel = s.cel := rfl
@[simp] theorem State.wr_pry (s : State) (f : Fld) (v : Nat) (is : List Nat) : (s.wr f v is).pry = s.pry := rfl
@[simp] theorem State.wr_mon (s : State) (f : Fld) (v : Nat) (is : List Nat) : (s.wr f v is).mon = s.mon := rfl
@[simp] theorem State.wr_cask (s : State) (f : Fld) (v : Nat) (is : List Nat) : (s.wr f v is).cask = s.cask := rfl
@[simp] theorem State.wr_free (s : State) (f : Fld) (v : Nat) (is : List Nat) : (s.wr f v is).free = s.free := rfl

/-! ### count -/

@[simp] theorem State.count_pending (s : State) (i n : Nat) : (s.count i n).pending = s.pending := rfl
@[simp] theorem State.count_regs (s : State) (i n : Nat) : (s.count i n).regs = s.regs := rfl
@[simp] theorem State.count_ctl (s : State) (i n : Nat) : (s.count i n).ctl = s.ctl := rfl
@[simp] theorem State.count_exec (s : State) (i n : Nat) : (s.count i n).exec = s.exec := rfl
@[simp] theorem State.count_seqs (s : State) (i n : Nat) : (s.count i n).seqs = s.seqs := rfl
@[simp] theorem State.count_queues (s : State) (i n : Nat) : (s.count i n).queues = s.queues := rfl
@[simp] theorem State.count_vtg (s : State) (i n : Nat) : (s.count i n).vtg = s.vtg := rfl
@[simp] theorem State.count_hif (s : State) (i n : Nat) : (s.count i n).hif = s.hif := rfl
@[simp] theorem State.count_tim (s : State) (i n : Nat) : (s.count i n).tim = s.tim := rfl
@[simp] theorem State.count_conv (s : State) (i n : Nat) : (s.count i n).conv = s.conv := rfl
@[simp] theorem State.count_calEng (s : State) (i n : Nat) : (s.count i n).calEng = s.calEng := rfl
@[simp] theorem State.count_capture (s : State) (i n : Nat) : (s.count i n).capture = s.capture := rfl
@[simp] theorem State.count_rx (s : State) (i n : Nat) : (s.count i n).rx = s.rx := rfl
@[simp] theorem State.count_tx (s : State) (i n : Nat) : (s.count i n).tx = s.tx := rfl
@[simp] theorem State.count_pool (s : State) (i n : Nat) : (s.count i n).pool = s.pool := rfl
@[simp] theorem State.count_align (s : State) (i n : Nat) : (s.count i n).align = s.align := rfl
@[simp] theorem State.count_tdl (s : State) (i n : Nat) : (s.count i n).tdl = s.tdl := rfl
@[simp] theorem State.count_lfr (s : State) (i n : Nat) : (s.count i n).lfr = s.lfr := rfl
@[simp] theorem State.count_grid (s : State) (i n : Nat) : (s.count i n).grid = s.grid := rfl
@[simp] theorem State.count_mems (s : State) (i n : Nat) : (s.count i n).mems = s.mems := rfl
@[simp] theorem State.count_chans (s : State) (i n : Nat) : (s.count i n).chans = s.chans := rfl
@[simp] theorem State.count_cip (s : State) (i n : Nat) : (s.count i n).cip = s.cip := rfl
@[simp] theorem State.count_svcSol (s : State) (i n : Nat) : (s.count i n).svcSol = s.svcSol := rfl
@[simp] theorem State.count_clients (s : State) (i n : Nat) : (s.count i n).clients = s.clients := rfl
@[simp] theorem State.count_gfp (s : State) (i n : Nat) : (s.count i n).gfp = s.gfp := rfl
@[simp] theorem State.count_lanes (s : State) (i n : Nat) : (s.count i n).lanes = s.lanes := rfl
@[simp] theorem State.count_calendars (s : State) (i n : Nat) : (s.count i n).calendars = s.calendars := rfl
@[simp] theorem State.count_cel (s : State) (i n : Nat) : (s.count i n).cel = s.cel := rfl
@[simp] theorem State.count_pry (s : State) (i n : Nat) : (s.count i n).pry = s.pry := rfl
@[simp] theorem State.count_mon (s : State) (i n : Nat) : (s.count i n).mon = s.mon := rfl
@[simp] theorem State.count_cask (s : State) (i n : Nat) : (s.count i n).cask = s.cask := rfl
@[simp] theorem State.count_free (s : State) (i n : Nat) : (s.count i n).free = s.free := rfl
@[simp] theorem State.count_rd (s : State) (i n : Nat) (f : Fld) (is : List Nat) : (s.count i n).rd f is = s.rd f is := rfl

/-! ### setSeq -/

@[simp] theorem State.setSeq_pending (s : State) (q : Nat) (x : Seq) : (s.setSeq q x).pending = s.pending := rfl
@[simp] theorem State.setSeq_regs (s : State) (q : Nat) (x : Seq) : (s.setSeq q x).regs = s.regs := rfl
@[simp] theorem State.setSeq_counters (s : State) (q : Nat) (x : Seq) : (s.setSeq q x).counters = s.counters := rfl
@[simp] theorem State.setSeq_ctl (s : State) (q : Nat) (x : Seq) : (s.setSeq q x).ctl = s.ctl := rfl
@[simp] theorem State.setSeq_exec (s : State) (q : Nat) (x : Seq) : (s.setSeq q x).exec = s.exec := rfl
@[simp] theorem State.setSeq_queues (s : State) (q : Nat) (x : Seq) : (s.setSeq q x).queues = s.queues := rfl
@[simp] theorem State.setSeq_vtg (s : State) (q : Nat) (x : Seq) : (s.setSeq q x).vtg = s.vtg := rfl
@[simp] theorem State.setSeq_hif (s : State) (q : Nat) (x : Seq) : (s.setSeq q x).hif = s.hif := rfl
@[simp] theorem State.setSeq_tim (s : State) (q : Nat) (x : Seq) : (s.setSeq q x).tim = s.tim := rfl
@[simp] theorem State.setSeq_conv (s : State) (q : Nat) (x : Seq) : (s.setSeq q x).conv = s.conv := rfl
@[simp] theorem State.setSeq_calEng (s : State) (q : Nat) (x : Seq) : (s.setSeq q x).calEng = s.calEng := rfl
@[simp] theorem State.setSeq_capture (s : State) (q : Nat) (x : Seq) : (s.setSeq q x).capture = s.capture := rfl
@[simp] theorem State.setSeq_rx (s : State) (q : Nat) (x : Seq) : (s.setSeq q x).rx = s.rx := rfl
@[simp] theorem State.setSeq_tx (s : State) (q : Nat) (x : Seq) : (s.setSeq q x).tx = s.tx := rfl
@[simp] theorem State.setSeq_pool (s : State) (q : Nat) (x : Seq) : (s.setSeq q x).pool = s.pool := rfl
@[simp] theorem State.setSeq_align (s : State) (q : Nat) (x : Seq) : (s.setSeq q x).align = s.align := rfl
@[simp] theorem State.setSeq_tdl (s : State) (q : Nat) (x : Seq) : (s.setSeq q x).tdl = s.tdl := rfl
@[simp] theorem State.setSeq_lfr (s : State) (q : Nat) (x : Seq) : (s.setSeq q x).lfr = s.lfr := rfl
@[simp] theorem State.setSeq_grid (s : State) (q : Nat) (x : Seq) : (s.setSeq q x).grid = s.grid := rfl
@[simp] theorem State.setSeq_mems (s : State) (q : Nat) (x : Seq) : (s.setSeq q x).mems = s.mems := rfl
@[simp] theorem State.setSeq_chans (s : State) (q : Nat) (x : Seq) : (s.setSeq q x).chans = s.chans := rfl
@[simp] theorem State.setSeq_cip (s : State) (q : Nat) (x : Seq) : (s.setSeq q x).cip = s.cip := rfl
@[simp] theorem State.setSeq_svcSol (s : State) (q : Nat) (x : Seq) : (s.setSeq q x).svcSol = s.svcSol := rfl
@[simp] theorem State.setSeq_clients (s : State) (q : Nat) (x : Seq) : (s.setSeq q x).clients = s.clients := rfl
@[simp] theorem State.setSeq_gfp (s : State) (q : Nat) (x : Seq) : (s.setSeq q x).gfp = s.gfp := rfl
@[simp] theorem State.setSeq_lanes (s : State) (q : Nat) (x : Seq) : (s.setSeq q x).lanes = s.lanes := rfl
@[simp] theorem State.setSeq_calendars (s : State) (q : Nat) (x : Seq) : (s.setSeq q x).calendars = s.calendars := rfl
@[simp] theorem State.setSeq_cel (s : State) (q : Nat) (x : Seq) : (s.setSeq q x).cel = s.cel := rfl
@[simp] theorem State.setSeq_pry (s : State) (q : Nat) (x : Seq) : (s.setSeq q x).pry = s.pry := rfl
@[simp] theorem State.setSeq_mon (s : State) (q : Nat) (x : Seq) : (s.setSeq q x).mon = s.mon := rfl
@[simp] theorem State.setSeq_cask (s : State) (q : Nat) (x : Seq) : (s.setSeq q x).cask = s.cask := rfl
@[simp] theorem State.setSeq_free (s : State) (q : Nat) (x : Seq) : (s.setSeq q x).free = s.free := rfl
@[simp] theorem State.setSeq_rd (s : State) (q : Nat) (x : Seq) (f : Fld) (is : List Nat) : (s.setSeq q x).rd f is = s.rd f is := rfl

/-! ### setQueue -/

@[simp] theorem State.setQueue_pending (s : State) (q : Nat) (x : Queue) : (s.setQueue q x).pending = s.pending := rfl
@[simp] theorem State.setQueue_regs (s : State) (q : Nat) (x : Queue) : (s.setQueue q x).regs = s.regs := rfl
@[simp] theorem State.setQueue_counters (s : State) (q : Nat) (x : Queue) : (s.setQueue q x).counters = s.counters := rfl
@[simp] theorem State.setQueue_ctl (s : State) (q : Nat) (x : Queue) : (s.setQueue q x).ctl = s.ctl := rfl
@[simp] theorem State.setQueue_exec (s : State) (q : Nat) (x : Queue) : (s.setQueue q x).exec = s.exec := rfl
@[simp] theorem State.setQueue_seqs (s : State) (q : Nat) (x : Queue) : (s.setQueue q x).seqs = s.seqs := rfl
@[simp] theorem State.setQueue_vtg (s : State) (q : Nat) (x : Queue) : (s.setQueue q x).vtg = s.vtg := rfl
@[simp] theorem State.setQueue_hif (s : State) (q : Nat) (x : Queue) : (s.setQueue q x).hif = s.hif := rfl
@[simp] theorem State.setQueue_tim (s : State) (q : Nat) (x : Queue) : (s.setQueue q x).tim = s.tim := rfl
@[simp] theorem State.setQueue_conv (s : State) (q : Nat) (x : Queue) : (s.setQueue q x).conv = s.conv := rfl
@[simp] theorem State.setQueue_calEng (s : State) (q : Nat) (x : Queue) : (s.setQueue q x).calEng = s.calEng := rfl
@[simp] theorem State.setQueue_capture (s : State) (q : Nat) (x : Queue) : (s.setQueue q x).capture = s.capture := rfl
@[simp] theorem State.setQueue_rx (s : State) (q : Nat) (x : Queue) : (s.setQueue q x).rx = s.rx := rfl
@[simp] theorem State.setQueue_tx (s : State) (q : Nat) (x : Queue) : (s.setQueue q x).tx = s.tx := rfl
@[simp] theorem State.setQueue_pool (s : State) (q : Nat) (x : Queue) : (s.setQueue q x).pool = s.pool := rfl
@[simp] theorem State.setQueue_align (s : State) (q : Nat) (x : Queue) : (s.setQueue q x).align = s.align := rfl
@[simp] theorem State.setQueue_tdl (s : State) (q : Nat) (x : Queue) : (s.setQueue q x).tdl = s.tdl := rfl
@[simp] theorem State.setQueue_lfr (s : State) (q : Nat) (x : Queue) : (s.setQueue q x).lfr = s.lfr := rfl
@[simp] theorem State.setQueue_grid (s : State) (q : Nat) (x : Queue) : (s.setQueue q x).grid = s.grid := rfl
@[simp] theorem State.setQueue_mems (s : State) (q : Nat) (x : Queue) : (s.setQueue q x).mems = s.mems := rfl
@[simp] theorem State.setQueue_chans (s : State) (q : Nat) (x : Queue) : (s.setQueue q x).chans = s.chans := rfl
@[simp] theorem State.setQueue_cip (s : State) (q : Nat) (x : Queue) : (s.setQueue q x).cip = s.cip := rfl
@[simp] theorem State.setQueue_svcSol (s : State) (q : Nat) (x : Queue) : (s.setQueue q x).svcSol = s.svcSol := rfl
@[simp] theorem State.setQueue_clients (s : State) (q : Nat) (x : Queue) : (s.setQueue q x).clients = s.clients := rfl
@[simp] theorem State.setQueue_gfp (s : State) (q : Nat) (x : Queue) : (s.setQueue q x).gfp = s.gfp := rfl
@[simp] theorem State.setQueue_lanes (s : State) (q : Nat) (x : Queue) : (s.setQueue q x).lanes = s.lanes := rfl
@[simp] theorem State.setQueue_calendars (s : State) (q : Nat) (x : Queue) : (s.setQueue q x).calendars = s.calendars := rfl
@[simp] theorem State.setQueue_cel (s : State) (q : Nat) (x : Queue) : (s.setQueue q x).cel = s.cel := rfl
@[simp] theorem State.setQueue_pry (s : State) (q : Nat) (x : Queue) : (s.setQueue q x).pry = s.pry := rfl
@[simp] theorem State.setQueue_mon (s : State) (q : Nat) (x : Queue) : (s.setQueue q x).mon = s.mon := rfl
@[simp] theorem State.setQueue_cask (s : State) (q : Nat) (x : Queue) : (s.setQueue q x).cask = s.cask := rfl
@[simp] theorem State.setQueue_free (s : State) (q : Nat) (x : Queue) : (s.setQueue q x).free = s.free := rfl
@[simp] theorem State.setQueue_rd (s : State) (q : Nat) (x : Queue) (f : Fld) (is : List Nat) : (s.setQueue q x).rd f is = s.rd f is := rfl

/-! ### setConv -/

@[simp] theorem State.setConv_pending (s : State) (i : Nat) (x : Conv) : (s.setConv i x).pending = s.pending := rfl
@[simp] theorem State.setConv_regs (s : State) (i : Nat) (x : Conv) : (s.setConv i x).regs = s.regs := rfl
@[simp] theorem State.setConv_counters (s : State) (i : Nat) (x : Conv) : (s.setConv i x).counters = s.counters := rfl
@[simp] theorem State.setConv_ctl (s : State) (i : Nat) (x : Conv) : (s.setConv i x).ctl = s.ctl := rfl
@[simp] theorem State.setConv_exec (s : State) (i : Nat) (x : Conv) : (s.setConv i x).exec = s.exec := rfl
@[simp] theorem State.setConv_seqs (s : State) (i : Nat) (x : Conv) : (s.setConv i x).seqs = s.seqs := rfl
@[simp] theorem State.setConv_queues (s : State) (i : Nat) (x : Conv) : (s.setConv i x).queues = s.queues := rfl
@[simp] theorem State.setConv_vtg (s : State) (i : Nat) (x : Conv) : (s.setConv i x).vtg = s.vtg := rfl
@[simp] theorem State.setConv_hif (s : State) (i : Nat) (x : Conv) : (s.setConv i x).hif = s.hif := rfl
@[simp] theorem State.setConv_tim (s : State) (i : Nat) (x : Conv) : (s.setConv i x).tim = s.tim := rfl
@[simp] theorem State.setConv_calEng (s : State) (i : Nat) (x : Conv) : (s.setConv i x).calEng = s.calEng := rfl
@[simp] theorem State.setConv_capture (s : State) (i : Nat) (x : Conv) : (s.setConv i x).capture = s.capture := rfl
@[simp] theorem State.setConv_rx (s : State) (i : Nat) (x : Conv) : (s.setConv i x).rx = s.rx := rfl
@[simp] theorem State.setConv_tx (s : State) (i : Nat) (x : Conv) : (s.setConv i x).tx = s.tx := rfl
@[simp] theorem State.setConv_pool (s : State) (i : Nat) (x : Conv) : (s.setConv i x).pool = s.pool := rfl
@[simp] theorem State.setConv_align (s : State) (i : Nat) (x : Conv) : (s.setConv i x).align = s.align := rfl
@[simp] theorem State.setConv_tdl (s : State) (i : Nat) (x : Conv) : (s.setConv i x).tdl = s.tdl := rfl
@[simp] theorem State.setConv_lfr (s : State) (i : Nat) (x : Conv) : (s.setConv i x).lfr = s.lfr := rfl
@[simp] theorem State.setConv_grid (s : State) (i : Nat) (x : Conv) : (s.setConv i x).grid = s.grid := rfl
@[simp] theorem State.setConv_mems (s : State) (i : Nat) (x : Conv) : (s.setConv i x).mems = s.mems := rfl
@[simp] theorem State.setConv_chans (s : State) (i : Nat) (x : Conv) : (s.setConv i x).chans = s.chans := rfl
@[simp] theorem State.setConv_cip (s : State) (i : Nat) (x : Conv) : (s.setConv i x).cip = s.cip := rfl
@[simp] theorem State.setConv_svcSol (s : State) (i : Nat) (x : Conv) : (s.setConv i x).svcSol = s.svcSol := rfl
@[simp] theorem State.setConv_clients (s : State) (i : Nat) (x : Conv) : (s.setConv i x).clients = s.clients := rfl
@[simp] theorem State.setConv_gfp (s : State) (i : Nat) (x : Conv) : (s.setConv i x).gfp = s.gfp := rfl
@[simp] theorem State.setConv_lanes (s : State) (i : Nat) (x : Conv) : (s.setConv i x).lanes = s.lanes := rfl
@[simp] theorem State.setConv_calendars (s : State) (i : Nat) (x : Conv) : (s.setConv i x).calendars = s.calendars := rfl
@[simp] theorem State.setConv_cel (s : State) (i : Nat) (x : Conv) : (s.setConv i x).cel = s.cel := rfl
@[simp] theorem State.setConv_pry (s : State) (i : Nat) (x : Conv) : (s.setConv i x).pry = s.pry := rfl
@[simp] theorem State.setConv_mon (s : State) (i : Nat) (x : Conv) : (s.setConv i x).mon = s.mon := rfl
@[simp] theorem State.setConv_cask (s : State) (i : Nat) (x : Conv) : (s.setConv i x).cask = s.cask := rfl
@[simp] theorem State.setConv_free (s : State) (i : Nat) (x : Conv) : (s.setConv i x).free = s.free := rfl
@[simp] theorem State.setConv_rd (s : State) (i : Nat) (x : Conv) (f : Fld) (is : List Nat) : (s.setConv i x).rd f is = s.rd f is := rfl

/-! ### setRx -/

@[simp] theorem State.setRx_pending (s : State) (i : Nat) (x : Rx) : (s.setRx i x).pending = s.pending := rfl
@[simp] theorem State.setRx_regs (s : State) (i : Nat) (x : Rx) : (s.setRx i x).regs = s.regs := rfl
@[simp] theorem State.setRx_counters (s : State) (i : Nat) (x : Rx) : (s.setRx i x).counters = s.counters := rfl
@[simp] theorem State.setRx_ctl (s : State) (i : Nat) (x : Rx) : (s.setRx i x).ctl = s.ctl := rfl
@[simp] theorem State.setRx_exec (s : State) (i : Nat) (x : Rx) : (s.setRx i x).exec = s.exec := rfl
@[simp] theorem State.setRx_seqs (s : State) (i : Nat) (x : Rx) : (s.setRx i x).seqs = s.seqs := rfl
@[simp] theorem State.setRx_queues (s : State) (i : Nat) (x : Rx) : (s.setRx i x).queues = s.queues := rfl
@[simp] theorem State.setRx_vtg (s : State) (i : Nat) (x : Rx) : (s.setRx i x).vtg = s.vtg := rfl
@[simp] theorem State.setRx_hif (s : State) (i : Nat) (x : Rx) : (s.setRx i x).hif = s.hif := rfl
@[simp] theorem State.setRx_tim (s : State) (i : Nat) (x : Rx) : (s.setRx i x).tim = s.tim := rfl
@[simp] theorem State.setRx_conv (s : State) (i : Nat) (x : Rx) : (s.setRx i x).conv = s.conv := rfl
@[simp] theorem State.setRx_calEng (s : State) (i : Nat) (x : Rx) : (s.setRx i x).calEng = s.calEng := rfl
@[simp] theorem State.setRx_capture (s : State) (i : Nat) (x : Rx) : (s.setRx i x).capture = s.capture := rfl
@[simp] theorem State.setRx_tx (s : State) (i : Nat) (x : Rx) : (s.setRx i x).tx = s.tx := rfl
@[simp] theorem State.setRx_pool (s : State) (i : Nat) (x : Rx) : (s.setRx i x).pool = s.pool := rfl
@[simp] theorem State.setRx_align (s : State) (i : Nat) (x : Rx) : (s.setRx i x).align = s.align := rfl
@[simp] theorem State.setRx_tdl (s : State) (i : Nat) (x : Rx) : (s.setRx i x).tdl = s.tdl := rfl
@[simp] theorem State.setRx_lfr (s : State) (i : Nat) (x : Rx) : (s.setRx i x).lfr = s.lfr := rfl
@[simp] theorem State.setRx_grid (s : State) (i : Nat) (x : Rx) : (s.setRx i x).grid = s.grid := rfl
@[simp] theorem State.setRx_mems (s : State) (i : Nat) (x : Rx) : (s.setRx i x).mems = s.mems := rfl
@[simp] theorem State.setRx_chans (s : State) (i : Nat) (x : Rx) : (s.setRx i x).chans = s.chans := rfl
@[simp] theorem State.setRx_cip (s : State) (i : Nat) (x : Rx) : (s.setRx i x).cip = s.cip := rfl
@[simp] theorem State.setRx_svcSol (s : State) (i : Nat) (x : Rx) : (s.setRx i x).svcSol = s.svcSol := rfl
@[simp] theorem State.setRx_clients (s : State) (i : Nat) (x : Rx) : (s.setRx i x).clients = s.clients := rfl
@[simp] theorem State.setRx_gfp (s : State) (i : Nat) (x : Rx) : (s.setRx i x).gfp = s.gfp := rfl
@[simp] theorem State.setRx_lanes (s : State) (i : Nat) (x : Rx) : (s.setRx i x).lanes = s.lanes := rfl
@[simp] theorem State.setRx_calendars (s : State) (i : Nat) (x : Rx) : (s.setRx i x).calendars = s.calendars := rfl
@[simp] theorem State.setRx_cel (s : State) (i : Nat) (x : Rx) : (s.setRx i x).cel = s.cel := rfl
@[simp] theorem State.setRx_pry (s : State) (i : Nat) (x : Rx) : (s.setRx i x).pry = s.pry := rfl
@[simp] theorem State.setRx_mon (s : State) (i : Nat) (x : Rx) : (s.setRx i x).mon = s.mon := rfl
@[simp] theorem State.setRx_cask (s : State) (i : Nat) (x : Rx) : (s.setRx i x).cask = s.cask := rfl
@[simp] theorem State.setRx_free (s : State) (i : Nat) (x : Rx) : (s.setRx i x).free = s.free := rfl
@[simp] theorem State.setRx_rd (s : State) (i : Nat) (x : Rx) (f : Fld) (is : List Nat) : (s.setRx i x).rd f is = s.rd f is := rfl

/-! ### setTx -/

@[simp] theorem State.setTx_pending (s : State) (i : Nat) (x : Tx) : (s.setTx i x).pending = s.pending := rfl
@[simp] theorem State.setTx_regs (s : State) (i : Nat) (x : Tx) : (s.setTx i x).regs = s.regs := rfl
@[simp] theorem State.setTx_counters (s : State) (i : Nat) (x : Tx) : (s.setTx i x).counters = s.counters := rfl
@[simp] theorem State.setTx_ctl (s : State) (i : Nat) (x : Tx) : (s.setTx i x).ctl = s.ctl := rfl
@[simp] theorem State.setTx_exec (s : State) (i : Nat) (x : Tx) : (s.setTx i x).exec = s.exec := rfl
@[simp] theorem State.setTx_seqs (s : State) (i : Nat) (x : Tx) : (s.setTx i x).seqs = s.seqs := rfl
@[simp] theorem State.setTx_queues (s : State) (i : Nat) (x : Tx) : (s.setTx i x).queues = s.queues := rfl
@[simp] theorem State.setTx_vtg (s : State) (i : Nat) (x : Tx) : (s.setTx i x).vtg = s.vtg := rfl
@[simp] theorem State.setTx_hif (s : State) (i : Nat) (x : Tx) : (s.setTx i x).hif = s.hif := rfl
@[simp] theorem State.setTx_tim (s : State) (i : Nat) (x : Tx) : (s.setTx i x).tim = s.tim := rfl
@[simp] theorem State.setTx_conv (s : State) (i : Nat) (x : Tx) : (s.setTx i x).conv = s.conv := rfl
@[simp] theorem State.setTx_calEng (s : State) (i : Nat) (x : Tx) : (s.setTx i x).calEng = s.calEng := rfl
@[simp] theorem State.setTx_capture (s : State) (i : Nat) (x : Tx) : (s.setTx i x).capture = s.capture := rfl
@[simp] theorem State.setTx_rx (s : State) (i : Nat) (x : Tx) : (s.setTx i x).rx = s.rx := rfl
@[simp] theorem State.setTx_pool (s : State) (i : Nat) (x : Tx) : (s.setTx i x).pool = s.pool := rfl
@[simp] theorem State.setTx_align (s : State) (i : Nat) (x : Tx) : (s.setTx i x).align = s.align := rfl
@[simp] theorem State.setTx_tdl (s : State) (i : Nat) (x : Tx) : (s.setTx i x).tdl = s.tdl := rfl
@[simp] theorem State.setTx_lfr (s : State) (i : Nat) (x : Tx) : (s.setTx i x).lfr = s.lfr := rfl
@[simp] theorem State.setTx_grid (s : State) (i : Nat) (x : Tx) : (s.setTx i x).grid = s.grid := rfl
@[simp] theorem State.setTx_mems (s : State) (i : Nat) (x : Tx) : (s.setTx i x).mems = s.mems := rfl
@[simp] theorem State.setTx_chans (s : State) (i : Nat) (x : Tx) : (s.setTx i x).chans = s.chans := rfl
@[simp] theorem State.setTx_cip (s : State) (i : Nat) (x : Tx) : (s.setTx i x).cip = s.cip := rfl
@[simp] theorem State.setTx_svcSol (s : State) (i : Nat) (x : Tx) : (s.setTx i x).svcSol = s.svcSol := rfl
@[simp] theorem State.setTx_clients (s : State) (i : Nat) (x : Tx) : (s.setTx i x).clients = s.clients := rfl
@[simp] theorem State.setTx_gfp (s : State) (i : Nat) (x : Tx) : (s.setTx i x).gfp = s.gfp := rfl
@[simp] theorem State.setTx_lanes (s : State) (i : Nat) (x : Tx) : (s.setTx i x).lanes = s.lanes := rfl
@[simp] theorem State.setTx_calendars (s : State) (i : Nat) (x : Tx) : (s.setTx i x).calendars = s.calendars := rfl
@[simp] theorem State.setTx_cel (s : State) (i : Nat) (x : Tx) : (s.setTx i x).cel = s.cel := rfl
@[simp] theorem State.setTx_pry (s : State) (i : Nat) (x : Tx) : (s.setTx i x).pry = s.pry := rfl
@[simp] theorem State.setTx_mon (s : State) (i : Nat) (x : Tx) : (s.setTx i x).mon = s.mon := rfl
@[simp] theorem State.setTx_cask (s : State) (i : Nat) (x : Tx) : (s.setTx i x).cask = s.cask := rfl
@[simp] theorem State.setTx_free (s : State) (i : Nat) (x : Tx) : (s.setTx i x).free = s.free := rfl
@[simp] theorem State.setTx_rd (s : State) (i : Nat) (x : Tx) (f : Fld) (is : List Nat) : (s.setTx i x).rd f is = s.rd f is := rfl

/-! ### setAlign -/

@[simp] theorem State.setAlign_pending (s : State) (i : Nat) (x : Align) : (s.setAlign i x).pending = s.pending := rfl
@[simp] theorem State.setAlign_regs (s : State) (i : Nat) (x : Align) : (s.setAlign i x).regs = s.regs := rfl
@[simp] theorem State.setAlign_counters (s : State) (i : Nat) (x : Align) : (s.setAlign i x).counters = s.counters := rfl
@[simp] theorem State.setAlign_ctl (s : State) (i : Nat) (x : Align) : (s.setAlign i x).ctl = s.ctl := rfl
@[simp] theorem State.setAlign_exec (s : State) (i : Nat) (x : Align) : (s.setAlign i x).exec = s.exec := rfl
@[simp] theorem State.setAlign_seqs (s : State) (i : Nat) (x : Align) : (s.setAlign i x).seqs = s.seqs := rfl
@[simp] theorem State.setAlign_queues (s : State) (i : Nat) (x : Align) : (s.setAlign i x).queues = s.queues := rfl
@[simp] theorem State.setAlign_vtg (s : State) (i : Nat) (x : Align) : (s.setAlign i x).vtg = s.vtg := rfl
@[simp] theorem State.setAlign_hif (s : State) (i : Nat) (x : Align) : (s.setAlign i x).hif = s.hif := rfl
@[simp] theorem State.setAlign_tim (s : State) (i : Nat) (x : Align) : (s.setAlign i x).tim = s.tim := rfl
@[simp] theorem State.setAlign_conv (s : State) (i : Nat) (x : Align) : (s.setAlign i x).conv = s.conv := rfl
@[simp] theorem State.setAlign_calEng (s : State) (i : Nat) (x : Align) : (s.setAlign i x).calEng = s.calEng := rfl
@[simp] theorem State.setAlign_capture (s : State) (i : Nat) (x : Align) : (s.setAlign i x).capture = s.capture := rfl
@[simp] theorem State.setAlign_rx (s : State) (i : Nat) (x : Align) : (s.setAlign i x).rx = s.rx := rfl
@[simp] theorem State.setAlign_tx (s : State) (i : Nat) (x : Align) : (s.setAlign i x).tx = s.tx := rfl
@[simp] theorem State.setAlign_pool (s : State) (i : Nat) (x : Align) : (s.setAlign i x).pool = s.pool := rfl
@[simp] theorem State.setAlign_tdl (s : State) (i : Nat) (x : Align) : (s.setAlign i x).tdl = s.tdl := rfl
@[simp] theorem State.setAlign_lfr (s : State) (i : Nat) (x : Align) : (s.setAlign i x).lfr = s.lfr := rfl
@[simp] theorem State.setAlign_grid (s : State) (i : Nat) (x : Align) : (s.setAlign i x).grid = s.grid := rfl
@[simp] theorem State.setAlign_mems (s : State) (i : Nat) (x : Align) : (s.setAlign i x).mems = s.mems := rfl
@[simp] theorem State.setAlign_chans (s : State) (i : Nat) (x : Align) : (s.setAlign i x).chans = s.chans := rfl
@[simp] theorem State.setAlign_cip (s : State) (i : Nat) (x : Align) : (s.setAlign i x).cip = s.cip := rfl
@[simp] theorem State.setAlign_svcSol (s : State) (i : Nat) (x : Align) : (s.setAlign i x).svcSol = s.svcSol := rfl
@[simp] theorem State.setAlign_clients (s : State) (i : Nat) (x : Align) : (s.setAlign i x).clients = s.clients := rfl
@[simp] theorem State.setAlign_gfp (s : State) (i : Nat) (x : Align) : (s.setAlign i x).gfp = s.gfp := rfl
@[simp] theorem State.setAlign_lanes (s : State) (i : Nat) (x : Align) : (s.setAlign i x).lanes = s.lanes := rfl
@[simp] theorem State.setAlign_calendars (s : State) (i : Nat) (x : Align) : (s.setAlign i x).calendars = s.calendars := rfl
@[simp] theorem State.setAlign_cel (s : State) (i : Nat) (x : Align) : (s.setAlign i x).cel = s.cel := rfl
@[simp] theorem State.setAlign_pry (s : State) (i : Nat) (x : Align) : (s.setAlign i x).pry = s.pry := rfl
@[simp] theorem State.setAlign_mon (s : State) (i : Nat) (x : Align) : (s.setAlign i x).mon = s.mon := rfl
@[simp] theorem State.setAlign_cask (s : State) (i : Nat) (x : Align) : (s.setAlign i x).cask = s.cask := rfl
@[simp] theorem State.setAlign_free (s : State) (i : Nat) (x : Align) : (s.setAlign i x).free = s.free := rfl
@[simp] theorem State.setAlign_rd (s : State) (i : Nat) (x : Align) (f : Fld) (is : List Nat) : (s.setAlign i x).rd f is = s.rd f is := rfl

/-! ### setTdl -/

@[simp] theorem State.setTdl_pending (s : State) (i : Nat) (x : Tdl) : (s.setTdl i x).pending = s.pending := rfl
@[simp] theorem State.setTdl_regs (s : State) (i : Nat) (x : Tdl) : (s.setTdl i x).regs = s.regs := rfl
@[simp] theorem State.setTdl_counters (s : State) (i : Nat) (x : Tdl) : (s.setTdl i x).counters = s.counters := rfl
@[simp] theorem State.setTdl_ctl (s : State) (i : Nat) (x : Tdl) : (s.setTdl i x).ctl = s.ctl := rfl
@[simp] theorem State.setTdl_exec (s : State) (i : Nat) (x : Tdl) : (s.setTdl i x).exec = s.exec := rfl
@[simp] theorem State.setTdl_seqs (s : State) (i : Nat) (x : Tdl) : (s.setTdl i x).seqs = s.seqs := rfl
@[simp] theorem State.setTdl_queues (s : State) (i : Nat) (x : Tdl) : (s.setTdl i x).queues = s.queues := rfl
@[simp] theorem State.setTdl_vtg (s : State) (i : Nat) (x : Tdl) : (s.setTdl i x).vtg = s.vtg := rfl
@[simp] theorem State.setTdl_hif (s : State) (i : Nat) (x : Tdl) : (s.setTdl i x).hif = s.hif := rfl
@[simp] theorem State.setTdl_tim (s : State) (i : Nat) (x : Tdl) : (s.setTdl i x).tim = s.tim := rfl
@[simp] theorem State.setTdl_conv (s : State) (i : Nat) (x : Tdl) : (s.setTdl i x).conv = s.conv := rfl
@[simp] theorem State.setTdl_calEng (s : State) (i : Nat) (x : Tdl) : (s.setTdl i x).calEng = s.calEng := rfl
@[simp] theorem State.setTdl_capture (s : State) (i : Nat) (x : Tdl) : (s.setTdl i x).capture = s.capture := rfl
@[simp] theorem State.setTdl_rx (s : State) (i : Nat) (x : Tdl) : (s.setTdl i x).rx = s.rx := rfl
@[simp] theorem State.setTdl_tx (s : State) (i : Nat) (x : Tdl) : (s.setTdl i x).tx = s.tx := rfl
@[simp] theorem State.setTdl_pool (s : State) (i : Nat) (x : Tdl) : (s.setTdl i x).pool = s.pool := rfl
@[simp] theorem State.setTdl_align (s : State) (i : Nat) (x : Tdl) : (s.setTdl i x).align = s.align := rfl
@[simp] theorem State.setTdl_lfr (s : State) (i : Nat) (x : Tdl) : (s.setTdl i x).lfr = s.lfr := rfl
@[simp] theorem State.setTdl_grid (s : State) (i : Nat) (x : Tdl) : (s.setTdl i x).grid = s.grid := rfl
@[simp] theorem State.setTdl_mems (s : State) (i : Nat) (x : Tdl) : (s.setTdl i x).mems = s.mems := rfl
@[simp] theorem State.setTdl_chans (s : State) (i : Nat) (x : Tdl) : (s.setTdl i x).chans = s.chans := rfl
@[simp] theorem State.setTdl_cip (s : State) (i : Nat) (x : Tdl) : (s.setTdl i x).cip = s.cip := rfl
@[simp] theorem State.setTdl_svcSol (s : State) (i : Nat) (x : Tdl) : (s.setTdl i x).svcSol = s.svcSol := rfl
@[simp] theorem State.setTdl_clients (s : State) (i : Nat) (x : Tdl) : (s.setTdl i x).clients = s.clients := rfl
@[simp] theorem State.setTdl_gfp (s : State) (i : Nat) (x : Tdl) : (s.setTdl i x).gfp = s.gfp := rfl
@[simp] theorem State.setTdl_lanes (s : State) (i : Nat) (x : Tdl) : (s.setTdl i x).lanes = s.lanes := rfl
@[simp] theorem State.setTdl_calendars (s : State) (i : Nat) (x : Tdl) : (s.setTdl i x).calendars = s.calendars := rfl
@[simp] theorem State.setTdl_cel (s : State) (i : Nat) (x : Tdl) : (s.setTdl i x).cel = s.cel := rfl
@[simp] theorem State.setTdl_pry (s : State) (i : Nat) (x : Tdl) : (s.setTdl i x).pry = s.pry := rfl
@[simp] theorem State.setTdl_mon (s : State) (i : Nat) (x : Tdl) : (s.setTdl i x).mon = s.mon := rfl
@[simp] theorem State.setTdl_cask (s : State) (i : Nat) (x : Tdl) : (s.setTdl i x).cask = s.cask := rfl
@[simp] theorem State.setTdl_free (s : State) (i : Nat) (x : Tdl) : (s.setTdl i x).free = s.free := rfl
@[simp] theorem State.setTdl_rd (s : State) (i : Nat) (x : Tdl) (f : Fld) (is : List Nat) : (s.setTdl i x).rd f is = s.rd f is := rfl

/-! ### setLfr -/

@[simp] theorem State.setLfr_pending (s : State) (i : Nat) (x : Lfr) : (s.setLfr i x).pending = s.pending := rfl
@[simp] theorem State.setLfr_regs (s : State) (i : Nat) (x : Lfr) : (s.setLfr i x).regs = s.regs := rfl
@[simp] theorem State.setLfr_counters (s : State) (i : Nat) (x : Lfr) : (s.setLfr i x).counters = s.counters := rfl
@[simp] theorem State.setLfr_ctl (s : State) (i : Nat) (x : Lfr) : (s.setLfr i x).ctl = s.ctl := rfl
@[simp] theorem State.setLfr_exec (s : State) (i : Nat) (x : Lfr) : (s.setLfr i x).exec = s.exec := rfl
@[simp] theorem State.setLfr_seqs (s : State) (i : Nat) (x : Lfr) : (s.setLfr i x).seqs = s.seqs := rfl
@[simp] theorem State.setLfr_queues (s : State) (i : Nat) (x : Lfr) : (s.setLfr i x).queues = s.queues := rfl
@[simp] theorem State.setLfr_vtg (s : State) (i : Nat) (x : Lfr) : (s.setLfr i x).vtg = s.vtg := rfl
@[simp] theorem State.setLfr_hif (s : State) (i : Nat) (x : Lfr) : (s.setLfr i x).hif = s.hif := rfl
@[simp] theorem State.setLfr_tim (s : State) (i : Nat) (x : Lfr) : (s.setLfr i x).tim = s.tim := rfl
@[simp] theorem State.setLfr_conv (s : State) (i : Nat) (x : Lfr) : (s.setLfr i x).conv = s.conv := rfl
@[simp] theorem State.setLfr_calEng (s : State) (i : Nat) (x : Lfr) : (s.setLfr i x).calEng = s.calEng := rfl
@[simp] theorem State.setLfr_capture (s : State) (i : Nat) (x : Lfr) : (s.setLfr i x).capture = s.capture := rfl
@[simp] theorem State.setLfr_rx (s : State) (i : Nat) (x : Lfr) : (s.setLfr i x).rx = s.rx := rfl
@[simp] theorem State.setLfr_tx (s : State) (i : Nat) (x : Lfr) : (s.setLfr i x).tx = s.tx := rfl
@[simp] theorem State.setLfr_pool (s : State) (i : Nat) (x : Lfr) : (s.setLfr i x).pool = s.pool := rfl
@[simp] theorem State.setLfr_align (s : State) (i : Nat) (x : Lfr) : (s.setLfr i x).align = s.align := rfl
@[simp] theorem State.setLfr_tdl (s : State) (i : Nat) (x : Lfr) : (s.setLfr i x).tdl = s.tdl := rfl
@[simp] theorem State.setLfr_grid (s : State) (i : Nat) (x : Lfr) : (s.setLfr i x).grid = s.grid := rfl
@[simp] theorem State.setLfr_mems (s : State) (i : Nat) (x : Lfr) : (s.setLfr i x).mems = s.mems := rfl
@[simp] theorem State.setLfr_chans (s : State) (i : Nat) (x : Lfr) : (s.setLfr i x).chans = s.chans := rfl
@[simp] theorem State.setLfr_cip (s : State) (i : Nat) (x : Lfr) : (s.setLfr i x).cip = s.cip := rfl
@[simp] theorem State.setLfr_svcSol (s : State) (i : Nat) (x : Lfr) : (s.setLfr i x).svcSol = s.svcSol := rfl
@[simp] theorem State.setLfr_clients (s : State) (i : Nat) (x : Lfr) : (s.setLfr i x).clients = s.clients := rfl
@[simp] theorem State.setLfr_gfp (s : State) (i : Nat) (x : Lfr) : (s.setLfr i x).gfp = s.gfp := rfl
@[simp] theorem State.setLfr_lanes (s : State) (i : Nat) (x : Lfr) : (s.setLfr i x).lanes = s.lanes := rfl
@[simp] theorem State.setLfr_calendars (s : State) (i : Nat) (x : Lfr) : (s.setLfr i x).calendars = s.calendars := rfl
@[simp] theorem State.setLfr_cel (s : State) (i : Nat) (x : Lfr) : (s.setLfr i x).cel = s.cel := rfl
@[simp] theorem State.setLfr_pry (s : State) (i : Nat) (x : Lfr) : (s.setLfr i x).pry = s.pry := rfl
@[simp] theorem State.setLfr_mon (s : State) (i : Nat) (x : Lfr) : (s.setLfr i x).mon = s.mon := rfl
@[simp] theorem State.setLfr_cask (s : State) (i : Nat) (x : Lfr) : (s.setLfr i x).cask = s.cask := rfl
@[simp] theorem State.setLfr_free (s : State) (i : Nat) (x : Lfr) : (s.setLfr i x).free = s.free := rfl
@[simp] theorem State.setLfr_rd (s : State) (i : Nat) (x : Lfr) (f : Fld) (is : List Nat) : (s.setLfr i x).rd f is = s.rd f is := rfl

/-! ### setClaim -/

@[simp] theorem State.setClaim_pending (s : State) (n : Nat) (x : Claim) : (s.setClaim n x).pending = s.pending := rfl
@[simp] theorem State.setClaim_regs (s : State) (n : Nat) (x : Claim) : (s.setClaim n x).regs = s.regs := rfl
@[simp] theorem State.setClaim_counters (s : State) (n : Nat) (x : Claim) : (s.setClaim n x).counters = s.counters := rfl
@[simp] theorem State.setClaim_ctl (s : State) (n : Nat) (x : Claim) : (s.setClaim n x).ctl = s.ctl := rfl
@[simp] theorem State.setClaim_seqs (s : State) (n : Nat) (x : Claim) : (s.setClaim n x).seqs = s.seqs := rfl
@[simp] theorem State.setClaim_queues (s : State) (n : Nat) (x : Claim) : (s.setClaim n x).queues = s.queues := rfl
@[simp] theorem State.setClaim_vtg (s : State) (n : Nat) (x : Claim) : (s.setClaim n x).vtg = s.vtg := rfl
@[simp] theorem State.setClaim_hif (s : State) (n : Nat) (x : Claim) : (s.setClaim n x).hif = s.hif := rfl
@[simp] theorem State.setClaim_tim (s : State) (n : Nat) (x : Claim) : (s.setClaim n x).tim = s.tim := rfl
@[simp] theorem State.setClaim_conv (s : State) (n : Nat) (x : Claim) : (s.setClaim n x).conv = s.conv := rfl
@[simp] theorem State.setClaim_calEng (s : State) (n : Nat) (x : Claim) : (s.setClaim n x).calEng = s.calEng := rfl
@[simp] theorem State.setClaim_capture (s : State) (n : Nat) (x : Claim) : (s.setClaim n x).capture = s.capture := rfl
@[simp] theorem State.setClaim_rx (s : State) (n : Nat) (x : Claim) : (s.setClaim n x).rx = s.rx := rfl
@[simp] theorem State.setClaim_tx (s : State) (n : Nat) (x : Claim) : (s.setClaim n x).tx = s.tx := rfl
@[simp] theorem State.setClaim_pool (s : State) (n : Nat) (x : Claim) : (s.setClaim n x).pool = s.pool := rfl
@[simp] theorem State.setClaim_align (s : State) (n : Nat) (x : Claim) : (s.setClaim n x).align = s.align := rfl
@[simp] theorem State.setClaim_tdl (s : State) (n : Nat) (x : Claim) : (s.setClaim n x).tdl = s.tdl := rfl
@[simp] theorem State.setClaim_lfr (s : State) (n : Nat) (x : Claim) : (s.setClaim n x).lfr = s.lfr := rfl
@[simp] theorem State.setClaim_grid (s : State) (n : Nat) (x : Claim) : (s.setClaim n x).grid = s.grid := rfl
@[simp] theorem State.setClaim_mems (s : State) (n : Nat) (x : Claim) : (s.setClaim n x).mems = s.mems := rfl
@[simp] theorem State.setClaim_chans (s : State) (n : Nat) (x : Claim) : (s.setClaim n x).chans = s.chans := rfl
@[simp] theorem State.setClaim_cip (s : State) (n : Nat) (x : Claim) : (s.setClaim n x).cip = s.cip := rfl
@[simp] theorem State.setClaim_svcSol (s : State) (n : Nat) (x : Claim) : (s.setClaim n x).svcSol = s.svcSol := rfl
@[simp] theorem State.setClaim_clients (s : State) (n : Nat) (x : Claim) : (s.setClaim n x).clients = s.clients := rfl
@[simp] theorem State.setClaim_gfp (s : State) (n : Nat) (x : Claim) : (s.setClaim n x).gfp = s.gfp := rfl
@[simp] theorem State.setClaim_lanes (s : State) (n : Nat) (x : Claim) : (s.setClaim n x).lanes = s.lanes := rfl
@[simp] theorem State.setClaim_calendars (s : State) (n : Nat) (x : Claim) : (s.setClaim n x).calendars = s.calendars := rfl
@[simp] theorem State.setClaim_cel (s : State) (n : Nat) (x : Claim) : (s.setClaim n x).cel = s.cel := rfl
@[simp] theorem State.setClaim_pry (s : State) (n : Nat) (x : Claim) : (s.setClaim n x).pry = s.pry := rfl
@[simp] theorem State.setClaim_mon (s : State) (n : Nat) (x : Claim) : (s.setClaim n x).mon = s.mon := rfl
@[simp] theorem State.setClaim_cask (s : State) (n : Nat) (x : Claim) : (s.setClaim n x).cask = s.cask := rfl
@[simp] theorem State.setClaim_free (s : State) (n : Nat) (x : Claim) : (s.setClaim n x).free = s.free := rfl
@[simp] theorem State.setClaim_rd (s : State) (n : Nat) (x : Claim) (f : Fld) (is : List Nat) : (s.setClaim n x).rd f is = s.rd f is := rfl

/-! ### setPort -/

@[simp] theorem State.setPort_pending (s : State) (p : Nat) (x : Port) : (s.setPort p x).pending = s.pending := rfl
@[simp] theorem State.setPort_regs (s : State) (p : Nat) (x : Port) : (s.setPort p x).regs = s.regs := rfl
@[simp] theorem State.setPort_counters (s : State) (p : Nat) (x : Port) : (s.setPort p x).counters = s.counters := rfl
@[simp] theorem State.setPort_ctl (s : State) (p : Nat) (x : Port) : (s.setPort p x).ctl = s.ctl := rfl
@[simp] theorem State.setPort_exec (s : State) (p : Nat) (x : Port) : (s.setPort p x).exec = s.exec := rfl
@[simp] theorem State.setPort_seqs (s : State) (p : Nat) (x : Port) : (s.setPort p x).seqs = s.seqs := rfl
@[simp] theorem State.setPort_queues (s : State) (p : Nat) (x : Port) : (s.setPort p x).queues = s.queues := rfl
@[simp] theorem State.setPort_vtg (s : State) (p : Nat) (x : Port) : (s.setPort p x).vtg = s.vtg := rfl
@[simp] theorem State.setPort_hif (s : State) (p : Nat) (x : Port) : (s.setPort p x).hif = s.hif := rfl
@[simp] theorem State.setPort_tim (s : State) (p : Nat) (x : Port) : (s.setPort p x).tim = s.tim := rfl
@[simp] theorem State.setPort_conv (s : State) (p : Nat) (x : Port) : (s.setPort p x).conv = s.conv := rfl
@[simp] theorem State.setPort_calEng (s : State) (p : Nat) (x : Port) : (s.setPort p x).calEng = s.calEng := rfl
@[simp] theorem State.setPort_capture (s : State) (p : Nat) (x : Port) : (s.setPort p x).capture = s.capture := rfl
@[simp] theorem State.setPort_rx (s : State) (p : Nat) (x : Port) : (s.setPort p x).rx = s.rx := rfl
@[simp] theorem State.setPort_tx (s : State) (p : Nat) (x : Port) : (s.setPort p x).tx = s.tx := rfl
@[simp] theorem State.setPort_pool (s : State) (p : Nat) (x : Port) : (s.setPort p x).pool = s.pool := rfl
@[simp] theorem State.setPort_align (s : State) (p : Nat) (x : Port) : (s.setPort p x).align = s.align := rfl
@[simp] theorem State.setPort_tdl (s : State) (p : Nat) (x : Port) : (s.setPort p x).tdl = s.tdl := rfl
@[simp] theorem State.setPort_lfr (s : State) (p : Nat) (x : Port) : (s.setPort p x).lfr = s.lfr := rfl
@[simp] theorem State.setPort_grid (s : State) (p : Nat) (x : Port) : (s.setPort p x).grid = s.grid := rfl
@[simp] theorem State.setPort_mems (s : State) (p : Nat) (x : Port) : (s.setPort p x).mems = s.mems := rfl
@[simp] theorem State.setPort_chans (s : State) (p : Nat) (x : Port) : (s.setPort p x).chans = s.chans := rfl
@[simp] theorem State.setPort_cip (s : State) (p : Nat) (x : Port) : (s.setPort p x).cip = s.cip := rfl
@[simp] theorem State.setPort_svcSol (s : State) (p : Nat) (x : Port) : (s.setPort p x).svcSol = s.svcSol := rfl
@[simp] theorem State.setPort_clients (s : State) (p : Nat) (x : Port) : (s.setPort p x).clients = s.clients := rfl
@[simp] theorem State.setPort_gfp (s : State) (p : Nat) (x : Port) : (s.setPort p x).gfp = s.gfp := rfl
@[simp] theorem State.setPort_lanes (s : State) (p : Nat) (x : Port) : (s.setPort p x).lanes = s.lanes := rfl
@[simp] theorem State.setPort_calendars (s : State) (p : Nat) (x : Port) : (s.setPort p x).calendars = s.calendars := rfl
@[simp] theorem State.setPort_cel (s : State) (p : Nat) (x : Port) : (s.setPort p x).cel = s.cel := rfl
@[simp] theorem State.setPort_mon (s : State) (p : Nat) (x : Port) : (s.setPort p x).mon = s.mon := rfl
@[simp] theorem State.setPort_cask (s : State) (p : Nat) (x : Port) : (s.setPort p x).cask = s.cask := rfl
@[simp] theorem State.setPort_free (s : State) (p : Nat) (x : Port) : (s.setPort p x).free = s.free := rfl
@[simp] theorem State.setPort_rd (s : State) (p : Nat) (x : Port) (f : Fld) (is : List Nat) : (s.setPort p x).rd f is = s.rd f is := rfl

/-! ### setInj -/

@[simp] theorem State.setInj_pending (s : State) (q : Nat) (x : Inj) : (s.setInj q x).pending = s.pending := rfl
@[simp] theorem State.setInj_regs (s : State) (q : Nat) (x : Inj) : (s.setInj q x).regs = s.regs := rfl
@[simp] theorem State.setInj_counters (s : State) (q : Nat) (x : Inj) : (s.setInj q x).counters = s.counters := rfl
@[simp] theorem State.setInj_ctl (s : State) (q : Nat) (x : Inj) : (s.setInj q x).ctl = s.ctl := rfl
@[simp] theorem State.setInj_exec (s : State) (q : Nat) (x : Inj) : (s.setInj q x).exec = s.exec := rfl
@[simp] theorem State.setInj_seqs (s : State) (q : Nat) (x : Inj) : (s.setInj q x).seqs = s.seqs := rfl
@[simp] theorem State.setInj_queues (s : State) (q : Nat) (x : Inj) : (s.setInj q x).queues = s.queues := rfl
@[simp] theorem State.setInj_vtg (s : State) (q : Nat) (x : Inj) : (s.setInj q x).vtg = s.vtg := rfl
@[simp] theorem State.setInj_hif (s : State) (q : Nat) (x : Inj) : (s.setInj q x).hif = s.hif := rfl
@[simp] theorem State.setInj_tim (s : State) (q : Nat) (x : Inj) : (s.setInj q x).tim = s.tim := rfl
@[simp] theorem State.setInj_conv (s : State) (q : Nat) (x : Inj) : (s.setInj q x).conv = s.conv := rfl
@[simp] theorem State.setInj_calEng (s : State) (q : Nat) (x : Inj) : (s.setInj q x).calEng = s.calEng := rfl
@[simp] theorem State.setInj_capture (s : State) (q : Nat) (x : Inj) : (s.setInj q x).capture = s.capture := rfl
@[simp] theorem State.setInj_rx (s : State) (q : Nat) (x : Inj) : (s.setInj q x).rx = s.rx := rfl
@[simp] theorem State.setInj_tx (s : State) (q : Nat) (x : Inj) : (s.setInj q x).tx = s.tx := rfl
@[simp] theorem State.setInj_pool (s : State) (q : Nat) (x : Inj) : (s.setInj q x).pool = s.pool := rfl
@[simp] theorem State.setInj_align (s : State) (q : Nat) (x : Inj) : (s.setInj q x).align = s.align := rfl
@[simp] theorem State.setInj_tdl (s : State) (q : Nat) (x : Inj) : (s.setInj q x).tdl = s.tdl := rfl
@[simp] theorem State.setInj_lfr (s : State) (q : Nat) (x : Inj) : (s.setInj q x).lfr = s.lfr := rfl
@[simp] theorem State.setInj_grid (s : State) (q : Nat) (x : Inj) : (s.setInj q x).grid = s.grid := rfl
@[simp] theorem State.setInj_mems (s : State) (q : Nat) (x : Inj) : (s.setInj q x).mems = s.mems := rfl
@[simp] theorem State.setInj_chans (s : State) (q : Nat) (x : Inj) : (s.setInj q x).chans = s.chans := rfl
@[simp] theorem State.setInj_cip (s : State) (q : Nat) (x : Inj) : (s.setInj q x).cip = s.cip := rfl
@[simp] theorem State.setInj_svcSol (s : State) (q : Nat) (x : Inj) : (s.setInj q x).svcSol = s.svcSol := rfl
@[simp] theorem State.setInj_clients (s : State) (q : Nat) (x : Inj) : (s.setInj q x).clients = s.clients := rfl
@[simp] theorem State.setInj_gfp (s : State) (q : Nat) (x : Inj) : (s.setInj q x).gfp = s.gfp := rfl
@[simp] theorem State.setInj_lanes (s : State) (q : Nat) (x : Inj) : (s.setInj q x).lanes = s.lanes := rfl
@[simp] theorem State.setInj_calendars (s : State) (q : Nat) (x : Inj) : (s.setInj q x).calendars = s.calendars := rfl
@[simp] theorem State.setInj_cel (s : State) (q : Nat) (x : Inj) : (s.setInj q x).cel = s.cel := rfl
@[simp] theorem State.setInj_pry (s : State) (q : Nat) (x : Inj) : (s.setInj q x).pry = s.pry := rfl
@[simp] theorem State.setInj_cask (s : State) (q : Nat) (x : Inj) : (s.setInj q x).cask = s.cask := rfl
@[simp] theorem State.setInj_free (s : State) (q : Nat) (x : Inj) : (s.setInj q x).free = s.free := rfl
@[simp] theorem State.setInj_rd (s : State) (q : Nat) (x : Inj) (f : Fld) (is : List Nat) : (s.setInj q x).rd f is = s.rd f is := rfl

/-! ### setPlanner -/

@[simp] theorem State.setPlanner_pending (s : State) (x : Planner) : (s.setPlanner x).pending = s.pending := rfl
@[simp] theorem State.setPlanner_regs (s : State) (x : Planner) : (s.setPlanner x).regs = s.regs := rfl
@[simp] theorem State.setPlanner_counters (s : State) (x : Planner) : (s.setPlanner x).counters = s.counters := rfl
@[simp] theorem State.setPlanner_ctl (s : State) (x : Planner) : (s.setPlanner x).ctl = s.ctl := rfl
@[simp] theorem State.setPlanner_exec (s : State) (x : Planner) : (s.setPlanner x).exec = s.exec := rfl
@[simp] theorem State.setPlanner_seqs (s : State) (x : Planner) : (s.setPlanner x).seqs = s.seqs := rfl
@[simp] theorem State.setPlanner_queues (s : State) (x : Planner) : (s.setPlanner x).queues = s.queues := rfl
@[simp] theorem State.setPlanner_vtg (s : State) (x : Planner) : (s.setPlanner x).vtg = s.vtg := rfl
@[simp] theorem State.setPlanner_hif (s : State) (x : Planner) : (s.setPlanner x).hif = s.hif := rfl
@[simp] theorem State.setPlanner_tim (s : State) (x : Planner) : (s.setPlanner x).tim = s.tim := rfl
@[simp] theorem State.setPlanner_conv (s : State) (x : Planner) : (s.setPlanner x).conv = s.conv := rfl
@[simp] theorem State.setPlanner_calEng (s : State) (x : Planner) : (s.setPlanner x).calEng = s.calEng := rfl
@[simp] theorem State.setPlanner_capture (s : State) (x : Planner) : (s.setPlanner x).capture = s.capture := rfl
@[simp] theorem State.setPlanner_rx (s : State) (x : Planner) : (s.setPlanner x).rx = s.rx := rfl
@[simp] theorem State.setPlanner_tx (s : State) (x : Planner) : (s.setPlanner x).tx = s.tx := rfl
@[simp] theorem State.setPlanner_pool (s : State) (x : Planner) : (s.setPlanner x).pool = s.pool := rfl
@[simp] theorem State.setPlanner_align (s : State) (x : Planner) : (s.setPlanner x).align = s.align := rfl
@[simp] theorem State.setPlanner_tdl (s : State) (x : Planner) : (s.setPlanner x).tdl = s.tdl := rfl
@[simp] theorem State.setPlanner_lfr (s : State) (x : Planner) : (s.setPlanner x).lfr = s.lfr := rfl
@[simp] theorem State.setPlanner_grid (s : State) (x : Planner) : (s.setPlanner x).grid = s.grid := rfl
@[simp] theorem State.setPlanner_mems (s : State) (x : Planner) : (s.setPlanner x).mems = s.mems := rfl
@[simp] theorem State.setPlanner_chans (s : State) (x : Planner) : (s.setPlanner x).chans = s.chans := rfl
@[simp] theorem State.setPlanner_cip (s : State) (x : Planner) : (s.setPlanner x).cip = s.cip := rfl
@[simp] theorem State.setPlanner_svcSol (s : State) (x : Planner) : (s.setPlanner x).svcSol = s.svcSol := rfl
@[simp] theorem State.setPlanner_clients (s : State) (x : Planner) : (s.setPlanner x).clients = s.clients := rfl
@[simp] theorem State.setPlanner_gfp (s : State) (x : Planner) : (s.setPlanner x).gfp = s.gfp := rfl
@[simp] theorem State.setPlanner_lanes (s : State) (x : Planner) : (s.setPlanner x).lanes = s.lanes := rfl
@[simp] theorem State.setPlanner_calendars (s : State) (x : Planner) : (s.setPlanner x).calendars = s.calendars := rfl
@[simp] theorem State.setPlanner_cel (s : State) (x : Planner) : (s.setPlanner x).cel = s.cel := rfl
@[simp] theorem State.setPlanner_pry (s : State) (x : Planner) : (s.setPlanner x).pry = s.pry := rfl
@[simp] theorem State.setPlanner_cask (s : State) (x : Planner) : (s.setPlanner x).cask = s.cask := rfl
@[simp] theorem State.setPlanner_free (s : State) (x : Planner) : (s.setPlanner x).free = s.free := rfl
@[simp] theorem State.setPlanner_rd (s : State) (x : Planner) (f : Fld) (is : List Nat) : (s.setPlanner x).rd f is = s.rd f is := rfl

/-! ### setGate -/

@[simp] theorem State.setGate_pending (s : State) (b : Nat) (g : Gate) : (s.setGate b g).pending = s.pending := rfl
@[simp] theorem State.setGate_regs (s : State) (b : Nat) (g : Gate) : (s.setGate b g).regs = s.regs := rfl
@[simp] theorem State.setGate_counters (s : State) (b : Nat) (g : Gate) : (s.setGate b g).counters = s.counters := rfl
@[simp] theorem State.setGate_exec (s : State) (b : Nat) (g : Gate) : (s.setGate b g).exec = s.exec := rfl
@[simp] theorem State.setGate_seqs (s : State) (b : Nat) (g : Gate) : (s.setGate b g).seqs = s.seqs := rfl
@[simp] theorem State.setGate_queues (s : State) (b : Nat) (g : Gate) : (s.setGate b g).queues = s.queues := rfl
@[simp] theorem State.setGate_vtg (s : State) (b : Nat) (g : Gate) : (s.setGate b g).vtg = s.vtg := rfl
@[simp] theorem State.setGate_hif (s : State) (b : Nat) (g : Gate) : (s.setGate b g).hif = s.hif := rfl
@[simp] theorem State.setGate_tim (s : State) (b : Nat) (g : Gate) : (s.setGate b g).tim = s.tim := rfl
@[simp] theorem State.setGate_conv (s : State) (b : Nat) (g : Gate) : (s.setGate b g).conv = s.conv := rfl
@[simp] theorem State.setGate_calEng (s : State) (b : Nat) (g : Gate) : (s.setGate b g).calEng = s.calEng := rfl
@[simp] theorem State.setGate_capture (s : State) (b : Nat) (g : Gate) : (s.setGate b g).capture = s.capture := rfl
@[simp] theorem State.setGate_rx (s : State) (b : Nat) (g : Gate) : (s.setGate b g).rx = s.rx := rfl
@[simp] theorem State.setGate_tx (s : State) (b : Nat) (g : Gate) : (s.setGate b g).tx = s.tx := rfl
@[simp] theorem State.setGate_pool (s : State) (b : Nat) (g : Gate) : (s.setGate b g).pool = s.pool := rfl
@[simp] theorem State.setGate_align (s : State) (b : Nat) (g : Gate) : (s.setGate b g).align = s.align := rfl
@[simp] theorem State.setGate_tdl (s : State) (b : Nat) (g : Gate) : (s.setGate b g).tdl = s.tdl := rfl
@[simp] theorem State.setGate_lfr (s : State) (b : Nat) (g : Gate) : (s.setGate b g).lfr = s.lfr := rfl
@[simp] theorem State.setGate_grid (s : State) (b : Nat) (g : Gate) : (s.setGate b g).grid = s.grid := rfl
@[simp] theorem State.setGate_mems (s : State) (b : Nat) (g : Gate) : (s.setGate b g).mems = s.mems := rfl
@[simp] theorem State.setGate_chans (s : State) (b : Nat) (g : Gate) : (s.setGate b g).chans = s.chans := rfl
@[simp] theorem State.setGate_cip (s : State) (b : Nat) (g : Gate) : (s.setGate b g).cip = s.cip := rfl
@[simp] theorem State.setGate_svcSol (s : State) (b : Nat) (g : Gate) : (s.setGate b g).svcSol = s.svcSol := rfl
@[simp] theorem State.setGate_clients (s : State) (b : Nat) (g : Gate) : (s.setGate b g).clients = s.clients := rfl
@[simp] theorem State.setGate_gfp (s : State) (b : Nat) (g : Gate) : (s.setGate b g).gfp = s.gfp := rfl
@[simp] theorem State.setGate_lanes (s : State) (b : Nat) (g : Gate) : (s.setGate b g).lanes = s.lanes := rfl
@[simp] theorem State.setGate_calendars (s : State) (b : Nat) (g : Gate) : (s.setGate b g).calendars = s.calendars := rfl
@[simp] theorem State.setGate_cel (s : State) (b : Nat) (g : Gate) : (s.setGate b g).cel = s.cel := rfl
@[simp] theorem State.setGate_pry (s : State) (b : Nat) (g : Gate) : (s.setGate b g).pry = s.pry := rfl
@[simp] theorem State.setGate_mon (s : State) (b : Nat) (g : Gate) : (s.setGate b g).mon = s.mon := rfl
@[simp] theorem State.setGate_cask (s : State) (b : Nat) (g : Gate) : (s.setGate b g).cask = s.cask := rfl
@[simp] theorem State.setGate_free (s : State) (b : Nat) (g : Gate) : (s.setGate b g).free = s.free := rfl
@[simp] theorem State.setGate_rd (s : State) (b : Nat) (g : Gate) (f : Fld) (is : List Nat) : (s.setGate b g).rd f is = s.rd f is := rfl

/-! ### setMem -/

@[simp] theorem State.setMem_pending (s : State) (c i : Nat) (x : Mem) : (s.setMem c i x).pending = s.pending := rfl
@[simp] theorem State.setMem_regs (s : State) (c i : Nat) (x : Mem) : (s.setMem c i x).regs = s.regs := rfl
@[simp] theorem State.setMem_counters (s : State) (c i : Nat) (x : Mem) : (s.setMem c i x).counters = s.counters := rfl
@[simp] theorem State.setMem_ctl (s : State) (c i : Nat) (x : Mem) : (s.setMem c i x).ctl = s.ctl := rfl
@[simp] theorem State.setMem_exec (s : State) (c i : Nat) (x : Mem) : (s.setMem c i x).exec = s.exec := rfl
@[simp] theorem State.setMem_seqs (s : State) (c i : Nat) (x : Mem) : (s.setMem c i x).seqs = s.seqs := rfl
@[simp] theorem State.setMem_queues (s : State) (c i : Nat) (x : Mem) : (s.setMem c i x).queues = s.queues := rfl
@[simp] theorem State.setMem_vtg (s : State) (c i : Nat) (x : Mem) : (s.setMem c i x).vtg = s.vtg := rfl
@[simp] theorem State.setMem_hif (s : State) (c i : Nat) (x : Mem) : (s.setMem c i x).hif = s.hif := rfl
@[simp] theorem State.setMem_tim (s : State) (c i : Nat) (x : Mem) : (s.setMem c i x).tim = s.tim := rfl
@[simp] theorem State.setMem_conv (s : State) (c i : Nat) (x : Mem) : (s.setMem c i x).conv = s.conv := rfl
@[simp] theorem State.setMem_calEng (s : State) (c i : Nat) (x : Mem) : (s.setMem c i x).calEng = s.calEng := rfl
@[simp] theorem State.setMem_capture (s : State) (c i : Nat) (x : Mem) : (s.setMem c i x).capture = s.capture := rfl
@[simp] theorem State.setMem_rx (s : State) (c i : Nat) (x : Mem) : (s.setMem c i x).rx = s.rx := rfl
@[simp] theorem State.setMem_tx (s : State) (c i : Nat) (x : Mem) : (s.setMem c i x).tx = s.tx := rfl
@[simp] theorem State.setMem_pool (s : State) (c i : Nat) (x : Mem) : (s.setMem c i x).pool = s.pool := rfl
@[simp] theorem State.setMem_align (s : State) (c i : Nat) (x : Mem) : (s.setMem c i x).align = s.align := rfl
@[simp] theorem State.setMem_tdl (s : State) (c i : Nat) (x : Mem) : (s.setMem c i x).tdl = s.tdl := rfl
@[simp] theorem State.setMem_lfr (s : State) (c i : Nat) (x : Mem) : (s.setMem c i x).lfr = s.lfr := rfl
@[simp] theorem State.setMem_grid (s : State) (c i : Nat) (x : Mem) : (s.setMem c i x).grid = s.grid := rfl
@[simp] theorem State.setMem_chans (s : State) (c i : Nat) (x : Mem) : (s.setMem c i x).chans = s.chans := rfl
@[simp] theorem State.setMem_cip (s : State) (c i : Nat) (x : Mem) : (s.setMem c i x).cip = s.cip := rfl
@[simp] theorem State.setMem_svcSol (s : State) (c i : Nat) (x : Mem) : (s.setMem c i x).svcSol = s.svcSol := rfl
@[simp] theorem State.setMem_clients (s : State) (c i : Nat) (x : Mem) : (s.setMem c i x).clients = s.clients := rfl
@[simp] theorem State.setMem_gfp (s : State) (c i : Nat) (x : Mem) : (s.setMem c i x).gfp = s.gfp := rfl
@[simp] theorem State.setMem_lanes (s : State) (c i : Nat) (x : Mem) : (s.setMem c i x).lanes = s.lanes := rfl
@[simp] theorem State.setMem_calendars (s : State) (c i : Nat) (x : Mem) : (s.setMem c i x).calendars = s.calendars := rfl
@[simp] theorem State.setMem_cel (s : State) (c i : Nat) (x : Mem) : (s.setMem c i x).cel = s.cel := rfl
@[simp] theorem State.setMem_pry (s : State) (c i : Nat) (x : Mem) : (s.setMem c i x).pry = s.pry := rfl
@[simp] theorem State.setMem_mon (s : State) (c i : Nat) (x : Mem) : (s.setMem c i x).mon = s.mon := rfl
@[simp] theorem State.setMem_cask (s : State) (c i : Nat) (x : Mem) : (s.setMem c i x).cask = s.cask := rfl
@[simp] theorem State.setMem_free (s : State) (c i : Nat) (x : Mem) : (s.setMem c i x).free = s.free := rfl
@[simp] theorem State.setMem_rd (s : State) (c i : Nat) (x : Mem) (f : Fld) (is : List Nat) : (s.setMem c i x).rd f is = s.rd f is := rfl

/-! ### setChan -/

@[simp] theorem State.setChan_pending (s : State) (c : Nat) (x : Chan) : (s.setChan c x).pending = s.pending := rfl
@[simp] theorem State.setChan_regs (s : State) (c : Nat) (x : Chan) : (s.setChan c x).regs = s.regs := rfl
@[simp] theorem State.setChan_counters (s : State) (c : Nat) (x : Chan) : (s.setChan c x).counters = s.counters := rfl
@[simp] theorem State.setChan_ctl (s : State) (c : Nat) (x : Chan) : (s.setChan c x).ctl = s.ctl := rfl
@[simp] theorem State.setChan_exec (s : State) (c : Nat) (x : Chan) : (s.setChan c x).exec = s.exec := rfl
@[simp] theorem State.setChan_seqs (s : State) (c : Nat) (x : Chan) : (s.setChan c x).seqs = s.seqs := rfl
@[simp] theorem State.setChan_queues (s : State) (c : Nat) (x : Chan) : (s.setChan c x).queues = s.queues := rfl
@[simp] theorem State.setChan_vtg (s : State) (c : Nat) (x : Chan) : (s.setChan c x).vtg = s.vtg := rfl
@[simp] theorem State.setChan_hif (s : State) (c : Nat) (x : Chan) : (s.setChan c x).hif = s.hif := rfl
@[simp] theorem State.setChan_tim (s : State) (c : Nat) (x : Chan) : (s.setChan c x).tim = s.tim := rfl
@[simp] theorem State.setChan_conv (s : State) (c : Nat) (x : Chan) : (s.setChan c x).conv = s.conv := rfl
@[simp] theorem State.setChan_calEng (s : State) (c : Nat) (x : Chan) : (s.setChan c x).calEng = s.calEng := rfl
@[simp] theorem State.setChan_capture (s : State) (c : Nat) (x : Chan) : (s.setChan c x).capture = s.capture := rfl
@[simp] theorem State.setChan_rx (s : State) (c : Nat) (x : Chan) : (s.setChan c x).rx = s.rx := rfl
@[simp] theorem State.setChan_tx (s : State) (c : Nat) (x : Chan) : (s.setChan c x).tx = s.tx := rfl
@[simp] theorem State.setChan_pool (s : State) (c : Nat) (x : Chan) : (s.setChan c x).pool = s.pool := rfl
@[simp] theorem State.setChan_align (s : State) (c : Nat) (x : Chan) : (s.setChan c x).align = s.align := rfl
@[simp] theorem State.setChan_tdl (s : State) (c : Nat) (x : Chan) : (s.setChan c x).tdl = s.tdl := rfl
@[simp] theorem State.setChan_lfr (s : State) (c : Nat) (x : Chan) : (s.setChan c x).lfr = s.lfr := rfl
@[simp] theorem State.setChan_grid (s : State) (c : Nat) (x : Chan) : (s.setChan c x).grid = s.grid := rfl
@[simp] theorem State.setChan_mems (s : State) (c : Nat) (x : Chan) : (s.setChan c x).mems = s.mems := rfl
@[simp] theorem State.setChan_cip (s : State) (c : Nat) (x : Chan) : (s.setChan c x).cip = s.cip := rfl
@[simp] theorem State.setChan_svcSol (s : State) (c : Nat) (x : Chan) : (s.setChan c x).svcSol = s.svcSol := rfl
@[simp] theorem State.setChan_clients (s : State) (c : Nat) (x : Chan) : (s.setChan c x).clients = s.clients := rfl
@[simp] theorem State.setChan_gfp (s : State) (c : Nat) (x : Chan) : (s.setChan c x).gfp = s.gfp := rfl
@[simp] theorem State.setChan_lanes (s : State) (c : Nat) (x : Chan) : (s.setChan c x).lanes = s.lanes := rfl
@[simp] theorem State.setChan_calendars (s : State) (c : Nat) (x : Chan) : (s.setChan c x).calendars = s.calendars := rfl
@[simp] theorem State.setChan_cel (s : State) (c : Nat) (x : Chan) : (s.setChan c x).cel = s.cel := rfl
@[simp] theorem State.setChan_pry (s : State) (c : Nat) (x : Chan) : (s.setChan c x).pry = s.pry := rfl
@[simp] theorem State.setChan_mon (s : State) (c : Nat) (x : Chan) : (s.setChan c x).mon = s.mon := rfl
@[simp] theorem State.setChan_cask (s : State) (c : Nat) (x : Chan) : (s.setChan c x).cask = s.cask := rfl
@[simp] theorem State.setChan_free (s : State) (c : Nat) (x : Chan) : (s.setChan c x).free = s.free := rfl
@[simp] theorem State.setChan_rd (s : State) (c : Nat) (x : Chan) (f : Fld) (is : List Nat) : (s.setChan c x).rd f is = s.rd f is := rfl

/-! ### setCipCh -/

@[simp] theorem State.setCipCh_pending (s : State) (c : Nat) (x : CipCh) : (s.setCipCh c x).pending = s.pending := rfl
@[simp] theorem State.setCipCh_regs (s : State) (c : Nat) (x : CipCh) : (s.setCipCh c x).regs = s.regs := rfl
@[simp] theorem State.setCipCh_counters (s : State) (c : Nat) (x : CipCh) : (s.setCipCh c x).counters = s.counters := rfl
@[simp] theorem State.setCipCh_ctl (s : State) (c : Nat) (x : CipCh) : (s.setCipCh c x).ctl = s.ctl := rfl
@[simp] theorem State.setCipCh_exec (s : State) (c : Nat) (x : CipCh) : (s.setCipCh c x).exec = s.exec := rfl
@[simp] theorem State.setCipCh_seqs (s : State) (c : Nat) (x : CipCh) : (s.setCipCh c x).seqs = s.seqs := rfl
@[simp] theorem State.setCipCh_queues (s : State) (c : Nat) (x : CipCh) : (s.setCipCh c x).queues = s.queues := rfl
@[simp] theorem State.setCipCh_vtg (s : State) (c : Nat) (x : CipCh) : (s.setCipCh c x).vtg = s.vtg := rfl
@[simp] theorem State.setCipCh_hif (s : State) (c : Nat) (x : CipCh) : (s.setCipCh c x).hif = s.hif := rfl
@[simp] theorem State.setCipCh_tim (s : State) (c : Nat) (x : CipCh) : (s.setCipCh c x).tim = s.tim := rfl
@[simp] theorem State.setCipCh_conv (s : State) (c : Nat) (x : CipCh) : (s.setCipCh c x).conv = s.conv := rfl
@[simp] theorem State.setCipCh_calEng (s : State) (c : Nat) (x : CipCh) : (s.setCipCh c x).calEng = s.calEng := rfl
@[simp] theorem State.setCipCh_capture (s : State) (c : Nat) (x : CipCh) : (s.setCipCh c x).capture = s.capture := rfl
@[simp] theorem State.setCipCh_rx (s : State) (c : Nat) (x : CipCh) : (s.setCipCh c x).rx = s.rx := rfl
@[simp] theorem State.setCipCh_tx (s : State) (c : Nat) (x : CipCh) : (s.setCipCh c x).tx = s.tx := rfl
@[simp] theorem State.setCipCh_pool (s : State) (c : Nat) (x : CipCh) : (s.setCipCh c x).pool = s.pool := rfl
@[simp] theorem State.setCipCh_align (s : State) (c : Nat) (x : CipCh) : (s.setCipCh c x).align = s.align := rfl
@[simp] theorem State.setCipCh_tdl (s : State) (c : Nat) (x : CipCh) : (s.setCipCh c x).tdl = s.tdl := rfl
@[simp] theorem State.setCipCh_lfr (s : State) (c : Nat) (x : CipCh) : (s.setCipCh c x).lfr = s.lfr := rfl
@[simp] theorem State.setCipCh_grid (s : State) (c : Nat) (x : CipCh) : (s.setCipCh c x).grid = s.grid := rfl
@[simp] theorem State.setCipCh_mems (s : State) (c : Nat) (x : CipCh) : (s.setCipCh c x).mems = s.mems := rfl
@[simp] theorem State.setCipCh_chans (s : State) (c : Nat) (x : CipCh) : (s.setCipCh c x).chans = s.chans := rfl
@[simp] theorem State.setCipCh_svcSol (s : State) (c : Nat) (x : CipCh) : (s.setCipCh c x).svcSol = s.svcSol := rfl
@[simp] theorem State.setCipCh_clients (s : State) (c : Nat) (x : CipCh) : (s.setCipCh c x).clients = s.clients := rfl
@[simp] theorem State.setCipCh_gfp (s : State) (c : Nat) (x : CipCh) : (s.setCipCh c x).gfp = s.gfp := rfl
@[simp] theorem State.setCipCh_lanes (s : State) (c : Nat) (x : CipCh) : (s.setCipCh c x).lanes = s.lanes := rfl
@[simp] theorem State.setCipCh_calendars (s : State) (c : Nat) (x : CipCh) : (s.setCipCh c x).calendars = s.calendars := rfl
@[simp] theorem State.setCipCh_cel (s : State) (c : Nat) (x : CipCh) : (s.setCipCh c x).cel = s.cel := rfl
@[simp] theorem State.setCipCh_pry (s : State) (c : Nat) (x : CipCh) : (s.setCipCh c x).pry = s.pry := rfl
@[simp] theorem State.setCipCh_mon (s : State) (c : Nat) (x : CipCh) : (s.setCipCh c x).mon = s.mon := rfl
@[simp] theorem State.setCipCh_cask (s : State) (c : Nat) (x : CipCh) : (s.setCipCh c x).cask = s.cask := rfl
@[simp] theorem State.setCipCh_free (s : State) (c : Nat) (x : CipCh) : (s.setCipCh c x).free = s.free := rfl
@[simp] theorem State.setCipCh_rd (s : State) (c : Nat) (x : CipCh) (f : Fld) (is : List Nat) : (s.setCipCh c x).rd f is = s.rd f is := rfl

/-! ### setSlot -/

@[simp] theorem State.setSlot_pending (s : State) (n : Nat) (x : Option KeySlot) : (s.setSlot n x).pending = s.pending := rfl
@[simp] theorem State.setSlot_regs (s : State) (n : Nat) (x : Option KeySlot) : (s.setSlot n x).regs = s.regs := rfl
@[simp] theorem State.setSlot_counters (s : State) (n : Nat) (x : Option KeySlot) : (s.setSlot n x).counters = s.counters := rfl
@[simp] theorem State.setSlot_ctl (s : State) (n : Nat) (x : Option KeySlot) : (s.setSlot n x).ctl = s.ctl := rfl
@[simp] theorem State.setSlot_exec (s : State) (n : Nat) (x : Option KeySlot) : (s.setSlot n x).exec = s.exec := rfl
@[simp] theorem State.setSlot_seqs (s : State) (n : Nat) (x : Option KeySlot) : (s.setSlot n x).seqs = s.seqs := rfl
@[simp] theorem State.setSlot_queues (s : State) (n : Nat) (x : Option KeySlot) : (s.setSlot n x).queues = s.queues := rfl
@[simp] theorem State.setSlot_vtg (s : State) (n : Nat) (x : Option KeySlot) : (s.setSlot n x).vtg = s.vtg := rfl
@[simp] theorem State.setSlot_hif (s : State) (n : Nat) (x : Option KeySlot) : (s.setSlot n x).hif = s.hif := rfl
@[simp] theorem State.setSlot_tim (s : State) (n : Nat) (x : Option KeySlot) : (s.setSlot n x).tim = s.tim := rfl
@[simp] theorem State.setSlot_conv (s : State) (n : Nat) (x : Option KeySlot) : (s.setSlot n x).conv = s.conv := rfl
@[simp] theorem State.setSlot_calEng (s : State) (n : Nat) (x : Option KeySlot) : (s.setSlot n x).calEng = s.calEng := rfl
@[simp] theorem State.setSlot_capture (s : State) (n : Nat) (x : Option KeySlot) : (s.setSlot n x).capture = s.capture := rfl
@[simp] theorem State.setSlot_rx (s : State) (n : Nat) (x : Option KeySlot) : (s.setSlot n x).rx = s.rx := rfl
@[simp] theorem State.setSlot_tx (s : State) (n : Nat) (x : Option KeySlot) : (s.setSlot n x).tx = s.tx := rfl
@[simp] theorem State.setSlot_pool (s : State) (n : Nat) (x : Option KeySlot) : (s.setSlot n x).pool = s.pool := rfl
@[simp] theorem State.setSlot_align (s : State) (n : Nat) (x : Option KeySlot) : (s.setSlot n x).align = s.align := rfl
@[simp] theorem State.setSlot_tdl (s : State) (n : Nat) (x : Option KeySlot) : (s.setSlot n x).tdl = s.tdl := rfl
@[simp] theorem State.setSlot_lfr (s : State) (n : Nat) (x : Option KeySlot) : (s.setSlot n x).lfr = s.lfr := rfl
@[simp] theorem State.setSlot_grid (s : State) (n : Nat) (x : Option KeySlot) : (s.setSlot n x).grid = s.grid := rfl
@[simp] theorem State.setSlot_mems (s : State) (n : Nat) (x : Option KeySlot) : (s.setSlot n x).mems = s.mems := rfl
@[simp] theorem State.setSlot_chans (s : State) (n : Nat) (x : Option KeySlot) : (s.setSlot n x).chans = s.chans := rfl
@[simp] theorem State.setSlot_svcSol (s : State) (n : Nat) (x : Option KeySlot) : (s.setSlot n x).svcSol = s.svcSol := rfl
@[simp] theorem State.setSlot_clients (s : State) (n : Nat) (x : Option KeySlot) : (s.setSlot n x).clients = s.clients := rfl
@[simp] theorem State.setSlot_gfp (s : State) (n : Nat) (x : Option KeySlot) : (s.setSlot n x).gfp = s.gfp := rfl
@[simp] theorem State.setSlot_lanes (s : State) (n : Nat) (x : Option KeySlot) : (s.setSlot n x).lanes = s.lanes := rfl
@[simp] theorem State.setSlot_calendars (s : State) (n : Nat) (x : Option KeySlot) : (s.setSlot n x).calendars = s.calendars := rfl
@[simp] theorem State.setSlot_cel (s : State) (n : Nat) (x : Option KeySlot) : (s.setSlot n x).cel = s.cel := rfl
@[simp] theorem State.setSlot_pry (s : State) (n : Nat) (x : Option KeySlot) : (s.setSlot n x).pry = s.pry := rfl
@[simp] theorem State.setSlot_mon (s : State) (n : Nat) (x : Option KeySlot) : (s.setSlot n x).mon = s.mon := rfl
@[simp] theorem State.setSlot_cask (s : State) (n : Nat) (x : Option KeySlot) : (s.setSlot n x).cask = s.cask := rfl
@[simp] theorem State.setSlot_free (s : State) (n : Nat) (x : Option KeySlot) : (s.setSlot n x).free = s.free := rfl
@[simp] theorem State.setSlot_rd (s : State) (n : Nat) (x : Option KeySlot) (f : Fld) (is : List Nat) : (s.setSlot n x).rd f is = s.rd f is := rfl

/-! ### setCipTx -/

@[simp] theorem State.setCipTx_pending (s : State) (c : Nat) (x : CipTx) : (s.setCipTx c x).pending = s.pending := rfl
@[simp] theorem State.setCipTx_regs (s : State) (c : Nat) (x : CipTx) : (s.setCipTx c x).regs = s.regs := rfl
@[simp] theorem State.setCipTx_counters (s : State) (c : Nat) (x : CipTx) : (s.setCipTx c x).counters = s.counters := rfl
@[simp] theorem State.setCipTx_ctl (s : State) (c : Nat) (x : CipTx) : (s.setCipTx c x).ctl = s.ctl := rfl
@[simp] theorem State.setCipTx_exec (s : State) (c : Nat) (x : CipTx) : (s.setCipTx c x).exec = s.exec := rfl
@[simp] theorem State.setCipTx_seqs (s : State) (c : Nat) (x : CipTx) : (s.setCipTx c x).seqs = s.seqs := rfl
@[simp] theorem State.setCipTx_queues (s : State) (c : Nat) (x : CipTx) : (s.setCipTx c x).queues = s.queues := rfl
@[simp] theorem State.setCipTx_vtg (s : State) (c : Nat) (x : CipTx) : (s.setCipTx c x).vtg = s.vtg := rfl
@[simp] theorem State.setCipTx_hif (s : State) (c : Nat) (x : CipTx) : (s.setCipTx c x).hif = s.hif := rfl
@[simp] theorem State.setCipTx_tim (s : State) (c : Nat) (x : CipTx) : (s.setCipTx c x).tim = s.tim := rfl
@[simp] theorem State.setCipTx_conv (s : State) (c : Nat) (x : CipTx) : (s.setCipTx c x).conv = s.conv := rfl
@[simp] theorem State.setCipTx_calEng (s : State) (c : Nat) (x : CipTx) : (s.setCipTx c x).calEng = s.calEng := rfl
@[simp] theorem State.setCipTx_capture (s : State) (c : Nat) (x : CipTx) : (s.setCipTx c x).capture = s.capture := rfl
@[simp] theorem State.setCipTx_rx (s : State) (c : Nat) (x : CipTx) : (s.setCipTx c x).rx = s.rx := rfl
@[simp] theorem State.setCipTx_tx (s : State) (c : Nat) (x : CipTx) : (s.setCipTx c x).tx = s.tx := rfl
@[simp] theorem State.setCipTx_pool (s : State) (c : Nat) (x : CipTx) : (s.setCipTx c x).pool = s.pool := rfl
@[simp] theorem State.setCipTx_align (s : State) (c : Nat) (x : CipTx) : (s.setCipTx c x).align = s.align := rfl
@[simp] theorem State.setCipTx_tdl (s : State) (c : Nat) (x : CipTx) : (s.setCipTx c x).tdl = s.tdl := rfl
@[simp] theorem State.setCipTx_lfr (s : State) (c : Nat) (x : CipTx) : (s.setCipTx c x).lfr = s.lfr := rfl
@[simp] theorem State.setCipTx_grid (s : State) (c : Nat) (x : CipTx) : (s.setCipTx c x).grid = s.grid := rfl
@[simp] theorem State.setCipTx_mems (s : State) (c : Nat) (x : CipTx) : (s.setCipTx c x).mems = s.mems := rfl
@[simp] theorem State.setCipTx_chans (s : State) (c : Nat) (x : CipTx) : (s.setCipTx c x).chans = s.chans := rfl
@[simp] theorem State.setCipTx_svcSol (s : State) (c : Nat) (x : CipTx) : (s.setCipTx c x).svcSol = s.svcSol := rfl
@[simp] theorem State.setCipTx_clients (s : State) (c : Nat) (x : CipTx) : (s.setCipTx c x).clients = s.clients := rfl
@[simp] theorem State.setCipTx_gfp (s : State) (c : Nat) (x : CipTx) : (s.setCipTx c x).gfp = s.gfp := rfl
@[simp] theorem State.setCipTx_lanes (s : State) (c : Nat) (x : CipTx) : (s.setCipTx c x).lanes = s.lanes := rfl
@[simp] theorem State.setCipTx_calendars (s : State) (c : Nat) (x : CipTx) : (s.setCipTx c x).calendars = s.calendars := rfl
@[simp] theorem State.setCipTx_cel (s : State) (c : Nat) (x : CipTx) : (s.setCipTx c x).cel = s.cel := rfl
@[simp] theorem State.setCipTx_pry (s : State) (c : Nat) (x : CipTx) : (s.setCipTx c x).pry = s.pry := rfl
@[simp] theorem State.setCipTx_mon (s : State) (c : Nat) (x : CipTx) : (s.setCipTx c x).mon = s.mon := rfl
@[simp] theorem State.setCipTx_cask (s : State) (c : Nat) (x : CipTx) : (s.setCipTx c x).cask = s.cask := rfl
@[simp] theorem State.setCipTx_free (s : State) (c : Nat) (x : CipTx) : (s.setCipTx c x).free = s.free := rfl
@[simp] theorem State.setCipTx_rd (s : State) (c : Nat) (x : CipTx) (f : Fld) (is : List Nat) : (s.setCipTx c x).rd f is = s.rd f is := rfl

/-! ### setSvc -/

@[simp] theorem State.setSvc_pending (s : State) (n : Nat) (x : Svc) : (s.setSvc n x).pending = s.pending := rfl
@[simp] theorem State.setSvc_regs (s : State) (n : Nat) (x : Svc) : (s.setSvc n x).regs = s.regs := rfl
@[simp] theorem State.setSvc_counters (s : State) (n : Nat) (x : Svc) : (s.setSvc n x).counters = s.counters := rfl
@[simp] theorem State.setSvc_ctl (s : State) (n : Nat) (x : Svc) : (s.setSvc n x).ctl = s.ctl := rfl
@[simp] theorem State.setSvc_exec (s : State) (n : Nat) (x : Svc) : (s.setSvc n x).exec = s.exec := rfl
@[simp] theorem State.setSvc_seqs (s : State) (n : Nat) (x : Svc) : (s.setSvc n x).seqs = s.seqs := rfl
@[simp] theorem State.setSvc_queues (s : State) (n : Nat) (x : Svc) : (s.setSvc n x).queues = s.queues := rfl
@[simp] theorem State.setSvc_vtg (s : State) (n : Nat) (x : Svc) : (s.setSvc n x).vtg = s.vtg := rfl
@[simp] theorem State.setSvc_hif (s : State) (n : Nat) (x : Svc) : (s.setSvc n x).hif = s.hif := rfl
@[simp] theorem State.setSvc_tim (s : State) (n : Nat) (x : Svc) : (s.setSvc n x).tim = s.tim := rfl
@[simp] theorem State.setSvc_conv (s : State) (n : Nat) (x : Svc) : (s.setSvc n x).conv = s.conv := rfl
@[simp] theorem State.setSvc_calEng (s : State) (n : Nat) (x : Svc) : (s.setSvc n x).calEng = s.calEng := rfl
@[simp] theorem State.setSvc_capture (s : State) (n : Nat) (x : Svc) : (s.setSvc n x).capture = s.capture := rfl
@[simp] theorem State.setSvc_rx (s : State) (n : Nat) (x : Svc) : (s.setSvc n x).rx = s.rx := rfl
@[simp] theorem State.setSvc_tx (s : State) (n : Nat) (x : Svc) : (s.setSvc n x).tx = s.tx := rfl
@[simp] theorem State.setSvc_pool (s : State) (n : Nat) (x : Svc) : (s.setSvc n x).pool = s.pool := rfl
@[simp] theorem State.setSvc_align (s : State) (n : Nat) (x : Svc) : (s.setSvc n x).align = s.align := rfl
@[simp] theorem State.setSvc_tdl (s : State) (n : Nat) (x : Svc) : (s.setSvc n x).tdl = s.tdl := rfl
@[simp] theorem State.setSvc_lfr (s : State) (n : Nat) (x : Svc) : (s.setSvc n x).lfr = s.lfr := rfl
@[simp] theorem State.setSvc_grid (s : State) (n : Nat) (x : Svc) : (s.setSvc n x).grid = s.grid := rfl
@[simp] theorem State.setSvc_mems (s : State) (n : Nat) (x : Svc) : (s.setSvc n x).mems = s.mems := rfl
@[simp] theorem State.setSvc_chans (s : State) (n : Nat) (x : Svc) : (s.setSvc n x).chans = s.chans := rfl
@[simp] theorem State.setSvc_svcSol (s : State) (n : Nat) (x : Svc) : (s.setSvc n x).svcSol = s.svcSol := rfl
@[simp] theorem State.setSvc_clients (s : State) (n : Nat) (x : Svc) : (s.setSvc n x).clients = s.clients := rfl
@[simp] theorem State.setSvc_gfp (s : State) (n : Nat) (x : Svc) : (s.setSvc n x).gfp = s.gfp := rfl
@[simp] theorem State.setSvc_lanes (s : State) (n : Nat) (x : Svc) : (s.setSvc n x).lanes = s.lanes := rfl
@[simp] theorem State.setSvc_calendars (s : State) (n : Nat) (x : Svc) : (s.setSvc n x).calendars = s.calendars := rfl
@[simp] theorem State.setSvc_cel (s : State) (n : Nat) (x : Svc) : (s.setSvc n x).cel = s.cel := rfl
@[simp] theorem State.setSvc_pry (s : State) (n : Nat) (x : Svc) : (s.setSvc n x).pry = s.pry := rfl
@[simp] theorem State.setSvc_mon (s : State) (n : Nat) (x : Svc) : (s.setSvc n x).mon = s.mon := rfl
@[simp] theorem State.setSvc_cask (s : State) (n : Nat) (x : Svc) : (s.setSvc n x).cask = s.cask := rfl
@[simp] theorem State.setSvc_free (s : State) (n : Nat) (x : Svc) : (s.setSvc n x).free = s.free := rfl
@[simp] theorem State.setSvc_rd (s : State) (n : Nat) (x : Svc) (f : Fld) (is : List Nat) : (s.setSvc n x).rd f is = s.rd f is := rfl

/-! ### setClient -/

@[simp] theorem State.setClient_pending (s : State) (k : Nat) (x : Client) : (s.setClient k x).pending = s.pending := rfl
@[simp] theorem State.setClient_regs (s : State) (k : Nat) (x : Client) : (s.setClient k x).regs = s.regs := rfl
@[simp] theorem State.setClient_counters (s : State) (k : Nat) (x : Client) : (s.setClient k x).counters = s.counters := rfl
@[simp] theorem State.setClient_ctl (s : State) (k : Nat) (x : Client) : (s.setClient k x).ctl = s.ctl := rfl
@[simp] theorem State.setClient_exec (s : State) (k : Nat) (x : Client) : (s.setClient k x).exec = s.exec := rfl
@[simp] theorem State.setClient_seqs (s : State) (k : Nat) (x : Client) : (s.setClient k x).seqs = s.seqs := rfl
@[simp] theorem State.setClient_queues (s : State) (k : Nat) (x : Client) : (s.setClient k x).queues = s.queues := rfl
@[simp] theorem State.setClient_vtg (s : State) (k : Nat) (x : Client) : (s.setClient k x).vtg = s.vtg := rfl
@[simp] theorem State.setClient_hif (s : State) (k : Nat) (x : Client) : (s.setClient k x).hif = s.hif := rfl
@[simp] theorem State.setClient_tim (s : State) (k : Nat) (x : Client) : (s.setClient k x).tim = s.tim := rfl
@[simp] theorem State.setClient_conv (s : State) (k : Nat) (x : Client) : (s.setClient k x).conv = s.conv := rfl
@[simp] theorem State.setClient_calEng (s : State) (k : Nat) (x : Client) : (s.setClient k x).calEng = s.calEng := rfl
@[simp] theorem State.setClient_capture (s : State) (k : Nat) (x : Client) : (s.setClient k x).capture = s.capture := rfl
@[simp] theorem State.setClient_rx (s : State) (k : Nat) (x : Client) : (s.setClient k x).rx = s.rx := rfl
@[simp] theorem State.setClient_tx (s : State) (k : Nat) (x : Client) : (s.setClient k x).tx = s.tx := rfl
@[simp] theorem State.setClient_pool (s : State) (k : Nat) (x : Client) : (s.setClient k x).pool = s.pool := rfl
@[simp] theorem State.setClient_align (s : State) (k : Nat) (x : Client) : (s.setClient k x).align = s.align := rfl
@[simp] theorem State.setClient_tdl (s : State) (k : Nat) (x : Client) : (s.setClient k x).tdl = s.tdl := rfl
@[simp] theorem State.setClient_lfr (s : State) (k : Nat) (x : Client) : (s.setClient k x).lfr = s.lfr := rfl
@[simp] theorem State.setClient_grid (s : State) (k : Nat) (x : Client) : (s.setClient k x).grid = s.grid := rfl
@[simp] theorem State.setClient_mems (s : State) (k : Nat) (x : Client) : (s.setClient k x).mems = s.mems := rfl
@[simp] theorem State.setClient_chans (s : State) (k : Nat) (x : Client) : (s.setClient k x).chans = s.chans := rfl
@[simp] theorem State.setClient_cip (s : State) (k : Nat) (x : Client) : (s.setClient k x).cip = s.cip := rfl
@[simp] theorem State.setClient_svcSol (s : State) (k : Nat) (x : Client) : (s.setClient k x).svcSol = s.svcSol := rfl
@[simp] theorem State.setClient_gfp (s : State) (k : Nat) (x : Client) : (s.setClient k x).gfp = s.gfp := rfl
@[simp] theorem State.setClient_lanes (s : State) (k : Nat) (x : Client) : (s.setClient k x).lanes = s.lanes := rfl
@[simp] theorem State.setClient_calendars (s : State) (k : Nat) (x : Client) : (s.setClient k x).calendars = s.calendars := rfl
@[simp] theorem State.setClient_cel (s : State) (k : Nat) (x : Client) : (s.setClient k x).cel = s.cel := rfl
@[simp] theorem State.setClient_pry (s : State) (k : Nat) (x : Client) : (s.setClient k x).pry = s.pry := rfl
@[simp] theorem State.setClient_mon (s : State) (k : Nat) (x : Client) : (s.setClient k x).mon = s.mon := rfl
@[simp] theorem State.setClient_cask (s : State) (k : Nat) (x : Client) : (s.setClient k x).cask = s.cask := rfl
@[simp] theorem State.setClient_free (s : State) (k : Nat) (x : Client) : (s.setClient k x).free = s.free := rfl
@[simp] theorem State.setClient_rd (s : State) (k : Nat) (x : Client) (f : Fld) (is : List Nat) : (s.setClient k x).rd f is = s.rd f is := rfl

/-! ### setLane -/

@[simp] theorem State.setLane_pending (s : State) (l : Nat) (x : Lane) : (s.setLane l x).pending = s.pending := rfl
@[simp] theorem State.setLane_regs (s : State) (l : Nat) (x : Lane) : (s.setLane l x).regs = s.regs := rfl
@[simp] theorem State.setLane_counters (s : State) (l : Nat) (x : Lane) : (s.setLane l x).counters = s.counters := rfl
@[simp] theorem State.setLane_ctl (s : State) (l : Nat) (x : Lane) : (s.setLane l x).ctl = s.ctl := rfl
@[simp] theorem State.setLane_exec (s : State) (l : Nat) (x : Lane) : (s.setLane l x).exec = s.exec := rfl
@[simp] theorem State.setLane_seqs (s : State) (l : Nat) (x : Lane) : (s.setLane l x).seqs = s.seqs := rfl
@[simp] theorem State.setLane_queues (s : State) (l : Nat) (x : Lane) : (s.setLane l x).queues = s.queues := rfl
@[simp] theorem State.setLane_vtg (s : State) (l : Nat) (x : Lane) : (s.setLane l x).vtg = s.vtg := rfl
@[simp] theorem State.setLane_hif (s : State) (l : Nat) (x : Lane) : (s.setLane l x).hif = s.hif := rfl
@[simp] theorem State.setLane_tim (s : State) (l : Nat) (x : Lane) : (s.setLane l x).tim = s.tim := rfl
@[simp] theorem State.setLane_conv (s : State) (l : Nat) (x : Lane) : (s.setLane l x).conv = s.conv := rfl
@[simp] theorem State.setLane_calEng (s : State) (l : Nat) (x : Lane) : (s.setLane l x).calEng = s.calEng := rfl
@[simp] theorem State.setLane_capture (s : State) (l : Nat) (x : Lane) : (s.setLane l x).capture = s.capture := rfl
@[simp] theorem State.setLane_rx (s : State) (l : Nat) (x : Lane) : (s.setLane l x).rx = s.rx := rfl
@[simp] theorem State.setLane_tx (s : State) (l : Nat) (x : Lane) : (s.setLane l x).tx = s.tx := rfl
@[simp] theorem State.setLane_pool (s : State) (l : Nat) (x : Lane) : (s.setLane l x).pool = s.pool := rfl
@[simp] theorem State.setLane_align (s : State) (l : Nat) (x : Lane) : (s.setLane l x).align = s.align := rfl
@[simp] theorem State.setLane_tdl (s : State) (l : Nat) (x : Lane) : (s.setLane l x).tdl = s.tdl := rfl
@[simp] theorem State.setLane_lfr (s : State) (l : Nat) (x : Lane) : (s.setLane l x).lfr = s.lfr := rfl
@[simp] theorem State.setLane_grid (s : State) (l : Nat) (x : Lane) : (s.setLane l x).grid = s.grid := rfl
@[simp] theorem State.setLane_mems (s : State) (l : Nat) (x : Lane) : (s.setLane l x).mems = s.mems := rfl
@[simp] theorem State.setLane_chans (s : State) (l : Nat) (x : Lane) : (s.setLane l x).chans = s.chans := rfl
@[simp] theorem State.setLane_cip (s : State) (l : Nat) (x : Lane) : (s.setLane l x).cip = s.cip := rfl
@[simp] theorem State.setLane_svcSol (s : State) (l : Nat) (x : Lane) : (s.setLane l x).svcSol = s.svcSol := rfl
@[simp] theorem State.setLane_clients (s : State) (l : Nat) (x : Lane) : (s.setLane l x).clients = s.clients := rfl
@[simp] theorem State.setLane_gfp (s : State) (l : Nat) (x : Lane) : (s.setLane l x).gfp = s.gfp := rfl
@[simp] theorem State.setLane_calendars (s : State) (l : Nat) (x : Lane) : (s.setLane l x).calendars = s.calendars := rfl
@[simp] theorem State.setLane_cel (s : State) (l : Nat) (x : Lane) : (s.setLane l x).cel = s.cel := rfl
@[simp] theorem State.setLane_pry (s : State) (l : Nat) (x : Lane) : (s.setLane l x).pry = s.pry := rfl
@[simp] theorem State.setLane_mon (s : State) (l : Nat) (x : Lane) : (s.setLane l x).mon = s.mon := rfl
@[simp] theorem State.setLane_cask (s : State) (l : Nat) (x : Lane) : (s.setLane l x).cask = s.cask := rfl
@[simp] theorem State.setLane_free (s : State) (l : Nat) (x : Lane) : (s.setLane l x).free = s.free := rfl
@[simp] theorem State.setLane_rd (s : State) (l : Nat) (x : Lane) (f : Fld) (is : List Nat) : (s.setLane l x).rd f is = s.rd f is := rfl

/-! ### setGfp -/

@[simp] theorem State.setGfp_pending (s : State) (c : Nat) (x : Gfp) : (s.setGfp c x).pending = s.pending := rfl
@[simp] theorem State.setGfp_regs (s : State) (c : Nat) (x : Gfp) : (s.setGfp c x).regs = s.regs := rfl
@[simp] theorem State.setGfp_counters (s : State) (c : Nat) (x : Gfp) : (s.setGfp c x).counters = s.counters := rfl
@[simp] theorem State.setGfp_ctl (s : State) (c : Nat) (x : Gfp) : (s.setGfp c x).ctl = s.ctl := rfl
@[simp] theorem State.setGfp_exec (s : State) (c : Nat) (x : Gfp) : (s.setGfp c x).exec = s.exec := rfl
@[simp] theorem State.setGfp_seqs (s : State) (c : Nat) (x : Gfp) : (s.setGfp c x).seqs = s.seqs := rfl
@[simp] theorem State.setGfp_queues (s : State) (c : Nat) (x : Gfp) : (s.setGfp c x).queues = s.queues := rfl
@[simp] theorem State.setGfp_vtg (s : State) (c : Nat) (x : Gfp) : (s.setGfp c x).vtg = s.vtg := rfl
@[simp] theorem State.setGfp_hif (s : State) (c : Nat) (x : Gfp) : (s.setGfp c x).hif = s.hif := rfl
@[simp] theorem State.setGfp_tim (s : State) (c : Nat) (x : Gfp) : (s.setGfp c x).tim = s.tim := rfl
@[simp] theorem State.setGfp_conv (s : State) (c : Nat) (x : Gfp) : (s.setGfp c x).conv = s.conv := rfl
@[simp] theorem State.setGfp_calEng (s : State) (c : Nat) (x : Gfp) : (s.setGfp c x).calEng = s.calEng := rfl
@[simp] theorem State.setGfp_capture (s : State) (c : Nat) (x : Gfp) : (s.setGfp c x).capture = s.capture := rfl
@[simp] theorem State.setGfp_rx (s : State) (c : Nat) (x : Gfp) : (s.setGfp c x).rx = s.rx := rfl
@[simp] theorem State.setGfp_tx (s : State) (c : Nat) (x : Gfp) : (s.setGfp c x).tx = s.tx := rfl
@[simp] theorem State.setGfp_pool (s : State) (c : Nat) (x : Gfp) : (s.setGfp c x).pool = s.pool := rfl
@[simp] theorem State.setGfp_align (s : State) (c : Nat) (x : Gfp) : (s.setGfp c x).align = s.align := rfl
@[simp] theorem State.setGfp_tdl (s : State) (c : Nat) (x : Gfp) : (s.setGfp c x).tdl = s.tdl := rfl
@[simp] theorem State.setGfp_lfr (s : State) (c : Nat) (x : Gfp) : (s.setGfp c x).lfr = s.lfr := rfl
@[simp] theorem State.setGfp_grid (s : State) (c : Nat) (x : Gfp) : (s.setGfp c x).grid = s.grid := rfl
@[simp] theorem State.setGfp_mems (s : State) (c : Nat) (x : Gfp) : (s.setGfp c x).mems = s.mems := rfl
@[simp] theorem State.setGfp_chans (s : State) (c : Nat) (x : Gfp) : (s.setGfp c x).chans = s.chans := rfl
@[simp] theorem State.setGfp_cip (s : State) (c : Nat) (x : Gfp) : (s.setGfp c x).cip = s.cip := rfl
@[simp] theorem State.setGfp_svcSol (s : State) (c : Nat) (x : Gfp) : (s.setGfp c x).svcSol = s.svcSol := rfl
@[simp] theorem State.setGfp_clients (s : State) (c : Nat) (x : Gfp) : (s.setGfp c x).clients = s.clients := rfl
@[simp] theorem State.setGfp_lanes (s : State) (c : Nat) (x : Gfp) : (s.setGfp c x).lanes = s.lanes := rfl
@[simp] theorem State.setGfp_calendars (s : State) (c : Nat) (x : Gfp) : (s.setGfp c x).calendars = s.calendars := rfl
@[simp] theorem State.setGfp_cel (s : State) (c : Nat) (x : Gfp) : (s.setGfp c x).cel = s.cel := rfl
@[simp] theorem State.setGfp_pry (s : State) (c : Nat) (x : Gfp) : (s.setGfp c x).pry = s.pry := rfl
@[simp] theorem State.setGfp_mon (s : State) (c : Nat) (x : Gfp) : (s.setGfp c x).mon = s.mon := rfl
@[simp] theorem State.setGfp_cask (s : State) (c : Nat) (x : Gfp) : (s.setGfp c x).cask = s.cask := rfl
@[simp] theorem State.setGfp_free (s : State) (c : Nat) (x : Gfp) : (s.setGfp c x).free = s.free := rfl
@[simp] theorem State.setGfp_rd (s : State) (c : Nat) (x : Gfp) (f : Fld) (is : List Nat) : (s.setGfp c x).rd f is = s.rd f is := rfl

/-! ### setDc -/

@[simp] theorem State.setDc_pending (s : State) (c : Nat) (x : Dc) : (s.setDc c x).pending = s.pending := rfl
@[simp] theorem State.setDc_regs (s : State) (c : Nat) (x : Dc) : (s.setDc c x).regs = s.regs := rfl
@[simp] theorem State.setDc_counters (s : State) (c : Nat) (x : Dc) : (s.setDc c x).counters = s.counters := rfl
@[simp] theorem State.setDc_ctl (s : State) (c : Nat) (x : Dc) : (s.setDc c x).ctl = s.ctl := rfl
@[simp] theorem State.setDc_exec (s : State) (c : Nat) (x : Dc) : (s.setDc c x).exec = s.exec := rfl
@[simp] theorem State.setDc_seqs (s : State) (c : Nat) (x : Dc) : (s.setDc c x).seqs = s.seqs := rfl
@[simp] theorem State.setDc_queues (s : State) (c : Nat) (x : Dc) : (s.setDc c x).queues = s.queues := rfl
@[simp] theorem State.setDc_vtg (s : State) (c : Nat) (x : Dc) : (s.setDc c x).vtg = s.vtg := rfl
@[simp] theorem State.setDc_hif (s : State) (c : Nat) (x : Dc) : (s.setDc c x).hif = s.hif := rfl
@[simp] theorem State.setDc_tim (s : State) (c : Nat) (x : Dc) : (s.setDc c x).tim = s.tim := rfl
@[simp] theorem State.setDc_conv (s : State) (c : Nat) (x : Dc) : (s.setDc c x).conv = s.conv := rfl
@[simp] theorem State.setDc_calEng (s : State) (c : Nat) (x : Dc) : (s.setDc c x).calEng = s.calEng := rfl
@[simp] theorem State.setDc_capture (s : State) (c : Nat) (x : Dc) : (s.setDc c x).capture = s.capture := rfl
@[simp] theorem State.setDc_rx (s : State) (c : Nat) (x : Dc) : (s.setDc c x).rx = s.rx := rfl
@[simp] theorem State.setDc_tx (s : State) (c : Nat) (x : Dc) : (s.setDc c x).tx = s.tx := rfl
@[simp] theorem State.setDc_pool (s : State) (c : Nat) (x : Dc) : (s.setDc c x).pool = s.pool := rfl
@[simp] theorem State.setDc_align (s : State) (c : Nat) (x : Dc) : (s.setDc c x).align = s.align := rfl
@[simp] theorem State.setDc_tdl (s : State) (c : Nat) (x : Dc) : (s.setDc c x).tdl = s.tdl := rfl
@[simp] theorem State.setDc_lfr (s : State) (c : Nat) (x : Dc) : (s.setDc c x).lfr = s.lfr := rfl
@[simp] theorem State.setDc_grid (s : State) (c : Nat) (x : Dc) : (s.setDc c x).grid = s.grid := rfl
@[simp] theorem State.setDc_mems (s : State) (c : Nat) (x : Dc) : (s.setDc c x).mems = s.mems := rfl
@[simp] theorem State.setDc_chans (s : State) (c : Nat) (x : Dc) : (s.setDc c x).chans = s.chans := rfl
@[simp] theorem State.setDc_cip (s : State) (c : Nat) (x : Dc) : (s.setDc c x).cip = s.cip := rfl
@[simp] theorem State.setDc_svcSol (s : State) (c : Nat) (x : Dc) : (s.setDc c x).svcSol = s.svcSol := rfl
@[simp] theorem State.setDc_clients (s : State) (c : Nat) (x : Dc) : (s.setDc c x).clients = s.clients := rfl
@[simp] theorem State.setDc_gfp (s : State) (c : Nat) (x : Dc) : (s.setDc c x).gfp = s.gfp := rfl
@[simp] theorem State.setDc_lanes (s : State) (c : Nat) (x : Dc) : (s.setDc c x).lanes = s.lanes := rfl
@[simp] theorem State.setDc_calendars (s : State) (c : Nat) (x : Dc) : (s.setDc c x).calendars = s.calendars := rfl
@[simp] theorem State.setDc_cel (s : State) (c : Nat) (x : Dc) : (s.setDc c x).cel = s.cel := rfl
@[simp] theorem State.setDc_pry (s : State) (c : Nat) (x : Dc) : (s.setDc c x).pry = s.pry := rfl
@[simp] theorem State.setDc_cask (s : State) (c : Nat) (x : Dc) : (s.setDc c x).cask = s.cask := rfl
@[simp] theorem State.setDc_free (s : State) (c : Nat) (x : Dc) : (s.setDc c x).free = s.free := rfl
@[simp] theorem State.setDc_rd (s : State) (c : Nat) (x : Dc) (f : Fld) (is : List Nat) : (s.setDc c x).rd f is = s.rd f is := rfl

/-! ### setAcc -/

@[simp] theorem State.setAcc_pending (s : State) (n : Nat) (x : Acc) : (s.setAcc n x).pending = s.pending := rfl
@[simp] theorem State.setAcc_regs (s : State) (n : Nat) (x : Acc) : (s.setAcc n x).regs = s.regs := rfl
@[simp] theorem State.setAcc_counters (s : State) (n : Nat) (x : Acc) : (s.setAcc n x).counters = s.counters := rfl
@[simp] theorem State.setAcc_ctl (s : State) (n : Nat) (x : Acc) : (s.setAcc n x).ctl = s.ctl := rfl
@[simp] theorem State.setAcc_exec (s : State) (n : Nat) (x : Acc) : (s.setAcc n x).exec = s.exec := rfl
@[simp] theorem State.setAcc_seqs (s : State) (n : Nat) (x : Acc) : (s.setAcc n x).seqs = s.seqs := rfl
@[simp] theorem State.setAcc_queues (s : State) (n : Nat) (x : Acc) : (s.setAcc n x).queues = s.queues := rfl
@[simp] theorem State.setAcc_vtg (s : State) (n : Nat) (x : Acc) : (s.setAcc n x).vtg = s.vtg := rfl
@[simp] theorem State.setAcc_hif (s : State) (n : Nat) (x : Acc) : (s.setAcc n x).hif = s.hif := rfl
@[simp] theorem State.setAcc_tim (s : State) (n : Nat) (x : Acc) : (s.setAcc n x).tim = s.tim := rfl
@[simp] theorem State.setAcc_conv (s : State) (n : Nat) (x : Acc) : (s.setAcc n x).conv = s.conv := rfl
@[simp] theorem State.setAcc_calEng (s : State) (n : Nat) (x : Acc) : (s.setAcc n x).calEng = s.calEng := rfl
@[simp] theorem State.setAcc_capture (s : State) (n : Nat) (x : Acc) : (s.setAcc n x).capture = s.capture := rfl
@[simp] theorem State.setAcc_rx (s : State) (n : Nat) (x : Acc) : (s.setAcc n x).rx = s.rx := rfl
@[simp] theorem State.setAcc_tx (s : State) (n : Nat) (x : Acc) : (s.setAcc n x).tx = s.tx := rfl
@[simp] theorem State.setAcc_pool (s : State) (n : Nat) (x : Acc) : (s.setAcc n x).pool = s.pool := rfl
@[simp] theorem State.setAcc_align (s : State) (n : Nat) (x : Acc) : (s.setAcc n x).align = s.align := rfl
@[simp] theorem State.setAcc_tdl (s : State) (n : Nat) (x : Acc) : (s.setAcc n x).tdl = s.tdl := rfl
@[simp] theorem State.setAcc_lfr (s : State) (n : Nat) (x : Acc) : (s.setAcc n x).lfr = s.lfr := rfl
@[simp] theorem State.setAcc_grid (s : State) (n : Nat) (x : Acc) : (s.setAcc n x).grid = s.grid := rfl
@[simp] theorem State.setAcc_mems (s : State) (n : Nat) (x : Acc) : (s.setAcc n x).mems = s.mems := rfl
@[simp] theorem State.setAcc_chans (s : State) (n : Nat) (x : Acc) : (s.setAcc n x).chans = s.chans := rfl
@[simp] theorem State.setAcc_cip (s : State) (n : Nat) (x : Acc) : (s.setAcc n x).cip = s.cip := rfl
@[simp] theorem State.setAcc_svcSol (s : State) (n : Nat) (x : Acc) : (s.setAcc n x).svcSol = s.svcSol := rfl
@[simp] theorem State.setAcc_clients (s : State) (n : Nat) (x : Acc) : (s.setAcc n x).clients = s.clients := rfl
@[simp] theorem State.setAcc_gfp (s : State) (n : Nat) (x : Acc) : (s.setAcc n x).gfp = s.gfp := rfl
@[simp] theorem State.setAcc_lanes (s : State) (n : Nat) (x : Acc) : (s.setAcc n x).lanes = s.lanes := rfl
@[simp] theorem State.setAcc_calendars (s : State) (n : Nat) (x : Acc) : (s.setAcc n x).calendars = s.calendars := rfl
@[simp] theorem State.setAcc_cel (s : State) (n : Nat) (x : Acc) : (s.setAcc n x).cel = s.cel := rfl
@[simp] theorem State.setAcc_pry (s : State) (n : Nat) (x : Acc) : (s.setAcc n x).pry = s.pry := rfl
@[simp] theorem State.setAcc_cask (s : State) (n : Nat) (x : Acc) : (s.setAcc n x).cask = s.cask := rfl
@[simp] theorem State.setAcc_free (s : State) (n : Nat) (x : Acc) : (s.setAcc n x).free = s.free := rfl
@[simp] theorem State.setAcc_rd (s : State) (n : Nat) (x : Acc) (f : Fld) (is : List Nat) : (s.setAcc n x).rd f is = s.rd f is := rfl

/-! ### Records -/

@[simp] theorem State.seq_setSeq_self (s : State) (i : Nat) (x : Seq) : (s.setSeq i x).seq i = x := by
  simp [State.seq, State.setSeq]
theorem State.seq_setSeq_ne (s : State) (i j : Nat) (x : Seq) (h : j ≠ i) : (s.setSeq i x).seq j = s.seq j := by
  simp only [State.seq, State.setSeq]
  exact tabGet_put_ne _ _ _ _ h
@[simp] theorem State.queue_setQueue_self (s : State) (i : Nat) (x : Queue) : (s.setQueue i x).queue i = x := by
  simp [State.queue, State.setQueue]
theorem State.queue_setQueue_ne (s : State) (i j : Nat) (x : Queue) (h : j ≠ i) : (s.setQueue i x).queue j = s.queue j := by
  simp only [State.queue, State.setQueue]
  exact tabGet_put_ne _ _ _ _ h
@[simp] theorem State.conv1_setConv_self (s : State) (i : Nat) (x : Conv) : (s.setConv i x).conv1 i = x := by
  simp [State.conv1, State.setConv]
theorem State.conv1_setConv_ne (s : State) (i j : Nat) (x : Conv) (h : j ≠ i) : (s.setConv i x).conv1 j = s.conv1 j := by
  simp only [State.conv1, State.setConv]
  exact tabGet_put_ne _ _ _ _ h
@[simp] theorem State.rx1_setRx_self (s : State) (i : Nat) (x : Rx) : (s.setRx i x).rx1 i = x := by
  simp [State.rx1, State.setRx]
theorem State.rx1_setRx_ne (s : State) (i j : Nat) (x : Rx) (h : j ≠ i) : (s.setRx i x).rx1 j = s.rx1 j := by
  simp only [State.rx1, State.setRx]
  exact tabGet_put_ne _ _ _ _ h
@[simp] theorem State.tx1_setTx_self (s : State) (i : Nat) (x : Tx) : (s.setTx i x).tx1 i = x := by
  simp [State.tx1, State.setTx]
theorem State.tx1_setTx_ne (s : State) (i j : Nat) (x : Tx) (h : j ≠ i) : (s.setTx i x).tx1 j = s.tx1 j := by
  simp only [State.tx1, State.setTx]
  exact tabGet_put_ne _ _ _ _ h
@[simp] theorem State.align1_setAlign_self (s : State) (i : Nat) (x : Align) : (s.setAlign i x).align1 i = x := by
  simp [State.align1, State.setAlign]
theorem State.align1_setAlign_ne (s : State) (i j : Nat) (x : Align) (h : j ≠ i) : (s.setAlign i x).align1 j = s.align1 j := by
  simp only [State.align1, State.setAlign]
  exact tabGet_put_ne _ _ _ _ h
@[simp] theorem State.tdl1_setTdl_self (s : State) (i : Nat) (x : Tdl) : (s.setTdl i x).tdl1 i = x := by
  simp [State.tdl1, State.setTdl]
theorem State.tdl1_setTdl_ne (s : State) (i j : Nat) (x : Tdl) (h : j ≠ i) : (s.setTdl i x).tdl1 j = s.tdl1 j := by
  simp only [State.tdl1, State.setTdl]
  exact tabGet_put_ne _ _ _ _ h
@[simp] theorem State.lfr1_setLfr_self (s : State) (i : Nat) (x : Lfr) : (s.setLfr i x).lfr1 i = x := by
  simp [State.lfr1, State.setLfr]
theorem State.lfr1_setLfr_ne (s : State) (i j : Nat) (x : Lfr) (h : j ≠ i) : (s.setLfr i x).lfr1 j = s.lfr1 j := by
  simp only [State.lfr1, State.setLfr]
  exact tabGet_put_ne _ _ _ _ h
@[simp] theorem State.claim_setClaim_self (s : State) (i : Nat) (x : Claim) : (s.setClaim i x).claim i = x := by
  simp [State.claim, State.setClaim]
theorem State.claim_setClaim_ne (s : State) (i j : Nat) (x : Claim) (h : j ≠ i) : (s.setClaim i x).claim j = s.claim j := by
  simp only [State.claim, State.setClaim]
  exact tabGet_put_ne _ _ _ _ h
@[simp] theorem State.port_setPort_self (s : State) (i : Nat) (x : Port) : (s.setPort i x).port i = x := by
  simp [State.port, State.setPort]
theorem State.port_setPort_ne (s : State) (i j : Nat) (x : Port) (h : j ≠ i) : (s.setPort i x).port j = s.port j := by
  simp only [State.port, State.setPort]
  exact tabGet_put_ne _ _ _ _ h
@[simp] theorem State.inj_setInj_self (s : State) (i : Nat) (x : Inj) : (s.setInj i x).inj i = x := by
  simp [State.inj, State.setInj]
theorem State.inj_setInj_ne (s : State) (i j : Nat) (x : Inj) (h : j ≠ i) : (s.setInj i x).inj j = s.inj j := by
  simp only [State.inj, State.setInj]
  exact tabGet_put_ne _ _ _ _ h
@[simp] theorem State.gate_setGate_self (s : State) (i : Nat) (x : Gate) : (s.setGate i x).gate i = x := by
  simp [State.gate, State.setGate]
theorem State.gate_setGate_ne (s : State) (i j : Nat) (x : Gate) (h : j ≠ i) : (s.setGate i x).gate j = s.gate j := by
  simp only [State.gate, State.setGate]
  exact tabGet_put_ne _ _ _ _ h
@[simp] theorem State.chan_setChan_self (s : State) (i : Nat) (x : Chan) : (s.setChan i x).chan i = x := by
  simp [State.chan, State.setChan]
theorem State.chan_setChan_ne (s : State) (i j : Nat) (x : Chan) (h : j ≠ i) : (s.setChan i x).chan j = s.chan j := by
  simp only [State.chan, State.setChan]
  exact tabGet_put_ne _ _ _ _ h
@[simp] theorem State.cipCh_setCipCh_self (s : State) (i : Nat) (x : CipCh) : (s.setCipCh i x).cipCh i = x := by
  simp [State.cipCh, State.setCipCh]
theorem State.cipCh_setCipCh_ne (s : State) (i j : Nat) (x : CipCh) (h : j ≠ i) : (s.setCipCh i x).cipCh j = s.cipCh j := by
  simp only [State.cipCh, State.setCipCh]
  exact tabGet_put_ne _ _ _ _ h
@[simp] theorem State.cipTx_setCipTx_self (s : State) (i : Nat) (x : CipTx) : (s.setCipTx i x).cipTx i = x := by
  simp [State.cipTx, State.setCipTx]
theorem State.cipTx_setCipTx_ne (s : State) (i j : Nat) (x : CipTx) (h : j ≠ i) : (s.setCipTx i x).cipTx j = s.cipTx j := by
  simp only [State.cipTx, State.setCipTx]
  exact tabGet_put_ne _ _ _ _ h
@[simp] theorem State.svc_setSvc_self (s : State) (i : Nat) (x : Svc) : (s.setSvc i x).svc i = x := by
  simp [State.svc, State.setSvc]
theorem State.svc_setSvc_ne (s : State) (i j : Nat) (x : Svc) (h : j ≠ i) : (s.setSvc i x).svc j = s.svc j := by
  simp only [State.svc, State.setSvc]
  exact tabGet_put_ne _ _ _ _ h
@[simp] theorem State.client_setClient_self (s : State) (i : Nat) (x : Client) : (s.setClient i x).client i = x := by
  simp [State.client, State.setClient]
theorem State.client_setClient_ne (s : State) (i j : Nat) (x : Client) (h : j ≠ i) : (s.setClient i x).client j = s.client j := by
  simp only [State.client, State.setClient]
  exact tabGet_put_ne _ _ _ _ h
@[simp] theorem State.lane_setLane_self (s : State) (i : Nat) (x : Lane) : (s.setLane i x).lane i = x := by
  simp [State.lane, State.setLane]
theorem State.lane_setLane_ne (s : State) (i j : Nat) (x : Lane) (h : j ≠ i) : (s.setLane i x).lane j = s.lane j := by
  simp only [State.lane, State.setLane]
  exact tabGet_put_ne _ _ _ _ h
@[simp] theorem State.gfp1_setGfp_self (s : State) (i : Nat) (x : Gfp) : (s.setGfp i x).gfp1 i = x := by
  simp [State.gfp1, State.setGfp]
theorem State.gfp1_setGfp_ne (s : State) (i j : Nat) (x : Gfp) (h : j ≠ i) : (s.setGfp i x).gfp1 j = s.gfp1 j := by
  simp only [State.gfp1, State.setGfp]
  exact tabGet_put_ne _ _ _ _ h
@[simp] theorem State.dc_setDc_self (s : State) (i : Nat) (x : Dc) : (s.setDc i x).dc i = x := by
  simp [State.dc, State.setDc]
theorem State.dc_setDc_ne (s : State) (i j : Nat) (x : Dc) (h : j ≠ i) : (s.setDc i x).dc j = s.dc j := by
  simp only [State.dc, State.setDc]
  exact tabGet_put_ne _ _ _ _ h
@[simp] theorem State.liveAcc_setAcc_self (s : State) (i : Nat) (x : Acc) : (s.setAcc i x).liveAcc i = x := by
  simp [State.liveAcc, State.setAcc]
theorem State.liveAcc_setAcc_ne (s : State) (i j : Nat) (x : Acc) (h : j ≠ i) : (s.setAcc i x).liveAcc j = s.liveAcc j := by
  simp only [State.liveAcc, State.setAcc]
  exact tabGet_put_ne _ _ _ _ h

@[simp] theorem State.setMem_mem_self (s : State) (c i : Nat) (x : Mem) : (s.setMem c i x).mem c i = x := by
  simp [State.mem, State.setMem]
theorem State.setMem_mem_ne (s : State) (c i d j : Nat) (x : Mem) (h : 8 * d + j ≠ 8 * c + i) :
    (s.setMem c i x).mem d j = s.mem d j := by
  simp only [State.mem, State.setMem]
  exact tabGet_put_ne _ _ _ _ h

/-! ### Working registers and local memory of a sequencer -/

@[simp] theorem Seq.reg_setReg_self (x : Seq) (r : Nat) (v : Word) : (x.setReg r v).reg r = v := by
  simp [Seq.reg, Seq.setReg]
theorem Seq.reg_setReg_ne (x : Seq) {r k : Nat} (v : Word) (h : k ≠ r) : (x.setReg r v).reg k = x.reg k := by
  simp only [Seq.reg, Seq.setReg]
  exact tabGet_put_ne _ _ _ _ h
@[simp] theorem Seq.mem_setMem_self (x : Seq) (a : Nat) (v : Word) : (x.setMem a v).mem a = v := by
  simp [Seq.mem, Seq.setMem]
theorem Seq.mem_setMem_ne (x : Seq) {a k : Nat} (v : Word) (h : k ≠ a) : (x.setMem a v).mem k = x.mem k := by
  simp only [Seq.mem, Seq.setMem]
  exact tabGet_put_ne _ _ _ _ h
@[simp] theorem Seq.mem_setReg (x : Seq) (r a : Nat) (v : Word) : (x.setReg r v).mem a = x.mem a := rfl

end Sys2Proof.Machine
end

