-- ==== Sys2Proof/Laws/Events.lean ====
section
/-!
SUPPORT. What the delivery of an event does, and what it leaves alone.
-/

namespace Sys2Proof.Machine

/-- A loop keeps what each of its rounds keeps. -/
theorem forEach_keeps {α β : Type} (g : State → β) (f : α → State → State) (h : ∀ a s, g (f a s) = g s) (l : List α)
    (s : State) : g (forEach f l s) = g s := by
  induction l generalizing s with
  | nil => rfl
  | cons a l ih => simp only [forEach]; rw [ih, h]

/-- A loop over a list keeps what each round over one of its members keeps. -/
theorem forEach_keeps_mem {α β : Type} (g : State → β) (f : α → State → State) (l : List α)
    (h : ∀ a ∈ l, ∀ s, g (f a s) = g s) (s : State) : g (forEach f l s) = g s := by
  induction l generalizing s with
  | nil => rfl
  | cons a l ih =>
    simp only [forEach]
    rw [ih (fun b hb => h b (List.mem_cons_of_mem a hb)), h a (List.mem_cons_self ..)]

theorem State.signalVec_regs (s : State) (f v : Nat) : (s.signalVec f v).regs = s.regs := by
  unfold State.signalVec; dsimp only; split <;> rfl

theorem State.signalEvent_regs (s : State) (e : Nat) : (s.signalEvent e).regs = s.regs := by
  unfold State.signalEvent
  dsimp only
  repeat' split
  all_goals first | rfl | exact State.signalVec_regs _ _ _

theorem State.deliverSeqs_regs (s : State) (e : Nat) (d : Word) : (s.deliverSeqs e d).regs = s.regs := by
  unfold State.deliverSeqs
  generalize programSqs = l
  refine forEach_keeps State.regs _ (fun _ _ => ?_) _ _
  rfl

theorem mem_eventKeys_pend {j : Nat} (h : j < 6) : fldKey F.GLB_EVT_PEND_bits [j] ∈ eventKeys := by
  interval_cases j <;> decide

theorem mem_eventKeys_inj {q : Nat} (h : q < 16) :
    fldKey F.MON_INJ_STAT_merged [q] ∈ eventKeys ∧ fldKey F.MON_INJ_STAT_status [q] ∈ eventKeys := by
  interval_cases q <;> decide

@[simp] theorem State.pryTx_regs (s : State) (p : Nat) (m : PryMsg) : (s.pryTx p m).regs = s.regs := by
  unfold State.pryTx; split <;> rfl

theorem State.forwardEvent_regs (s : State) (e d : Nat) : (s.forwardEvent e d).regs = s.regs := by
  unfold State.forwardEvent
  split
  · split
    · exact State.pryTx_regs _ _ _
    · rfl
  · rfl

/-- The register fields that the trigger of a capture writes. -/
def capFields : List Fld :=
  [F.CNV_CAP_STAT_state, F.CNV_CAP_STAT_pre_short, F.CNV_CAP_STAT_hb, F.CNV_CAP_STAT_missed, F.CNV_CAP_TIME_H_value,
   F.CNV_CAP_TIME_L_value, F.CNV_CAP_SF_value]

theorem mem_eventKeys_cap {i : Nat} (h : i < 8) (f : Fld) (hf : f ∈ capFields) : fldKey f [i] ∈ eventKeys :=
  List.mem_map.mpr ⟨(f, [i]), List.mem_append_right _ (List.mem_flatMap.mpr ⟨i, by interval_cases i <;> decide,
    List.mem_map.mpr ⟨f, hf, rfl⟩⟩), rfl⟩

/-- The trigger of a capture writes its status, its instant and its superframe, and no other register field (R201 to R203). -/
theorem State.fireCapture_rd (s : State) (i : Nat) (g : Fld) (js : List Nat)
    (ne : ∀ f ∈ capFields, fldKey g js ≠ fldKey f [i]) : (s.fireCapture i).rd g js = s.rd g js := by
  have w : ∀ f ∈ capFields, ∀ (v : Nat) (t : State), (t.wr f v [i]).rd g js = t.rd g js :=
    fun f hf v t => State.rd_wr_ne t f g v [i] js (ne f hf)
  have w1 := w F.CNV_CAP_STAT_state (by simp [capFields])
  have w2 := w F.CNV_CAP_STAT_pre_short (by simp [capFields])
  have w3 := w F.CNV_CAP_STAT_hb (by simp [capFields])
  have w4 := w F.CNV_CAP_TIME_H_value (by simp [capFields])
  have w5 := w F.CNV_CAP_TIME_L_value (by simp [capFields])
  have w6 := w F.CNV_CAP_SF_value (by simp [capFields])
  unfold State.fireCapture
  dsimp only
  generalize (match s.capture.handBack with
    | some t => decide (instantsIn (baudOf (s.cur F.RXD_MODE_CFG_baud [i])) (s.tim.now - t) < _)
    | none => false) = inside
  repeat' split
  all_goals simp only [w1, w2, w3, w4, w5, w6]

theorem State.captureTrigger_rd_of (s : State) (k n : Nat) (g : Fld) (js : List Nat)
    (ne : ∀ f ∈ capFields, ∀ i < 8, fldKey g js ≠ fldKey f [i]) : (s.captureTrigger k n).rd g js = s.rd g js := by
  unfold State.captureTrigger
  split
  · rfl
  · rename_i i hi
    dsimp only
    generalize (if k = 1 then s.capture.timer else s.capture.event) = want
    split
    · split
      · exact State.fireCapture_rd _ _ _ _ fun f hf => ne f hf i i.isLt
      · unfold State.stick
        split
        · rfl
        · exact State.rd_wr_ne _ _ _ _ _ _ (ne _ (by simp [capFields]) i i.isLt)
    · rfl

theorem State.captureTrigger_rd (s : State) (k n : Nat) (g : Fld) (js : List Nat) (h : fldKey g js ∉ eventKeys) :
    (s.captureTrigger k n).rd g js = s.rd g js :=
  State.captureTrigger_rd_of s k n g js fun f hf _ hi e => h (e ▸ mem_eventKeys_cap hi f hf)

theorem State.injTrigger_rd (s : State) (q : Nat) (g : Fld) (js : List Nat)
    (h1 : fldKey g js ≠ fldKey F.MON_INJ_STAT_merged [q]) (h2 : fldKey g js ≠ fldKey F.MON_INJ_STAT_status [q]) :
    (s.injTrigger q).rd g js = s.rd g js := by
  unfold State.injTrigger
  dsimp only
  split
  · exact State.rd_wr_ne _ _ _ _ _ _ h1
  · rw [State.rd_wr_ne _ _ _ _ _ _ h2]; simp

theorem State.injEvent_rd (s : State) (e : Nat) (g : Fld) (js : List Nat) (h : fldKey g js ∉ eventKeys) :
    (s.injEvent e).rd g js = s.rd g js := by
  unfold State.injEvent
  refine forEach_keeps_mem (fun t => t.rd g js) _ _ (fun q hq t => ?_) s
  have hq' := List.mem_range.mp hq
  have hk := mem_eventKeys_inj hq'
  split
  · have h1 : fldKey g js ≠ fldKey F.MON_INJ_STAT_merged [q] := fun e => h (e ▸ hk.1)
    have h2 : fldKey g js ≠ fldKey F.MON_INJ_STAT_status [q] := fun e => h (e ▸ hk.2)
    exact (State.injTrigger_rd _ q g js h1 h2).trans (State.setInj_rd ..)
  · rfl

/-- An event leaves every register field alone that event delivery does not write. -/
theorem State.raise_rd (s : State) (e d : Nat) (g : Fld) (js : List Nat) (h : fldKey g js ∉ eventKeys) :
    (s.raise e d).rd g js = s.rd g js := by
  unfold State.raise
  dsimp only
  rw [State.captureTrigger_rd _ _ _ _ _ h, State.injEvent_rd _ _ _ _ h]
  simp only [State.rd, State.forwardEvent_regs, State.signalEvent_regs, State.deliverSeqs_regs]
  by_cases he : e < 128
  · have hj : e / 24 < 6 := by omega
    have hk := mem_eventKeys_pend hj
    simp only [he, if_true]
    exact State.rd_wr_ne _ _ _ _ _ _ (fun e => h (e ▸ hk))
  · simp only [he, if_false]

theorem State.signalVec_noEvents (s : State) (f v : Nat) : (s.signalVec f v).noEvents = s.noEvents := by
  unfold State.signalVec; dsimp only; split <;> rfl

theorem State.signalEvent_noEvents (s : State) (e : Nat) : (s.signalEvent e).noEvents = s.noEvents := by
  unfold State.signalEvent
  dsimp only
  repeat' split
  all_goals first | rfl | exact State.signalVec_noEvents _ _ _

theorem State.deliverSeqs_noEvents (s : State) (e : Nat) (d : Word) : (s.deliverSeqs e d).noEvents = s.noEvents := by
  unfold State.deliverSeqs
  generalize programSqs = l
  refine forEach_keeps State.noEvents _ (fun _ _ => ?_) _ _
  rfl

theorem State.pryTx_noEvents (s : State) (p : Nat) (m : PryMsg) : (s.pryTx p m).noEvents = s.noEvents := by
  unfold State.pryTx; split <;> rfl

theorem State.forwardEvent_noEvents (s : State) (e d : Nat) : (s.forwardEvent e d).noEvents = s.noEvents := by
  unfold State.forwardEvent
  split
  · split
    · exact State.pryTx_noEvents _ _ _
    · rfl
  · rfl

theorem State.injTrigger_noEvents (s : State) (q : Nat) : (s.injTrigger q).noEvents = s.noEvents := by
  unfold State.injTrigger
  dsimp only
  split <;> rfl

theorem State.injEvent_noEvents (s : State) (e : Nat) : (s.injEvent e).noEvents = s.noEvents := by
  unfold State.injEvent
  generalize List.range 16 = l
  refine forEach_keeps State.noEvents _ (fun q t => ?_) _ _
  split
  · rw [State.injTrigger_noEvents]; rfl
  · rfl

theorem State.fireCapture_noEvents (s : State) (i : Nat) : (s.fireCapture i).noEvents = s.noEvents := by
  unfold State.fireCapture
  dsimp only
  repeat' split
  all_goals rfl

theorem State.captureTrigger_noEvents (s : State) (k n : Nat) : (s.captureTrigger k n).noEvents = s.noEvents := by
  unfold State.captureTrigger
  split
  · rfl
  · dsimp only
    generalize (if k = 1 then _ else _ : Nat) = want
    split
    · split
      · exact State.fireCapture_noEvents _ _
      · unfold State.stick; split <;> rfl
    · rfl

/-- An event reaches nothing beyond the parts that `State.noEvents` leaves out. -/
theorem State.raise_noEvents (s : State) (e d : Nat) : (s.raise e d).noEvents = s.noEvents := by
  unfold State.raise
  dsimp only
  rw [State.captureTrigger_noEvents, State.injEvent_noEvents, State.forwardEvent_noEvents, State.signalEvent_noEvents, State.deliverSeqs_noEvents]
  split <;> rfl

theorem State.noEvents_pending (s : State) : s.noEvents.pending = s.pending := rfl
@[simp] theorem State.raise_pending (s : State) (e d : Nat) : (s.raise e d).pending = s.pending := by
  rw [← State.noEvents_pending, State.raise_noEvents, State.noEvents_pending]
theorem State.noEvents_ctl (s : State) : s.noEvents.ctl = s.ctl := rfl
@[simp] theorem State.raise_ctl (s : State) (e d : Nat) : (s.raise e d).ctl = s.ctl := by
  rw [← State.noEvents_ctl, State.raise_noEvents, State.noEvents_ctl]
theorem State.noEvents_exec (s : State) : s.noEvents.exec = s.exec := rfl
@[simp] theorem State.raise_exec (s : State) (e d : Nat) : (s.raise e d).exec = s.exec := by
  rw [← State.noEvents_exec, State.raise_noEvents, State.noEvents_exec]
theorem State.noEvents_queues (s : State) : s.noEvents.queues = s.queues := rfl
@[simp] theorem State.raise_queues (s : State) (e d : Nat) : (s.raise e d).queues = s.queues := by
  rw [← State.noEvents_queues, State.raise_noEvents, State.noEvents_queues]
theorem State.noEvents_vtg (s : State) : s.noEvents.vtg = s.vtg := rfl
@[simp] theorem State.raise_vtg (s : State) (e d : Nat) : (s.raise e d).vtg = s.vtg := by
  rw [← State.noEvents_vtg, State.raise_noEvents, State.noEvents_vtg]
theorem State.noEvents_tim (s : State) : s.noEvents.tim = s.tim := rfl
@[simp] theorem State.raise_tim (s : State) (e d : Nat) : (s.raise e d).tim = s.tim := by
  rw [← State.noEvents_tim, State.raise_noEvents, State.noEvents_tim]
theorem State.noEvents_conv (s : State) : s.noEvents.conv = s.conv := rfl
@[simp] theorem State.raise_conv (s : State) (e d : Nat) : (s.raise e d).conv = s.conv := by
  rw [← State.noEvents_conv, State.raise_noEvents, State.noEvents_conv]
theorem State.noEvents_calEng (s : State) : s.noEvents.calEng = s.calEng := rfl
@[simp] theorem State.raise_calEng (s : State) (e d : Nat) : (s.raise e d).calEng = s.calEng := by
  rw [← State.noEvents_calEng, State.raise_noEvents, State.noEvents_calEng]
theorem State.noEvents_capture (s : State) : s.noEvents.capture = s.capture := rfl
@[simp] theorem State.raise_capture (s : State) (e d : Nat) : (s.raise e d).capture = s.capture := by
  rw [← State.noEvents_capture, State.raise_noEvents, State.noEvents_capture]
theorem State.noEvents_rx (s : State) : s.noEvents.rx = s.rx := rfl
@[simp] theorem State.raise_rx (s : State) (e d : Nat) : (s.raise e d).rx = s.rx := by
  rw [← State.noEvents_rx, State.raise_noEvents, State.noEvents_rx]
theorem State.noEvents_tx (s : State) : s.noEvents.tx = s.tx := rfl
@[simp] theorem State.raise_tx (s : State) (e d : Nat) : (s.raise e d).tx = s.tx := by
  rw [← State.noEvents_tx, State.raise_noEvents, State.noEvents_tx]
theorem State.noEvents_pool (s : State) : s.noEvents.pool = s.pool := rfl
@[simp] theorem State.raise_pool (s : State) (e d : Nat) : (s.raise e d).pool = s.pool := by
  rw [← State.noEvents_pool, State.raise_noEvents, State.noEvents_pool]
theorem State.noEvents_align (s : State) : s.noEvents.align = s.align := rfl
@[simp] theorem State.raise_align (s : State) (e d : Nat) : (s.raise e d).align = s.align := by
  rw [← State.noEvents_align, State.raise_noEvents, State.noEvents_align]
theorem State.noEvents_tdl (s : State) : s.noEvents.tdl = s.tdl := rfl
@[simp] theorem State.raise_tdl (s : State) (e d : Nat) : (s.raise e d).tdl = s.tdl := by
  rw [← State.noEvents_tdl, State.raise_noEvents, State.noEvents_tdl]
theorem State.noEvents_lfr (s : State) : s.noEvents.lfr = s.lfr := rfl
@[simp] theorem State.raise_lfr (s : State) (e d : Nat) : (s.raise e d).lfr = s.lfr := by
  rw [← State.noEvents_lfr, State.raise_noEvents, State.noEvents_lfr]
theorem State.noEvents_mems (s : State) : s.noEvents.mems = s.mems := rfl
@[simp] theorem State.raise_mems (s : State) (e d : Nat) : (s.raise e d).mems = s.mems := by
  rw [← State.noEvents_mems, State.raise_noEvents, State.noEvents_mems]
theorem State.noEvents_chans (s : State) : s.noEvents.chans = s.chans := rfl
@[simp] theorem State.raise_chans (s : State) (e d : Nat) : (s.raise e d).chans = s.chans := by
  rw [← State.noEvents_chans, State.raise_noEvents, State.noEvents_chans]
theorem State.noEvents_cip (s : State) : s.noEvents.cip = s.cip := rfl
@[simp] theorem State.raise_cip (s : State) (e d : Nat) : (s.raise e d).cip = s.cip := by
  rw [← State.noEvents_cip, State.raise_noEvents, State.noEvents_cip]
theorem State.noEvents_svcSol (s : State) : s.noEvents.svcSol = s.svcSol := rfl
@[simp] theorem State.raise_svcSol (s : State) (e d : Nat) : (s.raise e d).svcSol = s.svcSol := by
  rw [← State.noEvents_svcSol, State.raise_noEvents, State.noEvents_svcSol]
theorem State.noEvents_clients (s : State) : s.noEvents.clients = s.clients := rfl
@[simp] theorem State.raise_clients (s : State) (e d : Nat) : (s.raise e d).clients = s.clients := by
  rw [← State.noEvents_clients, State.raise_noEvents, State.noEvents_clients]
theorem State.noEvents_gfp (s : State) : s.noEvents.gfp = s.gfp := rfl
@[simp] theorem State.raise_gfp (s : State) (e d : Nat) : (s.raise e d).gfp = s.gfp := by
  rw [← State.noEvents_gfp, State.raise_noEvents, State.noEvents_gfp]
theorem State.noEvents_lanes (s : State) : s.noEvents.lanes = s.lanes := rfl
@[simp] theorem State.raise_lanes (s : State) (e d : Nat) : (s.raise e d).lanes = s.lanes := by
  rw [← State.noEvents_lanes, State.raise_noEvents, State.noEvents_lanes]
theorem State.noEvents_calendars (s : State) : s.noEvents.calendars = s.calendars := rfl
@[simp] theorem State.raise_calendars (s : State) (e d : Nat) : (s.raise e d).calendars = s.calendars := by
  rw [← State.noEvents_calendars, State.raise_noEvents, State.noEvents_calendars]
theorem State.noEvents_cel (s : State) : s.noEvents.cel = s.cel := rfl
@[simp] theorem State.raise_cel (s : State) (e d : Nat) : (s.raise e d).cel = s.cel := by
  rw [← State.noEvents_cel, State.raise_noEvents, State.noEvents_cel]
theorem State.noEvents_cask (s : State) : s.noEvents.cask = s.cask := rfl
@[simp] theorem State.raise_cask (s : State) (e d : Nat) : (s.raise e d).cask = s.cask := by
  rw [← State.noEvents_cask, State.raise_noEvents, State.noEvents_cask]
theorem State.noEvents_free (s : State) : s.noEvents.free = s.free := rfl
@[simp] theorem State.raise_free (s : State) (e d : Nat) : (s.raise e d).free = s.free := by
  rw [← State.noEvents_free, State.raise_noEvents, State.noEvents_free]

theorem State.captureTrigger_pend (s : State) (k n j : Nat) (hj : j < 6) :
    (s.captureTrigger k n).rd F.GLB_EVT_PEND_bits [j] = s.rd F.GLB_EVT_PEND_bits [j] := by
  refine State.captureTrigger_rd_of s k n _ _ fun f hf i hi => ?_
  simp only [capFields, List.mem_cons, List.not_mem_nil, or_false] at hf
  rcases hf with rfl | rfl | rfl | rfl | rfl | rfl | rfl <;>
    simp [fldKey, fldAddr, idxOffset, F.GLB_EVT_PEND_bits, F.CNV_CAP_STAT_state, F.CNV_CAP_STAT_pre_short,
      F.CNV_CAP_STAT_hb, F.CNV_CAP_STAT_missed, F.CNV_CAP_TIME_H_value, F.CNV_CAP_TIME_L_value, F.CNV_CAP_SF_value] <;> omega

/-- The pending words after the delivery of an event, but for the event's own bit, are those before it. -/
theorem State.raise_tail_rd (s : State) (e d : Nat) (j : Nat) (hj : j < 6) :
    (((((s.deliverSeqs e (BitVec.ofNat 24 d)).signalEvent e).forwardEvent e d).injEvent e).captureTrigger 2 e).rd
      F.GLB_EVT_PEND_bits [j] = s.rd F.GLB_EVT_PEND_bits [j] := by
  rw [State.captureTrigger_pend _ _ _ _ hj]
  unfold State.injEvent
  rw [forEach_keeps_mem (fun t => t.rd F.GLB_EVT_PEND_bits [j])]
  · simp only [State.rd, State.forwardEvent_regs, State.signalEvent_regs, State.deliverSeqs_regs]
  · intro q hq t
    have hq' := List.mem_range.mp hq
    split
    · refine State.injTrigger_rd _ _ _ _ ?_ ?_ <;>
        simp [fldKey, fldAddr, idxOffset, F.GLB_EVT_PEND_bits, F.MON_INJ_STAT_merged, F.MON_INJ_STAT_status] <;> omega
    · rfl

/-- A device event that is raised is pending (R542). -/
theorem State.raise_pends (s : State) (e d : Nat) (h : e < 128) : (s.raise e d).pends e = true := by
  unfold State.pends State.raise
  dsimp only
  rw [State.raise_tail_rd _ _ _ _ (by omega)]
  simp only [h, if_true, State.rd_wr_self, decide_eq_true_eq]
  have hb : e % 24 < 24 := Nat.mod_lt _ (by decide)
  have hw : fldWidth F.GLB_EVT_PEND_bits = 24 := rfl
  have ht : Nat.testBit ((s.rd F.GLB_EVT_PEND_bits [e / 24] ||| 2 ^ (e % 24)) % 2 ^ 24) (e % 24) = true := by
    rw [Nat.testBit_mod_two_pow]
    simp [Nat.testBit_or, Nat.testBit_two_pow_self, hb]
  rw [hw]
  simpa [Nat.testBit_eq_decide_div_mod_eq] using ht

end Sys2Proof.Machine
end

