-- ==== Sys2Proof/Laws/Memory.lean ====
section
/-!
SUPPORT. Every operation over the addressed memories keeps their canonical form, and a read after a write of the cask, the
scratch and a memory row.
-/

namespace Sys2Proof.Machine

variable {α : Type}

/-- A table with entries removed keeps the canonical form. -/
theorem tabWfFrom_filter [DecidableEq α] (d : α) (t : Tab α) (lo : Nat) (p : Nat × α → Bool)
    (w : tabWfFrom d lo t = true) : tabWfFrom d lo (t.filter p) = true := by
  induction t generalizing lo with
  | nil => rfl
  | cons e t ih =>
    obtain ⟨k, v⟩ := e
    simp only [tabWfFrom, Bool.and_eq_true, decide_eq_true_eq] at w
    by_cases h : p (k, v) = true
    · simp only [List.filter_cons, h, if_true, tabWfFrom, Bool.and_eq_true, decide_eq_true_eq]
      exact ⟨w.1, ih _ w.2⟩
    · simp only [List.filter_cons, h]
      exact tabWfFrom_mono d _ (by omega) (ih _ w.2)

theorem tabWf_filter [DecidableEq α] (d : α) (t : Tab α) (p : Nat × α → Bool) (w : tabWf d t = true) :
    tabWf d (t.filter p) = true := tabWfFrom_filter d t 0 p w

/-- What holds of every entry and of the value written holds of every entry after a write. -/
theorem all_put [DecidableEq α] (d : α) (t : Tab α) (n : Nat) (v : α) (p : α → Bool) (hv : p v = true)
    (w : (t.all fun e => p e.2) = true) : ((tabPut d t n v).all fun e => p e.2) = true := by
  have er : ((tabErase t n).all fun e => p e.2) = true := by
    clear hv
    induction t with
    | nil => rfl
    | cons e t ih =>
      obtain ⟨k, x⟩ := e
      simp only [List.all_cons, Bool.and_eq_true] at w
      by_cases h : k = n <;> simp [tabErase, h, ih w.2, w.1]
  have ins : ((tabIns t n v).all fun e => p e.2) = true := by
    clear er
    induction t with
    | nil => simp [tabIns, hv]
    | cons e t ih =>
      obtain ⟨k, x⟩ := e
      simp only [List.all_cons, Bool.and_eq_true] at w
      by_cases h : n = k
      · simp [tabIns, h, hv]; simpa using w.2
      · by_cases hl : n < k
        · simp only [tabIns, h, hl, if_true, if_false, List.all_cons, Bool.and_eq_true]; exact ⟨hv, w.1, w.2⟩
        · simp only [tabIns, h, hl, if_false, List.all_cons, Bool.and_eq_true]; exact ⟨w.1, ih w.2⟩
  by_cases h : v = d
  · simp only [tabPut, h, if_true]; exact er
  · simp only [tabPut, h, if_false]; exact ins

/-- What holds of every entry and of the value of an unlisted index holds of every read. -/
theorem all_get (d : α) (t : Tab α) (n : Nat) (p : α → Bool) (hd : p d = true) (w : (t.all fun e => p e.2) = true) :
    p (tabGet d t n) = true := by
  induction t with
  | nil => exact hd
  | cons e t ih =>
    obtain ⟨k, x⟩ := e
    simp only [List.all_cons, Bool.and_eq_true] at w
    by_cases h : k = n
    · simp [tabGet, h, w.1]
    · simp [tabGet, h, ih w.2]

/-- The parts of the state that hold the addressed memories. -/
theorem State.memWf_iff (s : State) : s.memWf = true ↔
    tabWf none s.exec.store = true ∧ tabWf none s.exec.loadBuf = true ∧ tabWf 255 s.cask = true ∧ tabWf 0 s.hif.hostMem = true
      ∧ s.cel.wf = true ∧ (s.seqs.all fun e => tabWf 0 e.2.scratch) = true := by
  simp [State.memWf, Cel.wf, Bool.and_eq_true, and_assoc]

/-- The parts of the cellar and of the on-chip memories that have a canonical form. -/
theorem Cel.wf_iff (c : Cel) : c.wf = true ↔
    tabWf false c.rows = true ∧ tabWf [] c.bad = true ∧ tabWf [] c.blocks = true ∧ tabWf false c.lines = true
      ∧ tabWf [] c.hard = true := by
  simp [Cel.wf, Bool.and_eq_true, and_assoc]

/-- A state with another cellar in canonical form keeps the memories' form. -/
theorem State.withCel_memWf (s : State) (c : Cel) (h : s.memWf = true) (hc : c.wf = true) :
    ({ s with cel := c } : State).memWf = true := by
  obtain ⟨h1, h2, h3, h4, _, h6⟩ := (State.memWf_iff s).mp h
  exact (State.memWf_iff _).mpr ⟨h1, h2, h3, h4, hc, h6⟩

theorem State.memWf_cel {s : State} (h : s.memWf = true) : s.cel.wf = true := ((State.memWf_iff s).mp h).2.2.2.2.1

/-- Two states with the same memories agree on their form. -/
theorem State.memWf_congr {s t : State} (h1 : t.exec.store = s.exec.store) (h2 : t.exec.loadBuf = s.exec.loadBuf)
    (h3 : t.cask = s.cask) (h4 : t.hif.hostMem = s.hif.hostMem) (h5 : t.cel = s.cel) (h6 : t.seqs = s.seqs) :
    t.memWf = s.memWf := by
  simp [State.memWf, h1, h2, h3, h4, h5, h6]

@[simp] theorem State.wr_memWf (s : State) (f : Fld) (v : Nat) (is : List Nat) : (s.wr f v is).memWf = s.memWf := rfl
@[simp] theorem State.count_memWf (s : State) (i n : Nat) : (s.count i n).memWf = s.memWf := rfl

theorem State.seq_scratch_wf (s : State) (q : Nat) (h : s.memWf = true) : tabWf 0 (s.seq q).scratch = true :=
  all_get Seq.idle s.seqs q (fun x => tabWf 0 x.scratch) rfl ((State.memWf_iff s).mp h).2.2.2.2.2

/-- A sequencer whose scratch has its form is put back. -/
theorem State.setSeq_memWf (s : State) (q : Nat) (x : Seq) (h : s.memWf = true) (hx : tabWf 0 x.scratch = true) :
    (s.setSeq q x).memWf = true := by
  obtain ⟨h1, h2, h3, h4, h5, h6⟩ := (State.memWf_iff s).mp h
  exact (State.memWf_iff _).mpr ⟨h1, h2, h3, h4, h5, all_put Seq.idle s.seqs q x (fun x => tabWf 0 x.scratch) hx h6⟩

theorem forEach_memWf (f : α → State → State) (l : List α) (h : ∀ a s, s.memWf = true → (f a s).memWf = true) (s : State)
    (hs : s.memWf = true) : (forEach f l s).memWf = true := by
  induction l generalizing s with
  | nil => exact hs
  | cons a l ih => exact ih _ (h a s hs)

theorem Seq.deliver_scratch (x : Seq) (e : Nat) (d : Word) : (x.deliver e d).scratch = x.scratch := by
  unfold Seq.deliver; split <;> rfl

theorem State.deliverSeqs_memWf (s : State) (e : Nat) (d : Word) (h : s.memWf = true) : (s.deliverSeqs e d).memWf = true := by
  unfold State.deliverSeqs
  generalize programSqs = l
  refine forEach_memWf _ _ (fun q t ht => ?_) s h
  exact State.setSeq_memWf t q _ ht (by rw [Seq.deliver_scratch]; exact State.seq_scratch_wf t q ht)

theorem State.signalVec_memWf (s : State) (f v : Nat) : (s.signalVec f v).memWf = s.memWf := by
  unfold State.signalVec; dsimp only; split <;> rfl

theorem State.signalEvent_memWf (s : State) (e : Nat) : (s.signalEvent e).memWf = s.memWf := by
  unfold State.signalEvent
  dsimp only
  repeat' split
  all_goals first | rfl | exact State.signalVec_memWf _ _ _

theorem State.pryTx_memWf (s : State) (p : Nat) (m : PryMsg) : (s.pryTx p m).memWf = s.memWf := by
  unfold State.pryTx; split <;> rfl

theorem State.forwardEvent_memWf (s : State) (e d : Nat) : (s.forwardEvent e d).memWf = s.memWf := by
  unfold State.forwardEvent
  split
  · split
    · exact State.pryTx_memWf _ _ _
    · rfl
  · rfl

theorem State.injTrigger_memWf (s : State) (q : Nat) : (s.injTrigger q).memWf = s.memWf := by
  unfold State.injTrigger; dsimp only; split <;> rfl

theorem State.injEvent_memWf (s : State) (e : Nat) (h : s.memWf = true) : (s.injEvent e).memWf = true := by
  unfold State.injEvent
  refine forEach_memWf _ _ (fun q t ht => ?_) s h
  split
  · rw [State.injTrigger_memWf]; exact ht
  · exact ht

theorem State.fireCapture_memWf (s : State) (i : Nat) : (s.fireCapture i).memWf = s.memWf := by
  unfold State.fireCapture
  dsimp only
  repeat' split
  all_goals rfl

theorem State.captureTrigger_memWf (s : State) (k n : Nat) : (s.captureTrigger k n).memWf = s.memWf := by
  unfold State.captureTrigger
  split
  · rfl
  · dsimp only
    generalize (if k = 1 then _ else _ : Nat) = want
    split
    · split
      · exact State.fireCapture_memWf _ _
      · unfold State.stick; split <;> rfl
    · rfl

/-- An event keeps the memories' form. -/
theorem State.raise_memWf (s : State) (e d : Nat) (h : s.memWf = true) : (s.raise e d).memWf = true := by
  unfold State.raise
  dsimp only
  rw [State.captureTrigger_memWf]
  apply State.injEvent_memWf
  rw [State.forwardEvent_memWf, State.signalEvent_memWf]
  apply State.deliverSeqs_memWf
  split <;> exact h

/-- A row of a memory class is stored: the memories keep their form. -/
theorem State.putRow_memWf (s : State) (cls row : Nat) (h : s.memWf = true) : (s.putRow cls row).memWf = true := by
  obtain ⟨h1, h2, h3, h4⟩ := (Cel.wf_iff _).mp (State.memWf_cel h)
  refine State.withCel_memWf s _ h ((Cel.wf_iff _).mpr ⟨?_, ?_, h3, h4⟩)
  · dsimp only; exact tabWf_put _ _ _ _ h1
  · dsimp only; exact tabWf_put _ _ _ _ h2

/-- A write to a memory row keeps the memories' form. -/
theorem State.memWrite_memWf (s : State) (cls row : Nat) (whole : Bool) (h : s.memWf = true) :
    (s.memWrite cls row whole).2.memWf = true := by
  unfold State.memWrite
  split
  · exact State.putRow_memWf _ _ _ h
  · split
    · exact State.putRow_memWf _ _ _ h
    · exact State.putRow_memWf _ _ _ h
    · exact h

/-- A read of a memory row keeps the memories' form. -/
theorem State.memRead_memWf (s : State) (cls row : Nat) (h : s.memWf = true) : (s.memRead cls row).2.memWf = true := by
  obtain ⟨h1, h2, h3, h4⟩ := (Cel.wf_iff _).mp (State.memWf_cel h)
  unfold State.memRead
  dsimp only
  split
  · exact h
  · split
    · exact h
    · have fixed : ({ s with cel := { s.cel with bad := tabPut [] s.cel.bad (rowKey cls row) [] } } : State).memWf = true := by
        refine State.withCel_memWf s _ h ((Cel.wf_iff _).mpr ⟨h1, ?_, h3, h4⟩)
        dsimp only; exact tabWf_put _ _ _ _ h2
      dsimp only; rw [State.count_memWf]; exact fixed
    · dsimp only
      apply State.raise_memWf
      rw [State.count_memWf]; exact h

/-- A fold of writes keeps the canonical form. -/
theorem tabWf_foldl [DecidableEq α] {β : Type} (d : α) (f : β → Nat) (g : β → α) (l : List β) (t : Tab α) (w : tabWf d t = true) :
    tabWf d (l.foldl (fun b e => tabPut d b (f e) (g e)) t) = true := by
  induction l generalizing t with
  | nil => exact w
  | cons e l ih => exact ih _ (tabWf_put _ _ _ _ w)

/-- Images of the vintage store written keep the memories' form. -/
theorem State.vintSet_memWf (s : State) (ds : List (Nat × Nat)) (h : s.memWf = true) : (s.vintSet ds).memWf = true := by
  obtain ⟨h1, h2, h3, h4⟩ := (Cel.wf_iff _).mp (State.memWf_cel h)
  unfold State.vintSet
  dsimp only
  split
  · refine State.putRow_memWf _ _ _ (State.withCel_memWf s _ h ((Cel.wf_iff _).mpr ⟨?_, ?_, h3, h4⟩))
    · exact tabWf_foldl false _ _ _ _ h1
    · exact tabWf_foldl [] _ _ _ _ (tabWf_filter _ _ _ h2)
  · refine State.withCel_memWf s _ h ((Cel.wf_iff _).mpr ⟨?_, ?_, h3, h4⟩)
    · exact tabWf_foldl false _ _ _ _ h1
    · exact tabWf_foldl [] _ _ _ _ (tabWf_filter _ _ _ h2)

/-- A block of the cellar stored as given, and a line opened, keep the memories' form. -/
theorem State.putBlock_memWf (s : State) (b : Nat) (w : List Nat) (h : s.memWf = true) : (s.putBlock b w).memWf = true := by
  obtain ⟨h1, h2, h3, h4, h5⟩ := (Cel.wf_iff _).mp (State.memWf_cel h)
  refine State.withCel_memWf s _ h ((Cel.wf_iff _).mpr ⟨h1, h2, ?_, ?_, h5⟩)
  · dsimp only; exact tabWf_put _ _ _ _ h3
  · dsimp only; exact tabWf_put _ _ _ _ h4

theorem State.openLine_memWf (s : State) (b : Nat) (h : s.memWf = true) : (s.openLine b).memWf = true := by
  obtain ⟨h1, h2, h3, h4, h5⟩ := (Cel.wf_iff _).mp (State.memWf_cel h)
  unfold State.openLine
  split
  · exact h
  · dsimp only
    rw [State.count_memWf]
    refine State.withCel_memWf s _ h ((Cel.wf_iff _).mpr ⟨h1, h2, ?_, ?_, h5⟩)
    · dsimp only; exact tabWf_filter _ _ _ h3
    · dsimp only; exact tabWf_put _ _ _ _ h4

/-- What a corrected and a poisoned block set keeps the memories' form. -/
theorem State.celCorrected_memWf (s : State) (r c l : Nat) (h : s.memWf = true) : (s.celCorrected r c l).memWf = true := by
  unfold State.celCorrected
  exact h

theorem State.celPoisoned_memWf (s : State) (r c l : Nat) (h : s.memWf = true) : (s.celPoisoned r c l).memWf = true := by
  unfold State.celPoisoned
  apply State.raise_memWf
  exact h

/-- A read of a block, with its write-back, keeps the memories' form. -/
theorem State.readBlock_memWf (s : State) (b : Nat) (errs : List (Nat × Nat)) (h : s.memWf = true) :
    (s.readBlock b errs).2.2.2.memWf = true := by
  unfold State.readBlock
  dsimp only
  split
  · exact h
  · split
    · exact h
    · dsimp only; exact State.celCorrected_memWf _ _ _ _ (State.putBlock_memWf _ _ _ h)
    · dsimp only
      apply State.celPoisoned_memWf
      apply State.putBlock_memWf
      exact h

theorem State.readBlocks_memWf (bs : List Nat) (s : State) (errs : List (Nat × Nat × Nat)) (h : s.memWf = true) :
    (s.readBlocks errs bs).2.2.2.memWf = true := by
  induction bs generalizing s with
  | nil => exact h
  | cons b bs ih => exact ih _ (State.readBlock_memWf _ _ _ h)

/-- A write of a whole block keeps the memories' form. -/
theorem State.writeBlock_memWf (s : State) (b : Nat) (data : List Nat) (h : s.memWf = true) : (s.writeBlock b data).memWf = true :=
  State.putBlock_memWf _ _ _ (State.openLine_memWf _ _ h)

/-- A word put into the scratch keeps the memories' form. -/
theorem State.putScratch_memWf (s : State) (q a : Nat) (w : Word) (h : s.memWf = true) : (s.putScratch q a w).memWf = true := by
  have hw := State.memWrite_memWf s 5 (scratchRow q a) false h
  unfold State.putScratch
  dsimp only
  split
  · exact State.setSeq_memWf _ _ _ hw (tabWf_put _ _ _ _ (State.seq_scratch_wf _ _ hw))
  · exact hw

theorem State.putWords_memWf (ws : List Word) (s : State) (q a : Nat) (h : s.memWf = true) : (s.putWords q a ws).memWf = true := by
  induction ws generalizing s a with
  | nil => exact h
  | cons w ws ih => exact ih _ _ (State.putScratch_memWf s q a w h)

/-- Programming the cask keeps the memories' form. -/
theorem State.caskProgram_memWf (bs : List Nat) (s : State) (a : Nat) (h : s.memWf = true) : (s.caskProgram a bs).memWf = true := by
  induction bs generalizing s a with
  | nil => exact h
  | cons b bs ih =>
    refine ih _ _ ?_
    obtain ⟨h1, h2, h3, h4, h5, h6⟩ := (State.memWf_iff s).mp h
    exact (State.memWf_iff _).mpr ⟨h1, h2, tabWf_put _ _ _ _ h3, h4, h5, h6⟩

/-- Erasing a sector of the cask keeps the memories' form. -/
theorem State.caskErase_memWf (s : State) (a : Nat) (h : s.memWf = true) : (s.caskErase a).memWf = true := by
  obtain ⟨h1, h2, h3, h4, h5, h6⟩ := (State.memWf_iff s).mp h
  exact (State.memWf_iff _).mpr ⟨h1, h2, tabWf_filter _ _ _ h3, h4, h5, h6⟩

/-- Words that DMA writes keep the form of host memory. -/
theorem Hif.ringWrite_wf (ws : List Word) (x : Hif) (base k n : Nat) (h : tabWf 0 x.hostMem = true) :
    tabWf 0 (x.ringWrite base k n ws).hostMem = true := by
  induction ws generalizing x n with
  | nil => exact h
  | cons w ws ih => exact ih _ _ (tabWf_put _ _ _ _ h)

theorem Hif.dmaWrite_wf (ws : List (BitVec 32)) (x : Hif) (a : Nat) (h : tabWf 0 x.hostMem = true) :
    tabWf 0 (x.dmaWrite a ws).hostMem = true := by
  induction ws generalizing x a with
  | nil => exact h
  | cons w ws ih => exact ih _ _ (tabWf_put _ _ _ _ h)

/-- A cleared or shortened instruction store and a cleared scratch keep the memories' form. -/
theorem Cel.rows_filter_wf (c : Cel) (p : Nat × Bool → Bool) (r : Nat × List Nat → Bool) (h : c.wf = true) :
    ({ c with rows := c.rows.filter p, bad := c.bad.filter r } : Cel).wf = true := by
  obtain ⟨h1, h2, h3, h4⟩ := (Cel.wf_iff _).mp h
  exact (Cel.wf_iff _).mpr ⟨tabWf_filter _ _ _ h1, tabWf_filter _ _ _ h2, h3, h4⟩

theorem State.clearStore_memWf (s : State) (h : s.memWf = true) : s.clearStore.memWf = true := by
  obtain ⟨_, _, h3, h4, h5, h6⟩ := (State.memWf_iff s).mp h
  exact (State.memWf_iff _).mpr ⟨rfl, rfl, h3, h4, Cel.rows_filter_wf _ _ _ h5, h6⟩

theorem State.keepStore_memWf (s : State) (n : Nat) (h : s.memWf = true) : (s.keepStore n).memWf = true := by
  obtain ⟨h1, h2, h3, h4, h5, h6⟩ := (State.memWf_iff s).mp h
  exact (State.memWf_iff _).mpr ⟨tabWf_filter _ _ _ h1, h2, h3, h4, Cel.rows_filter_wf _ _ _ h5, h6⟩

theorem State.clearScratch_memWf (s : State) (q : Nat) (h : s.memWf = true) : (s.clearScratch q).memWf = true :=
  State.withCel_memWf s _ h (Cel.rows_filter_wf _ _ _ (State.memWf_cel h))

/-- A word of an image goes into the store or the loader's buffer in canonical form. -/
theorem State.loadWord_memWf (s : State) (a : Nat) (w : Word) (h : s.memWf = true) : (s.loadWord a w).memWf = true := by
  obtain ⟨h1, h2, h3, h4, h5, h6⟩ := (State.memWf_iff s).mp h
  have buf : ({ s with exec := { s.exec with loadBuf := tabPut none s.exec.loadBuf a (some w) } } : State).memWf = true := by
    refine (State.memWf_iff _).mpr ⟨h1, ?_, h3, h4, h5, h6⟩
    dsimp only; exact tabWf_put _ _ _ _ h2
  unfold State.loadWord
  split
  · split
    · have hm := State.memWrite_memWf s 4 (storeRow (a - 3)) false h
      dsimp only
      split
      · obtain ⟨g1, g2, g3, g4, g5, g6⟩ := (State.memWf_iff _).mp hm
        refine (State.memWf_iff _).mpr ⟨?_, g2, g3, g4, g5, g6⟩
        dsimp only; exact tabWf_put _ _ _ _ g1
      · exact hm
    · exact buf
  · exact buf

/-! ### Reads after writes -/

/-- A programmed byte reads as the bits that were set both before and in the byte programmed; every other byte is unchanged. -/
theorem State.caskByte_program_one (s : State) (a c b : Nat) :
    (s.caskProgram a [b]).caskByte c = if c = a then s.caskByte a &&& b % 256 else s.caskByte c := by
  by_cases h : c = a
  · simp [State.caskProgram, State.caskByte, h]
  · simp [State.caskProgram, State.caskByte, h, tabGet_put_ne _ _ _ _ h]

/-- A poisoned row alone keeps a partial write out (R413). -/
theorem State.memWrite_takes (s : State) (cls row : Nat) (whole : Bool) :
    (s.memWrite cls row whole).1 = (whole || decide (s.rowResult cls row ≠ .poisoned)) := by
  unfold State.memWrite
  cases whole <;> simp
  split <;> simp_all

end Sys2Proof.Machine
end

