-- ==== Sys2Proof/WellFormed.lean ====
section
/-!
DEFINITION. Well-formed commands: the limits that the spec sets on operands and that their types do not state. SQ0 runs the
executive and no program; a link frame has 62 bytes between /S/ and /T/ (R461); a slice has four ADCs of 65 interleave slices, the
spare among them, and four DACs (R175, R178, R180); a pass covers 96 sites and 76 lanes (R518, R519); 16 monitor converters (R493);
a front-end frame is sent at most eight times (R557); a spectrum has 64 bins (R243); a request of the host has a DW (R154); a
function has its own vectors (R170).
-/

namespace Sys2Proof

/-- The operands of a command are within the limits of the spec. -/
def Instr.wf : Instr → Bool
  | .coldStart _ => true
  | .vddaonLow => true
  | .perstNAssert => true
  | .perstNDeassert _ => true
  | .oscdlyExpiry _ => true
  | .mainLoopLock => true
  | .bootstrapImageVerify _ => true
  | .powerUpComplete _ => true
  | .reqDormant => true
  | .reqPrepare => true
  | .reqService => true
  | .reqShadow => true
  | .reqProving => true
  | .reqRecovery => true
  | .reqPreviousMode => true
  | .modeTransitionEnd => true
  | .sliceEnableHeldWake _ => true
  | .wakingComplete _ (.converterCheck stats) => decide (stats.length = 4) && stats.all fun l => decide (l.length = 65)
  | .wakingComplete _ _ => true
  | .wakeTimeout _ => true
  | .drainComplete _ _ => true
  | .hostclkCoast => true
  | .hostclkFailDeclare => true
  | .hostclkReturn => true
  | .hostclkFailClear => true
  | .sscPeriodEnd => true
  | .gateCloseRequest _ _ => true
  | .fabricAccessTimeout _ _ _ => true
  | .fabricWrite _ _ => true
  | .crossingReset _ _ _ => true
  | .crossingReq _ => true
  | .crossingAck _ => true
  | .crossingReqResend _ => true
  | .ccResetCmd => true
  | .ccWatchdogExpiry _ => true
  | .executiveRestart => true
  | .sliceResetCmd _ => true
  | .framePulseWatchdog _ _ => true
  | .dpStall _ _ _ => true
  | .sharedStageWatchdog _ _ => true
  | .dpSliceHoldEnd _ => true
  | .thermalFault => true
  | .thermalClear => true
  | .recoveryRestart _ => true
  | .givenUpClear => true
  | .hostSilenceExpiry => true
  | .hostActivity => true
  | .packetDispatch => true
  | .packetTimeout q => decide (q ≠ 0)
  | .budgetExpiry q => decide (q ≠ 0)
  | .sqWatchdogExpiry q => decide (q ≠ 0)
  | .hostAbort _ => true
  | .loadBegin _ => true
  | .loadData _ => true
  | .loadVerify _ => true
  | .loadVerifyDone => true
  | .trap q => decide (q ≠ 0)
  | .illegalOpcode q => decide (q ≠ 0)
  | .add q => decide (q ≠ 0)
  | .addi q => decide (q ≠ 0)
  | .sub q => decide (q ≠ 0)
  | .subi q => decide (q ≠ 0)
  | .mull q => decide (q ≠ 0)
  | .mulh q => decide (q ≠ 0)
  | .and q => decide (q ≠ 0)
  | .or q => decide (q ≠ 0)
  | .xor q => decide (q ≠ 0)
  | .not q => decide (q ≠ 0)
  | .shl q => decide (q ≠ 0)
  | .shr q => decide (q ≠ 0)
  | .sar q => decide (q ≠ 0)
  | .rot q => decide (q ≠ 0)
  | .cmp q => decide (q ≠ 0)
  | .cmpi q => decide (q ≠ 0)
  | .min q => decide (q ≠ 0)
  | .max q => decide (q ≠ 0)
  | .mov q => decide (q ≠ 0)
  | .ldi q => decide (q ≠ 0)
  | .ldl q => decide (q ≠ 0)
  | .stl q => decide (q ≠ 0)
  | .frd q => decide (q ≠ 0)
  | .fwr q => decide (q ≠ 0)
  | .frmw q => decide (q ≠ 0)
  | .fpoll q => decide (q ≠ 0)
  | .fpollRead q => decide (q ≠ 0)
  | .br q => decide (q ≠ 0)
  | .bz q => decide (q ≠ 0)
  | .bnz q => decide (q ≠ 0)
  | .bn q => decide (q ≠ 0)
  | .bc q => decide (q ≠ 0)
  | .bt q => decide (q ≠ 0)
  | .call q => decide (q ≠ 0)
  | .ret q => decide (q ≠ 0)
  | .loop q => decide (q ≠ 0)
  | .halt q => decide (q ≠ 0)
  | .claim q => decide (q ≠ 0)
  | .claimGrant _ => true
  | .free q => decide (q ≠ 0)
  | .yield q => decide (q ≠ 0)
  | .waite q => decide (q ≠ 0)
  | .waiteComplete q => decide (q ≠ 0)
  | .waitt q => decide (q ≠ 0)
  | .waittComplete q => decide (q ≠ 0)
  | .signal q => decide (q ≠ 0)
  | .blockingTimeout q => decide (q ≠ 0)
  | .step q => decide (q ≠ 0)
  | .jrec q => decide (q ≠ 0)
  | .done q => decide (q ≠ 0)
  | .vstg q => decide (q ≠ 0)
  | .vcmt q => decide (q ≠ 0)
  | .vabt q => decide (q ≠ 0)
  | .send q => decide (q ≠ 0)
  | .sendRoom q => decide (q ≠ 0)
  | .recv q => decide (q ≠ 0)
  | .recvComplete q => decide (q ≠ 0)
  | .tnow q => decide (q ≠ 0)
  | .stageGo _ => true
  | .stageRead => true
  | .vtgRet => true
  | .vtgAccept => true
  | .vtgFail => true
  | .vtgWithdraw => true
  | .vtgResetStaged => true
  | .vtgLoadArch => true
  | .vtgLoadRescue => true
  | .vtgRelease => true
  | .vtgDomRet => true
  | .validationDone => true
  | .loadingDone _ _ => true
  | .domainReleaseDeadline => true
  | .commitTakeEffect _ => true
  | .probationCheckInterval => true
  | .probationEnd => true
  | .returnTakeEffect _ => true
  | .pushWindowWrite _ _ => true
  | .popWindowRead _ _ => true
  | .queuePush _ _ _ _ => true
  | .queueReset _ => true
  | .peakRead _ => true
  | .bar0Access _ _ _ dws => decide (dws ≠ [])
  | .functionLevelReset _ => true
  | .dmaEnable _ => true
  | .dmaPacketWrite _ _ => true
  | .eventOccurrence _ _ => true
  | .msixPendingSend f v _ => decide (v ≤ if f = 0 then 271 else 15)
  | .recalRunCmd _ => true
  | .recalAbortCmd _ => true
  | .converterTempReading _ _ => true
  | .recalIntervalExpiry _ => true
  | .calEngineGrant => true
  | .spareMatchEnd _ adcs => decide (adcs.length = 4)
  | .runStepHandBack _ measured => measured.all fun p => decide (p.1.length = 4 ∧ p.2.length = 4)
  | .runComplete _ dac => decide (dac.length = 4)
  | .restoreRotationComplete _ => true
  | .caskSave _ _ => true
  | .clipWindow _ _ => true
  | .captureGo _ => true
  | .captureStop _ => true
  | .captureTrigger _ => true
  | .captureSegmentDrained _ => true
  | .acqSignalDetect _ => true
  | .cdScanEnd _ _ _ _ => true
  | .clockLock _ _ => true
  | .singularityCheck _ _ => true
  | .blindConverged _ _ _ => true
  | .pilotSyncFound _ _ => true
  | .carrierLock _ => true
  | .acqStateLimit _ => true
  | .inputLoss _ => true
  | .inputReturn _ => true
  | .holdExpiry _ => true
  | .trackSnrLoss _ => true
  | .acqRestart _ => true
  | .cycleSlip _ _ _ => true
  | .txFrameBoundary _ psd => decide (psd.length = 64)
  | .rateMuteStart _ => true
  | .synthRelock _ => true
  | .blockArrival _ _ => true
  | .iterationSlot => true
  | .reorderRelease _ => true
  | .blockSyncTrial _ => true
  | .blockSyncLost _ => true
  | .outerGroupDecode _ => true
  | .marginInterval _ => true
  | .tendrilPacketStart _ => true
  | .tendrilPacketSent _ => true
  | .helloInterval _ => true
  | .tendrilDetection _ _ => true
  | .tendrilHeaderDecode _ _ => true
  | .tendrilReceptionEnd _ _ => true
  | .hello _ => true
  | .propose _ => true
  | .accept _ => true
  | .refuse _ => true
  | .cancel _ => true
  | .returnMsg _ => true
  | .switch _ => true
  | .mailboxPacketRx _ => true
  | .proposalHoldExpiry _ => true
  | .proposeRetry _ => true
  | .agreementCutoff => true
  | .mailboxGo _ => true
  | .mailboxRelease _ => true
  | .fasCandidateCheck _ => true
  | .outOfFrame _ => true
  | .multiframeAlign _ => true
  | .falseLock _ => true
  | .sfcAdopt _ => true
  | .delayBlockRx _ _ => true
  | .defectEvaluation _ _ => true
  | .ssfHoldoffExpiry _ => true
  | .txSuperframeBoundary _ => true
  | .memberNumberingAdopt _ _ _ => true
  | .measuringEnd _ _ => true
  | .dcGrowthStep _ => true
  | .outputFrameRead _ _ => true
  | .selectorEvaluation _ => true
  | .psClear _ => true
  | .psLockout _ => true
  | .psForcedSwitch _ => true
  | .psManualA _ => true
  | .psManualB _ => true
  | .realign _ => true
  | .wtrExpiry _ => true
  | .memberMismatch _ _ => true
  | .channelMessageVerify _ => true
  | .keyLoadSlot _ => true
  | .keyEraseSlot _ => true
  | .kekLoad _ => true
  | .kekErase _ => true
  | .msgQueueGo _ => true
  | .msgServiceGrant _ _ => true
  | .msgServiceEnd _ _ => true
  | .clientFrameRx _ _ _ _ _ => true
  | .clientFrameEgress _ => true
  | .clientMgmtPeriod _ => true
  | .clientIndicationExpiry _ _ => true
  | .egressReplacement _ => true
  | .calendarSwitch _ _ _ _ _ => true
  | .laneDeepExit _ => true
  | .cellarTrain => true
  | .cellarRetrain => true
  | .cellarTrainDone _ _ => true
  | .accRead _ => true
  | .accWrite => true
  | .accRawWrite => true
  | .accDone => true
  | .touchGo _ => true
  | .celTouchDone => true
  | .pprGo _ => true
  | .celPprDone _ => true
  | .memInjArm => true
  | .candGate100ms _ _ => true
  | .candGate1ms _ => true
  | .candWtrExpiry _ => true
  | .candAvailLoss _ => true
  | .selHoldoffExpiry => true
  | .selForce => true
  | .selManual => true
  | .selClear => true
  | .selLocked => true
  | .phaseStepGo => true
  | .phaseSlewDone => true
  | .todSet => true
  | .todAdj => true
  | .todWrap => true
  | .timerArm _ => true
  | .timerDisarm _ => true
  | .timerFire _ => true
  | .ltcMultiframe => true
  | .linkAttemptStart _ => true
  | .ident _ => true
  | .linkAttemptTimeout _ => true
  | .attemptSignalLoss _ => true
  | .linkBackoffExpiry _ => true
  | .absentProbe _ => true
  | .mismatchRetry _ => true
  | .linkLoss _ => true
  | .poryonFrameRx _ content _ => decide (content.length = 62)
  | .message _ => true
  | .heartbeatSend => true
  | .heartbeat _ => true
  | .twinHeartbeatLoss => true
  | .peerActiveAssert => true
  | .takeoverFullAmplitude => true
  | .twinRelease => true
  | .releaseAckTimeout => true
  | .releaseBoundary => true
  | .twinDetach => true
  | .twinResync => true
  | .pair => true
  | .joinTimeout => true
  | .mirror => true
  | .domain _ => true
  | .managerHeartbeatSend => true
  | .managerLoss => true
  | .event _ => true
  | .rfwRead _ => true
  | .rfwWrite _ => true
  | .response _ => true
  | .rfwTimeout _ => true
  | .tunnelRequestRx _ => true
  | .monSeqGo => true
  | .monSeqStop => true
  | .accSnap => true
  | .injectionTrigger _ => true
  | .injectionDone _ => true
  | .injectionMissed _ => true
  | .bgCalTurn => true
  | .fgCalStart => true
  | .fgCalEnd => true
  | .msyncFall => true
  | .syncGo => true
  | .dcRespRequest _ _ _ => true
  | .dcFadeEnd _ => true
  | .counterWindowBoundary => true
  | .monSnap => true
  | .counterSelect _ => true
  | .sentinelPassStart => true
  | .sentinelPassEnd sites eyes => decide (sites.length = 96 ∧ eyes.length = 76)
  | .ageingRecordWrite _ _ _ => true
  | .avsVout _ => true
  | .caskWinRead => true
  | .caskWinProgram => true
  | .caskWinErase => true
  | .fesWrite _ => true
  | .fesRead _ => true
  | .otpProg _ _ _ _ => true
  | .upReceiverFirstLock _ => true
  | .hostClockFound => true
  | .candidateAvailable _ => true
  | .hostSideConditionChange _ _ => true
  | .portIdleTimeout _ => true
  | .conversionClockEdge codes => decide (codes.length = 16)
  | .caskWinDone _ => true
  | .fesFrameDone _ tries => decide (tries.length ≤ 8)
  | .captureSegmentFilled => true

end Sys2Proof
end

