-- ==== Sys2Proof/Laws/PerInstr.lean ====
section
/-!
SUPPORT. The case split over the commands: a well-formed command that names a program sequencer names one of SQ1 to SQ15
(R59, R69), one lemma per constructor.
-/

namespace Sys2Proof

/-- The program sequencer that a command names. -/
def Instr.programSq : Instr → Option (Fin 16)
  | .packetTimeout q | .budgetExpiry q | .sqWatchdogExpiry q | .trap q | .illegalOpcode q | .add q | .addi q
  | .sub q | .subi q | .mull q | .mulh q | .and q | .or q | .xor q | .not q | .shl q | .shr q | .sar q | .rot q
  | .cmp q | .cmpi q | .min q | .max q | .mov q | .ldi q | .ldl q | .stl q | .frd q | .fwr q | .frmw q | .fpoll q
  | .fpollRead q | .br q | .bz q | .bnz q | .bn q | .bc q | .bt q | .call q | .ret q | .loop q | .halt q | .claim q
  | .free q | .yield q | .waite q | .waiteComplete q | .waitt q | .waittComplete q | .signal q | .blockingTimeout q
  | .step q | .jrec q | .done q | .vstg q | .vcmt q | .vabt q | .send q | .sendRoom q | .recv q | .recvComplete q
  | .tnow q => some q
  | _ => none

namespace Laws.OperandForm

set_option Elab.async false

/-- SQ0 runs the executive and no program: no well-formed command names it as a program sequencer. -/
def Statement (i : Instr) : Prop := i.wf = true → ∀ q, i.programSq = some q → q ≠ 0

theorem otherCase {i : Instr} (h : i.programSq = none) : Statement i := fun _ _ e => by rw [h] at e; cases e

theorem seqCase {i : Instr} (p : Fin 16) (h : i.programSq = some p) (w : i.wf = decide (p ≠ 0)) : Statement i := fun t q e => by
  rw [h] at e; cases e; rw [w] at t; exact of_decide_eq_true t

theorem coldStart (st : Straps) : Statement (.coldStart st) := otherCase rfl
theorem vddaonLow : Statement (.vddaonLow) := otherCase rfl
theorem perstNAssert : Statement (.perstNAssert) := otherCase rfl
theorem perstNDeassert (st : Straps) : Statement (.perstNDeassert st) := otherCase rfl
theorem oscdlyExpiry (present : Bool) : Statement (.oscdlyExpiry present) := otherCase rfl
theorem mainLoopLock : Statement (.mainLoopLock) := otherCase rfl
theorem bootstrapImageVerify (cask : Option (Bool × Fin 65)) : Statement (.bootstrapImageVerify cask) := otherCase rfl
theorem powerUpComplete (rescue : Option (List (Addr × Word))) : Statement (.powerUpComplete rescue) := otherCase rfl
theorem reqDormant : Statement (.reqDormant) := otherCase rfl
theorem reqPrepare : Statement (.reqPrepare) := otherCase rfl
theorem reqService : Statement (.reqService) := otherCase rfl
theorem reqShadow : Statement (.reqShadow) := otherCase rfl
theorem reqProving : Statement (.reqProving) := otherCase rfl
theorem reqRecovery : Statement (.reqRecovery) := otherCase rfl
theorem reqPreviousMode : Statement (.reqPreviousMode) := otherCase rfl
theorem modeTransitionEnd : Statement (.modeTransitionEnd) := otherCase rfl
theorem sliceEnableHeldWake (i : Fin 8) : Statement (.sliceEnableHeldWake i) := otherCase rfl
theorem wakingComplete (i : Fin 8) (done : WakeStep) : Statement (.wakingComplete i done) := otherCase rfl
theorem wakeTimeout (i : Fin 8) : Statement (.wakeTimeout i) := otherCase rfl
theorem drainComplete (i : Fin 8) (us : BitVec 16) : Statement (.drainComplete i us) := otherCase rfl
theorem hostclkCoast : Statement (.hostclkCoast) := otherCase rfl
theorem hostclkFailDeclare : Statement (.hostclkFailDeclare) := otherCase rfl
theorem hostclkReturn : Statement (.hostclkReturn) := otherCase rfl
theorem hostclkFailClear : Statement (.hostclkFailClear) := otherCase rfl
theorem sscPeriodEnd : Statement (.sscPeriodEnd) := otherCase rfl
theorem gateCloseRequest (b : Fin 16) (busy : Bool) : Statement (.gateCloseRequest b busy) := otherCase rfl
theorem fabricAccessTimeout (b : Fin 16) (addr : Addr) (requester : Requester) : Statement (.fabricAccessTimeout b addr requester) :=
  otherCase rfl
theorem fabricWrite (addr : Addr) (value : Word) : Statement (.fabricWrite addr value) := otherCase rfl
theorem crossingReset (x : Nat) (sideB : Bool) (items : Nat) : Statement (.crossingReset x sideB items) :=
  otherCase rfl
theorem crossingReq (x : Nat) : Statement (.crossingReq x) := otherCase rfl
theorem crossingAck (x : Nat) : Statement (.crossingAck x) := otherCase rfl
theorem crossingReqResend (x : Nat) : Statement (.crossingReqResend x) := otherCase rfl
theorem ccResetCmd : Statement (.ccResetCmd) := otherCase rfl
theorem ccWatchdogExpiry (within60s : Bool) : Statement (.ccWatchdogExpiry within60s) := otherCase rfl
theorem executiveRestart : Statement (.executiveRestart) := otherCase rfl
theorem sliceResetCmd (i : Fin 8) : Statement (.sliceResetCmd i) := otherCase rfl
theorem framePulseWatchdog (i : Fin 8) (within1s : Bool) : Statement (.framePulseWatchdog i within1s) := otherCase rfl
theorem dpStall (b : Fin 16) (i : Fin 8) (stage : BitVec 8) : Statement (.dpStall b i stage) := otherCase rfl
theorem sharedStageWatchdog (b : Fin 16) (within10s : Bool) : Statement (.sharedStageWatchdog b within10s) :=
  otherCase rfl
theorem dpSliceHoldEnd (i : Fin 8) : Statement (.dpSliceHoldEnd i) := otherCase rfl
theorem thermalFault : Statement (.thermalFault) := otherCase rfl
theorem thermalClear : Statement (.thermalClear) := otherCase rfl
theorem recoveryRestart (aged : Nat) : Statement (.recoveryRestart aged) := otherCase rfl
theorem givenUpClear : Statement (.givenUpClear) := otherCase rfl
theorem hostSilenceExpiry : Statement (.hostSilenceExpiry) := otherCase rfl
theorem hostActivity : Statement (.hostActivity) := otherCase rfl
theorem packetDispatch : Statement (.packetDispatch) := otherCase rfl
theorem packetTimeout (q : Fin 16) : Statement (.packetTimeout q) := seqCase q rfl rfl
theorem budgetExpiry (q : Fin 16) : Statement (.budgetExpiry q) := seqCase q rfl rfl
theorem sqWatchdogExpiry (q : Fin 16) : Statement (.sqWatchdogExpiry q) := seqCase q rfl rfl
theorem hostAbort (func : Fin 16) : Statement (.hostAbort func) := otherCase rfl
theorem loadBegin (withVerify : Bool) : Statement (.loadBegin withVerify) := otherCase rfl
theorem loadData (w : Word) : Statement (.loadData w) := otherCase rfl
theorem loadVerify (withBegin : Bool) : Statement (.loadVerify withBegin) := otherCase rfl
theorem loadVerifyDone : Statement (.loadVerifyDone) := otherCase rfl
theorem trap (q : Fin 16) : Statement (.trap q) := seqCase q rfl rfl
theorem illegalOpcode (q : Fin 16) : Statement (.illegalOpcode q) := seqCase q rfl rfl
theorem add (q : Fin 16) : Statement (.add q) := seqCase q rfl rfl
theorem addi (q : Fin 16) : Statement (.addi q) := seqCase q rfl rfl
theorem sub (q : Fin 16) : Statement (.sub q) := seqCase q rfl rfl
theorem subi (q : Fin 16) : Statement (.subi q) := seqCase q rfl rfl
theorem mull (q : Fin 16) : Statement (.mull q) := seqCase q rfl rfl
theorem mulh (q : Fin 16) : Statement (.mulh q) := seqCase q rfl rfl
theorem and (q : Fin 16) : Statement (.and q) := seqCase q rfl rfl
theorem or (q : Fin 16) : Statement (.or q) := seqCase q rfl rfl
theorem xor (q : Fin 16) : Statement (.xor q) := seqCase q rfl rfl
theorem not (q : Fin 16) : Statement (.not q) := seqCase q rfl rfl
theorem shl (q : Fin 16) : Statement (.shl q) := seqCase q rfl rfl
theorem shr (q : Fin 16) : Statement (.shr q) := seqCase q rfl rfl
theorem sar (q : Fin 16) : Statement (.sar q) := seqCase q rfl rfl
theorem rot (q : Fin 16) : Statement (.rot q) := seqCase q rfl rfl
theorem cmp (q : Fin 16) : Statement (.cmp q) := seqCase q rfl rfl
theorem cmpi (q : Fin 16) : Statement (.cmpi q) := seqCase q rfl rfl
theorem min (q : Fin 16) : Statement (.min q) := seqCase q rfl rfl
theorem max (q : Fin 16) : Statement (.max q) := seqCase q rfl rfl
theorem mov (q : Fin 16) : Statement (.mov q) := seqCase q rfl rfl
theorem ldi (q : Fin 16) : Statement (.ldi q) := seqCase q rfl rfl
theorem ldl (q : Fin 16) : Statement (.ldl q) := seqCase q rfl rfl
theorem stl (q : Fin 16) : Statement (.stl q) := seqCase q rfl rfl
theorem frd (q : Fin 16) : Statement (.frd q) := seqCase q rfl rfl
theorem fwr (q : Fin 16) : Statement (.fwr q) := seqCase q rfl rfl
theorem frmw (q : Fin 16) : Statement (.frmw q) := seqCase q rfl rfl
theorem fpoll (q : Fin 16) : Statement (.fpoll q) := seqCase q rfl rfl
theorem fpollRead (q : Fin 16) : Statement (.fpollRead q) := seqCase q rfl rfl
theorem br (q : Fin 16) : Statement (.br q) := seqCase q rfl rfl
theorem bz (q : Fin 16) : Statement (.bz q) := seqCase q rfl rfl
theorem bnz (q : Fin 16) : Statement (.bnz q) := seqCase q rfl rfl
theorem bn (q : Fin 16) : Statement (.bn q) := seqCase q rfl rfl
theorem bc (q : Fin 16) : Statement (.bc q) := seqCase q rfl rfl
theorem bt (q : Fin 16) : Statement (.bt q) := seqCase q rfl rfl
theorem call (q : Fin 16) : Statement (.call q) := seqCase q rfl rfl
theorem ret (q : Fin 16) : Statement (.ret q) := seqCase q rfl rfl
theorem loop (q : Fin 16) : Statement (.loop q) := seqCase q rfl rfl
theorem halt (q : Fin 16) : Statement (.halt q) := seqCase q rfl rfl
theorem claim (q : Fin 16) : Statement (.claim q) := seqCase q rfl rfl
theorem claimGrant (n : Fin 256) : Statement (.claimGrant n) := otherCase rfl
theorem free (q : Fin 16) : Statement (.free q) := seqCase q rfl rfl
theorem yield (q : Fin 16) : Statement (.yield q) := seqCase q rfl rfl
theorem waite (q : Fin 16) : Statement (.waite q) := seqCase q rfl rfl
theorem waiteComplete (q : Fin 16) : Statement (.waiteComplete q) := seqCase q rfl rfl
theorem waitt (q : Fin 16) : Statement (.waitt q) := seqCase q rfl rfl
theorem waittComplete (q : Fin 16) : Statement (.waittComplete q) := seqCase q rfl rfl
theorem signal (q : Fin 16) : Statement (.signal q) := seqCase q rfl rfl
theorem blockingTimeout (q : Fin 16) : Statement (.blockingTimeout q) := seqCase q rfl rfl
theorem step (q : Fin 16) : Statement (.step q) := seqCase q rfl rfl
theorem jrec (q : Fin 16) : Statement (.jrec q) := seqCase q rfl rfl
theorem done (q : Fin 16) : Statement (.done q) := seqCase q rfl rfl
theorem vstg (q : Fin 16) : Statement (.vstg q) := seqCase q rfl rfl
theorem vcmt (q : Fin 16) : Statement (.vcmt q) := seqCase q rfl rfl
theorem vabt (q : Fin 16) : Statement (.vabt q) := seqCase q rfl rfl
theorem send (q : Fin 16) : Statement (.send q) := seqCase q rfl rfl
theorem sendRoom (q : Fin 16) : Statement (.sendRoom q) := seqCase q rfl rfl
theorem recv (q : Fin 16) : Statement (.recv q) := seqCase q rfl rfl
theorem recvComplete (q : Fin 16) : Statement (.recvComplete q) := seqCase q rfl rfl
theorem tnow (q : Fin 16) : Statement (.tnow q) := seqCase q rfl rfl
theorem stageGo (andRead : Bool) : Statement (.stageGo andRead) := otherCase rfl
theorem stageRead : Statement (.stageRead) := otherCase rfl
theorem vtgRet : Statement (.vtgRet) := otherCase rfl
theorem vtgAccept : Statement (.vtgAccept) := otherCase rfl
theorem vtgFail : Statement (.vtgFail) := otherCase rfl
theorem vtgWithdraw : Statement (.vtgWithdraw) := otherCase rfl
theorem vtgResetStaged : Statement (.vtgResetStaged) := otherCase rfl
theorem vtgLoadArch : Statement (.vtgLoadArch) := otherCase rfl
theorem vtgLoadRescue : Statement (.vtgLoadRescue) := otherCase rfl
theorem vtgRelease : Statement (.vtgRelease) := otherCase rfl
theorem vtgDomRet : Statement (.vtgDomRet) := otherCase rfl
theorem validationDone : Statement (.validationDone) := otherCase rfl
theorem loadingDone (memErr : Bool) (ahead : Nat) : Statement (.loadingDone memErr ahead) := otherCase rfl
theorem domainReleaseDeadline : Statement (.domainReleaseDeadline) := otherCase rfl
theorem commitTakeEffect (bnd : Fin 4) : Statement (.commitTakeEffect bnd) := otherCase rfl
theorem probationCheckInterval : Statement (.probationCheckInterval) := otherCase rfl
theorem probationEnd : Statement (.probationEnd) := otherCase rfl
theorem returnTakeEffect (superframe : Bool) : Statement (.returnTakeEffect superframe) := otherCase rfl
theorem pushWindowWrite (f : Fin 16) (dws : List (BitVec 32 × Bool)) : Statement (.pushWindowWrite f dws) :=
  otherCase rfl
theorem popWindowRead (f : Fin 16) (n : Nat) : Statement (.popWindowRead f n) := otherCase rfl
theorem queuePush (q : Fin 41) (w : Word) (len : Nat) (withPop : Bool) : Statement (.queuePush q w len withPop) :=
  otherCase rfl
theorem queueReset (q : Fin 41) : Statement (.queueReset q) := otherCase rfl
theorem peakRead (q : Fin 41) : Statement (.peakRead q) := otherCase rfl
theorem bar0Access (space : HostSpace) (write : Bool) (addr : Addr) (dws : List (BitVec 32 × Bool)) : Statement (.bar0Access space write addr dws) :=
  otherCase rfl
theorem functionLevelReset (f : Fin 16) : Statement (.functionLevelReset f) := otherCase rfl
theorem dmaEnable (d : Fin 18) : Statement (.dmaEnable d) := otherCase rfl
theorem dmaPacketWrite (d : Fin 18) (err : Bool) : Statement (.dmaPacketWrite d err) := otherCase rfl
theorem eventOccurrence (e : Fin 256) (data : Word) : Statement (.eventOccurrence e data) := otherCase rfl
theorem msixPendingSend (f : Fin 16) (v : Nat) (why : MsixCause) : Statement (.msixPendingSend f v why) :=
  otherCase rfl
theorem recalRunCmd (i : Fin 8) : Statement (.recalRunCmd i) := otherCase rfl
theorem recalAbortCmd (i : Fin 8) : Statement (.recalAbortCmd i) := otherCase rfl
theorem converterTempReading (i : Fin 8) (temp : BitVec 10) : Statement (.converterTempReading i temp) :=
  otherCase rfl
theorem recalIntervalExpiry (i : Fin 8) : Statement (.recalIntervalExpiry i) := otherCase rfl
theorem calEngineGrant : Statement (.calEngineGrant) := otherCase rfl
theorem spareMatchEnd (i : Fin 8) (adcs : List MatchResult) : Statement (.spareMatchEnd i adcs) := otherCase rfl
theorem runStepHandBack (i : Fin 8) (measured : Option (List TrimMeasure × List Int)) : Statement (.runStepHandBack i measured) :=
  otherCase rfl
theorem runComplete (i : Fin 8) (dac : List TrimMeasure) : Statement (.runComplete i dac) := otherCase rfl
theorem restoreRotationComplete (i : Fin 8) : Statement (.restoreRotationComplete i) := otherCase rfl
theorem caskSave (i : Fin 8) (verified : Bool) : Statement (.caskSave i verified) := otherCase rfl
theorem clipWindow (i : Fin 8) (codes : List (Fin 4 × Fin 65 × BitVec 8)) : Statement (.clipWindow i codes) :=
  otherCase rfl
theorem captureGo (i : Fin 8) : Statement (.captureGo i) := otherCase rfl
theorem captureStop (i : Fin 8) : Statement (.captureStop i) := otherCase rfl
theorem captureTrigger (trig : CapTrig) : Statement (.captureTrigger trig) := otherCase rfl
theorem captureSegmentDrained (codes : List AdcSample) : Statement (.captureSegmentDrained codes) := otherCase rfl
theorem acqSignalDetect (i : Fin 8) : Statement (.acqSignalDetect i) := otherCase rfl
theorem cdScanEnd (i : Fin 8) (coarse fine : List Nat) (peak : Int) : Statement (.cdScanEnd i coarse fine peak) :=
  otherCase rfl
theorem clockLock (i : Fin 8) (off : Int) : Statement (.clockLock i off) := otherCase rfl
theorem singularityCheck (i : Fin 8) (corrMilli : Nat) : Statement (.singularityCheck i corrMilli) := otherCase rfl
theorem blindConverged (i : Fin 8) (dgd : Nat) (cd : Int) : Statement (.blindConverged i dgd cd) := otherCase rfl
theorem pilotSyncFound (i : Fin 8) (samples : List AdcSample) : Statement (.pilotSyncFound i samples) := otherCase rfl
theorem carrierLock (i : Fin 8) : Statement (.carrierLock i) := otherCase rfl
theorem acqStateLimit (i : Fin 8) : Statement (.acqStateLimit i) := otherCase rfl
theorem inputLoss (i : Fin 8) : Statement (.inputLoss i) := otherCase rfl
theorem inputReturn (i : Fin 8) : Statement (.inputReturn i) := otherCase rfl
theorem holdExpiry (i : Fin 8) : Statement (.holdExpiry i) := otherCase rfl
theorem trackSnrLoss (i : Fin 8) : Statement (.trackSnrLoss i) := otherCase rfl
theorem acqRestart (i : Fin 8) : Statement (.acqRestart i) := otherCase rfl
theorem cycleSlip (i : Fin 8) (y : Bool) (err : Int) : Statement (.cycleSlip i y err) := otherCase rfl
theorem txFrameBoundary (i : Fin 8) (psd : List (Nat × Nat)) : Statement (.txFrameBoundary i psd) := otherCase rfl
theorem rateMuteStart (i : Fin 8) : Statement (.rateMuteStart i) := otherCase rfl
theorem synthRelock (i : Fin 8) : Statement (.synthRelock i) := otherCase rfl
theorem blockArrival (i : Fin 8) (samples : List AdcSample) : Statement (.blockArrival i samples) := otherCase rfl
theorem iterationSlot : Statement (.iterationSlot) := otherCase rfl
theorem reorderRelease (i : Fin 8) : Statement (.reorderRelease i) := otherCase rfl
theorem blockSyncTrial (i : Fin 8) : Statement (.blockSyncTrial i) := otherCase rfl
theorem blockSyncLost (i : Fin 8) : Statement (.blockSyncLost i) := otherCase rfl
theorem outerGroupDecode (i : Fin 8) : Statement (.outerGroupDecode i) := otherCase rfl
theorem marginInterval (i : Fin 8) : Statement (.marginInterval i) := otherCase rfl
theorem tendrilPacketStart (i : Fin 8) : Statement (.tendrilPacketStart i) := otherCase rfl
theorem tendrilPacketSent (i : Fin 8) : Statement (.tendrilPacketSent i) := otherCase rfl
theorem helloInterval (i : Fin 8) : Statement (.helloInterval i) := otherCase rfl
theorem tendrilDetection (i : Fin 8) (cands : List TdlDetect) : Statement (.tendrilDetection i cands) := otherCase rfl
theorem tendrilHeaderDecode (i : Fin 8) (decided : List TdlDecision) : Statement (.tendrilHeaderDecode i decided) :=
  otherCase rfl
theorem tendrilReceptionEnd (i : Fin 8) (decided : List TdlDecision) : Statement (.tendrilReceptionEnd i decided) :=
  otherCase rfl
theorem hello (i : Fin 8) : Statement (.hello i) := otherCase rfl
theorem propose (i : Fin 8) : Statement (.propose i) := otherCase rfl
theorem accept (i : Fin 8) : Statement (.accept i) := otherCase rfl
theorem refuse (i : Fin 8) : Statement (.refuse i) := otherCase rfl
theorem cancel (i : Fin 8) : Statement (.cancel i) := otherCase rfl
theorem returnMsg (i : Fin 8) : Statement (.returnMsg i) := otherCase rfl
theorem switch (i : Fin 8) : Statement (.switch i) := otherCase rfl
theorem mailboxPacketRx (i : Fin 8) : Statement (.mailboxPacketRx i) := otherCase rfl
theorem proposalHoldExpiry (i : Fin 8) : Statement (.proposalHoldExpiry i) := otherCase rfl
theorem proposeRetry (i : Fin 8) : Statement (.proposeRetry i) := otherCase rfl
theorem agreementCutoff : Statement (.agreementCutoff) := otherCase rfl
theorem mailboxGo (i : Fin 8) : Statement (.mailboxGo i) := otherCase rfl
theorem mailboxRelease (i : Fin 8) : Statement (.mailboxRelease i) := otherCase rfl
theorem fasCandidateCheck (i : Fin 8) : Statement (.fasCandidateCheck i) := otherCase rfl
theorem outOfFrame (i : Fin 8) : Statement (.outOfFrame i) := otherCase rfl
theorem multiframeAlign (i : Fin 8) : Statement (.multiframeAlign i) := otherCase rfl
theorem falseLock (i : Fin 8) : Statement (.falseLock i) := otherCase rfl
theorem sfcAdopt (i : Fin 8) : Statement (.sfcAdopt i) := otherCase rfl
theorem delayBlockRx (i : Fin 8) (rxRef : BitVec 32) : Statement (.delayBlockRx i rxRef) := otherCase rfl
theorem defectEvaluation (i : Fin 8) (fr : FrameFacts) : Statement (.defectEvaluation i fr) := otherCase rfl
theorem ssfHoldoffExpiry (i : Fin 8) : Statement (.ssfHoldoffExpiry i) := otherCase rfl
theorem txSuperframeBoundary (i : Fin 8) : Statement (.txSuperframeBoundary i) := otherCase rfl
theorem memberNumberingAdopt (c : Fin 512) (m : Fin 8) (arr : Int) : Statement (.memberNumberingAdopt c m arr) :=
  otherCase rfl
theorem measuringEnd (c : Fin 512) (late : Bool) : Statement (.measuringEnd c late) := otherCase rfl
theorem dcGrowthStep (c : Fin 512) : Statement (.dcGrowthStep c) := otherCase rfl
theorem outputFrameRead (c : Fin 512) (errs : List (BitVec 29 × Fin 68 × BitVec 8)) : Statement (.outputFrameRead c errs) :=
  otherCase rfl
theorem selectorEvaluation (c : Fin 512) : Statement (.selectorEvaluation c) := otherCase rfl
theorem psClear (c : Fin 512) : Statement (.psClear c) := otherCase rfl
theorem psLockout (c : Fin 512) : Statement (.psLockout c) := otherCase rfl
theorem psForcedSwitch (c : Fin 512) : Statement (.psForcedSwitch c) := otherCase rfl
theorem psManualA (c : Fin 512) : Statement (.psManualA c) := otherCase rfl
theorem psManualB (c : Fin 512) : Statement (.psManualB c) := otherCase rfl
theorem realign (c : Fin 512) : Statement (.realign c) := otherCase rfl
theorem wtrExpiry (c : Fin 512) : Statement (.wtrExpiry c) := otherCase rfl
theorem memberMismatch (c : Fin 512) (m : Fin 8) : Statement (.memberMismatch c m) := otherCase rfl
theorem channelMessageVerify (c : Fin 512) : Statement (.channelMessageVerify c) := otherCase rfl
theorem keyLoadSlot (f : Fin 16) : Statement (.keyLoadSlot f) := otherCase rfl
theorem keyEraseSlot (f : Fin 16) : Statement (.keyEraseSlot f) := otherCase rfl
theorem kekLoad (f : Fin 16) : Statement (.kekLoad f) := otherCase rfl
theorem kekErase (f : Fin 16) : Statement (.kekErase f) := otherCase rfl
theorem msgQueueGo (f : Fin 16) : Statement (.msgQueueGo f) := otherCase rfl
theorem msgServiceGrant (host : List (BitVec 58 × BitVec 32)) (err : Bool) : Statement (.msgServiceGrant host err) :=
  otherCase rfl
theorem msgServiceEnd (f : Fin 16) (err : Bool) : Statement (.msgServiceEnd f err) := otherCase rfl
theorem clientFrameRx (k : Fin 576) (frame : List Byte) (err : Bool) (fecCorr fecUnc : Nat) : Statement (.clientFrameRx k frame err fecCorr fecUnc) :=
  otherCase rfl
theorem clientFrameEgress (k : Fin 576) : Statement (.clientFrameEgress k) := otherCase rfl
theorem clientMgmtPeriod (k : Fin 576) : Statement (.clientMgmtPeriod k) := otherCase rfl
theorem clientIndicationExpiry (k : Fin 576) (upi : BitVec 8) : Statement (.clientIndicationExpiry k upi) :=
  otherCase rfl
theorem egressReplacement (k : Fin 576) : Statement (.egressReplacement k) := otherCase rfl
theorem calendarSwitch (g : Fin 16) (tx rx ohLock mismatch : Bool) : Statement (.calendarSwitch g tx rx ohLock mismatch) :=
  otherCase rfl
theorem laneDeepExit (l : Fin 64) : Statement (.laneDeepExit l) := otherCase rfl
theorem cellarTrain : Statement (.cellarTrain) := otherCase rfl
theorem cellarRetrain : Statement (.cellarRetrain) := otherCase rfl
theorem cellarTrainDone (ok dense : BitVec 8) : Statement (.cellarTrainDone ok dense) := otherCase rfl
theorem accRead (errs : List (Fin 68 × BitVec 8)) : Statement (.accRead errs) := otherCase rfl
theorem accWrite : Statement (.accWrite) := otherCase rfl
theorem accRawWrite : Statement (.accRawWrite) := otherCase rfl
theorem accDone : Statement (.accDone) := otherCase rfl
theorem touchGo (errs : List (BitVec 29 × Fin 68 × BitVec 8)) : Statement (.touchGo errs) := otherCase rfl
theorem celTouchDone : Statement (.celTouchDone) := otherCase rfl
theorem pprGo (resource : Bool) : Statement (.pprGo resource) := otherCase rfl
theorem celPprDone (clean : Bool) : Statement (.celPprDone clean) := otherCase rfl
theorem memInjArm : Statement (.memInjArm) := otherCase rfl
theorem candGate100ms (i : Fin 16) (off : BitVec 24) : Statement (.candGate100ms i off) := otherCase rfl
theorem candGate1ms (offs : List (Fin 16 × BitVec 24)) : Statement (.candGate1ms offs) := otherCase rfl
theorem candWtrExpiry (i : Fin 16) : Statement (.candWtrExpiry i) := otherCase rfl
theorem candAvailLoss (i : Fin 16) : Statement (.candAvailLoss i) := otherCase rfl
theorem selHoldoffExpiry : Statement (.selHoldoffExpiry) := otherCase rfl
theorem selForce : Statement (.selForce) := otherCase rfl
theorem selManual : Statement (.selManual) := otherCase rfl
theorem selClear : Statement (.selClear) := otherCase rfl
theorem selLocked : Statement (.selLocked) := otherCase rfl
theorem phaseStepGo : Statement (.phaseStepGo) := otherCase rfl
theorem phaseSlewDone : Statement (.phaseSlewDone) := otherCase rfl
theorem todSet : Statement (.todSet) := otherCase rfl
theorem todAdj : Statement (.todAdj) := otherCase rfl
theorem todWrap : Statement (.todWrap) := otherCase rfl
theorem timerArm (n : Fin 16) : Statement (.timerArm n) := otherCase rfl
theorem timerDisarm (n : Fin 16) : Statement (.timerDisarm n) := otherCase rfl
theorem timerFire (n : Fin 16) : Statement (.timerFire n) := otherCase rfl
theorem ltcMultiframe : Statement (.ltcMultiframe) := otherCase rfl
theorem linkAttemptStart (p : Fin 6) : Statement (.linkAttemptStart p) := otherCase rfl
theorem ident (p : Fin 6) : Statement (.ident p) := otherCase rfl
theorem linkAttemptTimeout (p : Fin 6) : Statement (.linkAttemptTimeout p) := otherCase rfl
theorem attemptSignalLoss (p : Fin 6) : Statement (.attemptSignalLoss p) := otherCase rfl
theorem linkBackoffExpiry (p : Fin 6) : Statement (.linkBackoffExpiry p) := otherCase rfl
theorem absentProbe (p : Fin 6) : Statement (.absentProbe p) := otherCase rfl
theorem mismatchRetry (p : Fin 6) : Statement (.mismatchRetry p) := otherCase rfl
theorem linkLoss (p : Fin 6) : Statement (.linkLoss p) := otherCase rfl
theorem poryonFrameRx (p : Fin 6) (content : List Byte) (codes : Bool) : Statement (.poryonFrameRx p content codes) :=
  otherCase rfl
theorem message (p : Fin 6) : Statement (.message p) := otherCase rfl
theorem heartbeatSend : Statement (.heartbeatSend) := otherCase rfl
theorem heartbeat (p : Fin 6) : Statement (.heartbeat p) := otherCase rfl
theorem twinHeartbeatLoss : Statement (.twinHeartbeatLoss) := otherCase rfl
theorem peerActiveAssert : Statement (.peerActiveAssert) := otherCase rfl
theorem takeoverFullAmplitude : Statement (.takeoverFullAmplitude) := otherCase rfl
theorem twinRelease : Statement (.twinRelease) := otherCase rfl
theorem releaseAckTimeout : Statement (.releaseAckTimeout) := otherCase rfl
theorem releaseBoundary : Statement (.releaseBoundary) := otherCase rfl
theorem twinDetach : Statement (.twinDetach) := otherCase rfl
theorem twinResync : Statement (.twinResync) := otherCase rfl
theorem pair : Statement (.pair) := otherCase rfl
theorem joinTimeout : Statement (.joinTimeout) := otherCase rfl
theorem mirror : Statement (.mirror) := otherCase rfl
theorem domain (p : Fin 6) : Statement (.domain p) := otherCase rfl
theorem managerHeartbeatSend : Statement (.managerHeartbeatSend) := otherCase rfl
theorem managerLoss : Statement (.managerLoss) := otherCase rfl
theorem event (p : Fin 6) : Statement (.event p) := otherCase rfl
theorem rfwRead (w : Fin 4) : Statement (.rfwRead w) := otherCase rfl
theorem rfwWrite (w : Fin 4) : Statement (.rfwWrite w) := otherCase rfl
theorem response (p : Fin 6) : Statement (.response p) := otherCase rfl
theorem rfwTimeout (w : Fin 4) : Statement (.rfwTimeout w) := otherCase rfl
theorem tunnelRequestRx (p : Fin 6) : Statement (.tunnelRequestRx p) := otherCase rfl
theorem monSeqGo : Statement (.monSeqGo) := otherCase rfl
theorem monSeqStop : Statement (.monSeqStop) := otherCase rfl
theorem accSnap : Statement (.accSnap) := otherCase rfl
theorem injectionTrigger (q : Fin 16) : Statement (.injectionTrigger q) := otherCase rfl
theorem injectionDone (q : Fin 16) : Statement (.injectionDone q) := otherCase rfl
theorem injectionMissed (q : Fin 16) : Statement (.injectionMissed q) := otherCase rfl
theorem bgCalTurn : Statement (.bgCalTurn) := otherCase rfl
theorem fgCalStart : Statement (.fgCalStart) := otherCase rfl
theorem fgCalEnd : Statement (.fgCalEnd) := otherCase rfl
theorem msyncFall : Statement (.msyncFall) := otherCase rfl
theorem syncGo : Statement (.syncGo) := otherCase rfl
theorem dcRespRequest (c : Fin 64) (r : Fin 32) (fade : BitVec 10) : Statement (.dcRespRequest c r fade) :=
  otherCase rfl
theorem dcFadeEnd (c : Fin 64) : Statement (.dcFadeEnd c) := otherCase rfl
theorem counterWindowBoundary : Statement (.counterWindowBoundary) := otherCase rfl
theorem monSnap : Statement (.monSnap) := otherCase rfl
theorem counterSelect (v : Word) : Statement (.counterSelect v) := otherCase rfl
theorem sentinelPassStart : Statement (.sentinelPassStart) := otherCase rfl
theorem sentinelPassEnd (sites : List (Option (Nat × Nat))) (eyes : List Nat) : Statement (.sentinelPassEnd sites eyes) :=
  otherCase rfl
theorem ageingRecordWrite (hours : Nat) (ok1 ok2 : Bool) : Statement (.ageingRecordWrite hours ok1 ok2) :=
  otherCase rfl
theorem avsVout (ok : Bool) : Statement (.avsVout ok) := otherCase rfl
theorem caskWinRead : Statement (.caskWinRead) := otherCase rfl
theorem caskWinProgram : Statement (.caskWinProgram) := otherCase rfl
theorem caskWinErase : Statement (.caskWinErase) := otherCase rfl
theorem fesWrite (i : Fin 8) : Statement (.fesWrite i) := otherCase rfl
theorem fesRead (i : Fin 8) : Statement (.fesRead i) := otherCase rfl
theorem otpProg (field : Byte) (value : BitVec 384) (vpp tck : Bool) : Statement (.otpProg field value vpp tck) :=
  otherCase rfl
theorem upReceiverFirstLock (st : Straps) : Statement (.upReceiverFirstLock st) := otherCase rfl
theorem hostClockFound : Statement (.hostClockFound) := otherCase rfl
theorem candidateAvailable (i : Fin 16) : Statement (.candidateAvailable i) := otherCase rfl
theorem hostSideConditionChange (p : Fin 64) (h : HostSide) : Statement (.hostSideConditionChange p h) :=
  otherCase rfl
theorem portIdleTimeout (p : Fin 6) : Statement (.portIdleTimeout p) := otherCase rfl
theorem conversionClockEdge (codes : List Int) : Statement (.conversionClockEdge codes) := otherCase rfl
theorem caskWinDone (err : Bool) : Statement (.caskWinDone err) := otherCase rfl
theorem fesFrameDone (i : Fin 8) (tries : List (BitVec 24 × Byte)) : Statement (.fesFrameDone i tries) :=
  otherCase rfl
theorem captureSegmentFilled : Statement (.captureSegmentFilled) := otherCase rfl

end Laws.OperandForm

end Sys2Proof
end

