-- ==== Sys2Proof/Tests/Slice0.lean ====
section
/-!
SUPPORT. Tests: ill-formed operands that well-formedness refuses, Tsuile words written out from the listings of chapter 04, and
for each statement with hypotheses a state and operands that meet those of each of its clauses.
-/

namespace Sys2Proof.Tests

open Sys2Proof.Machine

set_option Elab.async false

/-! ### Well-formedness: one ill-formed command for each check -/

theorem test_wf_refuses_program_on_sq0 : Instr.wf (.add 0) = false := by decide
theorem test_wf_refuses_empty_bar0 : Instr.wf (.bar0Access .bar0 true 0x000010 []) = false := by decide
theorem test_wf_refuses_vector_of_vf : Instr.wf (.msixPendingSend 1 16 .enable) = false := by decide
theorem test_wf_accepts_vector_of_pf : Instr.wf (.msixPendingSend 0 271 .enable) = true := by decide
theorem test_wf_refuses_three_adcs : Instr.wf (.runStepHandBack 0 (some (List.replicate 3 ⟨0, 0, 0⟩, List.replicate 4 0))) = false := by
  decide
theorem test_wf_accepts_hand_back : Instr.wf (.runStepHandBack 0 none) = true := by decide
theorem test_wf_refuses_five_spares : Instr.wf (.spareMatchEnd 0 (List.replicate 5 ⟨⟨0, 0, 0⟩, ⟨0, 0⟩, ⟨0, 0⟩⟩)) = false := by decide
theorem test_wf_refuses_64_slices : Instr.wf (.wakingComplete 0 (.converterCheck (List.replicate 4 (List.replicate 64 ⟨0, 0⟩)))) = false := by
  decide
theorem test_wf_refuses_no_dacs : Instr.wf (.runComplete 0 []) = false := by decide
theorem test_wf_refuses_short_spectrum : Instr.wf (.txFrameBoundary 0 [(0, 0)]) = false := by decide
theorem test_wf_refuses_short_link_frame : Instr.wf (.poryonFrameRx 0 (List.replicate 61 0) true) = false := by decide
theorem test_wf_refuses_short_pass : Instr.wf (.sentinelPassEnd [] []) = false := by decide
theorem test_wf_refuses_short_edge : Instr.wf (.conversionClockEdge [0]) = false := by decide
theorem test_wf_refuses_nine_tries : Instr.wf (.fesFrameDone 0 (List.replicate 9 (0, 0))) = false := by decide

/-! ### Builders -/

/-- Register fields of a state set to values. -/
def withRegs (l : List (Fld × List Nat × Nat)) (s : State) : State := l.foldl (fun s e => s.wr e.1 e.2.2 e.2.1) s

/-- Fields of CURRENT set to values. -/
def withCur (l : List (Fld × List Nat × Nat)) (s : State) : State :=
  { s with vtg := { s.vtg with current := l.foldl (fun m e => imgPut m e.1 e.2.2 e.2.1) s.vtg.current } }

/-- SQ1 runs at 0x2000 of a store that holds these words from there on. -/
def runs (ws : List Nat) (x : Seq := Seq.idle) (s : State := State.reset) : State :=
  ({ s with exec := { s.exec with store := (List.range ws.length).map fun k => (0x2000 + k, some (BitVec.ofNat 24 (ws.getD k 0))) } }).setSeq
    1 { x with state := .running, pc := 0x2000 }

/-- The instruction that SQ1 of such a state fetches. -/
def ins (w : Nat) (ext : Nat := 0) (n : Nat := 1) : Ins := ⟨w, ext, 0x2000 + BitVec.ofNat 19 n⟩

/-! ### Tsuile words of the listing "SURVEY assembled" (chapter 04) -/

theorem test_survey_frd : legalWord 0x61C138 = true ∧ isLong 0x61C138 = true
    ∧ (Ins.mk 0x61C138 0x20 0).op = 0x18 ∧ (Ins.mk 0x61C138 0x20 0).a = 7 ∧ (Ins.mk 0x61C138 0x20 0).c = 4
    ∧ (Ins.mk 0x61C138 0x20 0).m = 0b111000 := by decide
theorem test_survey_shr : legalWord 0x31DC13 = true ∧ 0x31DC13 = insWord 0x0C 7 7 0 19 := by decide
theorem test_survey_ldi : legalWord 0x518000 = true ∧ 0x518000 = insWord 0x14 6 0 0 0 ∧ isLong 0x518000 = true := by decide
theorem test_survey_stl : 0x59D400 = insWord 0x16 7 5 0 0 ∧ legalWord 0x59D400 = true := by decide
theorem test_survey_addi : 0x091001 = insWord 0x02 4 4 0 1 ∧ legalWord 0x091001 = true := by decide
theorem test_survey_step : (Ins.mk 0xE00040 0 0).stepNum = 1 ∧ legalWord 0xE00040 = true := by decide
theorem test_survey_done : 0xE81408 = insWord 0x3A 0 5 0 8 ∧ legalWord 0xE81408 = true := by decide
theorem test_reserved_field_is_illegal : legalWord 0x04001F = false := by decide
theorem test_undefined_opcode_is_illegal : legalWord 0x5C0000 = false := by decide

/-- LOOP at 0x2010 of SURVEY reaches 0x2006: 0x2011 - 11. -/
theorem test_loop_reaches_next : (BitVec.ofNat 14 (0xA1BFF5 % 2 ^ 14)).signExtend 19 + 0x2011#19 = 0x2006#19 := by decide

/-- BC at 0x2008 of SURVEY reaches 0x200B: 0x2009 + 2. -/
theorem test_bc_reaches_absent : (BitVec.ofNat 18 (0x900002 % 2 ^ 18)).signExtend 19 + 0x2009#19 = 0x200B#19 := by decide

/-! ### Witnesses: chapters 02, 03 and 22 -/

/-- Power-up at a phase. -/
def atBoot (b : BootPhase) (s : State := State.reset) : State := { s with ctl := { s.ctl with boot := b } }

/-- The device in a mode. -/
def inMode (m : Nat) (s : State := State.reset) : State := s.wr F.GLB_MODE_mode m

theorem wit_StepTakesFrontCommand : State.reset.pending = [] := rfl

theorem wit_MemoriesKeepTheirForm : State.reset.memWf = true ∧ exec .thermalClear State.reset = .next (State.reset.faultCleared 4) :=
  ⟨by decide, rfl⟩

/-- SQ1 runs HALT and holds resource 0x80. -/
def holder : State := (runs [insWord 0x29 0 0 0 0]).setClaim 0x80 ⟨some 1, []⟩

theorem wit_ClaimsEndWithTheProgram : (holder.seq 1).live = true ∧ holder.holds 1 0x80 = true
    ∧ ∃ t, exec (.halt 1) holder = .next t ∧ (t.seq 1).live = false ∧ t.holds 1 0x80 = false :=
  ⟨by decide, by decide, _, rfl, by decide +kernel⟩

theorem wit_VintageIsolation_and_StorageIsolation : resetCommand .thermalClear = false
    ∧ ((effectCommand .thermalClear || twinCommand .thermalClear || fabricCommand .thermalClear) = false)
    ∧ loadCommand .thermalClear = false ∧ caskCommand .thermalClear = false ∧ slotCommand .thermalClear = false
    ∧ poolCommand .thermalClear = false ∧ switchCommand .thermalClear = false
    ∧ exec .thermalClear State.reset = .next (State.reset.faultCleared 4) := by
  refine ⟨?_, ?_, ?_, ?_, ?_, ?_, ?_, rfl⟩ <;> decide

theorem wit_TsuileWordForms : TsuileForm 0x01 15 15 15 0 ∧ ¬TsuileForm 0x01 0 0 0 63 ∧ TsuileLong 0x14 0 ∧ ¬TsuileLong 0x18 31
    ∧ ((runs [insWord 0x01 15 15 15 0]).fetch 1).1 = some (ins (insWord 0x01 15 15 15 0))
    ∧ ((runs [insWord 0x14 15 0 0 0, 0xFFFFFF]).fetch 1).1 = some (ins (insWord 0x14 15 0 0 0) 0xFFFFFF 2)
    ∧ ((runs [insWord 0x01 0 0 0 63]).fetch 1).1 = none ∧ ((State.reset).fetch 1).1 = none
    ∧ ((runs []).fetch 1).1 = some (ins 0) := by
  refine ⟨rfl, by simp [TsuileForm], by simp [TsuileLong], by simp [TsuileLong], ?_, ?_, ?_, ?_, ?_⟩ <;> decide +kernel

theorem wit_PowerUp : (State.reset.bit F.GLB_STRAP_nopcie = false ∧ State.reset.ctl.boot ≠ .held)
    ∧ (atBoot .perst).bit F.GLB_STRAP_nopcie = false
    ∧ (atBoot .perst (State.reset.wr F.GLB_STRAP_nopcie 1)).bit F.GLB_STRAP_nopcie = true
    ∧ (atBoot .perst (State.reset.wr F.GLB_STRAP_nopcie 1)).ctl.boot = .perst
    ∧ (atBoot .mainLoop).bit F.TIM_CLK_STAT_on_fallback = false
    ∧ [BootPhase.perst, .oscdly, .waitClock, .mainLoop, .image, .loading].all (fun b => decide ((atBoot b).ctl.boot = b)) = true := by
  decide

/-- A crossing that is FLUSHED, with or without an ACK. -/
def flushed (ack : Bool) : State := State.reset.setCrossing 3 { Crossing.open with flushed := true, ackOut := ack }

theorem wit_ControlComplexReset : ((flushed false).crossing 3).flushed = true ∧ (flushed false).heldCrossing 3 = false
    ∧ ((flushed false).crossing 3).ackOut = false ∧ ((flushed true).crossing 3).ackOut = true
    ∧ (let s : State := { State.reset with ctl := { State.reset.ctl with ccPending := true } }
       s.ctl.ccPending = true ∧ s.ctl.ccLoop = false ∧ s.ctl.rePrev = false) := by decide

/-- PREPARE with a transition to a mode in progress. -/
def toMode (v : Nat) : State :=
  let s := (inMode modePrepare).wr F.GLB_MODE_busy 1
  { s with ctl := { s.ctl with transTo := some v } }

theorem wit_ModeRequests :
    ((inMode modePrepare).bit F.GLB_MODE_busy = false ∧ (inMode modePrepare).modeAllowed modeProving = true
      ∧ (inMode modePrepare).modeAllowed modeService = true)
    ∧ (State.reset.modeAllowed modePrepare = true ∧ State.reset.bit F.GLB_MODE_busy = false)
    ∧ (let s := (inMode modePrepare).wr F.PRY_TWIN_STAT_pair 1; s.modeAllowed modeShadow = true)
    ∧ (let s := (inMode modeRecovery).wr F.GLB_MODE_prev modePrepare
       s.modeAllowed modePrepare = true ∧ s.rd F.GLB_MODE_prev ≠ s.mode)
    ∧ ((toMode modeProving).bit F.GLB_MODE_busy = true ∧ (toMode modeProving).ctl.transTo = some modeProving
      ∧ (toMode modeProving).ctl.heldReq = false ∧ (toMode modeProving).mode = modePrepare)
    ∧ ((inMode modePrepare).modeAllowed modeDormant = true
      ∧ (∀ q, q < 16 → ((inMode modePrepare).seq q).live = false)
      ∧ (∀ i, i < 8 → (inMode modePrepare).sliceState i = slDark)) := by decide +kernel

theorem wit_HostClock : (State.reset.wr F.TIM_CLK_STAT_main_lock 1).bit F.TIM_CLK_STAT_main_lock = true
    ∧ (State.reset.ctl.boot = .done ∧ State.reset.mode = modeDormant ∧ State.reset.bit F.TIM_CLK_STAT_on_fallback = false
      ∧ State.reset.bit F.GLB_MODE_busy = false)
    ∧ (State.reset.wr F.TIM_CLK_STAT_on_fallback 1).bit F.TIM_CLK_STAT_on_fallback = true
    ∧ (State.reset.wr F.TIM_CLK_STAT_on_fallback 1).ctl.boot = .done := by decide

theorem wit_Recovery : (inMode modePrepare).mode ≠ modeDormant ∧ (inMode modePrepare).mode ≠ modeRecovery
    ∧ (inMode modePrepare).bit F.GLB_MODE_busy = false
    ∧ (let s := (inMode modeRecovery).wr F.GLB_REC_CFG_delay 1
       s.mode = modeRecovery ∧ s.bit F.GLB_MODE_busy = false ∧ s.ctl.faultsOpen = [] ∧ s.ctl.recoverWord = none
         ∧ s.ctl.recoverRun = false ∧ s.bit F.GLB_REC_STAT_given_up = false ∧ s.rd F.GLB_REC_CFG_delay ≠ 0
         ∧ s.ctl.restarts - 0 < max 1 (s.rd F.GLB_REC_CFG_max)
         ∧ max 1 (s.rd F.GLB_REC_CFG_max) ≤ ({ s with ctl := { s.ctl with restarts := 16 } } : State).ctl.restarts - 0)
    ∧ State.reset.bit F.GLB_HOST_STAT_unatt = false
    ∧ (State.reset.wr F.GLB_HOST_STAT_unatt 1).bit F.GLB_HOST_STAT_unatt = true := by decide

/-- PREPARE with slice 7 in a state. -/
def slice7 (st : Nat) : State := (inMode modePrepare).wr F.GLB_SLICE_STAT_state st [7]

/-- Two slices of ADC 3 have a mean far from that of the others. -/
def twoBad : List (List CodeStats) := [[], [], [], [⟨2 ^ 50, 0⟩, ⟨2 ^ 50, 0⟩]]

theorem wit_SliceStates :
    (let s := (withCur [(F.GLB_SLICE_CTL_en, [7], 1)] (slice7 slDark)).wr F.GLB_SLICE_STAT_wake_pending 1 [7]
     s.bit F.GLB_SLICE_STAT_wake_pending [7] = true ∧ s.sliceState 7 = slDark ∧ s.enabled 7 = true ∧ s.wakeMode = true)
    ∧ ((slice7 slWaking).sliceState 7 = slWaking
      ∧ ([0, 1, 2, 3].all fun a => (slice7 slWaking).checkPasses 7 [] a) = true
      ∧ ([0, 1, 2, 3].all fun a => (slice7 slWaking).checkPasses 7 twoBad a) = false)
    ∧ ((slice7 slDraining).sliceState 7 = slDraining ∧ (slice7 slDraining).poolHolds 7 = false
      ∧ ((slice7 slDraining).tx1 7).amp = 0) := by decide +kernel

theorem wit_DatapathFaults : (slice7 slLit).lit 7 = true
    ∧ (let s : State := { slice7 slLit with ctl := { (slice7 slLit).ctl with sliceHold := [(7, true)] } }
       s.held 7 = true ∧ s.lit 7 = true)
    ∧ (let s : State := { slice7 slLit with ctl := { (slice7 slLit).ctl with sliceFires := [(7, 2)] } }
       s.watched 7 = true ∧ tabGet 0 s.ctl.sliceFires 7 = 2)
    ∧ (sharedStage 8 = true ∧ (inMode modePrepare).mode ≠ modeDormant) ∧ (2 : Nat) ≤ (10 : Fin 16).val := by decide +kernel

theorem wit_StorageIsolation_gfp : gfpCommand .thermalClear = false := by decide

theorem wit_PowerUp_upClocked :
    (let s := atBoot .loading ((State.reset.wr F.GLB_STRAP_nopcie 1).wr F.GLB_STRAP_role 1)
     s.ctl.boot = .loading ∧ s.upClocked = true) ∧ (atBoot .loading).bit F.GLB_CASK_STAT_present = false := by decide

theorem wit_ControlComplexReset_watchdog :
    (let s := withCur [(F.VTG_PROB_CFG_wdog_en, [], 1)]
       (withRegs [(F.VTG_STAT_state, [], vtProbation), (F.VTG_STAT_prev_valid, [], 1)] State.reset)
     s.vtState = vtProbation ∧ s.curBit F.VTG_PROB_CFG_wdog_en = true ∧ s.bit F.VTG_STAT_prev_valid = true)
    ∧ State.reset.ctl.recoverRun = false := by decide

theorem wit_ModeRequests_toDormant :
    ((toMode modeDormant).ctl.transTo = some modeDormant ∧ (toMode modeDormant).ctl.heldReq = false
      ∧ (toMode modeDormant).mode = modePrepare)
    ∧ ((List.range 16).all fun q => !((toMode modeDormant).seq q).live) = true
    ∧ (slices8.all fun i => decide ((toMode modeDormant).sliceState i = slDark)) = true
    ∧ ((toMode modeDormant).wr F.GLB_SLICE_STAT_state slDraining [7]).sliceState 7 ≠ slDark := by decide +kernel

theorem wit_HostClock_service : (inMode modeService).ctl.boot = .done ∧ (inMode modeService).mode ≠ modeDormant
    ∧ (inMode modeService).mode ≠ modeRecovery ∧ (inMode modeService).bit F.TIM_CLK_STAT_on_fallback = false := by decide

theorem wit_SliceStates_steps :
    ([(WakeStep.powerRamp, 1), (.synthLock, 2), (.trimLoad, 3)].all fun (w, n) =>
      let s := (slice7 slWaking).wr F.GLB_SLICE_STAT_wake_step n [7]
      decide (s.sliceState 7 = slWaking ∧ s.rd F.GLB_SLICE_STAT_wake_step [7] = n ∧ w.code = n)) = true
    ∧ (let s := (slice7 slWaking).wr F.GLB_SLICE_STAT_wake_step 4 [7]
       s.rd F.GLB_SLICE_STAT_wake_step [7] = 4 ∧ ([0, 1, 2, 3].all fun a => s.checkPasses 7 twoBad a) = false
         ∧ ([0, 1, 2, 3].all fun a => s.checkPasses 7 [] a) = true ∧ WakeStep.trimLoad.code ≠ 4)
    ∧ (let s := slice7 slDraining
       let s : State := { s with ctl := { s.ctl with drainShort := [(7, true)] } }
       s.sliceState 7 = slDraining ∧ tabGet false s.ctl.drainShort 7 = true) := by decide +kernel

theorem wit_DatapathFaults_more : (slice7 slDark).lit 7 = false
    ∧ (let s := (slice7 slLit).wr F.RXD_ACQ_STAT_state acqTrack [7]
       s.lit 7 = true ∧ s.bit F.TIM_CLK_STAT_on_fallback = false ∧ s.acq 7 ≠ acqIdle)
    ∧ (2 : Nat) ≤ (2 : Fin 16).val ∧ (7 : Fin 16).val < 8 ∧ sharedStage 9 = true ∧ (inMode modeRecovery).mode ≠ modeDormant := by
  decide +kernel

/-! ### Witnesses: programs (chapters 03 and 04) -/

/-- A sequencer whose working registers hold these values from W0 on. -/
def seqOf (l : List Nat) (x : Seq := Seq.idle) : Seq :=
  { x with w := (List.range l.length).map fun k => (k, BitVec.ofNat 24 (l.getD k 0)) }

/-- Every word of a list is fetched as its instruction. -/
def allFetch (ws : List Nat) : Bool :=
  ws.all fun w => decide (((runs [w]).seq 1).state = .running ∧ ((runs [w]).fetch 1).1 = some (ins w))

theorem wit_TsuileSums : allFetch ([0x01, 0x03].map fun op => insWord op 15 15 0 0) = true
    ∧ allFetch ([0x02, 0x04].map fun op => insWord op 0 1 0 63) = true
    ∧ allFetch [insWord 0x0F 0 15 15 0, insWord 0x10 0 15 0 32] = true
    ∧ (ins (insWord 0x01 15 15 0 0)).op = 0x01 ∧ (ins (insWord 0x10 0 15 0 32)).imm6 = BitVec.ofInt 24 (-32) := by
  decide +kernel

theorem wit_TsuileLogic : allFetch ([0x07, 0x08, 0x09].map fun op => insWord op 0 1 15 0) = true
    ∧ allFetch [insWord 0x0A 3 4 0 0] = true
    ∧ allFetch ([0x05, 0x06, 0x11, 0x12].flatMap fun op => [insWord op 1 2 3 0, insWord op 1 2 3 1]) = true := by
  decide +kernel

theorem wit_TsuileShifts : allFetch ([0x0B, 0x0C, 0x0D, 0x0E].flatMap fun op =>
      [insWord op 1 2 0 0, insWord op 1 2 0 24, insWord op 1 2 0 25, insWord op 1 2 0 31, insWord op 1 2 3 32]) = true := by
  decide +kernel

/-- The row of local word 0 of SQ1 is written, poisoned or not. -/
def scratchWritten (poison : Nat) (s : State) : State :=
  { s with cel := { s.cel with rows := [(rowKey 5 2048, true)],
                               bad := if poison = 0 then [] else [(rowKey 5 2048, (Inject.mk 5 0 1 true).pattern)] } }

/-- SQ1 runs one instruction with these working registers and local word 0 written, and packet words to arrive. -/
def local1 (w : Nat) (l : List Nat) (len : Nat := 0) (poison : Nat := 0) : State :=
  scratchWritten poison (runs [w] { seqOf l with pktLen := len, pktQ := some 0 })

theorem wit_TsuileMoves :
    allFetch [insWord 0x13 1 15 0 0] = true ∧ ((runs [insWord 0x14 1 0 0 0, 0xFFFFFF]).fetch 1).1 = some (ins (insWord 0x14 1 0 0 0) 0xFFFFFF 2)
    ∧ ([0x15, 0x16].all fun op => let w := insWord op 2 0 0 0
        decide (((local1 w []).fetch 1).1 = some (ins w) ∧ ((local1 w []).seq 1).arrivedAt 0 = true)
          && !((atIssue (local1 w []) 1).memRead 5 (scratchRow 1 0)).1 && ((atIssue (local1 w []) 1).memWrite 5 (scratchRow 1 0) false).1) = true
    ∧ ((atIssue (local1 (insWord 0x15 2 0 0 0) [] 0 2) 1).memRead 5 (scratchRow 1 0)).1 = true
    ∧ ((local1 (insWord 0x15 2 0 0 0) [] 1).seq 1).arrivedAt 0 = false ∧ ((local1 (insWord 0x15 2 0 0 0) [] 1).fetch 1).1 = some (ins (insWord 0x15 2 0 0 0))
    ∧ (0x3FFF < ((((local1 (insWord 0x16 2 0 0 1) [0x3FFF]).seq 1).reg 0).toNat + (ins (insWord 0x16 2 0 0 1)).m) % 2 ^ 24)
    ∧ ((local1 (insWord 0x16 2 0 0 1) [0x3FFF]).fetch 1).1 = some (ins (insWord 0x16 2 0 0 1)) := by decide +kernel

theorem wit_TsuileFlow : allFetch ([0x20, 0x21, 0x22, 0x23, 0x24, 0x25, 0x26].flatMap fun op => [op * 2 ^ 18, op * 2 ^ 18 + 2 ^ 18 - 1]) = true
    ∧ allFetch [insWord 0x27 0 15 0 0, insWord 0x28 15 15 15 63] = true
    ∧ (((runs [0x250000] { Seq.idle with t := true }).seq 1).t = true) := by decide +kernel

theorem wit_TsuileEnds : allFetch [0, insWord 0x29 0 0 0 0, insWord 0x3A 0 1 0 63] = true
    ∧ ((runs [0]).seq 1).state = .running ∧ (runs [0]).ctl.recoverRun = false
    ∧ (((runs [insWord 0x3A 0 1 0 63] (seqOf [0, 0x4000 - 63])).seq 1).reg 1).toNat + 63 = 0x4000
    ∧ ((runs [insWord 0x3A 0 1 0 63] (seqOf [0, 0x4000 - 63])).seq 1).allArrived (0x4000 - 63) 63 = true
    ∧ ((runs [insWord 0x29 1 0 0 0]).fetch 1).1 = none ∧ ((runs [0x3E * 2 ^ 18]).seq 1).state = .running
    ∧ ((runs [0x3E * 2 ^ 18]).fetch 1).1 = none := by decide +kernel

/-- A short form of each T-check instruction. -/
def tChecks : List (List Nat) :=
  [[insWord 0x18 0 0 0 0], [insWord 0x19 0 0 0 0], [insWord 0x1A 0 0 0 32, 0], [insWord 0x1B 0 0 0 32, 0], [insWord 0x29 0 0 0 0],
   [insWord 0x30 0 0 0 0], [insWord 0x33 0 0 0 0], [insWord 0x34 0 0 0 0], [insWord 0x38 0 0 1 0], [insWord 0x39 0 0 0 0],
   [insWord 0x3A 0 0 0 0], [insWord 0x3B 0 0 0 32, 0], [insWord 0x3C 0 0 0 0], [insWord 0x3D 0 0 0 0], [insWord 0x2C 0 0 0 0],
   [insWord 0x2D 0 0 0 8]]

theorem wit_TsuileEnds_tcheck : (tChecks.all fun ws => decide (((runs ws { Seq.idle with t := true }).seq 1).t = true
    ∧ ((runs ws { Seq.idle with t := true }).fetch 1).1 = some (ins (ws.getD 0 0) 0 ws.length))) = true := by decide +kernel

/-- SQ1 runs FRD, FWR, FRMW or FPOLL of the word that its extension names. -/
def fab (op e a : Nat) (l : List Nat := []) : State := runs [insWord op 2 0 0 (32 + 16 * e), a] (seqOf l)

theorem wit_TsuileFabric :
    (0x3F < 2 ^ 24 ∧ ((fab 0x18 0 0x000020).fetch 1).1 = some (ins (insWord 0x18 2 0 0 32) 0x20 2))
    ∧ ((atIssue (fab 0x18 0 0x20) 1).innerRead 0x20).1.isSome = true
    ∧ ((atIssue (fab 0x18 1 0xFFFFFF) 1).innerRead 0xFFFFFF).1 = none
    ∧ ((fab 0x18 1 0xFFFFFF).fetch 1).1 = some (ins (insWord 0x18 2 0 0 48) 0xFFFFFF 2)
    ∧ (ins (insWord 0x18 2 0 0 48) 0xFFFFFF 2).mBit 4 = true ∧ (ins (insWord 0x18 2 0 0 32) 0xFFFFFF 2).mBit 4 = false
    ∧ (State.innerWrite State.fabricWrite (atIssue (fab 0x19 0 (fldAddr F.GLB_REC_CFG_max [])) 1) (fldAddr F.GLB_REC_CFG_max []) 0).1 = true
    ∧ ((State.innerWrite State.fabricWrite (atIssue (fab 0x19 0 (fldAddr F.GLB_REC_CFG_max [])) 1) (fldAddr F.GLB_REC_CFG_max []) 0).2.seq 1).live = true
    ∧ ((atIssue (fab 0x1A 0 (fldAddr F.GLB_REC_CFG_max [])) 1).innerRead (fldAddr F.GLB_REC_CFG_max [])).1.isSome = true
    ∧ ((fab 0x1A 0 (fldAddr F.GLB_REC_CFG_max [])).fetch 1).1.map Ins.op = some 0x1A
    ∧ ((fab 0x1B 0 0x20).fetch 1).1.map Ins.op = some 0x1B
    ∧ ((atIssue (fab 0x1B 0 0x20) 1).innerRead 0x20).1.isSome = true
    ∧ (0#24 &&& 0#24 = 0#24 &&& 0#24) ∧ (1#24 &&& 1#24 ≠ 0#24 &&& 1#24) := by decide +kernel

/-- SQ1 is blocked on a wait. -/
def waits (w : Wait) (s : State := State.reset) : State := s.setSeq 1 { Seq.idle with state := .blocked, wait := some w, pc := 0x2000 }

theorem wit_TsuileFabric_waits : (let s := waits (.poll 0x20 2 0 0 true 0)
    (s.seq 1).live = true ∧ (s.seq 1).wait = some (.poll 0x20 2 0 0 true 0) ∧ (s.innerRead 0x20).1.isSome = true
      ∧ (0x20#24).toNat / 2 ^ 20 = 0) := by decide +kernel

/-- SQ1 runs CLAIM or FREE of the resource that W0 names. -/
def claims (op n : Nat) (c : Tab Claim := []) : State :=
  let s := runs [insWord op 0 0 0 32] (seqOf [n])
  { s with exec := { s.exec with claims := c } }

theorem wit_TsuileCoordination_claims :
    ((claims 0x30 255).fetch 1).1 = some (ins (insWord 0x30 0 0 0 32))
    ∧ ((claims 0x30 255).holds 1 255 = false ∧ (claims 0x30 255).freeClaim 255 = true ∧ ((claims 0x30 255).claim 255).waiters = [])
    ∧ ((claims 0x30 0).holds 1 255 = false ∧ (claims 0x30 255 [(255, ⟨some 2, []⟩)]).claimed 255 = true
      ∧ (claims 0x30 255 [(255, ⟨some 2, []⟩)]).holds 1 255 = false)
    ∧ (claims 0x30 255 [(255, ⟨some 1, []⟩)]).holds 1 255 = true
    ∧ (claims 0x31 0 [(0, ⟨some 1, []⟩)]).holds 1 0 = true ∧ (claims 0x31 0).holds 1 0 = false
    ∧ ((claims 0x31 0).fetch 1).1 = some (ins (insWord 0x31 0 0 0 32))
    ∧ (let s : State := { (waits (.claim 255)) with exec := { State.reset.exec with claims := [(255, ⟨none, [1, 2]⟩)] } }
       (s.claim 255).waiters = [1, 2] ∧ s.freeClaim 255 = true ∧ (s.seq 1).live = true ∧ (s.seq 1).wait = some (.claim 255)) := by decide +kernel

/-- Event slot n of SQ1 has occurred twice. -/
def heard (n : Nat) (x : Seq := Seq.idle) : Seq := { x with events := [(n, ⟨true, true, 5⟩)] }

theorem wit_TsuileCoordination_events : allFetch [insWord 0x32 0 0 0 63, insWord 0x33 2 0 0 0, insWord 0x33 2 0 0 32, insWord 0x35 2 8 0 0] = true
    ∧ (((runs [insWord 0x33 2 15 15 0] (heard 255)).seq 1).ev 255).pend = true
    ∧ (((runs [insWord 0x33 2 15 15 0]).seq 1).ev 255).pend = false ∧ (ins (insWord 0x35 2 8 0 0)).num = 128
    ∧ (ins (insWord 0x33 2 0 0 32)).mBit 5 = true
    ∧ (let s := State.reset.setSeq 1 (heard 255 { Seq.idle with state := .blocked, wait := some (.event 255 2) })
       (s.seq 1).live = true ∧ (s.seq 1).wait = some (.event 255 2) ∧ ((s.seq 1).ev 255).pend = true) := by decide +kernel

/-- Device time is n. -/
def atTime (n : Nat) (s : State) : State := { s with tim := { s.tim with now := n } }

theorem wit_TsuileTime : allFetch [insWord 0x34 0 0 1 0, insWord 0x2E 0 1 0 0] = true
    ∧ (let s := runs [insWord 0x34 0 0 1 0] (seqOf [0, 0])
       let target := BitVec.ofNat 32 (((s.seq 1).reg 1).toNat % 256 * 2 ^ 24 + ((s.seq 1).reg 0).toNat)
       (target - s.time).toInt ≤ 0)
    ∧ (let s := runs [insWord 0x34 0 0 1 0] (seqOf [1, 0])
       let target := BitVec.ofNat 32 (((s.seq 1).reg 1).toNat % 256 * 2 ^ 24 + ((s.seq 1).reg 0).toNat)
       0 < (target - s.time).toInt)
    ∧ (let s := waits (.time 0)
       (s.seq 1).live = true ∧ (s.seq 1).wait = some (.time 0) ∧ ((0#32) - s.time).toInt ≤ 0) := by decide +kernel

theorem wit_TsuileTime_timeouts :
    (let s := waits (.event 0 2); (s.seq 1).live = true ∧ (s.seq 1).wait = some (.event 0 2) ∧ ((s.seq 1).ev 0).pend = false)
    ∧ (let s := (waits (.claim 0)).setClaim 0 ⟨some 2, [1]⟩; (s.seq 1).wait = some (.claim 0) ∧ s.claimed 0 = true)
    ∧ ((waits (.poll 0 2 0 0 false 7)).seq 1).wait = some (.poll 0 2 0 0 false 7) := by decide +kernel

theorem wit_TsuileJournal : allFetch [insWord 0x38 0 0 1 0, insWord 0x39 0 0 0 0, insWord 0x39 0 3 0 32] = true
    ∧ ((runs [0]).seq 1).t = false := by decide +kernel

/-- SQ1 runs VSTG of a word of class V with its extension. -/
def stages (a : Nat) : State := runs [insWord 0x3B 0 0 0 48, a] (seqOf [1])

theorem wit_TsuileVintages :
    (((stages (fldAddr F.GLB_SLICE_CTL_en [7])).fetch 1).1 = some (ins (insWord 0x3B 0 0 0 48) (fldAddr F.GLB_SLICE_CTL_en [7]) 2)
      ∧ (stages (fldAddr F.GLB_SLICE_CTL_en [7])).stageable (fldAddr F.GLB_SLICE_CTL_en [7]) = true
      ∧ ((atIssue (stages (fldAddr F.GLB_SLICE_CTL_en [7])) 1).memWrite 6 (vintRow 1 (fldAddr F.GLB_SLICE_CTL_en [7])) false).1 = true
      ∧ (stages 0).stagedLocked = false ∧ (stages 0).stageable 0 = false
      ∧ ((stages 0).fetch 1).1 = some (ins (insWord 0x3B 0 0 0 48) 0 2) ∧ (ins (insWord 0x3B 0 0 0 48)).mBit 4 = true)
    ∧ allFetch [insWord 0x3C 1 0 0 0, insWord 0x3C 1 0 0 3, insWord 0x3D 0 0 0 0, insWord 0x3D 0 0 0 1] = true
    ∧ ((runs [0]).refusal 3 = 0 ∧ ((runs [0]).wr F.VTG_STAT_state vtProbation).refusal 3 ≠ 0)
    ∧ (let s := (runs [insWord 0x3D 0 0 0 1]).wr F.VTG_STAT_state vtHeld
       let s : State := { s with vtg := { s.vtg with commit := some ⟨[], 0, false, []⟩ } }
       s.withdrawable = true ∧ s.vtg.commit.isSome = true ∧ s.stagedLocked = true
         ∧ (s.fetch 1).1 = some (ins (insWord 0x3D 0 0 0 1))) := by decide +kernel

theorem wit_TsuileMessages :
    (let s := scratchWritten 0 (runs [insWord 0x2C 0 0 1 8] (seqOf [0, 1]))
     (s.fetch 1).1 = some (ins (insWord 0x2C 0 0 1 8)) ∧ (s.seq 1).allArrived 0 1 = true
       ∧ ((atIssue s 1).readWords 1 0 1).1 = some [0] ∧ s.linked 0 = false
       ∧ (s.wr F.PRY_PORT_STAT_state 2 [0]).linked 0 = true)
    ∧ (let s := (scratchWritten 0 (waits (.send 0 1 6))).wr F.PRY_PORT_STAT_state 2 [5]
       (s.seq 1).live = true ∧ (s.seq 1).allArrived 0 1 = true ∧ (s.readWords 1 0 1).1 = some [0] ∧ s.linked 5 = true)
    ∧ (let s := runs [insWord 0x2D 2 0 1 48]
       (s.fetch 1).1 = some (ins (insWord 0x2D 2 0 1 48)) ∧ (s.queue (34 + 6)).pkts = [])
    ∧ ((waits (.recv 2 0 1 6 2 2 true)).seq 1).live = true := by decide +kernel

theorem wit_ProgramDispatchAndAbort_abort :
    (let s := State.reset.setSeq 1 { Seq.idle with state := .running, func := 15, tag := 9, pktQ := some 15, pktLen := 1 }
     (s.seq 1).live = true ∧ (s.seq 1).pktQ ≠ none ∧ (s.seq 1).pktGot < (s.seq 1).pktLen
       ∧ (let s := s.wr F.SEQ_ABORT_TAG_tag 9
          (programSqs.find? fun p => (s.seq p).live
            && decide ((s.seq p).func = (15 : Fin 16) ∧ (s.seq p).tag.toNat = s.rd F.SEQ_ABORT_TAG_tag)) = some 1))
    ∧ (programSqs.find? fun p => (State.reset.seq p).live
        && decide ((State.reset.seq p).func = (0 : Fin 16) ∧ (State.reset.seq p).tag.toNat = State.reset.rd F.SEQ_ABORT_TAG_tag)) = none
    := by decide +kernel

/-- A directory that names program 1 for the PF, its entry 0x2000, and one packet of it in queue f. -/
def packetIn (f : Nat) (s : State := State.reset) : State :=
  let s := (s.setQueue f { Queue.empty with pkts := [⟨2, 2, [0x001002, 9], false⟩], written := 2 }).wr F.SEQ_EXEC_STAT_alive 1
  { s with exec := { s.exec with store := [(2, some 0x2000), (3, some 0x8000)] } }

theorem wit_ProgramDispatchAndAbort_dispatch :
    ([0, 15].all fun f => let s := packetIn f
      decide (s.bit F.SEQ_EXEC_STAT_alive = true ∧ s.exec.sol = Solera.empty ∧ s.ctl.recoverWord = none ∧ s.exec.timerPkts = []
        ∧ (s.queue f).pkts = [⟨2, 2, [0x001002, 9], false⟩] ∧ (s.queue f).taker = none
        ∧ s.rd F.SEQ_SOL_RES_res ≤ 1 ∧ s.rejectReason f 2 [0x001002, 9] = 0)
        && ((List.range 16).all fun g => decide (g = f ∨ (s.queue g).pkts = []))
        && programSqs.all fun k => decide ((s.seq k).state = .idle)) = true := by decide +kernel

/-- A load session of an image of 8192 words, at a load address. -/
def loading (a : Nat) : State :=
  let s := State.reset.wr F.SEQ_LOAD_ADDR_addr a
  { s with exec := { s.exec with session := true, loadBuf := [(2, some 8192)] } }

theorem wit_LoadSession : ((loading 0).mode = modeDormant ∧ (loading 0).bit F.SEQ_LOAD_CMD_busy = false)
    ∧ ((loading 2).exec.session = true ∧ (loading 2).rd F.SEQ_LOAD_ADDR_addr < 3)
    ∧ ((loading 8194).loadN = some 8192 ∧ 3 ≤ (loading 8194).rd F.SEQ_LOAD_ADDR_addr
      ∧ (loading 8194).rd F.SEQ_LOAD_ADDR_addr < 8192 + 3
      ∧ ((loading 8194).memWrite 4 (storeRow 8191) false).1 = true) := by decide +kernel

theorem wit_LoadSession_verified : (State.reset.wr F.SEQ_LOAD_CMD_busy 1).bit F.SEQ_LOAD_CMD_busy = true := by decide

theorem wit_ProgramDispatchAndAbort_planner : ([0, 15].all fun f => let s := packetIn f
    decide (s.mon.planner.pkts = [] ∧ s.ctl.transTo ≠ some modeDormant ∧ s.ctl.recoverRun = false)) = true := by decide +kernel

/-- The journal ring and a response queue hold nothing. -/
theorem wit_TsuileEnds_journal : ([32, 16, 31].all fun q => let x := State.reset.queue q
    decide (x.pkts = [] ∧ x.refuse = 0 ∧ x.discard = 0 ∧ x.taker = none)) = true
    ∧ ((runs [0]).seq 1).func < 16 := by decide +kernel

theorem wit_TsuileFabric_host : (0xFFFFFF#24).toNat / 2 ^ 20 = (15 : Fin 16).val
    ∧ State.reset.bit F.HIF_ERR_STAT_fabric = false
    ∧ (let s : State := { State.reset with ctl := { State.reset.ctl with gates := [(15, ⟨true, false⟩)] } }
       (s.gate 15).closing = true) := by decide +kernel

/-! ### Witnesses: vintages, the host interface and agreements (chapters 05, 06, 09 and 20) -/

/-- The PCIe link is up. -/
def hostUp (s : State := State.reset) : State := { s with hif := { s.hif with linkUp := true } }

theorem wit_QueueWords : ((State.reset.queue 40).pkts = [] ∧ (State.reset.queue 40).refuse = 0 ∧ (State.reset.queue 40).discard = 0
      ∧ (State.reset.queue 40).taker = none)
    ∧ ([(0, 0, 0), (32, 0, 4), (40, 0, 4096)].all fun (q, w, len) =>
        decide (1 < packetLen q (BitVec.ofNat 24 w) len ∧ packetLen q (BitVec.ofNat 24 w) len ≤ queueFree q (State.reset.queue q))) = true
    ∧ queueFree 40 (State.reset.queue 40) < packetLen 40 0 (queueDepth 40 + 1)
    ∧ hostUp.hif.linkUp = true ∧ 1 < (2 : BitVec 32).toNat % 4096 := by decide +kernel

/-- Two whole packets of one word in queue q, at their place in its memory. -/
def holds2 (q : Nat) (s : State := State.reset) : State :=
  let s := s.setQueue q { Queue.empty with pkts := [⟨1, 1, [5], false⟩, ⟨1, 1, [6], false⟩], written := 2 }
  { s with cel := { s.cel with rows := [(rowKey (queueClass q) 0, true)] } }

theorem wit_HostAccess : ((hostUp (holds2 31)).hif.linkUp = true ∧ ((hostUp (holds2 31)).hostRequest 15).dmaOn 31 = false
      ∧ (((hostUp (holds2 31)).hostRequest 15).popWord 31).isSome = true)
    ∧ (State.reset.queue 40).held ≤ queueDepth 40
    ∧ (hostUp.hostActive.fabricRead 0x20).1.isSome = true ∧ (hostUp.hostActive.fabricRead 0xFFFFFF).1 = none
    ∧ (hostUp.hostActive.fabricWrite (fldAddr F.GLB_REC_CFG_max []) 0).1 = true ∧ regAt 0xFFFFFF = none := by decide +kernel

/-- DMA engine 17 drains two packets into an empty ring. -/
def draining : State := ((holds2 33).wr F.HIF_DMA_CFG_en 1 [17]).wr F.HIF_DMA_CFG_size 21 [17]

theorem wit_HostDelivery : State.reset.bit F.HIF_DMA_CFG_en [17] = false
    ∧ ((draining.queue 33).pkts = [⟨1, 1, [5], false⟩, ⟨1, 1, [6], false⟩] ∧ draining.bit F.HIF_DMA_CFG_en [17] = true
      ∧ 1 ≤ draining.ringFree 17)
    ∧ (1 ∈ programSqs ∧ (State.reset.setSeq 1 { Seq.idle with state := .running } |>.seq 1).live = true)
    ∧ (let s : State := { hostUp with hif := { hostUp.hif with vecPend := [(271, true)], msixTbl := [(271 * 4 + 3, 0)] } }
       271 ≤ lastVec 0 ∧ tabGet false s.hif.vecPend 271 = true ∧ s.hif.linkUp = true ∧ tabGet false s.hif.msixFMask 0 = false
         ∧ (tabGet 1 s.hif.msixTbl (271 * 4 + 3)).getLsbD 0 = false)
    ∧ (15 : Fin 16) ≠ 0 := by decide +kernel

/-- A pending commit in a state of its own, on some slices. -/
def pendingIn (st : Nat) (is : List Nat := []) (m : Tab Nat := []) : State :=
  let s := State.reset.wr F.VTG_STAT_state st
  { s with vtg := { s.vtg with commit := some ⟨m, 0, false, is⟩ } }

theorem wit_CommitStages : ((pendingIn vtValidating).vtg.commit = some ⟨[], 0, false, []⟩ ∧ (pendingIn vtValidating).vtState = vtValidating)
    ∧ (let m := imgPut [] F.SEQ_PSET_CFG_id 0; ((pendingIn vtValidating [] m).wr F.SEQ_PSET_ID_id 0).validationCode m = 0)
    ∧ ((pendingIn vtValidating).wr F.SEQ_PSET_ID_id 2).validationCode [] ≠ 0
    ∧ ((pendingIn vtLoading).vtState = vtLoading ∧ (pendingIn vtLoading).bit F.VTG_STAT_domain = false
      ∧ ((pendingIn vtLoading).wr F.VTG_STAT_domain 1).bit F.VTG_STAT_domain = true)
    ∧ ((pendingIn vtHeld).vtState = vtHeld ∧ (pendingIn vtHeld).releaseOver ⟨[], 0, false, []⟩ = true
      ∧ (pendingIn vtHeld).withdrawable = true ∧ (pendingIn vtValidating).withdrawable = true)
    ∧ ((pendingIn vtNegotiating [7]).vtState = vtNegotiating ∧ (pendingIn vtNegotiating [7]).cutoff = true) := by decide +kernel

theorem wit_VintagesTakeEffect :
    ((pendingIn vtArmed).vtState = vtArmed ∧ (pendingIn vtArmed).boundaryHere ⟨[], 0, false, []⟩ 0 = true
      ∧ (pendingIn vtArmed [7]).boundaryHere ⟨[], 0, false, [7]⟩ 3 = true ∧ ((pendingIn vtArmed).tdl1 7).farCancel = false)
    ∧ ((State.reset.wr F.VTG_STAT_state vtReturning).vtState = vtReturning
      ∧ (State.reset.wr F.VTG_STAT_state vtReturning).returnHere false = true) := by decide +kernel

/-- PREVIOUS is held, in a state of VTG_STAT. -/
def previousHeld (st : Nat) : State := (State.reset.wr F.VTG_STAT_state st).wr F.VTG_STAT_prev_valid 1

theorem wit_Probation : ((previousHeld vtIdle).bit F.VTG_STAT_prev_valid = true ∧ (previousHeld vtIdle).vtState ≠ vtReturning
      ∧ (previousHeld vtIdle).commitPending = false)
    ∧ (let s := withCur [(F.VTG_PROB_CFG_host_en, [], 1)] (previousHeld vtProbation)
       s.vtState = vtProbation ∧ s.commitPending = false ∧ s.curBit F.VTG_PROB_CFG_host_en = true ∧ s.probing = true
         ∧ s.overLimit s.vtg.ucb (s.cur F.VTG_PROB_THR_ucb_thr) = false
         ∧ s.overLimit s.vtg.dlm (s.cur F.VTG_PROB_THR_dlm_thr) = false
         ∧ 10 * s.window ≤ ({ s with vtg := { s.vtg with probTicks := 10 * s.window } } : State).vtg.probTicks) := by
  decide +kernel

/-- The row of an image of the vintage store that holds word a is poisoned. -/
def vintBad (img : Nat) (a : Nat := 0) (s : State := State.reset) : State :=
  { s with cel := { s.cel with rows := [(rowKey 6 (vintRow img a), true)], bad := [(rowKey 6 (vintRow img a), (Inject.mk 6 0 1 true).pattern)] } }

/-- The archived image of serial 3 is asked for; its slot holds no block. -/
def archiving : State :=
  let s := (State.reset.wr F.CEL_STAT_avail 1).wr F.VTG_ARCH_SEL_serial 3
  { s with vtg := { s.vtg with archive := [⟨3, true, 2, 1⟩] } }

theorem wit_Staging : (let s := State.reset.wr F.VTG_STG_ADDR_value (fldAddr F.GLB_SLICE_CTL_en [7])
      s.stagedLocked = false ∧ s.standby = false ∧ s.stageable (s.rd F.VTG_STG_ADDR_value) = true ∧ s.vtState ≠ vtReturning)
    ∧ State.reset.archived (State.reset.rd F.VTG_ARCH_SEL_serial) = none
    ∧ (archiving.archived (archiving.rd F.VTG_ARCH_SEL_serial) = some ⟨3, true, 2, 1⟩ ∧ archiving.celWaits = false
      ∧ (archiving.readImage ⟨3, true, 2, 1⟩).1.isNone = true ∧ (archiving.bit F.CEL_STAT_avail) = true)
    ∧ (archiving.readImage ⟨3, true, 2, 0⟩).1 = some []
    ∧ ({ archiving with cel := { archiving.cel with training := true } } : State).celWaits = true
    ∧ ((State.reset.wr F.VTG_STG_ADDR_value (fldAddr F.GLB_SLICE_CTL_en [7])).memWrite 6
        (vintRow 1 (fldAddr F.GLB_SLICE_CTL_en [7])) false).1 = true
    ∧ ((vintBad 1 (fldAddr F.GLB_SLICE_CTL_en [7])).memWrite 6 (vintRow 1 (fldAddr F.GLB_SLICE_CTL_en [7])) false).1 = false
    ∧ ((vintBad 3).vintRead 3).1 = true := by decide +kernel

theorem wit_Staging_sound : Sound State.reset 3 := fun _ h => nomatch h

/-- The tendril of slice 7 holds a good packet. -/
def told (typ : Nat) (id b : Nat) (s : State) : State :=
  s.setTdl 7 { s.tdl1 7 with inbox := [⟨typ, wordBytes id ++ wordBytes b ++ wordBytes 0 ++ wordBytes 0, 0, false⟩] }

theorem wit_Agreements :
    (((told tyPropose 9 5 State.reset).tdlHead 7 fun t => decide (t = tyPropose)).isSome = true
      ∧ (told tyPropose 9 5 State.reset).commits 7 = false)
    ∧ (let s := told tyAccept 0 0 (pendingIn vtNegotiating [7])
       (s.tdlHead 7 fun t => decide (t = tyAccept)) = some ⟨tyAccept, List.replicate 12 0, 0, false⟩ ∧ s.commits 7 = true
         ∧ s.vtState = vtNegotiating ∧ s.withdrawable = true ∧ payWord (List.replicate 12 0) 0 = s.changeId 7
         ∧ payWord (List.replicate 12 0) 1 = s.rd F.TDL_AGR_BND_value [7])
    ∧ ([tyRefuse, tyCancel].all fun ty => let s := told ty 0 0 (pendingIn vtNegotiating [7])
        (s.tdlHead 7 fun t => decide (t = ty)).isSome && s.withdrawable) = true
    ∧ (let s := told tyReturn 9 0 ((previousHeld vtIdle).setTdl 7 { State.reset.tdl1 7 with curId := some 9 })
       (s.tdlHead 7 fun t => decide (t = tyReturn)).map (fun g => payWord g.body 0) = (s.tdl1 7).curId
         ∧ s.bit F.VTG_STAT_prev_valid = true ∧ s.vtState ≠ vtReturning ∧ s.commitPending = false)
    ∧ (State.reset.wr F.TDL_PROP_STAT_held 1 [7]).bit F.TDL_PROP_STAT_held [7] = true
    ∧ (let s := (pendingIn vtNegotiating [7]).wr F.GLB_SLICE_STAT_state slLit [7]
       s.vtState = vtNegotiating ∧ s.commits 7 = true ∧ (s.tdl1 7).accRx = false ∧ s.lit 7 = true ∧ s.standby = false
         ∧ ((s.tdl1 7).queue.all fun p => p.typ ≠ tyPropose) = true)
    ∧ ((State.reset.setTdl 7 { State.reset.tdl1 7 with sending := some ⟨tyPropose, []⟩ }).tdl1 7).sending = some ⟨tyPropose, []⟩ := by
  decide +kernel

/-- Window 3 is set to ask domain 63, which is present and reached through port 5. -/
def remote : State :=
  let s := withRegs [(F.PRY_RFW_CMD_dom, [3], 63), (F.PRY_DOM_NODE_present, [63], 1), (F.PRY_PORT_STAT_state, [5], 2)] (inMode modePrepare)
  { s with pry := { s.pry with routes := [(63, some 5)] } }

/-- Port p holds a message. -/
def inbox (p : Nat) (m : PryMsg) (s : State := State.reset) : State := s.setPort p { s.port p with inbox := [m] }

theorem wit_RemoteFabric :
    (remote.blockGated 15 = false ∧ State.reset.blockGated 15 = true ∧ remote.bit F.PRY_RFW_CMD_busy [3] = false ∧ remote.rd F.PRY_RFW_CMD_dom [3] ≠ remote.rd F.PRY_DOM_STAT_dom
      ∧ remote.bit F.PRY_DOM_NODE_present [remote.rd F.PRY_RFW_CMD_dom [3]] = true ∧ remote.rd F.PRY_RFW_CMD_dom [3] < 64
      ∧ remote.portFor (remote.rd F.PRY_RFW_CMD_dom [3]) < 6 ∧ remote.linked (remote.portFor (remote.rd F.PRY_RFW_CMD_dom [3])) = true)
    ∧ (remote.wr F.PRY_RFW_CMD_busy 1 [3]).bit F.PRY_RFW_CMD_busy [3] = true
    ∧ (let m : PryMsg := ⟨2, 2, 0, 63, [255 * 2 ^ 16, 9]⟩
       let s : State := inbox 5 m { remote with pry := { remote.pry with txn := [(3, some (255, false))] } }
       (tabGet none s.pry.txn 3).isSome = true ∧ takeMsg (fun m => decide (m.cls = 2 ∧ m.kind = 2)) (s.port 5).inbox = some (m, [])
         ∧ s.tunnelHere { m with dst := s.rd F.PRY_DOM_STAT_dom } = true ∧ s.windowOf (m.words.getD 0 0 / 2 ^ 16 % 256) = some 3)
    ∧ (let m : PryMsg := ⟨2, 1, 63, 0, [0, 0, 0]⟩
       let s := inbox 0 m remote
       takeMsg (fun m => decide (m.cls = 2 ∧ m.kind ≤ 1)) (s.port 0).inbox = some (m, []) ∧ s.tunnelHere m = false
         ∧ s.portFor m.dst ≠ 0 ∧ s.linked (s.portFor m.dst) = true) := by decide +kernel

/-- Every VF is enabled. -/
def vfsUp (s : State) : State := { s with hif := { s.hif with vfEnable := true, numVfs := 15 } }

theorem wit_HostAccess_reach : hostUp.reaches 0 = true ∧ (vfsUp hostUp).reaches 15 = true ∧ hostUp.linkAnswers = true
    ∧ ({ State.reset with hif := { State.reset.hif with linkUp := false } } : State).linkAnswers = false
    ∧ ({ State.reset with ctl := { State.reset.ctl with hostClk := false } } : State).linkAnswers = false
    ∧ (let s := vfsUp (hostUp (holds2 31))
       s.reaches 15 = true ∧ (s.hostRequest 15).dmaOn 31 = false ∧ ((s.hostRequest 15).popWord 31).isSome = true) := by
  decide +kernel

theorem wit_QueueWords_window : (let s := vfsUp hostUp
    s.reaches 15 = true ∧ (s.queue 15).pkts = [] ∧ (s.queue 15).refuse = 0 ∧ (s.queue 15).discard = 0 ∧ (s.queue 15).taker = none)
    ∧ 1 < (0xFFF : BitVec 32).toNat % 4096 := by decide +kernel

theorem wit_HostDelivery_link : (let s := hostUp draining
    s.linkAnswers = true ∧ s.bit F.HIF_DMA_CFG_en [17] = true ∧ 1 ≤ s.ringFree 17
      ∧ (s.queue (16 + 17)).pkts = [⟨1, 1, [5], false⟩, ⟨1, 1, [6], false⟩])
    ∧ State.reset.ctl.recoverRun = false ∧ (127 : Fin 256).val < 128 := by decide +kernel

theorem wit_CommitStages_loading : (let s := pendingIn vtLoading [7]
    s.vtState = vtLoading ∧ s.vtg.commit = some ⟨[], 0, false, [7]⟩ ∧ s.bit F.TDL_PROP_STAT_held [7] = false)
    ∧ State.reset.withdrawable = false := by decide +kernel

theorem wit_Probation_overLimit :
    (let s := withCur [(F.VTG_PROB_THR_ucb_thr, [], 1), (F.VTG_PROB_CFG_judge_mask, [], 128)] (previousHeld vtProbation)
     let s : State := { s with vtg := { s.vtg with ucb := [(7, 2)] } }
     s.bit F.VTG_STAT_prev_valid = true ∧ s.probing = true ∧ s.commitPending = false
       ∧ s.overLimit s.vtg.ucb (s.cur F.VTG_PROB_THR_ucb_thr) = true)
    ∧ (previousHeld vtProbation).vtState = vtProbation := by decide +kernel

theorem wit_Agreements_sent :
    (let s := State.reset.setTdl 7 { State.reset.tdl1 7 with sending := some ⟨0xFF, []⟩ }
     (s.tdl1 7).sending = some ⟨0xFF, []⟩ ∧ 0xFF ≠ tyAccept ∧ 0x80 ≤ 0xFF)
    ∧ ([tyRefuse, tyCancel].all fun ty => let s := told ty 0 0 (pendingIn vtNegotiating [7])
        s.commits 7 && decide ((s.tdlHead 7 fun t => decide (t = ty)).map (fun g => payWord g.body 0) = some (s.changeId 7))) = true := by
  decide +kernel

theorem wit_RemoteFabric_here :
    (let m : PryMsg := ⟨2, 0, 0, 63, [255 * 2 ^ 16, 0x20, 0]⟩
     let s := inbox 5 m remote
     takeMsg (fun m => decide (m.cls = 2 ∧ m.kind ≤ 1)) (s.port 5).inbox = some (m, []) ∧ s.tunnelHere m = true ∧ s.upClocked = false
       ∧ (((s.setPort 5 { s.port 5 with inbox := [] }).innerRead 0x20).1.isSome) = true
       ∧ ((s.setPort 5 { s.port 5 with inbox := [] }).innerRead 0x20).2.linked 5 = true) := by decide +kernel

theorem wit_CommitStages_sound : Sound (pendingIn vtLoading [7]) 1 ∧ ((vintBad 1).vintRead 1).1 = true
    ∧ ((vintBad 1 0 (pendingIn vtLoading)).vtState = vtLoading) :=
  ⟨fun _ h => (nomatch h), by decide +kernel, by decide +kernel⟩

theorem wit_ControlComplexReset_sound : Sound (previousHeld vtProbation) 2 ∧ Sound State.reset 0
    ∧ (let s : State := { vintBad 0 with ctl := { State.reset.ctl with ccPending := true } }
       (s.vintRead 0).1 = true ∧ s.exec.inFlight = [] ∧ s.ctl.ccPending = true ∧ s.ctl.ccLoop = false ∧ s.ctl.rePrev = false
         ∧ s.ctl.recoverRun = false) :=
  ⟨fun _ h => (nomatch h), fun _ h => (nomatch h), by decide +kernel⟩

theorem wit_Probation_sound : Sound (previousHeld vtIdle) 2 ∧ Sound (previousHeld vtProbation) 2
    ∧ ((vintBad 2 0 (previousHeld vtIdle)).vintRead 2).1 = true :=
  ⟨fun _ h => (nomatch h), fun _ h => (nomatch h), by decide +kernel⟩

theorem wit_Agreements_commit :
    (told tyPropose 9 5 State.reset).vtg.commit = none
    ∧ (let s := told tyPropose 9 5 ((pendingIn vtNegotiating [3]).wr F.GLB_SLICE_STAT_state slLit [7])
       (s.tdlHead 7 fun t => decide (t = tyPropose)).isSome = true ∧ s.vtg.commit.isSome = true ∧ s.commits 7 = false
         ∧ s.lit 7 = true ∧ s.standby = false)
    ∧ ([tyRefuse, tyCancel].all fun ty => let s := told ty 0 0 (pendingIn vtNegotiating [7])
        (s.tdlHead 7 fun t => decide (t = ty)).isSome && s.commits 7 && s.withdrawable
          && decide (payWord (List.replicate 12 0) 0 = s.changeId 7)) = true
    ∧ (let s := State.reset.wr F.TDL_PROP_STAT_held 1 [7]; s.lit 7 = false ∧ (s.wr F.GLB_SLICE_STAT_state slLit [7]).lit 7 = true)
    ∧ ((State.reset.setTdl 7 { State.reset.tdl1 7 with sending := some ⟨tyRefuse, []⟩ }).tdl1 7).sending.map TdlPkt.typ ≠ some tyAccept := by
  decide +kernel

theorem wit_Agreements_sound :
    Sound (told tyReturn 9 0 ((previousHeld vtIdle).setTdl 7 { State.reset.tdl1 7 with curId := some 9 })) 2 := fun _ h => nomatch h

/-! ### Witnesses: the line slices (chapters 07 to 10) -/

/-- Slice 7 in a state, with fields of its own registers. -/
def lit7 (l : List (Fld × List Nat × Nat) := []) (s : State := State.reset) : State :=
  withRegs ((F.GLB_SLICE_STAT_state, [7], slLit) :: l) s

/-- The converters of slice 7 changed. -/
def conv7 (f : Conv → Conv) (s : State) : State := s.setConv 7 (f (s.conv1 7))

/-- A solera use in which request 7 of class 7 waits. -/
def waits7 (cls : Nat := 7) : Solera := ⟨[⟨cls, 7, 0, 0, 1⟩], [], [], [], 0⟩

/-- A calibration run is asked for by slice 7, which may have an engine. -/
def asking (restore : Bool) : State :=
  let s := conv7 (fun c => { c with wait := some restore }) (lit7 [(F.GLB_MODE_mode, [], modePrepare)])
  { s with calEng := waits7 }

theorem wit_RecalCauses : State.reset.sliceState 7 = slDark
    ∧ (let s := withCur [(F.CNV_GEN_CFG_use, [7], 1)] lit7
       s.curBit F.CNV_GEN_CFG_use [7] = true ∧ s.sliceState 7 ≠ slDark)
    ∧ ((slice7 slDraining).lit 7 = false ∧ (slice7 slDraining).sliceState 7 ≠ slDark)
    ∧ ((lit7).curBit F.CNV_GEN_CFG_use [7] = false ∧ (lit7).lit 7 = true)
    ∧ ([modePrepare, 4].all fun m => let s := lit7 [(F.GLB_MODE_mode, [], m)]
        decide (1 ≤ s.mode ∧ s.mode ≤ 4 ∧ s.calBusy 7 = false ∧ (s.conv1 7).wait ≠ some true)) = true
    ∧ State.reset.cur F.CNV_RECAL_CFG_interval [0] = State.reset.cur F.CNV_RECAL_CFG_interval [7]
    ∧ (withCur [(F.CNV_RECAL_CFG_interval, [7], 0)] State.reset).cur F.CNV_RECAL_CFG_interval [7] = 0
    ∧ (withCur [(F.CNV_RECAL_CFG_interval, [7], 1)] State.reset).cur F.CNV_RECAL_CFG_interval [7] ≠ 0
    ∧ (let s := conv7 (fun c => { c with lastTemp := some 0 }) State.reset
       s.tempCause 7 (511#10).toInt = true ∧ s.tempCause 7 (4#10).toInt = false)
    ∧ (State.reset.bit F.CNV_STAT_run_active [7] = false
      ∧ (lit7 [(F.CNV_STAT_run_active, [7], 1)]).bit F.CNV_STAT_run_active [7] = true)
    ∧ (State.reset.setClaim 0x14 ⟨some 1, []⟩).claimed 0x14 = true
    ∧ ([true, false].all fun b => let s := asking b
        decide (s.claimed 0x14 = false ∧ s.enginesBusy < 4 ∧ (s.conv1 7).wait = some b)
          && ((s.calEng.grant (fun i => max 1 (s.rd F.CNV_SOL_CFG_weight [i])) (fun r => s.engineOk r.cls)).any
            fun g => decide (g.1.cls = 7))) = true := by decide +kernel

/-- Slice 7 runs a calibration, or a rotation that restores: its stage and phase. -/
def running7 (stage phase : Nat) (restore : Bool := false) : State :=
  lit7 [(if restore then F.CNV_STAT_restore_active else F.CNV_STAT_run_active, [7], 1), (F.CNV_RECAL_STAT_stage, [7], stage),
    (F.CNV_RECAL_STAT_phase, [7], phase)]

theorem wit_RecalPhases : ((running7 1 0).rd F.CNV_RECAL_STAT_stage [7] = 1 ∧ (running7 1 0).matchFails 7 [] ≠ 0
      ∧ (running7 1 0).matchFails 7 (List.replicate 4 ⟨⟨0, 0, 0⟩, ⟨0, 0⟩, ⟨0, 0⟩⟩) = 0
      ∧ ((running7 1 0).conv1 7).retried = 0 ∧ (running7 1 0).noSpare 7 = 0 ∧ (running7 1 0).noSpare 7 / 2 ^ 3 % 2 ≠ 1)
    ∧ ((conv7 (fun c => { c with retried := 8 }) (running7 1 0)).conv1 7).retried ≠ 0
    ∧ ((running7 2 63).bit F.CNV_STAT_run_active [7] = true ∧ (running7 2 63).rd F.CNV_RECAL_STAT_stage [7] = 2
      ∧ ((running7 2 63).conv1 7).retried / 2 ^ 3 % 2 ≠ 1)
    ∧ ((running7 2 0 true).bit F.CNV_STAT_run_active [7] = false ∧ (running7 2 0 true).bit F.CNV_STAT_restore_active [7] = true
      ∧ (running7 2 0 true).rd F.CNV_RECAL_STAT_stage [7] = 2)
    ∧ ([true, false].all fun b => decide ((running7 3 62 b).calBusy 7 = true ∧ (running7 3 62 b).rd F.CNV_RECAL_STAT_stage [7] = 3
        ∧ (running7 3 62 b).rd F.CNV_RECAL_STAT_phase [7] < 63 ∧ ((running7 3 62 b).conv1 7).retried / 2 ^ 3 % 2 ≠ 1
        ∧ (running7 3 63 b).calBusy 7 = true ∧ (running7 3 63 b).rd F.CNV_RECAL_STAT_stage [7] = 3
        ∧ 63 ≤ (running7 3 63 b).rd F.CNV_RECAL_STAT_phase [7])) = true
    ∧ ([true, false].all fun b => let s := conv7 (fun c => { c with lateStep := true }) (running7 0 63 b)
        decide ((s.conv1 7).lateStep = true ∧ s.bit F.CNV_STAT_restore_active [7] = b ∧ s.bit F.CNV_STAT_run_active [7] = !b)) = true
    ∧ (let s := conv7 (fun c => { c with saves := [Gen.neutral] }) State.reset
       (s.conv1 7).saves = [Gen.neutral] ∧ s.claimed 0x1F = false ∧ (s.conv1 7).saveRetry = false
         ∧ ((conv7 (fun c => { c with saveRetry := true }) s).conv1 7).saveRetry = true) := by decide +kernel

/-- The mean of a spare lies 1/16 LSB from the incumbent's, which is within the limit, and then a little more. -/
theorem wit_RecalPhases_match : Matched ⟨⟨0, 0, 0⟩, ⟨2 ^ 32, 2 ^ 16⟩, ⟨0, 2 ^ 16⟩⟩ ∧ ¬Matched ⟨⟨0, 0, 0⟩, ⟨2 ^ 32 + 1, 2 ^ 16⟩, ⟨0, 2 ^ 16⟩⟩ := by
  simp only [Matched]; decide

/-- A capture of slice 7 is in progress, for a number of segments. -/
def capturing (state : Nat) (l : List (Fld × List Nat × Nat) := []) (segs : Nat := 2) (trig : Nat := 1) : State :=
  { (lit7 ((F.CNV_CAP_STAT_state, [7], state) :: l)) with capture := ⟨some 7, segs, 0, trig, 15, 255, 0, 0, none, []⟩ }

theorem wit_ClippingAndCapture : ((lit7).lit 7 = true ∧ State.reset.lit 7 = false ∧ (lit7).rd F.CNV_CLIP_CFG_k [7] = 0)
    ∧ ((lit7 [(F.CNV_CLIP_CFG_k, [7], 3)]).rd F.CNV_CLIP_CFG_k [7] ≠ 0 ∧ (1, 1) ∈ (lit7 [(F.CNV_CLIP_CFG_k, [7], 3)]).clipCounts 7 [(3, 0, 127)]
      ∧ 1 < 1 * 2 ^ (lit7 [(F.CNV_CLIP_CFG_k, [7], 3)]).rd F.CNV_CLIP_CFG_k [7])
    ∧ (State.reset.sliceState 7 = slDark ∧ (capturing 1).capture.slice ≠ none ∧ (capturing 1).sliceState 7 ≠ slDark)
    ∧ ((slice7 slDraining).lit 7 = false ∧ (slice7 slDraining).sliceState 7 ≠ slDark)
    ∧ ((lit7 [(F.CNV_CAP_CFG_trig, [7], 1)]).capture.slice = none ∧ (lit7 [(F.CNV_CAP_CFG_trig, [7], 1)]).rd F.CNV_CAP_CFG_trig [7] = 1
      ∧ (lit7 [(F.CNV_CAP_CFG_trig, [7], 3)]).rd F.CNV_CAP_CFG_trig [7] = 3 ∧ (lit7).rd F.CNV_CAP_LEN_post [7] < 4096)
    ∧ ((capturing 1).rd F.CNV_CAP_STAT_state [7] = 1 ∧ (capturing 2).rd F.CNV_CAP_STAT_state [7] = 2
      ∧ (capturing 3).rd F.CNV_CAP_STAT_state [7] = 3 ∧ (capturing 1).capture.slice = some 7)
    ∧ (let s := capturing 3 [(F.CEL_STAT_avail, [], 1), (F.CEL_CAP_STAT_segs, [], 1)]
       s.bit F.CEL_STAT_avail = true ∧ s.rd F.CNV_CAP_STAT_done [7] + 1 < s.capture.segs
         ∧ s.rd F.CNV_CAP_STAT_done [7] < s.rd F.CEL_CAP_STAT_segs ∧ s.rd F.CNV_CAP_STAT_done [7] < 4095
         ∧ s.capture.trig = 1 ∧ s.celWaits = false ∧ (s.memRead 1 0).1 = false
         ∧ ({ s with cel := { s.cel with training := true } } : State).celWaits = true)
    ∧ (let s := capturing 3 [(F.CEL_STAT_avail, [], 1), (F.CEL_CAP_STAT_segs, [], 1)] 1
       s.capture.segs ≤ s.rd F.CNV_CAP_STAT_done [7] + 1 ∧ s.rd F.CNV_CAP_STAT_done [7] < s.rd F.CEL_CAP_STAT_segs)
    ∧ (capturing 3).bit F.CEL_STAT_avail = false
    ∧ (let s := capturing 3 [(F.CEL_STAT_avail, [], 1)]; s.rd F.CEL_CAP_STAT_segs ≤ s.rd F.CNV_CAP_STAT_done [7]) := by
  decide +kernel

theorem wit_ClippingAndCapture_triggers :
    CapWaits (capturing 1) (.timer 15) ∧ CapWaits (capturing 2 [] 2 2) (.event 255)
    ∧ ¬CapWaits (capturing 1) (.timer 14) ∧ ¬CapWaits (capturing 1) (.event 255)
    ∧ 2 ^ 0 + 512 * (capturing 1).capture.post < 2 ^ 21 := by
  simp only [CapWaits]; decide +kernel

/-- Slice 7 in a state of acquisition. -/
def acq7 (a : Nat) (f : Rx → Rx := id) : State :=
  let s := lit7 [(F.RXD_ACQ_STAT_state, [7], a)]
  s.setRx 7 (f (s.rx1 7))

/-- The adaptive state of slice 7 changed. -/
def dsp7 (a : Nat) (f : Dsp → Dsp) : State := acq7 a fun x => { x with dsp := f x.dsp }

theorem wit_Acquisition :
    ([acqClock, acqBlind, acqPilotSync, acqHold, acqSignal, acqCd, acqCarrier, acqTrack].all fun a => decide ((acq7 a).acq 7 = a)) = true
    ∧ ((atTime (2 ^ 63) (acq7 acqHold)).acqOver 7 = true ∧ (atTime (2 ^ 63) (acq7 acqCarrier)).acqOver 7 = true)
    ∧ ((204800 : Int).natAbs ≤ 204800 ∧ 204800 < (-204801 : Int).natAbs)
    ∧ (acq7 acqSignal).held 7 = false
    ∧ (withCur [(F.RXD_CD_SCAN_mode, [7], 0)] (acq7 acqCd)).scanDone 7 = true
    ∧ ((acq7 acqBlind fun x => { x with singulars := 3 }).rx1 7).singulars < 4
    ∧ 4 ≤ ((acq7 acqBlind fun x => { x with singulars := 4 }).rx1 7).singulars
    ∧ (acqClock ≤ (acq7 acqCarrier).acq 7 ∧ (acq7 acqCarrier).acq 7 ≤ acqCarrier)
    ∧ (((dsp7 acqCarrier fun d => { d with freq := -5000000000 }).dsp1 7).freq.natAbs ≤ 5000000000 ∧ 16 ≤ ((dsp7 acqCarrier fun d => { d with good := 16 }).dsp1 7).good)
    ∧ ((acq7 acqTrack).bit F.TIM_CLK_STAT_on_fallback = false
      ∧ 64 ≤ ((dsp7 acqTrack fun d => { d with low := (0, 64) }).dsp1 7).low.2)
    ∧ 51471 < (-51472 : Int).natAbs := by decide +kernel

/-- No spread and none left, and more of it than the equaliser has taps for. -/
theorem wit_Acquisition_blind : (let s := acq7 acqBlind
    let lim := (eqTaps (s.cur F.RXD_EQ_CFG_taps [7]) - 7) * (4 * 10 ^ 9)
    0 * baudOf (s.rxBaud 7) * 10 ^ 4 + (0 - toSigned 24 (s.rd F.RXD_CD_EST_cd [7])).natAbs * 80137 * baudOf (s.rxBaud 7) ^ 2 ≤ lim
      ∧ lim < 0 * baudOf (s.rxBaud 7) * 10 ^ 4 + (2 ^ 23 - toSigned 24 (s.rd F.RXD_CD_EST_cd [7])).natAbs * 80137 * baudOf (s.rxBaud 7) ^ 2) := by
  decide +kernel

/-- No symbols correlate with the pilots anywhere. -/
theorem syncPosition_nil (period baud : Nat) : syncPosition period baud [] = 0 := by
  have hz : ∀ a : Cx, Cx.mul ⟨0, 0⟩ a = ⟨0, 0⟩ := fun a => by simp [Cx.mul]
  have hp : ∀ y pos n, progress (pilotProducts y period baud pos n []) = ⟨0, 0⟩ := by
    intro y pos n
    simp only [pilotProducts, List.getD_nil, hz, List.map_const', progress, List.drop_replicate, List.zipWith_replicate]
    generalize (min _ _ : Nat) = k
    induction k with
    | zero => rfl
    | succ k ih => simp [cxSum, List.replicate_succ, Cx.add] at ih ⊢; exact ih
  have hm : ∀ pos, syncMetric period baud pos [] = 0 := by
    intro pos; simp [syncMetric, hp, Cx.power]
  have hf : ∀ l : List Nat, l.foldl (fun b p => if syncMetric period baud b [] < syncMetric period baud p [] then p else b) 0 = 0 := by
    intro l
    induction l with
    | nil => rfl
    | cons a l ih => simp only [hm] at ih ⊢; exact ih
  exact hf _

/-- No samples give no symbols, in which no pilot sequence is found. Where one is found depends on what RXD makes of samples, which
the spec leaves open (log 17). -/
theorem wit_Acquisition_sync : (acq7 acqPilotSync).acq 7 = acqPilotSync ∧ symbolsIn 0 = 0
    ∧ (((acq7 acqPilotSync).frontEnd 7 0 []).2.equalised 7 0 0 ((acq7 acqPilotSync).frontEnd 7 0 []).1).1 = []
    ∧ syncFound ((acq7 acqPilotSync).rxSet 7).period ((acq7 acqPilotSync).rxBaud 7) [] = none := by
  refine ⟨by decide +kernel, rfl, by simp only [State.equalised, Signal.round, List.range_zero, List.map_nil], ?_⟩
  have h : 4096 * ((acq7 acqPilotSync).rxSet 7).period % superframeSymbols ((acq7 acqPilotSync).rxBaud 7) ≠ 0 := by decide +kernel
  simp only [syncFound, List.drop_nil, syncPosition_nil, Nat.zero_add]
  simp only [if_neg (Ne.symm h)]

/-- The transmitter of slice 7 changed. -/
def tx7 (f : Tx → Tx) (s : State := lit7) : State := s.setTx 7 (f (s.tx1 7))

theorem wit_TransmitBoundaries :
    ((lit7 [(F.TXD_MUTE_force, [7], 1)]).lit 7 = true ∧ (lit7 [(F.TXD_MUTE_force, [7], 1)]).bit F.TXD_MUTE_force [7] = true
      ∧ (lit7).held 7 = false)
    ∧ ((slice7 slDraining).sliceState 7 = slDraining ∧ (slice7 slDraining).held 7 = false)
    ∧ (let s := (pendingIn vtArmed [7] (imgPut [] F.TXD_MODE_CFG_baud 1 [7])).wr F.GLB_SLICE_STAT_state slLit [7]
       s.nextImg = some (imgPut [] F.TXD_MODE_CFG_baud 1 [7]) ∧ s.lit 7 = true
         ∧ imgGet (imgPut [] F.TXD_MODE_CFG_baud 1 [7]) F.TXD_MODE_CFG_baud [7] ≠ s.cur F.TXD_MODE_CFG_baud [7])
    ∧ ((tx7 fun x => { x with rate := .relock }).tx1 7).rate = .relock
    ∧ ((tx7 fun x => { x with rate := .restartRelock }).tx1 7).rate = .restartRelock
    ∧ ((tx7 fun x => { x with first := false }).tx1 7).first = false ∧ ((lit7).tx1 7).first = true
    ∧ (((lit7).tx1 7).newStart = true ∧ ((lit7).tx1 7).rate = .none
      ∧ ((tx7 fun x => { x with newStart := false }).tx1 7).newStart = false)
    ∧ (let s := lit7 [(F.PRY_TWIN_STAT_pair, [], 2), (F.PRY_TWIN_CFG_mark_en, [], 1)]
       let s := { (s.setLfr 7 { s.lfr1 7 with txMfi := 15, txMfas := 255 }).setTx 7 { s.tx1 7 with first := false } with grid := ⟨0, 4095⟩ }
       s.onGrid 7 = true ∧ s.txPlace 7 = 4095 ∧ s.grid.frame = 4095 ∧ s.rd F.PRY_TWIN_STAT_pair = 2
         ∧ s.bit F.PRY_TWIN_CFG_mark_en = true ∧ (s.gridSlices.all fun k => decide (s.txPlace k = 4095)) = true) := by decide +kernel

/-- Slice 7 runs on a grid that is at frame n of its superframe, and has begun frame m. -/
def onGrid7 (n m : Nat) : State :=
  let s := tx7 fun x => { x with first := false }
  { s.setLfr 7 { s.lfr1 7 with txMfi := m / 256, txMfas := m % 256 } with grid := ⟨0, n⟩ }

theorem wit_TransmitBoundaries_grid :
    ((onGrid7 5 5).onGrid 7 = true ∧ ((onGrid7 5 5).gridTurn 7).isSome = true ∧ (onGrid7 5 6).gridTurn 7 = none)
    ∧ ((onGrid7 0 4095).txPlace 7 = 4095 ∧ (onGrid7 0 0).txPlace 7 ≠ 4095 ∧ ((onGrid7 0 0).tx1 7).first = false)
    ∧ (lit7).gridSlices = []
    ∧ ([0, 4095, 1].all fun n => let s := (onGrid7 n n).wr F.GLB_SLICE_STAT_state slLit [0]
        decide (s.lit 0 = true ∧ (s.tx1 0).first = true ∧ s.gridSlices ≠ [] ∧ s.grid.frame = n)) = true
    ∧ (let s : State := { slice7 slDraining with ctl := { (slice7 slDraining).ctl with drainShort := [(7, true)] } }
       s.sliceState 7 = slDraining ∧ tabGet false s.ctl.drainShort 7 = true
         ∧ tabGet false (slice7 slDraining).ctl.drainShort 7 = false) := by decide +kernel

/-- A row of a memory class is poisoned. -/
def rowBad (cls row : Nat) (s : State) : State :=
  { s with cel := { s.cel with rows := [(rowKey cls row, true)], bad := [(rowKey cls row, (Inject.mk cls 0 1 true).pattern)] } }

/-- Slice 7 in TRACK, with this pool and this block alignment. -/
def pool7 (p : Pool) (sync : Nat := 2) (a : Align := Align.fresh) : State :=
  ({ (acq7 acqTrack) with pool := p }.wr F.FEC_STAT_sync sync [7]).setAlign 7 a

/-- A block of slice 7 that has had some iterations, and pools with one, or filled with blocks that can be evicted or not. -/
def block7 (iters : Nat) : Block := ⟨0, 7, 4, 128, iters, 0, 0, 0, true, (0, 0), ⟨0, 0, 0⟩, [], ⟨[], []⟩⟩
def decided7 (locked first : Bool) : Decided := ⟨0, 7, true, first, locked, false, 0, ⟨0, 0, 0⟩, []⟩
def poolOf (bs : List Block) (store : List Decided := []) : Pool := ⟨0, 1, bs, store, [], [], []⟩

/-- A failed cell of a row is corrected again at every read and counted each time; a second error beside it poisons the row (R411). -/
theorem test_failed_cell :
    (let cel := fun (xs : Tab (List Nat)) => { Cel.fresh with rows := [(rowKey 5 0, true)], bad := xs, hard := [(rowKey 5 0, (Inject.mk 5 3 3 false).pattern)] }
     let s : State := { State.reset with cel := cel [] }
     let t := (s.memRead 5 0).2
     ((s.memRead 5 0).1, (t.memRead 5 0).1, tabGet 0 (t.memRead 5 0).2.counters 669) = (false, false, 2)
      ∧ ({ s with cel := cel [(rowKey 5 0, (Inject.mk 5 0 0 false).pattern)] } : State).rowResult 5 0 = .poisoned) := by
  decide +kernel

theorem wit_DecoderPool : (State.reset.acq 7 ≠ acqTrack)
    ∧ ((pool7 (poolOf [block7 0])).acq 7 = acqTrack ∧ (pool7 (poolOf [block7 0])).lit 7 = true
      ∧ (pool7 (poolOf [block7 0])).pool.blocks.length < 4096)
    ∧ ((pool7 (poolOf [block7 0])).pool.blocks = [block7 0] ∧ (pool7 (poolOf [block7 0])).slotBlocks.1 = [block7 0])
    ∧ ([(true, true, 0), (true, false, 0), (true, false, 15), (false, true, 0)].all fun (locked, first, n) =>
        let s := pool7 (poolOf [] [decided7 locked first]) 2 { Align.fresh with held := List.replicate n (decided7 true false) }
        decide (s.pool.nextRelease 7 = some (decided7 locked first) ∧ (s.align1 7).held.length % 16 = n)) = true
    ∧ (pool7 (poolOf []) 2).pool.nextRelease 7 = none
    ∧ (let s := fun n => pool7 (poolOf []) 1 { Align.fresh with trial := 16, good := n }
       (s 12).rd F.FEC_STAT_sync [7] = 1 ∧ 16 ≤ ((s 12).align1 7).trial ∧ 12 ≤ ((s 12).align1 7).good ∧ ((s 11).align1 7).good < 12)
    ∧ 64 ≤ ((pool7 (poolOf []) 2 { Align.fresh with bad := 64 }).align1 7).bad
    ∧ (((pool7 (poolOf []) 2 { Align.fresh with held := List.replicate 16 (decided7 true true) }).align1 7).held
        = decided7 true true :: List.replicate 15 (decided7 true true))
    ∧ (pool7 (poolOf [])).rxdTarget 7 = ((pool7 (poolOf [])).rx1 7).rxd ∧ (pool7 (poolOf [])).cel.inj = none
    ∧ (pool7 (poolOf [])).cel.hard = []
    ∧ (let s := pool7 (poolOf [block7 0])
       let s : State := { s with cel := { s.cel with rows := [(rowKey 3 (contextRow (block7 0)), true)] } }
       (s.memRead 3 (contextRow (block7 0))).1 = false ∧ s.slotBlocks.1 = [block7 0])
    ∧ (let s := pool7 (poolOf [] [decided7 true true])
       (s.memRead 3 (reorderRow 7 0)).1 = false ∧ (rowBad 3 (reorderRow 7 0) s |>.memRead 3 (reorderRow 7 0)).1 = true)
    ∧ (0 + 1 < 100 * 1 ∧ 99 ≠ 0 ∧ 100 * 1 ≤ 99 + 1) := by decide +kernel

/-- A full pool of blocks that can or cannot be evicted. -/
theorem wit_DecoderPool_full : (pool7 (poolOf [])).classB (block7 24) = false ∧ (pool7 (poolOf [])).classB (block7 5) = true
    ∧ (block7 5).slice < 8 ∧ (block7 24).id < (poolOf []).nextId := by
  decide +kernel

theorem wit_DecoderPool_full_length : (List.replicate 4096 (block7 24)).length = 4096 := List.length_replicate

theorem wit_DecoderPool_full_none :
    ((List.replicate 4096 (block7 24)).find? fun x => (pool7 (poolOf [])).classB x) = none := by
  rw [List.find?_eq_none]
  intro x h
  rw [List.eq_of_mem_replicate h]
  decide +kernel

/-- A word without errors has none to place. -/
theorem wit_DecoderPool_words : errorPlaces [] = some [] := by decide +kernel

/-- Decisions that no column has are all 0, and leave no check unsatisfied, whatever the parity-check ROM holds. -/
theorem wit_DecoderPool_converges (rate : Nat) : ((⟨[], []⟩ : Decoding).iterate rate).unsat rate = 0 := by
  have hset : ∀ (l : List (Nat × Nat)) (f : Nat × Nat → Int),
      l.foldl (fun (a : List Int) p => a.set p.1 (f p)) [] = [] := by
    intro l f
    induction l with
    | nil => rfl
    | cons x l ih => simpa using ih
  have hcols : ∀ (l : List Nat) (d : Decoding), d.cols = [] → (l.foldl (Decoding.check rate) d).cols = [] := by
    intro l
    induction l with
    | nil => intro d h; exact h
    | cons r l ih => intro d h; refine ih _ ?_; simp only [Decoding.check, h]; exact hset _ _
  have hb : ∀ k, ((⟨[], []⟩ : Decoding).iterate rate).bit k = false := by
    intro k
    simp [Decoding.bit, Decoding.iterate, hcols]
  have hx : ∀ l : List Nat, (l.map ((⟨[], []⟩ : Decoding).iterate rate).bit).foldl xor false = false := by
    intro l
    induction l with
    | nil => rfl
    | cons a l ih => simpa [hb] using ih
  simp [Decoding.unsat, hx]

/-! ### Witnesses: tendril, line frame, channels, keys, clients and the cellar (chapters 11 to 16) -/

/-- The tendril of slice 7 changed, the slice LIT. -/
def tdl7 (f : Tdl → Tdl) (s : State := lit7) : State := s.setTdl 7 (f (s.tdl1 7))

/-- A packet of one byte after its preamble, and the spread symbols of a header of a given payload length. -/
def packet1 : List Bool := (packetSpread 5 0x80 3 [7]).drop 64
def headerSymbols (len : Nat) : List Bool :=
  withPilots (columns ((groupsOf 12 4 (toBits 48 (5 * 2 ^ 24 + 0x80 * 2 ^ 16 + len * 2 ^ 8))).map golay))

/-- Spread symbols decided with no gain and an SNR. -/
def decided (bs : List Bool) (snr : Nat := 0) : List TdlDecision := bs.map fun b => ⟨0, b, ⟨⟨0, 0⟩, ⟨0, 0⟩⟩, snr⟩

theorem wit_TendrilPackets :
    (let s := tdl7 (fun x => { x with queue := [⟨tyHello, []⟩, ⟨tyPropose, [1]⟩] })
     (s.tdl1 7).sending = none ∧ nextPkt (s.tdl1 7).queue = some ⟨tyPropose, [1]⟩ ∧ s.lit 7 = true)
    ∧ (let s := withCur [(F.TDL_TX_CFG_en, [7], 1), (F.TDL_TX_CFG_hello, [7], 1)] lit7
       s.curBit F.TDL_TX_CFG_en [7] = true ∧ s.cur F.TDL_TX_CFG_hello [7] ≠ 0 ∧ s.lit 7 = true ∧ s.standby = false)
    ∧ (let s := withCur [(F.TDL_RX_CFG_sf_mask, [7], 1), (F.TDL_RX_CFG_det_thr, [7], 4), (F.TDL_RX_CFG_cap_margin, [7], 2)] (acq7 acqTrack)
       s.lit 7 = true ∧ (s.tdl1 7).rx = none ∧ s.tdlSearches 7 0 = true ∧ 2 * s.cur F.TDL_RX_CFG_det_thr [7] ≤ 8
         ∧ (let s := tdl7 (fun x => { x with rx := some ⟨0, 10, 0, none, []⟩ }) s
            (s.tdl1 7).rx = some ⟨0, 10, 0, none, []⟩ ∧ ¬(0 = 0 ∧ ((2 : Int) - 0).natAbs ≤ 1)
              ∧ 10 + 2 * s.cur F.TDL_RX_CFG_cap_margin [7] ≤ 14 ∧ 13 < 10 + 2 * s.cur F.TDL_RX_CFG_cap_margin [7]))
    ∧ ((tdl7 fun x => { x with rx := some ⟨0, 0, 0, none, []⟩ }).tdl1 7).rx = some ⟨0, 0, 0, none, []⟩
    ∧ ([(tyHello, tyHello, tyHello), (tySwitch, tySwitch, tySwitch), (0x80, 0x80, 0xFF)].all fun e =>
        (((told e.1 0 0 State.reset).tdlHead 7 fun t => decide (e.2.1 ≤ t ∧ t ≤ e.2.2))).isSome) = true
    ∧ ((told 0x80 0 0 State.reset).bit F.TDL_MB_RX_STAT_full [7] = false
      ∧ ((told 0x80 0 0 State.reset).wr F.TDL_MB_RX_STAT_full 1 [7]).bit F.TDL_MB_RX_STAT_full [7] = true)
    ∧ (State.reset.sliceState 7 = slDark ∧ (lit7).sliceState 7 ≠ slDark)
    ∧ (lit7 [(F.TDL_MB_TX_CMD_busy, [7], 1)]).bit F.TDL_MB_TX_CMD_busy [7] = true
    ∧ (let s := lit7 [(F.TDL_MB_TX_CMD_type, [7], 0x80)]
       s.bit F.TDL_MB_TX_CMD_busy [7] = false ∧ 0x80 ≤ s.rd F.TDL_MB_TX_CMD_type [7] ∧ s.lit 7 = true ∧ s.standby = false)
    ∧ (let s := withCur [(F.RXD_TDC_CFG_en, [7], 1), (F.RXD_TDC_CFG_conf, [7], 0)] (tdl7 fun x => { x with rx := some ⟨0, 0, 0, none, []⟩ })
       s.curBit F.RXD_TDC_CFG_en [7] = true ∧ 4 * (3 + s.cur F.RXD_TDC_CFG_conf [7]) ≤ 12
         ∧ 11 < 4 * (3 + s.cur F.RXD_TDC_CFG_conf [7]))
    ∧ (let d : TdlDetect := ⟨0, 8, (0, 0), 0, 0, 2⟩
       (acq7 acqTrack).inSearch 7 d = true ∧ (acq7 acqTrack).detectPeak 7 d = 8 ∧ (acq7 acqCarrier).acq 7 ≠ acqTrack
         ∧ (acq7 acqCarrier).inSearch 7 ⟨0, 0, (2 ^ 16, 2 ^ 16), -5000000000, 0, 2⟩ = true
         ∧ 5 * 10 ^ 9 < (-5000000001 : Int).natAbs)
    ∧ (List.replicate 240 0).length ≤ 240 ∧ (0x7F < 0x80) := by
  decide +kernel

theorem wit_TendrilPackets_headers :
    (let got := [] ++ (decided (headerSymbols 240)).map TdlDecision.bit
     108 ≤ got.length ∧ (headerOf (withoutPilots got)).any (fun h => decide (hdrField h 32 8 ≤ 240)) = true)
    ∧ (let got := [] ++ (decided (headerSymbols 241)).map TdlDecision.bit
       108 ≤ got.length ∧ (headerOf (withoutPilots got)).any (fun h => decide (240 < hdrField h 32 8)) = true)
    ∧ ([] ++ (decided [true]).map TdlDecision.bit).length < 108 := by decide +kernel

theorem wit_TendrilPackets_packet :
    (let h := toBits 48 (5 * 2 ^ 24 + 0x80 * 2 ^ 16 + 2 ^ 8 + 3 * 4)
     let s := tdl7 fun x => { x with rx := some ⟨0, 0, 0, some h, packet1⟩ }
     let n := hdrField h 32 8
     let body := bodyOf (codewords n - 4) (withoutPilots packet1)
     headerOf (withoutPilots packet1) = some h ∧ (s.tdl1 7).rx = some ⟨0, 0, 0, some h, packet1⟩
       ∧ 27 * codewords n ≤ packet1.length ∧ (packet1.take 108).length < 27 * codewords n
       ∧ fcs32 (h ++ body.take (8 * n)) = ofBits ((body.drop (8 * n)).take 32)
       ∧ fcs32 (toBits 48 0 ++ body.take (8 * n)) ≠ ofBits ((body.drop (8 * n)).take 32)
       ∧ 0x80 ≤ hdrField h 24 8 ∧ (s.tdl1 7).last ≠ some (hdrField h 0 24, hdrField h 40 6)) := by decide +kernel

/-- The line frame of slice 7 in a state of frame alignment. -/
def frame7 (st : Nat) (f : Lfr → Lfr := id) (l : List (Fld × List Nat × Nat) := []) : State :=
  let s := lit7 ([(F.FEC_STAT_sync, [7], 2), (F.LFR_STAT_state, [7], st)] ++ l)
  s.setLfr 7 (f (s.lfr1 7))

/-- The FAS, or another word, and the bits of zeros after it. -/
def fasBits (n : Nat) (w : Nat := fasWord) : List (Bool × Bool) := (toBits 48 w ++ List.replicate n false).map fun b => (b, false)

theorem wit_LineFrame_alignment :
    (let s := withCur [(F.LFR_ALIGN_CFG_srch_err, [7], 0)] (frame7 0 fun l => { l with window := fasBits 0 })
     s.rd F.FEC_STAT_sync [7] = 2 ∧ s.rd F.LFR_STAT_state [7] = 0 ∧ (s.lfr1 7).cand = none
       ∧ (s.lfr1 7).findFas (s.cur F.LFR_ALIGN_CFG_srch_err [7]) = some 0
       ∧ ({ s.lfr1 7 with window := fasBits 0 0 } : Lfr).findFas (s.cur F.LFR_ALIGN_CFG_srch_err [7]) = none)
    ∧ (let s := withCur [(F.LFR_ALIGN_CFG_next_chk, [7], 1), (F.LFR_ALIGN_CFG_keep_err, [7], 0)]
         (frame7 1 fun l => { l with window := fasBits 1, cand := some (0, 0) })
       s.rd F.LFR_STAT_state [7] = 1 ∧ (s.lfr1 7).cand = some (0, 0) ∧ (s.lfr1 7).holds (s.lfr1 7).next 49 = true
         ∧ (s.lfr1 7).fasErrs (s.lfr1 7).nextStart ≤ s.cur F.LFR_ALIGN_CFG_keep_err [7]
         ∧ max 1 (s.cur F.LFR_ALIGN_CFG_next_chk [7]) ≤ 0 + 1
         ∧ (let s := withCur [(F.LFR_ALIGN_CFG_next_chk, [7], 2)] s; 0 + 1 < max 1 (s.cur F.LFR_ALIGN_CFG_next_chk [7]))
         ∧ (let l : Lfr := { s.lfr1 7 with window := fasBits 1 0 }; s.cur F.LFR_ALIGN_CFG_keep_err [7] < l.fasErrs l.nextStart))
    ∧ (let s := withCur [(F.LFR_ALIGN_CFG_keep_err, [7], 0), (F.LFR_ALIGN_CFG_oof_n, [7], 1)] (frame7 2 fun l => { l with window := fasBits 49 0 })
       s.rd F.LFR_STAT_state [7] = 2 ∧ (s.lfr1 7).holds (s.lfr1 7).next 97 = true ∧ s.cel.inj = none ∧ s.cel.hard = []
         ∧ s.cur F.LFR_ALIGN_CFG_keep_err [7] < (s.lfr1 7).fasErrs (s.lfr1 7).nextStart
         ∧ max 1 (s.cur F.LFR_ALIGN_CFG_oof_n [7]) ≤ (s.lfr1 7).badFas + 1
         ∧ (let s := withCur [(F.LFR_ALIGN_CFG_oof_n, [7], 2)] s; (s.lfr1 7).badFas + 1 < max 1 (s.cur F.LFR_ALIGN_CFG_oof_n [7]))
         ∧ (let l : Lfr := { s.lfr1 7 with window := fasBits 49 }; l.fasErrs l.nextStart ≤ s.cur F.LFR_ALIGN_CFG_keep_err [7])) := by
  decide +kernel

/-- A received frame whose MFAS and MFI are these. -/
def gotMf (mfas mfi : Nat) : List Bool := toBits 48 0 ++ toBits 8 mfas ++ toBits 4 mfi

theorem wit_LineFrame_multiframe :
    (let s := frame7 2 fun x => { x with lastMf := some (255, 15), noIm := 3, got := gotMf 0 0 }
     s.rd F.LFR_STAT_state [7] = 2 ∧ (s.lfr1 7).got ≠ [] ∧ (s.lfr1 7).lastMf = some (255, 15) ∧ s.bit F.LFR_STAT_im [7] = false
       ∧ ((s.lfr1 7).gotField 48 8, (s.lfr1 7).gotField 56 4) = nextMf (255, 15) ∧ nextMf (255, 15) = (0, 0)
       ∧ (s.lfr1 7).imSeen = false)
    ∧ (let s := frame7 2 (fun x => { x with lastMf := some (254, 15), got := gotMf 255 15 }) [(F.LFR_STAT_im, [7], 1), (F.LFR_STAT_sf_ok, [7], 1)]
       ((s.lfr1 7).gotField 48 8, (s.lfr1 7).gotField 56 4) = nextMf (254, 15) ∧ nextMf (254, 15) ≠ (0, 0)
         ∧ s.bit F.LFR_STAT_im [7] = true ∧ s.bit F.LFR_STAT_sf_ok [7] = true)
    ∧ (let s := withCur [(F.LFR_ALIGN_CFG_false_n, [7], 2)] (frame7 2 fun x => { x with noIm := 2 })
       max 2 (s.cur F.LFR_ALIGN_CFG_false_n [7]) ≤ (s.lfr1 7).noIm)
    ∧ (let s := frame7 2 (fun x => { x with sfc := some (2 ^ 24 - 1, 15), lastMf := some (1, 0) }) [(F.LFR_STAT_im, [7], 1)]
       let l := s.lfr1 7
       let v := tabGet 0 l.mdo 0 * 2 ^ 8 + tabGet 0 l.mdo 1 / 2 ^ 8
       s.bit F.LFR_STAT_im [7] = true ∧ l.lastMf.map Prod.fst = some 1 ∧ s.bit F.LFR_STAT_sf_ok [7] = false
         ∧ l.sfc = some (2 ^ 24 - 1, 15) ∧ crc8 (toBits 24 v) = tabGet 0 l.mdo 1 % 2 ^ 8 ∧ v = nextSfc (2 ^ 24 - 1) 15
         ∧ (l.lastMf.map Prod.snd).getD 0 = (15 + 1) % 16
         ∧ crc8 (toBits 24 0) ≠ tabGet 0 [(1, 1)] 1 % 2 ^ 8)
    ∧ (let s := frame7 2 (fun x => { x with sfcBad := 2, lastMf := some (1, 0) })
         [(F.LFR_STAT_im, [7], 1), (F.LFR_STAT_sf_ok, [7], 1), (F.LFR_RX_SFC_count, [7], 5)]
       s.bit F.LFR_STAT_sf_ok [7] = true ∧ 0 ≠ s.rd F.LFR_RX_SFC_count [7] ∧ 2 ≤ (s.lfr1 7).sfcBad)
    ∧ (let c := crc16 (toBits 32 0 ++ toBits 32 0 ++ toBits 32 0)
       let s := frame7 2 (fun x => { x with lastMf := some (8, 0), mdo := [(8, c)] }) [(F.LFR_STAT_im, [7], 1)]
       s.bit F.LFR_STAT_im [7] = true ∧ (s.lfr1 7).lastMf.map Prod.fst = some 8
         ∧ crc16 (toBits 32 ((s.lfr1 7).delayWord 2).toNat ++ toBits 32 ((s.lfr1 7).delayWord 4).toNat
             ++ toBits 32 ((s.lfr1 7).delayWord 6).toNat) = tabGet 0 (s.lfr1 7).mdo 8 ∧ c ≠ c + 1)
    ∧ (frame7 0 id [(F.LFR_STAT_ssf, [7], 1)]).bit F.LFR_STAT_ssf [7] = true ∧ State.reset.bit F.LFR_STAT_ssf [7] = false
    ∧ (let s := withCur [(F.VTG_PROB_CFG_judge_mask, [], 0)] (frame7 1)
       s.lit 7 = true ∧ s.rd F.LFR_STAT_state [7] ≠ 2 ∧ s.judged 7 = false ∧ (s.tdl1 7).rxAt = none ∧ (s.tdl1 7).farRet = none)
    ∧ State.reset.lit 7 = false := by decide +kernel

/-- Channel 511 has member 7 on slice 7, and member 0 where it is protected, routed through the cellar or not. -/
def chan511 (align : Nat) (prot : Bool := false) (cel : Bool := false) (l : List (Fld × List Nat × Nat) := []) : State :=
  withCur ([(F.MAP_CH_CFG_rx_on, [511], 1), (F.MAP_CH_CFG_prot, [511], b2n prot), (F.MAP_MEM_CFG_en, [511, 7], 1),
    (F.MAP_MEM_CFG_slice, [511, 7], 7), (F.MAP_MEM_CFG_leg, [511, 7], b2n prot), (F.MAP_MEM_CFG_en, [511, 0], b2n prot),
    (F.MAP_MEM_CFG_route, [511, 7], b2n cel), (F.MAP_SLOT_rx_en, [7, 319], 1), (F.MAP_SLOT_rx_ch, [7, 319], 511)])
    (lit7 ((F.MAP_CH_STAT_align, [511], align) :: l))

/-- Member 7 of channel 511 changed. -/
def mem7 (f : Mem → Mem) (s : State) : State := s.setMem 511 7 (f (s.mem 511 7))

/-- A record of channel 511 of one member; and a state in which slice 7 has just received it in its frame. -/
def record511 (valid : Bool) (tag : BitVec 128 := 0) : ChanRecord := ⟨511, valid, false, 0, 15, 7, 0, tag⟩
def brings (valid : Bool) (s : State) : State :=
  (s.setLfr 7 { s.lfr1 7 with lastMf := some (255, 0),
                              got := List.replicate 352 false ++ channelRecord 511 valid false 0 15 7 0 0 }).wr F.LFR_STAT_im 1 [7]

theorem wit_ChannelMembers :
    (let s := brings true (mem7 (fun x => { x with ctr := some (2 ^ 48 - 1) }) (chan511 1))
     (s.members 511).find? (fun d => d.m = 7) = some ⟨7, 7, false, false⟩ ∧ (s.mem 511 7).ctr = some (2 ^ 48 - 1)
       ∧ s.memRecord 511 ⟨7, 7, false, false⟩ = some (record511 true) ∧ (record511 true).valid = true ∧ (record511 true).ch = 511
       ∧ (record511 true).ctr = (2 ^ 48 - 1 + 1) % 2 ^ 48 ∧ s.rd F.MAP_CH_STAT_align [511] ≠ 2)
    ∧ (((chan511 1).mem 511 7).ctr = none ∧ (chan511 1).memRecord 511 ⟨7, 7, false, false⟩ = none
      ∧ ((chan511 1).members 511).find? (fun d => d.m = 7) = some ⟨7, 7, false, false⟩)
    ∧ (let s := mem7 (fun x => { x with num := true }) (chan511 1)
       s.rd F.MAP_CH_STAT_align [511] = 1 ∧ ((s.members 511).filter fun d => !s.memSsf d && (s.mem 511 d.m).num) ≠ [])
    ∧ (let s := mem7 (fun x => { x with num := true, arr := 5000 }) (chan511 2)
       let s := s.setChan 511 { s.chan 511 with frames := 4096 }
       s.rd F.MAP_CH_STAT_align [511] = 2 ∧ (s.members 511).any (fun d => s.usable 511 d && !s.covered 511 d) = true
         ∧ 2 ^ s.growK ≤ (s.chan 511).frames)
    ∧ ((chan511 1).rd F.MAP_CH_STAT_align [511] ≠ 2 ∧ (chan511 0).rd F.MAP_CH_STAT_align [511] = 0
      ∧ ((chan511 1).chan 511).renum = none ∧ ((chan511 1).chan 511).turns = [] ∧ ((chan511 1).chan 511).frames < 2 ^ (chan511 1).growK)
    ∧ (let s := brings false (mem7 (fun x => { x with badRec := 2 }) (chan511 1))
       s.memRecord 511 ⟨7, 7, false, false⟩ = some (record511 false) ∧ s.rd F.MAP_CH_STAT_align [511] ≠ 0
         ∧ (record511 false).valid = false ∧ (s.mem 511 7).badRec = 2 ∧ (s.mem 511 7).mism = false
         ∧ (record511 true).members + 1 = (s.members 511).length) := by decide +kernel

/-- Channel 511 with two members, the frames of the one on slice 7 late by a number of ns. -/
def skewed2 (late : Int) : State :=
  let s := mem7 (fun x => { x with num := true, arr := late }) (chan511 2 true)
  let s := s.setMem 511 0 { s.mem 511 0 with num := true }
  s.setChan 511 { s.chan 511 with frames := 4096, read := 1024 * (guardOf (s.chanImg 511) 511 : Nat) }

/-- Channel 511 reads next a frame of its member that waits on chip or in the cellar. -/
def reading (cel : Bool) : State :=
  let s := mem7 (fun x => { x with store := [⟨0, false, cel, [], [], 0, none, none⟩] }) (chan511 2)
  let s := s.setChan 511 { s.chan 511 with id := 0 }
  { s with cel := { s.cel with lines := [(0, true)] } }

theorem wit_ChannelMembers_frames :
    (let s := brings true (mem7 (fun x => { x with ctr := some (2 ^ 48 - 1), num := true, gap := true }) (chan511 1))
     (s.mem 511 7).num = true ∧ (s.mem 511 7).gap = true ∧ s.memRecord 511 ⟨7, 7, false, false⟩ = some (record511 true))
    ∧ ([(500, true), (5000, false)].all fun (late, grows) => let s := skewed2 late
        s.rd F.MAP_CH_STAT_align [511] == 2 && (s.members 511).any (fun d => s.usable 511 d && !s.covered 511 d)
          && decide (2 ^ s.growK ≤ (s.chan 511).frames)
          && ((s.judgeSkew 511).members 511).any (fun d => (s.judgeSkew 511).usable 511 d && !(s.judgeSkew 511).covered 511 d) == grows) = true
    ∧ (let s := reading false
       s.rd F.MAP_CH_STAT_align [511] = 2 ∧ (s.chan 511).renum = none ∧ (s.chan 511).turns = [] ∧ s.members 511 = [⟨7, 7, false, false⟩]
         ∧ (s.memFrame 511 ⟨7, 7, false, false⟩).any (fun f => !f.cel) = true ∧ (s.memRead 0 (deskewRow 511 7 0)).1 = false)
    ∧ (let s := reading true
       let up := (s.wr F.CEL_STAT_avail 1).wr F.GLB_MODE_mode modeService
       (s.memFrame 511 ⟨7, 7, false, false⟩).any (fun f => f.cel && decide (cellBlocks f = [0])) = true ∧ s.celServes = false
         ∧ up.celServes = true ∧ up.lineValid 0 = true
         ∧ rsDecode 4 (disturb (up.stored 0) (errsAt (readErrs [(0, 0, 1), (0, 1, 1), (0, 67, 1)]) 0)) = .poisoned) := by
  decide +kernel

/-- A message of channel 511, which has no slots, waits to be verified under number n with a record of number 0. -/
def judging (n : Nat) (tag : BitVec 128) : State :=
  let s := lit7 [(F.MAP_CH_STAT_align, [511], 1)]
  s.setCipCh 511 { s.cipCh 511 with num := some n, rcd := some (record511 true tag) }

theorem wit_ChannelMembers_messages :
    (((chan511 1).cipCh 511).rcd = none ∧ ((chan511 1).cipCh 511).num = none)
    ∧ ([0, 1].all fun n => let s := judging n 5
        decide ((s.cipCh 511).rcd = some (record511 true 5) ∧ (s.cipCh 511).num = some n ∧ s.verifiable 511 (record511 true 5) = true
          ∧ (s.cipCh 511).misCtr = none ∧ b2n (record511 true 5).epoch = (s.cipCh 511).last.epoch ∧ (s.cipCh 511).last.bad = false
          ∧ s.verifiable 511 (record511 false 5) = false)) = true
    ∧ (record511 true 5).ctr = 0 ∧ (record511 true 5).ctr ≠ 1
    ∧ ((judging 1 5).setCipCh 511 { (judging 1 5).cipCh 511 with misCtr := some (2 ^ 48 - 1) } |>.cipCh 511).misCtr = some (2 ^ 48 - 1)
    ∧ (record511 true 5).ctr = (2 ^ 48 - 1 + 1) % 2 ^ 48 := by decide +kernel

/-- The tag that is expected does not depend on the one that came, so that a record may bring it or another. -/
theorem wit_ChannelMembers_tag (tag : BitVec 128) : (judging 0 tag).rxTag 511 0 = (judging 0 0).rxTag 511 0 := rfl

theorem wit_ChannelMembers_good : (record511 true ((judging 0 0).rxTag 511 0)).tag
    = (judging 0 ((judging 0 0).rxTag 511 0)).rxTag 511 0 := (wit_ChannelMembers_tag _).symm

theorem wit_ChannelMembers_bad : (record511 true ((judging 0 0).rxTag 511 0 + 1)).tag
    ≠ (judging 0 ((judging 0 0).rxTag 511 0 + 1)).rxTag 511 0 := by
  intro h
  rw [wit_ChannelMembers_tag (_ + 1)] at h
  change (judging 0 0).rxTag 511 0 + 1 = (judging 0 0).rxTag 511 0 at h
  generalize (judging 0 0).rxTag 511 0 = x at h
  bv_omega

theorem wit_Selectors : (let s := mem7 (fun x => { x with num := true, arr := -5000 }) (chan511 1 true false [(F.GLB_MODE_mode, [], modePrepare)])
      let s := s.setMem 511 0 { s.mem 511 0 with num := true, arr := -5000 }
      s.isProt 511 = true ∧ s.blockGated 8 = false ∧ s.selRequest 511 ≤ cmdRank 4)
    ∧ State.reset.blockGated 8 = true ∧ (lit7).standby = false ∧ (lit7).mirrors = false
    ∧ (lit7 [(F.MAP_CH_STAT_wtr_run, [511], 1), (F.GLB_MODE_mode, [], modeShadow)]).standby = true
    ∧ (chan511 1).isProt 511 = false
    ∧ (let s := chan511 1 true false [(F.GLB_MODE_mode, [], modePrepare)]
       let s := s.setChan 511 { s.chan 511 with cmd := 1 }
       cmdRank 4 < s.selRequest 511 ∧ cmdRank 2 < s.selRequest 511 ∧ s.blockGated 8 = false)
    ∧ (chan511 1).rd F.MAP_CH_STAT_align [511] ≠ 0
    ∧ (lit7 [(F.MAP_CH_STAT_wtr_run, [511], 1)]).bit F.MAP_CH_STAT_wtr_run [511] = true
    ∧ ((chan511 1 true).legRequests 511 true = true ∧ ((chan511 1 true).chan 511).cmd ≠ 1)
    ∧ (let s := mem7 (fun x => { x with num := true, arr := -5000 }) (chan511 1 true)
       s.legRequests 511 true = false ∧ s.legRequests 511 false = true ∧ (s.chan 511).cmd ≠ 1 ∧ (s.chan 511).cmd ≠ 2
         ∧ ((s.setChan 511 { s.chan 511 with cmd := 2 }).chan 511).cmd = 2
         ∧ ((s.setChan 511 { s.chan 511 with cmd := 1 }).chan 511).cmd = 1) := by decide +kernel

/-- Slot 2047 is granted to function f, the device KEK and that of VF15 are loaded. -/
def keyed (f : Nat) (dev : Bool := true) (l : List (Fld × List Nat × Nat) := []) : State :=
  let s := withRegs ([(F.CIP_SLOT_GRANT_func, [127], f), (F.CIP_UP_KEY_CMD_slot, [f], 2047), (F.CIP_UP_KEY_CMD_func, [f], 15)] ++ l)
    (inMode modePrepare)
  if dev then { s with cip := { s.cip with devKek := some 5, keks := [(15, some 9)] } } else s

theorem wit_KeyCommands : (State.reset.slotGranted 15 0 = false ∧ State.reset.blockGated 9 = true ∧ (keyed 15).blockGated 9 = false)
    ∧ (let s := withCur [(F.MAP_CH_CFG_rx_on, [511], 1), (F.CIP_CH_KEY_slot0, [511, 1], 2047)] (keyed 15)
       s.slotGranted 15 (s.rd F.CIP_UP_KEY_CMD_slot [15]) = true ∧ s.slotInUse 2047 = true)
    ∧ (let s := keyed 15
       s.rd F.CIP_UP_KEY_CMD_slot [15] = 2047 ∧ s.slotGranted 15 2047 = true ∧ s.slotInUse 2047 = false ∧ s.cip.devKek ≠ none
         ∧ s.kekOf 15 = some 9 ∧ s.rd F.CIP_UP_KEY_CMD_use [15] ≠ 3)
    ∧ ((keyed 0).kekOf 0 = some 5 ∧ (keyed 0).slotGranted 0 2047 = true ∧ (keyed 0).slotInUse 2047 = false
      ∧ (keyed 0).rd F.CIP_UP_KEY_CMD_func [0] ≠ 0)
    ∧ ((keyed 15 false).kekOf 15 = none ∧ (keyed 15 false).slotGranted 15 2047 = true ∧ (keyed 15 false).slotInUse 2047 = false
      ∧ (keyed 0 false).cip.devKek = none) := by decide +kernel

/-- Function 15 has one message waiting, which may use the engine. -/
def message (d : List Nat) (full : Bool := true) : State :=
  let s := keyed 15 true [(F.CIP_SLOT_STAT_full, [2047], b2n full), (F.CIP_SLOT_STAT_use, [2047], 1), (F.CIP_SOL_CFG_weight, [15], 1)]
  { s.setSvc 15 ⟨[d], none⟩ with svcSol := ⟨[⟨15, 15, 0, 0, 1⟩], [], [], [], 0⟩ }

theorem wit_MessageService : (8 ≤ (((inMode modePrepare).setSvc 15 ⟨List.replicate 8 [], none⟩).svc 15).queue.length
      ∧ ((inMode modePrepare).setSvc 15 ⟨List.replicate 8 [], none⟩).blockGated 9 = false)
    ∧ (((message []).svc 15).queue.length < 8 ∧ (message []).blockGated 9 = false)
    ∧ (let d := [2047 * 2 ^ 12, 0, 1]
       [true, false].all fun b => let s := message d b
         decide ((s.svc 15).queue = [d] ∧ (s.svc 15).run = none ∧ descDecrypt d = false
           ∧ (s.svcReason 15 d = 0 ↔ b = true) ∧ (s.memRead 9 (descSlot d)).1 = false)
         && (s.svcSol.grant (fun f => s.rd F.CIP_SOL_CFG_weight [f]) (fun _ => true)).any fun g => decide (g.1.cls = 15)) = true
    ∧ (let s := State.reset.setSvc 15 ⟨[[], []], some ⟨0, false, 0, 0, 3, true⟩⟩
       (s.svc 15).queue = [[], []] ∧ (s.svc 15).run = some ⟨0, false, 0, 0, 3, true⟩ ∧ [([] : List Nat)].length < 8)
    ∧ (let d := [2047 * 2 ^ 12, 0, 64]
       let s := message d
       let s := s.setSvc 15 { s.svc 15 with run := some ⟨0, false, 0, 0, 0, false⟩ }
       (s.svc 15).queue = [d] ∧ (s.svc 15).run = some ⟨0, false, 0, 0, 0, false⟩ ∧ 0 < descAad d ∧ descAad d ≤ 64 ∧ descText d = 0
         ∧ (s.svcSol.grant (fun f => s.rd F.CIP_SOL_CFG_weight [f]) (fun _ => true)).any (fun g => decide (g.1.cls = 15)) = true) := by
  decide +kernel

/-- A client frame with the EtherType of PTP that holds a Sync message of version 2. -/
def ptpFrame : List Nat := List.replicate 12 0 ++ [0x88, 0xF7, 0, 2] ++ List.replicate 44 0

/-- Port 63 is a client in a mode, with frames in its egress buffer. -/
def port63 (m : Nat) (buf : List (Nat × List Nat) := []) : State :=
  let s := withCur [(F.CLI_PORT_CFG_en, [63], 1), (F.CLI_PTP_CFG_tc_en, [], 1), (F.CLI_PTP_CFG_eth, [], 1)] (inMode m)
  s.setClient 63 { s.client 63 with buf := buf, eg := .frames }

/-- FlexE client 511 is enabled, with slots of calendar A of group 15. -/
def fxc511 (standby : Bool := false) : State :=
  let s := withCur [(F.CLI_FXC_CFG_en, [511], 1)] (inMode (if standby then modeShadow else modeService))
  { s with calendars := [(15, ⟨[(0, 512)], [], 0⟩)] }

theorem wit_ClientLanes_runs : ((port63 modeService).clientRuns false 63 = true ∧ (port63 modeService).clientRuns true 63 = true)
    ∧ ([true, false].all fun b => (fxc511 b).clientRuns false 575 && decide ((fxc511 b).standby = b)) = true
    ∧ ((withCur [(F.CLI_FXC_CFG_en, [511], 1)] State.reset).clientRuns false 575 = false ∧ 64 ≤ (575 : Fin 576).val)
    ∧ (let s := withCur [(F.CLI_PORT_CFG_flexe, [63], 1)] (port63 modeService)
       s.clientRuns false 63 = false ∧ s.curBit F.CLI_PORT_CFG_en [63] = true)
    ∧ ((port63 modeService).pry.hold = 0 ∧ ({ port63 modeService with pry := { State.reset.pry with hold := 1 } } : State).pry.hold ≠ 0)
    ∧ (tabGet Calendar.empty State.reset.calendars 15).next < 2 := by decide +kernel

theorem wit_ClientLanes : ((port63 modeService).clientOn 63 = true ∧ State.reset.clientOn 63 = false
      ∧ (withCur [(F.CLI_FXC_CFG_en, [511], 1)] State.reset).clientOn 575 = true)
    ∧ ((port63 modeService).standby = false ∧ (port63 modeShadow).standby = true ∧ (port63 modeService).ptpOf [] = none
      ∧ (port63 modeService).ptpOf ptpFrame = some (14, none))
    ∧ (let s := port63 modeService [(1, [5])]
       s.clientOutput = true ∧ (s.client 63).eg = .frames ∧ (s.client 63).buf = (1, [5]) :: [] ∧ s.ptpOf (clientFrame 1 [5]) = none)
    ∧ ((port63 modePrepare).clientOutput = false ∧ ((port63 modeService).client 63).buf = [])
    ∧ (State.reset.curBit F.CLI_PORT_CFG_en [63] = false ∧ (port63 modeService).curBit F.CLI_PORT_CFG_en [63] = true
      ∧ (port63 modeService).bit F.TIM_CLK_STAT_on_fallback = false)
    ∧ ((State.reset.wr F.CLI_FXG_STAT_sw_pend 1 [15]).bit F.CLI_FXG_STAT_sw_pend [15] = true
      ∧ State.reset.bit F.CLI_FXG_STAT_sw_pend [15] = false)
    ∧ (let s := (State.reset.wr F.CLI_LANE_STAT_pstate laneLeaving [63]).setLane 63 ⟨3, none⟩
       s.rd F.CLI_LANE_STAT_pstate [63] = laneLeaving ∧ (s.lane 63).held = none ∧ (s.lane 63).target < 4) := by decide +kernel

/-- The cellar changed. -/
def celOf (f : Cel → Cel) (s : State := inMode modePrepare) : State := { s with cel := f s.cel }

theorem wit_CellarCommands : (celOf fun c => { c with trainDue := true }).cel.trainDue = true
    ∧ ((chan511 1 false true [(F.GLB_MODE_mode, [], modePrepare)]).celRouted = true
      ∧ (chan511 1 false true [(F.GLB_MODE_mode, [], modePrepare)]).blockGated 11 = false)
    ∧ ((inMode modePrepare).celRouted = false ∧ (inMode modePrepare).celAsleep = false ∧ (inMode modePrepare).blockGated 11 = false
      ∧ State.reset.blockGated 11 = true ∧ State.reset.celAsleep = true
      ∧ ((inMode modePrepare).wr F.TIM_CLK_STAT_on_fallback 1).celAsleep = true
      ∧ ((inMode modePrepare).wr F.TIM_CLK_STAT_on_fallback 1).blockGated 11 = false)
    ∧ ({ State.reset.vtg with loading := some 3 } : Vintages).loading ≠ none
    ∧ (celOf fun c => { c with training := true }).cel.training = true
    ∧ ((inMode modePrepare).bit F.CEL_ACC_CMD_busy = false ∧ (inMode modePrepare).blockExists (inMode modePrepare).accBlock = true
      ∧ (inMode modePrepare).lineValid (inMode modePrepare).accBlock = false)
    ∧ (let s := celOf fun c => { c with lines := [(0, true)] }
       let read := fun (errs : List (Fin 68 × BitVec 8)) => rsDecode 4 (disturb (s.stored s.accBlock) (errs.map fun e => (e.1.val, e.2.toNat)))
       s.lineValid s.accBlock = true ∧ read [] = .clean ∧ read [(67, 255)] = .corrected 67 (s.stored s.accBlock)
         ∧ read [(0, 1), (1, 1), (2, 1)] = .poisoned)
    ∧ ((inMode modeProving).celWaits = false ∧ (celOf fun c => { c with training := true }).celWaits = true
      ∧ (State.reset.wr F.CEL_PPR_CMD_status 1).celWaits = true
      ∧ (celOf fun c => { c with trainDue := false }).cel.trainDue = false ∧ (celOf fun c => { c with trainDue := true }).celAsleep = false)
    ∧ (((inMode modePrepare).wr F.CEL_ACC_CMD_busy 1).bit F.CEL_ACC_CMD_busy = true
      ∧ (let s := withRegs [(F.CEL_ACC_ADDR_H_addr, [], 31), (F.CEL_ACC_ADDR_L_addr, [], 2 ^ 24 - 1)] (inMode modePrepare)
         s.blockExists s.accBlock = false ∧ s.blockGated 11 = false))
    ∧ ((inMode modeProving).accWriteRefused (inMode modeProving).accBlock = false ∧ (inMode modeProving).mode = modeProving)
    ∧ ((inMode modePrepare).accWriteRefused (inMode modePrepare).accBlock = true ∧ (inMode modePrepare).mode ≠ modeProving
      ∧ (inMode modeProving).blockGated 11 = false)
    ∧ ((inMode modePrepare).bit F.CEL_TOUCH_CMD_busy = false ∧ ((inMode modePrepare).wr F.CEL_STAT_avail 1).bit F.CEL_STAT_avail = true
      ∧ (inMode modePrepare).bit F.CEL_STAT_avail = false ∧ ((inMode modePrepare).wr F.CEL_TOUCH_CMD_busy 1).bit F.CEL_TOUCH_CMD_busy = true)
    ∧ ((chan511 1 false true).rd F.CEL_PPR_CMD_status ≠ 1 ∧ (inMode modePrepare).rd F.CEL_PPR_CMD_status ≠ 1 ∧ (inMode modePrepare).pprBlocks = []
      ∧ (inMode modePrepare).vtg.loading = none ∧ (inMode modePrepare).cel.waiting = []
      ∧ (State.reset.wr F.CEL_PPR_CMD_status 1).rd F.CEL_PPR_CMD_status = 1) := by decide +kernel

/-! ### Witnesses: references, device time and Poryon (chapters 18 and 19) -/

/-- Candidate 15 in a state, measured against limits of 1 and 2, in units of 0.1 ppm. -/
def cand15 (st : Nat) (l : List (Fld × List Nat × Nat) := []) : State :=
  withCur [(F.TIM_CAND_LIM_soft, [15], 1), (F.TIM_CAND_LIM_hard, [15], 2), (F.TIM_CAND_CFG_prio, [15], 1)]
    (withRegs ((F.TIM_CAND_STAT_state, [15], st) :: l) State.reset)

theorem wit_References : (cand15 candUnavailable).measured 15 = false
    ∧ ((cand15 candAlarm).measured 15 = true ∧ beyond ((cand15 candAlarm).cur F.TIM_CAND_LIM_soft [15]) (102#24).toInt = false
      ∧ (cand15 candAlarm).isSelected 15 = false ∧ (cand15 candDisqualified).measured 15 = true)
    ∧ beyond ((cand15 candAlarm).cur F.TIM_CAND_LIM_soft [15]) (103#24).toInt = true
    ∧ (let s := cand15 candAlarm [(F.TIM_SEL_STAT_state, [], selHoldOff)]
       beyond (s.hardLimit 15) (205#24).toInt = true ∧ s.rd F.TIM_SEL_STAT_cmd = 0 ∧ s.selState = selHoldOff)
    ∧ ((cand15 candWtr).candState 15 = candWtr ∧ (withCur [(F.TIM_SEL_CFG_revert, [], 0)] (cand15 candWtr)).curBit F.TIM_SEL_CFG_revert = false)
    ∧ ((cand15 candUnavailable [(F.PRY_PORT_STAT_state, [1], portLinked)]).sourceHolds 15 ≠ some false
      ∧ (cand15 candUnavailable).candState 15 = candUnavailable)
    ∧ ((cand15 candQualified).candState 15 ≠ candUnavailable ∧ (cand15 candQualified).sourceHolds 15 ≠ some true)
    ∧ (let s := State.reset.wr F.TIM_SEL_STAT_state selHoldOff
       s.selState = selHoldOff ∧ s.bestCandidate = none ∧ s.bit F.TIM_CLK_STAT_on_fallback = false)
    ∧ (let s := cand15 candQualified [(F.TIM_SEL_STAT_state, [], selHoldOff), (F.TIM_CAND_QLRX_valid, [15], 1)]
       s.bestCandidate = some 15 ∧ s.isSelected 15 = false)
    ∧ (let s := cand15 candQualified [(F.TIM_SEL_STAT_state, [], selFreeRun), (F.TIM_SEL_CMD_cand, [], 15)]
       s.selState ≠ selNotRunning ∧ s.cmdHolds 1 (s.rd F.TIM_SEL_CMD_cand) = true ∧ s.cmdHolds 2 (s.rd F.TIM_SEL_CMD_cand) = true
         ∧ s.isSelected (s.rd F.TIM_SEL_CMD_cand) = false ∧ s.rd F.TIM_SEL_CMD_cand < 16)
    ∧ (let s := cand15 candUnavailable [(F.TIM_SEL_CMD_cand, [], 15)]
       s.cmdHolds 1 (s.rd F.TIM_SEL_CMD_cand) = false ∧ s.cmdHolds 2 (s.rd F.TIM_SEL_CMD_cand) = false)
    ∧ (let s := State.reset.wr F.TIM_SEL_STAT_state selAcquiring
       s.selState = selAcquiring ∧ s.candState (s.rd F.TIM_SEL_STAT_sel) ≠ candAlarm ∧ s.outOfRange = false
         ∧ (s.wr F.TIM_CAND_OFF_off 0x7FFFFF [s.rd F.TIM_SEL_STAT_sel]).outOfRange = true)
    ∧ (let s := withCur [(F.TIM_SEL_CFG_revert, [], 1)] (cand15 candAlarm)
       s.curBit F.TIM_SEL_CFG_revert = true ∧ ({ s with tim := { s.tim with selValid := true } } : State).tim.selValid = true
         ∧ (s.wr F.TIM_SEL_STAT_cmd 1).rd F.TIM_SEL_STAT_cmd ≠ 0) := by decide +kernel

/-- Timer 15 with a target. -/
def timer15 (target : Nat) (l : List (Fld × List Nat × Nat) := []) : State :=
  withRegs ([(F.TIM_TMR_TGT_L_value, [15], target)] ++ l) State.reset

theorem wit_DeviceTime : ((List.range 16).all fun n => decide (State.reset.bit F.TIM_TMR_CTL_armed [n] = false)) = true
    ∧ (State.reset.wr F.TIM_TOD_CFG_wrap_en 1).bit F.TIM_TOD_CFG_wrap_en = true
    ∧ (timer15 1).reached ((timer15 1).timerTarget 15) = false
    ∧ ((timer15 0).reached ((timer15 0).timerTarget 15) = true ∧ (timer15 0).rd F.TIM_TMR_PER_value [15] = 0
      ∧ (timer15 0).rd F.TIM_TMR_CFG_action [15] ≠ 3)
    ∧ (timer15 0 [(F.TIM_TMR_CTL_armed, [15], 1), (F.TIM_TMR_CFG_action, [15], 1)]).bit F.TIM_TMR_CTL_armed [15] = true
    ∧ (State.reset.wr F.TIM_LTC_CFG_en 1).bit F.TIM_LTC_CFG_en = true := by decide +kernel

/-- Port 5 in a state. -/
def port5 (st : Nat) (f : Port → Port := id) (l : List (Fld × List Nat × Nat) := []) : State :=
  let s := withCur [(F.PRY_PORT_CFG_en, [5], 1), (F.PRY_DOM_CFG_role, [], 2)]
    (withRegs ((F.PRY_PORT_STAT_state, [5], st) :: l) (inMode modePrepare))
  s.setPort 5 (f (s.port 5))

/-- The IDENT of a worker that sees this device from its UP port. -/
def ident5 (far : Nat) : PryMsg := ⟨0, 0, 0, 0, [9, State.reset.identW1, far * 2 ^ 19, State.reset.ownSerial]⟩

/-- The content of a whole-message frame of class QUEUE with 18 words. -/
def frame62 : List Byte :=
  let b := [0x30, 0xE4] ++ List.replicate 56 0
  let c := fcs32 (byteBits b)
  (b ++ [c / 2 ^ 24, c / 2 ^ 16 % 256, c / 2 ^ 8 % 256, c % 256]).map (BitVec.ofNat 8)

theorem wit_PoryonLinks :
    ([portDown, portBackoff, portAbsent, portMismatch].all fun k => decide ((port5 k).portRuns 5 = true ∧ (port5 k).portState 5 = k)) = true
    ∧ ((port5 portTraining).portState 5 = portTraining ∧ ((port5 portTraining).port 5).probe = false
      ∧ (port5 portTraining id [(F.PRY_PORT_STAT_fails, [5], 6)]).rd F.PRY_PORT_STAT_fails [5] < 7
      ∧ 7 ≤ (port5 portTraining id [(F.PRY_PORT_STAT_fails, [5], 7)]).rd F.PRY_PORT_STAT_fails [5])
    ∧ ((port5 portTraining fun x => { x with losses := 3 }).port 5).losses < 4
    ∧ ((port5 portLinked).linked 5 = true ∧ (port5 portLinked).bit F.PRY_PORT_CFG_keep [5] = false)
    ∧ (let s := port5 portTraining fun x => { x with inbox := [ident5 1, ident5 0] }
       takeMsg (fun m => decide (m.cls = 0 ∧ m.kind = 0)) (s.port 5).inbox = some (ident5 1, [ident5 0])
         ∧ s.rolesPass 5 ((ident5 1).words.getD 1 0) ((ident5 1).words.getD 2 0) = true ∧ (ident5 1).words.getD 3 0 = s.ownSerial
         ∧ s.rolesPass 5 ((ident5 0).words.getD 1 0) ((ident5 0).words.getD 2 0) = false)
    ∧ ((port5 portLinked).portState 5 = portLinked ∧ frame62.length = 62
      ∧ (let bits := byteBits (frame62.map BitVec.toNat)
         fcs32 (bits.take 464) = ofBits (bits.drop 464) ∧ ofBits (bits.take 4) = 3 ∧ ofBits ((bits.drop 4).take 4) = 0
           ∧ ofBits ((bits.drop 10).take 5) = 18 ∧ ofBits ((bits.drop 8).take 1) = 1 ∧ ofBits ((bits.drop 9).take 1) = 1)
      ∧ tabGet none ((port5 portLinked).port 5).part 3 = none)
    ∧ (let m : PryMsg := ⟨3, 0, 0, 0, [1, 2]⟩
       let s := inbox 5 m
       takeMsg (fun m => decide (m.cls = 3)) (s.port 5).inbox = some (m, [])
         ∧ m.words.length ≤ queueFree (35 + 5) (s.queue (35 + 5))) := by decide +kernel

/-- The pair of twins in a state, this device ACTIVE or STANDBY. -/
def twins (pair : Nat) (active : Bool) (l : List (Fld × List Nat × Nat) := []) (f : Pry → Pry := id) : State :=
  let s := withRegs ([(F.PRY_TWIN_STAT_pair, [], pair), (F.PRY_TWIN_STAT_active, [], b2n active)] ++ l) (inMode modeService)
  { s with pry := f s.pry }

theorem wit_TwinPair : (let s := twins pairSolo true [(F.PRY_PORT_STAT_state, [0], portLinked)]
      s.linked 0 = true ∧ s.mode ≠ modeRecovery ∧ s.mirrored = false ∧ s.joinSlot = none)
    ∧ ((twins pairPaired true).blockGated 15 = false ∧ State.reset.blockGated 15 = true)
    ∧ (takeMsg (fun m => decide (m.cls = 0 ∧ m.kind = 1)) ((inbox 0 ⟨0, 1, 0, 0, [0, 0, 2 ^ 18]⟩).port 0).inbox
        = some (⟨0, 1, 0, 0, [0, 0, 2 ^ 18]⟩, []))
    ∧ ((twins pairPaired true).pairState = pairPaired ∧ (twins pairPaired true).isActive = true)
    ∧ ((twins pairPaired false [(F.PRY_TWIN_CFG_take_en, [], 1)]).isActive = false
      ∧ (twins pairPaired false [(F.PRY_TWIN_CFG_take_en, [], 1)]).bit F.PRY_TWIN_CFG_take_en = true
      ∧ (twins pairPaired false).mode ≠ modeDormant)
    ∧ (twins pairPaired true).pry.beat = false
    ∧ ((twins pairTaking true).pairState = pairTaking
      ∧ (slices8.all fun i => decide ((twins pairTaking true).lit i = false)) = true)
    ∧ (twins pairPaired true [(F.PRY_TWIN_STAT_ready, [], 1)]).bit F.PRY_TWIN_STAT_ready = true
    ∧ ((twins pairSolo true).pairState ≠ pairPaired ∧ (twins pairPaired true).bit F.PRY_TWIN_STAT_ready = false)
    ∧ (let s := twins pairPaired true [] fun p => { p with relAt := some 0 }
       s.pry.relAt ≠ none ∧ s.pry.relAck = false)
    ∧ (let s := twins pairPaired true [] fun p => { p with relAt := some 0, relAck := true }
       s.pry.relAck = true ∧ s.pry.relAt = some s.gridSfc)
    ∧ (State.reset.mirrors = false ∧ (twins pairPaired true).mirrors = true)
    ∧ ((twins pairJoining true).pairState = pairJoining ∧ (twins pairJoining true).isActive = true)
    ∧ ([(3, true), (2, false), (5, false)].all fun e =>
        let s := inbox 0 ⟨0, 3, 0, 0, [e.1, 0]⟩ (twins pairPaired e.2 [] fun p => { p with relAt := some 0 })
        decide (takeMsg (fun m => decide (m.cls = 0 ∧ m.kind = 3)) (s.port 0).inbox = some (⟨0, 3, 0, 0, [e.1, 0]⟩, [])
          ∧ s.pairState = pairPaired ∧ s.isActive = e.2 ∧ s.pry.relAt = some 0)) = true
    ∧ (let m : PryMsg := ⟨1, 0, 0, 0, [7 * 2 ^ 16, 2 ^ 24 - 1, 1]⟩
       let s := inbox 0 m (twins pairPaired false [] fun p => { p with mirRx := some 3 })
       takeMsg (fun m => decide (m.cls = 1)) (s.port 0).inbox = some (m, []) ∧ s.mirrored = true
         ∧ m.words.getD 0 0 / 2 ^ 16 % 256 = 7 ∧ s.pry.mirRx ≠ none ∧ s.pry.mirRx ≠ some (m.words.getD 1 0)) := by decide +kernel

/-- A device of a domain role. -/
def inDomain (role : Nat) (s : State := State.reset) : State := withCur [(F.PRY_DOM_CFG_role, [], role)] s

theorem wit_DomainTree : (let m : PryMsg := ⟨0, 4, 0, 0, [2, State.reset.ownSerial, 63]⟩
      takeMsg (fun m => decide (m.cls = 0 ∧ m.kind = 4)) ((inbox 1 m).port 1).inbox = some (m, []) ∧ m.words.getD 0 0 = 2
        ∧ m.words.getD 1 0 = (inbox 1 m).ownSerial)
    ∧ ((inDomain 2).domRole = 2 ∧ (inDomain 2).mirrored = false)
    ∧ ((inDomain 1).domRole = 1 ∧ (inDomain 1).pry.orphan = false)
    ∧ (let s := inDomain 1 ((pendingIn vtHeld).wr F.VTG_STAT_domain 1)
       s.domRole = 1 ∧ s.pry.orphan = false ∧ s.vtState = vtHeld ∧ s.bit F.VTG_STAT_domain = true ∧ s.vtg.commit ≠ none)
    ∧ (let m : PryMsg := ⟨4, 0, 0, 0, [1]⟩
       let s := inDomain 1 (inbox 5 m)
       takeMsg (fun m => decide (m.cls = 4)) (s.port 5).inbox = some (m, []) ∧ s.domRole ≠ 2 ∧ s.linked 1 = false
         ∧ (s.wr F.PRY_PORT_STAT_state portLinked [1]).linked 1 = true) := by decide +kernel

/-! ### Witnesses: the monitor, ageing and the package (chapters 20 to 22) -/

/-- The monitor changed. -/
def monOf (f : Mon → Mon) (s : State := State.reset) : State := { s with mon := f s.mon }

/-- Injection slot 15 changed. -/
def inj15 (f : Inj → Inj) (s : State := State.reset) : State := s.setInj 15 (f (s.inj 15))

theorem wit_MonitorSampling : (State.reset.blockGated 14 = true ∧ (inMode modePrepare).blockGated 14 = false
      ∧ (inMode modePrepare).rd F.MON_CAL_CMD_mask = 0 ∧ (inMode modePrepare).injBusy 0 = false)
    ∧ ((State.reset.wr F.MON_INJ_CFG_trig 3 [15]).rd F.MON_INJ_CFG_trig [15] = 3 ∧ (State.reset.inj 15).trig = none
      ∧ State.reset.rd F.MON_INJ_CFG_trig [15] = 0)
    ∧ ((inj15 fun x => { x with trig := some 0 }).inj 15).trig ≠ none
    ∧ ((inj15 fun x => { x with done := true }).inj 15).done = true
    ∧ (let s := atTime (1001 * 2 ^ 32) ((inj15 fun x => { x with trig := some 0, held := true }).wr F.MON_INJ_CFG_dl 0 [15])
       (s.inj 15).trig = some 0 ∧ (s.inj 15).held = true ∧ (s.inj 15).began = none
         ∧ 1000 * max 1 (s.rd F.MON_INJ_CFG_dl [15]) < (s.time - 0).toNat)
    ∧ ((monOf fun m => { m with bgStage := 1 }).mon.bgStage = 1)
    ∧ (let s := monOf (fun m => { m with bgStage := 2, bgNext := 15 }) (State.reset.wr F.MON_CAL_CFG_bg_en 1)
       s.mon.bgStage = 2 ∧ s.bit F.MON_CAL_CFG_bg_en = true ∧ s.mon.bgNext < 16)
    ∧ (State.reset.bit F.MON_CAL_CMD_busy = false ∧ State.reset.injBusy (State.reset.rd F.MON_CAL_CMD_mask) = false)
    ∧ ((State.reset.wr F.MON_CAL_CMD_busy 1).bit F.MON_CAL_CMD_busy = true ∧ State.reset.mon.fgWait = none
      ∧ State.reset.mon.fgHeld = none)
    ∧ (monOf fun m => { m with start := true }).mon.start = true
    ∧ (let s := withRegs ([(F.MON_SEQ_CTL_running, [], 1), (F.MON_SEQ_CFG_mask, [15], 128)]
         ++ (List.range 64).map fun c => (F.MON_DC_CFG_src, [c], 1)) State.reset
       s.mon.start = false ∧ s.mon.msyncAt = none ∧ s.mon.fg = 0 ∧ s.mon.fgWait = none ∧ s.mon.prv = []
         ∧ ((List.range 16).all fun q => decide ((s.inj q).trig = none)) = true
         ∧ ((List.range 64).all fun c => decide (s.rd F.MON_DC_CFG_src [c] ≠ 0)) = true
         ∧ s.nextInput 15 = some (127, 8) ∧ tabGet 0 s.mon.dirty 15 = 0 ∧ s.tdacDirty 127 = false ∧ s.onTestDac 127 = false) := by
  decide +kernel

/-- Chain 63 fades, with a request held or not. -/
def fading (f : Dc → Dc) : State := (State.reset.wr F.MON_DC_STAT_fading 1 [63]).setDc 63 (f (State.reset.dc 63))

theorem wit_MonitorCounters : (State.reset.bit F.MON_DC_STAT_fading [63] = false ∧ 31 ≠ State.reset.rd F.MON_DC_STAT_r_now [63])
    ∧ ((fading id).bit F.MON_DC_STAT_fading [63] = true ∧ ((fading id).dc 63).fadeNow = ((fading id).dc 63).fadeLen
      ∧ ((fading id).dc 63).request = none)
    ∧ (let s := withRegs [(F.MON_CNT_CFG_en, [], 1), (F.MON_CNT_CFG_tmr_en, [], 0), (F.MON_ACC_CMD_auto, [], 0)] State.reset
       s.bit F.MON_CNT_CFG_en = true ∧ s.bit F.MON_CNT_CFG_tmr_en = false ∧ s.bit F.MON_ACC_CMD_auto = false)
    ∧ (monOf fun m => { m with latch := some [(5, 9)] }).mon.latch = some [(5, 9)] := by decide +kernel

/-- A flash of 16 MB, and the window at an address. -/
def window (a : Nat) (l : List (Fld × List Nat × Nat) := []) : State :=
  withRegs ([(F.GLB_CASK_STAT_size, [], 16), (F.GLB_CASK_WIN_ADDR_addr, [], a)] ++ l) State.reset

theorem wit_AgeingAndPackage : ((inMode modePrepare).mode ≠ modeDormant ∧ (inMode modePrepare).mon.agePass = false)
    ∧ ((monOf fun m => { m with agePass := true }).mon.agePass = true
      ∧ State.reset.siteGated 95 = false)
    ∧ ((monOf fun m => { m with recSlot := 4095 }).claimed 0x1F = false ∧ (monOf fun m => { m with recSlot := 4095 }).mon.recSlot % 64 ≠ 0)
    ∧ ((monOf fun m => { m with vddDue := some 800, vddTry := 7 }).mon.vddDue = some 800 ∧ State.reset.claimed 0x1E = false
      ∧ 7 ≤ (monOf fun m => { m with vddDue := some 800, vddTry := 7 }).mon.vddTry)
    ∧ ([0, 1, 2].all fun k => !(window 0xF00000).winBad k (window 0xF00000).winAddr && (window 0).winBad k (window 0).winAddr) = true
    ∧ ((window 0xF00000).deviceCask = false ∧ (window 0xF00000).bit F.GLB_CASK_WIN_CMD_busy = false)
    ∧ ([0, 1, 2].all fun k => decide
        (({ State.reset with ctl := { State.reset.ctl with caskOp := some (k, 0, 0) } } : State).ctl.caskOp = some (k, 0, 0))) = true
    ∧ ((State.reset.wr F.GLB_FES_CMD_busy 1 [7]).bit F.GLB_FES_CMD_busy [7] = true ∧ State.reset.bit F.GLB_FES_CMD_busy [7] = false)
    ∧ (tabGet none ({ State.reset with ctl := { State.reset.ctl with fesRun := [(7, some (true, 0, 0, 0))] } } : State).ctl.fesRun 7
        = some (true, 0, 0, 0) ∧ fesGood true (5, BitVec.ofNat 8 (crc8 (toBits 24 5))) = true)
    ∧ (State.reset.mode = modeDormant ∧ State.reset.ctl.otpOwner = none ∧ (inMode modePrepare).mode ≠ modeDormant) := by
  decide +kernel

/-- A ratio of site 95 that is exactly its baseline: 10,000,000 counts under stress, and as many more as the baseline has 0.1 ppm. -/
theorem wit_AgeingAndPackage_ratio : ∃ (prot stress : Nat) (ppm : Int), stress ≠ 0 ∧ ((prot : Int) - stress) * 10 ^ 7 = ppm * stress
    ∧ -(2 ^ 22) ≤ ppm - (Config.siteBaseline 95).toInt ∧ ppm - (Config.siteBaseline 95).toInt < 2 ^ 22
    ∧ (List.replicate 96 (some (prot, stress))).getD 95 none = some (prot, stress) := by
  have h := BitVec.le_toInt (Config.siteBaseline 95)
  refine ⟨(10 ^ 7 + (Config.siteBaseline 95).toInt).toNat, 10 ^ 7, (Config.siteBaseline 95).toInt, by decide, ?_, by omega, by omega, rfl⟩
  omega

theorem wit_DeviceTime_ltc :
    (let s := State.reset.wr F.TIM_LTC_CFG_en 1
     s.bit F.TIM_LTC_CFG_en = true ∧ (s.lfr1 (s.rd F.TIM_LTC_CFG_slice)).dlyOk = false)
    ∧ (let s := (State.reset.wr F.TIM_LTC_CFG_en 1).setLfr 0 { State.reset.lfr1 0 with dlyOk := true, dlyRx := some (0, 0) }
       (s.lfr1 (s.rd F.TIM_LTC_CFG_slice)).dlyOk = true ∧ (s.lfr1 (s.rd F.TIM_LTC_CFG_slice)).dlyRx ≠ none)
    ∧ (15 ≤ ({ State.reset with tim := { State.reset.tim with ltcMiss := 15 } } : State).tim.ltcMiss)
    ∧ State.reset.bit F.TIM_LTC_CFG_en = false ∧ State.reset.bit F.TIM_TOD_CFG_wrap_en = false
    ∧ (timer15 0 [(F.TIM_TMR_CFG_action, [15], 1)]).rd F.TIM_TMR_CFG_action [15] = 1 := by decide +kernel

theorem wit_PoryonLinks_idle :
    (let s := port5 portLinked
     s.linked 5 = true ∧ s.bit F.PRY_PORT_CFG_keep [5] = false ∧ (s.port 5).wait = [])
    ∧ ((port5 portLinked fun x => { x with wait := [(⟨3, 0, 0, 0, []⟩, 1)] }).port 5).wait ≠ []
    ∧ (port5 portLinked id [(F.PRY_PORT_CFG_keep, [5], 1)]).bit F.PRY_PORT_CFG_keep [5] = true
    ∧ (port5 portTraining fun x => { x with probe := true }).portState 5 = portTraining
    ∧ ((port5 portTraining fun x => { x with probe := true }).port 5).probe = true
    ∧ ((inMode modePrepare).wr F.PRY_PORT_STAT_state portLinked [0]).linked 0 = true
    ∧ ((inMode modePrepare).wr F.PRY_PORT_STAT_state portLinked [0]).pairState = pairSolo
    ∧ (let far : PryMsg := ⟨0, 0, 0, 0, [9, State.reset.identW1, 2 ^ 19, State.reset.ownSerial + 1]⟩
       let s := port5 portTraining fun x => { x with inbox := [far] }
       takeMsg (fun m => decide (m.cls = 0 ∧ m.kind = 0)) (s.port 5).inbox = some (far, []) ∧ s.portState 5 = portTraining
         ∧ s.rolesPass 5 (far.words.getD 1 0) (far.words.getD 2 0) = true ∧ far.words.getD 3 0 ≠ s.ownSerial)
    ∧ ([] : List Byte).length ≠ 62 := by decide +kernel

theorem wit_TwinPair_standby : State.reset.linked 0 = false
    ∧ ((twins pairPaired false).isActive = false
      ∧ (twins pairPaired false [(F.PRY_TWIN_CFG_take_en, [], 0)]).bit F.PRY_TWIN_CFG_take_en = false)
    ∧ (let s := (twins pairPaired false [(F.PRY_TWIN_CFG_take_en, [], 1)]).wr F.GLB_MODE_mode modeShadow
       s.pairState = pairPaired ∧ s.isActive = false ∧ s.bit F.PRY_TWIN_CFG_take_en = true ∧ s.mode = modeShadow)
    ∧ (let s := (twins pairPaired false [] fun p => { p with takeAt := some 0 }).wr F.GLB_MODE_mode modeShadow
       s.pairState = pairPaired ∧ s.isActive = false ∧ s.pry.takeAt = some s.gridSfc ∧ s.mode = modeShadow)
    ∧ (let s := twins pairPaired true [(F.PRY_PORT_STAT_state, [0], portLinked)]
       s.mirrors = true ∧ s.linked 0 = true ∧ (s.port 0).wait = []
         ∧ (s.queue 34).pkts = [] ∧ (s.queue 34).refuse = 0 ∧ (s.queue 34).discard = 0 ∧ (s.queue 34).taker = none)
    ∧ (twins pairPaired false).isActive = false ∧ (twins pairPaired true).bit F.PRY_TWIN_STAT_ready = false
    ∧ (let m : PryMsg := ⟨1, 0, 0, 0, [7 * 2 ^ 16, 0, 0]⟩
       let s := inbox 0 m (twins pairPaired false)
       takeMsg (fun m => decide (m.cls = 1)) (s.port 0).inbox = some (m, []) ∧ s.mirrored = true ∧ s.pry.mirRx = none) := by
  decide +kernel

theorem wit_DomainTree_numbers :
    (let m : PryMsg := ⟨0, 4, 0, 0, [1, 9]⟩
     let s := inDomain 2 (inbox 5 m)
     takeMsg (fun m => decide (m.cls = 0 ∧ m.kind = 4)) (s.port 5).inbox = some (m, []) ∧ s.domRole = 2 ∧ m.words.getD 0 0 = 1
       ∧ s.numberFor (m.words.getD 1 0) = some 1)
    ∧ (let s := inDomain 2 (withRegs (numbers.map fun d => (F.PRY_DOM_NODE_present, [d], 1)) (inbox 5 ⟨0, 4, 0, 0, [1, 9]⟩))
       s.domRole = 2 ∧ s.numberFor 9 = none)
    ∧ ([(⟨4, 0, 0, 0, [1]⟩ : PryMsg), ⟨4, 1, 0, 0, [1]⟩].all fun m => let s := inDomain 2 (inbox 5 m)
        decide (takeMsg (fun m => decide (m.cls = 4)) (s.port 5).inbox = some (m, []) ∧ s.domRole = 2)) = true
    ∧ (let s := inDomain 2 (withRegs (dnPorts.map fun p => (F.PRY_PORT_STAT_state, [p], portLinked)) State.reset)
       (dnPorts.all fun p => s.linked p) = true ∧ s.mirrored = false) := by decide +kernel

theorem wit_AgeingAndPackage_more : State.reset.mon.agePass = false
    ∧ (State.reset.setClaim 0x1F ⟨some 1, []⟩).claimed 0x1F = true
    ∧ ((monOf fun m => { m with vddDue := some 800, vddTry := 6 }).mon.vddTry < 7)
    ∧ ([0, 2].all fun k => !(window 0).winBad k 0 || !(window 0xF00000).winBad k (window 0xF00000).winAddr) = true
    ∧ ((window 0xF00000).wr F.GLB_CASK_WIN_CMD_busy 1).bit F.GLB_CASK_WIN_CMD_busy = true
    ∧ ({ State.reset with ctl := { State.reset.ctl with otpOwner := some 5 } } : State).ctl.otpOwner ≠ none
    ∧ ((inMode modePrepare).wr F.GLB_SLICE_STAT_state slLit [7]).siteGated 63 = false := by decide +kernel

/-! ### Single steps, with results worked out by hand from the rules they cite -/

/-- The state after a command. -/
def after (c : Instr) (s : State) : State := match exec c s with | .next t => t | .fault _ => s | .refused _ => s

/-- R101: 0x7FFFFF + 1 is 0x800000, a signed overflow without a carry. -/
theorem test_add_overflows : (let x := (after (.addi 1) (runs [insWord 0x02 2 0 0 1] (seqOf [0x7FFFFF]))).seq 1
    (x.reg 2, x.z, x.n, x.c, x.v)) = (0x800000, false, true, false, true) := by decide +kernel

/-- R101: 0xFFFFFF + 1 is 0 with a carry, the source also the destination. -/
theorem test_add_wraps : (let x := (after (.addi 1) (runs [insWord 0x02 0 0 0 1] (seqOf [0xFFFFFF]))).seq 1
    (x.reg 0, x.z, x.n, x.c, x.v)) = (0, true, false, true, false) := by decide +kernel

/-- R102: a shift left by 24 gives 0, and bit 0 as C. -/
theorem test_shl_24 : (let x := (after (.shl 1) (runs [insWord 0x0B 1 0 0 24] (seqOf [1]))).seq 1
    (x.reg 1, x.z, x.c)) = (0, true, true) := by decide +kernel

/-- R108: a branch by -1 from 0x2000 reaches itself. -/
theorem test_br_to_itself : ((after (.br 1) (runs [0x83FFFF])).seq 1).pc = 0x2000 := by decide +kernel

/-- R108: CALL leaves the address of the next word in W15. -/
theorem test_call_links : (let x := (after (.call 1) (runs [0x26 * 2 ^ 18 + 5])).seq 1
    (x.pc, x.reg 15)) = (0x2006, 0x2001) := by decide +kernel

/-- R75, R77: a program that halts while it holds a claim frees it. -/
theorem test_halt_frees : (after (.halt 1) holder).claimed 0x80 = false := by decide +kernel

/-- R167: the peak read returns the highest count, and the peak becomes the words held. -/
theorem test_peak_read : (let t := after (.peakRead 31) ((holds2 31).wr F.HIF_Q_PEAK_peak 10 [31])
    (t.hif.popOut, t.rd F.HIF_Q_PEAK_peak [31])) = ([10 * 512], 2) := by decide +kernel

/-- R163: a first word whose length field is 0 starts a packet of 4,096 words. -/
theorem test_length_zero : ((after (.queuePush 0 0x001000 0 false) State.reset).queue 0).pkts.map QPkt.len = [4096] := by
  decide +kernel

/-- R130: a commit while in PROBATION is refused with reason 2. -/
theorem test_commit_in_probation : (State.reset.wr F.VTG_STAT_state vtProbation).refusal 3 = 2 := by decide +kernel

/-- On an empty queue a step passes a tick of device time, the model's choice (log 7). -/
theorem test_idle_step_ticks : ∃ t, step State.reset = .next t ∧ t.pending = [] := ⟨_, rfl, by decide +kernel⟩

end Sys2Proof.Tests
end

section
/-!
The two ways that a step can begin, and what the state after reset reads as. The tables of the reset state list nothing, so a
read of it gives the value that an unlisted index reads as.
-/

namespace Sys2Proof.Machine

/-! ### A step -/

theorem step_of_pending_cons {s : State} {c : Instr} {cs : List Instr} (h : s.pending = c :: cs) :
    step s = exec c { s with pending := cs } := by
  simp only [step, h]

theorem step_of_pending_nil {s : State} (h : s.pending = []) : step s = .next s.idleTick := by
  simp only [step, h]

/-- Settles O1: `step` by whether a command waits. -/
theorem stepTakesFrontCommand : Obligations.StepTakesFrontCommand := by
  unfold Obligations.StepTakesFrontCommand
  exact ⟨fun _ _ _ => step_of_pending_cons rfl, fun _ h => step_of_pending_nil h⟩

/-! ### The state after reset -/

@[simp] theorem State.reset_rd (f : Fld) (is : List Nat) : State.reset.rd f is = f.reset is := rfl
@[simp] theorem State.reset_cur (f : Fld) (is : List Nat) : State.reset.cur f is = f.reset is := rfl
@[simp] theorem State.reset_seq (q : Nat) : State.reset.seq q = Seq.idle := rfl
@[simp] theorem State.reset_queue (q : Nat) : State.reset.queue q = Queue.empty := rfl
@[simp] theorem State.reset_claim (n : Nat) : State.reset.claim n = Claim.free := rfl
@[simp] theorem State.reset_pending : State.reset.pending = [] := rfl

/-- A one-bit field is set after reset where its reset value is not 0. -/
@[simp] theorem State.reset_bit (f : Fld) (is : List Nat) : State.reset.bit f is = decide (f.reset is ≠ 0) := rfl

/-- R30, R54: the mode after reset is the reset value of GLB_MODE.mode. -/
theorem State.reset_mode : State.reset.mode = modeDormant := by
  simp only [State.mode, State.reset_rd, F.GLB_MODE_mode, resetK, modeDormant]

/-- R10: the reset value of GLB_SLICE_STAT.state is DARK for every slice. -/
theorem State.reset_sliceState (i : Nat) : State.reset.sliceState i = slDark := by
  simp only [State.sliceState, State.reset_rd, F.GLB_SLICE_STAT_state, resetK, slDark]

theorem State.reset_claimed (n : Nat) : State.reset.claimed n = false := by
  simp only [State.claimed, State.reset_claim, Claim.free, Option.isSome_none]

/-- Every addressed memory is an empty table after reset, and no sequencer has scratch of its own. -/
theorem State.reset_memWf : State.reset.memWf = true := by
  decide

/-- Settles O2: the fields and records by their reads of empty tables, the mode, slices and bits by the reset values of their
fields. -/
theorem resetState : Obligations.ResetState := by
  unfold Obligations.ResetState
  refine ⟨State.reset_rd, State.reset_cur, State.reset_mode, rfl, ?bootDone, ?busy, fun i _ => State.reset_sliceState i, ?seqs,
    State.reset_queue, State.reset_claimed, rfl, State.reset_memWf, State.reset_pending⟩
  case bootDone => simp [F.GLB_MODE_boot_done, resetK]
  case busy => simp [F.GLB_MODE_busy, resetK]
  case seqs => intro q; rw [State.reset_seq]; rfl

end Sys2Proof.Machine
end

section
/-!
The host's accesses (chapter 06): what a request to BAR0, to the configuration space and to the pop window answers, the error
response of an unassigned offset, and what a write does to a register of one field, by the class of the field (R6, R8, R15).
-/

namespace Sys2Proof.Machine

/-! ### What the host's last read returned -/

@[simp] theorem State.answer32_popOut (s : State) (ds : List (BitVec 32)) : (s.answer32 ds).hif.popOut = ds := rfl
@[simp] theorem State.answer32_regs (s : State) (ds : List (BitVec 32)) : (s.answer32 ds).regs = s.regs := rfl
@[simp] theorem State.answer32_queues (s : State) (ds : List (BitVec 32)) : (s.answer32 ds).queues = s.queues := rfl
@[simp] theorem State.answer32_rd (s : State) (ds : List (BitVec 32)) (f : Fld) (is : List Nat) :
    (s.answer32 ds).rd f is = s.rd f is := rfl
@[simp] theorem State.answer32_pends (s : State) (ds : List (BitVec 32)) (e : Nat) : (s.answer32 ds).pends e = s.pends e := rfl

/-! ### The pop window and the peak (R159, R167) -/

/-- A DW of the pop window while DMA leaves the queue to the host: the popped word, bit 24, and bit 25 on the last (R159). -/
theorem State.popDw_of_popWord {s u : State} {f : Nat} {w : Word} {last : Bool} (hdma : s.dmaOn (16 + f) = false)
    (hpop : s.popWord (16 + f) = some (w, last, u)) :
    s.popDw f = (BitVec.ofNat 32 (w.toNat + 2 ^ 24 + if last then 2 ^ 25 else 0), u) := by
  cases last <;> simp [State.popDw, hdma, hpop, b2n]

theorem exec_popWindowRead_one {s : State} {f : Fin 16} (hr : s.reaches f = true) :
    exec (.popWindowRead f 1) s
      = .next (((s.hostRequest f).popDw f).2.answer32 [((s.hostRequest f).popDw f).1]) := by
  change execPopWindowRead f 1 s = _
  rw [execPopWindowRead, if_pos hr]
  rfl

theorem exec_peakRead (s : State) (q : Fin 41) :
    exec (.peakRead q) s = .next ((s.answer32 [BitVec.ofNat 32 (s.rd F.HIF_Q_PEAK_peak [q] * 2 ^ 9)]).peakReset q) := rfl

/-- The deepest queue holds 16,384 words (R161), so that a count fits the 15 bits of the peak. -/
theorem queueDepth_lt_peak (q : Nat) : queueDepth q < 2 ^ fldWidth F.HIF_Q_PEAK_peak := by
  change queueDepth q < 2 ^ 15
  unfold queueDepth
  split_ifs <;> decide

theorem State.peakReset_rd_peak {s : State} {q : Nat} (h : (s.queue q).held ≤ queueDepth q) :
    (s.peakReset q).rd F.HIF_Q_PEAK_peak [q] = (s.queue q).held := by
  rw [State.peakReset, State.rd_wr_self]
  exact Nat.mod_eq_of_lt (h.trans_lt (queueDepth_lt_peak q))

/-! ### Reach (R46, R47, R151) -/

theorem State.reaches_of_link_down {s : State} (h : s.linkAnswers = false) (f : Nat) : s.reaches f = false := by
  simp [State.reaches, h]

/-- While the link does not answer, no access of the host acts (R46, R47). -/
theorem exec_bar0Access_of_link_down {s : State} (h : s.linkAnswers = false) (sp : HostSpace) (wr : Bool) (a : Addr)
    (ds : List (BitVec 32 × Bool)) : exec (.bar0Access sp wr a ds) s = .next s := by
  change execBar0Access sp wr a ds s = .next s
  cases sp with
  | bar0 => simp [execBar0Access, State.reaches_of_link_down h]
  | user f => simp [execBar0Access, State.reaches_of_link_down h]
  | config f r => simp [execBar0Access, h]

theorem exec_bar0Access_id {s : State} (h : s.linkAnswers = true) (d : BitVec 32 × Bool) :
    exec (.bar0Access (.config 0 .id) false 0 [d]) s
      = .next (s.answer32 [BitVec.ofNat 32 (s.deviceId * 2 ^ 16 + Config.vendorId.toNat)]) := by
  change execBar0Access (.config 0 .id) false 0 [d] s = _
  simp [execBar0Access, h, State.configRequest, State.configRead]

/-! ### One DW of BAR0 (R154, R155) -/

theorem exec_bar0Access_read {s : State} (hr : s.reaches 0 = true) (a : Addr) (d : BitVec 32 × Bool) :
    exec (.bar0Access .bar0 false a [d]) s
      = .next ((s.hostActive.barRead a.toNat).2.answer32 [(s.hostActive.barRead a.toNat).1]) := by
  have ha : a.toNat % 2 ^ 24 = a.toNat := Nat.mod_eq_of_lt a.isLt
  change execBar0Access .bar0 false a [d] s = _
  simp only [execBar0Access, hr, if_true, State.bar0Request, State.barReads, ha, List.length_singleton, Bool.false_eq_true, if_false,
    show ¬2 < 1 by decide]

/-- One DW is within every maximum payload (R151). -/
theorem State.one_le_maxPayload (s : State) (f : Nat) : 1 ≤ s.maxPayload f := by
  have := Nat.two_pow_pos (min 2 (tabGet 16 s.hif.devCtl f % 8))
  unfold State.maxPayload
  omega

theorem exec_bar0Access_write {s : State} (hr : s.reaches 0 = true) (a : Addr) (d : BitVec 32 × Bool) :
    exec (.bar0Access .bar0 true a [d]) s = .next (s.hostActive.barWrite a.toNat d) := by
  have ha : a.toNat % 2 ^ 24 = a.toNat := Nat.mod_eq_of_lt a.isLt
  change execBar0Access .bar0 true a [d] s = _
  simp only [execBar0Access, hr, if_true, State.bar0Request, List.length_singleton, s.one_le_maxPayload 0, State.barWrites, ha]

theorem exec_bar0Access_read_of_some {s u : State} {v : Nat} (hr : s.reaches 0 = true) (a : Addr) (d : BitVec 32 × Bool)
    (h : s.hostActive.fabricRead a.toNat = (some v, u)) :
    exec (.bar0Access .bar0 false a [d]) s = .next (u.answer32 [BitVec.ofNat 32 v]) := by
  simp only [exec_bar0Access_read hr, State.barRead, h]

theorem exec_bar0Access_read_of_none {s u : State} (hr : s.reaches 0 = true) (a : Addr) (d : BitVec 32 × Bool)
    (h : s.hostActive.fabricRead a.toNat = (none, u)) :
    exec (.bar0Access .bar0 false a [d]) s = .next ((u.hostError a.toNat).answer32 [0]) := by
  simp only [exec_bar0Access_read hr, State.barRead, h]

theorem exec_bar0Access_write_of_done {s u : State} (hr : s.reaches 0 = true) (a : Addr) (d : BitVec 32)
    (h : s.hostActive.fabricWrite a.toNat (d.toNat % 2 ^ 24) = (true, u)) :
    exec (.bar0Access .bar0 true a [(d, true)]) s = .next u := by
  simp only [exec_bar0Access_write hr, State.barWrite, if_true, h]

theorem exec_bar0Access_write_of_error {s u : State} (hr : s.reaches 0 = true) (a : Addr) (d : BitVec 32)
    (h : s.hostActive.fabricWrite a.toNat (d.toNat % 2 ^ 24) = (false, u)) :
    exec (.bar0Access .bar0 true a [(d, true)]) s = .next (u.hostError a.toNat) := by
  simp only [exec_bar0Access_write hr, State.barWrite, if_true, h, Bool.false_eq_true, if_false]

/-! ### The error response and host activity (R155, R534) -/

theorem hostErrStat_notMem_eventKeys : fldKey F.HIF_ERR_STAT_fabric [] ∉ eventKeys := by decide

/-- A fabric error response sets HIF_ERR_STAT.fabric (R155). -/
theorem State.hostError_rd_fabric (s : State) (a : Nat) : (s.hostError a).rd F.HIF_ERR_STAT_fabric = 1 := by
  unfold State.hostError
  rw [State.raise_rd _ _ _ _ _ hostErrStat_notMem_eventKeys, State.rd_wr_self]
  rfl

theorem State.hostError_pends (s : State) (a : Nat) : (s.hostError a).pends 0x07 = true := by
  unfold State.hostError
  exact State.raise_pends _ 0x07 a (by decide)

/-- Beyond HIF_ERR_STAT.fabric and HIF_ERR_ADDR, an error response writes what the delivery of its event does. -/
theorem State.hostError_rd (s : State) (a : Nat) {g : Fld} {js : List Nat} (hstat : fldKey g js ≠ fldKey F.HIF_ERR_STAT_fabric [])
    (haddr : fldKey g js ≠ fldKey F.HIF_ERR_ADDR_addr []) (hev : fldKey g js ∉ eventKeys) :
    (s.hostError a).rd g js = s.rd g js := by
  unfold State.hostError
  rw [State.raise_rd _ _ _ _ _ hev, State.rd_wr_ne _ _ _ _ _ _ hstat]
  split
  · rfl
  · exact State.rd_wr_ne _ _ _ _ _ _ haddr

theorem State.hostError_noEvents (s : State) (a : Nat) : (s.hostError a).noEvents = s.noEvents := by
  unfold State.hostError
  rw [State.raise_noEvents]
  split <;> rfl

/-- Beyond GLB_HOST_STAT.unatt, host activity writes what the delivery of its event does (R534). -/
theorem State.hostActive_rd (s : State) {g : Fld} {js : List Nat} (hun : fldKey g js ≠ fldKey F.GLB_HOST_STAT_unatt [])
    (hev : fldKey g js ∉ eventKeys) : s.hostActive.rd g js = s.rd g js := by
  unfold State.hostActive
  split
  · rw [State.raise_rd _ _ _ _ _ hev, State.rd_wr_ne _ _ _ _ _ _ hun]
  · rfl

theorem State.hostActive_noEvents (s : State) : s.hostActive.noEvents = s.noEvents := by
  unfold State.hostActive
  split
  · rw [State.raise_noEvents]; rfl
  · rfl

theorem State.hostActive_hostError_regs (s : State) (a : Nat) :
    RegsExceptE s (s.hostActive.hostError a) [(F.HIF_ERR_STAT_fabric, []), (F.HIF_ERR_ADDR_addr, []), (F.GLB_HOST_STAT_unatt, [])] := by
  intro g js hkeys hev
  simp only [keysOf, List.map_cons, List.map_nil, List.mem_cons, List.not_mem_nil, or_false, not_or] at hkeys
  obtain ⟨hstat, haddr, hun⟩ := hkeys
  rw [State.hostError_rd _ _ hstat haddr hev, State.hostActive_rd _ hun hev]

/-! ### Unassigned offsets (R15) -/

theorem State.fabricRead_unassigned (s : State) {a : Nat} (h : regAt (a % 2 ^ 24) = none) : s.fabricRead a = (none, s) := by
  simp only [State.fabricRead, h, ite_self]

theorem State.fabricWrite_unassigned (s : State) {a : Nat} (h : regAt (a % 2 ^ 24) = none) (w : Nat) :
    s.fabricWrite a w = (false, s) := by
  simp only [State.fabricWrite, State.writeDepth, State.fabricWriteWith, h, ite_self]

/-! ### Writes by class (R6, R8) -/

@[simp] theorem State.settleGate_rd (s : State) (b : Nat) (f : Fld) (is : List Nat) : (s.settleGate b).rd f is = s.rd f is := by
  unfold State.settleGate; split <;> rfl
@[simp] theorem State.settleGate_regs (s : State) (b : Nat) : (s.settleGate b).regs = s.regs := by
  unfold State.settleGate; split <;> rfl
@[simp] theorem State.settleGate_vtg (s : State) (b : Nat) : (s.settleGate b).vtg = s.vtg := by
  unfold State.settleGate; split <;> rfl
@[simp] theorem State.settleGate_seqs (s : State) (b : Nat) : (s.settleGate b).seqs = s.seqs := by
  unfold State.settleGate; split <;> rfl
@[simp] theorem State.settleGate_queues (s : State) (b : Nat) : (s.settleGate b).queues = s.queues := by
  unfold State.settleGate; split <;> rfl

/-- A register of block GLB belongs to no slice, so that a write reaches it whatever is fused off or in reset. -/
theorem State.fabricWrite_glb (s : State) {a w : Nat} {r : Reg} {is : List Nat} (ha : a < 2 ^ 20) (hr : regAt a = some (r, is)) :
    s.fabricWrite a w
      = (s.settleGate 0).regWrite (fun s w => s.rfwStart (State.writeDepth 3) w) ((s.settleGate 0).gatedAt a) r is w := by
  have hmod : a % 2 ^ 24 = a := Nat.mod_eq_of_lt (by omega)
  have hblock : a / 2 ^ 20 = 0 := Nat.div_eq_of_lt ha
  have hslice : sliceBlock 0 = false := rfl
  simp only [State.fabricWrite, State.writeDepth, State.fabricWriteWith, hmod, State.fusedAddr, State.peerInReset, hblock, hslice,
    Bool.false_and, Bool.or_self, Bool.false_eq_true, if_false, hr]

section RegWrite
variable (rfw : State → Nat → State) (s : State) (g : Bool) {r : Reg} {f : Fld} (is : List Nat) (w : Nat)

/-- A register of one live or kept field takes the word without an error response, also in a gated block (R6, R53). -/
theorem State.regWrite_live_or_kept (hf : r.fields = [f]) (hc : f.cls = .live ∨ f.cls = .kept) :
    s.regWrite rfw g r is w = (true, (s.fieldWrite is w f).liveEffect s r.addr is w) := by
  rcases hc with hc | hc <;> simp [State.regWrite, hf, hc, forEach]

/-- A register of one V-class field keeps its value and answers with an error response (R8). -/
theorem State.regWrite_vintage (hf : r.fields = [f]) (hc : f.cls = .vintage) : s.regWrite rfw g r is w = (false, s) := by
  simp [State.regWrite, hf, hc, forEach, State.fieldWrite]

end RegWrite

/-- A field of all 24 bits takes the word. -/
theorem fldOf_whole {f : Fld} (hhi : f.hi = 23) (hlo : f.lo = 0) (w : Word) : fldOf f w.toNat = w.toNat := by
  simpa [fldOf, bitsOf, hhi, hlo] using Nat.mod_eq_of_lt w.isLt

/-- The address of an instance in block GLB does not wrap. -/
theorem glbAddr_toNat {b n : Nat} (h : b + n < 2 ^ 20) : (BitVec.ofNat 24 b + BitVec.ofNat 24 n).toNat = b + n := by
  rw [← BitVec.ofNat_add, BitVec.toNat_ofNat]
  exact Nat.mod_eq_of_lt (by omega)

theorem regAt_evtPend (j : Fin 6) : regAt (0x000040 + j) = some (R.GLB_EVT_PEND, [j.val]) := by
  fin_cases j <;> rfl
theorem regAt_faultEn (j : Fin 6) : regAt (0x000048 + j) = some (R.GLB_FAULT_EN, [j.val]) := by
  fin_cases j <;> rfl
theorem regAt_sliceCtl (i : Fin 8) : regAt (0x000018 + i) = some (R.GLB_SLICE_CTL, [i.val]) := by
  fin_cases i <;> rfl

/-- A write of a pending or an enable word starts nothing. -/
theorem State.liveEffect_glbEvents (s old : State) {addr : Nat} (h : addr = R.GLB_EVT_PEND.addr ∨ addr = R.GLB_FAULT_EN.addr)
    (is : List Nat) (w : Nat) : s.liveEffect old addr is w = s := by
  rcases h with rfl | rfl <;> rfl

theorem State.fieldWrite_evtPend (s : State) (is : List Nat) (w : Word) :
    s.fieldWrite is w.toNat F.GLB_EVT_PEND_bits
      = s.wr F.GLB_EVT_PEND_bits (s.rd F.GLB_EVT_PEND_bits is - (s.rd F.GLB_EVT_PEND_bits is &&& w.toNat)) is := by
  have hw : fldOf F.GLB_EVT_PEND_bits w.toNat = w.toNat := fldOf_whole rfl rfl w
  simp only [State.fieldWrite, hw, show F.GLB_EVT_PEND_bits.cls = .kept from rfl]

/-- The last enable word has 8 bits (R9). -/
theorem State.fieldWrite_faultEn (s : State) (is : List Nat) (w : Word) :
    s.fieldWrite is w.toNat F.GLB_FAULT_EN_bits
      = s.wr F.GLB_FAULT_EN_bits (if is = [5] then w.toNat % 256 else w.toNat) is := by
  have hw : fldOf F.GLB_FAULT_EN_bits w.toNat = w.toNat := fldOf_whole rfl rfl w
  have hload : F.GLB_FAULT_EN_bits.same F.SEQ_LOAD_DATA_word = false := by decide
  have hdepth : F.GLB_FAULT_EN_bits.same F.TIM_CLK_SSC_depth = false := by decide
  have hrate : F.GLB_FAULT_EN_bits.same F.TIM_CLK_SSC_rate = false := by decide
  have hself : F.GLB_FAULT_EN_bits.same F.GLB_FAULT_EN_bits = true := by decide
  simp only [State.fieldWrite, hw, hload, hdepth, hrate, hself, show F.GLB_FAULT_EN_bits.cls = .live from rfl, true_and,
    Bool.false_eq_true, if_false]

theorem exec_fabricWrite (s : State) (a : Addr) (w : Word) :
    exec (.fabricWrite a w) s = .next (s.fabricWrite a.toNat w.toNat).2 := rfl

/-- A kept bit is cleared by 1 and left by 0 (R6): GLB_EVT_PEND. -/
theorem exec_fabricWrite_evtPend (s : State) (j : Fin 6) (w : Word) :
    exec (.fabricWrite (0x000040 + BitVec.ofNat 24 j) w) s
      = .next ((s.settleGate 0).wr F.GLB_EVT_PEND_bits
          (s.rd F.GLB_EVT_PEND_bits [j] - (s.rd F.GLB_EVT_PEND_bits [j] &&& w.toNat)) [j]) := by
  have ha : 0x000040 + j.val < 2 ^ 20 := by omega
  have haddr : (0x000040 + BitVec.ofNat 24 j : Addr).toNat = 0x000040 + j.val := glbAddr_toNat ha
  rw [exec_fabricWrite, haddr, State.fabricWrite_glb s ha (regAt_evtPend j), State.regWrite_live_or_kept _ _ _ _ _ rfl (.inr rfl),
    State.liveEffect_glbEvents _ _ (.inl rfl), State.fieldWrite_evtPend, State.settleGate_rd]

/-- A live field takes the word (R6): GLB_FAULT_EN, whose last instance has 8 bits (R9). -/
theorem exec_fabricWrite_faultEn (s : State) (j : Fin 6) (w : Word) :
    exec (.fabricWrite (0x000048 + BitVec.ofNat 24 j) w) s
      = .next ((s.settleGate 0).wr F.GLB_FAULT_EN_bits (if j.val = 5 then w.toNat % 256 else w.toNat) [j]) := by
  have ha : 0x000048 + j.val < 2 ^ 20 := by omega
  have haddr : (0x000048 + BitVec.ofNat 24 j : Addr).toNat = 0x000048 + j.val := glbAddr_toNat ha
  rw [exec_fabricWrite, haddr, State.fabricWrite_glb s ha (regAt_faultEn j), State.regWrite_live_or_kept _ _ _ _ _ rfl (.inl rfl),
    State.liveEffect_glbEvents _ _ (.inr rfl), State.fieldWrite_faultEn]
  simp only [List.cons.injEq, and_true]

theorem exec_fabricWrite_sliceCtl (s : State) (i : Fin 8) (w : Word) :
    exec (.fabricWrite (0x000018 + BitVec.ofNat 24 i) w) s = .next (s.settleGate 0) := by
  have ha : 0x000018 + i.val < 2 ^ 20 := by omega
  have haddr : (0x000018 + BitVec.ofNat 24 i : Addr).toNat = 0x000018 + i.val := glbAddr_toNat ha
  rw [exec_fabricWrite, haddr, State.fabricWrite_glb s ha (regAt_sliceCtl i), State.regWrite_vintage _ _ _ _ _ rfl rfl]

/-! ### The statement -/

/-- Settles O31: each access by the equation of its `exec`, an unassigned offset by the error response that leaves the state
otherwise as host activity does, and the written fields by the class of the one field of their register. -/
theorem hostAccess : Obligations.HostAccess := by
  unfold Obligations.HostAccess
  refine ⟨fun s => ⟨?popWindow, ?peak, ?linkDown, ?deviceId, ?read, ?readError, ?write, ?unassigned⟩,
    fun s => ⟨?kept, ?live, ?vintage⟩⟩
  case popWindow =>
    intro f w last u hr hdma hpop
    refine ⟨_, exec_popWindowRead_one hr, ?_⟩
    rw [State.popDw_of_popWord hdma hpop]
    exact ⟨State.answer32_queues .., State.answer32_popOut ..⟩
  case peak =>
    intro q hheld
    exact ⟨_, exec_peakRead s q, State.peakReset_rd_peak (s := s.answer32 _) hheld, rfl, rfl,
      fun g js hkey => State.rd_wr_ne _ _ _ _ _ _ (mt List.mem_singleton.mpr hkey), rfl⟩
  case linkDown => exact fun sp wr a ds h => exec_bar0Access_of_link_down h sp wr a ds
  case deviceId => exact fun d h => ⟨_, exec_bar0Access_id h d, State.answer32_popOut .., rfl⟩
  case read =>
    exact fun a d v u hr hread => ⟨_, exec_bar0Access_read_of_some hr a d hread, State.answer32_popOut .., State.answer32_regs ..⟩
  case readError =>
    exact fun a d u hr hread => ⟨_, exec_bar0Access_read_of_none hr a d hread, State.answer32_popOut ..,
      (State.answer32_rd ..).trans (u.hostError_rd_fabric _), (State.answer32_pends ..).trans (u.hostError_pends _)⟩
  case write => exact fun a d u hr hwrite => exec_bar0Access_write_of_done hr a d hwrite
  case unassigned =>
    intro a d hr hreg
    have hmod : regAt (a.toNat % 2 ^ 24) = none := by rwa [Nat.mod_eq_of_lt a.isLt]
    refine ⟨by rw [State.fabricRead_unassigned s hmod], State.fabricWrite_unassigned s hmod, ?readNone, ?writeNone⟩
    case readNone =>
      exact ⟨_, exec_bar0Access_read_of_none hr a _ (State.fabricRead_unassigned _ hmod), State.answer32_popOut ..,
        (State.answer32_rd ..).trans (s.hostActive.hostError_rd_fabric _)⟩
    case writeNone =>
      exact ⟨_, exec_bar0Access_write_of_error hr a d (State.fabricWrite_unassigned _ hmod _),
        s.hostActive.hostError_rd_fabric _, s.hostActive_hostError_regs _,
        (s.hostActive.hostError_noEvents _).trans s.hostActive_noEvents⟩
  case kept =>
    intro j w
    exact ⟨_, exec_fabricWrite_evtPend s j w, State.rd_wr_self .., by simp, by simp, by simp⟩
  case live =>
    intro j w
    have hwidth : fldWidth F.GLB_FAULT_EN_bits = 24 := rfl
    refine ⟨_, exec_fabricWrite_faultEn s j w, ?_, by simp, by simp, by simp⟩
    rw [State.rd_wr_self, hwidth]
    exact Nat.mod_eq_of_lt (by split_ifs <;> omega)
  case vintage => exact fun i w => ⟨_, exec_fabricWrite_sliceCtl s i w, by simp, by simp⟩

end Sys2Proof.Machine
end

section
/-!
Who changes what is stored (O7). `State.stores` gathers the parts of the state that hold what is stored; a lemma `…_stores` says that an
operation keeps them all, a lemma `…_part` that it keeps every part but those it writes. They stand in the order of the model's
definitions; one case per command then puts them together.
-/

namespace Sys2Proof.Machine

/-- The parts of the state that hold what is stored. -/
structure Stores where
  cask : Tab Nat
  otpOwner : Option (BitVec 384)
  otpKcv : Nat
  otpSerial : Word
  devKek : Option (BitVec 256)
  hostMem : Tab (BitVec 32)
  store : Tab (Option Word)
  slots : Tab (Option KeySlot)
  keks : Tab (Option (BitVec 256))
  pool : Pool
  gfp : Tab Gfp
  calendars : Tab Calendar

def State.stores (s : State) : Stores :=
  ⟨s.cask, s.ctl.otpOwner, s.ctl.otpKcv, s.ctl.otpSerial, s.cip.devKek, s.hif.hostMem, s.exec.store, s.cip.slots, s.cip.keks,
    s.pool, s.gfp, s.calendars⟩

@[simp] theorem State.stores_ite (c : Prop) [Decidable c] (s t : State) :
    (if c then s else t).stores = if c then s.stores else t.stores :=
  apply_ite _ _ _ _

@[simp] theorem forEach_stores {α : Type} {f : α → State → State} (h : ∀ a s, (f a s).stores = s.stores) (l : List α)
    (s : State) : (forEach f l s).stores = s.stores := forEach_keeps State.stores f h l s

def Out.Keeps (o : Out) (s : State) : Prop := ∀ t, o = .next t → t.stores = s.stores
@[simp] theorem Out.keeps_next (s t : State) : Out.Keeps (.next t) s ↔ t.stores = s.stores := by
  constructor
  · intro h; exact h _ rfl
  · intro h u hu; cases hu; exact h

/-- A state built from another's stores has its stores. -/
theorem State.stores_mk {s : State} {ctl : Ctl} {exec : Exec} {hif : Hif} {cip : Cip}
    (hOwner : ctl.otpOwner = s.ctl.otpOwner) (hKcv : ctl.otpKcv = s.ctl.otpKcv) (hSerial : ctl.otpSerial = s.ctl.otpSerial)
    (hKek : cip.devKek = s.cip.devKek) (hMem : hif.hostMem = s.hif.hostMem) (hStore : exec.store = s.exec.store)
    (hSlots : cip.slots = s.cip.slots) (hKeks : cip.keks = s.cip.keks)
    (pending regs counters seqs queues vtg tim conv calEng capture rx tx align tdl lfr grid mems chans svcSol clients lanes
      cel pry mon free) :
    State.stores ⟨pending, regs, counters, ctl, exec, seqs, queues, vtg, hif, tim, conv, calEng, capture, rx, tx, s.pool, align,
      tdl, lfr, grid, mems, chans, cip, svcSol, clients, s.gfp, lanes, s.calendars, cel, pry, mon, s.cask, free⟩ = s.stores := by
  simp only [State.stores, hOwner, hKcv, hSerial, hKek, hMem, hStore, hSlots, hKeks]

/-! ### One part of the stores -/

inductive Part where
  | cask | otpOwner | otpKcv | otpSerial | devKek | hostMem | store | slots | keks | pool | gfp | calendars

abbrev Part.Val : Part → Type
  | .cask => Tab Nat
  | .otpOwner => Option (BitVec 384)
  | .otpKcv => Nat
  | .otpSerial => Word
  | .devKek => Option (BitVec 256)
  | .hostMem => Tab (BitVec 32)
  | .store => Tab (Option Word)
  | .slots => Tab (Option KeySlot)
  | .keks => Tab (Option (BitVec 256))
  | .pool => Pool
  | .gfp => Tab Gfp
  | .calendars => Tab Calendar

def Stores.get (x : Stores) : (p : Part) → p.Val
  | .cask => x.cask
  | .otpOwner => x.otpOwner
  | .otpKcv => x.otpKcv
  | .otpSerial => x.otpSerial
  | .devKek => x.devKek
  | .hostMem => x.hostMem
  | .store => x.store
  | .slots => x.slots
  | .keks => x.keks
  | .pool => x.pool
  | .gfp => x.gfp
  | .calendars => x.calendars

@[simp] theorem Stores.get_ite (c : Prop) [Decidable c] (x y : Stores) (p : Part) :
    (if c then x else y).get p = if c then x.get p else y.get p := apply_ite (fun z : Stores => z.get p) _ _ _

@[simp] theorem forEach_part {α : Type} {p : Part} {f : α → State → State} (h : ∀ a s, (f a s).stores.get p = s.stores.get p)
    (l : List α) (s : State) : (forEach f l s).stores.get p = s.stores.get p := forEach_keeps (fun t => t.stores.get p) f h l s

def Out.KeepsPart (o : Out) (p : Part) (s : State) : Prop := ∀ t, o = .next t → t.stores.get p = s.stores.get p
@[simp] theorem Out.keepsPart_next (s t : State) (p : Part) : Out.KeepsPart (.next t) p s ↔ t.stores.get p = s.stores.get p := by
  constructor
  · intro h; exact h _ rfl
  · intro h u hu; cases hu; exact h

theorem Out.Keeps.part {o : Out} {s : State} (h : o.Keeps s) (p : Part) : o.KeepsPart p s := fun t ht => by rw [h t ht]

def Part.fixed : Part → Bool
  | .cask | .otpOwner | .otpKcv | .otpSerial | .devKek | .hostMem => true
  | .store | .slots | .keks | .pool | .gfp | .calendars => false

theorem Part.ne_of_fixed {p : Part} (h : p.fixed = true) :
    p ≠ .store ∧ p ≠ .slots ∧ p ≠ .keks ∧ p ≠ .pool ∧ p ≠ .gfp ∧ p ≠ .calendars := by
  cases p <;> simp_all [Part.fixed]

theorem State.withPool_part {p : Part} (h : p ≠ .pool) (s : State) (x : Pool) :
    ({ s with pool := x } : State).stores.get p = s.stores.get p := by
  cases p <;> first | rfl | contradiction
theorem State.withCask_part {p : Part} (h : p ≠ .cask) (s : State) (x : Tab Nat) :
    ({ s with cask := x } : State).stores.get p = s.stores.get p := by
  cases p <;> first | rfl | contradiction
theorem State.withHif_part {p : Part} (h : p ≠ .hostMem) (s : State) (x : Hif) :
    ({ s with hif := x } : State).stores.get p = s.stores.get p := by
  cases p <;> first | rfl | contradiction


/-! ### Ops -/

@[simp] theorem State.wr_stores (s : State) (f : Fld) (v : Nat) (is : List Nat) : (s.wr f v is).stores = s.stores := by rfl
@[simp] theorem State.addSat_stores (s : State) (f : Fld) (n max : Nat) (is : List Nat) :
    (s.addSat f n max is).stores = s.stores := by
  simp [State.addSat]
@[simp] theorem State.count_stores (s : State) (i n : Nat) : (s.count i n).stores = s.stores := by rfl
@[simp] theorem State.setSeq_stores (s : State) (q : Nat) (x : Seq) : (s.setSeq q x).stores = s.stores := by rfl
@[simp] theorem State.setQueue_stores (s : State) (q : Nat) (x : Queue) : (s.setQueue q x).stores = s.stores := by rfl
@[simp] theorem State.setConv_stores (s : State) (i : Nat) (x : Conv) : (s.setConv i x).stores = s.stores := by rfl
@[simp] theorem State.setRx_stores (s : State) (i : Nat) (x : Rx) : (s.setRx i x).stores = s.stores := by rfl
@[simp] theorem State.setTx_stores (s : State) (i : Nat) (x : Tx) : (s.setTx i x).stores = s.stores := by rfl
@[simp] theorem State.setAlign_stores (s : State) (i : Nat) (x : Align) : (s.setAlign i x).stores = s.stores := by rfl
@[simp] theorem State.setTdl_stores (s : State) (i : Nat) (x : Tdl) : (s.setTdl i x).stores = s.stores := by rfl
@[simp] theorem State.setLfr_stores (s : State) (i : Nat) (x : Lfr) : (s.setLfr i x).stores = s.stores := by rfl
@[simp] theorem State.setClaim_stores (s : State) (n : Nat) (x : Claim) : (s.setClaim n x).stores = s.stores := by rfl
@[simp] theorem State.signalVec_stores (s : State) (f v : Nat) : (s.signalVec f v).stores = s.stores := by
  unfold State.signalVec
  dsimp only
  repeat' split
  all_goals rfl
@[simp] theorem State.sendPending_stores (s : State) (f v : Nat) : (s.sendPending f v).stores = s.stores := by
  unfold State.sendPending
  dsimp only
  repeat' split
  all_goals rfl
@[simp] theorem State.sendAllPending_stores (s : State) : s.sendAllPending.stores = s.stores := by simp [State.sendAllPending]
@[simp] theorem State.signalEvent_stores (s : State) (e : Nat) : (s.signalEvent e).stores = s.stores := by
  simp [State.signalEvent]
@[simp] theorem State.deliverSeqs_stores (s : State) (e : Nat) (data : Word) : (s.deliverSeqs e data).stores = s.stores := by
  simp [State.deliverSeqs]
@[simp] theorem State.setPort_stores (s : State) (p : Nat) (x : Port) : (s.setPort p x).stores = s.stores := by rfl
@[simp] theorem State.portOff_stores (s : State) (p : Nat) : (s.portOff p).stores = s.stores := by simp [State.portOff]
@[simp] theorem State.pryTx_stores (s : State) (p : Nat) (m : PryMsg) : (s.pryTx p m).stores = s.stores := by simp [State.pryTx]
@[simp] theorem State.forwardEvent_stores (s : State) (e data : Nat) : (s.forwardEvent e data).stores = s.stores := by
  simp [State.forwardEvent]
@[simp] theorem State.takeWord_stores (s : State) : s.takeWord.2.stores = s.stores := by rfl
@[simp] theorem State.roundFree_stores (s : State) (num : Int) (den : Nat) : (s.roundFree num den).2.stores = s.stores := by
  unfold State.roundFree
  dsimp only
  repeat' split
  all_goals rfl
@[simp] theorem State.setInj_stores (s : State) (q : Nat) (x : Inj) : (s.setInj q x).stores = s.stores := by rfl
@[simp] theorem State.injTrigger_stores (s : State) (q : Nat) : (s.injTrigger q).stores = s.stores := by
  unfold State.injTrigger
  dsimp only
  split <;> simp
@[simp] theorem State.injEvent_stores (s : State) (e : Nat) : (s.injEvent e).stores = s.stores := by simp [State.injEvent]
@[simp] theorem State.fireCapture_stores (s : State) (i : Nat) : (s.fireCapture i).stores = s.stores := by
  simp [State.fireCapture]
@[simp] theorem State.stick_stores (s : State) (f : Fld) (i : Nat) : (s.stick f i).stores = s.stores := by simp [State.stick]
@[simp] theorem State.captureTrigger_stores (s : State) (kind n : Nat) : (s.captureTrigger kind n).stores = s.stores := by
  unfold State.captureTrigger
  split <;> simp
@[simp] theorem State.celAsk_stores (s : State) (k n : Nat) : (s.celAsk k n).stores = s.stores := by
  unfold State.celAsk
  dsimp only
  repeat' split
  all_goals rfl
@[simp] theorem State.celDrop_stores (s : State) (k : Nat) : (s.celDrop k).stores = s.stores := by rfl
@[simp] theorem State.peCheck_stores (s : State) (i : Nat) : (s.peCheck i).stores = s.stores := by simp [State.peCheck]
@[simp] theorem State.raise_stores (s : State) (e : Nat) (data : Nat) : (s.raise e data).stores = s.stores := by
  simp [State.raise]
@[simp] theorem State.putRow_stores (s : State) (cls row : Nat) : (s.putRow cls row).stores = s.stores := by rfl
@[simp] theorem State.memWrite_stores (s : State) (cls row : Nat) (whole : Bool) :
    (s.memWrite cls row whole).2.stores = s.stores := by
  unfold State.memWrite
  split
  · simp
  · split <;> simp
@[simp] theorem State.memRead_stores (s : State) (cls row : Nat) : (s.memRead cls row).2.stores = s.stores := by
  unfold State.memRead
  dsimp only
  split
  · simp
  · split
    · rfl
    · rfl
    · simp
@[simp] theorem State.vintSet_stores (s : State) (ds : List (Nat × Nat)) : (s.vintSet ds).stores = s.stores := by
  unfold State.vintSet
  dsimp only
  repeat' split
  all_goals rfl
@[simp] theorem State.vintRead_stores (s : State) (img : Nat) : (s.vintRead img).2.stores = s.stores := by
  unfold State.vintRead
  refine List.foldlRecOn (motive := fun r : Bool × State => r.2.stores = s.stores) _ _ ?_ fun r hr e _ =>
    (State.memRead_stores ..).trans hr
  simp [↓State.stores_mk]
@[simp] theorem State.sendNotice_stores (s : State) (q : Nat) : (s.sendNotice q).stores = s.stores := by simp [State.sendNotice]
@[simp] theorem State.markNotice_stores (s : State) (q : Nat) : (s.markNotice q).stores = s.stores := by
  unfold State.markNotice
  dsimp only
  split <;> simp
@[simp] theorem State.notice_stores (s : State) (q : Nat) : (s.notice q).stores = s.stores := by simp [State.notice]
@[simp] theorem State.queueMarks_stores (s : State) (q : Nat) : (s.queueMarks q).stores = s.stores := by
  unfold State.queueMarks
  split <;> simp
@[simp] theorem State.refuseWords_stores (s : State) (q pkts words : Nat) : (s.refuseWords q pkts words).stores = s.stores := by
  simp [State.refuseWords]
@[simp] theorem State.land_stores (s : State) (q : Nat) (x : Queue) (ps : List QPkt) : (s.land q x ps).stores = s.stores := by
  simp [State.land]
@[simp] theorem State.arrive_stores (s : State) (q : Nat) (w : Word) (given : Nat) : (s.arrive q w given).stores = s.stores := by
  unfold State.arrive
  dsimp only
  repeat' split
  all_goals simp
@[simp] theorem State.deliverWord_stores (s : State) (q : Nat) (w : Word) : (s.deliverWord q w).2.stores = s.stores := by
  unfold State.deliverWord
  dsimp only
  repeat' split
  all_goals simp
theorem State.popWord_stores {s t : State} {q : Nat} {w : Word} {b : Bool} (h : s.popWord q = some (w, b, t))
    : t.stores = s.stores := by
  unfold State.popWord at h
  dsimp only at h
  split at h
  · split at h
    · cases h; simp
    · cases h
  · cases h
@[simp] theorem State.popWords_stores (s : State) (q n : Nat) : (s.popWords q n).2.stores = s.stores := by
  induction n generalizing s with
  | zero => rfl
  | succ n ih =>
    unfold State.popWords
    split
    · rfl
    · next h => exact (ih _).trans (State.popWord_stores h)
@[simp] theorem State.putScratch_stores (s : State) (q a : Nat) (w : Word) : (s.putScratch q a w).stores = s.stores := by
  simp [State.putScratch]
@[simp] theorem State.putWords_stores (s : State) (q a : Nat) (ws : List Word) : (s.putWords q a ws).stores = s.stores := by
  induction ws generalizing s a with
  | nil => rfl
  | cons w ws ih => exact (ih _ _).trans (State.putScratch_stores ..)
@[simp] theorem State.takeWords_stores (s : State) (sq q : Nat) (ws : List Word) : (s.takeWords sq q ws).stores = s.stores := by
  unfold State.takeWords
  dsimp only
  repeat' split
  all_goals simp
@[simp] theorem State.feed_stores (s : State) (q : Nat) : (s.feed q).stores = s.stores := by
  unfold State.feed
  dsimp only
  split <;> simp
@[simp] theorem State.dropTaken_stores (s : State) (sq q : Nat) : (s.dropTaken sq q).stores = s.stores := by
  unfold State.dropTaken
  dsimp only
  split <;> simp
@[simp] theorem State.push_stores (s : State) (q : Nat) (w : Word) (given : Nat) : (s.push q w given).stores = s.stores := by
  unfold State.push
  dsimp only
  split <;> simp
@[simp] theorem State.pushAll_stores (s : State) (q : Nat) (ws : List Word) : (s.pushAll q ws).stores = s.stores := by
  simp [State.pushAll]
@[simp] theorem State.setPlanner_stores (s : State) (x : Planner) : (s.setPlanner x).stores = s.stores := by rfl
@[simp] theorem State.watchRun_stores (s : State) (i : Nat) : (s.watchRun i).stores = s.stores := by simp [State.watchRun]
@[simp] theorem State.watchProposal_stores (s : State) (i : Nat) : (s.watchProposal i).stores = s.stores := by
  simp [State.watchProposal]
@[simp] theorem State.msixReset_stores (s : State) (f : Nat) : (s.msixReset f).stores = s.stores := by rfl
@[simp] theorem State.linkDown_stores (s : State) : s.linkDown.stores = s.stores := by simp [State.linkDown, ↓State.stores_mk]
@[simp] theorem State.setGate_stores (s : State) (b : Nat) (g : Gate) : (s.setGate b g).stores = s.stores := by rfl
@[simp] theorem State.settleGate_stores (s : State) (b : Nat) : (s.settleGate b).stores = s.stores := by simp [State.settleGate]
@[simp] theorem State.whenOpen_stores {s : State} {f : State → State} (h : (f s).stores = s.stores) (b : Nat) :
    (s.whenOpen b f).stores = s.stores := by simp [State.whenOpen, h]
@[simp] theorem State.whenOpen_part {p : Part} {s : State} {f : State → State} (h : (f s).stores.get p = s.stores.get p) (b
    : Nat) :
    (s.whenOpen b f).stores.get p = s.stores.get p := by simp [State.whenOpen, h]
@[simp] theorem State.mirrorDrain_stores (s : State) : s.mirrorDrain.stores = s.stores := by
  unfold State.mirrorDrain
  dsimp only
  repeat' split
  all_goals simp
@[simp] theorem State.mirror_stores (s : State) (typ : Nat) (content : List Nat) : (s.mirror typ content).stores = s.stores := by
  simp [State.mirror, ↓State.stores_mk]
@[simp] theorem State.mirrorDomain_stores (s : State) : s.mirrorDomain.stores = s.stores := by simp [State.mirrorDomain]

/-! ### Converters -/

@[simp] theorem State.applyTrim_stores (s : State) (m : Tab Nat) (f : Fld) (is : List Nat) :
    (s.applyTrim m f is).stores = s.stores := by
  simp [State.applyTrim]
@[simp] theorem State.applyAdc_stores (s : State) (m : Tab Nat) (i a p : Nat) : (s.applyAdc m i a p).stores = s.stores := by
  simp [State.applyAdc]
@[simp] theorem State.loadDacs_stores (s : State) (m : Tab Nat) (i : Nat) : (s.loadDacs m i).stores = s.stores := by
  simp [State.loadDacs]
@[simp] theorem State.applyDacs_stores (s : State) (m : Tab Nat) (i : Nat) : (s.applyDacs m i).stores = s.stores := by
  simp [State.applyDacs]
@[simp] theorem State.loadTrims_stores (s : State) (i : Nat) (g : Gen) : (s.loadTrims i g).stores = s.stores := by
  simp [State.loadTrims]
@[simp] theorem State.loadGeneration_stores (s : State) (i : Nat) (g : Gen) : (s.loadGeneration i g).stores = s.stores := by
  simp [State.loadGeneration]
@[simp] theorem State.askEngine_stores (s : State) (i e : Nat) : (s.askEngine i e).stores = s.stores := by
  unfold State.askEngine
  dsimp only
  repeat' split
  all_goals rfl
@[simp] theorem State.dropAsk_stores (s : State) (i : Nat) : (s.dropAsk i).stores = s.stores := by rfl
@[simp] theorem State.askRun_stores (s : State) (i : Nat) : (s.askRun i).stores = s.stores := by simp [State.askRun]
@[simp] theorem State.runCause_stores (s : State) (i c : Nat) : (s.runCause i c).stores = s.stores := by simp [State.runCause]
@[simp] theorem State.askRestore_stores (s : State) (i : Nat) : (s.askRestore i).stores = s.stores := by simp [State.askRestore]
@[simp] theorem State.captureHandBack_stores (s : State) (i : Nat) : (s.captureHandBack i).stores = s.stores := by
  unfold State.captureHandBack
  dsimp only
  repeat' split
  all_goals rfl
@[simp] theorem State.calIdle_stores (s : State) (i : Nat) : (s.calIdle i).stores = s.stores := by simp [State.calIdle]
@[simp] theorem State.abortRun_stores (s : State) (i : Nat) : (s.abortRun i).stores = s.stores := by simp [State.abortRun]
@[simp] theorem State.calLeaveLit_stores (s : State) (i : Nat) : (s.calLeaveLit i).stores = s.stores := by
  simp [State.calLeaveLit]
@[simp] theorem State.beginMatch_stores (s : State) (i p : Nat) : (s.beginMatch i p).stores = s.stores := by
  simp [State.beginMatch]
@[simp] theorem State.startCal_stores (s : State) (i : Nat) : (s.startCal i).stores = s.stores := by simp [State.startCal]
@[simp] theorem execRecalRunCmd_stores (i : Fin 8) (s : State) : (execRecalRunCmd i s).Keeps s := by simp [execRecalRunCmd]
@[simp] theorem execRecalAbortCmd_stores (i : Fin 8) (s : State) : (execRecalAbortCmd i s).Keeps s := by simp [execRecalAbortCmd]
@[simp] theorem execConverterTempReading_stores (i : Fin 8) (temp : BitVec 10) (s : State) :
    (execConverterTempReading i temp s).Keeps s := by
  simp [execConverterTempReading]
@[simp] theorem execRecalIntervalExpiry_stores (i : Fin 8) (s : State) : (execRecalIntervalExpiry i s).Keeps s := by
  simp [execRecalIntervalExpiry]
@[simp] theorem State.skipPhase_stores (s : State) (i a p : Nat) : (s.skipPhase i a p).stores = s.stores := by
  simp [State.skipPhase]
@[simp] theorem State.trimSpare_stores (s : State) (i a : Nat) (m : TrimMeasure) : (s.trimSpare i a m).stores = s.stores := by
  simp [State.trimSpare]
@[simp] theorem execSpareMatchEnd_stores (i : Fin 8) (adcs : List MatchResult) (s : State) :
    (execSpareMatchEnd i adcs s).Keeps s := by
  simp [execSpareMatchEnd]
@[simp] theorem State.measurePhase_stores (s : State) (i p : Nat) (adc : List TrimMeasure) (taps : List Int) :
    (s.measurePhase i p adc taps).stores = s.stores := by
  simp [State.measurePhase]
@[simp] theorem State.handBack_stores (s : State) (i p : Nat) : (s.handBack i p).stores = s.stores := by simp [State.handBack]
@[simp] theorem execRunStepHandBack_stores (i : Fin 8) (measured : Option (List TrimMeasure × List Int)) (s : State) :
    (execRunStepHandBack i measured s).Keeps s := by
  unfold execRunStepHandBack
  dsimp only
  repeat' split
  all_goals simp
@[simp] theorem State.afterCal_stores (s : State) (i : Nat) : (s.afterCal i).stores = s.stores := by simp [State.afterCal]
@[simp] theorem execRunComplete_stores (i : Fin 8) (dac : List TrimMeasure) (s : State) : (execRunComplete i dac s).Keeps s := by
  simp [execRunComplete]
@[simp] theorem execRestoreRotationComplete_stores (i : Fin 8) (s : State) : (execRestoreRotationComplete i s).Keeps s := by
  simp [execRestoreRotationComplete]
@[simp] theorem State.caskProgram_part {p : Part} (h : p ≠ .cask) (s : State) (a : Nat) (bs : List Nat) :
    (s.caskProgram a bs).stores.get p = s.stores.get p := by
  induction bs generalizing s a with
  | nil => rfl
  | cons b bs ih => exact (ih _ _).trans (State.withCask_part h ..)
@[simp] theorem State.caskErase_part {p : Part} (h : p ≠ .cask) (s : State) (a : Nat) :
    (s.caskErase a).stores.get p = s.stores.get p := State.withCask_part h ..
@[simp] theorem State.failedSector_part {p : Part} (h : p ≠ .cask) (s : State) (sec : Nat) :
    (s.failedSector sec).stores.get p = s.stores.get p := by
  dsimp only [State.failedSector]
  simp [↓State.stores_mk, h]
@[simp] theorem State.saveGeneration_part {p : Part} (h : p ≠ .cask) (s : State) (i : Nat) (verified : Bool) :
    (s.saveGeneration i verified).stores.get p = s.stores.get p := by
  unfold State.saveGeneration
  dsimp only
  split <;> simp [h]
@[simp] theorem execClipWindow_stores (i : Fin 8) (codes : List (Fin 4 × Fin 65 × BitVec 8)) (s : State) :
    (execClipWindow i codes s).Keeps s := by
  unfold execClipWindow
  dsimp only
  repeat' split
  all_goals simp
@[simp] theorem State.endCapture_stores (s : State) (i : Nat) : (s.endCapture i).stores = s.stores := by
  simp [State.endCapture, ↓State.stores_mk]
@[simp] theorem State.armCapture_stores (s : State) (i : Nat) : (s.armCapture i).stores = s.stores := by
  simp [State.armCapture, ↓State.stores_mk]
@[simp] theorem execCaptureGo_stores (i : Fin 8) (s : State) : (execCaptureGo i s).Keeps s := by
  simp [execCaptureGo, ↓State.stores_mk]
@[simp] theorem execCaptureTrigger_stores (trig : CapTrig) (s : State) : (execCaptureTrigger trig s).Keeps s := by
  unfold execCaptureTrigger
  split <;> simp
@[simp] theorem State.drainSegment_stores (s : State) (i : Nat) : (s.drainSegment i).stores = s.stores := by
  simp [State.drainSegment]
@[simp] theorem execCaptureSegmentFilled_stores (s : State) : (execCaptureSegmentFilled s).Keeps s := by
  unfold execCaptureSegmentFilled
  split <;> simp
@[simp] theorem State.stopCapture_stores (s : State) (i : Nat) : (s.stopCapture i).stores = s.stores := by
  simp [State.stopCapture, ↓State.stores_mk]
@[simp] theorem execCaptureStop_stores (i : Fin 8) (s : State) : (execCaptureStop i s).Keeps s := by simp [execCaptureStop]

/-! ### Blocks -/

@[simp] theorem State.putBlock_stores (s : State) (b : Nat) (w : List Nat) : (s.putBlock b w).stores = s.stores := by rfl
@[simp] theorem State.openLine_stores (s : State) (b : Nat) : (s.openLine b).stores = s.stores := by
  unfold State.openLine
  dsimp only
  repeat' split
  all_goals rfl
@[simp] theorem State.celCorrected_stores (s : State) (region ch loc : Nat) :
    (s.celCorrected region ch loc).stores = s.stores := by
  simp [State.celCorrected]
@[simp] theorem State.celPoisoned_stores (s : State) (region ch loc : Nat) : (s.celPoisoned region ch loc).stores = s.stores := by
  simp [State.celPoisoned]
@[simp] theorem State.readBlock_stores (s : State) (b : Nat) (errs : List (Nat × Nat)) :
    (s.readBlock b errs).2.2.2.stores = s.stores := by
  unfold State.readBlock
  dsimp only
  repeat' split
  all_goals simp
@[simp] theorem State.readBlocks_stores (s : State) (errs : List (Nat × Nat × Nat)) (bs : List Nat) :
    (s.readBlocks errs bs).2.2.2.stores = s.stores := by
  induction bs generalizing s with
  | nil => rfl
  | cons b bs ih => exact (ih _).trans (State.readBlock_stores ..)
@[simp] theorem State.writeGroups_stores (s : State) (b : Nat) (bytes : List Nat) :
    (s.writeGroups b bytes).stores = s.stores := by
  simp [State.writeGroups]
@[simp] theorem State.writeRing_stores (s : State) (b off : Nat) (bytes : List Nat) :
    (s.writeRing b off bytes).stores = s.stores := by
  unfold State.writeRing
  dsimp only
  repeat' split
  all_goals rfl
@[simp] theorem State.writeRings_stores (s : State) (a : Nat) (bytes : List Nat) : (s.writeRings a bytes).stores = s.stores := by
  simp [State.writeRings]
@[simp] theorem State.writeBlock_stores (s : State) (b : Nat) (data : List Nat) : (s.writeBlock b data).stores = s.stores := by
  simp [State.writeBlock]
@[simp] theorem State.writePart_stores (s : State) (b off : Nat) (bytes : List Nat) :
    (s.writePart b off bytes).stores = s.stores := by
  unfold State.writePart
  dsimp only
  split <;> simp

/-! ### Candidates -/

@[simp] theorem State.unmeasured_stores (s : State) : s.unmeasured.stores = s.stores := by simp [State.unmeasured]
@[simp] theorem State.cmdFails_stores (s : State) : s.cmdFails.stores = s.stores := by simp [State.cmdFails]
@[simp] theorem State.candStep_stores (s : State) (i st : Nat) : (s.candStep i st).stores = s.stores := by simp [State.candStep]
@[simp] theorem State.candLost_stores (s : State) (i : Nat) : (s.candLost i).stores = s.stores := by simp [State.candLost]

/-! ### Receive -/

@[simp] theorem State.setDsp_stores (s : State) (i : Nat) (d : Dsp) : (s.setDsp i d).stores = s.stores := by simp [State.setDsp]
@[simp] theorem State.syncNone_stores (s : State) (i : Nat) : (s.syncNone i).stores = s.stores := by simp [State.syncNone]
@[simp] theorem State.frameOut_stores (s : State) (i : Nat) : (s.frameOut i).stores = s.stores := by simp [State.frameOut]
@[simp] theorem State.clearTaps_stores (s : State) (i : Nat) : (s.clearTaps i).stores = s.stores := by simp [State.clearTaps]
@[simp] theorem State.enterDsp_stores (s : State) (i st : Nat) : (s.enterDsp i st).stores = s.stores := by simp [State.enterDsp]
@[simp] theorem State.toAcq_stores (s : State) (i st : Nat) : (s.toAcq i st).stores = s.stores := by simp [State.toAcq]
@[simp] theorem State.acqLit_stores (s : State) (i : Nat) : (s.acqLit i).stores = s.stores := by simp [State.acqLit]
@[simp] theorem State.acqRestart_stores (s : State) (i : Nat) : (s.acqRestart i).stores = s.stores := by simp [State.acqRestart]
@[simp] theorem State.enterCd_stores (s : State) (i : Nat) : (s.enterCd i).stores = s.stores := by simp [State.enterCd]
@[simp] theorem State.acqFail_stores (s : State) (i : Nat) : (s.acqFail i).stores = s.stores := by simp [State.acqFail]
@[simp] theorem State.acqMove_stores (s : State) (i frm dest : Nat) : (s.acqMove i frm dest).stores = s.stores := by
  simp [State.acqMove]
@[simp] theorem State.syncSearch_stores (s : State) (i : Nat) : (s.syncSearch i).stores = s.stores := by simp [State.syncSearch]
@[simp] theorem State.rxMode_stores (s : State) (i : Nat) : (s.rxMode i).stores = s.stores := by simp [State.rxMode]
@[simp] theorem State.rxCheck_stores (s : State) (i : Nat) : (s.rxCheck i).stores = s.stores := by simp [State.rxCheck]
@[simp] theorem State.resizeEq_stores (s : State) (i : Nat) : (s.resizeEq i).stores = s.stores := by simp [State.resizeEq]
@[simp] theorem State.rxCommit_stores (s : State) (old : Tab Nat) (i : Nat) : (s.rxCommit old i).stores = s.stores := by
  simp [State.rxCommit]
@[simp] theorem State.newBlocks_stores (s : State) (i : Nat) : (s.newBlocks i).stores = s.stores := by simp [State.newBlocks]
@[simp] theorem State.rxdGo_stores (s : State) (img : RxImg) (i : Nat) : (s.rxdGo img i).stores = s.stores := by
  simp [State.rxdGo]
@[simp] theorem State.rxdNext_stores (s : State) (img : RxImg) (i : Nat) : (s.rxdNext img i).stores = s.stores := by
  simp [State.rxdNext]

/-! ### Chain -/

@[simp] theorem State.frontEnd_stores (s : State) (i : Nat) (own : Nat) (samples : List AdcSample) :
    (s.frontEnd i own samples).2.stores = s.stores := by
  simp [State.frontEnd]
@[simp] theorem State.countSat_stores (s : State) (i n : Nat) : (s.countSat i n).stores = s.stores := by simp [State.countSat]
@[simp] theorem State.countSlips_stores (s : State) (i n : Nat) : (s.countSlips i n).stores = s.stores := by
  simp [State.countSlips]
@[simp] theorem State.rxdWrap_stores (s : State) (i : Nat) : (s.rxdWrap i).stores = s.stores := by simp [State.rxdWrap]
@[simp] theorem State.rxBlock_stores (s : State) (i : Nat) (samples : List AdcSample) :
    (s.rxBlock i samples).2.2.stores = s.stores := by
  simp [State.rxBlock, ↓State.stores_mk]
@[simp] theorem State.blindFrame_stores (s : State) (i n : Nat) (timed : Signal) :
    (s.blindFrame i n timed).stores = s.stores := by
  simp [State.blindFrame]
@[simp] theorem State.offsetFrame_stores (s : State) (i n : Nat) (timed : Signal) :
    (s.offsetFrame i n timed).stores = s.stores := by
  simp [State.offsetFrame]
@[simp] theorem State.acquireFrame_stores (s : State) (i : Nat) (samples : List AdcSample) :
    (s.acquireFrame i samples).stores = s.stores := by
  simp [State.acquireFrame]

/-! ### Coding -/

@[simp] theorem State.poolRecompute_stores (s : State) : s.poolRecompute.stores = s.stores := by simp [State.poolRecompute]
@[simp] theorem State.poolMarks_stores (s : State) : s.poolMarks.stores = s.stores := by simp [State.poolMarks]
@[simp] theorem State.leavePool_part {p : Part} (h : p ≠ .pool) (s : State) (b : Block) (why : Leave) :
    (s.leavePool b why).stores.get p = s.stores.get p := by
  dsimp only [State.leavePool]
  cases why <;> simp [↓State.withPool_part, ↓State.stores_mk, h]
@[simp] theorem State.takeGuar_part {p : Part} (h : p ≠ .pool) (s : State) (i : Nat) :
    (s.takeGuar i).2.stores.get p = s.stores.get p := State.withPool_part h ..
@[simp] theorem State.alignBlock_stores (s : State) (i : Nat) : (s.alignBlock i).stores = s.stores := by simp [State.alignBlock]
@[simp] theorem State.addBlock_part {p : Part} (h : p ≠ .pool) (s : State) (b : Block) :
    (s.addBlock b).stores.get p = s.stores.get p := State.withPool_part h ..
theorem execBlockArrival_part {p : Part} (h : p ≠ .pool) (i : Fin 8) (samples : List AdcSample) (s : State) :
    (execBlockArrival i samples s).KeepsPart p s := by
  unfold execBlockArrival
  rw [Out.keepsPart_next]
  dsimp only
  repeat' split
  all_goals simp [↓State.withPool_part, h]
@[simp] theorem State.readContexts_stores (s : State) (bs : List Block) : (s.readContexts bs).2.stores = s.stores := by
  induction bs generalizing s with
  | nil => rfl
  | cons b bs ih => exact (ih _).trans (by simp)
theorem execIterationSlot_part {p : Part} (h : p ≠ .pool) (s : State) : (execIterationSlot s).KeepsPart p s := by
  unfold execIterationSlot
  rw [Out.keepsPart_next]
  dsimp only
  rw [State.poolMarks_stores, State.wr_stores, forEach_part, State.withPool_part h]
  · simp [h]
  · intro b t
    split <;> simp [h]
theorem execReorderRelease_part {p : Part} (h : p ≠ .pool) (i : Fin 8) (s : State) : (execReorderRelease i s).KeepsPart p s := by
  unfold execReorderRelease
  rw [Out.keepsPart_next]
  split
  · rfl
  · dsimp only
    simp [↓State.stores_ite, ↓State.setAlign_stores, ↓State.setLfr_stores, ↓State.count_stores, ↓State.memRead_stores,
      ↓State.withPool_part, h]
@[simp] theorem execBlockSyncTrial_stores (i : Fin 8) (s : State) : (execBlockSyncTrial i s).Keeps s := by
  simp [execBlockSyncTrial]
@[simp] theorem State.syncLost_stores (s : State) (i : Nat) : (s.syncLost i).stores = s.stores := by simp [State.syncLost]
@[simp] theorem execOuterGroupDecode_stores (i : Fin 8) (s : State) : (execOuterGroupDecode i s).Keeps s := by
  unfold execOuterGroupDecode
  dsimp only
  split <;> simp [↓State.stores_mk]
@[simp] theorem State.lowMargin_stores (s : State) (i : Nat) (m : Int) : (s.lowMargin i m).stores = s.stores := by rfl
theorem execMarginInterval_part {p : Part} (h : p ≠ .pool) (i : Fin 8) (s : State) : (execMarginInterval i s).KeepsPart p s := by
  dsimp only [execMarginInterval]
  simp [↓Out.keepsPart_next, ↓State.stores_ite, ↓State.lowMargin_stores, ↓State.wr_stores, ↓State.withPool_part, h]

/-! ### Tendril -/

@[simp] theorem State.tdlQueue_stores (s : State) (i typ : Nat) (body : List Nat) :
    (s.tdlQueue i typ body).stores = s.stores := by
  simp [State.tdlQueue]
@[simp] theorem execTendrilPacketStart_stores (i : Fin 8) (s : State) : (execTendrilPacketStart i s).Keeps s := by
  unfold execTendrilPacketStart
  dsimp only
  split <;> simp
@[simp] theorem execHelloInterval_stores (i : Fin 8) (s : State) : (execHelloInterval i s).Keeps s := by simp [execHelloInterval]
@[simp] theorem State.reportOne_stores (s : State) (i sf : Nat) (t : TdlDecision) : (s.reportOne i sf t).stores = s.stores := by
  simp [State.reportOne]
@[simp] theorem State.report_stores (s : State) (i : Nat) (decided : List TdlDecision) :
    (s.report i decided).stores = s.stores := by
  unfold State.report
  split <;> simp
@[simp] theorem State.startReception_stores (s : State) (i : Nat) (d : TdlDetect) : (s.startReception i d).stores = s.stores := by
  simp [State.startReception]
@[simp] theorem State.detect_stores (s : State) (i : Nat) (d : TdlDetect) : (s.detect i d).stores = s.stores := by
  unfold State.detect
  split <;> simp
@[simp] theorem execTendrilDetection_stores (i : Fin 8) (cands : List TdlDetect) (s : State) :
    (execTendrilDetection i cands s).Keeps s := by
  unfold execTendrilDetection
  dsimp only
  repeat' split
  all_goals simp
@[simp] theorem State.endReception_stores (s : State) (i : Nat) : (s.endReception i).stores = s.stores := by
  simp [State.endReception]
@[simp] theorem State.badHeader_stores (s : State) (i : Nat) : (s.badHeader i).stores = s.stores := by simp [State.badHeader]
@[simp] theorem State.takeHeader_stores (s : State) (i : Nat) (r : TdlRx) : (s.takeHeader i r).stores = s.stores := by
  unfold State.takeHeader
  split <;> simp
@[simp] theorem execTendrilHeaderDecode_stores (i : Fin 8) (decided : List TdlDecision) (s : State) :
    (execTendrilHeaderDecode i decided s).Keeps s := by
  unfold execTendrilHeaderDecode
  dsimp only
  split <;> simp
@[simp] theorem State.goodPacket_stores (s : State) (i : Nat) (h : List Bool) (payload : List Nat) :
    (s.goodPacket i h payload).stores = s.stores := by
  simp [State.goodPacket]
@[simp] theorem State.takeBody_stores (s : State) (i : Nat) (h got : List Bool) : (s.takeBody i h got).stores = s.stores := by
  simp [State.takeBody]
@[simp] theorem execTendrilReceptionEnd_stores (i : Fin 8) (decided : List TdlDecision) (s : State) :
    (execTendrilReceptionEnd i decided s).Keeps s := by
  unfold execTendrilReceptionEnd
  dsimp only
  repeat' split
  all_goals simp
@[simp] theorem State.tdlPop_stores (s : State) (i : Nat) : (s.tdlPop i).stores = s.stores := by simp [State.tdlPop]
@[simp] theorem execHello_stores (i : Fin 8) (s : State) : (execHello i s).Keeps s := by
  unfold execHello
  split <;> simp
@[simp] theorem execSwitch_stores (i : Fin 8) (s : State) : (execSwitch i s).Keeps s := by
  unfold execSwitch
  split <;> simp
@[simp] theorem execMailboxGo_stores (i : Fin 8) (s : State) : (execMailboxGo i s).Keeps s := by simp [execMailboxGo]
@[simp] theorem execMailboxRelease_stores (i : Fin 8) (s : State) : (execMailboxRelease i s).Keeps s := by
  simp [execMailboxRelease]
@[simp] theorem execMailboxPacketRx_stores (i : Fin 8) (s : State) : (execMailboxPacketRx i s).Keeps s := by
  unfold execMailboxPacketRx
  split <;> simp

/-! ### Transmit -/

@[simp] theorem State.maskBin_stores (s : State) (i b : Nat) (level : Nat × Nat) : (s.maskBin i b level).stores = s.stores := by
  simp [State.maskBin]
@[simp] theorem State.maskFrame_stores (s : State) (i : Nat) (psd : List (Nat × Nat)) :
    (s.maskFrame i psd).stores = s.stores := by
  simp [State.maskFrame]
@[simp] theorem State.ampFrame_stores (s : State) (i : Nat) : (s.ampFrame i).stores = s.stores := by simp [State.ampFrame]
@[simp] theorem State.txCheck_stores (s : State) (i : Nat) : (s.txCheck i).stores = s.stores := by simp [State.txCheck]
@[simp] theorem State.txCommit_stores (s : State) (i : Nat) : (s.txCommit i).stores = s.stores := by simp [State.txCommit]
@[simp] theorem State.newStream_stores (s : State) (i : Nat) : (s.newStream i).stores = s.stores := by simp [State.newStream]
@[simp] theorem execRateMuteStart_stores (i : Fin 8) (s : State) : (execRateMuteStart i s).Keeps s := by
  unfold execRateMuteStart
  split <;> simp
@[simp] theorem execSynthRelock_stores (i : Fin 8) (s : State) : (execSynthRelock i s).Keeps s := by
  unfold execSynthRelock
  dsimp only
  split <;> simp

/-! ### Frame -/

@[simp] theorem State.txFrame_stores (s : State) (i : Nat) : (s.txFrame i).stores = s.stores := by simp [State.txFrame]
@[simp] theorem execBlockSyncLost_stores (i : Fin 8) (s : State) : (execBlockSyncLost i s).Keeps s := by simp [execBlockSyncLost]
@[simp] theorem State.fasSearch_stores (s : State) (i : Nat) : (s.fasSearch i).stores = s.stores := by
  unfold State.fasSearch
  dsimp only
  split <;> simp
@[simp] theorem State.frameIn_stores (s : State) (i : Nat) : (s.frameIn i).stores = s.stores := by simp [State.frameIn]
@[simp] theorem State.fasTest_stores (s : State) (i : Nat) (cand : Nat × Nat) : (s.fasTest i cand).stores = s.stores := by
  simp [State.fasTest]
@[simp] theorem execFasCandidateCheck_stores (i : Fin 8) (s : State) : (execFasCandidateCheck i s).Keeps s := by
  unfold execFasCandidateCheck
  rw [Out.keeps_next]
  repeat' split
  all_goals simp
@[simp] theorem State.frameDone_stores (s : State) (i : Nat) : (s.frameDone i).stores = s.stores := by simp [State.frameDone]
@[simp] theorem execOutOfFrame_stores (i : Fin 8) (s : State) : (execOutOfFrame i s).Keeps s := by simp [execOutOfFrame]
@[simp] theorem State.rxCount_stores (s : State) (i : Nat) : (s.rxCount i).stores = s.stores := by simp [State.rxCount]
@[simp] theorem State.multiOut_stores (s : State) (i : Nat) (mf : Nat × Nat) : (s.multiOut i mf).stores = s.stores := by
  simp [State.multiOut]
@[simp] theorem State.setSymbols_stores (s : State) (i : Nat) (mf : Nat × Nat) : (s.setSymbols i mf).stores = s.stores := by
  unfold State.setSymbols
  split <;> simp
@[simp] theorem execMultiframeAlign_stores (i : Fin 8) (s : State) : (execMultiframeAlign i s).Keeps s := by
  unfold execMultiframeAlign
  dsimp only
  repeat' split
  all_goals simp
@[simp] theorem execFalseLock_stores (i : Fin 8) (s : State) : (execFalseLock i s).Keeps s := by simp [execFalseLock]
@[simp] theorem execSfcAdopt_stores (i : Fin 8) (s : State) : (execSfcAdopt i s).Keeps s := by simp [execSfcAdopt]
@[simp] theorem execDelayBlockRx_stores (i : Fin 8) (rxRef : BitVec 32) (s : State) : (execDelayBlockRx i rxRef s).Keeps s := by
  simp [execDelayBlockRx]
@[simp] theorem execSsfHoldoffExpiry_stores (i : Fin 8) (s : State) : (execSsfHoldoffExpiry i s).Keeps s := by
  simp [execSsfHoldoffExpiry]

/-! ### Map -/

@[simp] theorem State.setMem_stores (s : State) (c i : Nat) (x : Mem) : (s.setMem c i x).stores = s.stores := by rfl
@[simp] theorem State.setChan_stores (s : State) (c : Nat) (x : Chan) : (s.setChan c x).stores = s.stores := by rfl
@[simp] theorem State.setCipCh_stores (s : State) (c : Nat) (x : CipCh) : (s.setCipCh c x).stores = s.stores := by rfl
@[simp] theorem State.reportDelay_stores (s : State) (c : Nat) : (s.reportDelay c).stores = s.stores := by
  simp [State.reportDelay]
@[simp] theorem State.declareSkew_stores (s : State) (c : Nat) (d : MemberDef) : (s.declareSkew c d).stores = s.stores := by
  simp [State.declareSkew]
@[simp] theorem State.placeMember_stores (s : State) (c : Nat) (d : MemberDef) : (s.placeMember c d).stores = s.stores := by
  simp [State.placeMember]
@[simp] theorem State.judgeSkew_stores (s : State) (c : Nat) : (s.judgeSkew c).stores = s.stores := by simp [State.judgeSkew]
@[simp] theorem State.adoptNumber_stores (s : State) (c : Nat) (d : MemberDef) (ctr : Nat) (arr : Int) :
    (s.adoptNumber c d ctr arr).stores = s.stores := by
  simp [State.adoptNumber]
@[simp] theorem execMemberNumberingAdopt_stores (c : Fin 512) (m : Fin 8) (arr : Int) (s : State) :
    (execMemberNumberingAdopt c m arr s).Keeps s := by
  unfold execMemberNumberingAdopt
  rw [Out.keeps_next]
  repeat' split
  all_goals simp
@[simp] theorem State.newRing_stores (s : State) (i k n : Nat) : (s.newRing i k n).1.stores = s.stores := by rfl
@[simp] theorem State.ringOf_stores (s : State) (i k n : Nat) : (s.ringOf i k n).1.stores = s.stores := by
  unfold State.ringOf
  dsimp only
  split <;> simp
@[simp] theorem State.writeSpill_stores (s : State) (i c : Nat) (m : Tab Nat) (ks : List Nat) (f : MemFrame) :
    (s.writeSpill i c m ks f).2.stores = s.stores := by
  unfold State.writeSpill
  split
  · dsimp only
    rw [State.celAsk_stores, State.writeRings_stores]
    refine List.foldlRecOn (motive := fun q : List Nat × State => q.2.stores = s.stores) _ _ rfl fun q hq k _ => ?_
    simpa using hq
  · rfl
@[simp] theorem State.storeMember_stores (s : State) (i c : Nat) (m : Tab Nat) (d : MemberDef) (ks : List Nat) :
    (s.storeMember i c m d ks).stores = s.stores := by
  unfold State.storeMember
  dsimp only
  repeat' split
  all_goals simp
@[simp] theorem State.storeFrame_stores (s : State) (i : Nat) : (s.storeFrame i).stores = s.stores := by
  unfold State.storeFrame
  refine forEach_stores (fun c t => ?_) _ _
  split <;> simp
@[simp] theorem State.memsLost_stores (s : State) (i : Nat) : (s.memsLost i).stores = s.stores := by
  unfold State.memsLost
  refine forEach_stores (fun c t => ?_) _ _
  split
  · dsimp only
    split <;> simp
  · rfl
@[simp] theorem State.coverAll_stores (s : State) (c : Nat) (ds kept : List MemberDef) :
    (s.coverAll c ds kept).stores = s.stores := by
  induction ds generalizing s kept with
  | nil => rfl
  | cons d ds ih =>
    unfold State.coverAll
    split <;> rw [ih] <;> simp
@[simp] theorem State.setCsf_stores (s : State) (c : Nat) (v : Bool) : (s.setCsf c v).stores = s.stores := by simp [State.setCsf]
@[simp] theorem State.measure_stores (s : State) (c : Nat) : (s.measure c).stores = s.stores := by simp [State.measure]
@[simp] theorem execMeasuringEnd_stores (c : Fin 512) (late : Bool) (s : State) : (execMeasuringEnd c late s).Keeps s := by
  simp [execMeasuringEnd]
@[simp] theorem execDcGrowthStep_stores (c : Fin 512) (s : State) : (execDcGrowthStep c s).Keeps s := by simp [execDcGrowthStep]
@[simp] theorem State.reportLegs_stores (s : State) (c : Nat) : (s.reportLegs c).stores = s.stores := by simp [State.reportLegs]
@[simp] theorem State.readMember_stores (s : State) (c : Nat) (d : MemberDef) (errs : List (Nat × Nat × Nat)) :
    (s.readMember c d errs).2.stores = s.stores := by
  unfold State.readMember
  dsimp only
  repeat' split
  all_goals simp
@[simp] theorem State.readMembers_stores (s : State) (c : Nat) (errs : List (Nat × Nat × Nat)) (ds : List MemberDef) :
    (s.readMembers c errs ds).2.stores = s.stores := by
  induction ds generalizing s with
  | nil => rfl
  | cons d ds ih => exact (ih _).trans (State.readMember_stores ..)
@[simp] theorem State.renumber_stores (s : State) (c : Nat) : (s.renumber c).stores = s.stores := by
  unfold State.renumber
  split <;> simp
@[simp] theorem State.outputFrame_stores (s : State) (c : Nat) (errs : List (Nat × Nat × Nat)) :
    (s.outputFrame c errs).2.stores = s.stores := by
  unfold State.outputFrame
  split <;> simp [↓State.stores_mk]
@[simp] theorem State.selectLeg_stores (s : State) (c : Nat) (b : Bool) : (s.selectLeg c b).stores = s.stores := by
  simp [State.selectLeg]
@[simp] theorem State.psMirror_stores (s : State) (was : List Nat) (c : Nat) : (s.psMirror was c).stores = s.stores := by
  simp [State.psMirror]
@[simp] theorem State.evalSelector_stores (s : State) (c : Nat) : (s.evalSelector c).stores = s.stores := by
  simp [State.evalSelector]
@[simp] theorem execSelectorEvaluation_stores (c : Fin 512) (s : State) : (execSelectorEvaluation c s).Keeps s := by
  simp [execSelectorEvaluation]
@[simp] theorem State.psCommand_stores (s : State) (c code : Nat) : (s.psCommand c code).stores = s.stores := by
  simp [State.psCommand]
@[simp] theorem State.psGo_stores (s : State) (c code : Nat) : (s.psGo c code).stores = s.stores := by simp [State.psGo]
@[simp] theorem execPsClear_stores (c : Fin 512) (s : State) : (execPsClear c s).Keeps s := by simp [execPsClear]
@[simp] theorem execPsLockout_stores (c : Fin 512) (s : State) : (execPsLockout c s).Keeps s := by simp [execPsLockout]
@[simp] theorem execPsForcedSwitch_stores (c : Fin 512) (s : State) : (execPsForcedSwitch c s).Keeps s := by
  simp [execPsForcedSwitch]
@[simp] theorem execPsManualA_stores (c : Fin 512) (s : State) : (execPsManualA c s).Keeps s := by simp [execPsManualA]
@[simp] theorem execPsManualB_stores (c : Fin 512) (s : State) : (execPsManualB c s).Keeps s := by simp [execPsManualB]
@[simp] theorem State.psMirrored_stores (s : State) (c code wtr : Nat) : (s.psMirrored c code wtr).stores = s.stores := by
  simp [State.psMirrored]
@[simp] theorem execRealign_stores (c : Fin 512) (s : State) : (execRealign c s).Keeps s := by simp [execRealign]
@[simp] theorem execWtrExpiry_stores (c : Fin 512) (s : State) : (execWtrExpiry c s).Keeps s := by simp [execWtrExpiry]
@[simp] theorem State.judgeRecord_stores (s : State) (c : Nat) (d : MemberDef) (r : ChanRecord) :
    (s.judgeRecord c d r).stores = s.stores := by
  simp [State.judgeRecord]
@[simp] theorem execMemberMismatch_stores (c : Fin 512) (m : Fin 8) (s : State) : (execMemberMismatch c m s).Keeps s := by
  unfold execMemberMismatch
  rw [Out.keeps_next]
  repeat' split
  all_goals simp
@[simp] theorem State.reportMembers_stores (s : State) (c : Nat) : (s.reportMembers c).stores = s.stores := by
  simp [State.reportMembers]
@[simp] theorem State.cipEpoch_stores (s : State) (c : Nat) : (s.cipEpoch c).stores = s.stores := by simp [State.cipEpoch]
@[simp] theorem State.mapChannel_stores (s : State) (old : Tab Nat) (img : RxImg) (c : Nat) :
    (s.mapChannel old img c).stores = s.stores := by
  simp [State.mapChannel]
@[simp] theorem State.turnChannel_stores (s : State) (c : Nat) : (s.turnChannel c).stores = s.stores := by
  simp [State.turnChannel]
@[simp] theorem State.rxFollow_stores (s : State) (img : RxImg) (i : Nat) : (s.rxFollow img i).stores = s.stores := by
  simp [State.rxFollow]
@[simp] theorem State.mapCommit_stores (s : State) (old : Tab Nat) (early : RxImg) :
    (s.mapCommit old early).stores = s.stores := by
  simp [State.mapCommit]
@[simp] theorem State.mapMeasureAll_stores (s : State) : s.mapMeasureAll.stores = s.stores := by simp [State.mapMeasureAll]

/-! ### Cipher -/

@[simp] theorem State.setSlot_part {p : Part} (h : p ≠ .slots) (s : State) (n : Nat) (x : Option KeySlot) :
    (s.setSlot n x).stores.get p = s.stores.get p := by
  cases p <;> first | rfl | contradiction
@[simp] theorem State.setCipTx_stores (s : State) (c : Nat) (x : CipTx) : (s.setCipTx c x).stores = s.stores := by rfl
@[simp] theorem State.setSvc_stores (s : State) (f : Nat) (x : Svc) : (s.setSvc f x).stores = s.stores := by rfl
@[simp] theorem State.keyRead_stores (s : State) (n : Nat) : (s.keyRead n).2.2.stores = s.stores := by
  unfold State.keyRead
  dsimp only
  split <;> simp
@[simp] theorem State.keyStatus_stores (s : State) (f code : Nat) : (s.keyStatus f code).stores = s.stores := by
  simp [State.keyStatus]
@[simp] theorem State.fillSlot_part {p : Part} (h : p ≠ .slots) (s : State) (n use f : Nat) (key : BitVec 256) :
    (s.fillSlot n use f key).stores.get p = s.stores.get p := by
  simp [State.fillSlot, h]
@[simp] theorem State.mirrorSlot_stores (s : State) (n : Nat) : (s.mirrorSlot n).stores = s.stores := by
  unfold State.mirrorSlot
  split <;> simp
@[simp] theorem State.clearSlot_part {p : Part} (h : p ≠ .slots) (s : State) (n : Nat) :
    (s.clearSlot n).stores.get p = s.stores.get p := by
  simp [State.clearSlot, h]
@[simp] theorem execKeyLoadSlot_part {p : Part} (h : p ≠ .slots) (f : Fin 16) (s : State) :
    (execKeyLoadSlot f s).KeepsPart p s := by
  unfold execKeyLoadSlot
  refine (Out.keepsPart_next ..).mpr (State.whenOpen_part ?_ _)
  dsimp only
  repeat' split
  all_goals simp [h]
@[simp] theorem execKeyEraseSlot_part {p : Part} (h : p ≠ .slots) (f : Fin 16) (s : State) :
    (execKeyEraseSlot f s).KeepsPart p s := by
  simp [execKeyEraseSlot, h]
@[simp] theorem State.setKek_part {p : Part} (h : p ≠ .keks) (s : State) (g : Nat) (k : Option (BitVec 256)) :
    (s.setKek g k).stores.get p = s.stores.get p := by
  cases p <;> first | rfl | contradiction
@[simp] theorem execKekLoad_part {p : Part} (h : p ≠ .keks) (f : Fin 16) (s : State) : (execKekLoad f s).KeepsPart p s := by
  unfold execKekLoad
  refine (Out.keepsPart_next ..).mpr (State.whenOpen_part ?_ _)
  dsimp only
  repeat' split
  all_goals simp [h]
@[simp] theorem execKekErase_part {p : Part} (h : p ≠ .keks) (f : Fin 16) (s : State) : (execKekErase f s).KeepsPart p s := by
  simp [execKekErase, h]
@[simp] theorem State.setMfc_stores (s : State) (c d n : Nat) : (s.setMfc c d n).stores = s.stores := by simp [State.setMfc]
@[simp] theorem State.cipMultiframe_stores (s : State) : s.cipMultiframe.stores = s.stores := by simp [State.cipMultiframe]
@[simp] theorem State.mirrorGrids_stores (s : State) : s.mirrorGrids.stores = s.stores := by simp [State.mirrorGrids]
@[simp] theorem State.cipTakeover_stores (s : State) : s.cipTakeover.stores = s.stores := by simp [State.cipTakeover]
@[simp] theorem State.setAuth_stores (s : State) (c : Nat) (v : Bool) : (s.setAuth c v).stores = s.stores := by
  simp [State.setAuth]
@[simp] theorem State.authFails_stores (s : State) (c : Nat) : (s.authFails c).stores = s.stores := by simp [State.authFails]
@[simp] theorem State.authOk_stores (s : State) (c ctr : Nat) : (s.authOk c ctr).stores = s.stores := by simp [State.authOk]
@[simp] theorem State.rxBegin_stores (s : State) (c n : Nat) : (s.rxBegin c n).2.stores = s.stores := by simp [State.rxBegin]
@[simp] theorem State.cipFrame_stores (s : State) (c : Nat) (f : OutFrame) (csf : Bool) :
    (s.cipFrame c f csf).stores = s.stores := by
  unfold State.cipFrame
  dsimp only
  split <;> simp
@[simp] theorem State.judgeMessage_stores (s : State) (c n : Nat) (r : ChanRecord) :
    (s.judgeMessage c n r).stores = s.stores := by
  simp [State.judgeMessage]
@[simp] theorem execChannelMessageVerify_stores (c : Fin 512) (s : State) : (execChannelMessageVerify c s).Keeps s := by
  unfold execChannelMessageVerify
  dsimp only
  repeat' split
  all_goals simp
@[simp] theorem State.askSvc_stores (s : State) (f : Nat) : (s.askSvc f).stores = s.stores := by
  unfold State.askSvc
  dsimp only
  repeat' split
  all_goals rfl
@[simp] theorem execMsgQueueGo_stores (f : Fin 16) (s : State) : (execMsgQueueGo f s).Keeps s := by simp [execMsgQueueGo]
@[simp] theorem State.svcStart_part {p : Part} (h : p ≠ .slots) (s : State) (f : Nat) (d : List Nat) :
    (s.svcStart f d).2.stores.get p = s.stores.get p := by
  unfold State.svcStart
  dsimp only
  repeat' split
  all_goals simp [h]
@[simp] theorem State.svcBlock_part {p : Part} (h : p ≠ .hostMem) (s : State) (f : Nat) (d : List Nat) (r : SvcRun) (x
    : BitVec 128) :
    (s.svcBlock f d r x).2.stores.get p = s.stores.get p := by
  unfold State.svcBlock
  dsimp only
  split
  · rfl
  · exact State.withHif_part h ..
@[simp] theorem State.svcBlocks_part {p : Part} (h : p ≠ .hostMem) (s : State) (f : Nat) (d : List Nat) (r : SvcRun) (k : Nat) :
    (s.svcBlocks f d r k).2.stores.get p = s.stores.get p := by
  induction k generalizing s r with
  | zero => rfl
  | succ k ih => exact (ih _ _).trans (State.svcBlock_part h ..)
theorem execMsgServiceGrant_part {p : Part} (hm : p ≠ .hostMem) (hs : p ≠ .slots) (host : List (BitVec 58 × BitVec 32))
    (err : Bool)
    (s : State) : (execMsgServiceGrant host err s).KeepsPart p s := by
  unfold execMsgServiceGrant
  rw [Out.keepsPart_next]
  split
  · rfl
  · extract_lets +lift s1 f s2 x
    have h2 : s2.stores.get p = s.stores.get p := State.withHif_part hm ..
    clear_value s2
    split
    · exact h2
    · next d _ _ =>
      rw [← h2]
      split
      · simp only [apply_ite Prod.snd]
        repeat' split
        all_goals simp [hm]
      · rw [← State.svcStart_part hs s2 f d]
        simp only [apply_ite Prod.snd]
        repeat' split
        all_goals simp [hm]
@[simp] theorem execMsgServiceEnd_stores (f : Fin 16) (err : Bool) (s : State) : (execMsgServiceEnd f err s).Keeps s := by
  unfold execMsgServiceEnd
  dsimp only
  split <;> simp
@[simp] theorem State.cipFlr_part {p : Part} (h : p ≠ .slots) (s : State) (f : Nat) :
    (s.cipFlr f).stores.get p = s.stores.get p := by
  dsimp only [State.cipFlr]
  simp [↓State.wr_stores, ↓State.setSvc_stores, ↓State.stores_mk, h]
@[simp] theorem State.cipCommit_stores (s : State) : s.cipCommit.stores = s.stores := by simp [State.cipCommit]

/-! ### Gfp -/

@[simp] theorem State.setGfp_part {p : Part} (h : p ≠ .gfp) (s : State) (c : Nat) (x : Gfp) :
    (s.setGfp c x).stores.get p = s.stores.get p := by
  cases p <;> first | rfl | contradiction
@[simp] theorem State.gfpSend_part {p : Part} (h : p ≠ .gfp) (s : State) (c pti upi : Nat) (payload : List Nat) :
    (s.gfpSend c pti upi payload).stores.get p = s.stores.get p := State.setGfp_part h ..
@[simp] theorem State.gfpTake_part {p : Part} (h : p ≠ .gfp) (s : State) (c n : Nat) :
    (s.gfpTake c n).2.stores.get p = s.stores.get p := State.setGfp_part h ..
@[simp] theorem State.gfpRx_part {p : Part} (h : p ≠ .gfp) (s : State) (c : Nat) (bytes : List Nat) :
    (s.gfpRx c bytes).2.stores.get p = s.stores.get p := State.setGfp_part h ..
@[simp] theorem State.gfpHunt_part {p : Part} (h : p ≠ .gfp) (s : State) (c : Nat) :
    (s.gfpHunt c).stores.get p = s.stores.get p := State.setGfp_part h ..

/-! ### Clients -/

@[simp] theorem State.setClient_stores (s : State) (k : Nat) (x : Client) : (s.setClient k x).stores = s.stores := by rfl
@[simp] theorem State.setLane_stores (s : State) (l : Nat) (x : Lane) : (s.setLane l x).stores = s.stores := by rfl
@[simp] theorem State.codewordsIn_stores (s : State) (p corr unc : Nat) : (s.codewordsIn p corr unc).stores = s.stores := by
  simp [State.codewordsIn]
@[simp] theorem State.frameIn1_part {p : Part} (h : p ≠ .gfp) (s : State) (k : Nat) (f : List Nat) (err : Bool) :
    (s.frameIn1 k f err).stores.get p = s.stores.get p := by
  unfold State.frameIn1
  dsimp only
  repeat' split
  all_goals simp [h]
theorem execClientFrameRx_part {p : Part} (h : p ≠ .gfp) (k : Fin 576) (frame : List Byte) (err : Bool) (fecCorr fecUnc : Nat)
    (s : State) : (execClientFrameRx k frame err fecCorr fecUnc s).KeepsPart p s := by
  simp [execClientFrameRx, h]
@[simp] theorem State.gfpFrame_stores (s : State) (k : Nat) (f : Nat × Nat × List Nat) : (s.gfpFrame k f).stores = s.stores := by
  simp [State.gfpFrame]
@[simp] theorem State.cliFrame_part {p : Part} (h : p ≠ .gfp) (s : State) (c : Nat) (plain : List Bool) (csf : Bool) :
    (s.cliFrame c plain csf).stores.get p = s.stores.get p := by
  unfold State.cliFrame
  split
  · simp [h]
  · dsimp only
    split <;> simp [h]
@[simp] theorem State.sendFrameOut_stores (s : State) (k upi : Nat) (bs : List Nat) :
    (s.sendFrameOut k upi bs).stores = s.stores := by
  unfold State.sendFrameOut
  dsimp only
  split <;> simp
@[simp] theorem execClientFrameEgress_stores (k : Fin 576) (s : State) : (execClientFrameEgress k s).Keeps s := by
  unfold execClientFrameEgress
  rw [Out.keeps_next]
  repeat' split
  all_goals simp
theorem execClientMgmtPeriod_part {p : Part} (h : p ≠ .gfp) (k : Fin 576) (s : State) :
    (execClientMgmtPeriod k s).KeepsPart p s := by
  simp [execClientMgmtPeriod, h]
@[simp] theorem execClientIndicationExpiry_stores (k : Fin 576) (upi : BitVec 8) (s : State) :
    (execClientIndicationExpiry k upi s).Keeps s := by
  simp [execClientIndicationExpiry]
@[simp] theorem State.endFrames_stores (s : State) (k : Nat) (e : Egress) : (s.endFrames k e).stores = s.stores := by
  simp [State.endFrames]
@[simp] theorem execEgressReplacement_stores (k : Fin 576) (s : State) : (execEgressReplacement k s).Keeps s := by
  simp [execEgressReplacement]
@[simp] theorem State.calendarCommit_part {p : Part} (h : p ≠ .calendars) (s : State) (old : Tab Nat) (g : Nat) :
    (s.calendarCommit old g).stores.get p = s.stores.get p := by
  unfold State.calendarCommit
  split
  · rfl
  · cases p <;> first | rfl | contradiction
@[simp] theorem State.fxOverhead_stores (s : State) (g : Nat) (ohLock mismatch : Bool) :
    (s.fxOverhead g ohLock mismatch).stores = s.stores := by
  simp [State.fxOverhead]
@[simp] theorem execCalendarSwitch_stores (g : Fin 16) (tx rx ohLock mismatch : Bool) (s : State) :
    (execCalendarSwitch g tx rx ohLock mismatch s).Keeps s := by
  simp [execCalendarSwitch]
@[simp] theorem State.laneAsk_stores (s : State) (l want : Nat) : (s.laneAsk l want).stores = s.stores := by simp [State.laneAsk]
@[simp] theorem State.unlockPort_stores (s : State) (p : Nat) : (s.unlockPort p).stores = s.stores := by simp [State.unlockPort]
@[simp] theorem State.lanesAsk_stores (s : State) : s.lanesAsk.stores = s.stores := by simp [State.lanesAsk]
@[simp] theorem execLaneDeepExit_stores (l : Fin 64) (s : State) : (execLaneDeepExit l s).Keeps s := by
  unfold execLaneDeepExit
  dsimp only
  repeat' split
  all_goals simp
@[simp] theorem State.idleClients_stores (s : State) : s.idleClients.stores = s.stores := by simp [State.idleClients]
@[simp] theorem State.clientGone_part {p : Part} (h : p ≠ .gfp) (s : State) (k c : Nat) :
    (s.clientGone k c).stores.get p = s.stores.get p := by
  simp [State.clientGone, h]
@[simp] theorem State.cliCommit_part {p : Part} (hg : p ≠ .gfp) (hc : p ≠ .calendars) (s : State) (old : Tab Nat) :
    (s.cliCommit old).stores.get p = s.stores.get p := by
  simp [State.cliCommit, hg, hc]

/-! ### Cellar -/

@[simp] theorem State.celFinish_stores (s : State) (k : Nat) : (s.celFinish k).stores = s.stores := by
  unfold State.celFinish
  dsimp only
  rfl
@[simp] theorem State.archiveWrite_stores (s : State) (a : Nat) (bytes : List Nat) :
    (s.archiveWrite a bytes).stores = s.stores := by
  simp [State.archiveWrite]
@[simp] theorem State.archivePut_stores (s : State) (a : Nat) (bytes : List Nat) : (s.archivePut a bytes).stores = s.stores := by
  simp [State.archivePut, ↓State.stores_mk]
@[simp] theorem State.archiveResume_stores (s : State) : s.archiveResume.stores = s.stores := by
  simp [State.archiveResume, ↓State.stores_mk]
@[simp] theorem State.archiveRecord_stores (s : State) (ws : List Word) : (s.archiveRecord ws).stores = s.stores := by
  simp [State.archiveRecord, ↓State.stores_mk]
@[simp] theorem State.celLimits_stores (s : State) : s.celLimits.stores = s.stores := by simp [State.celLimits]
@[simp] theorem State.celDown_stores (s : State) : s.celDown.stores = s.stores := by simp [State.celDown, ↓State.stores_mk]
@[simp] theorem State.celSleep_stores (s : State) : s.celSleep.stores = s.stores := by simp [State.celSleep, ↓State.stores_mk]
@[simp] theorem State.celTrain_stores (s : State) : s.celTrain.stores = s.stores := by simp [State.celTrain, ↓State.stores_mk]
@[simp] theorem execCellarTrain_stores (s : State) : (execCellarTrain s).Keeps s := by simp [execCellarTrain]
@[simp] theorem execCellarRetrain_stores (s : State) : (execCellarRetrain s).Keeps s := by simp [execCellarRetrain]
@[simp] theorem State.accGo_stores {s : State} {eff : State → State} (h : (eff s).stores = s.stores) (no : Bool) :
    (s.accGo no eff).stores = s.stores := by
  simp [State.accGo, h]
@[simp] theorem execAccRead_stores (errs : List (Fin 68 × BitVec 8)) (s : State) : (execAccRead errs s).Keeps s := by
  unfold execAccRead
  rw [Out.keeps_next]
  exact State.whenOpen_stores (State.accGo_stores (by simp) _) _
@[simp] theorem execAccWrite_stores (s : State) : (execAccWrite s).Keeps s := by simp [execAccWrite]
@[simp] theorem execAccRawWrite_stores (s : State) : (execAccRawWrite s).Keeps s := by simp [execAccRawWrite]
@[simp] theorem execAccDone_stores (s : State) : (execAccDone s).Keeps s := by simp [execAccDone]
@[simp] theorem execCaptureSegmentDrained_stores (codes : List AdcSample) (s : State) :
    (execCaptureSegmentDrained codes s).Keeps s := by
  unfold execCaptureSegmentDrained
  dsimp only
  repeat' split
  all_goals simp
@[simp] theorem execTouchGo_stores (errs : List (BitVec 29 × Fin 68 × BitVec 8)) (s : State) : (execTouchGo errs s).Keeps s := by
  simp [execTouchGo]
@[simp] theorem execCelTouchDone_stores (s : State) : (execCelTouchDone s).Keeps s := by simp [execCelTouchDone]
@[simp] theorem execPprGo_stores (resource : Bool) (s : State) : (execPprGo resource s).Keeps s := by simp [execPprGo]
@[simp] theorem State.deliverFrame_part {p : Part} (h : p ≠ .gfp) (s : State) (c : Nat) (f : OutFrame) :
    (s.deliverFrame c f).stores.get p = s.stores.get p := by
  simp [State.deliverFrame, h]
theorem execOutputFrameRead_part {p : Part} (h : p ≠ .gfp) (c : Fin 512) (errs : List (BitVec 29 × Fin 68 × BitVec 8)) (s
    : State) :
    (execOutputFrameRead c errs s).KeepsPart p s := by
  have hr := State.outputFrame_stores ((s.renumber c).turnChannel c) c (readErrs errs)
  unfold execOutputFrameRead
  rw [Out.keepsPart_next]
  dsimp only
  split <;> next h' => rw [h'] at hr; simp [hr, h]
@[simp] theorem execMemInjArm_stores (s : State) : (execMemInjArm s).Keeps s := by simp [execMemInjArm, ↓State.stores_mk]
@[simp] theorem State.celCommit_stores (s : State) (old : Tab Nat) : (s.celCommit old).stores = s.stores := by
  unfold State.celCommit
  dsimp only
  repeat' split
  all_goals rfl

/-! ### Slices -/

@[simp] theorem State.startWake_stores (s : State) (i : Nat) : (s.startWake i).stores = s.stores := by simp [State.startWake]
@[simp] theorem State.wakeIfEnabled_stores (s : State) (i : Nat) : (s.wakeIfEnabled i).stores = s.stores := by
  simp [State.wakeIfEnabled]
@[simp] theorem State.tdlStop_stores (s : State) (i : Nat) : (s.tdlStop i).stores = s.stores := by simp [State.tdlStop]
@[simp] theorem State.noDefects_stores (s : State) (i : Nat) : (s.noDefects i).stores = s.stores := by simp [State.noDefects]
@[simp] theorem State.leaveLit_stores (s : State) (i : Nat) : (s.leaveLit i).stores = s.stores := by simp [State.leaveLit]
@[simp] theorem State.roleUpdate_stores (s : State) : s.roleUpdate.stores = s.stores := by simp [State.roleUpdate]
@[simp] theorem State.drainOne_stores (s : State) (i : Nat) (short : Bool) : (s.drainOne i short).stores = s.stores := by
  simp [State.drainOne, ↓State.stores_mk]
@[simp] theorem State.loseSource_stores (s : State) : s.loseSource.stores = s.stores := by simp [State.loseSource]
@[simp] theorem State.sourceGone_stores (s : State) : s.sourceGone.stores = s.stores := by simp [State.sourceGone]
@[simp] theorem State.startDrain_stores (s : State) (i : Nat) (short : Bool) : (s.startDrain i short).stores = s.stores := by
  simp [State.startDrain]
@[simp] theorem State.drain_stores (s : State) (i : Nat) : (s.drain i).stores = s.stores := by simp [State.drain]
@[simp] theorem State.drainAll_stores (s : State) : s.drainAll.stores = s.stores := by simp [State.drainAll]
@[simp] theorem State.applyEnable_stores (s : State) (old : Tab Nat) (i : Nat) : (s.applyEnable old i).stores = s.stores := by
  simp [State.applyEnable]
@[simp] theorem State.applyEnables_stores (s : State) (old : Tab Nat) : (s.applyEnables old).stores = s.stores := by
  simp [State.applyEnables]
@[simp] theorem State.wakeAll_stores (s : State) : s.wakeAll.stores = s.stores := by simp [State.wakeAll]
@[simp] theorem execSliceEnableHeldWake_stores (i : Fin 8) (s : State) : (execSliceEnableHeldWake i s).Keeps s := by
  simp [execSliceEnableHeldWake]
@[simp] theorem State.replaceSpare_stores (s : State) (i : Nat) (stats : List (List CodeStats)) (a : Nat) :
    (s.replaceSpare i stats a).stores = s.stores := by
  unfold State.replaceSpare
  split <;> simp
@[simp] theorem State.becomeLit_stores (s : State) (i : Nat) : (s.becomeLit i).stores = s.stores := by simp [State.becomeLit]
@[simp] theorem execWakingComplete_stores (i : Fin 8) (done : WakeStep) (s : State) : (execWakingComplete i done s).Keeps s := by
  unfold execWakingComplete
  dsimp only
  repeat' split
  all_goals simp
@[simp] theorem execWakeTimeout_stores (i : Fin 8) (s : State) : (execWakeTimeout i s).Keeps s := by simp [execWakeTimeout]
@[simp] theorem execDrainComplete_stores (i : Fin 8) (us : BitVec 16) (s : State) : (execDrainComplete i us s).Keeps s := by
  simp [execDrainComplete, ↓State.stores_mk]
@[simp] theorem State.refLanes_stores (s : State) : s.refLanes.stores = s.stores := by simp [State.refLanes]
@[simp] theorem execHostSideConditionChange_stores (p : Fin 64) (h : HostSide) (s : State) :
    (execHostSideConditionChange p h s).Keeps s := by
  simp [execHostSideConditionChange]

/-! ### Acquire -/

@[simp] theorem execAcqSignalDetect_stores (i : Fin 8) (s : State) : (execAcqSignalDetect i s).Keeps s := by
  simp [execAcqSignalDetect]
@[simp] theorem execCdScanEnd_stores (i : Fin 8) (coarse fine : List Nat) (peak : Int) (s : State) :
    (execCdScanEnd i coarse fine peak s).Keeps s := by
  simp [execCdScanEnd]
@[simp] theorem execClockLock_stores (i : Fin 8) (off : Int) (s : State) : (execClockLock i off s).Keeps s := by
  simp [execClockLock]
@[simp] theorem execSingularityCheck_stores (i : Fin 8) (corrMilli : Nat) (s : State) :
    (execSingularityCheck i corrMilli s).Keeps s := by
  simp [execSingularityCheck]
@[simp] theorem execBlindConverged_stores (i : Fin 8) (dgd : Nat) (cd : Int) (s : State) :
    (execBlindConverged i dgd cd s).Keeps s := by
  simp [execBlindConverged]
@[simp] theorem execPilotSyncFound_stores (i : Fin 8) (samples : List AdcSample) (s : State) :
    (execPilotSyncFound i samples s).Keeps s := by
  unfold execPilotSyncFound
  dsimp only
  repeat' split
  all_goals simp
@[simp] theorem execCarrierLock_stores (i : Fin 8) (s : State) : (execCarrierLock i s).Keeps s := by simp [execCarrierLock]
@[simp] theorem execAcqStateLimit_stores (i : Fin 8) (s : State) : (execAcqStateLimit i s).Keeps s := by simp [execAcqStateLimit]
@[simp] theorem execInputLoss_stores (i : Fin 8) (s : State) : (execInputLoss i s).Keeps s := by simp [execInputLoss]
@[simp] theorem execInputReturn_stores (i : Fin 8) (s : State) : (execInputReturn i s).Keeps s := by simp [execInputReturn]
@[simp] theorem execHoldExpiry_stores (i : Fin 8) (s : State) : (execHoldExpiry i s).Keeps s := by simp [execHoldExpiry]
@[simp] theorem execTrackSnrLoss_stores (i : Fin 8) (s : State) : (execTrackSnrLoss i s).Keeps s := by simp [execTrackSnrLoss]
@[simp] theorem execAcqRestart_stores (i : Fin 8) (s : State) : (execAcqRestart i s).Keeps s := by simp [execAcqRestart]
@[simp] theorem execCycleSlip_stores (i : Fin 8) (y : Bool) (err : Int) (s : State) : (execCycleSlip i y err s).Keeps s := by
  simp [execCycleSlip]

/-! ### Links -/

@[simp] theorem State.sendIdent_stores (s : State) (p : Nat) : (s.sendIdent p).stores = s.stores := by simp [State.sendIdent]

/-! ### VintageOps -/

@[simp] theorem State.toVt_stores (s : State) (n : Nat) : (s.toVt n).stores = s.stores := by simp [State.toVt]
@[simp] theorem State.mirrorArchive_stores (s : State) : s.mirrorArchive.stores = s.stores := by simp [State.mirrorArchive]
@[simp] theorem State.archiveImage_stores (s : State) (serial : Nat) (failed : Bool) (m : Tab Nat) :
    (s.archiveImage serial failed m).stores = s.stores := by
  simp [State.archiveImage, ↓State.stores_mk]
@[simp] theorem State.mirrorImage_stores (s : State) (which serial : Nat) (m : Tab Nat) :
    (s.mirrorImage which serial m).stores = s.stores := by
  unfold State.mirrorImage
  dsimp only
  split <;> simp
@[simp] theorem State.rxReverts_stores (s : State) (i : Nat) : (s.rxReverts i).stores = s.stores := by simp [State.rxReverts]
@[simp] theorem State.dropAgreement_stores (s : State) (i : Nat) : (s.dropAgreement i).stores = s.stores := by
  simp [State.dropAgreement]
@[simp] theorem State.sendCancel_stores (s : State) (i : Nat) : (s.sendCancel i).stores = s.stores := by simp [State.sendCancel]
@[simp] theorem State.failCommit_stores (s : State) (code : Nat) : (s.failCommit code).stores = s.stores := by
  unfold State.failCommit
  split <;> simp [↓State.stores_mk]
@[simp] theorem State.mirrorCommit_stores (s : State) : s.mirrorCommit.stores = s.stores := by
  unfold State.mirrorCommit
  split <;> simp
@[simp] theorem State.arm_stores (s : State) : s.arm.stores = s.stores := by
  unfold State.arm
  split <;> simp [↓State.stores_mk]
@[simp] theorem State.holdOrArm_stores (s : State) : s.holdOrArm.stores = s.stores := by simp [State.holdOrArm]
@[simp] theorem State.sendRefuse_stores (s : State) (i id reason : Nat) : (s.sendRefuse i id reason).stores = s.stores := by
  simp [State.sendRefuse]
@[simp] theorem State.dropHeld_stores (s : State) (i : Nat) : (s.dropHeld i).stores = s.stores := by simp [State.dropHeld]
@[simp] theorem State.answer_stores (s : State) (i id farB summary : Nat) : (s.answer i id farB summary).stores = s.stores := by
  simp [State.answer]
@[simp] theorem State.noteAgreed_stores (s : State) (i : Nat) : (s.noteAgreed i).stores = s.stores := by
  unfold State.noteAgreed
  dsimp only
  split <;> simp
@[simp] theorem State.checkAgreed_stores (s : State) (i : Nat) : (s.checkAgreed i).stores = s.stores := by
  unfold State.checkAgreed
  dsimp only
  split <;> simp
@[simp] theorem State.sendPropose_stores (s : State) (i : Nat) : (s.sendPropose i).stores = s.stores := by
  simp [State.sendPropose]
@[simp] theorem State.proposeOn_stores (s : State) (m : Tab Nat) (d i : Nat) : (s.proposeOn m d i).stores = s.stores := by
  unfold State.proposeOn
  dsimp only
  repeat' split
  all_goals simp
@[simp] theorem State.negotiate_stores (s : State) (c : Commit) (ahead : Nat) : (s.negotiate c ahead).stores = s.stores := by
  simp [State.negotiate, ↓State.stores_mk]
@[simp] theorem State.acceptCommit_stores (s : State) (bd : Nat) (target : BitVec 32) :
    (s.acceptCommit bd target).stores = s.stores := by
  simp [State.acceptCommit, ↓State.stores_mk]
@[simp] theorem State.announceReturn_stores (s : State) (i : Nat) : (s.announceReturn i).stores = s.stores := by
  unfold State.announceReturn
  dsimp only
  split <;> simp
@[simp] theorem State.startReturn_stores (s : State) (cause : Nat) : (s.startReturn cause).stores = s.stores := by
  simp [State.startReturn, ↓State.stores_mk]
@[simp] theorem State.failProbation_stores (s : State) (cause : Nat) : (s.failProbation cause).stores = s.stores := by
  simp [State.failProbation]

/-! ### Vintage -/

@[simp] theorem State.txSwitch_stores (s : State) (old : Tab Nat) (restart : Bool) (i : Nat) :
    (s.txSwitch old restart i).stores = s.stores := by
  simp [State.txSwitch]
@[simp] theorem State.rxLocal_stores (s : State) (old : Tab Nat) (restart : Bool) (at' : Option Nat) (i : Nat) :
    (s.rxLocal old restart at' i).stores = s.stores := by
  unfold State.rxLocal
  split <;> simp
@[simp] theorem State.calCommit_stores (s : State) (old : Tab Nat) (i : Nat) : (s.calCommit old i).stores = s.stores := by
  simp [State.calCommit]
@[simp] theorem State.pryCommit_stores (s : State) (old : Tab Nat) : (s.pryCommit old).stores = s.stores := by
  simp [State.pryCommit]
@[simp] theorem State.vddCommit_stores (s : State) (old : Tab Nat) : (s.vddCommit old).stores = s.stores := by
  unfold State.vddCommit
  dsimp only
  repeat' split
  all_goals rfl
@[simp] theorem State.switchBlocks_part {p : Part} (hg : p ≠ .gfp) (hc : p ≠ .calendars) (s : State) (old : Tab Nat) (early
    : RxImg)
    (restart : Nat → Bool) (at' : Nat → Option Nat) : (s.switchBlocks old early restart at').stores.get p = s.stores.get p := by
  simp [State.switchBlocks, hg, hc]
@[simp] theorem State.agreementTaken_stores (s : State) (c : Commit) (i : Nat) : (s.agreementTaken c i).stores = s.stores := by
  simp [State.agreementTaken]
@[simp] theorem State.takeEffect_part {p : Part} (hg : p ≠ .gfp) (hc : p ≠ .calendars) (s : State) (c : Commit) :
    (s.takeEffect c).stores.get p = s.stores.get p := by
  dsimp only [State.takeEffect]
  simp [↓State.switchBlocks_part, ↓State.startReturn_stores, ↓State.raise_stores, ↓State.mirror_stores, ↓State.toVt_stores,
    ↓State.wr_stores, ↓State.stores_ite, ↓State.stores_mk, hg, hc]
theorem execCommitTakeEffect_part {p : Part} (hg : p ≠ .gfp) (hc : p ≠ .calendars) (bnd : Fin 4) (s : State) :
    (execCommitTakeEffect bnd s).KeepsPart p s := by
  unfold execCommitTakeEffect
  split <;> simp [hg, hc]
@[simp] theorem execValidationDone_stores (s : State) : (execValidationDone s).Keeps s := by
  unfold execValidationDone
  split <;> simp
@[simp] theorem execLoadingDone_stores (memErr : Bool) (ahead : Nat) (s : State) : (execLoadingDone memErr ahead s).Keeps s := by
  unfold execLoadingDone
  split <;> simp
@[simp] theorem execDomainReleaseDeadline_stores (s : State) : (execDomainReleaseDeadline s).Keeps s := by
  unfold execDomainReleaseDeadline
  split <;> simp
theorem State.stage_stores {s t : State} {a data mask : Nat} (h : s.stage a data mask = some t) : t.stores = s.stores := by
  unfold State.stage at h
  split at h
  · cases h
    simp [↓State.stores_mk]
  · cases h
@[simp] theorem State.stageGo_stores (s : State) : s.stageGo.stores = s.stores := by
  unfold State.stageGo
  split
  · next h =>
    split at h
    · cases h
    · exact State.stage_stores h
  · simp
@[simp] theorem State.stageRead_stores (s : State) : s.stageRead.stores = s.stores := by simp [State.stageRead]
@[simp] theorem execStageGo_stores (andRead : Bool) (s : State) : (execStageGo andRead s).Keeps s := by simp [execStageGo]
@[simp] theorem execStageRead_stores (s : State) : (execStageRead s).Keeps s := by simp [execStageRead]
@[simp] theorem State.vtgNomatch_stores (s : State) : s.vtgNomatch.stores = s.stores := by simp [State.vtgNomatch]
@[simp] theorem State.hostVtg_stores {f : State → State} (h : ∀ t, (f t).stores = t.stores) (s : State) :
    (s.hostVtg f).stores = s.stores := by
  simp [State.hostVtg, h]
@[simp] theorem State.vtgReturn_stores (s : State) (cause : Nat) : (s.vtgReturn cause).stores = s.stores := by
  simp [State.vtgReturn]
@[simp] theorem State.endProbation_stores (s : State) : s.endProbation.stores = s.stores := by simp [State.endProbation]
@[simp] theorem State.vtgFail_stores (s : State) : s.vtgFail.stores = s.stores := by simp [State.vtgFail]
@[simp] theorem State.withdraw_stores (s : State) : s.withdraw.stores = s.stores := by simp [State.withdraw]
@[simp] theorem State.setStaged_stores (s : State) (src : Nat) (m : Tab Nat) : (s.setStaged src m).stores = s.stores := by
  simp [State.setStaged, ↓State.stores_mk]
@[simp] theorem State.loadStaged_stores {f : State → State} (h : ∀ t, (f t).stores = t.stores) (s : State) :
    (s.loadStaged f).stores = s.stores := by
  simp [State.loadStaged, h]
@[simp] theorem State.readImage_stores (s : State) (a : Archived) : (s.readImage a).2.stores = s.stores := by
  simp [State.readImage]
@[simp] theorem State.loadSerial_stores (s : State) (serial : Nat) : (s.loadSerial serial).stores = s.stores := by
  unfold State.loadSerial
  split
  · simp
  · next a _ =>
    have hr := State.readImage_stores s a
    split
    · rfl
    · split <;> next h => rw [h] at hr; simp [hr]
@[simp] theorem State.loadRescue_stores (s : State) : s.loadRescue.stores = s.stores := by simp [State.loadRescue]
@[simp] theorem State.celResume_stores (s : State) : s.celResume.stores = s.stores := by
  unfold State.celResume
  dsimp only
  split <;> simp [↓State.stores_mk]
@[simp] theorem State.vtgRelease_stores (s : State) : s.vtgRelease.stores = s.stores := by simp [State.vtgRelease]
@[simp] theorem execVtgRet_stores (s : State) : (execVtgRet s).Keeps s := by simp [execVtgRet]
@[simp] theorem execVtgDomRet_stores (s : State) : (execVtgDomRet s).Keeps s := by simp [execVtgDomRet]
@[simp] theorem execVtgAccept_stores (s : State) : (execVtgAccept s).Keeps s := by simp [execVtgAccept]
@[simp] theorem execVtgFail_stores (s : State) : (execVtgFail s).Keeps s := by simp [execVtgFail]
@[simp] theorem execVtgWithdraw_stores (s : State) : (execVtgWithdraw s).Keeps s := by simp [execVtgWithdraw]
@[simp] theorem State.resetStaged_stores (s : State) : s.resetStaged.stores = s.stores := by simp [State.resetStaged]
@[simp] theorem State.loadArch_stores (s : State) : s.loadArch.stores = s.stores := by simp [State.loadArch]
@[simp] theorem State.loadStore_stores (s : State) : s.loadStore.stores = s.stores := by simp [State.loadStore]
@[simp] theorem execVtgResetStaged_stores (s : State) : (execVtgResetStaged s).Keeps s := by simp [execVtgResetStaged]
@[simp] theorem execVtgLoadArch_stores (s : State) : (execVtgLoadArch s).Keeps s := by simp [execVtgLoadArch]
@[simp] theorem execVtgLoadRescue_stores (s : State) : (execVtgLoadRescue s).Keeps s := by simp [execVtgLoadRescue]
@[simp] theorem execVtgRelease_stores (s : State) : (execVtgRelease s).Keeps s := by simp [execVtgRelease]
@[simp] theorem execProbationCheckInterval_stores (s : State) : (execProbationCheckInterval s).Keeps s := by
  simp [execProbationCheckInterval, ↓State.stores_mk]
@[simp] theorem execProbationEnd_stores (s : State) : (execProbationEnd s).Keeps s := by simp [execProbationEnd]
@[simp] theorem State.agreementLeft_stores (s : State) (i : Nat) : (s.agreementLeft i).stores = s.stores := by
  simp [State.agreementLeft]
@[simp] theorem State.reportReturn_stores (s : State) (serial : Nat) : (s.reportReturn serial).stores = s.stores := by
  simp [State.reportReturn]
@[simp] theorem State.returnEffect_part {p : Part} (hg : p ≠ .gfp) (hc : p ≠ .calendars) (s : State) :
    s.returnEffect.stores.get p = s.stores.get p := by
  dsimp only [State.returnEffect]
  simp [↓State.switchBlocks_part, ↓State.reportReturn_stores, ↓State.raise_stores, ↓State.mirror_stores, ↓State.toVt_stores,
    ↓State.wr_stores, ↓State.stores_mk, hg, hc]
theorem execReturnTakeEffect_part {p : Part} (hg : p ≠ .gfp) (hc : p ≠ .calendars) (superframe : Bool) (s : State) :
    (execReturnTakeEffect superframe s).KeepsPart p s := by
  simp [execReturnTakeEffect, hg, hc]
@[simp] theorem execCellarTrainDone_stores (ok dense : BitVec 8) (s : State) : (execCellarTrainDone ok dense s).Keeps s := by
  simp [execCellarTrainDone, ↓State.stores_mk]
@[simp] theorem execCelPprDone_stores (clean : Bool) (s : State) : (execCelPprDone clean s).Keeps s := by simp [execCelPprDone]

/-! ### Agreement -/

@[simp] theorem State.holdProposal_stores (s : State) (i id b kinds summary : Nat) :
    (s.holdProposal i id b kinds summary).stores = s.stores := by
  simp [State.holdProposal]
@[simp] theorem State.onPropose_stores (s : State) (i id b kinds summary : Nat) :
    (s.onPropose i id b kinds summary).stores = s.stores := by
  simp [State.onPropose]
@[simp] theorem execPropose_stores (i : Fin 8) (s : State) : (execPropose i s).Keeps s := by
  unfold execPropose
  split <;> simp
@[simp] theorem execAccept_stores (i : Fin 8) (s : State) : (execAccept i s).Keeps s := by
  unfold execAccept
  split <;> simp
@[simp] theorem execRefuse_stores (i : Fin 8) (s : State) : (execRefuse i s).Keeps s := by
  unfold execRefuse
  split <;> simp
@[simp] theorem State.onCancel_stores (s : State) (i id : Nat) : (s.onCancel i id).stores = s.stores := by simp [State.onCancel]
@[simp] theorem execCancel_stores (i : Fin 8) (s : State) : (execCancel i s).Keeps s := by
  unfold execCancel
  split <;> simp
@[simp] theorem State.onReturn_stores (s : State) (i id b : Nat) : (s.onReturn i id b).stores = s.stores := by
  simp [State.onReturn]
@[simp] theorem execReturnMsg_stores (i : Fin 8) (s : State) : (execReturnMsg i s).Keeps s := by
  unfold execReturnMsg
  split <;> simp
@[simp] theorem execProposalHoldExpiry_stores (i : Fin 8) (s : State) : (execProposalHoldExpiry i s).Keeps s := by
  simp [execProposalHoldExpiry]
@[simp] theorem execProposeRetry_stores (i : Fin 8) (s : State) : (execProposeRetry i s).Keeps s := by simp [execProposeRetry]
@[simp] theorem execAgreementCutoff_stores (s : State) : (execAgreementCutoff s).Keeps s := by simp [execAgreementCutoff]
@[simp] theorem execTendrilPacketSent_stores (i : Fin 8) (s : State) : (execTendrilPacketSent i s).Keeps s := by
  unfold execTendrilPacketSent
  split <;> simp

/-! ### Encode -/

@[simp] theorem State.newMsg_stores (s : State) (c : Nat) : (s.newMsg c).2.stores = s.stores := by simp [State.newMsg]
@[simp] theorem State.txMessages_stores (s : State) : s.txMessages.stores = s.stores := by simp [State.txMessages]
@[simp] theorem State.encryptFrame_part {p : Part} (h : p ≠ .gfp) (s : State) :
    s.encryptFrame.stores.get p = s.stores.get p := by
  unfold State.encryptFrame
  refine forEach_part (fun c t => ?_) _ _
  split <;> simp [h]
@[simp] theorem State.encodeFrame_stores (s : State) (i : Nat) : (s.encodeFrame i).stores = s.stores := by
  simp [State.encodeFrame]
@[simp] theorem State.dacClips_stores (s : State) (i d : Nat) (codes : List (Int × Bool)) :
    (s.dacClips i d codes).stores = s.stores := by
  simp [State.dacClips]
@[simp] theorem State.captureDacs_stores (s : State) (i : Nat) (dac : List (List Int)) :
    (s.captureDacs i dac).stores = s.stores := by
  simp [State.captureDacs, ↓State.stores_mk]
@[simp] theorem State.txOutput_stores (s : State) (i : Nat) : (s.txOutput i).stores = s.stores := by
  simp [State.txOutput, ↓State.stores_mk]

/-! ### Monitor -/

@[simp] theorem State.setAcc_stores (s : State) (n : Nat) (x : Acc) : (s.setAcc n x).stores = s.stores := by rfl
@[simp] theorem State.ditherTurn_stores (s : State) : s.ditherTurn.stores = s.stores := by rfl
@[simp] theorem State.setDc_stores (s : State) (c : Nat) (x : Dc) : (s.setDc c x).stores = s.stores := by rfl
@[simp] theorem State.resetChain_stores (s : State) (c : Nat) : (s.resetChain c).stores = s.stores := by simp [State.resetChain]
@[simp] theorem State.dcHeld_stores (s : State) (c : Nat) : (s.dcHeld c).stores = s.stores := by simp [State.dcHeld]
@[simp] theorem State.detectors_stores (s : State) (c : Nat) (y : Int) : (s.detectors c y).stores = s.stores := by
  simp [State.detectors, ↓State.stores_mk]
@[simp] theorem State.signedOpen_stores (s : State) (v : Int) : (s.signedOpen v).2.stores = s.stores := by
  unfold State.signedOpen
  split <;> simp
@[simp] theorem State.chainOutput_stores (s : State) (c : Nat) (v : Int) : (s.chainOutput c v).stores = s.stores := by
  unfold State.chainOutput
  dsimp only
  repeat' split
  all_goals simp
@[simp] theorem State.chainInput_stores (s : State) (c : Nat) (v : Int) (held : Bool) :
    (s.chainInput c v held).stores = s.stores := by
  simp [State.chainInput]
@[simp] theorem State.feedChains_stores (s : State) (n : Nat) (v : Int) (held : Bool) :
    (s.feedChains n v held).stores = s.stores := by
  simp [State.feedChains]
@[simp] theorem State.feedTaps_stores (s : State) (i : Nat) : (s.feedTaps i).stores = s.stores := by simp [State.feedTaps]
@[simp] theorem State.requestResp_stores (s : State) (c r fade : Nat) : (s.requestResp c r fade).stores = s.stores := by
  simp [State.requestResp]
@[simp] theorem execDcRespRequest_stores (c : Fin 64) (r : Fin 32) (fade : BitVec 10) (s : State) :
    (execDcRespRequest c r fade s).Keeps s := by
  simp [execDcRespRequest]
@[simp] theorem execDcFadeEnd_stores (c : Fin 64) (s : State) : (execDcFadeEnd c s).Keeps s := by
  unfold execDcFadeEnd
  dsimp only
  repeat' split
  all_goals simp
@[simp] theorem State.convertInput_stores (s : State) (a n : Nat) (code : Int) :
    (s.convertInput a n code).2.2.stores = s.stores := by
  unfold State.convertInput
  dsimp only
  repeat' split
  all_goals rfl
@[simp] theorem State.sampleRegular_stores (s : State) (a n : Nat) (code : Int) :
    (s.sampleRegular a n code).stores = s.stores := by
  simp [State.sampleRegular, ↓State.stores_mk]
@[simp] theorem State.sampleInjected_stores (s : State) (a q : Nat) (code : Int) :
    (s.sampleInjected a q code).stores = s.stores := by
  simp [State.sampleInjected]
@[simp] theorem State.convertEdge_stores (s : State) (a : Nat) (code : Int) : (s.convertEdge a code).stores = s.stores := by
  unfold State.convertEdge
  dsimp only
  repeat' split
  all_goals simp [↓State.stores_mk]
@[simp] theorem State.startSequences_stores (s : State) : s.startSequences.stores = s.stores := by
  unfold State.startSequences
  dsimp only
  rfl
@[simp] theorem State.fgBegin_stores (s : State) : s.fgBegin.stores = s.stores := by
  unfold State.fgBegin
  dsimp only
  repeat' split
  all_goals rfl
@[simp] theorem execConversionClockEdge_stores (codes : List Int) (s : State) : (execConversionClockEdge codes s).Keeps s := by
  unfold execConversionClockEdge
  dsimp only
  split <;> simp [↓State.stores_mk]
@[simp] theorem State.monGo_stores (s : State) : s.monGo.stores = s.stores := by rfl
@[simp] theorem execMonSeqGo_stores (s : State) : (execMonSeqGo s).Keeps s := by simp [execMonSeqGo]
@[simp] theorem State.monStop_stores (s : State) : s.monStop.stores = s.stores := by
  unfold State.monStop
  dsimp only
  rfl
@[simp] theorem execMonSeqStop_stores (s : State) : (execMonSeqStop s).Keeps s := by simp [execMonSeqStop]
@[simp] theorem State.accSnap_stores (s : State) : s.accSnap.stores = s.stores := by simp [State.accSnap, ↓State.stores_mk]
@[simp] theorem execAccSnap_stores (s : State) : (execAccSnap s).Keeps s := by simp [execAccSnap]
@[simp] theorem State.injGo_stores (s : State) (q : Nat) : (s.injGo q).stores = s.stores := by simp [State.injGo]
@[simp] theorem execInjectionTrigger_stores (q : Fin 16) (s : State) : (execInjectionTrigger q s).Keeps s := by
  simp [execInjectionTrigger]
@[simp] theorem execInjectionDone_stores (q : Fin 16) (s : State) : (execInjectionDone q s).Keeps s := by
  simp [execInjectionDone, ↓State.stores_mk]
@[simp] theorem execInjectionMissed_stores (q : Fin 16) (s : State) : (execInjectionMissed q s).Keeps s := by
  unfold execInjectionMissed
  dsimp only
  split <;> simp
@[simp] theorem State.bgTurn_stores (s : State) (a : Nat) : (s.bgTurn a).stores = s.stores := by
  unfold State.bgTurn
  dsimp only
  repeat' split
  all_goals rfl
@[simp] theorem execBgCalTurn_stores (s : State) : (execBgCalTurn s).Keeps s := by simp [execBgCalTurn, ↓State.stores_mk]
@[simp] theorem State.fgRequest_stores (s : State) (mask : Nat) : (s.fgRequest mask).stores = s.stores := by
  simp [State.fgRequest, ↓State.stores_mk]
@[simp] theorem execFgCalStart_stores (s : State) : (execFgCalStart s).Keeps s := by simp [execFgCalStart]
@[simp] theorem execFgCalEnd_stores (s : State) : (execFgCalEnd s).Keeps s := by
  unfold execFgCalEnd
  dsimp only
  repeat' split
  all_goals simp [↓State.stores_mk]
@[simp] theorem State.msyncFall_stores (s : State) : s.msyncFall.stores = s.stores := by rfl
@[simp] theorem execMsyncFall_stores (s : State) : (execMsyncFall s).Keeps s := by simp [execMsyncFall]
@[simp] theorem State.syncGo_stores (s : State) : s.syncGo.stores = s.stores := by
  unfold State.syncGo
  dsimp only
  rfl
@[simp] theorem execSyncGo_stores (s : State) : (execSyncGo s).Keeps s := by simp [execSyncGo]
@[simp] theorem State.windowBoundary_stores (s : State) : s.windowBoundary.stores = s.stores := by
  simp [State.windowBoundary, ↓State.stores_mk]
@[simp] theorem execCounterWindowBoundary_stores (s : State) : (execCounterWindowBoundary s).Keeps s := by
  simp [execCounterWindowBoundary]
@[simp] theorem State.bandwidths_stores (s : State) (old new : Tab Nat) : (s.bandwidths old new).stores = s.stores := by
  simp [State.bandwidths]
@[simp] theorem State.mirrorCounters_stores (s : State) (bank : Tab Nat) : (s.mirrorCounters bank).stores = s.stores := by
  unfold State.mirrorCounters
  split <;> simp
@[simp] theorem execMonSnap_stores (s : State) : (execMonSnap s).Keeps s := by
  unfold execMonSnap
  split <;> simp [↓State.stores_mk]
@[simp] theorem State.counterSelect_stores (s : State) (v : Nat) : (s.counterSelect v).stores = s.stores := by
  simp [State.counterSelect]
@[simp] theorem execCounterSelect_stores (v : Word) (s : State) : (execCounterSelect v s).Keeps s := by simp [execCounterSelect]
@[simp] theorem State.monTimer_stores (s : State) (n : Nat) : (s.monTimer n).stores = s.stores := by
  simp [State.monTimer, ↓State.stores_mk]

/-! ### Boundary -/

@[simp] theorem State.noteSince_stores (s : State) (i : Nat) : (s.noteSince i).stores = s.stores := by simp [State.noteSince]
@[simp] theorem State.uncWindow_stores (s : State) (i : Nat) : (s.uncWindow i).stores = s.stores := by simp [State.uncWindow]
@[simp] theorem State.degInterval_stores (s : State) (i : Nat) : (s.degInterval i).stores = s.stores := by
  simp [State.degInterval]
@[simp] theorem State.countFrame_stores (s : State) (i : Nat) : (s.countFrame i).stores = s.stores := by simp [State.countFrame]
@[simp] theorem State.noteSnr_stores (s : State) (i : Nat) : (s.noteSnr i).stores = s.stores := by simp [State.noteSnr]
@[simp] theorem State.deliverTaps_stores (s : State) (i : Nat) (tendril : Word) :
    (s.deliverTaps i tendril).stores = s.stores := by
  simp [State.deliverTaps]
@[simp] theorem State.checkTsm_stores (s : State) (i : Nat) : (s.checkTsm i).stores = s.stores := by simp [State.checkTsm]
@[simp] theorem State.rxGoes_stores (s : State) (i : Nat) (img : RxImg) : (s.rxGoes i img).stores = s.stores := by
  simp [State.rxGoes]
@[simp] theorem State.rxBoundary_stores (s : State) (i : Nat) : (s.rxBoundary i).stores = s.stores := by
  unfold State.rxBoundary
  dsimp only
  repeat' split
  all_goals simp
@[simp] theorem State.consequent_stores (s : State) (i : Nat) : (s.consequent i).stores = s.stores := by simp [State.consequent]
@[simp] theorem State.evaluate_stores (s : State) (i : Nat) : (s.evaluate i).stores = s.stores := by simp [State.evaluate]
@[simp] theorem execDefectEvaluation_stores (i : Fin 8) (fr : FrameFacts) (s : State) :
    (execDefectEvaluation i fr s).Keeps s := by
  simp [execDefectEvaluation]
@[simp] theorem State.gridMark_stores (s : State) : s.gridMark.stores = s.stores := by
  unfold State.gridMark
  dsimp only
  repeat' split
  all_goals rfl
@[simp] theorem State.gridFrame_part {p : Part} (h : p ≠ .gfp) (s : State) : s.gridFrame.stores.get p = s.stores.get p := by
  dsimp only [State.gridFrame]
  simp [↓State.encryptFrame_part, ↓State.txMessages_stores, ↓State.gridMark_stores, ↓State.stores_ite, ↓State.stores_mk, h]
theorem State.gridSuperframe_stores {s t : State} (h : s.gridSuperframe = some t) : t.stores = s.stores := by
  unfold State.gridSuperframe at h
  split at h
  · cases h; exact forEach_stores (fun _ u => State.txMessages_stores u) _ s
  · split at h
    · cases h; rfl
    · cases h
theorem State.gridTurn_part {p : Part} (h : p ≠ .gfp) {s t : State} {i : Nat} (ht : s.gridTurn i = some t) :
    t.stores.get p = s.stores.get p := by
  unfold State.gridTurn at ht
  dsimp only at ht
  split at ht
  · cases ht; rfl
  · split at ht
    · cases ht; exact State.gridFrame_part h s
    · cases ht
theorem execTxFrameBoundary_part {p : Part} (h : p ≠ .gfp) (i : Fin 8) (psd : List (Nat × Nat)) (s : State) :
    (execTxFrameBoundary i psd s).KeepsPart p s := by
  unfold execTxFrameBoundary
  rw [Out.keepsPart_next]
  split
  · split
    · next ht => simp [State.gridTurn_part h ht]
    · rfl
  · simp
@[simp] theorem State.streamStart_stores (s : State) (i : Nat) : (s.streamStart i).stores = s.stores := by
  simp [State.streamStart]
@[simp] theorem execTxSuperframeBoundary_stores (i : Fin 8) (s : State) : (execTxSuperframeBoundary i s).Keeps s := by
  unfold execTxSuperframeBoundary
  rw [Out.keeps_next]
  split
  · dsimp only
    split
    · rfl
    · next u h =>
      have hu : u.stores = s.stores := by
        split at h
        · exact State.gridSuperframe_stores h
        · split at h <;> cases h; rfl
      simp [hu]
  · rfl

/-! ### ModeOps -/

@[simp] theorem State.goDormant_stores (s : State) : s.goDormant.stores = s.stores := by
  have hc (u : State) : State.stores { u.celSleep.wr F.PRY_TWIN_STAT_pair 0 with ctl := u.ctl } = u.stores := by
    have h := State.celSleep_stores u
    simp only [State.stores, Stores.mk.injEq] at h ⊢
    simp [h]
  exact (hc _).trans (by simp)
@[simp] theorem State.leaveDormant_stores (s : State) : s.leaveDormant.stores = s.stores := by
  unfold State.leaveDormant
  dsimp only
  rfl
@[simp] theorem State.enterMode_stores (s : State) (new : Nat) : (s.enterMode new).stores = s.stores := by
  unfold State.enterMode
  dsimp only
  repeat' split
  all_goals simp [↓State.stores_mk]
@[simp] theorem State.exitDrain_stores (s : State) (i : Nat) : (s.exitDrain i).stores = s.stores := by simp [State.exitDrain]
@[simp] theorem State.exitWake_stores (s : State) (i : Nat) : (s.exitWake i).stores = s.stores := by simp [State.exitWake]
@[simp] theorem State.exitRecovery_stores (s : State) (want : Nat) : (s.exitRecovery want).stores = s.stores := by
  simp [State.exitRecovery, ↓State.stores_mk]

/-! ### Programs -/

@[simp] theorem State.record_stores (s : State) (tag : Word) (program step status sq func fault : Nat) :
    (s.record tag program step status sq func fault).stores = s.stores := by
  simp [State.record]
@[simp] theorem State.respond_stores (s : State) (func program : Nat) (tag : Word) (outcome fault sq step : Nat) (results
    : List Word) : (s.respond func program tag outcome fault sq step results).stores = s.stores := by
  simp [State.respond]
@[simp] theorem State.unqueue_stores (s : State) (q n : Nat) : (s.unqueue q n).stores = s.stores := by simp [State.unqueue]
@[simp] theorem State.freeClaims_stores (s : State) (q : Nat) : (s.freeClaims q).stores = s.stores := by rfl
@[simp] theorem State.setReceivers_stores (s : State) (src : Nat) (l : List Nat) :
    (s.setReceivers src l).stores = s.stores := by rfl
@[simp] theorem State.unreceive_stores (s : State) (q src : Nat) : (s.unreceive q src).stores = s.stores := by
  simp [State.unreceive]
@[simp] theorem State.leaveWait_stores (s : State) (q : Nat) : (s.leaveWait q).stores = s.stores := by
  unfold State.leaveWait
  split <;> simp
@[simp] theorem State.leavePacket_stores (s : State) (q : Nat) : (s.leavePacket q).stores = s.stores := by
  unfold State.leavePacket
  split <;> simp
@[simp] theorem State.releaseSeq_stores (s : State) (q : Nat) : (s.releaseSeq q).stores = s.stores := by simp [State.releaseSeq]
@[simp] theorem State.dropInFlight_stores (s : State) (q : Nat) : (s.dropInFlight q).stores = s.stores := by rfl
@[simp] theorem State.recoverEnded_stores (s : State) (done : Bool) : (s.recoverEnded done).stores = s.stores := by
  simp [State.recoverEnded, ↓State.stores_mk]
@[simp] theorem State.closeProgram_stores (s : State) (q status fault : Nat) (results : List Word) :
    (s.closeProgram q status fault results).stores = s.stores := by
  simp [State.closeProgram]
@[simp] theorem State.faultProgram_stores (s : State) (q code : Nat) : (s.faultProgram q code).stores = s.stores := by
  simp [State.faultProgram]
@[simp] theorem State.preempt_stores (s : State) (which : Seq → Bool) (code : Nat) :
    (s.preempt which code).stores = s.stores := by
  simp [State.preempt]

/-! ### Modes -/

@[simp] theorem State.refuseMode_stores (s : State) (v : Nat) : (s.refuseMode v).stores = s.stores := by simp [State.refuseMode]
@[simp] theorem State.startTransition_stores (s : State) (v : Nat) : (s.startTransition v).stores = s.stores := by
  simp [State.startTransition, ↓State.stores_mk]
@[simp] theorem State.actRequest_stores (s : State) (v : Nat) : (s.actRequest v).stores = s.stores := by simp [State.actRequest]
@[simp] theorem State.reqMode_stores (s : State) (v : Nat) : (s.reqMode v).stores = s.stores := by
  simp [State.reqMode, ↓State.stores_mk]
@[simp] theorem execReqDormant_stores (s : State) : (execReqDormant s).Keeps s := by simp [execReqDormant]
@[simp] theorem execReqPrepare_stores (s : State) : (execReqPrepare s).Keeps s := by simp [execReqPrepare]
@[simp] theorem execReqService_stores (s : State) : (execReqService s).Keeps s := by simp [execReqService]
@[simp] theorem execReqShadow_stores (s : State) : (execReqShadow s).Keeps s := by simp [execReqShadow]
@[simp] theorem execReqProving_stores (s : State) : (execReqProving s).Keeps s := by simp [execReqProving]
@[simp] theorem execReqRecovery_stores (s : State) : (execReqRecovery s).Keeps s := by simp [execReqRecovery]
@[simp] theorem execReqPreviousMode_stores (s : State) : (execReqPreviousMode s).Keeps s := by simp [execReqPreviousMode]
@[simp] theorem State.closeEntry_stores (s : State) (q : Nat) : (s.closeEntry q).stores = s.stores := by
  unfold State.closeEntry
  split <;> simp
@[simp] theorem State.closeInFlight_stores (s : State) : s.closeInFlight.stores = s.stores := by simp [State.closeInFlight]
@[simp] theorem State.actHeld_stores (s : State) : s.actHeld.stores = s.stores := by simp [State.actHeld, ↓State.stores_mk]
@[simp] theorem State.completeTransition_stores (s : State) (v : Nat) : (s.completeTransition v).stores = s.stores := by
  simp [State.completeTransition, ↓State.stores_mk]
@[simp] theorem execModeTransitionEnd_stores (s : State) : (execModeTransitionEnd s).Keeps s := by
  unfold execModeTransitionEnd
  split <;> simp
@[simp] theorem State.abandonTransition_stores (s : State) : s.abandonTransition.stores = s.stores := by
  unfold State.abandonTransition
  dsimp only
  repeat' split
  all_goals rfl
@[simp] theorem State.faultSlice_stores (s : State) (code i : Nat) : (s.faultSlice code i).stores = s.stores := by
  simp [State.faultSlice]
@[simp] theorem State.faultEffects_stores (s : State) (code : Nat) : (s.faultEffects code).stores = s.stores := by
  simp [State.faultEffects, ↓State.stores_mk]
@[simp] theorem State.enterRecovery_stores (s : State) (code : Nat) : (s.enterRecovery code).stores = s.stores := by
  simp [State.enterRecovery, ↓State.stores_mk]
@[simp] theorem State.fatal_stores (s : State) (code : Nat) : (s.fatal code).stores = s.stores := by simp [State.fatal]
@[simp] theorem State.faultCleared_stores (s : State) (code : Nat) : (s.faultCleared code).stores = s.stores := by rfl
@[simp] theorem execHostclkCoast_stores (s : State) : (execHostclkCoast s).Keeps s := by simp [execHostclkCoast, ↓State.stores_mk]
@[simp] theorem execHostclkFailDeclare_stores (s : State) : (execHostclkFailDeclare s).Keeps s := by
  simp [execHostclkFailDeclare, ↓State.stores_mk]
@[simp] theorem execHostclkReturn_stores (s : State) : (execHostclkReturn s).Keeps s := by
  simp [execHostclkReturn, ↓State.stores_mk]
@[simp] theorem State.clearHostclkFail_stores (s : State) : s.clearHostclkFail.stores = s.stores := by
  unfold State.clearHostclkFail
  dsimp only
  rfl
@[simp] theorem execHostclkFailClear_stores (s : State) : (execHostclkFailClear s).Keeps s := by simp [execHostclkFailClear]
@[simp] theorem execThermalFault_stores (s : State) : (execThermalFault s).Keeps s := by simp [execThermalFault]
@[simp] theorem execThermalClear_stores (s : State) : (execThermalClear s).Keeps s := by simp [execThermalClear]
@[simp] theorem execRecoveryRestart_stores (aged : Nat) (s : State) : (execRecoveryRestart aged s).Keeps s := by
  simp [execRecoveryRestart, ↓State.stores_mk]
@[simp] theorem State.clearGivenUp_stores (s : State) : s.clearGivenUp.stores = s.stores := by
  unfold State.clearGivenUp
  dsimp only
  rfl
@[simp] theorem execGivenUpClear_stores (s : State) : (execGivenUpClear s).Keeps s := by simp [execGivenUpClear]
@[simp] theorem execHostSilenceExpiry_stores (s : State) : (execHostSilenceExpiry s).Keeps s := by simp [execHostSilenceExpiry]
@[simp] theorem State.hostActive_stores (s : State) : s.hostActive.stores = s.stores := by simp [State.hostActive]
@[simp] theorem execHostActivity_stores (s : State) : (execHostActivity s).Keeps s := by simp [execHostActivity]
@[simp] theorem State.sscTake_stores (s : State) : s.sscTake.stores = s.stores := by rfl
@[simp] theorem execSscPeriodEnd_stores (s : State) : (execSscPeriodEnd s).Keeps s := by simp [execSscPeriodEnd]

/-! ### Time -/

@[simp] theorem State.switchTo_stores (s : State) (i : Nat) : (s.switchTo i).stores = s.stores := by
  simp [State.switchTo, ↓State.stores_mk]
@[simp] theorem State.freeRun_stores (s : State) : s.freeRun.stores = s.stores := by simp [State.freeRun, ↓State.stores_mk]
@[simp] theorem State.takeBest_stores (s : State) : s.takeBest.stores = s.stores := by
  unfold State.takeBest
  split <;> simp
@[simp] theorem State.selectAuto_stores (s : State) : s.selectAuto.stores = s.stores := by
  unfold State.selectAuto
  dsimp only
  repeat' split
  all_goals simp
@[simp] theorem State.selectGate_stores (s : State) : s.selectGate.stores = s.stores := by simp [State.selectGate]
@[simp] theorem State.candMove_stores (s : State) (i st : Nat) : (s.candMove i st).stores = s.stores := by simp [State.candMove]
@[simp] theorem State.candQualify_stores (s : State) (i : Nat) : (s.candQualify i).stores = s.stores := by
  simp [State.candQualify]
@[simp] theorem execCandGate100ms_stores (i : Fin 16) (off : BitVec 24) (s : State) : (execCandGate100ms i off s).Keeps s := by
  unfold execCandGate100ms
  dsimp only
  repeat' split
  all_goals simp [↓State.stores_mk]
@[simp] theorem State.hardGate_stores (s : State) (i : Nat) (off : Int) : (s.hardGate i off).stores = s.stores := by
  simp [State.hardGate]
@[simp] theorem execCandGate1ms_stores (offs : List (Fin 16 × BitVec 24)) (s : State) : (execCandGate1ms offs s).Keeps s := by
  simp [execCandGate1ms]
@[simp] theorem execCandWtrExpiry_stores (i : Fin 16) (s : State) : (execCandWtrExpiry i s).Keeps s := by simp [execCandWtrExpiry]
@[simp] theorem execCandidateAvailable_stores (i : Fin 16) (s : State) : (execCandidateAvailable i s).Keeps s := by
  simp [execCandidateAvailable, ↓State.stores_mk]
@[simp] theorem execCandAvailLoss_stores (i : Fin 16) (s : State) : (execCandAvailLoss i s).Keeps s := by simp [execCandAvailLoss]
@[simp] theorem execSelHoldoffExpiry_stores (s : State) : (execSelHoldoffExpiry s).Keeps s := by simp [execSelHoldoffExpiry]
@[simp] theorem State.selCommand_stores (s : State) (code cand : Nat) : (s.selCommand code cand).stores = s.stores := by
  unfold State.selCommand
  dsimp only
  repeat' split
  all_goals simp [↓State.stores_mk]
@[simp] theorem execSelForce_stores (s : State) : (execSelForce s).Keeps s := by simp [execSelForce]
@[simp] theorem execSelManual_stores (s : State) : (execSelManual s).Keeps s := by simp [execSelManual]
@[simp] theorem execSelClear_stores (s : State) : (execSelClear s).Keeps s := by simp [execSelClear]
@[simp] theorem execSelLocked_stores (s : State) : (execSelLocked s).Keeps s := by simp [execSelLocked]
@[simp] theorem State.setPhase_stores (s : State) (r : Int) : (s.setPhase r).stores = s.stores := by simp [State.setPhase]
@[simp] theorem State.phaseGo_stores (s : State) : s.phaseGo.stores = s.stores := by simp [State.phaseGo]
@[simp] theorem execPhaseStepGo_stores (s : State) : (execPhaseStepGo s).Keeps s := by simp [execPhaseStepGo]
@[simp] theorem execPhaseSlewDone_stores (s : State) : (execPhaseSlewDone s).Keeps s := by simp [execPhaseSlewDone]

/-! ### Timers -/

@[simp] theorem State.setNow_stores (s : State) (t : BitVec 64) : (s.setNow t).stores = s.stores := by rfl
@[simp] theorem State.setTarget_stores (s : State) (n : Nat) (t : BitVec 32) : (s.setTarget n t).stores = s.stores := by
  simp [State.setTarget]
@[simp] theorem State.timerAction_stores (s : State) (n : Nat) (late : Bool) : (s.timerAction n late).stores = s.stores := by
  simp [State.timerAction, ↓State.stores_mk]
@[simp] theorem State.fireOnce_stores (s : State) (n : Nat) (late : Bool) : (s.fireOnce n late).stores = s.stores := by
  simp [State.fireOnce]
@[simp] theorem State.fire_stores (s : State) (n k : Nat) (late : Bool) : (s.fire n k late).stores = s.stores := by
  induction k generalizing s late with
  | zero => rfl
  | succ k ih => simp [State.fire, ih]
@[simp] theorem State.armTimer_stores (s : State) (n : Nat) : (s.armTimer n).stores = s.stores := by simp [State.armTimer]
@[simp] theorem execTimerArm_stores (n : Fin 16) (s : State) : (execTimerArm n s).Keeps s := by simp [execTimerArm]
@[simp] theorem execTimerDisarm_stores (n : Fin 16) (s : State) : (execTimerDisarm n s).Keeps s := by simp [execTimerDisarm]
@[simp] theorem execTimerFire_stores (n : Fin 16) (s : State) : (execTimerFire n s).Keeps s := by simp [execTimerFire]
@[simp] theorem State.recompute_stores (s : State) : s.recompute.stores = s.stores := by simp [State.recompute]
@[simp] theorem State.todLoad_stores (s : State) : s.todLoad.stores = s.stores := by simp [State.todLoad]
@[simp] theorem State.todAdd_stores (s : State) (ns : Int) : (s.todAdd ns).stores = s.stores := by simp [State.todAdd]
@[simp] theorem State.todCommand_stores (s : State) (set adj : Bool) : (s.todCommand set adj).stores = s.stores := by
  simp [State.todCommand]
@[simp] theorem execTodSet_stores (s : State) : (execTodSet s).Keeps s := by simp [execTodSet]
@[simp] theorem execTodAdj_stores (s : State) : (execTodAdj s).Keeps s := by simp [execTodAdj]
@[simp] theorem execTodWrap_stores (s : State) : (execTodWrap s).Keeps s := by simp [execTodWrap]
@[simp] theorem State.trimFor_stores (s : State) (off : Int) : (s.trimFor off).stores = s.stores := by
  unfold State.trimFor
  dsimp only
  repeat' split
  all_goals rfl
@[simp] theorem State.follow_stores (s : State) (off : Int) (thr : Nat) : (s.follow off thr).1.stores = s.stores := by
  unfold State.follow
  split <;> simp
@[simp] theorem State.ltcMissed_stores (s : State) : s.ltcMissed.stores = s.stores := by
  unfold State.ltcMissed
  dsimp only
  repeat' split
  all_goals rfl
@[simp] theorem State.ltcResult_stores (s : State) (off : Int) : (s.ltcResult off).stores = s.stores := by
  simp [State.ltcResult, ↓State.stores_mk]
@[simp] theorem execLtcMultiframe_stores (s : State) : (execLtcMultiframe s).Keeps s := by
  unfold execLtcMultiframe
  dsimp only
  repeat' split
  all_goals simp

/-! ### Twins -/

@[simp] theorem State.startAttempt_stores (s : State) (p : Nat) (probe : Bool) : (s.startAttempt p probe).stores = s.stores := by
  simp [State.startAttempt]
@[simp] theorem execLinkAttemptStart_stores (p : Fin 6) (s : State) : (execLinkAttemptStart p s).Keeps s := by
  simp [execLinkAttemptStart]
@[simp] theorem execLinkBackoffExpiry_stores (p : Fin 6) (s : State) : (execLinkBackoffExpiry p s).Keeps s := by
  simp [execLinkBackoffExpiry]
@[simp] theorem execAbsentProbe_stores (p : Fin 6) (s : State) : (execAbsentProbe p s).Keeps s := by simp [execAbsentProbe]
@[simp] theorem execMismatchRetry_stores (p : Fin 6) (s : State) : (execMismatchRetry p s).Keeps s := by simp [execMismatchRetry]
@[simp] theorem State.attemptFails_stores (s : State) (p : Nat) : (s.attemptFails p).stores = s.stores := by
  simp [State.attemptFails]
@[simp] theorem execLinkAttemptTimeout_stores (p : Fin 6) (s : State) : (execLinkAttemptTimeout p s).Keeps s := by
  simp [execLinkAttemptTimeout]
@[simp] theorem execAttemptSignalLoss_stores (p : Fin 6) (s : State) : (execAttemptSignalLoss p s).Keeps s := by
  simp [execAttemptSignalLoss]
@[simp] theorem execPortIdleTimeout_stores (p : Fin 6) (s : State) : (execPortIdleTimeout p s).Keeps s := by
  simp [execPortIdleTimeout]
@[simp] theorem State.toSolo_stores (s : State) : s.toSolo.stores = s.stores := by simp [State.toSolo, ↓State.stores_mk]
@[simp] theorem State.roleMode_stores (s : State) (m : Nat) : (s.roleMode m).stores = s.stores := by simp [State.roleMode]
@[simp] theorem State.rescueStore_stores (s : State) : s.rescueStore.stores = s.stores := by
  simp [State.rescueStore, ↓State.stores_mk]
@[simp] theorem State.joinFails_part {p : Part} (hs : p ≠ .slots) (hg : p ≠ .gfp) (hc : p ≠ .calendars) (s : State) :
    s.joinFails.stores.get p = s.stores.get p := by
  dsimp only [State.joinFails]
  simp [↓State.switchBlocks_part, ↓State.roleMode_stores, ↓State.toSolo_stores, ↓State.rescueStore_stores, ↓State.stores_ite,
    ↓State.stores_mk, hs, hg, hc]
@[simp] theorem State.partnerLost_stores (s : State) : s.partnerLost.stores = s.stores := by
  dsimp only [State.partnerLost]
  simp [↓State.stores_ite, ↓State.roleMode_stores, ↓State.wr_stores, ↓State.cipTakeover_stores, ↓State.stores_mk]
@[simp] theorem execTwinHeartbeatLoss_stores (s : State) : (execTwinHeartbeatLoss s).Keeps s := by simp [execTwinHeartbeatLoss]
@[simp] theorem execTakeoverFullAmplitude_stores (s : State) : (execTakeoverFullAmplitude s).Keeps s := by
  simp [execTakeoverFullAmplitude]
@[simp] theorem execPeerActiveAssert_stores (s : State) : (execPeerActiveAssert s).Keeps s := by
  unfold execPeerActiveAssert
  dsimp only
  split <;> simp
@[simp] theorem State.sendPair_stores (s : State) (ws : List Nat) : (s.sendPair ws).stores = s.stores := by simp [State.sendPair]
@[simp] theorem State.pairRefuse_stores (s : State) (reason : Nat) : (s.pairRefuse reason).stores = s.stores := by
  simp [State.pairRefuse]
@[simp] theorem State.twinRelease_stores (s : State) : s.twinRelease.stores = s.stores := by
  simp [State.twinRelease, ↓State.stores_mk]
@[simp] theorem execTwinRelease_stores (s : State) : (execTwinRelease s).Keeps s := by simp [execTwinRelease]
@[simp] theorem execReleaseAckTimeout_stores (s : State) : (execReleaseAckTimeout s).Keeps s := by
  simp [execReleaseAckTimeout, ↓State.stores_mk]
@[simp] theorem execReleaseBoundary_stores (s : State) : (execReleaseBoundary s).Keeps s := by
  simp [execReleaseBoundary, ↓State.stores_mk]
@[simp] theorem State.detached_part {p : Part} (hs : p ≠ .slots) (hg : p ≠ .gfp) (hc : p ≠ .calendars) (s : State) :
    s.detached.stores.get p = s.stores.get p := by
  simp [State.detached, hs, hg, hc]
@[simp] theorem State.twinDetach_part {p : Part} (hs : p ≠ .slots) (hg : p ≠ .gfp) (hc : p ≠ .calendars) (s : State) :
    s.twinDetach.stores.get p = s.stores.get p := by
  simp [State.twinDetach, hs, hg, hc]
theorem execTwinDetach_part {p : Part} (hs : p ≠ .slots) (hg : p ≠ .gfp) (hc : p ≠ .calendars) (s : State) :
    (execTwinDetach s).KeepsPart p s := by
  simp [execTwinDetach, hs, hg, hc]
theorem execJoinTimeout_part {p : Part} (hs : p ≠ .slots) (hg : p ≠ .gfp) (hc : p ≠ .calendars) (s : State) :
    (execJoinTimeout s).KeepsPart p s := by
  simp [execJoinTimeout, hs, hg, hc]
@[simp] theorem State.mirrorSet_stores (s : State) : s.mirrorSet.stores = s.stores := by simp [State.mirrorSet]
@[simp] theorem State.twinResync_stores (s : State) : s.twinResync.stores = s.stores := by simp [State.twinResync]
@[simp] theorem execTwinResync_stores (s : State) : (execTwinResync s).Keeps s := by simp [execTwinResync]
@[simp] theorem State.sendJoin_stores (s : State) (op slot peer : Nat) : (s.sendJoin op slot peer).stores = s.stores := by
  simp [State.sendJoin]
@[simp] theorem State.askJoin_stores (s : State) : s.askJoin.stores = s.stores := by
  unfold State.askJoin
  split <;> simp
@[simp] theorem State.onJoin_stores (s : State) (asks : Bool) (peer ident pset side mode check : Nat) :
    (s.onJoin asks peer ident pset side mode check).stores = s.stores := by
  unfold State.onJoin
  split <;> simp [↓State.stores_mk]
@[simp] theorem State.onMsg_stores {s : State} {f : PryMsg → State → State} (h : ∀ m t, (f m t).stores = t.stores) (p : Nat)
    (ok : PryMsg → Bool) :
    (s.onMsg p ok f).stores = s.stores := by
  unfold State.onMsg
  split <;> simp [h]
@[simp] theorem State.onMsg_part {p : Part} {s : State} {f : PryMsg → State → State} (h : ∀ m t,
    (f m t).stores.get p = t.stores.get p)
    (n : Nat) (ok : PryMsg → Bool) : (s.onMsg n ok f).stores.get p = s.stores.get p := by
  unfold State.onMsg
  split <;> simp [h]
@[simp] theorem State.mirrorGap_stores (s : State) : s.mirrorGap.stores = s.stores := by simp [State.mirrorGap, ↓State.stores_mk]
@[simp] theorem State.dropMsg_stores (s : State) (p cls : Nat) : (s.dropMsg p cls).stores = s.stores := by simp [State.dropMsg]
@[simp] theorem State.onTime_stores (s : State) (p : Nat) (ws : List Nat) : (s.onTime p ws).stores = s.stores := by
  simp [State.onTime, ↓State.stores_mk]
@[simp] theorem State.sendTime_stores (s : State) (p : Nat) : (s.sendTime p).stores = s.stores := by simp [State.sendTime]
@[simp] theorem State.msgDone_stores (s : State) (p : Nat) (m : PryMsg) : (s.msgDone p m).stores = s.stores := by
  simp [State.msgDone]
@[simp] theorem State.frameJoins_stores (s : State) (p : Nat) (bits : List Bool) : (s.frameJoins p bits).stores = s.stores := by
  unfold State.frameJoins
  dsimp only
  split <;> simp
@[simp] theorem execPoryonFrameRx_stores (p : Fin 6) (content : List Byte) (codes : Bool) (s : State) :
    (execPoryonFrameRx p content codes s).Keeps s := by
  simp [execPoryonFrameRx]
@[simp] theorem execMessage_stores (p : Fin 6) (s : State) : (execMessage p s).Keeps s := by simp [execMessage]
@[simp] theorem State.countMembers_stores (s : State) : s.countMembers.stores = s.stores := by simp [State.countMembers]
@[simp] theorem State.sendDomain_stores (s : State) (p : Nat) (ws : List Nat) : (s.sendDomain p ws).stores = s.stores := by
  simp [State.sendDomain]
@[simp] theorem State.domainDown_stores (s : State) (ws : List Nat) : (s.domainDown ws).stores = s.stores := by
  simp [State.domainDown]
@[simp] theorem State.noteRoute_stores (s : State) (serial d : Nat) : (s.noteRoute serial d).stores = s.stores := by rfl
@[simp] theorem State.noteBelow_stores (s : State) (serial p : Nat) : (s.noteBelow serial p).stores = s.stores := by rfl
@[simp] theorem State.assignNumber_stores (s : State) (serial parent dn depth : Nat) :
    (s.assignNumber serial parent dn depth).stores = s.stores := by
  unfold State.assignNumber
  split <;> simp
@[simp] theorem State.releaseNumber_stores (s : State) (k d : Nat) : (s.releaseNumber k d).stores = s.stores := by
  induction k generalizing s d with
  | zero => rfl
  | succ k ih => simp [State.releaseNumber, ih]
@[simp] theorem State.workerLeft_stores (s : State) (serial : Nat) : (s.workerLeft serial).stores = s.stores := by
  unfold State.workerLeft
  split <;> simp
@[simp] theorem State.workerLinked_stores (s : State) (p serial : Nat) : (s.workerLinked p serial).stores = s.stores := by
  simp [State.workerLinked]
@[simp] theorem State.reportWorkers_stores (s : State) : s.reportWorkers.stores = s.stores := by simp [State.reportWorkers]
@[simp] theorem State.onDomain_stores (s : State) (p : Nat) (ws : List Nat) : (s.onDomain p ws).stores = s.stores := by
  simp [State.onDomain]
@[simp] theorem execDomain_stores (p : Fin 6) (s : State) : (execDomain p s).Keeps s := by simp [execDomain]
@[simp] theorem State.failHeldDomain_stores (s : State) : s.failHeldDomain.stores = s.stores := by simp [State.failHeldDomain]
@[simp] theorem State.managerLost_stores (s : State) : s.managerLost.stores = s.stores := by
  dsimp only [State.managerLost]
  simp [↓State.failHeldDomain_stores, ↓State.stores_mk]
@[simp] theorem execManagerLoss_stores (s : State) : (execManagerLoss s).Keeps s := by simp [execManagerLoss]
@[simp] theorem State.sendBeat_stores (s : State) (p : Nat) : (s.sendBeat p).stores = s.stores := by simp [State.sendBeat]
@[simp] theorem execManagerHeartbeatSend_stores (s : State) : (execManagerHeartbeatSend s).Keeps s := by
  simp [execManagerHeartbeatSend, ↓State.stores_mk]
@[simp] theorem State.onTelem_stores (s : State) (m : PryMsg) : (s.onTelem m).stores = s.stores := by simp [State.onTelem]
@[simp] theorem execEvent_stores (p : Fin 6) (s : State) : (execEvent p s).Keeps s := by simp [execEvent]
@[simp] theorem State.becomeLinked_stores (s : State) (p w0 w2 : Nat) : (s.becomeLinked p w0 w2).stores = s.stores := by
  simp [State.becomeLinked]
@[simp] theorem State.onIdent_stores (s : State) (p : Nat) (ws : List Nat) : (s.onIdent p ws).stores = s.stores := by
  simp [State.onIdent]
@[simp] theorem execIdent_stores (p : Fin 6) (s : State) : (execIdent p s).Keeps s := by simp [execIdent]
@[simp] theorem State.afterLinkLoss_part {p : Part} (hs : p ≠ .slots) (hg : p ≠ .gfp) (hc : p ≠ .calendars) (s : State) (n
    : Nat) :
    (s.afterLinkLoss n).stores.get p = s.stores.get p := by
  dsimp only [State.afterLinkLoss]
  simp [↓State.partnerLost_stores, ↓State.joinFails_part, ↓State.stores_ite, ↓State.stores_mk, hs, hg, hc]
theorem execLinkLoss_part {p : Part} (hs : p ≠ .slots) (hg : p ≠ .gfp) (hc : p ≠ .calendars) (n : Fin 6) (s : State) :
    (execLinkLoss n s).KeepsPart p s := by
  simp [execLinkLoss, hs, hg, hc]
@[simp] theorem State.readiness_stores (s : State) : s.readiness.stores = s.stores := by simp [State.readiness]
@[simp] theorem execHeartbeatSend_stores (s : State) : (execHeartbeatSend s).Keeps s := by
  simp [execHeartbeatSend, ↓State.stores_mk]
@[simp] theorem State.twinBeat_stores (s : State) (w2 : Nat) : (s.twinBeat w2).stores = s.stores := by
  simp [State.twinBeat, ↓State.stores_mk]
@[simp] theorem State.managerBeat_stores (s : State) (m : PryMsg) : (s.managerBeat m).stores = s.stores := by
  simp [State.managerBeat, ↓State.stores_mk]
@[simp] theorem execHeartbeat_stores (p : Fin 6) (s : State) : (execHeartbeat p s).Keeps s := by simp [execHeartbeat]
@[simp] theorem State.onPair_part {p : Part} (hs : p ≠ .slots) (hg : p ≠ .gfp) (hc : p ≠ .calendars) (s : State) (ws : List Nat) :
    (s.onPair ws).stores.get p = s.stores.get p := by
  dsimp only [State.onPair]
  simp [↓State.sendPair_stores, ↓State.stores_ite, ↓State.stores_mk, hs, hg, hc]
theorem execPair_part {p : Part} (hs : p ≠ .slots) (hg : p ≠ .gfp) (hc : p ≠ .calendars) (s : State) :
    (execPair s).KeepsPart p s := by
  simp [execPair, hs, hg, hc]
@[simp] theorem State.mirImage_part {p : Part} (hg : p ≠ .gfp) (hc : p ≠ .calendars) (s : State) (c : List Nat) :
    (s.mirImage c).stores.get p = s.stores.get p := by
  dsimp only [State.mirImage]
  simp [↓State.switchBlocks_part, ↓State.vintSet_stores, ↓State.wr_stores, ↓State.stores_ite, ↓State.stores_mk, hg, hc]
@[simp] theorem State.mirCommit_stores (s : State) (c : List Nat) : (s.mirCommit c).stores = s.stores := by
  unfold State.mirCommit
  split <;> simp [↓State.stores_mk]
@[simp] theorem State.mirOutcome_part {p : Part} (hg : p ≠ .gfp) (hc : p ≠ .calendars) (s : State) (c : List Nat) :
    (s.mirOutcome c).stores.get p = s.stores.get p := by
  unfold State.mirOutcome
  dsimp only
  repeat' split
  all_goals simp [hg, hc]
@[simp] theorem State.mirGrids_stores (s : State) (ws : List Nat) : (s.mirGrids ws).stores = s.stores := by
  induction s, ws using State.mirGrids.induct with
  | case1 s k n a b ws ih => rw [State.mirGrids, ih]; simp
  | case2 s ws h => rw [State.mirGrids]; exact h
@[simp] theorem State.mirKey_part {p : Part} (h : p ≠ .slots) (s : State) (c : List Nat) :
    (s.mirKey c).stores.get p = s.stores.get p := by
  unfold State.mirKey
  dsimp only
  repeat' split
  all_goals simp [↓State.stores_mk, h]
@[simp] theorem State.mirDomain_stores (s : State) (c : List Nat) : (s.mirDomain c).stores = s.stores := by simp [State.mirDomain]
@[simp] theorem State.mirItem_part {p : Part} (hs : p ≠ .slots) (hg : p ≠ .gfp) (hc : p ≠ .calendars) (s : State) (typ : Nat)
    (c : List Nat) : (s.mirItem typ c).stores.get p = s.stores.get p := by
  dsimp only [State.mirItem]
  simp [↓State.stores_ite, ↓State.stores_mk, hs, hg, hc]
@[simp] theorem State.onMirror_part {p : Part} (hs : p ≠ .slots) (hg : p ≠ .gfp) (hc : p ≠ .calendars) (s : State) (ws
    : List Nat) :
    (s.onMirror ws).stores.get p = s.stores.get p := by
  dsimp only [State.onMirror]
  simp [↓State.mirItem_part, ↓State.wr_stores, ↓State.mirrorGap_stores, ↓State.stores_ite, ↓State.stores_mk, hs, hg, hc]
theorem execMirror_part {p : Part} (hs : p ≠ .slots) (hg : p ≠ .gfp) (hc : p ≠ .calendars) (s : State) :
    (execMirror s).KeepsPart p s := by
  simp [execMirror, hs, hg, hc]

/-! ### Ageing -/

@[simp] theorem execSentinelPassStart_stores (s : State) : (execSentinelPassStart s).Keeps s := by
  simp [execSentinelPassStart, ↓State.stores_mk]
@[simp] theorem State.siteShift_stores (s : State) (k prot stress : Nat) : (s.siteShift k prot stress).2.stores = s.stores := by
  unfold State.siteShift
  dsimp only
  split <;> simp
@[simp] theorem State.siteEnd_stores (s : State) (k : Nat) (v : Option (Nat × Nat)) : (s.siteEnd k v).stores = s.stores := by
  unfold State.siteEnd
  split <;> simp
@[simp] theorem State.eyeEnd_stores (s : State) (l mv : Nat) : (s.eyeEnd l mv).stores = s.stores := by simp [State.eyeEnd]
@[simp] theorem State.ageStat_stores (s : State) : s.ageStat.stores = s.stores := by
  unfold State.ageStat
  split <;> simp
@[simp] theorem execSentinelPassEnd_stores (sites : List (Option (Nat × Nat))) (eyes : List Nat) (s : State) :
    (execSentinelPassEnd sites eyes s).Keeps s := by
  simp [execSentinelPassEnd, ↓State.stores_mk]
theorem execAgeingRecordWrite_part {p : Part} (h : p ≠ .cask) (hours : Nat) (ok1 ok2 : Bool) (s : State) :
    (execAgeingRecordWrite hours ok1 ok2 s).KeepsPart p s := by
  dsimp only [execAgeingRecordWrite]
  simp [↓Out.keepsPart_next, ↓State.stores_ite, ↓Stores.get_ite, ↓State.wr_stores, ↓State.caskProgram_part,
      ↓State.caskErase_part, ↓State.stores_mk, h]
@[simp] theorem execAvsVout_stores (ok : Bool) (s : State) : (execAvsVout ok s).Keeps s := by
  unfold execAvsVout
  split <;> simp [↓State.stores_mk]

/-! ### Package -/

theorem execCaskSave_part {p : Part} (h : p ≠ .cask) (i : Fin 8) (verified : Bool) (s : State) :
    (execCaskSave i verified s).KeepsPart p s := by
  simp [execCaskSave, h]
@[simp] theorem State.caskGo_stores (s : State) (op : Nat) : (s.caskGo op).stores = s.stores := by
  simp [State.caskGo, ↓State.stores_mk]
@[simp] theorem execCaskWinRead_stores (s : State) : (execCaskWinRead s).Keeps s := by simp [execCaskWinRead]
@[simp] theorem execCaskWinProgram_stores (s : State) : (execCaskWinProgram s).Keeps s := by simp [execCaskWinProgram]
@[simp] theorem execCaskWinErase_stores (s : State) : (execCaskWinErase s).Keeps s := by simp [execCaskWinErase]
@[simp] theorem State.winNext_stores (s : State) (a : Nat) : (s.winNext a).stores = s.stores := by simp [State.winNext]
@[simp] theorem State.caskFailed_part {p : Part} (h : p ≠ .cask) (s : State) (op a d : Nat) :
    (s.caskFailed op a d).stores.get p = s.stores.get p := by
  dsimp only [State.caskFailed]
  simp [↓State.caskErase_part, ↓State.stores_mk, h]
theorem execCaskWinDone_part {p : Part} (h : p ≠ .cask) (err : Bool) (s : State) : (execCaskWinDone err s).KeepsPart p s := by
  unfold execCaskWinDone
  rw [Out.keepsPart_next]
  split
  · rfl
  · dsimp only
    repeat' split
    all_goals simp [↓State.winNext_stores, ↓State.wr_stores, ↓State.caskFailed_part, ↓State.caskProgram_part, ↓State.caskErase_part,
      ↓State.stores_mk, h]
theorem execOtpProg_part {p : Part} (ho : p ≠ .otpOwner) (hv : p ≠ .otpKcv) (hk : p ≠ .devKek) (field : Byte) (value : BitVec 384)
    (vpp tck : Bool) (s : State) : (execOtpProg field value vpp tck s).KeepsPart p s := by
  unfold execOtpProg
  rw [Out.keepsPart_next]
  dsimp only
  repeat' split
  all_goals cases p <;> first | rfl | contradiction
@[simp] theorem State.fesGo_stores (s : State) (i : Nat) (read : Bool) : (s.fesGo i read).stores = s.stores := by
  simp [State.fesGo, ↓State.stores_mk]
@[simp] theorem execFesWrite_stores (i : Fin 8) (s : State) : (execFesWrite i s).Keeps s := by simp [execFesWrite]
@[simp] theorem execFesRead_stores (i : Fin 8) (s : State) : (execFesRead i s).Keeps s := by simp [execFesRead]
@[simp] theorem execFesFrameDone_stores (i : Fin 8) (tries : List (BitVec 24 × Byte)) (s : State) :
    (execFesFrameDone i tries s).Keeps s := by
  unfold execFesFrameDone
  dsimp only
  repeat' split
  all_goals simp [↓State.stores_mk]

/-! ### Host -/

@[simp] theorem State.hostRequest_stores (s : State) (f : Nat) : (s.hostRequest f).stores = s.stores := by
  simp [State.hostRequest]
@[simp] theorem State.answer32_stores (s : State) (dws : List (BitVec 32)) : (s.answer32 dws).stores = s.stores := by rfl
@[simp] theorem State.pushDw_stores (s : State) (f : Nat) (d : BitVec 32 × Bool) : (s.pushDw f d).stores = s.stores := by
  simp [State.pushDw]
@[simp] theorem execPushWindowWrite_stores (f : Fin 16) (dws : List (BitVec 32 × Bool)) (s : State) :
    (execPushWindowWrite f dws s).Keeps s := by
  simp [execPushWindowWrite]
@[simp] theorem State.popDw_stores (s : State) (f : Nat) : (s.popDw f).2.stores = s.stores := by
  unfold State.popDw
  split
  · rfl
  · split
    · next h => exact State.popWord_stores h
    · rfl
@[simp] theorem State.popDws_stores (s : State) (f n : Nat) : (s.popDws f n).2.stores = s.stores := by
  induction n generalizing s with
  | zero => rfl
  | succ n ih => exact (ih _).trans (State.popDw_stores ..)
@[simp] theorem execPopWindowRead_stores (f : Fin 16) (n : Nat) (s : State) : (execPopWindowRead f n s).Keeps s := by
  simp [execPopWindowRead]
@[simp] theorem execQueuePush_stores (q : Fin 41) (w : Word) (len : Nat) (withPop : Bool) (s : State) :
    (execQueuePush q w len withPop s).Keeps s := by
  unfold execQueuePush
  rw [Out.keeps_next]
  dsimp only
  split
  · split
    · next h => simp [State.popWord_stores h]
    · simp
  · simp
@[simp] theorem State.peakReset_stores (s : State) (q : Nat) : (s.peakReset q).stores = s.stores := by simp [State.peakReset]
@[simp] theorem execPeakRead_stores (q : Fin 41) (s : State) : (execPeakRead q s).Keeps s := by simp [execPeakRead]
@[simp] theorem State.queueReset_stores (s : State) (q : Nat) : (s.queueReset q).stores = s.stores := by simp [State.queueReset]
@[simp] theorem execQueueReset_stores (q : Fin 41) (s : State) : (execQueueReset q s).Keeps s := by simp [execQueueReset]
@[simp] theorem State.dmaEnable_stores (s : State) (d : Nat) : (s.dmaEnable d).stores = s.stores := by
  simp [State.dmaEnable, ↓State.stores_mk]
@[simp] theorem execDmaEnable_stores (d : Fin 18) (s : State) : (execDmaEnable d s).Keeps s := by simp [execDmaEnable]
theorem execDmaPacketWrite_part {p : Part} (h : p ≠ .hostMem) (d : Fin 18) (err : Bool) (s : State) :
    (execDmaPacketWrite d err s).KeepsPart p s := by
  unfold execDmaPacketWrite
  rw [Out.keepsPart_next]
  dsimp only
  repeat' split
  all_goals simp [↓State.withHif_part, h]
@[simp] theorem execEventOccurrence_stores (e : Fin 256) (data : Word) (s : State) : (execEventOccurrence e data s).Keeps s := by
  simp [execEventOccurrence, ↓State.stores_mk]
@[simp] theorem State.msixChange_stores (s : State) (f v : Nat) (c : MsixCause) : (s.msixChange f v c).stores = s.stores := by
  cases c <;> rfl
@[simp] theorem execMsixPendingSend_stores (f : Fin 16) (v : Nat) (why : MsixCause) (s : State) :
    (execMsixPendingSend f v why s).Keeps s := by
  simp [execMsixPendingSend]
@[simp] theorem State.resetFunction_part {p : Part} (h : p ≠ .slots) (s : State) (f : Nat) :
    (s.resetFunction f).stores.get p = s.stores.get p := by
  dsimp only [State.resetFunction]
  simp [↓State.msixReset_stores, ↓State.cipFlr_part, ↓State.queueReset_stores, ↓State.preempt_stores, ↓State.stores_ite,
    ↓Stores.get_ite, ↓State.stores_mk, h]
theorem execFunctionLevelReset_part {p : Part} (h : p ≠ .slots) (f : Fin 16) (s : State) :
    (execFunctionLevelReset f s).KeepsPart p s := by
  simp [execFunctionLevelReset, h]

/-! ### Executive -/

@[simp] theorem State.takeInner_stores (s : State) : s.takeInner.stores = s.stores := by
  unfold State.takeInner
  dsimp only
  repeat' split
  all_goals simp [↓State.stores_mk]
@[simp] theorem State.clearScratch_stores (s : State) (q : Nat) : (s.clearScratch q).stores = s.stores := by rfl
@[simp] theorem State.started_stores (s : State) (q : Nat) : (s.started q).stores = s.stores := by
  simp [State.started, ↓State.stores_mk]
@[simp] theorem State.startProgram_stores (s : State) (f q len : Nat) (ws : List Word) :
    (s.startProgram f q len ws).stores = s.stores := by
  unfold State.startProgram
  dsimp only
  split <;> simp [↓State.stores_mk]
@[simp] theorem State.rejectPkt_stores (s : State) (f len : Nat) (ws : List Word) (reason : Nat) :
    (s.rejectPkt f len ws reason).stores = s.stores := by
  unfold State.rejectPkt
  dsimp only
  repeat' split
  all_goals simp
@[simp] theorem execPacketDispatch_stores (s : State) : (execPacketDispatch s).Keeps s := by
  unfold execPacketDispatch
  dsimp only
  repeat' split
  all_goals simp [↓State.stores_mk]
@[simp] theorem execPacketTimeout_stores (q : Fin 16) (s : State) : (execPacketTimeout q s).Keeps s := by simp [execPacketTimeout]
@[simp] theorem execBudgetExpiry_stores (q : Fin 16) (s : State) : (execBudgetExpiry q s).Keeps s := by simp [execBudgetExpiry]
@[simp] theorem execSqWatchdogExpiry_stores (q : Fin 16) (s : State) : (execSqWatchdogExpiry q s).Keeps s := by
  simp [execSqWatchdogExpiry]
@[simp] theorem State.hostAbort_stores (s : State) (func : Nat) : (s.hostAbort func).stores = s.stores := by
  unfold State.hostAbort
  dsimp only
  split <;> simp
@[simp] theorem execHostAbort_stores (func : Fin 16) (s : State) : (execHostAbort func s).Keeps s := by simp [execHostAbort]
@[simp] theorem State.clearStore_part {p : Part} (h : p ≠ .store) (s : State) : s.clearStore.stores.get p = s.stores.get p := by
  cases p <;> first | rfl | contradiction
@[simp] theorem State.loadRefused_stores (s : State) : s.loadRefused.stores = s.stores := by simp [State.loadRefused]
@[simp] theorem State.loadBegin_part {p : Part} (h : p ≠ .store) (s : State) (withVerify : Bool) :
    (s.loadBegin withVerify).stores.get p = s.stores.get p := by
  dsimp only [State.loadBegin]
  simp [↓State.stores_ite, ↓State.stores_mk, h]
theorem execLoadBegin_part {p : Part} (h : p ≠ .store) (withVerify : Bool) (s : State) :
    (execLoadBegin withVerify s).KeepsPart p s := by
  simp [execLoadBegin, h]
@[simp] theorem State.keepStore_part {p : Part} (h : p ≠ .store) (s : State) (n : Nat) :
    (s.keepStore n).stores.get p = s.stores.get p := by
  cases p <;> first | rfl | contradiction
theorem State.withExec_part {p : Part} (h : p ≠ .store) (s : State) (x : Exec) :
    ({ s with exec := x } : State).stores.get p = s.stores.get p := by
  cases p <;> first | rfl | contradiction
@[simp] theorem State.loadWord_part {p : Part} (h : p ≠ .store) (s : State) (a : Nat) (w : Word) :
    (s.loadWord a w).stores.get p = s.stores.get p := by
  unfold State.loadWord
  dsimp only
  repeat' split
  all_goals simp [↓State.withExec_part, h]
@[simp] theorem State.loadData_part {p : Part} (h : p ≠ .store) (s : State) (w : Word) :
    (s.loadData w).stores.get p = s.stores.get p := by
  dsimp only [State.loadData]
  simp [h]
theorem execLoadData_part {p : Part} (h : p ≠ .store) (w : Word) (s : State) : (execLoadData w s).KeepsPart p s := by
  simp [execLoadData, h]
@[simp] theorem State.loadVerify_stores (s : State) (withBegin : Bool) : (s.loadVerify withBegin).stores = s.stores := by
  simp [State.loadVerify, ↓State.stores_mk]
@[simp] theorem execLoadVerify_stores (withBegin : Bool) (s : State) : (execLoadVerify withBegin s).Keeps s := by
  simp [execLoadVerify]
theorem execLoadVerifyDone_part {p : Part} (h : p ≠ .store) (s : State) : (execLoadVerifyDone s).KeepsPart p s := by
  simp [execLoadVerifyDone, h]

/-! ### Resets -/

@[simp] theorem State.carry_stores (old : State) (fs : List (Fld × List Nat)) (s : State) :
    (State.carry old fs s).stores = s.stores := by
  simp [State.carry]
@[simp] theorem State.unbooted_stores (s : State) (ph : BootPhase) : (s.unbooted ph).stores = s.stores := by
  simp [State.unbooted, ↓State.stores_mk]
@[simp] theorem State.latch_stores (s : State) (st : Straps) : (s.latch st).stores = s.stores := by
  simp [State.latch, ↓State.stores_mk]
@[simp] theorem State.toBoot_stores (s : State) (ph : BootPhase) : (s.toBoot ph).stores = s.stores := by rfl
theorem State.cold_part {p : Part} (hp : p.fixed = true) (s : State) (ph : BootPhase) :
    (s.cold ph).stores.get p = s.stores.get p := by
  dsimp only [State.cold]
  rw [State.unbooted_stores, State.carry_stores]
  cases p <;> first | rfl | contradiction
theorem State.fundamental_part {p : Part} (hp : p.fixed = true) (s : State) :
    s.fundamental.stores.get p = s.stores.get p := by
  dsimp only [State.fundamental]
  rw [State.unbooted_stores, State.carry_stores, forEach_stores (fun _ _ => State.setConv_stores ..)]
  cases p <;> first | rfl | contradiction
theorem execColdStart_part {p : Part} (hp : p.fixed = true) (st : Straps) (s : State) : (execColdStart st s).KeepsPart p s := by
  simp [execColdStart, State.cold_part hp]
theorem execVddaonLow_part {p : Part} (hp : p.fixed = true) (s : State) : (execVddaonLow s).KeepsPart p s := by
  simp [execVddaonLow, State.cold_part hp]
theorem execPerstNAssert_part {p : Part} (hp : p.fixed = true) (s : State) : (execPerstNAssert s).KeepsPart p s := by
  simp [execPerstNAssert, State.fundamental_part hp]
@[simp] theorem execPerstNDeassert_stores (st : Straps) (s : State) : (execPerstNDeassert st s).Keeps s := by
  simp [execPerstNDeassert]
@[simp] theorem execUpReceiverFirstLock_stores (st : Straps) (s : State) : (execUpReceiverFirstLock st s).Keeps s := by
  simp [execUpReceiverFirstLock]
@[simp] theorem execOscdlyExpiry_stores (present : Bool) (s : State) : (execOscdlyExpiry present s).Keeps s := by
  simp [execOscdlyExpiry, ↓State.stores_mk]
@[simp] theorem execHostClockFound_stores (s : State) : (execHostClockFound s).Keeps s := by simp [execHostClockFound]
@[simp] theorem execMainLoopLock_stores (s : State) : (execMainLoopLock s).Keeps s := by simp [execMainLoopLock, ↓State.stores_mk]
@[simp] theorem State.bootLoad_part {p : Part} (h : p ≠ .store) (s : State) (k : Nat) :
    (s.bootLoad k).stores.get p = s.stores.get p := by
  cases p <;> first | rfl | contradiction
theorem execBootstrapImageVerify_part {p : Part} (h : p ≠ .store) (cask : Option (Bool × Fin 65)) (s : State) :
    (execBootstrapImageVerify cask s).KeepsPart p s := by
  unfold execBootstrapImageVerify
  cases cask <;> simp [h]
@[simp] theorem State.newestOf_stores (s : State) (rs : List (Nat × Nat)) : (s.newestOf rs).2.stores = s.stores := by
  unfold State.newestOf
  split
  · rfl
  · split <;> simp
@[simp] theorem State.loadRecords_stores (s : State) (i : Nat) : (s.loadRecords i).stores = s.stores := by
  unfold State.loadRecords
  dsimp only
  split <;> simp
@[simp] theorem State.loadAgeing_stores (s : State) : s.loadAgeing.stores = s.stores := by
  unfold State.loadAgeing
  dsimp only
  repeat' split
  all_goals simp [↓State.stores_mk]
theorem State.toBoot_part {p : Part} {v : p.Val} {s : State} (h : s.stores.get p = v) :
    (({ s with ctl := { s.ctl with powerDown := true } }).toBoot .done).stores.get p = v := h
theorem execPowerUpComplete_part {p : Part} (hg : p ≠ .gfp) (hc : p ≠ .calendars) (rescue : Option (List (Addr × Word))) (s
    : State) :
    (execPowerUpComplete rescue s).KeepsPart p s := by
  unfold execPowerUpComplete
  rw [Out.keepsPart_next]
  split
  · refine State.toBoot_part ?_
    rw [State.stores_ite, State.wr_stores, ite_self, State.wr_stores, State.wr_stores, State.switchBlocks_part hg hc,
      State.loadAgeing_stores, forEach_stores fun i t => State.loadRecords_stores ..]
    rfl
  · rfl
@[simp] theorem State.setCrossing_stores (s : State) (x : Nat) (c : Crossing) : (s.setCrossing x c).stores = s.stores := by rfl
@[simp] theorem State.flushCrossing_stores (s : State) (x : Nat) (sideB : Bool) (items : Nat) :
    (s.flushCrossing x sideB items).stores = s.stores := by
  simp [State.flushCrossing]
@[simp] theorem execCrossingReset_stores (x : Nat) (sideB : Bool) (items : Nat) (s : State) :
    (execCrossingReset x sideB items s).Keeps s := by
  simp [execCrossingReset]
@[simp] theorem execCrossingReq_stores (x : Nat) (s : State) : (execCrossingReq x s).Keeps s := by simp [execCrossingReq]
@[simp] theorem execCrossingAck_stores (x : Nat) (s : State) : (execCrossingAck x s).Keeps s := by simp [execCrossingAck]
@[simp] theorem execCrossingReqResend_stores (x : Nat) (s : State) : (execCrossingReqResend x s).Keeps s := by
  simp [execCrossingReqResend]
@[simp] theorem State.stopSeq_stores (s : State) (q : Nat) : (s.stopSeq q).stores = s.stores := by simp [State.stopSeq]
@[simp] theorem State.ccReset_stores (s : State) (byWdog : Bool) : (s.ccReset byWdog).stores = s.stores := by
  unfold State.ccReset
  dsimp only
  repeat' split
  all_goals simp [↓State.stores_mk]
@[simp] theorem execCcResetCmd_stores (s : State) : (execCcResetCmd s).Keeps s := by simp [execCcResetCmd]
@[simp] theorem execCcWatchdogExpiry_stores (within60s : Bool) (s : State) : (execCcWatchdogExpiry within60s s).Keeps s := by
  simp [execCcWatchdogExpiry, ↓State.stores_mk]
@[simp] theorem State.releaseCrossing_stores (s : State) (x : Nat) : (s.releaseCrossing x).stores = s.stores := by
  simp [State.releaseCrossing]
@[simp] theorem State.resetCrossing_stores (s : State) (i : Nat) : (s.resetCrossing i).stores = s.stores := by
  simp [State.resetCrossing]
@[simp] theorem State.reapplyCurrent_stores (s : State) : s.reapplyCurrent.stores = s.stores := by
  simp [State.reapplyCurrent, ↓State.stores_mk]
@[simp] theorem State.executiveRestart_stores (s : State) : s.executiveRestart.stores = s.stores := by
  dsimp only [State.executiveRestart]
  simp [↓State.reapplyCurrent_stores, ↓State.stores_ite, ↓State.fatal_stores, ↓State.stores_mk]
@[simp] theorem execExecutiveRestart_stores (s : State) : (execExecutiveRestart s).Keeps s := by simp [execExecutiveRestart]

/-! ### Faults -/

@[simp] theorem State.discardBlocks_part {p : Part} (h : p ≠ .pool) (s : State) (i : Nat) :
    (s.discardBlocks i).stores.get p = s.stores.get p := by
  dsimp only [State.discardBlocks]
  simp [↓State.poolMarks_stores, ↓State.withPool_part, h]
@[simp] theorem State.relockSlice_part {p : Part} (h : p ≠ .pool) (s : State) (i : Nat) :
    (s.relockSlice i).stores.get p = s.stores.get p := by
  simp [State.relockSlice, h]
@[simp] theorem State.resetSlice_part {p : Part} (h : p ≠ .pool) (s : State) (i : Nat) :
    (s.resetSlice i).stores.get p = s.stores.get p := by
  simp [State.resetSlice, h]
@[simp] theorem State.sliceResetCmd_part {p : Part} (h : p ≠ .pool) (s : State) (i : Nat) :
    (s.sliceResetCmd i).stores.get p = s.stores.get p := by
  simp [State.sliceResetCmd, h]
theorem execSliceResetCmd_part {p : Part} (h : p ≠ .pool) (i : Fin 8) (s : State) : (execSliceResetCmd i s).KeepsPart p s := by
  simp [execSliceResetCmd, h]
theorem execFramePulseWatchdog_part {p : Part} (h : p ≠ .pool) (i : Fin 8) (within1s : Bool) (s : State) :
    (execFramePulseWatchdog i within1s s).KeepsPart p s := by
  dsimp only [execFramePulseWatchdog]
  simp [↓Out.keepsPart_next, ↓State.stores_ite, ↓Stores.get_ite, ↓State.raise_stores, ↓State.stores_mk, h]
theorem execDpSliceHoldEnd_part {p : Part} (h : p ≠ .pool) (i : Fin 8) (s : State) : (execDpSliceHoldEnd i s).KeepsPart p s := by
  dsimp only [execDpSliceHoldEnd]
  simp [↓Out.keepsPart_next, ↓State.stores_ite, ↓Stores.get_ite, ↓State.relockSlice_part, ↓State.stores_mk, h]
@[simp] theorem State.markFrame_stores (s : State) (i : Nat) : (s.markFrame i).stores = s.stores := by simp [State.markFrame]
@[simp] theorem State.stallDrops_stores (s : State) (b i : Nat) : (s.stallDrops b i).stores = s.stores := by
  simp [State.stallDrops]
@[simp] theorem execDpStall_stores (b : Fin 16) (i : Fin 8) (stage : BitVec 8) (s : State) :
    (execDpStall b i stage s).Keeps s := by
  simp [execDpStall]
@[simp] theorem execSharedStageWatchdog_stores (b : Fin 16) (within10s : Bool) (s : State) :
    (execSharedStageWatchdog b within10s s).Keeps s := by
  dsimp only [execSharedStageWatchdog]
  simp [↓Out.keeps_next, ↓State.stores_ite, ↓State.fatal_stores, ↓State.stores_mk]
@[simp] theorem execCalEngineGrant_stores (s : State) : (execCalEngineGrant s).Keeps s := by
  unfold execCalEngineGrant
  rw [Out.keeps_next]
  split
  · rfl
  · split
    · rfl
    · exact State.startCal_stores ..

/-! ### Fabric -/

@[simp] theorem execGateCloseRequest_stores (b : Fin 16) (busy : Bool) (s : State) : (execGateCloseRequest b busy s).Keeps s := by
  simp [execGateCloseRequest]
@[simp] theorem State.readEffect_stores (s : State) (addr : Nat) (is : List Nat) : (s.readEffect addr is).stores = s.stores := by
  simp [State.readEffect]
@[simp] theorem State.fabricRead_stores (s : State) (a : Nat) : (s.fabricRead a).2.stores = s.stores := by
  unfold State.fabricRead
  dsimp only
  repeat' split
  all_goals simp
@[simp] theorem State.fieldWrite_stores (s : State) (is : List Nat) (w : Nat) (f : Fld) :
    (s.fieldWrite is w f).stores = s.stores := by
  unfold State.fieldWrite
  split <;> simp
@[simp] theorem State.tdacMoved_stores (s old : State) : (s.tdacMoved old).stores = s.stores := by
  simp [State.tdacMoved, ↓State.stores_mk]
@[simp] theorem State.chainMoved_stores (s old : State) (c : Nat) : (s.chainMoved old c).stores = s.stores := by
  simp [State.chainMoved]
@[simp] theorem State.liveEffect_part {p : Part} (h : p ≠ .store) (s old : State) (addr : Nat) (is : List Nat) (w : Nat) :
    (s.liveEffect old addr is w).stores.get p = s.stores.get p := by
  dsimp only [State.liveEffect]
  simp [↓State.stores_ite, ↓State.stores_mk, h]
@[simp] theorem State.run_stores {s : State} {f : State → Out} (h : (f s).Keeps s) : (s.run f).stores = s.stores := by
  unfold State.run
  split
  · exact h _ ‹_›
  · rfl
@[simp] theorem State.run_part {p : Part} {s : State} {f : State → Out} (h : (f s).KeepsPart p s) :
    (s.run f).stores.get p = s.stores.get p := by
  unfold State.run
  split
  · exact h _ ‹_›
  · rfl
@[simp] theorem State.vtgCommand_stores (s : State) (w : Nat) : (s.vtgCommand w).stores = s.stores := by
  unfold State.vtgCommand
  split <;> simp
@[simp] theorem State.keyCommand_part {p : Part} (hs : p ≠ .slots) (hk : p ≠ .keks) (s : State) (f : Nat) :
    (s.keyCommand f).stores.get p = s.stores.get p := by
  unfold State.keyCommand
  split <;> simp [hs, hk]
@[simp] theorem State.accCommand_stores (s : State) : s.accCommand.stores = s.stores := by
  unfold State.accCommand
  split
  · exact State.run_stores (execAccRead_stores _ _)
  · exact State.run_stores (execAccWrite_stores _)
  · exact State.run_stores (execAccRawWrite_stores _)
  · simp
@[simp] theorem State.pprCommand_stores (s : State) : s.pprCommand.stores = s.stores :=
  State.run_stores (execPprGo_stores _ _)
theorem State.command_part {p : Part} (hp : p.fixed = true) {rfw : State → Nat → State}
    (hr : ∀ t w, (rfw t w).stores.get p = t.stores.get p) (s : State) (addr : Nat) (is : List Nat) (w : Nat) :
    (State.command rfw s addr is w).stores.get p = s.stores.get p := by
  unfold State.command
  simp [hr, Part.ne_of_fixed hp]
theorem State.regWrite_part {p : Part} (hp : p.fixed = true) {rfw : State → Nat → State}
    (hr : ∀ t w, (rfw t w).stores.get p = t.stores.get p) (s : State) (gated : Bool) (r : Reg) (is : List Nat) (w : Nat) :
    (State.regWrite rfw s gated r is w).2.stores.get p = s.stores.get p := by
  simp [State.regWrite, State.command_part hp hr, Part.ne_of_fixed hp]
theorem State.fabricWriteWith_part {p : Part} (hp : p.fixed = true) {rfw : State → Nat → State}
    (hr : ∀ t w, (rfw t w).stores.get p = t.stores.get p) (s : State) (a w : Nat) :
    (State.fabricWriteWith rfw s a w).2.stores.get p = s.stores.get p := by
  unfold State.fabricWriteWith
  dsimp only
  split
  · rfl
  · split
    · rfl
    · simp [State.regWrite_part hp hr]
@[simp] theorem State.rfwEnd_stores (s : State) (w status : Nat) : (s.rfwEnd w status).stores = s.stores := by
  simp [State.rfwEnd, ↓State.stores_mk]
@[simp] theorem State.innerRead_stores (s : State) (a : Nat) : (s.innerRead a).2.stores = s.stores := by
  unfold State.innerRead
  split <;> simp
theorem State.innerWrite_part {p : Part} {wr : State → Nat → Nat → Bool × State}
    (hw : ∀ t a w, (wr t a w).2.stores.get p = t.stores.get p) (s : State) (a w : Nat) :
    (State.innerWrite wr s a w).2.stores.get p = s.stores.get p := by
  unfold State.innerWrite
  split
  · rfl
  · exact hw ..
theorem State.rfwOwn_part {p : Part} {wr : State → Nat → Nat → Bool × State}
    (hw : ∀ t a w, (wr t a w).2.stores.get p = t.stores.get p) (s : State) (w : Nat) :
    (State.rfwOwn wr s w).stores.get p = s.stores.get p := by
  have hr := State.innerRead_stores s (s.rd F.PRY_RFW_ADDR_value [w])
  unfold State.rfwOwn
  dsimp only
  split
  · simp [State.innerWrite_part hw]
  · split <;> next h => rw [h] at hr; simp [hr]
theorem State.rfwStart_part {p : Part} {wr : State → Nat → Nat → Bool × State}
    (hw : ∀ t a w, (wr t a w).2.stores.get p = t.stores.get p) (s : State) (w : Nat) :
    (State.rfwStart wr s w).stores.get p = s.stores.get p := by
  dsimp only [State.rfwStart]
  simp [State.rfwOwn_part hw, ↓State.pryTx_stores, ↓State.stores_ite, ↓State.stores_mk]
theorem State.writeDepth_part {p : Part} (hp : p.fixed = true) (n : Nat) (s : State) (a w : Nat) :
    (State.writeDepth n s a w).2.stores.get p = s.stores.get p := by
  induction n generalizing s a w with
  | zero => exact State.fabricWriteWith_part hp (rfw := fun s w => s.wr F.PRY_RFW_CMD_refused 1 [w]) (fun _ _ => rfl) ..
  | succ n ih => exact State.fabricWriteWith_part hp (State.rfwStart_part ih) ..
@[simp] theorem State.fabricWrite_part {p : Part} (hp : p.fixed = true) (s : State) (a w : Nat) :
    (s.fabricWrite a w).2.stores.get p = s.stores.get p := State.writeDepth_part hp ..
theorem execFabricWrite_part {p : Part} (hp : p.fixed = true) (addr : Addr) (value : Word) (s : State) :
    (execFabricWrite addr value s).KeepsPart p s := by
  simp [execFabricWrite, hp]
@[simp] theorem State.hostError_stores (s : State) (a : Nat) : (s.hostError a).stores = s.stores := by simp [State.hostError]
@[simp] theorem State.barRead_stores (s : State) (a : Nat) : (s.barRead a).2.stores = s.stores := by
  have hr := State.fabricRead_stores s a
  unfold State.barRead
  split <;> next h => rw [h] at hr; simpa using hr
@[simp] theorem State.barWrite_part {p : Part} (hp : p.fixed = true) (s : State) (a : Nat) (d : BitVec 32 × Bool) :
    (s.barWrite a d).stores.get p = s.stores.get p := by
  simp [State.barWrite, hp]
@[simp] theorem State.barReads_stores (s : State) (a n : Nat) : (s.barReads a n).2.stores = s.stores := by
  induction n generalizing s a with
  | zero => rfl
  | succ n ih => exact (ih _ _).trans (State.barRead_stores ..)
@[simp] theorem State.barWrites_part {p : Part} (hp : p.fixed = true) (s : State) (a : Nat) (ds : List (BitVec 32 × Bool)) :
    (s.barWrites a ds).stores.get p = s.stores.get p := by
  induction ds generalizing s a with
  | nil => rfl
  | cons d ds ih => exact (ih _ _).trans (State.barWrite_part hp ..)
@[simp] theorem State.pcieError_stores (s : State) (f bit : Nat) : (s.pcieError f bit).stores = s.stores := by rfl
@[simp] theorem State.bar0Request_part {p : Part} (hp : p.fixed = true) (s : State) (write : Bool) (a : Nat) (dws : List
    (BitVec 32 × Bool)) :
    (s.bar0Request write a dws).stores.get p = s.stores.get p := by
  simp [State.bar0Request, hp]
@[simp] theorem State.userRead_stores (s : State) (f o : Nat) : (s.userRead f o).2.stores = s.stores := by
  unfold State.userRead
  split
  · simp
  · split
    · rfl
    · split
      · rfl
      · split
        · rfl
        · split
          · next a _ =>
            have hr := State.fabricRead_stores s a
            split <;> next h => rw [h] at hr; exact hr
          · rfl
@[simp] theorem State.userWrite_part {p : Part} (hp : p.fixed = true) (s : State) (f o : Nat) (d : BitVec 32 × Bool) :
    (s.userWrite f o d).stores.get p = s.stores.get p := by
  unfold State.userWrite
  dsimp only
  repeat' split
  all_goals simp [↓State.sendAllPending_stores, ↓State.stores_mk, hp]
@[simp] theorem State.userReads_stores (s : State) (f o n : Nat) : (s.userReads f o n).2.stores = s.stores := by
  induction n generalizing s o with
  | zero => rfl
  | succ n ih => exact (ih _ _).trans (State.userRead_stores ..)
@[simp] theorem State.userWrites_part {p : Part} (hp : p.fixed = true) (s : State) (f o : Nat) (ds : List (BitVec 32 × Bool)) :
    (s.userWrites f o ds).stores.get p = s.stores.get p := by
  induction ds generalizing s o with
  | nil => rfl
  | cons d ds ih => exact (ih _ _).trans (State.userWrite_part hp ..)
@[simp] theorem State.userRequest_part {p : Part} (hp : p.fixed = true) (s : State) (f : Nat) (write : Bool) (o : Nat)
    (dws : List (BitVec 32 × Bool)) : (s.userRequest f write o dws).stores.get p = s.stores.get p := by
  simp [State.userRequest, hp]
@[simp] theorem State.configWrite_stores (s : State) (f : Nat) (r : CfgReg) (d : BitVec 32) :
    (s.configWrite f r d).stores = s.stores := by
  unfold State.configWrite
  split <;> simp [↓State.stores_mk]
@[simp] theorem State.configRequest_stores (s : State) (f : Nat) (r : CfgReg) (write : Bool) (dws : List
    (BitVec 32 × Bool)) : (s.configRequest f r write dws).stores = s.stores := by
  unfold State.configRequest
  split <;> simp
theorem execBar0Access_part {p : Part} (hp : p.fixed = true) (space : HostSpace) (write : Bool) (addr : Addr)
    (dws : List (BitVec 32 × Bool)) (s : State) : (execBar0Access space write addr dws s).KeepsPart p s := by
  cases space <;> simp [execBar0Access, hp]

/-! ### Remote -/

@[simp] theorem State.rfwGo_part {p : Part} (hp : p.fixed = true) (s : State) (w op : Nat) :
    (s.rfwGo w op).stores.get p = s.stores.get p :=
  State.rfwStart_part (State.fabricWrite_part hp) ..
theorem execRfwRead_part {p : Part} (hp : p.fixed = true) (w : Fin 4) (s : State) : (execRfwRead w s).KeepsPart p s := by
  simp [execRfwRead, hp]
theorem execRfwWrite_part {p : Part} (hp : p.fixed = true) (w : Fin 4) (s : State) : (execRfwWrite w s).KeepsPart p s := by
  simp [execRfwWrite, hp]
@[simp] theorem execRfwTimeout_stores (w : Fin 4) (s : State) : (execRfwTimeout w s).Keeps s := by simp [execRfwTimeout]
@[simp] theorem State.rfwResponse_stores (s : State) (w0 data : Nat) : (s.rfwResponse w0 data).stores = s.stores := by
  unfold State.rfwResponse
  split <;> simp
@[simp] theorem State.tunnelOn_stores (s : State) (p : Nat) (m : PryMsg) : (s.tunnelOn p m).stores = s.stores := by
  simp [State.tunnelOn]
@[simp] theorem execResponse_stores (p : Fin 6) (s : State) : (execResponse p s).Keeps s := by simp [execResponse]
@[simp] theorem State.tunnelWrite_part {p : Part} (hp : p.fixed = true) (s : State) (src a v : Nat) :
    (s.tunnelWrite src a v).2.stores.get p = s.stores.get p := by
  unfold State.tunnelWrite
  dsimp only
  split
  · simp [hp]
  · exact State.innerWrite_part (State.fabricWrite_part hp) ..
@[simp] theorem State.tunnelServe_part {p : Part} (hp : p.fixed = true) (s : State) (n : Nat) (m : PryMsg) :
    (s.tunnelServe n m).stores.get p = s.stores.get p := by
  have hr := State.innerRead_stores (if s.upClocked then s.hostActive else s) (m.words.getD 1 0)
  unfold State.tunnelServe
  dsimp only
  split
  · simp [hp]
  · split <;> next h => rw [h] at hr; simpa using congrArg (fun x : Stores => x.get p) hr
theorem execTunnelRequestRx_part {p : Part} (hp : p.fixed = true) (n : Fin 6) (s : State) :
    (execTunnelRequestRx n s).KeepsPart p s := by
  simp [execTunnelRequestRx, hp]

/-! ### Tsuile -/

@[simp] theorem State.fetchWord_stores (s : State) (pc : BitVec 19) : (s.fetchWord pc).2.stores = s.stores := by
  unfold State.fetchWord
  split <;> simp
@[simp] theorem State.fetch_stores (s : State) (q : Nat) : (s.fetch q).2.stores = s.stores := by
  unfold State.fetch
  dsimp only
  repeat' split
  all_goals simp
@[simp] theorem State.issue_stores {s : State} {body : Ins → State → State} (h : ∀ i t, (body i t).stores = t.stores) (q op
    : Nat) (tcheck : Bool) :
    (s.issue q op tcheck body).stores = s.stores := by
  unfold State.issue
  split
  · dsimp only
    split <;> simp [h]
  · rfl
@[simp] theorem State.issue_part {p : Part} {s : State} {body : Ins → State → State} (h : ∀ i t,
    (body i t).stores.get p = t.stores.get p)
    (q op : Nat) (tcheck : Bool) : (s.issue q op tcheck body).stores.get p = s.stores.get p := by
  unfold State.issue
  split
  · dsimp only
    split <;> simp [h]
  · rfl
@[simp] theorem State.onSeq_stores (s : State) (q : Nat) (f : Seq → Seq) : (s.onSeq q f).stores = s.stores := by
  simp [State.onSeq]
@[simp] theorem State.alone_stores (q op : Nat) (f : Ins → Seq → Seq) (s : State) : (s.alone q op f).Keeps s := by
  simp [State.alone]
@[simp] theorem execTrap_stores (q : Fin 16) (s : State) : (execTrap q s).Keeps s := by simp [execTrap]
@[simp] theorem execIllegalOpcode_stores (q : Fin 16) (s : State) : (execIllegalOpcode q s).Keeps s := by simp [execIllegalOpcode]
@[simp] theorem execAdd_stores (q : Fin 16) (s : State) : (execAdd q s).Keeps s := by simp [execAdd]
@[simp] theorem execAddi_stores (q : Fin 16) (s : State) : (execAddi q s).Keeps s := by simp [execAddi]
@[simp] theorem execSub_stores (q : Fin 16) (s : State) : (execSub q s).Keeps s := by simp [execSub]
@[simp] theorem execSubi_stores (q : Fin 16) (s : State) : (execSubi q s).Keeps s := by simp [execSubi]
@[simp] theorem execMull_stores (q : Fin 16) (s : State) : (execMull q s).Keeps s := by simp [execMull]
@[simp] theorem execMulh_stores (q : Fin 16) (s : State) : (execMulh q s).Keeps s := by simp [execMulh]
@[simp] theorem execAnd_stores (q : Fin 16) (s : State) : (execAnd q s).Keeps s := by simp [execAnd]
@[simp] theorem execOr_stores (q : Fin 16) (s : State) : (execOr q s).Keeps s := by simp [execOr]
@[simp] theorem execXor_stores (q : Fin 16) (s : State) : (execXor q s).Keeps s := by simp [execXor]
@[simp] theorem execNot_stores (q : Fin 16) (s : State) : (execNot q s).Keeps s := by simp [execNot]
@[simp] theorem execShl_stores (q : Fin 16) (s : State) : (execShl q s).Keeps s := by simp [execShl]
@[simp] theorem execShr_stores (q : Fin 16) (s : State) : (execShr q s).Keeps s := by simp [execShr]
@[simp] theorem execSar_stores (q : Fin 16) (s : State) : (execSar q s).Keeps s := by simp [execSar]
@[simp] theorem execRot_stores (q : Fin 16) (s : State) : (execRot q s).Keeps s := by simp [execRot]
@[simp] theorem execCmp_stores (q : Fin 16) (s : State) : (execCmp q s).Keeps s := by simp [execCmp]
@[simp] theorem execCmpi_stores (q : Fin 16) (s : State) : (execCmpi q s).Keeps s := by simp [execCmpi]
@[simp] theorem execMin_stores (q : Fin 16) (s : State) : (execMin q s).Keeps s := by simp [execMin]
@[simp] theorem execMax_stores (q : Fin 16) (s : State) : (execMax q s).Keeps s := by simp [execMax]
@[simp] theorem execMov_stores (q : Fin 16) (s : State) : (execMov q s).Keeps s := by simp [execMov]
@[simp] theorem execLdi_stores (q : Fin 16) (s : State) : (execLdi q s).Keeps s := by simp [execLdi]
@[simp] theorem State.block_stores (s : State) (q : Nat) (w : Wait) : (s.block q w).stores = s.stores := by simp [State.block]
@[simp] theorem execLdl_stores (q : Fin 16) (s : State) : (execLdl q s).Keeps s := by simp [execLdl]
@[simp] theorem execStl_stores (q : Fin 16) (s : State) : (execStl q s).Keeps s := by simp [execStl]
@[simp] theorem State.branch_stores (q op : Nat) (cond : Seq → Bool) (s : State) : (s.branch q op cond).Keeps s := by
  simp [State.branch]
@[simp] theorem execBr_stores (q : Fin 16) (s : State) : (execBr q s).Keeps s := by simp [execBr]
@[simp] theorem execBz_stores (q : Fin 16) (s : State) : (execBz q s).Keeps s := by simp [execBz]
@[simp] theorem execBnz_stores (q : Fin 16) (s : State) : (execBnz q s).Keeps s := by simp [execBnz]
@[simp] theorem execBn_stores (q : Fin 16) (s : State) : (execBn q s).Keeps s := by simp [execBn]
@[simp] theorem execBc_stores (q : Fin 16) (s : State) : (execBc q s).Keeps s := by simp [execBc]
@[simp] theorem execBt_stores (q : Fin 16) (s : State) : (execBt q s).Keeps s := by simp [execBt]
@[simp] theorem execCall_stores (q : Fin 16) (s : State) : (execCall q s).Keeps s := by simp [execCall]
@[simp] theorem execRet_stores (q : Fin 16) (s : State) : (execRet q s).Keeps s := by simp [execRet]
@[simp] theorem execLoop_stores (q : Fin 16) (s : State) : (execLoop q s).Keeps s := by simp [execLoop]
@[simp] theorem execHalt_stores (q : Fin 16) (s : State) : (execHalt q s).Keeps s := by simp [execHalt]

/-! ### TsuileWaits -/

@[simp] theorem State.errorResponse_stores (s : State) (q : Nat) (e : Bool) (next : BitVec 19) (f : Seq → Seq) :
    (s.errorResponse q e next f).stores = s.stores := by
  simp [State.errorResponse]
@[simp] theorem State.accessDone_stores (s : State) (q : Nat) (next : BitVec 19) (f : Seq → Seq) :
    (s.accessDone q next f).stores = s.stores := by
  simp [State.accessDone]
@[simp] theorem State.frdError_stores (s : State) (q : Nat) (i : Ins) : (s.frdError q i).stores = s.stores := by
  simp [State.frdError]
@[simp] theorem State.plainError_stores (s : State) (q : Nat) (i : Ins) : (s.plainError q i).stores = s.stores := by
  simp [State.plainError]
@[simp] theorem execFrd_stores (q : Fin 16) (s : State) : (execFrd q s).Keeps s := by
  refine (Out.keeps_next ..).mpr (State.issue_stores (fun i t => ?_) ..)
  have hr := State.innerRead_stores t (i.fabricAddr (t.seq q))
  split <;> next h => rw [h] at hr; simp [hr]
@[simp] theorem State.writeDone_stores (q : Nat) (i : Ins) (r : Bool × State) : (State.writeDone q i r).stores = r.2.stores := by
  simp [State.writeDone]
theorem execFwr_part {p : Part} (hp : p.fixed = true) (q : Fin 16) (s : State) : (execFwr q s).KeepsPart p s := by
  simp [execFwr, State.innerWrite_part (State.fabricWrite_part hp)]
theorem execFrmw_part {p : Part} (hp : p.fixed = true) (q : Fin 16) (s : State) : (execFrmw q s).KeepsPart p s := by
  refine (Out.keepsPart_next ..).mpr (State.issue_part (fun i t => ?_) ..)
  have hr := State.innerRead_stores t (i.fabricAddr (t.seq q))
  dsimp only
  split <;> next h => rw [h] at hr; simp [State.innerWrite_part (State.fabricWrite_part hp), hr]
@[simp] theorem State.pollRead_stores (s : State) (q : Nat) (ad : Word) (a : Nat) (mask cmp : Word) (e : Bool) :
    (s.pollRead q ad a mask cmp e).stores = s.stores := by
  have hr := State.innerRead_stores s ad.toNat
  unfold State.pollRead
  dsimp only
  split <;> next h => rw [h] at hr; simp [hr]
@[simp] theorem execFpoll_stores (q : Fin 16) (s : State) : (execFpoll q s).Keeps s := by simp [execFpoll]
@[simp] theorem execFpollRead_stores (q : Fin 16) (s : State) : (execFpollRead q s).Keeps s := by
  unfold execFpollRead
  split <;> simp
@[simp] theorem State.accessTimedOut_stores (s : State) (q b : Nat) : (s.accessTimedOut q b).stores = s.stores := by
  unfold State.accessTimedOut
  dsimp only
  repeat' split
  all_goals simp
@[simp] theorem State.tunnelTimedOut_stores (s : State) (p b : Nat) : (s.tunnelTimedOut p b).stores = s.stores := by
  simp [State.tunnelTimedOut]
@[simp] theorem execFabricAccessTimeout_stores (b : Fin 16) (addr : Addr) (requester : Requester) (s : State) :
    (execFabricAccessTimeout b addr requester s).Keeps s := by
  unfold execFabricAccessTimeout
  split <;> simp
@[simp] theorem execClaim_stores (q : Fin 16) (s : State) : (execClaim q s).Keeps s := by simp [execClaim]
@[simp] theorem State.grantClaim_stores (s : State) (n : Nat) : (s.grantClaim n).stores = s.stores := by
  unfold State.grantClaim
  dsimp only
  split <;> simp
@[simp] theorem execClaimGrant_stores (n : Fin 256) (s : State) : (execClaimGrant n s).Keeps s := by simp [execClaimGrant]
@[simp] theorem execFree_stores (q : Fin 16) (s : State) : (execFree q s).Keeps s := by simp [execFree]
@[simp] theorem execYield_stores (q : Fin 16) (s : State) : (execYield q s).Keeps s := by simp [execYield]
@[simp] theorem execWaite_stores (q : Fin 16) (s : State) : (execWaite q s).Keeps s := by simp [execWaite]
@[simp] theorem State.completeEvent_stores (s : State) (q : Nat) : (s.completeEvent q).stores = s.stores := by
  unfold State.completeEvent
  split <;> simp
@[simp] theorem execWaiteComplete_stores (q : Fin 16) (s : State) : (execWaiteComplete q s).Keeps s := by simp [execWaiteComplete]
@[simp] theorem execWaitt_stores (q : Fin 16) (s : State) : (execWaitt q s).Keeps s := by simp [execWaitt]
@[simp] theorem State.completeTime_stores (s : State) (q : Nat) : (s.completeTime q).stores = s.stores := by
  unfold State.completeTime
  split <;> simp
@[simp] theorem execWaittComplete_stores (q : Fin 16) (s : State) : (execWaittComplete q s).Keeps s := by simp [execWaittComplete]
@[simp] theorem execSignal_stores (q : Fin 16) (s : State) : (execSignal q s).Keeps s := by simp [execSignal]
@[simp] theorem State.noteStep_stores (s : State) (q n : Nat) : (s.noteStep q n).stores = s.stores := by
  unfold State.noteStep
  split <;> simp [↓State.stores_mk]
@[simp] theorem execStep_stores (q : Fin 16) (s : State) : (execStep q s).Keeps s := by simp [execStep]
@[simp] theorem execJrec_stores (q : Fin 16) (s : State) : (execJrec q s).Keeps s := by simp [execJrec]
@[simp] theorem State.readScratch_stores (s : State) (q a : Nat) : (s.readScratch q a).2.stores = s.stores := by
  simp [State.readScratch]
@[simp] theorem State.readWords_stores (s : State) (q a n : Nat) : (s.readWords q a n).2.stores = s.stores := by
  induction n generalizing s a with
  | zero => rfl
  | succ n ih =>
    have hr := State.readScratch_stores s q a
    unfold State.readWords
    split
    · next h => rw [h] at hr; exact hr
    · next h => rw [h] at hr; exact (ih _ _).trans hr
@[simp] theorem execDone_stores (q : Fin 16) (s : State) : (execDone q s).Keeps s := by
  refine (Out.keeps_next ..).mpr (State.issue_stores (fun i t => ?_) ..)
  have hr := State.readWords_stores t q ((t.seq q).reg i.b).toNat i.m
  dsimp only
  split
  · simp
  · split
    · simp
    · split <;> next h => rw [h] at hr; simp [hr]
@[simp] theorem execVstg_stores (q : Fin 16) (s : State) : (execVstg q s).Keeps s := by
  refine (Out.keeps_next ..).mpr (State.issue_stores (fun i t => ?_) ..)
  dsimp only
  split
  · next h => simp [State.stage_stores h]
  · simp
@[simp] theorem execVcmt_stores (q : Fin 16) (s : State) : (execVcmt q s).Keeps s := by simp [execVcmt]
@[simp] theorem execVabt_stores (q : Fin 16) (s : State) : (execVabt q s).Keeps s := by simp [execVabt]
@[simp] theorem State.sendPacket_stores (s : State) (q dst : Nat) (ws : List Word) :
    (s.sendPacket q dst ws).stores = s.stores := by
  simp [State.sendPacket]
@[simp] theorem State.trySend_stores (s : State) (q a n dst : Nat) : (s.trySend q a n dst).stores = s.stores := by
  have hr := State.readWords_stores s q a n
  unfold State.trySend
  split
  · split <;> next h => rw [h] at hr; simp [hr]
  · simp
@[simp] theorem execSend_stores (q : Fin 16) (s : State) : (execSend q s).Keeps s := by simp [execSend]
@[simp] theorem State.retrySend_stores (s : State) (q : Nat) : (s.retrySend q).stores = s.stores := by
  unfold State.retrySend
  split <;> simp
@[simp] theorem execSendRoom_stores (q : Fin 16) (s : State) : (execSendRoom q s).Keeps s := by simp [execSendRoom]
@[simp] theorem State.beginRecv_stores (s : State) (q : Nat) : (s.beginRecv q).stores = s.stores := by
  unfold State.beginRecv
  dsimp only
  repeat' split
  all_goals simp
@[simp] theorem execRecv_stores (q : Fin 16) (s : State) : (execRecv q s).Keeps s := by simp [execRecv]
@[simp] theorem State.completeRecv_stores (s : State) (q : Nat) : (s.completeRecv q).stores = s.stores := by
  unfold State.completeRecv
  dsimp only
  split <;> simp
@[simp] theorem execRecvComplete_stores (q : Fin 16) (s : State) : (execRecvComplete q s).Keeps s := by simp [execRecvComplete]
@[simp] theorem execTnow_stores (q : Fin 16) (s : State) : (execTnow q s).Keeps s := by simp [execTnow, ↓State.stores_mk]
@[simp] theorem State.timedOut_stores (s : State) (q n : Nat) (f : Seq → Seq) : (s.timedOut q n f).stores = s.stores := by
  simp [State.timedOut]
@[simp] theorem State.settleWait_stores (s : State) (q : Nat) : (s.settleWait q).stores = s.stores := by
  unfold State.settleWait
  split <;> simp
@[simp] theorem State.expire_stores (s : State) (q : Nat) : (s.expire q).stores = s.stores := by
  unfold State.expire
  split <;> simp
@[simp] theorem execBlockingTimeout_stores (q : Fin 16) (s : State) : (execBlockingTimeout q s).Keeps s := by
  simp [execBlockingTimeout]

/-! ### Every command -/

/-- The commands that may write a part: the classes of `Obligations.StorageIsolation`. -/
def Part.writes : Part → Instr → Bool
  | .cask, c => caskCommand c
  | .otpOwner, .otpProg .. | .otpKcv, .otpProg .. | .devKek, .otpProg .. => true
  | .hostMem, .dmaPacketWrite .. | .hostMem, .msgServiceGrant .. => true
  | .store, c => resetCommand c || loadCommand c || fabricCommand c
  | .slots, c => resetCommand c || slotCommand c || twinCommand c || fabricCommand c
  | .keks, .kekLoad .. | .keks, .kekErase .. => true
  | .keks, c => resetCommand c || fabricCommand c
  | .pool, c => resetCommand c || poolCommand c || fabricCommand c
  | .gfp, c => resetCommand c || gfpCommand c || switchCommand c
  | .calendars, c => resetCommand c || switchCommand c
  | _, _ => false

theorem Part.ne_of_writes {p q : Part} {c : Instr} (hq : q.writes c = true) (hp : p.writes c = false) : p ≠ q := by
  rintro rfl
  exact absurd hq (by simp [hp])

theorem Part.fixed_of_reset {p : Part} {c : Instr} (hc : resetCommand c = true) (hp : p.writes c = false) : p.fixed = true := by
  cases p <;> first | rfl | (cases c <;> simp_all [Part.writes, resetCommand])

theorem Part.fixed_of_fabric {p : Part} {c : Instr} (hc : fabricCommand c = true) (hp : p.writes c = false) : p.fixed = true := by
  cases p <;> first | rfl | (cases c <;> simp_all [Part.writes, fabricCommand, switchCommand])

/-- A command leaves every part unchanged but those it writes: one case per command. -/
theorem exec_keepsPart {p : Part} {c : Instr} (hc : p.writes c = false) (s : State) : Out.KeepsPart (exec c s) p s := by
  cases c with
  | coldStart st => exact execColdStart_part (Part.fixed_of_reset rfl hc) st s
  | vddaonLow => exact execVddaonLow_part (Part.fixed_of_reset rfl hc) s
  | perstNAssert => exact execPerstNAssert_part (Part.fixed_of_reset rfl hc) s
  | perstNDeassert st => exact (execPerstNDeassert_stores st s).part _
  | oscdlyExpiry present => exact (execOscdlyExpiry_stores present s).part _
  | mainLoopLock => exact (execMainLoopLock_stores s).part _
  | bootstrapImageVerify cask => exact execBootstrapImageVerify_part (Part.ne_of_writes rfl hc) cask s
  | powerUpComplete rescue => exact execPowerUpComplete_part (Part.ne_of_writes rfl hc) (Part.ne_of_writes rfl hc) rescue s
  | reqDormant => exact (execReqDormant_stores s).part _
  | reqPrepare => exact (execReqPrepare_stores s).part _
  | reqService => exact (execReqService_stores s).part _
  | reqShadow => exact (execReqShadow_stores s).part _
  | reqProving => exact (execReqProving_stores s).part _
  | reqRecovery => exact (execReqRecovery_stores s).part _
  | reqPreviousMode => exact (execReqPreviousMode_stores s).part _
  | modeTransitionEnd => exact (execModeTransitionEnd_stores s).part _
  | sliceEnableHeldWake sl => exact (execSliceEnableHeldWake_stores sl s).part _
  | wakingComplete sl done => exact (execWakingComplete_stores sl done s).part _
  | wakeTimeout sl => exact (execWakeTimeout_stores sl s).part _
  | drainComplete sl us => exact (execDrainComplete_stores sl us s).part _
  | hostclkCoast => exact (execHostclkCoast_stores s).part _
  | hostclkFailDeclare => exact (execHostclkFailDeclare_stores s).part _
  | hostclkReturn => exact (execHostclkReturn_stores s).part _
  | hostclkFailClear => exact (execHostclkFailClear_stores s).part _
  | sscPeriodEnd => exact (execSscPeriodEnd_stores s).part _
  | gateCloseRequest b busy => exact (execGateCloseRequest_stores b busy s).part _
  | fabricAccessTimeout b addr requester => exact (execFabricAccessTimeout_stores b addr requester s).part _
  | fabricWrite addr value => exact execFabricWrite_part (Part.fixed_of_fabric rfl hc) addr value s
  | crossingReset x sideB items => exact (execCrossingReset_stores x sideB items s).part _
  | crossingReq x => exact (execCrossingReq_stores x s).part _
  | crossingAck x => exact (execCrossingAck_stores x s).part _
  | crossingReqResend x => exact (execCrossingReqResend_stores x s).part _
  | ccResetCmd => exact (execCcResetCmd_stores s).part _
  | ccWatchdogExpiry within60s => exact (execCcWatchdogExpiry_stores within60s s).part _
  | executiveRestart => exact (execExecutiveRestart_stores s).part _
  | sliceResetCmd sl => exact execSliceResetCmd_part (Part.ne_of_writes rfl hc) sl s
  | framePulseWatchdog sl within1s => exact execFramePulseWatchdog_part (Part.ne_of_writes rfl hc) sl within1s s
  | dpStall b sl stage => exact (execDpStall_stores b sl stage s).part _
  | sharedStageWatchdog b within10s => exact (execSharedStageWatchdog_stores b within10s s).part _
  | dpSliceHoldEnd sl => exact execDpSliceHoldEnd_part (Part.ne_of_writes rfl hc) sl s
  | thermalFault => exact (execThermalFault_stores s).part _
  | thermalClear => exact (execThermalClear_stores s).part _
  | recoveryRestart aged => exact (execRecoveryRestart_stores aged s).part _
  | givenUpClear => exact (execGivenUpClear_stores s).part _
  | hostSilenceExpiry => exact (execHostSilenceExpiry_stores s).part _
  | hostActivity => exact (execHostActivity_stores s).part _
  | packetDispatch => exact (execPacketDispatch_stores s).part _
  | packetTimeout q => exact (execPacketTimeout_stores q s).part _
  | budgetExpiry q => exact (execBudgetExpiry_stores q s).part _
  | sqWatchdogExpiry q => exact (execSqWatchdogExpiry_stores q s).part _
  | hostAbort func => exact (execHostAbort_stores func s).part _
  | loadBegin withVerify => exact execLoadBegin_part (Part.ne_of_writes rfl hc) withVerify s
  | loadData w => exact execLoadData_part (Part.ne_of_writes rfl hc) w s
  | loadVerify withBegin => exact (execLoadVerify_stores withBegin s).part _
  | loadVerifyDone => exact execLoadVerifyDone_part (Part.ne_of_writes rfl hc) s
  | trap q => exact (execTrap_stores q s).part _
  | illegalOpcode q => exact (execIllegalOpcode_stores q s).part _
  | add q => exact (execAdd_stores q s).part _
  | addi q => exact (execAddi_stores q s).part _
  | sub q => exact (execSub_stores q s).part _
  | subi q => exact (execSubi_stores q s).part _
  | mull q => exact (execMull_stores q s).part _
  | mulh q => exact (execMulh_stores q s).part _
  | and q => exact (execAnd_stores q s).part _
  | or q => exact (execOr_stores q s).part _
  | xor q => exact (execXor_stores q s).part _
  | not q => exact (execNot_stores q s).part _
  | shl q => exact (execShl_stores q s).part _
  | shr q => exact (execShr_stores q s).part _
  | sar q => exact (execSar_stores q s).part _
  | rot q => exact (execRot_stores q s).part _
  | cmp q => exact (execCmp_stores q s).part _
  | cmpi q => exact (execCmpi_stores q s).part _
  | min q => exact (execMin_stores q s).part _
  | max q => exact (execMax_stores q s).part _
  | mov q => exact (execMov_stores q s).part _
  | ldi q => exact (execLdi_stores q s).part _
  | ldl q => exact (execLdl_stores q s).part _
  | stl q => exact (execStl_stores q s).part _
  | frd q => exact (execFrd_stores q s).part _
  | fwr q => exact execFwr_part (Part.fixed_of_fabric rfl hc) q s
  | frmw q => exact execFrmw_part (Part.fixed_of_fabric rfl hc) q s
  | fpoll q => exact (execFpoll_stores q s).part _
  | fpollRead q => exact (execFpollRead_stores q s).part _
  | br q => exact (execBr_stores q s).part _
  | bz q => exact (execBz_stores q s).part _
  | bnz q => exact (execBnz_stores q s).part _
  | bn q => exact (execBn_stores q s).part _
  | bc q => exact (execBc_stores q s).part _
  | bt q => exact (execBt_stores q s).part _
  | call q => exact (execCall_stores q s).part _
  | ret q => exact (execRet_stores q s).part _
  | loop q => exact (execLoop_stores q s).part _
  | halt q => exact (execHalt_stores q s).part _
  | claim q => exact (execClaim_stores q s).part _
  | claimGrant n => exact (execClaimGrant_stores n s).part _
  | free q => exact (execFree_stores q s).part _
  | yield q => exact (execYield_stores q s).part _
  | waite q => exact (execWaite_stores q s).part _
  | waiteComplete q => exact (execWaiteComplete_stores q s).part _
  | waitt q => exact (execWaitt_stores q s).part _
  | waittComplete q => exact (execWaittComplete_stores q s).part _
  | signal q => exact (execSignal_stores q s).part _
  | blockingTimeout q => exact (execBlockingTimeout_stores q s).part _
  | step q => exact (execStep_stores q s).part _
  | jrec q => exact (execJrec_stores q s).part _
  | done q => exact (execDone_stores q s).part _
  | vstg q => exact (execVstg_stores q s).part _
  | vcmt q => exact (execVcmt_stores q s).part _
  | vabt q => exact (execVabt_stores q s).part _
  | send q => exact (execSend_stores q s).part _
  | sendRoom q => exact (execSendRoom_stores q s).part _
  | recv q => exact (execRecv_stores q s).part _
  | recvComplete q => exact (execRecvComplete_stores q s).part _
  | tnow q => exact (execTnow_stores q s).part _
  | stageGo andRead => exact (execStageGo_stores andRead s).part _
  | stageRead => exact (execStageRead_stores s).part _
  | vtgRet => exact (execVtgRet_stores s).part _
  | vtgAccept => exact (execVtgAccept_stores s).part _
  | vtgFail => exact (execVtgFail_stores s).part _
  | vtgWithdraw => exact (execVtgWithdraw_stores s).part _
  | vtgResetStaged => exact (execVtgResetStaged_stores s).part _
  | vtgLoadArch => exact (execVtgLoadArch_stores s).part _
  | vtgLoadRescue => exact (execVtgLoadRescue_stores s).part _
  | vtgRelease => exact (execVtgRelease_stores s).part _
  | vtgDomRet => exact (execVtgDomRet_stores s).part _
  | validationDone => exact (execValidationDone_stores s).part _
  | loadingDone memErr ahead => exact (execLoadingDone_stores memErr ahead s).part _
  | domainReleaseDeadline => exact (execDomainReleaseDeadline_stores s).part _
  | commitTakeEffect bnd => exact execCommitTakeEffect_part (Part.ne_of_writes rfl hc) (Part.ne_of_writes rfl hc) bnd s
  | probationCheckInterval => exact (execProbationCheckInterval_stores s).part _
  | probationEnd => exact (execProbationEnd_stores s).part _
  | returnTakeEffect superframe =>
    exact execReturnTakeEffect_part (Part.ne_of_writes rfl hc) (Part.ne_of_writes rfl hc) superframe s
  | pushWindowWrite f dws => exact (execPushWindowWrite_stores f dws s).part _
  | popWindowRead f n => exact (execPopWindowRead_stores f n s).part _
  | queuePush q w len withPop => exact (execQueuePush_stores q w len withPop s).part _
  | queueReset q => exact (execQueueReset_stores q s).part _
  | peakRead q => exact (execPeakRead_stores q s).part _
  | bar0Access space write addr dws => exact execBar0Access_part (Part.fixed_of_fabric rfl hc) space write addr dws s
  | functionLevelReset f => exact execFunctionLevelReset_part (Part.ne_of_writes rfl hc) f s
  | dmaEnable d => exact (execDmaEnable_stores d s).part _
  | dmaPacketWrite d err => exact execDmaPacketWrite_part (Part.ne_of_writes rfl hc) d err s
  | eventOccurrence e data => exact (execEventOccurrence_stores e data s).part _
  | msixPendingSend f v why => exact (execMsixPendingSend_stores f v why s).part _
  | recalRunCmd sl => exact (execRecalRunCmd_stores sl s).part _
  | recalAbortCmd sl => exact (execRecalAbortCmd_stores sl s).part _
  | converterTempReading sl temp => exact (execConverterTempReading_stores sl temp s).part _
  | recalIntervalExpiry sl => exact (execRecalIntervalExpiry_stores sl s).part _
  | calEngineGrant => exact (execCalEngineGrant_stores s).part _
  | spareMatchEnd sl adcs => exact (execSpareMatchEnd_stores sl adcs s).part _
  | runStepHandBack sl measured => exact (execRunStepHandBack_stores sl measured s).part _
  | runComplete sl dac => exact (execRunComplete_stores sl dac s).part _
  | restoreRotationComplete sl => exact (execRestoreRotationComplete_stores sl s).part _
  | caskSave sl verified => exact execCaskSave_part (Part.ne_of_writes rfl hc) sl verified s
  | clipWindow sl codes => exact (execClipWindow_stores sl codes s).part _
  | captureGo sl => exact (execCaptureGo_stores sl s).part _
  | captureStop sl => exact (execCaptureStop_stores sl s).part _
  | captureTrigger trig => exact (execCaptureTrigger_stores trig s).part _
  | captureSegmentDrained codes => exact (execCaptureSegmentDrained_stores codes s).part _
  | acqSignalDetect sl => exact (execAcqSignalDetect_stores sl s).part _
  | cdScanEnd sl coarse fine peak => exact (execCdScanEnd_stores sl coarse fine peak s).part _
  | clockLock sl off => exact (execClockLock_stores sl off s).part _
  | singularityCheck sl corrMilli => exact (execSingularityCheck_stores sl corrMilli s).part _
  | blindConverged sl dgd cd => exact (execBlindConverged_stores sl dgd cd s).part _
  | pilotSyncFound sl samples => exact (execPilotSyncFound_stores sl samples s).part _
  | carrierLock sl => exact (execCarrierLock_stores sl s).part _
  | acqStateLimit sl => exact (execAcqStateLimit_stores sl s).part _
  | inputLoss sl => exact (execInputLoss_stores sl s).part _
  | inputReturn sl => exact (execInputReturn_stores sl s).part _
  | holdExpiry sl => exact (execHoldExpiry_stores sl s).part _
  | trackSnrLoss sl => exact (execTrackSnrLoss_stores sl s).part _
  | acqRestart sl => exact (execAcqRestart_stores sl s).part _
  | cycleSlip sl y err => exact (execCycleSlip_stores sl y err s).part _
  | txFrameBoundary sl psd => exact execTxFrameBoundary_part (Part.ne_of_writes rfl hc) sl psd s
  | rateMuteStart sl => exact (execRateMuteStart_stores sl s).part _
  | synthRelock sl => exact (execSynthRelock_stores sl s).part _
  | blockArrival sl samples => exact execBlockArrival_part (Part.ne_of_writes rfl hc) sl samples s
  | iterationSlot => exact execIterationSlot_part (Part.ne_of_writes rfl hc) s
  | reorderRelease sl => exact execReorderRelease_part (Part.ne_of_writes rfl hc) sl s
  | blockSyncTrial sl => exact (execBlockSyncTrial_stores sl s).part _
  | blockSyncLost sl => exact (execBlockSyncLost_stores sl s).part _
  | outerGroupDecode sl => exact (execOuterGroupDecode_stores sl s).part _
  | marginInterval sl => exact execMarginInterval_part (Part.ne_of_writes rfl hc) sl s
  | tendrilPacketStart sl => exact (execTendrilPacketStart_stores sl s).part _
  | tendrilPacketSent sl => exact (execTendrilPacketSent_stores sl s).part _
  | helloInterval sl => exact (execHelloInterval_stores sl s).part _
  | tendrilDetection sl cands => exact (execTendrilDetection_stores sl cands s).part _
  | tendrilHeaderDecode sl decided => exact (execTendrilHeaderDecode_stores sl decided s).part _
  | tendrilReceptionEnd sl decided => exact (execTendrilReceptionEnd_stores sl decided s).part _
  | hello sl => exact (execHello_stores sl s).part _
  | propose sl => exact (execPropose_stores sl s).part _
  | accept sl => exact (execAccept_stores sl s).part _
  | refuse sl => exact (execRefuse_stores sl s).part _
  | cancel sl => exact (execCancel_stores sl s).part _
  | returnMsg sl => exact (execReturnMsg_stores sl s).part _
  | switch sl => exact (execSwitch_stores sl s).part _
  | mailboxPacketRx sl => exact (execMailboxPacketRx_stores sl s).part _
  | proposalHoldExpiry sl => exact (execProposalHoldExpiry_stores sl s).part _
  | proposeRetry sl => exact (execProposeRetry_stores sl s).part _
  | agreementCutoff => exact (execAgreementCutoff_stores s).part _
  | mailboxGo sl => exact (execMailboxGo_stores sl s).part _
  | mailboxRelease sl => exact (execMailboxRelease_stores sl s).part _
  | fasCandidateCheck sl => exact (execFasCandidateCheck_stores sl s).part _
  | outOfFrame sl => exact (execOutOfFrame_stores sl s).part _
  | multiframeAlign sl => exact (execMultiframeAlign_stores sl s).part _
  | falseLock sl => exact (execFalseLock_stores sl s).part _
  | sfcAdopt sl => exact (execSfcAdopt_stores sl s).part _
  | delayBlockRx sl rxRef => exact (execDelayBlockRx_stores sl rxRef s).part _
  | defectEvaluation sl fr => exact (execDefectEvaluation_stores sl fr s).part _
  | ssfHoldoffExpiry sl => exact (execSsfHoldoffExpiry_stores sl s).part _
  | txSuperframeBoundary sl => exact (execTxSuperframeBoundary_stores sl s).part _
  | memberNumberingAdopt c m arr => exact (execMemberNumberingAdopt_stores c m arr s).part _
  | measuringEnd c late => exact (execMeasuringEnd_stores c late s).part _
  | dcGrowthStep c => exact (execDcGrowthStep_stores c s).part _
  | outputFrameRead c errs => exact execOutputFrameRead_part (Part.ne_of_writes rfl hc) c errs s
  | selectorEvaluation c => exact (execSelectorEvaluation_stores c s).part _
  | psClear c => exact (execPsClear_stores c s).part _
  | psLockout c => exact (execPsLockout_stores c s).part _
  | psForcedSwitch c => exact (execPsForcedSwitch_stores c s).part _
  | psManualA c => exact (execPsManualA_stores c s).part _
  | psManualB c => exact (execPsManualB_stores c s).part _
  | realign c => exact (execRealign_stores c s).part _
  | wtrExpiry c => exact (execWtrExpiry_stores c s).part _
  | memberMismatch c m => exact (execMemberMismatch_stores c m s).part _
  | channelMessageVerify c => exact (execChannelMessageVerify_stores c s).part _
  | keyLoadSlot f => exact execKeyLoadSlot_part (Part.ne_of_writes rfl hc) f s
  | keyEraseSlot f => exact execKeyEraseSlot_part (Part.ne_of_writes rfl hc) f s
  | kekLoad f => exact execKekLoad_part (Part.ne_of_writes rfl hc) f s
  | kekErase f => exact execKekErase_part (Part.ne_of_writes rfl hc) f s
  | msgQueueGo f => exact (execMsgQueueGo_stores f s).part _
  | msgServiceGrant host err => exact execMsgServiceGrant_part (Part.ne_of_writes rfl hc) (Part.ne_of_writes rfl hc) host err s
  | msgServiceEnd f err => exact (execMsgServiceEnd_stores f err s).part _
  | clientFrameRx k frame err fecCorr fecUnc =>
    exact execClientFrameRx_part (Part.ne_of_writes rfl hc) k frame err fecCorr fecUnc s
  | clientFrameEgress k => exact (execClientFrameEgress_stores k s).part _
  | clientMgmtPeriod k => exact execClientMgmtPeriod_part (Part.ne_of_writes rfl hc) k s
  | clientIndicationExpiry k upi => exact (execClientIndicationExpiry_stores k upi s).part _
  | egressReplacement k => exact (execEgressReplacement_stores k s).part _
  | calendarSwitch g tx rx ohLock mismatch => exact (execCalendarSwitch_stores g tx rx ohLock mismatch s).part _
  | laneDeepExit l => exact (execLaneDeepExit_stores l s).part _
  | cellarTrain => exact (execCellarTrain_stores s).part _
  | cellarRetrain => exact (execCellarRetrain_stores s).part _
  | cellarTrainDone ok dense => exact (execCellarTrainDone_stores ok dense s).part _
  | accRead errs => exact (execAccRead_stores errs s).part _
  | accWrite => exact (execAccWrite_stores s).part _
  | accRawWrite => exact (execAccRawWrite_stores s).part _
  | accDone => exact (execAccDone_stores s).part _
  | touchGo errs => exact (execTouchGo_stores errs s).part _
  | celTouchDone => exact (execCelTouchDone_stores s).part _
  | pprGo resource => exact (execPprGo_stores resource s).part _
  | celPprDone clean => exact (execCelPprDone_stores clean s).part _
  | memInjArm => exact (execMemInjArm_stores s).part _
  | candGate100ms sl off => exact (execCandGate100ms_stores sl off s).part _
  | candGate1ms offs => exact (execCandGate1ms_stores offs s).part _
  | candWtrExpiry sl => exact (execCandWtrExpiry_stores sl s).part _
  | candAvailLoss sl => exact (execCandAvailLoss_stores sl s).part _
  | selHoldoffExpiry => exact (execSelHoldoffExpiry_stores s).part _
  | selForce => exact (execSelForce_stores s).part _
  | selManual => exact (execSelManual_stores s).part _
  | selClear => exact (execSelClear_stores s).part _
  | selLocked => exact (execSelLocked_stores s).part _
  | phaseStepGo => exact (execPhaseStepGo_stores s).part _
  | phaseSlewDone => exact (execPhaseSlewDone_stores s).part _
  | todSet => exact (execTodSet_stores s).part _
  | todAdj => exact (execTodAdj_stores s).part _
  | todWrap => exact (execTodWrap_stores s).part _
  | timerArm n => exact (execTimerArm_stores n s).part _
  | timerDisarm n => exact (execTimerDisarm_stores n s).part _
  | timerFire n => exact (execTimerFire_stores n s).part _
  | ltcMultiframe => exact (execLtcMultiframe_stores s).part _
  | linkAttemptStart p => exact (execLinkAttemptStart_stores p s).part _
  | ident p => exact (execIdent_stores p s).part _
  | linkAttemptTimeout p => exact (execLinkAttemptTimeout_stores p s).part _
  | attemptSignalLoss p => exact (execAttemptSignalLoss_stores p s).part _
  | linkBackoffExpiry p => exact (execLinkBackoffExpiry_stores p s).part _
  | absentProbe p => exact (execAbsentProbe_stores p s).part _
  | mismatchRetry p => exact (execMismatchRetry_stores p s).part _
  | linkLoss n => exact execLinkLoss_part (Part.ne_of_writes rfl hc) (Part.ne_of_writes rfl hc) (Part.ne_of_writes rfl hc) n s
  | poryonFrameRx p content codes => exact (execPoryonFrameRx_stores p content codes s).part _
  | message p => exact (execMessage_stores p s).part _
  | heartbeatSend => exact (execHeartbeatSend_stores s).part _
  | heartbeat p => exact (execHeartbeat_stores p s).part _
  | twinHeartbeatLoss => exact (execTwinHeartbeatLoss_stores s).part _
  | peerActiveAssert => exact (execPeerActiveAssert_stores s).part _
  | takeoverFullAmplitude => exact (execTakeoverFullAmplitude_stores s).part _
  | twinRelease => exact (execTwinRelease_stores s).part _
  | releaseAckTimeout => exact (execReleaseAckTimeout_stores s).part _
  | releaseBoundary => exact (execReleaseBoundary_stores s).part _
  | twinDetach => exact execTwinDetach_part (Part.ne_of_writes rfl hc) (Part.ne_of_writes rfl hc) (Part.ne_of_writes rfl hc) s
  | twinResync => exact (execTwinResync_stores s).part _
  | pair => exact execPair_part (Part.ne_of_writes rfl hc) (Part.ne_of_writes rfl hc) (Part.ne_of_writes rfl hc) s
  | joinTimeout => exact execJoinTimeout_part (Part.ne_of_writes rfl hc) (Part.ne_of_writes rfl hc) (Part.ne_of_writes rfl hc) s
  | mirror => exact execMirror_part (Part.ne_of_writes rfl hc) (Part.ne_of_writes rfl hc) (Part.ne_of_writes rfl hc) s
  | domain p => exact (execDomain_stores p s).part _
  | managerHeartbeatSend => exact (execManagerHeartbeatSend_stores s).part _
  | managerLoss => exact (execManagerLoss_stores s).part _
  | event p => exact (execEvent_stores p s).part _
  | rfwRead w => exact execRfwRead_part (Part.fixed_of_fabric rfl hc) w s
  | rfwWrite w => exact execRfwWrite_part (Part.fixed_of_fabric rfl hc) w s
  | response p => exact (execResponse_stores p s).part _
  | rfwTimeout w => exact (execRfwTimeout_stores w s).part _
  | tunnelRequestRx n => exact execTunnelRequestRx_part (Part.fixed_of_fabric rfl hc) n s
  | monSeqGo => exact (execMonSeqGo_stores s).part _
  | monSeqStop => exact (execMonSeqStop_stores s).part _
  | accSnap => exact (execAccSnap_stores s).part _
  | injectionTrigger q => exact (execInjectionTrigger_stores q s).part _
  | injectionDone q => exact (execInjectionDone_stores q s).part _
  | injectionMissed q => exact (execInjectionMissed_stores q s).part _
  | bgCalTurn => exact (execBgCalTurn_stores s).part _
  | fgCalStart => exact (execFgCalStart_stores s).part _
  | fgCalEnd => exact (execFgCalEnd_stores s).part _
  | msyncFall => exact (execMsyncFall_stores s).part _
  | syncGo => exact (execSyncGo_stores s).part _
  | dcRespRequest c r fade => exact (execDcRespRequest_stores c r fade s).part _
  | dcFadeEnd c => exact (execDcFadeEnd_stores c s).part _
  | counterWindowBoundary => exact (execCounterWindowBoundary_stores s).part _
  | monSnap => exact (execMonSnap_stores s).part _
  | counterSelect v => exact (execCounterSelect_stores v s).part _
  | sentinelPassStart => exact (execSentinelPassStart_stores s).part _
  | sentinelPassEnd sites eyes => exact (execSentinelPassEnd_stores sites eyes s).part _
  | ageingRecordWrite hours ok1 ok2 => exact execAgeingRecordWrite_part (Part.ne_of_writes rfl hc) hours ok1 ok2 s
  | avsVout ok => exact (execAvsVout_stores ok s).part _
  | caskWinRead => exact (execCaskWinRead_stores s).part _
  | caskWinProgram => exact (execCaskWinProgram_stores s).part _
  | caskWinErase => exact (execCaskWinErase_stores s).part _
  | fesWrite sl => exact (execFesWrite_stores sl s).part _
  | fesRead sl => exact (execFesRead_stores sl s).part _
  | otpProg field value vpp tck =>
    exact execOtpProg_part (Part.ne_of_writes rfl hc) (Part.ne_of_writes rfl hc) (Part.ne_of_writes rfl hc) field value vpp tck s
  | upReceiverFirstLock st => exact (execUpReceiverFirstLock_stores st s).part _
  | hostClockFound => exact (execHostClockFound_stores s).part _
  | candidateAvailable sl => exact (execCandidateAvailable_stores sl s).part _
  | hostSideConditionChange p h => exact (execHostSideConditionChange_stores p h s).part _
  | portIdleTimeout p => exact (execPortIdleTimeout_stores p s).part _
  | conversionClockEdge codes => exact (execConversionClockEdge_stores codes s).part _
  | caskWinDone err => exact execCaskWinDone_part (Part.ne_of_writes rfl hc) err s
  | fesFrameDone sl tries => exact (execFesFrameDone_stores sl tries s).part _
  | captureSegmentFilled => exact (execCaptureSegmentFilled_stores s).part _

/-- R556: OTP_PROG programs the owner key only where none is. -/
theorem execOtpProg_otpOwner (f : Byte) (v : BitVec 384) (vpp tck : Bool) {s t : State} {k : BitVec 384}
    (h : execOtpProg f v vpp tck s = .next t) (hk : s.ctl.otpOwner = some k) : t.ctl.otpOwner = some k := by
  cases h
  dsimp only
  split
  · exact hk
  · split
    · next hf => simp [hk] at hf
    · exact hk

theorem exec_otpOwner {c : Instr} {s t : State} {k : BitVec 384} (h : exec c s = .next t) (hk : s.ctl.otpOwner = some k) :
    t.ctl.otpOwner = some k := by
  by_cases hc : Part.writes .otpOwner c = false
  · exact (exec_keepsPart hc s t h).trans hk
  · cases c <;> first | exact absurd rfl hc | exact execOtpProg_otpOwner _ _ _ _ h hk

/-- Settles O7: no command writes a part of the stores but those of the part's own class, by one lemma per command. -/
theorem storageIsolation : Obligations.StorageIsolation := by
  intro c s t h
  have keep (p : Part) (hc : p.writes c = false) : t.stores.get p = s.stores.get p := exec_keepsPart hc s t h
  refine ⟨keep .cask, fun k => exec_otpOwner h, fun hc => ?_, keep .otpSerial rfl, fun hd hm => keep .hostMem ?_, fun hr =>
    ⟨fun hc => keep .store ?_, fun hc => keep .slots ?_, fun hc hl he => keep .keks ?_, fun hc => keep .pool ?_,
      fun hc => keep .gfp ?_, fun hc => keep .calendars ?_⟩⟩
  · have hp (p : Part) (hq : p = .otpOwner ∨ p = .otpKcv ∨ p = .devKek) : p.writes c = false := by
      obtain rfl | rfl | rfl := hq <;> cases c <;> first | rfl | exact (hc _ _ _ _ rfl).elim
    exact ⟨keep .otpOwner (hp _ (by simp)), keep .otpKcv (hp _ (by simp)), keep .devKek (hp _ (by simp))⟩
  · cases c <;> first | rfl | exact (hd _ _ rfl).elim | exact (hm _ _ rfl).elim
  · simpa [Part.writes, hr] using hc
  · simpa [Part.writes, hr] using hc
  · cases c <;> first | exact (hl _ rfl).elim | exact (he _ rfl).elim | simp [Part.writes, hr, hc]
  · simpa [Part.writes, hr] using hc
  · simpa [Part.writes, hr] using hc
  · simpa [Part.writes, hr] using hc

end Sys2Proof.Machine
end

section
/-!
PROOF. Mode requests. Entry to DORMANT takes the supply of the cellar away, and a load from the archive that waits for the cellar
is dropped with it: the entry of the store's `loading` changes, where the statement keeps the store.
-/

namespace Sys2Proof.Machine

/-- PREPARE with a transition to DORMANT under way, every slice DARK, no program running, and a load from archive slot 0 that
waits for the cellar. -/
def dormantWithLoad : State :=
  { (State.reset.wr F.GLB_MODE_mode modePrepare) with
    ctl := { Ctl.reset with transTo := some modeDormant }, vtg := { Vintages.reset with loading := some 0 } }

/-- The load that a command leaves waiting; `some 0` where it answers no next state. -/
def loadingAfter : Out → Option Nat
  | .next t => t.vtg.loading
  | _ => some 0

theorem dormantWithLoad_dropped {t : State} (h : exec .modeTransitionEnd dormantWithLoad = .next t) : t.vtg.loading = none := by
  have hrun : loadingAfter (exec .modeTransitionEnd dormantWithLoad) = none := by decide +kernel
  rwa [h] at hrun

/-- Refutes O11: the end of a transition to DORMANT drops the load that waits for the cellar, so the vintage store is not kept. -/
theorem not_modeRequests : ¬ Obligations.ModeRequests := by
  unfold Obligations.ModeRequests
  rintro ⟨-, -, ends⟩
  obtain ⟨-, toDormant, -⟩ := ends dormantWithLoad modeDormant rfl rfl (by decide) (by decide) (by decide)
  obtain ⟨t, ht, -, -, -, -, -, -, hvtg⟩ := toDormant rfl (by decide) (by decide)
  have hload : t.vtg.loading = none := dormantWithLoad_dropped ht
  rw [hvtg] at hload
  exact absurd hload (by decide)

end Sys2Proof.Machine
end

section
/-!
What the housekeeping of slices, channels, programs, the cellar and events leaves alone. `State.base` gathers the registers below
GLB_SLICE_STAT with those of recovery, the clocks' fallback and the executive, GLB_SLICE_STAT, and the control part, the vintages,
the session and the link; a lemma `…_base` says that an operation keeps them, a lemma `…_rough` that it keeps all but the states of
the slices. They stand in the order of the model's definitions.
-/

namespace Sys2Proof.Machine

/-- The keys of the registers below GLB_SLICE_STAT, and of GLB_REC_STAT.cause, TIM_CLK_STAT.on_fallback and
    SEQ_EXEC_STAT.alive. -/
def lowKey (k : Nat) : Bool :=
  decide (k / 32 < 0x20) || decide (k = fldKey F.GLB_REC_STAT_cause []) || decide (k = fldKey F.TIM_CLK_STAT_on_fallback [])
    || decide (k = fldKey F.SEQ_EXEC_STAT_alive [])

theorem lowKey_eq_false_iff (k : Nat) : lowKey k = false ↔
    0x20 ≤ k / 32 ∧ k ≠ 0x33 * 32 + 21 ∧ k ≠ 0x100000 * 32 + 21 ∧ k ≠ 0xC00001 * 32 + 23 := by
  have e : fldKey F.GLB_REC_STAT_cause [] = 0x33 * 32 + 21 ∧ fldKey F.TIM_CLK_STAT_on_fallback [] = 0x100000 * 32 + 21
    ∧ fldKey F.SEQ_EXEC_STAT_alive [] = 0xC00001 * 32 + 23 := ⟨rfl, rfl, rfl⟩
  simp only [lowKey, e, Bool.or_eq_false_iff, decide_eq_false_iff_not, Nat.not_lt, and_assoc]

/-- The keys of GLB_SLICE_STAT. -/
def sliceKey (k : Nat) : Bool := decide (0x20 ≤ k / 32 ∧ k / 32 < 0x30)

/-- No index of the field has a low key or one of GLB_SLICE_STAT. -/
def Fld.outer (f : Fld) : Bool :=
  decide (0x30 ≤ f.addr ∧ f.lo < 32 ∧ (f.lo ≠ 21 ∨ 0x100000 < f.addr) ∧ (f.lo ≠ 23 ∨ 0xC00001 < f.addr))

/-- The part of the state that the housekeeping of slices, channels, programs, the cellar and events leaves alone. -/
structure Base where
  regs : Nat → Nat → Nat
  slices : Nat → Nat → Nat
  ctl : Ctl
  linkUp : Bool
  vtg : Vintages
  session : Bool
  pending : List Instr

def State.base (s : State) : Base :=
  ⟨fun d k => if lowKey k then tabGet d s.regs k else 0, fun d k => if sliceKey k then tabGet d s.regs k else 0,
    { s.ctl with drainShort := [] }, s.hif.linkUp, { s.vtg with loading := none }, s.exec.session, s.pending⟩

/-- The base without the states of the slices. -/
def Base.rough (b : Base) : Base := { b with slices := fun _ _ => 0 }

theorem fldAddr_ge (f : Fld) (is : List Nat) : f.addr ≤ fldAddr f is := Nat.le_add_right ..

theorem lowKey_of_outer {f : Fld} (h : f.outer = true) (is : List Nat) : lowKey (fldKey f is) = false := by
  have ha := fldAddr_ge f is
  have hf := of_decide_eq_true h
  rw [lowKey_eq_false_iff, fldKey]
  omega

theorem sliceKey_of_outer {f : Fld} (h : f.outer = true) (is : List Nat) : sliceKey (fldKey f is) = false := by
  have ha := fldAddr_ge f is
  have hf := of_decide_eq_true h
  refine decide_eq_false ?_
  rw [fldKey]
  omega

theorem State.wr_base_of {f : Fld} {is : List Nat} (hl : lowKey (fldKey f is) = false) (hs : sliceKey (fldKey f is) = false)
    (s : State) (v : Nat) : (s.wr f v is).base = s.base := by
  have ne (k : Nat) {p : Nat → Bool} (hp : p (fldKey f is) = false) (hk : p k = true) : k ≠ fldKey f is := by
    rintro rfl; simp [hp] at hk
  simp only [State.base, State.wr, Base.mk.injEq, and_true]
  refine ⟨?_, ?_⟩ <;> funext d k <;> split
  · next hk => exact tabGet_put_ne _ _ _ _ (ne k hl hk)
  · rfl
  · next hk => exact tabGet_put_ne _ _ _ _ (ne k hs hk)
  · rfl

@[simp] theorem State.wr_base {f : Fld} (h : f.outer = true) (s : State) (v : Nat) (is : List Nat) :
    (s.wr f v is).base = s.base :=
  s.wr_base_of (lowKey_of_outer h is) (sliceKey_of_outer h is) v

theorem State.wr_rough {f : Fld} {is : List Nat} (hl : lowKey (fldKey f is) = false) (s : State) (v : Nat) :
    (s.wr f v is).base.rough = s.base.rough := by
  simp only [Base.rough, State.base, State.wr, Base.mk.injEq, and_true]
  funext d k
  split
  · next hk => exact tabGet_put_ne _ _ _ _ (by rintro rfl; simp [hl] at hk)
  · rfl

/-- A low field is read from the base. -/
theorem State.rd_of_rough {s t : State} (h : t.base.rough = s.base.rough) {f : Fld} {is : List Nat}
    (hf : lowKey (fldKey f is) = true) : t.rd f is = s.rd f is := by
  have := congrFun (congrFun (congrArg Base.regs h) (f.reset is)) (fldKey f is)
  simpa [Base.rough, State.base, hf, State.rd] using this

theorem State.rd_of_base {s t : State} (h : t.base = s.base) {f : Fld} {is : List Nat}
    (hf : (lowKey (fldKey f is) || sliceKey (fldKey f is)) = true) : t.rd f is = s.rd f is := by
  by_cases hl : lowKey (fldKey f is) = true
  · exact State.rd_of_rough (congrArg Base.rough h) hl
  · have := congrFun (congrFun (congrArg Base.slices h) (f.reset is)) (fldKey f is)
    simp only [hl, Bool.false_or] at hf
    simpa [State.base, hf, State.rd] using this

@[simp] theorem State.base_ite (c : Prop) [Decidable c] (s t : State) :
    (if c then s else t).base = if c then s.base else t.base :=
  apply_ite _ _ _ _

@[simp] theorem Base.rough_ite (c : Prop) [Decidable c] (x y : Base) :
    (if c then x else y).rough = if c then x.rough else y.rough :=
  apply_ite _ _ _ _

@[simp] theorem forEach_base {α : Type} {f : α → State → State} (h : ∀ a s, (f a s).base = s.base) (l : List α) (s : State) :
    (forEach f l s).base = s.base := forEach_keeps State.base f h l s

@[simp] theorem forEach_rough {α : Type} {f : α → State → State} (h : ∀ a s, (f a s).base.rough = s.base.rough) (l : List α)
    (s : State) : (forEach f l s).base.rough = s.base.rough := forEach_keeps (fun t => t.base.rough) f h l s

/-- A state built from another's base has its base. -/
theorem State.base_mk {s : State} {ctl : Ctl} {exec : Exec} {hif : Hif} {vtg : Vintages}
    (hCtl : { ctl with drainShort := [] } = { s.ctl with drainShort := [] }) (hExec : exec.session = s.exec.session)
    (hHif : hif.linkUp = s.hif.linkUp) (hVtg : { vtg with loading := none } = { s.vtg with loading := none })
    (counters seqs queues tim conv calEng capture rx tx pool align tdl lfr grid mems chans cip svcSol clients gfp lanes calendars
        cel pry mon cask free) :
    State.base ⟨s.pending, s.regs, counters, ctl, exec, seqs, queues, vtg, hif, tim, conv, calEng, capture, rx, tx, pool, align,
      tdl, lfr, grid, mems, chans, cip, svcSol, clients, gfp, lanes, calendars, cel, pry, mon, cask, free⟩ = s.base := by
  simp only [State.base, hCtl, hExec, hHif, hVtg]

@[simp] theorem outerFields :
    F.CEL_ADM_STAT_max_ctx.outer = true ∧ F.CEL_CAP_STAT_segs.outer = true ∧ F.CEL_ELOG_CE_bank.outer = true ∧
    F.CEL_ELOG_CE_ch.outer = true ∧ F.CEL_ELOG_CE_row.outer = true ∧ F.CEL_STAT_arch_lost.outer = true ∧
    F.CEL_STAT_ch_ok.outer = true ∧ F.CEL_STAT_jarc_lost.outer = true ∧ F.CIP_CH_STAT_rx_epoch.outer = true ∧
    F.CLI_FXG_STAT_sw_pend.outer = true ∧ F.CLI_LANE_STAT_exit_pend.outer = true ∧ F.CLI_LANE_STAT_pstate.outer = true ∧
    F.CLI_PORT_STAT_lf_tx.outer = true ∧ F.CNV_ADC_TRIM_A_gain.outer = true ∧ F.CNV_ADC_TRIM_A_offset.outer = true ∧
    F.CNV_ADC_TRIM_B_skew.outer = true ∧ F.CNV_CAP_SF_value.outer = true ∧ F.CNV_CAP_STAT_hb.outer = true ∧
    F.CNV_CAP_STAT_missed.outer = true ∧ F.CNV_CAP_STAT_pre_short.outer = true ∧ F.CNV_CAP_STAT_state.outer = true ∧
    F.CNV_CAP_STAT_trunc.outer = true ∧ F.CNV_CAP_TIME_H_value.outer = true ∧ F.CNV_CAP_TIME_L_value.outer = true ∧
    F.CNV_DAC_TAP_trim.outer = true ∧ F.CNV_DAC_TRIM_A_gain.outer = true ∧ F.CNV_DAC_TRIM_A_offset.outer = true ∧
    F.CNV_DAC_TRIM_B_skew.outer = true ∧ F.CNV_GEN_NEW_serial.outer = true ∧ F.CNV_GEN_PREV_serial.outer = true ∧
    F.CNV_RECAL_STAT_phase.outer = true ∧ F.CNV_RECAL_STAT_stage.outer = true ∧ F.CNV_STAT_gen_bad.outer = true ∧
    F.CNV_STAT_pending.outer = true ∧ F.CNV_STAT_restore_active.outer = true ∧ F.CNV_STAT_run_active.outer = true ∧
    F.FEC_GEFF_geff.outer = true ∧ F.FEC_POOL_CTX_value.outer = true ∧ F.FEC_POOL_PEAK_value.outer = true ∧
    F.FEC_POOL_STAT_scale.outer = true ∧ F.FEC_POOL_STAT_scaled.outer = true ∧ F.FEC_STAT_beta.outer = true ∧
    F.FEC_STAT_hyp.outer = true ∧ F.FEC_STAT_sync.outer = true ∧ F.GLB_EVT_PEND_bits.outer = true ∧
    F.GLB_REC_STAT_entries.outer = true ∧ F.HIF_Q_OVF_pkts.outer = true ∧ F.HIF_Q_OVF_words.outer = true ∧
    F.HIF_Q_PEAK_peak.outer = true ∧ F.HIF_Q_STAT_notice.outer = true ∧ F.HIF_Q_STAT_wm_hit.outer = true ∧
    F.LFR_STAT_dbdi.outer = true ∧ F.LFR_STAT_ddeg.outer = true ∧ F.LFR_STAT_dlob.outer = true ∧
    F.LFR_STAT_dlof.outer = true ∧ F.LFR_STAT_dlom.outer = true ∧ F.LFR_STAT_dlos.outer = true ∧
    F.LFR_STAT_dunc.outer = true ∧ F.LFR_STAT_im.outer = true ∧ F.LFR_STAT_sd.outer = true ∧ F.LFR_STAT_sf_ok.outer = true
    ∧ F.LFR_STAT_ssf.outer = true ∧ F.LFR_STAT_state.outer = true ∧ F.LFR_TX_SFC_count.outer = true ∧
    F.MAP_CEL_STAT_cel_ctx.outer = true ∧ F.MAP_CH_DLY_dc.outer = true ∧ F.MAP_CH_FAR_valid.outer = true ∧
    F.MAP_CH_STAT_a_fail.outer = true ∧ F.MAP_CH_STAT_a_sd.outer = true ∧ F.MAP_CH_STAT_align.outer = true ∧
    F.MAP_CH_STAT_b_fail.outer = true ∧ F.MAP_CH_STAT_b_sd.outer = true ∧ F.MAP_CH_STAT_csf.outer = true ∧
    F.MAP_CH_STAT_req.outer = true ∧ F.MAP_CH_STAT_sel.outer = true ∧ F.MAP_CH_STAT_wtr_run.outer = true ∧
    F.MAP_MEM_STAT_dskew.outer = true ∧ F.MAP_MEM_STAT_ok_num.outer = true ∧ F.MAP_MEM_STAT_skew.outer = true ∧
    F.MAP_STAT_chip_used.outer = true ∧ F.MON_INJ_STAT_merged.outer = true ∧ F.MON_INJ_STAT_status.outer = true ∧
    F.PRY_DOM_NODE_present.outer = true ∧ F.PRY_DOM_STAT_depth.outer = true ∧ F.PRY_DOM_STAT_dom.outer = true ∧
    F.PRY_PORT_STAT_pwr.outer = true ∧ F.PRY_PORT_STAT_state.outer = true ∧ F.PRY_TWIN_STAT_active.outer = true ∧
    F.PRY_TWIN_STAT_mirror_ok.outer = true ∧ F.PRY_TWIN_STAT_pair.outer = true ∧ F.PRY_TWIN_STAT_ready.outer = true ∧
    F.RXD_ACQ_STAT_fails.outer = true ∧ F.RXD_ACQ_STAT_los.outer = true ∧ F.RXD_ACQ_STAT_state.outer = true ∧
    F.RXD_EVT_cd_clamp.outer = true ∧ F.RXD_EVT_mode_bad.outer = true ∧ F.RXD_MON_value.outer = true ∧
    F.SEQ_EXEC_STAT_rejected.outer = true ∧ F.TDL_MB_TX_CMD_busy.outer = true ∧ F.TIM_CAND_OFF_off.outer = true ∧
    F.TIM_CAND_STAT_lost.outer = true ∧ F.TIM_CAND_STAT_state.outer = true ∧ F.TIM_SEL_CMD_refused.outer = true ∧
    F.TIM_SEL_STAT_cmd.outer = true ∧ F.TIM_SEL_STAT_state.outer = true ∧ F.TXD_STAT_mode_bad.outer = true ∧
    F.TXD_STAT_pe_clamp.outer = true ∧ F.VTG_CMD_nomatch.outer = true ∧ F.VTG_STAT_domain.outer = true ∧
    F.VTG_STAT_last_fail.outer = true ∧ F.VTG_STAT_line.outer = true ∧ F.VTG_STAT_state.outer = true := by
  and_intros <;> rfl

/-! The instances of the fields at bit 23 below SEQ_EXEC_STAT. -/

@[simp] theorem State.wr_cellarAvail_base (s : State) (v : Nat) : (s.wr F.CEL_STAT_avail v).base = s.base :=
  State.wr_base_of (by decide) (by decide) s v

theorem sliceKeys_high {f : Fld} (h : f.lo = 23 ∧ f.dims = [(0, 7, 131072)] ∧ 0x400000 ≤ f.addr ∧ f.addr % 131072 ≠ 1) (i : Nat) :
    lowKey (fldKey f [i]) = false ∧ sliceKey (fldKey f [i]) = false := by
  obtain ⟨hlo, hd, ha, hm⟩ := h
  have e : fldKey f [i] = (f.addr + (131072 * i + 0)) * 32 + 23 := by rw [fldKey, fldAddr, hd, hlo]; rfl
  rw [lowKey_eq_false_iff, e]
  exact ⟨by omega, decide_eq_false (by omega)⟩

@[simp] theorem State.wr_muted_base (s : State) (v i : Nat) : (s.wr F.TXD_STAT_muted v [i]).base = s.base :=
  have h := sliceKeys_high (f := F.TXD_STAT_muted) (by decide) i
  State.wr_base_of h.1 h.2 s v
@[simp] theorem State.wr_tdlRx_base (s : State) (v i : Nat) : (s.wr F.TDL_RX_STAT_rx v [i]).base = s.base :=
  have h := sliceKeys_high (f := F.TDL_RX_STAT_rx) (by decide) i
  State.wr_base_of h.1 h.2 s v
@[simp] theorem State.wr_propHeld_base (s : State) (v i : Nat) : (s.wr F.TDL_PROP_STAT_held v [i]).base = s.base :=
  have h := sliceKeys_high (f := F.TDL_PROP_STAT_held) (by decide) i
  State.wr_base_of h.1 h.2 s v

theorem State.wr_pcsLock_base {p : Nat} (hp : p < 64) (s : State) (v : Nat) :
    (s.wr F.CLI_PORT_STAT_pcs_lock v [p]).base = s.base := by
  have e : fldKey F.CLI_PORT_STAT_pcs_lock [p] = (0xA00140 + (1 * p + 0)) * 32 + 23 := rfl
  refine State.wr_base_of ((lowKey_eq_false_iff _).2 ?_) (decide_eq_false ?_) s v <;> rw [e] <;> omega

theorem State.wr_memFail_base {c m : Nat} (hc : c < 512) (hm : m < 8) (s : State) (v : Nat) :
    (s.wr F.MAP_MEM_STAT_fail v [c, m]).base = s.base := by
  have e : fldKey F.MAP_MEM_STAT_fail [c, m] = (0x803000 + (8 * c + (1 * m + 0))) * 32 + 23 := rfl
  refine State.wr_base_of ((lowKey_eq_false_iff _).2 ?_) (decide_eq_false ?_) s v <;> rw [e] <;> omega

theorem membersOf_lt {m : Tab Nat} {c : Nat} {d : MemberDef} (h : d ∈ membersOf m c) : d.m < 8 := by
  obtain ⟨k, hk, e⟩ := List.mem_filterMap.mp h
  split at e
  · cases e; exact List.mem_range.mp hk
  · cases e

theorem forEach_base_mem {α : Type} {f : α → State → State} {l : List α} (h : ∀ a ∈ l, ∀ s, (f a s).base = s.base) (s : State) :
    (forEach f l s).base = s.base := forEach_keeps_mem State.base f l h s

@[simp] theorem State.wr_sliceState_rough (s : State) (v i : Nat) :
    (s.wr F.GLB_SLICE_STAT_state v [i]).base.rough = s.base.rough := by
  have e : fldKey F.GLB_SLICE_STAT_state [i] = (0x20 + (1 * i + 0)) * 32 + 22 := rfl
  refine State.wr_rough ((lowKey_eq_false_iff _).2 ?_) s v
  rw [e]
  omega
@[simp] theorem State.wr_wakeStep_rough (s : State) (v i : Nat) :
    (s.wr F.GLB_SLICE_STAT_wake_step v [i]).base.rough = s.base.rough := by
  have e : fldKey F.GLB_SLICE_STAT_wake_step [i] = (0x20 + (1 * i + 0)) * 32 + 16 := rfl
  refine State.wr_rough ((lowKey_eq_false_iff _).2 ?_) s v
  rw [e]
  omega
theorem State.wr_wakePending_rough {i : Nat} (hi : i < 8) (s : State) (v : Nat) :
    (s.wr F.GLB_SLICE_STAT_wake_pending v [i]).base.rough = s.base.rough := by
  have e : fldKey F.GLB_SLICE_STAT_wake_pending [i] = (0x20 + (1 * i + 0)) * 32 + 21 := rfl
  refine State.wr_rough ((lowKey_eq_false_iff _).2 ?_) s v
  rw [e]
  omega
theorem slices8_lt {i : Nat} (h : i ∈ slices8) : i < 8 := by
  simp only [slices8, List.mem_cons, List.not_mem_nil, or_false] at h
  omega
theorem forEach_rough_mem {α : Type} {f : α → State → State} {l : List α} (h : ∀ a ∈ l, ∀ s,
    (f a s).base.rough = s.base.rough) (s : State) :
    (forEach f l s).base.rough = s.base.rough := forEach_keeps_mem (fun t => t.base.rough) f l h s

/-! ### Ops -/

@[simp] theorem State.addSat_base {f : Fld} (h : f.outer = true) (s : State) (n max : Nat) (is : List Nat) :
    (s.addSat f n max is).base = s.base := State.wr_base h ..
@[simp] theorem State.count_base (s : State) (i n : Nat) : (s.count i n).base = s.base := by rfl
@[simp] theorem State.setSeq_base (s : State) (q : Nat) (x : Seq) : (s.setSeq q x).base = s.base := by rfl
@[simp] theorem State.setQueue_base (s : State) (q : Nat) (x : Queue) : (s.setQueue q x).base = s.base := by rfl
@[simp] theorem State.setConv_base (s : State) (i : Nat) (x : Conv) : (s.setConv i x).base = s.base := by rfl
@[simp] theorem State.setRx_base (s : State) (i : Nat) (x : Rx) : (s.setRx i x).base = s.base := by rfl
@[simp] theorem State.setTx_base (s : State) (i : Nat) (x : Tx) : (s.setTx i x).base = s.base := by rfl
@[simp] theorem State.setAlign_base (s : State) (i : Nat) (x : Align) : (s.setAlign i x).base = s.base := by rfl
@[simp] theorem State.setTdl_base (s : State) (i : Nat) (x : Tdl) : (s.setTdl i x).base = s.base := by rfl
@[simp] theorem State.setLfr_base (s : State) (i : Nat) (x : Lfr) : (s.setLfr i x).base = s.base := by rfl
@[simp] theorem State.setClaim_base (s : State) (n : Nat) (x : Claim) : (s.setClaim n x).base = s.base := by rfl
@[simp] theorem State.signalVec_base (s : State) (f v : Nat) : (s.signalVec f v).base = s.base := by
  unfold State.signalVec
  dsimp only
  repeat' split
  all_goals rfl
@[simp] theorem State.signalEvent_base (s : State) (e : Nat) : (s.signalEvent e).base = s.base := by simp [State.signalEvent]
@[simp] theorem State.deliverSeqs_base (s : State) (e : Nat) (data : Word) : (s.deliverSeqs e data).base = s.base := by
  simp [State.deliverSeqs]
@[simp] theorem State.setPort_base (s : State) (p : Nat) (x : Port) : (s.setPort p x).base = s.base := by rfl
@[simp] theorem State.portOff_base (s : State) (p : Nat) : (s.portOff p).base = s.base := by simp [State.portOff]
@[simp] theorem State.pryTx_base (s : State) (p : Nat) (m : PryMsg) : (s.pryTx p m).base = s.base := by simp [State.pryTx]
@[simp] theorem State.forwardEvent_base (s : State) (e data : Nat) : (s.forwardEvent e data).base = s.base := by
  simp [State.forwardEvent]
@[simp] theorem State.takeWord_base (s : State) : s.takeWord.2.base = s.base := by rfl
@[simp] theorem State.setInj_base (s : State) (q : Nat) (x : Inj) : (s.setInj q x).base = s.base := by rfl
@[simp] theorem State.injTrigger_base (s : State) (q : Nat) : (s.injTrigger q).base = s.base := by
  unfold State.injTrigger
  dsimp only
  split <;> simp
@[simp] theorem State.injEvent_base (s : State) (e : Nat) : (s.injEvent e).base = s.base := by simp [State.injEvent]
@[simp] theorem State.fireCapture_base (s : State) (i : Nat) : (s.fireCapture i).base = s.base := by simp [State.fireCapture]
@[simp] theorem State.stick_base {f : Fld} (h : f.outer = true) (s : State) (i : Nat) : (s.stick f i).base = s.base := by
  unfold State.stick
  split <;> simp [h]
@[simp] theorem State.captureTrigger_base (s : State) (kind n : Nat) : (s.captureTrigger kind n).base = s.base := by
  unfold State.captureTrigger
  split <;> simp
@[simp] theorem State.celAsk_base (s : State) (k n : Nat) : (s.celAsk k n).base = s.base := by
  unfold State.celAsk
  dsimp only
  repeat' split
  all_goals rfl
@[simp] theorem State.celDrop_base (s : State) (k : Nat) : (s.celDrop k).base = s.base := by rfl
@[simp] theorem State.peCheck_base (s : State) (i : Nat) : (s.peCheck i).base = s.base := by simp [State.peCheck]
@[simp] theorem State.raise_base (s : State) (e : Nat) (data : Nat) : (s.raise e data).base = s.base := by simp [State.raise]
@[simp] theorem State.putRow_base (s : State) (cls row : Nat) : (s.putRow cls row).base = s.base := by rfl
@[simp] theorem State.memWrite_base (s : State) (cls row : Nat) (whole : Bool) : (s.memWrite cls row whole).2.base = s.base := by
  unfold State.memWrite
  split
  · simp
  · split <;> simp
@[simp] theorem State.memRead_base (s : State) (cls row : Nat) : (s.memRead cls row).2.base = s.base := by
  unfold State.memRead
  dsimp only
  repeat' split
  all_goals simp [↓State.base_mk]
@[simp] theorem State.vintSet_base (s : State) (ds : List (Nat × Nat)) : (s.vintSet ds).base = s.base := by
  unfold State.vintSet
  dsimp only
  repeat' split
  all_goals rfl
@[simp] theorem State.vintRead_base (s : State) (img : Nat) : (s.vintRead img).2.base = s.base := by
  unfold State.vintRead
  refine List.foldlRecOn (motive := fun r : Bool × State => r.2.base = s.base) _ _ ?_ fun r hr e _ =>
    (State.memRead_base ..).trans hr
  simp [↓State.base_mk]
@[simp] theorem State.sendNotice_base (s : State) (q : Nat) : (s.sendNotice q).base = s.base := by simp [State.sendNotice]
@[simp] theorem State.markNotice_base (s : State) (q : Nat) : (s.markNotice q).base = s.base := by
  unfold State.markNotice
  dsimp only
  split <;> simp
@[simp] theorem State.notice_base (s : State) (q : Nat) : (s.notice q).base = s.base := by simp [State.notice]
@[simp] theorem State.queueMarks_base (s : State) (q : Nat) : (s.queueMarks q).base = s.base := by
  unfold State.queueMarks
  split <;> simp
@[simp] theorem State.refuseWords_base (s : State) (q pkts words : Nat) : (s.refuseWords q pkts words).base = s.base := by
  simp [State.refuseWords]
@[simp] theorem State.land_base (s : State) (q : Nat) (x : Queue) (ps : List QPkt) : (s.land q x ps).base = s.base := by
  simp [State.land]
@[simp] theorem State.arrive_base (s : State) (q : Nat) (w : Word) (given : Nat) : (s.arrive q w given).base = s.base := by
  unfold State.arrive
  dsimp only
  repeat' split
  all_goals simp
@[simp] theorem State.deliverWord_base (s : State) (q : Nat) (w : Word) : (s.deliverWord q w).2.base = s.base := by
  unfold State.deliverWord
  dsimp only
  repeat' split
  all_goals simp
theorem State.popWord_base {s t : State} {q : Nat} {w : Word} {b : Bool} (h : s.popWord q = some (w, b, t))
    : t.base = s.base := by
  unfold State.popWord at h
  dsimp only at h
  split at h
  · split at h
    · cases h; simp
    · cases h
  · cases h
@[simp] theorem State.popWords_base (s : State) (q n : Nat) : (s.popWords q n).2.base = s.base := by
  induction n generalizing s with
  | zero => rfl
  | succ n ih =>
    unfold State.popWords
    split
    · rfl
    · next h => exact (ih _).trans (State.popWord_base h)
@[simp] theorem State.putScratch_base (s : State) (q a : Nat) (w : Word) : (s.putScratch q a w).base = s.base := by
  simp [State.putScratch]
@[simp] theorem State.putWords_base (s : State) (q a : Nat) (ws : List Word) : (s.putWords q a ws).base = s.base := by
  induction ws generalizing s a with
  | nil => rfl
  | cons w ws ih => exact (ih _ _).trans (State.putScratch_base ..)
@[simp] theorem State.takeWords_base (s : State) (sq q : Nat) (ws : List Word) : (s.takeWords sq q ws).base = s.base := by
  unfold State.takeWords
  dsimp only
  repeat' split
  all_goals simp
@[simp] theorem State.feed_base (s : State) (q : Nat) : (s.feed q).base = s.base := by
  unfold State.feed
  dsimp only
  split <;> simp
@[simp] theorem State.dropTaken_base (s : State) (sq q : Nat) : (s.dropTaken sq q).base = s.base := by
  unfold State.dropTaken
  dsimp only
  split <;> simp
@[simp] theorem State.push_base (s : State) (q : Nat) (w : Word) (given : Nat) : (s.push q w given).base = s.base := by
  unfold State.push
  dsimp only
  split <;> simp
@[simp] theorem State.pushAll_base (s : State) (q : Nat) (ws : List Word) : (s.pushAll q ws).base = s.base := by
  simp [State.pushAll]
@[simp] theorem State.msixReset_base (s : State) (f : Nat) : (s.msixReset f).base = s.base := by rfl
@[simp] theorem State.mirrorDrain_base (s : State) : s.mirrorDrain.base = s.base := by
  unfold State.mirrorDrain
  dsimp only
  repeat' split
  all_goals simp
@[simp] theorem State.mirror_base (s : State) (typ : Nat) (content : List Nat) : (s.mirror typ content).base = s.base := by
  simp [State.mirror, ↓State.base_mk]

/-! ### Converters -/

@[simp] theorem State.applyTrim_base {f : Fld} (h : f.outer = true) (s : State) (m : Tab Nat) (is : List Nat) :
    (s.applyTrim m f is).base = s.base := State.wr_base h ..
@[simp] theorem State.applyAdc_base (s : State) (m : Tab Nat) (i a p : Nat) : (s.applyAdc m i a p).base = s.base := by
  simp [State.applyAdc]
@[simp] theorem State.loadDacs_base (s : State) (m : Tab Nat) (i : Nat) : (s.loadDacs m i).base = s.base := by
  unfold State.loadDacs
  exact forEach_base (fun d t => by simp) _ _
@[simp] theorem State.loadTrims_base (s : State) (i : Nat) (g : Gen) : (s.loadTrims i g).base = s.base := by
  simp [State.loadTrims]
@[simp] theorem State.loadGeneration_base (s : State) (i : Nat) (g : Gen) : (s.loadGeneration i g).base = s.base := by
  simp [State.loadGeneration]
@[simp] theorem State.askEngine_base (s : State) (i e : Nat) : (s.askEngine i e).base = s.base := by
  unfold State.askEngine
  dsimp only
  repeat' split
  all_goals rfl
@[simp] theorem State.dropAsk_base (s : State) (i : Nat) : (s.dropAsk i).base = s.base := by rfl
@[simp] theorem State.askRun_base (s : State) (i : Nat) : (s.askRun i).base = s.base := by simp [State.askRun]
@[simp] theorem State.runCause_base (s : State) (i c : Nat) : (s.runCause i c).base = s.base := by simp [State.runCause]
@[simp] theorem State.askRestore_base (s : State) (i : Nat) : (s.askRestore i).base = s.base := by simp [State.askRestore]
@[simp] theorem State.captureHandBack_base (s : State) (i : Nat) : (s.captureHandBack i).base = s.base := by
  simp [State.captureHandBack, ↓State.base_mk]
@[simp] theorem State.calIdle_base (s : State) (i : Nat) : (s.calIdle i).base = s.base := by simp [State.calIdle]
@[simp] theorem State.abortRun_base (s : State) (i : Nat) : (s.abortRun i).base = s.base := by simp [State.abortRun]
@[simp] theorem State.calLeaveLit_base (s : State) (i : Nat) : (s.calLeaveLit i).base = s.base := by simp [State.calLeaveLit]
@[simp] theorem State.endCapture_base (s : State) (i : Nat) : (s.endCapture i).base = s.base := by
  unfold State.endCapture
  dsimp only
  rw [State.raise_base]
  exact (State.base_mk rfl rfl rfl rfl ..).trans (by simp)
@[simp] theorem State.drainSegment_base (s : State) (i : Nat) : (s.drainSegment i).base = s.base := by simp [State.drainSegment]
@[simp] theorem State.stopCapture_base (s : State) (i : Nat) : (s.stopCapture i).base = s.base := by
  simp [State.stopCapture, ↓State.base_mk]

/-! ### Blocks -/

@[simp] theorem State.putBlock_base (s : State) (b : Nat) (w : List Nat) : (s.putBlock b w).base = s.base := by rfl
@[simp] theorem State.openLine_base (s : State) (b : Nat) : (s.openLine b).base = s.base := by
  unfold State.openLine
  dsimp only
  repeat' split
  all_goals rfl
@[simp] theorem State.celCorrected_base (s : State) (region ch loc : Nat) : (s.celCorrected region ch loc).base = s.base := by
  simp [State.celCorrected]
@[simp] theorem State.writeGroups_base (s : State) (b : Nat) (bytes : List Nat) : (s.writeGroups b bytes).base = s.base := by
  simp [State.writeGroups]
@[simp] theorem State.writePart_base (s : State) (b off : Nat) (bytes : List Nat) : (s.writePart b off bytes).base = s.base := by
  unfold State.writePart
  dsimp only
  split <;> simp

/-! ### Candidates -/

@[simp] theorem State.unmeasured_base (s : State) : s.unmeasured.base = s.base := by simp [State.unmeasured]
@[simp] theorem State.cmdFails_base (s : State) : s.cmdFails.base = s.base := by simp [State.cmdFails]
@[simp] theorem State.candStep_base (s : State) (i st : Nat) : (s.candStep i st).base = s.base := by simp [State.candStep]
@[simp] theorem State.candLost_base (s : State) (i : Nat) : (s.candLost i).base = s.base := by simp [State.candLost]

/-! ### Receive -/

@[simp] theorem State.setDsp_base (s : State) (i : Nat) (d : Dsp) : (s.setDsp i d).base = s.base := by simp [State.setDsp]
@[simp] theorem State.syncNone_base (s : State) (i : Nat) : (s.syncNone i).base = s.base := by simp [State.syncNone]
@[simp] theorem State.frameOut_base (s : State) (i : Nat) : (s.frameOut i).base = s.base := by simp [State.frameOut]
@[simp] theorem State.clearTaps_base (s : State) (i : Nat) : (s.clearTaps i).base = s.base := by simp [State.clearTaps]
@[simp] theorem State.enterDsp_base (s : State) (i st : Nat) : (s.enterDsp i st).base = s.base := by simp [State.enterDsp]
@[simp] theorem State.toAcq_base (s : State) (i st : Nat) : (s.toAcq i st).base = s.base := by simp [State.toAcq]
@[simp] theorem State.acqLit_base (s : State) (i : Nat) : (s.acqLit i).base = s.base := by simp [State.acqLit]
@[simp] theorem State.acqRestart_base (s : State) (i : Nat) : (s.acqRestart i).base = s.base := by simp [State.acqRestart]
@[simp] theorem State.rxMode_base (s : State) (i : Nat) : (s.rxMode i).base = s.base := by simp [State.rxMode]
@[simp] theorem State.rxCheck_base (s : State) (i : Nat) : (s.rxCheck i).base = s.base := by simp [State.rxCheck]
@[simp] theorem State.resizeEq_base (s : State) (i : Nat) : (s.resizeEq i).base = s.base := by simp [State.resizeEq]
@[simp] theorem State.rxCommit_base (s : State) (old : Tab Nat) (i : Nat) : (s.rxCommit old i).base = s.base := by
  simp [State.rxCommit]
@[simp] theorem State.newBlocks_base (s : State) (i : Nat) : (s.newBlocks i).base = s.base := by simp [State.newBlocks]
@[simp] theorem State.rxdGo_base (s : State) (img : RxImg) (i : Nat) : (s.rxdGo img i).base = s.base := by simp [State.rxdGo]
@[simp] theorem State.rxdNext_base (s : State) (img : RxImg) (i : Nat) : (s.rxdNext img i).base = s.base := by
  simp [State.rxdNext]

/-! ### Coding -/

@[simp] theorem State.poolRecompute_base (s : State) : s.poolRecompute.base = s.base := by simp [State.poolRecompute]
@[simp] theorem State.poolMarks_base (s : State) : s.poolMarks.base = s.base := by simp [State.poolMarks]

/-! ### Tendril -/

@[simp] theorem State.tdlQueue_base (s : State) (i typ : Nat) (body : List Nat) : (s.tdlQueue i typ body).base = s.base := by
  simp [State.tdlQueue]

/-! ### Transmit -/

@[simp] theorem State.txCheck_base (s : State) (i : Nat) : (s.txCheck i).base = s.base := by simp [State.txCheck]
@[simp] theorem State.txCommit_base (s : State) (i : Nat) : (s.txCommit i).base = s.base := by simp [State.txCommit]
@[simp] theorem State.newStream_base (s : State) (i : Nat) : (s.newStream i).base = s.base := by simp [State.newStream]

/-! ### Map -/

@[simp] theorem State.setMem_base (s : State) (c i : Nat) (x : Mem) : (s.setMem c i x).base = s.base := by rfl
@[simp] theorem State.setChan_base (s : State) (c : Nat) (x : Chan) : (s.setChan c x).base = s.base := by rfl
@[simp] theorem State.setCipCh_base (s : State) (c : Nat) (x : CipCh) : (s.setCipCh c x).base = s.base := by rfl
@[simp] theorem State.reportDelay_base (s : State) (c : Nat) : (s.reportDelay c).base = s.base := by simp [State.reportDelay]
@[simp] theorem State.declareSkew_base (s : State) (c : Nat) (d : MemberDef) : (s.declareSkew c d).base = s.base := by
  simp [State.declareSkew]
@[simp] theorem State.judgeSkew_base (s : State) (c : Nat) : (s.judgeSkew c).base = s.base := by simp [State.judgeSkew]
@[simp] theorem State.memsLost_base (s : State) (i : Nat) : (s.memsLost i).base = s.base := by
  unfold State.memsLost
  refine forEach_base (fun c t => ?_) _ _
  split
  · dsimp only
    split <;> simp
  · rfl
@[simp] theorem State.setCsf_base (s : State) (c : Nat) (v : Bool) : (s.setCsf c v).base = s.base := by simp [State.setCsf]
@[simp] theorem State.measure_base (s : State) (c : Nat) : (s.measure c).base = s.base := by simp [State.measure]
theorem State.reportLegs_base {c : Nat} (hc : c < 512) (s : State) : (s.reportLegs c).base = s.base := by
  simp [State.reportLegs, forEach_base_mem fun d (hd : d ∈ s.members c) t => t.wr_memFail_base hc (membersOf_lt hd) _]
@[simp] theorem State.selectLeg_base (s : State) (c : Nat) (b : Bool) : (s.selectLeg c b).base = s.base := by
  simp [State.selectLeg]
@[simp] theorem State.psMirror_base (s : State) (was : List Nat) (c : Nat) : (s.psMirror was c).base = s.base := by
  simp [State.psMirror]
theorem State.evalSelector_base {c : Nat} (hc : c < 512) (s : State) : (s.evalSelector c).base = s.base := by
  simp [State.evalSelector, State.reportLegs_base hc]
theorem State.reportMembers_base {c : Nat} (hc : c < 512) (s : State) : (s.reportMembers c).base = s.base :=
  forEach_base_mem (fun m hm t => (State.wr_memFail_base hc (List.mem_range.mp hm) ..).trans (by simp)) s
@[simp] theorem State.cipEpoch_base (s : State) (c : Nat) : (s.cipEpoch c).base = s.base := by simp [State.cipEpoch]
theorem State.mapChannel_base {c : Nat} (hc : c < 512) (s : State) (old : Tab Nat) (img : RxImg) :
    (s.mapChannel old img c).base = s.base := by
  have fields (t : State) : (forEach (fun f t => t.wr f 0 [c]) [F.MAP_CH_STAT_align, F.MAP_CH_STAT_sel, F.MAP_CH_STAT_req,
        F.MAP_CH_STAT_wtr_run, F.MAP_CH_FAR_valid, F.MAP_CH_DLY_dc] t).base = t.base := by simp [forEach]
  unfold State.mapChannel
  dsimp only
  repeat' split
  all_goals simp [fields, State.evalSelector_base hc, State.reportMembers_base hc]
theorem State.turnChannel_base {c : Nat} (hc : c < 512) (s : State) : (s.turnChannel c).base = s.base := by
  unfold State.turnChannel
  dsimp only
  split
  · exact State.mapChannel_base hc ..
  · rfl
@[simp] theorem State.rxFollow_base (s : State) (img : RxImg) (i : Nat) : (s.rxFollow img i).base = s.base :=
  forEach_base_mem (fun c hc t => by
    dsimp only
    repeat' split
    · simp
    · exact (State.turnChannel_base (List.mem_range.mp hc) _).trans (by simp)
    · rfl) s
@[simp] theorem State.mapCommit_base (s : State) (old : Tab Nat) (early : RxImg) : (s.mapCommit old early).base = s.base := by
  simp only [State.mapCommit, State.wr_base, outerFields]
  refine forEach_base_mem (fun c hc t => ?_) s
  repeat' split
  · simp
  · simp
  · exact (State.turnChannel_base (List.mem_range.mp hc) _).trans (by simp)
  · exact State.mapChannel_base (List.mem_range.mp hc) ..
@[simp] theorem State.mapMeasureAll_base (s : State) : s.mapMeasureAll.base = s.base := by simp [State.mapMeasureAll]

/-! ### Cipher -/

@[simp] theorem State.setCipTx_base (s : State) (c : Nat) (x : CipTx) : (s.setCipTx c x).base = s.base := by rfl
@[simp] theorem State.cipCommit_base (s : State) : s.cipCommit.base = s.base := by simp [State.cipCommit]

/-! ### Gfp -/

@[simp] theorem State.setGfp_base (s : State) (c : Nat) (x : Gfp) : (s.setGfp c x).base = s.base := by rfl

/-! ### Clients -/

@[simp] theorem State.setClient_base (s : State) (k : Nat) (x : Client) : (s.setClient k x).base = s.base := by rfl
@[simp] theorem State.setLane_base (s : State) (l : Nat) (x : Lane) : (s.setLane l x).base = s.base := by rfl
@[simp] theorem State.endFrames_base (s : State) (k : Nat) (e : Egress) : (s.endFrames k e).base = s.base := by
  simp [State.endFrames]
@[simp] theorem State.calendarCommit_base (s : State) (old : Tab Nat) (g : Nat) : (s.calendarCommit old g).base = s.base := by
  simp [State.calendarCommit, ↓State.base_mk]
@[simp] theorem State.laneAsk_base (s : State) (l want : Nat) : (s.laneAsk l want).base = s.base := by simp [State.laneAsk]
theorem State.unlockPort_base {p : Nat} (hp : p < 64) (s : State) : (s.unlockPort p).base = s.base := by
  unfold State.unlockPort
  split
  · exact s.wr_pcsLock_base hp 0
  · rfl
@[simp] theorem State.lanesAsk_base (s : State) : s.lanesAsk.base = s.base := by
  unfold State.lanesAsk
  rw [forEach_base_mem fun p (hp : p ∈ portsAll) t => t.unlockPort_base (List.mem_range.mp hp)]
  simp
@[simp] theorem State.idleClients_base (s : State) : s.idleClients.base = s.base := by simp [State.idleClients]
@[simp] theorem State.clientGone_base (s : State) (k c : Nat) : (s.clientGone k c).base = s.base := by rfl
@[simp] theorem State.cliCommit_base (s : State) (old : Tab Nat) : (s.cliCommit old).base = s.base := by simp [State.cliCommit]

/-! ### Cellar -/

@[simp] theorem State.archiveWrite_base (s : State) (a : Nat) (bytes : List Nat) : (s.archiveWrite a bytes).base = s.base := by
  simp [State.archiveWrite]
@[simp] theorem State.archivePut_base (s : State) (a : Nat) (bytes : List Nat) : (s.archivePut a bytes).base = s.base := by
  simp [State.archivePut, ↓State.base_mk]
@[simp] theorem State.archiveResume_base (s : State) : s.archiveResume.base = s.base := by
  simp [State.archiveResume, ↓State.base_mk]
@[simp] theorem State.archiveRecord_base (s : State) (ws : List Word) : (s.archiveRecord ws).base = s.base := by
  simp [State.archiveRecord, ↓State.base_mk]
@[simp] theorem State.celLimits_base (s : State) : s.celLimits.base = s.base := by simp [State.celLimits]
@[simp] theorem State.celDown_base (s : State) : s.celDown.base = s.base := by simp [State.celDown, ↓State.base_mk]
@[simp] theorem State.celSleep_base (s : State) : s.celSleep.base = s.base := by simp [State.celSleep, ↓State.base_mk]
@[simp] theorem State.celCommit_base (s : State) (old : Tab Nat) : (s.celCommit old).base = s.base := by
  simp [State.celCommit, ↓State.base_mk]

/-! ### Slices -/

theorem State.startWake_rough {i : Nat} (hi : i < 8) (s : State) : (s.startWake i).base.rough = s.base.rough := by
  simp [State.startWake, State.wr_wakePending_rough hi]
theorem State.wakeIfEnabled_rough {i : Nat} (hi : i < 8) (s : State) : (s.wakeIfEnabled i).base.rough = s.base.rough := by
  unfold State.wakeIfEnabled
  split
  · exact s.startWake_rough hi
  · rfl
@[simp] theorem State.tdlStop_base (s : State) (i : Nat) : (s.tdlStop i).base = s.base := by simp [State.tdlStop]
@[simp] theorem State.noDefects_base (s : State) (i : Nat) : (s.noDefects i).base = s.base := by simp [State.noDefects, forEach]
@[simp] theorem State.leaveLit_base (s : State) (i : Nat) : (s.leaveLit i).base = s.base := by simp [State.leaveLit]
@[simp] theorem State.roleUpdate_base (s : State) : s.roleUpdate.base = s.base := by simp [State.roleUpdate]
theorem State.withDrainShort_base (s : State) (l : Tab Bool) : ({ s with ctl := { s.ctl with drainShort := l } }
    : State).base = s.base := rfl
@[simp] theorem State.drainOne_rough (s : State) (i : Nat) (short : Bool) : (s.drainOne i short).base.rough = s.base.rough := by
  unfold State.drainOne
  dsimp only
  split
  · rw [State.roleUpdate_base, State.poolRecompute_base, State.leaveLit_base]
    exact (congrArg Base.rough (State.withDrainShort_base ..)).trans (by simp)
  · rw [State.calLeaveLit_base]
    exact (congrArg Base.rough (State.withDrainShort_base ..)).trans (by simp)
@[simp] theorem State.loseSource_rough (s : State) : s.loseSource.base.rough = s.base.rough := by simp [State.loseSource]
@[simp] theorem State.sourceGone_rough (s : State) : s.sourceGone.base.rough = s.base.rough := by simp [State.sourceGone]
@[simp] theorem State.startDrain_rough (s : State) (i : Nat) (short : Bool) :
    (s.startDrain i short).base.rough = s.base.rough := by
  simp [State.startDrain]
@[simp] theorem State.drain_rough (s : State) (i : Nat) : (s.drain i).base.rough = s.base.rough := by simp [State.drain]
theorem State.applyEnable_rough {i : Nat} (hi : i < 8) (s : State) (old : Tab Nat) :
    (s.applyEnable old i).base.rough = s.base.rough := by
  unfold State.applyEnable
  dsimp only
  repeat' split
  all_goals simp [State.wr_wakePending_rough hi, State.wakeIfEnabled_rough hi]
@[simp] theorem State.applyEnables_rough (s : State) (old : Tab Nat) : (s.applyEnables old).base.rough = s.base.rough :=
  forEach_rough_mem (fun _ hi t => t.applyEnable_rough (slices8_lt hi) old) s
@[simp] theorem State.wakeAll_rough (s : State) : s.wakeAll.base.rough = s.base.rough :=
  forEach_rough_mem (fun _ hi t => t.wakeIfEnabled_rough (slices8_lt hi)) s
@[simp] theorem State.refLanes_rough (s : State) : s.refLanes.base.rough = s.base.rough := by simp [State.refLanes]

/-! ### VintageOps -/

@[simp] theorem State.toVt_base (s : State) (n : Nat) : (s.toVt n).base = s.base := by simp [State.toVt]
@[simp] theorem State.rxReverts_rough (s : State) (i : Nat) : (s.rxReverts i).base.rough = s.base.rough := by
  simp [State.rxReverts]
@[simp] theorem State.dropAgreement_rough (s : State) (i : Nat) : (s.dropAgreement i).base.rough = s.base.rough := by
  simp [State.dropAgreement]
@[simp] theorem State.sendCancel_base (s : State) (i : Nat) : (s.sendCancel i).base = s.base := by simp [State.sendCancel]
@[simp] theorem State.announceReturn_base (s : State) (i : Nat) : (s.announceReturn i).base = s.base := by
  unfold State.announceReturn
  dsimp only
  split <;> simp

/-! ### Vintage -/

@[simp] theorem State.txSwitch_base (s : State) (old : Tab Nat) (restart : Bool) (i : Nat) :
    (s.txSwitch old restart i).base = s.base := by
  unfold State.txSwitch
  dsimp only
  repeat' split
  all_goals simp
@[simp] theorem State.rxLocal_base (s : State) (old : Tab Nat) (restart : Bool) (at' : Option Nat) (i : Nat) :
    (s.rxLocal old restart at' i).base = s.base := by
  unfold State.rxLocal
  split <;> simp
@[simp] theorem State.calCommit_base (s : State) (old : Tab Nat) (i : Nat) : (s.calCommit old i).base = s.base := by
  simp [State.calCommit]
@[simp] theorem State.pryCommit_base (s : State) (old : Tab Nat) : (s.pryCommit old).base = s.base := by simp [State.pryCommit]
@[simp] theorem State.vddCommit_base (s : State) (old : Tab Nat) : (s.vddCommit old).base = s.base := by
  unfold State.vddCommit
  dsimp only
  repeat' split
  all_goals rfl
@[simp] theorem State.switchBlocks_rough (s : State) (old : Tab Nat) (early : RxImg) (restart : Nat → Bool) (at'
    : Nat → Option Nat) : (s.switchBlocks old early restart at').base.rough = s.base.rough := by
  simp [State.switchBlocks]

/-! ### ModeOps -/

@[simp] theorem State.exitDrain_rough (s : State) (i : Nat) : (s.exitDrain i).base.rough = s.base.rough := by
  simp [State.exitDrain]

/-! ### Programs -/

@[simp] theorem State.record_base (s : State) (tag : Word) (program step status sq func fault : Nat) :
    (s.record tag program step status sq func fault).base = s.base := by
  simp [State.record]
@[simp] theorem State.respond_base (s : State) (func program : Nat) (tag : Word) (outcome fault sq step : Nat) (results
    : List Word) : (s.respond func program tag outcome fault sq step results).base = s.base := by
  simp [State.respond]
@[simp] theorem State.unqueue_base (s : State) (q n : Nat) : (s.unqueue q n).base = s.base := by simp [State.unqueue]
@[simp] theorem State.freeClaims_base (s : State) (q : Nat) : (s.freeClaims q).base = s.base := by rfl
@[simp] theorem State.setReceivers_base (s : State) (src : Nat) (l : List Nat) : (s.setReceivers src l).base = s.base := by rfl
@[simp] theorem State.unreceive_base (s : State) (q src : Nat) : (s.unreceive q src).base = s.base := by simp [State.unreceive]
@[simp] theorem State.leaveWait_base (s : State) (q : Nat) : (s.leaveWait q).base = s.base := by
  unfold State.leaveWait
  split <;> simp
@[simp] theorem State.leavePacket_base (s : State) (q : Nat) : (s.leavePacket q).base = s.base := by
  unfold State.leavePacket
  split <;> simp
@[simp] theorem State.releaseSeq_base (s : State) (q : Nat) : (s.releaseSeq q).base = s.base := by simp [State.releaseSeq]
@[simp] theorem State.dropInFlight_base (s : State) (q : Nat) : (s.dropInFlight q).base = s.base := by rfl

/-! ### Modes -/

@[simp] theorem State.closeEntry_base (s : State) (q : Nat) : (s.closeEntry q).base = s.base := by
  unfold State.closeEntry
  split <;> simp
@[simp] theorem State.closeInFlight_base (s : State) : s.closeInFlight.base = s.base := by simp [State.closeInFlight]
@[simp] theorem State.faultSlice_rough (s : State) (code i : Nat) : (s.faultSlice code i).base.rough = s.base.rough := by
  simp [State.faultSlice]

/-! ### Twins -/

@[simp] theorem State.sendPair_base (s : State) (ws : List Nat) : (s.sendPair ws).base = s.base := by simp [State.sendPair]
@[simp] theorem State.mirrorGap_base (s : State) : s.mirrorGap.base = s.base := by simp [State.mirrorGap, ↓State.base_mk]

/-! ### Resets -/

@[simp] theorem State.newestOf_base (s : State) (rs : List (Nat × Nat)) : (s.newestOf rs).2.base = s.base := by
  unfold State.newestOf
  split
  · rfl
  · split <;> simp
@[simp] theorem State.loadRecords_base (s : State) (i : Nat) : (s.loadRecords i).base = s.base := by
  unfold State.loadRecords
  dsimp only
  split <;> simp
@[simp] theorem State.loadAgeing_base (s : State) : s.loadAgeing.base = s.base := by
  unfold State.loadAgeing
  dsimp only
  repeat' split
  all_goals simp [↓State.base_mk]
@[simp] theorem State.stopSeq_base (s : State) (q : Nat) : (s.stopSeq q).base = s.base := by simp [State.stopSeq]

/-! ### Faults -/

@[simp] theorem State.discardBlocks_base (s : State) (i : Nat) : (s.discardBlocks i).base = s.base := by
  simp [State.discardBlocks, ↓State.base_mk]
@[simp] theorem State.relockSlice_rough (s : State) (i : Nat) : (s.relockSlice i).base.rough = s.base.rough := by
  simp [State.relockSlice]
@[simp] theorem State.markFrame_base (s : State) (i : Nat) : (s.markFrame i).base = s.base := by simp [State.markFrame]
@[simp] theorem State.stallDrops_base (s : State) (b i : Nat) : (s.stallDrops b i).base = s.base := by simp [State.stallDrops]

end Sys2Proof.Machine
end

section
/-!
Frames of registers: a write to a listed field, and an event, keep every other field.
-/

namespace Sys2Proof.Machine

theorem RegsExcept.refl (s : State) (l : List (Fld × List Nat)) : RegsExcept s s l := fun _ _ _ => rfl

theorem RegsExcept.of_regs {s t u : State} {l : List (Fld × List Nat)} (h : RegsExcept s t l) (e : u.regs = t.regs) :
    RegsExcept s u l :=
  fun f is hk => (congrArg (fun r => tabGet (f.reset is) r (fldKey f is)) e).trans (h f is hk)

theorem RegsExcept.wr {s t : State} {l : List (Fld × List Nat)} (h : RegsExcept s t l) {f : Fld} {is : List Nat}
    (hm : fldKey f is ∈ keysOf l) (v : Nat) : RegsExcept s (t.wr f v is) l :=
  fun g js hk => (State.rd_wr_ne t f g v is js fun e => hk (e ▸ hm)).trans (h g js hk)

theorem RegsExcept.forEach {α : Type} {s t : State} {l : List (Fld × List Nat)} {f : α → State → State} {as : List α}
    (h : RegsExcept s t l) (step : ∀ a ∈ as, ∀ u, RegsExcept s u l → RegsExcept s (f a u) l) : RegsExcept s (forEach f as t) l := by
  induction as generalizing t with
  | nil => exact h
  | cons a as ih => exact ih (step a List.mem_cons_self t h) fun b hb => step b (List.mem_cons_of_mem a hb)

theorem RegsExcept.raise {s t : State} {l : List (Fld × List Nat)} (h : RegsExcept s t l) (e d : Nat) :
    RegsExceptE s (t.raise e d) l :=
  fun f is hk hE => (State.raise_rd t e d f is hE).trans (h f is hk)

theorem RegsExceptE.of_regs {s t u : State} {l : List (Fld × List Nat)} (h : RegsExceptE s t l) (e : u.regs = t.regs) :
    RegsExceptE s u l := fun f is hk hE => (congrArg (fun r => tabGet (f.reset is) r (fldKey f is)) e).trans (h f is hk hE)

theorem RegsExceptE.wr {s t : State} {l : List (Fld × List Nat)} (h : RegsExceptE s t l) {f : Fld} {is : List Nat}
    (hm : fldKey f is ∈ keysOf l) (v : Nat) : RegsExceptE s (t.wr f v is) l :=
  fun g js hk hE => (State.rd_wr_ne t f g v is js fun e => hk (e ▸ hm)).trans (h g js hk hE)

theorem mem_keysOf_map (f : Fld) {i : Nat} {is : List Nat} (h : i ∈ is) : fldKey f [i] ∈ keysOf (is.map fun n => (f, [n])) := by
  rw [keysOf, List.map_map]
  exact List.mem_map.mpr ⟨i, h, rfl⟩

theorem RegsExceptE.raise {s t : State} {l : List (Fld × List Nat)} (h : RegsExceptE s t l) (e d : Nat) :
    RegsExceptE s (t.raise e d) l := fun f is hk hE => (State.raise_rd t e d f is hE).trans (h f is hk hE)

end Sys2Proof.Machine
end

section
/-!
Changes of mode and the entry to RECOVERY: what they write of the base.
-/

namespace Sys2Proof.Machine

theorem State.mode_of_rough {s t : State} (h : t.base.rough = s.base.rough) : t.mode = s.mode := State.rd_of_rough h (by decide)

theorem Base.ctl_of_rough {s t : State} (h : t.base.rough = s.base.rough) :
    { t.ctl with drainShort := [] } = { s.ctl with drainShort := [] } := congrArg Base.ctl h

theorem Base.linkUp_of_rough {s t : State} (h : t.base.rough = s.base.rough) : t.hif.linkUp = s.hif.linkUp := congrArg Base.linkUp h

/-- GLB_MODE once the mode has become `new` (R31). -/
def State.withMode (s : State) (new : Nat) : State :=
  let t := (s.wr F.GLB_MODE_prev s.mode).wr F.GLB_MODE_mode new
  if t.ctl.heldReq then t else t.wr F.GLB_MODE_req new

theorem State.withMode_of_held (s : State) {new : Nat} (h : s.ctl.heldReq = true) :
    s.withMode new = (s.wr F.GLB_MODE_prev s.mode).wr F.GLB_MODE_mode new := if_pos h

theorem State.withMode_of_free (s : State) {new : Nat} (h : ¬s.ctl.heldReq = true) :
    s.withMode new = ((s.wr F.GLB_MODE_prev s.mode).wr F.GLB_MODE_mode new).wr F.GLB_MODE_req new := if_neg h

/-- A mode that is neither left for nor entered from DORMANT changes GLB_MODE, and no low field besides. -/
theorem State.enterMode_rough {s : State} {new : Nat} (hn : new ≠ modeDormant) (ho : s.mode ≠ modeDormant) :
    (s.enterMode new).base.rough = (s.withMode new).base.rough := by
  unfold State.enterMode
  dsimp only
  rw [if_neg hn, if_neg ho, State.roleUpdate_base, State.idleClients_base, State.refLanes_rough, State.lanesAsk_base,
    forEach_base fun i t => t.askRun_base i]
  have hcel (t : State) : (if s.mode = modeProving then { t with cel := { t.cel with inj := none } } else t).base = t.base := by
    split <;> rfl
  split
  · rw [State.wakeAll_rough, hcel]; rfl
  · rw [hcel]; rfl

theorem State.rd_withMode {s : State} {new : Nat} {f : Fld} {is : List Nat} (h : fldKey f is / 32 ≠ 0x10) :
    (s.withMode new).rd f is = s.rd f is := by
  have ne (g : Fld) (hg : fldKey g [] / 32 = 0x10) : fldKey f is ≠ fldKey g [] := fun e => h (e ▸ hg)
  unfold State.withMode
  dsimp only
  split
  · rw [State.rd_wr_ne _ _ _ _ _ _ (ne _ (by decide)), State.rd_wr_ne _ _ _ _ _ _ (ne _ (by decide))]
  · rw [State.rd_wr_ne _ _ _ _ _ _ (ne _ (by decide)), State.rd_wr_ne _ _ _ _ _ _ (ne _ (by decide)),
      State.rd_wr_ne _ _ _ _ _ _ (ne _ (by decide))]

theorem State.withMode_mode (s : State) {new : Nat} (h : new < 8) : (s.withMode new).mode = new := by
  have hw : new % 2 ^ fldWidth F.GLB_MODE_mode = new := Nat.mod_eq_of_lt h
  unfold State.withMode
  dsimp only
  split
  · exact (State.rd_wr_self ..).trans hw
  · exact (State.rd_wr_ne _ _ _ _ _ _ (by decide)).trans ((State.rd_wr_self ..).trans hw)

theorem State.withMode_ctl (s : State) (new : Nat) : (s.withMode new).ctl = s.ctl := by
  unfold State.withMode
  dsimp only
  split <;> rfl

theorem State.withMode_hif (s : State) (new : Nat) : (s.withMode new).hif = s.hif := by
  unfold State.withMode
  dsimp only
  split <;> rfl

theorem Base.recoverRun_of_base {s t : State} (h : t.base = s.base) : t.ctl.recoverRun = s.ctl.recoverRun :=
  congrArg (fun b => b.ctl.recoverRun) h

theorem Base.recoverRun_of_rough {s t : State} (h : t.base.rough = s.base.rough) : t.ctl.recoverRun = s.ctl.recoverRun := by
  have hctl := congrArg (fun b : Base => b.ctl.recoverRun) h
  exact hctl

/-- A program that ends keeps the base while the executive runs no RECOVER. -/
theorem State.closeProgram_base {s : State} (h : s.ctl.recoverRun = false) (q st code : Nat) (ws : List Word) :
    (s.closeProgram q st code ws).base = s.base := by
  unfold State.closeProgram
  dsimp only
  split
  · split
    · next hr =>
      simp only [State.runsRecover, Bool.and_eq_true] at hr
      have hrun := hr.1
      rw [Base.recoverRun_of_base (s := s) (by simp), h] at hrun
      cases hrun
    · simp
  · rfl

theorem forEach_base_of {α : Type} {f : α → State → State} {s : State} (l : List α)
    (h : ∀ a t, t.base = s.base → (f a t).base = s.base) : (forEach f l s).base = s.base := by
  have go (t : State) (ht : t.base = s.base) : (forEach f l t).base = s.base := by
    induction l generalizing t with
    | nil => exact ht
    | cons a l ih => exact ih (f a t) (h a t ht)
  exact go s rfl

theorem State.preempt_base {s : State} (h : s.ctl.recoverRun = false) (which : Seq → Bool) (code : Nat) :
    (s.preempt which code).base = s.base := by
  refine forEach_base_of programSqs fun q t ht => ?_
  split
  · exact (State.closeProgram_base ((Base.recoverRun_of_base ht).trans h) ..).trans ht
  · exact ht

/-- The base without the states of the slices and the record of faults and of RECOVER. -/
def Base.still (b : Base) : Base :=
  { b.rough with ctl := { b.ctl with faultsOpen := [], sharedLoop := false, recoverWord := none, recoverRun := false } }

theorem Base.still_of_rough {s t : State} (h : t.base.rough = s.base.rough) : t.base.still = s.base.still := by
  have hctl : t.base.ctl = s.base.ctl := (congrArg Base.ctl h : t.base.rough.ctl = s.base.rough.ctl)
  rw [Base.still, Base.still, h, hctl]

theorem Base.rd_of_still {s t : State} (h : t.base.still = s.base.still) {f : Fld} {is : List Nat}
    (hf : lowKey (fldKey f is) = true) :
    t.rd f is = s.rd f is := by
  have := congrFun (congrFun (congrArg Base.regs h) (f.reset is)) (fldKey f is)
  simpa [Base.still, Base.rough, State.base, hf, State.rd] using this

theorem Base.linkUp_of_still {s t : State} (h : t.base.still = s.base.still) : t.hif.linkUp = s.hif.linkUp := congrArg Base.linkUp h

theorem Base.nmi_of_still {s t : State} (h : t.base.still = s.base.still) : t.ctl.nmi = s.ctl.nmi := by
  have hctl := congrArg (fun b : Base => b.ctl.nmi) h
  exact hctl

/-- The effects of a fault reach the low fields and the control state in the record of faults alone (R539). -/
theorem State.faultEffects_still (s : State) (code : Nat) : (s.faultEffects code).base.still = s.base.still := by
  have hopen (t : State) (l : List Nat) : ({ t with ctl := { t.ctl with faultsOpen := l } } :
      State).base.still = t.base.still := rfl
  have hloop (t : State) : ({ t with ctl := { t.ctl with sharedLoop := true } } : State).base.still = t.base.still := rfl
  have hcel (t : State) : (if code = 1 then t.celSleep else t).base = t.base := by split <;> simp
  have hslices : (forEach (fun i t => t.faultSlice code i) slices8 s).base.still = s.base.still :=
    Base.still_of_rough (forEach_rough (fun i t => t.faultSlice_rough code i) _ _)
  unfold State.faultEffects
  dsimp only
  rw [State.roleUpdate_base, hcel]
  split
  · rw [hloop]
    split
    · exact (hopen _ _).trans hslices
    · exact hslices
  · split
    · exact (hopen _ _).trans hslices
    · exact hslices

theorem tabGet_put_congr {d d' : Nat} {x y : Tab Nat} {n m : Nat} (h : tabGet d x m = tabGet d y m) (v : Nat) :
    tabGet d (tabPut d' x n v) m = tabGet d (tabPut d' y n v) m := by
  by_cases hm : m = n
  · subst hm
    unfold tabPut
    split
    · rw [tabGet_erase_self, tabGet_erase_self]
    · rw [tabGet_ins_self, tabGet_ins_self]
  · rw [tabGet_put_ne _ _ _ _ hm, tabGet_put_ne _ _ _ _ hm, h]

/-- A write to a register field takes states of one base to states of one base. -/
theorem State.wr_still_congr {s t : State} (h : t.base.still = s.base.still) (f : Fld) (v : Nat) (is : List Nat) :
    (t.wr f v is).base.still = (s.wr f v is).base.still := by
  have hregs := congrArg Base.regs h
  simp only [Base.still, Base.rough, State.base, State.wr, Base.mk.injEq, true_and] at h hregs ⊢
  refine ⟨?_, h.2⟩
  funext d k
  have hk := congrFun (congrFun hregs d) k
  by_cases hl : lowKey k = true
  · simp only [hl, if_true] at hk ⊢
    exact tabGet_put_congr hk _
  · simp only [hl, Bool.false_eq_true, if_false]

theorem State.withMode_still_congr {s t : State} (h : t.base.still = s.base.still) (new : Nat) :
    (t.withMode new).base.still = (s.withMode new).base.still := by
  have hreq : t.ctl.heldReq = s.ctl.heldReq := congrArg (fun b => b.ctl.heldReq) h
  have hmode : t.mode = s.mode := Base.rd_of_still h (by decide)
  have hwr := State.wr_still_congr (State.wr_still_congr h F.GLB_MODE_prev s.mode []) F.GLB_MODE_mode new []
  by_cases hheld : s.ctl.heldReq = true
  · rw [t.withMode_of_held (hreq.trans hheld), s.withMode_of_held hheld, hmode]
    exact hwr
  · rw [t.withMode_of_free (by rw [hreq]; exact hheld), s.withMode_of_free hheld, hmode]
    exact State.wr_still_congr hwr ..

/-- The state with no fault and no RECOVER on record. -/
def State.noFaults (s : State) : State :=
  { s with ctl := { s.ctl with faultsOpen := [], recoverWord := none, recoverRun := false } }

theorem State.enterRecovery_eq (s : State) (code : Nat) : s.enterRecovery code =
    ((forEach (fun i t => t.abortRun i) slices8 ((((s.noFaults.enterMode modeRecovery).wr F.GLB_REC_STAT_cause code).addSat
      F.GLB_REC_STAT_entries 1 255).preempt (fun x => !x.recOk) 0xD)).faultEffects code).raise 0x01 code := by
  unfold State.enterRecovery State.noFaults
  rfl

/-- The entry to RECOVERY makes it the mode and writes its cause (R539, R540). -/
theorem State.enterRecovery_still {s : State} (ho : s.mode ≠ modeDormant) (code : Nat) :
    (s.enterRecovery code).base.still = ((s.withMode modeRecovery).wr F.GLB_REC_STAT_cause code).base.still := by
  have henter : (s.noFaults.enterMode modeRecovery).base.rough = (s.noFaults.withMode modeRecovery).base.rough :=
    State.enterMode_rough (by decide) ho
  have hrun : (((s.noFaults.enterMode modeRecovery).wr F.GLB_REC_STAT_cause code).addSat F.GLB_REC_STAT_entries 1 255).ctl.recoverRun
      = false := by
    rw [State.addSat, State.wr_ctl, State.wr_ctl, Base.recoverRun_of_rough henter, State.withMode_ctl, State.noFaults]
  rw [State.enterRecovery_eq, State.raise_base, State.faultEffects_still, forEach_base fun i t => t.abortRun_base i,
    State.preempt_base hrun, State.addSat_base (by decide)]
  have hforgot : s.noFaults.base.still = s.base.still := rfl
  exact State.wr_still_congr ((Base.still_of_rough henter).trans (State.withMode_still_congr hforgot _)) ..

end Sys2Proof.Machine
end

section
/-!
The host clock (R44, R46, R47, R50).
-/

namespace Sys2Proof.Machine

/-! ### Loss of the host clock -/

/-- What MSIX_RESET of each function keeps, the loss of the link keeps where it does not read the link. -/
theorem State.linkDown_keeps {β : Type} (g : State → β) (h : ∀ (t : State) (x : Hif), g { t with hif := x } = g t) (s : State) :
    g s.linkDown = g s := by
  unfold State.linkDown
  dsimp only
  rw [h]
  exact forEach_keeps g _ (fun f t => h t _) _ s

@[simp] theorem State.linkDown_regs (s : State) : s.linkDown.regs = s.regs := s.linkDown_keeps State.regs fun _ _ => rfl
@[simp] theorem State.linkDown_ctl (s : State) : s.linkDown.ctl = s.ctl := s.linkDown_keeps State.ctl fun _ _ => rfl
@[simp] theorem State.linkDown_linkUp (s : State) : s.linkDown.hif.linkUp = false := by
  simp only [State.linkDown]

theorem RegsExcept.unmeasured {s t : State} {l : List (Fld × List Nat)} (h : RegsExcept s t l)
    (hl : ∀ n ∈ candidates, fldKey F.TIM_CAND_OFF_off [n] ∈ keysOf l) : RegsExcept s t.unmeasured l := by
  unfold State.unmeasured
  refine h.forEach fun i hi u hu => ?_
  split
  · exact hu.wr (hl i hi) _
  · exact hu

theorem State.unmeasured_rd (s : State) {f : Fld} {is : List Nat} (h : fldKey f is / 32 < 0x100040) :
    s.unmeasured.rd f is = s.rd f is := by
  have ne (n : Nat) : fldKey f is ≠ fldKey F.TIM_CAND_OFF_off [n] := by
    have e : fldKey F.TIM_CAND_OFF_off [n] = (0x100040 + (1 * n + 0)) * 32 + 0 := rfl
    omega
  unfold State.unmeasured
  refine forEach_keeps (fun t => t.rd f is) _ (fun i t => ?_) _ s
  split
  · exact State.rd_wr_ne _ _ _ _ _ _ (ne i)
  · rfl

/-- The clock domains on the fallback oscillator (R46). -/
def State.onFallback (s : State) : State :=
  (((s.wr F.TIM_CLK_STAT_hostclk_fail 1).wr F.TIM_CLK_STAT_on_fallback 1).wr F.TIM_CLK_STAT_hostclk_good 0).wr F.TIM_CLK_STAT_main_lock 0

/-- NMI_N asserted for want of the host clock (R47). -/
def State.nmiAsserted (s : State) : State := { s with ctl := { s.ctl with nmi := true, hostClk := false } }

theorem State.nmiAsserted_regs (s : State) : s.nmiAsserted.regs = s.regs := rfl
theorem State.nmiAsserted_ctl (s : State) : s.nmiAsserted.ctl = { s.ctl with nmi := true, hostClk := false } := rfl

/-- The state in which HOSTCLK_FAIL is raised (R46, R47). -/
def State.clockLost (s : State) : State := s.onFallback.unmeasured.nmiAsserted.linkDown

theorem execHostclkFailDeclare_next {s : State} (hb : s.ctl.boot = .done) (hf : s.bit F.TIM_CLK_STAT_on_fallback = false) :
    exec .hostclkFailDeclare s = .next ((s.clockLost.raise 0x00 s.clockLost.mode).fatal 1) := by
  have hc : s.clocked = true := by rw [State.clocked, hb]
  have hn : ¬(s.clocked = false ∨ s.bit F.TIM_CLK_STAT_on_fallback = true) := by simp [hc, hf]
  refine congrArg Host.Outcome.next ((if_neg hn).trans ?_)
  unfold State.clockLost State.onFallback State.nmiAsserted
  rfl

/-- The fields that the loss of the host clock writes before its event. -/
def clockLostFields : List (Fld × List Nat) :=
  [(F.TIM_CLK_STAT_hostclk_fail, []), (F.TIM_CLK_STAT_on_fallback, []), (F.TIM_CLK_STAT_hostclk_good, []),
    (F.TIM_CLK_STAT_main_lock, [])] ++ candidates.map fun n => (F.TIM_CAND_OFF_off, [n])

theorem State.onFallback_regsExcept (s : State) : RegsExcept s s.onFallback clockLostFields := by
  have hm {f : Fld} (h : fldKey f [] ∈ keysOf [(F.TIM_CLK_STAT_hostclk_fail, []), (F.TIM_CLK_STAT_on_fallback, []),
      (F.TIM_CLK_STAT_hostclk_good, []), (F.TIM_CLK_STAT_main_lock, [])]) : fldKey f [] ∈ keysOf clockLostFields := by
    rw [keysOf, clockLostFields, List.map_append]
    exact List.mem_append_left _ h
  exact ((((RegsExcept.refl s _).wr (hm (by decide)) 1).wr (hm (by decide)) 1).wr (hm (by decide)) 0).wr (hm (by decide)) 0

theorem mem_clockLostFields_cand {n : Nat} (h : n ∈ candidates) : fldKey F.TIM_CAND_OFF_off [n] ∈ keysOf clockLostFields := by
  rw [keysOf, clockLostFields, List.map_append]
  exact List.mem_append_right _ (mem_keysOf_map F.TIM_CAND_OFF_off h)

theorem State.clockLost_regs (s : State) : s.clockLost.regs = s.onFallback.unmeasured.regs := by
  rw [State.clockLost, State.linkDown_regs, State.nmiAsserted_regs]

theorem State.clockLost_regsExcept (s : State) : RegsExcept s s.clockLost clockLostFields :=
  (s.onFallback_regsExcept.unmeasured fun _ hn => mem_clockLostFields_cand hn).of_regs s.clockLost_regs

/-- What is below TIM_CAND_OFF reads as it does once the clocks have switched. -/
theorem State.clockLost_rd (s : State) {f : Fld} {is : List Nat} (h : fldKey f is / 32 < 0x100040) :
    s.clockLost.rd f is = s.onFallback.rd f is := by
  rw [← State.unmeasured_rd s.onFallback h, State.rd, State.rd, State.clockLost_regs]

/-- What does not read the register fields is the same while the candidates have no measurement. -/
theorem State.unmeasured_keeps {β : Type} (g : State → β) (h : ∀ (t : State) f v is, g (t.wr f v is) = g t) (s : State) :
    g s.unmeasured = g s := by
  unfold State.unmeasured
  refine forEach_keeps g _ (fun i t => ?_) _ s
  split
  · exact h ..
  · rfl

theorem State.unmeasured_ctl (s : State) : s.unmeasured.ctl = s.ctl := s.unmeasured_keeps State.ctl fun _ _ _ _ => rfl

theorem State.clockLost_ctl (s : State) : s.clockLost.ctl = { s.ctl with nmi := true, hostClk := false } := by
  rw [State.clockLost, State.linkDown_ctl, State.nmiAsserted_ctl, State.unmeasured_ctl]
  rfl

theorem State.clockLost_linkUp (s : State) : s.clockLost.hif.linkUp = false := State.linkDown_linkUp _

theorem State.onFallback_rd (s : State) {f : Fld} {is : List Nat} (h : fldKey f is / 32 ≠ 0x100000) :
    s.onFallback.rd f is = s.rd f is := by
  have ne (g : Fld) (hg : fldKey g [] / 32 = 0x100000) : fldKey f is ≠ fldKey g [] := fun e => h (e ▸ hg)
  rw [State.onFallback, State.rd_wr_ne _ _ _ _ _ _ (ne _ (by decide)), State.rd_wr_ne _ _ _ _ _ _ (ne _ (by decide)),
    State.rd_wr_ne _ _ _ _ _ _ (ne _ (by decide)), State.rd_wr_ne _ _ _ _ _ _ (ne _ (by decide))]

theorem State.clockLost_mode (s : State) : s.clockLost.mode = s.mode :=
  (s.clockLost_rd (by decide)).trans (s.onFallback_rd (by decide))

theorem State.onFallback_reads (s : State) : s.onFallback.rd F.TIM_CLK_STAT_on_fallback = 1
    ∧ s.onFallback.rd F.TIM_CLK_STAT_hostclk_fail = 1 ∧ s.onFallback.rd F.TIM_CLK_STAT_main_lock = 0 := by
  refine ⟨?_, ?_, State.rd_wr_self ..⟩
  · rw [State.onFallback, State.rd_wr_ne _ _ _ _ _ _ (by decide), State.rd_wr_ne _ _ _ _ _ _ (by decide)]
    exact State.rd_wr_self ..
  · rw [State.onFallback, State.rd_wr_ne _ _ _ _ _ _ (by decide), State.rd_wr_ne _ _ _ _ _ _ (by decide),
      State.rd_wr_ne _ _ _ _ _ _ (by decide)]
    exact State.rd_wr_self ..

theorem State.clockLost_noEvents (s : State) : ({ s.clockLost.noEvents with ctl := s.ctl } : State) = s.noEvents := by
  have hlink (t : State) : ({ t.linkDown.noEvents with ctl := s.ctl } : State) = { t.noEvents with ctl := s.ctl } :=
    t.linkDown_keeps (fun u => ({ u.noEvents with ctl := s.ctl } : State)) fun _ _ => rfl
  have hcand (t : State) : ({ t.unmeasured.noEvents with ctl := s.ctl } : State) = { t.noEvents with ctl := s.ctl } :=
    t.unmeasured_keeps (fun u => ({ u.noEvents with ctl := s.ctl } : State)) fun _ _ _ _ => rfl
  have hnmi (t : State) : ({ t.nmiAsserted.noEvents with ctl := s.ctl } : State) = { t.noEvents with ctl := s.ctl } := rfl
  have hwr : ({ s.onFallback.noEvents with ctl := s.ctl } : State) = s.noEvents := rfl
  rw [State.clockLost, hlink, hnmi, hcand, hwr]

/-! ### Fatal faults -/

theorem State.fatal_of_dormant {s : State} (hm : s.mode = modeDormant) (hb : s.bit F.GLB_MODE_busy = false) (code : Nat) :
    s.fatal code = s := by
  have ha : s.abandonTransition = s := by rw [State.abandonTransition, hb]; rfl
  rw [State.fatal, ha]
  exact if_pos hm

theorem State.abandonTransition_rd (s : State) {f : Fld} {is : List Nat} (h : fldKey f is / 32 ≠ 0x10) :
    s.abandonTransition.rd f is = s.rd f is := by
  have ne (g : Fld) (hg : fldKey g [] / 32 = 0x10) : fldKey f is ≠ fldKey g [] := fun e => h (e ▸ hg)
  unfold State.abandonTransition
  dsimp only
  split
  · exact (State.rd_wr_ne _ _ _ _ _ _ (ne _ (by decide))).trans (State.rd_wr_ne _ _ _ _ _ _ (ne _ (by decide)))
  · rfl

theorem State.abandonTransition_mode (s : State) : s.abandonTransition.mode = s.mode := by
  unfold State.abandonTransition
  dsimp only
  split
  · exact (State.rd_wr_ne _ _ _ _ _ _ (by decide)).trans (State.rd_wr_ne _ _ _ _ _ _ (by decide))
  · rfl

theorem State.abandonTransition_nmi (s : State) : s.abandonTransition.ctl.nmi = s.ctl.nmi := by
  unfold State.abandonTransition
  dsimp only
  split <;> rfl

theorem State.abandonTransition_hif (s : State) : s.abandonTransition.hif = s.hif := by
  unfold State.abandonTransition
  dsimp only
  split <;> rfl

/-- A fault outside DORMANT and RECOVERY enters RECOVERY (R539). -/
theorem State.fatal_of_running {s : State} (hd : s.mode ≠ modeDormant) (hr : s.mode ≠ modeRecovery) (code : Nat) :
    s.fatal code = s.abandonTransition.enterRecovery code := by
  unfold State.fatal
  dsimp only
  rw [if_neg (s.abandonTransition_mode.symm ▸ hd), if_neg (s.abandonTransition_mode.symm ▸ hr)]

theorem State.enterRecovery_pends (s : State) (code : Nat) : (s.enterRecovery code).pends 0x01 = true := by
  rw [State.enterRecovery_eq]
  exact State.raise_pends _ _ _ (by decide)

/-! ### The obligation -/

theorem hostclkFailDeclare_dormant {s : State} (hb : s.ctl.boot = .done) (hm : s.mode = modeDormant)
    (hf : s.bit F.TIM_CLK_STAT_on_fallback = false) (hbusy : s.bit F.GLB_MODE_busy = false) :
    exec .hostclkFailDeclare s = .next (s.clockLost.raise 0x00 s.clockLost.mode) := by
  have keep {f : Fld} (h : fldKey f [] ∉ eventKeys ∧ fldKey f [] / 32 < 0x100040 ∧ fldKey f [] / 32 ≠ 0x100000) :
      (s.clockLost.raise 0x00 s.clockLost.mode).rd f = s.rd f :=
    (State.raise_rd _ _ _ _ _ h.1).trans ((s.clockLost_rd h.2.1).trans (s.onFallback_rd h.2.2))
  have hbusy' : (s.clockLost.raise 0x00 s.clockLost.mode).bit F.GLB_MODE_busy = false := by
    rw [State.bit, keep (by decide)]
    exact hbusy
  rw [execHostclkFailDeclare_next hb hf, State.fatal_of_dormant ((keep (by decide)).trans hm) hbusy']

theorem hostclkFailDeclare_running {s : State} (hb : s.ctl.boot = .done) (hd : s.mode ≠ modeDormant) (hr : s.mode ≠ modeRecovery)
    (hf : s.bit F.TIM_CLK_STAT_on_fallback = false) :
    ∃ t, exec .hostclkFailDeclare s = .next t ∧ t.ctl.nmi = true ∧ t.mode = modeRecovery ∧ t.hif.linkUp = false
      ∧ t.rd F.GLB_REC_STAT_cause = 1 ∧ t.rd F.TIM_CLK_STAT_on_fallback = 1 ∧ t.pends 0x01 = true := by
  obtain ⟨u, hu⟩ : ∃ u, u = s.clockLost.raise 0x00 s.clockLost.mode := ⟨_, rfl⟩
  have hmode : u.mode = s.mode := by rw [hu]; exact (State.raise_rd _ _ _ _ _ (by decide)).trans s.clockLost_mode
  have hfall : u.rd F.TIM_CLK_STAT_on_fallback = 1 := by
    rw [hu]
    exact (State.raise_rd _ _ _ _ _ (by decide)).trans ((s.clockLost_rd (by decide)).trans s.onFallback_reads.1)
  have hnmi : u.ctl.nmi = true := by rw [hu, State.raise_ctl, State.clockLost_ctl]
  have hbase : u.base.rough = s.clockLost.base.rough := by rw [hu, State.raise_base]
  have hlink : u.hif.linkUp = false := by rw [Base.linkUp_of_rough hbase, State.clockLost_linkUp]
  have hstill := State.enterRecovery_still (s := u.abandonTransition) (by rw [u.abandonTransition_mode, hmode]; exact hd) 1
  refine ⟨u.abandonTransition.enterRecovery 1, ?_, ?_, ?_, ?_, ?_, ?_, State.enterRecovery_pends ..⟩
  · rw [execHostclkFailDeclare_next hb hf, ← hu, State.fatal_of_running (by rw [hmode]; exact hd) (by rw [hmode]; exact hr)]
  · rw [Base.nmi_of_still hstill, State.wr_ctl, State.withMode_ctl, State.abandonTransition_nmi, hnmi]
  · refine (Base.rd_of_still hstill (by decide)).trans ((State.rd_wr_ne _ _ _ _ _ _ (by decide)).trans ?_)
    exact State.withMode_mode _ (by decide)
  · rw [Base.linkUp_of_still hstill, State.wr_hif, State.withMode_hif, State.abandonTransition_hif, hlink]
  · exact (Base.rd_of_still hstill (by decide)).trans (State.rd_wr_self ..)
  · refine (Base.rd_of_still hstill (by decide)).trans ((State.rd_wr_ne _ _ _ _ _ _ (by decide)).trans ?_)
    rw [State.rd_withMode (by decide), State.abandonTransition_rd _ (by decide), hfall]

theorem State.sendAllPending_keeps {β : Type} (g : State → β) (h : ∀ (t : State) (x : Hif), x.linkUp = t.hif.linkUp → g
    { t with hif := x } = g t)
    (s : State) : g s.sendAllPending = g s := by
  unfold State.sendAllPending
  refine forEach_keeps g _ (fun k t => ?_) _ s
  unfold State.sendPending
  dsimp only
  split
  · exact h t _ rfl
  · rfl

/-- The host clock back: the domains run from it, and the link trains unless the straps forbid it (R50). -/
def State.clockBack (s : State) : State :=
  let s := (s.wr F.TIM_CLK_STAT_on_fallback 0).wr F.TIM_CLK_STAT_hostclk_good 1
  let s := s.wr F.TIM_CLK_STAT_main_lock (b2n (decide (s.mode ≠ modeDormant)))
  { s with ctl := { s.ctl with hostClk := true }, hif := { s.hif with linkUp := !s.bit F.GLB_STRAP_nopcie } }

/-- The cellar trains again in RECOVERY (R401). -/
def State.cellarDue (s : State) : State :=
  if s.mode = modeRecovery then { s with cel := { s.cel with trainDue := true } } else s

theorem State.cellarDue_keeps {β : Type} (g : State → β) (h : ∀ (t : State) (x : Cel), g { t with cel := x } = g t) (s : State) :
    g s.cellarDue = g s := by
  unfold State.cellarDue
  split
  · exact h ..
  · rfl

theorem execHostclkReturn_next {s : State} (hb : s.ctl.boot = .done) (hf : s.bit F.TIM_CLK_STAT_on_fallback = true) :
    exec .hostclkReturn s = .next ((s.clockBack.cellarDue.faultCleared 1).sendAllPending) := by
  have hc : s.clocked = true := by rw [State.clocked, hb]
  refine congrArg Host.Outcome.next ((if_pos ⟨hc, hf⟩).trans ?_)
  unfold State.cellarDue State.clockBack
  rfl

/-- What reads neither the cellar nor the host interface nor the control part is what it is once the clock is back. -/
theorem hostclkReturn_keeps {β : Type} (g : State → β) (hcel : ∀ (t : State) (x : Cel), g { t with cel := x } = g t)
    (hctl : ∀ (t : State) (x : Ctl), g { t with ctl := x } = g t)
    (hhif : ∀ (t : State) (x : Hif), x.linkUp = t.hif.linkUp → g { t with hif := x } = g t) (s : State) :
    g ((s.clockBack.cellarDue.faultCleared 1).sendAllPending) = g s.clockBack := by
  rw [State.sendAllPending_keeps g hhif, State.faultCleared, hctl, State.cellarDue_keeps g hcel]

theorem State.clockBack_regsExcept (s : State) : RegsExcept s s.clockBack
    [(F.TIM_CLK_STAT_on_fallback, []), (F.TIM_CLK_STAT_hostclk_good, []), (F.TIM_CLK_STAT_main_lock, [])] :=
  (((RegsExcept.refl s _).wr (by decide) 0).wr (by decide) 1).wr (by decide) _

theorem hostclkReturn {s : State} (hb : s.ctl.boot = .done) (hf : s.bit F.TIM_CLK_STAT_on_fallback = true) :
    ∃ t, exec .hostclkReturn s = .next t ∧ t.rd F.TIM_CLK_STAT_on_fallback = 0 ∧ t.rd F.TIM_CLK_STAT_hostclk_good = 1
      ∧ 1 ∉ t.ctl.faultsOpen ∧ t.ctl.nmi = s.ctl.nmi ∧ t.ctl.hostClk = true
      ∧ t.hif.linkUp = (!s.bit F.GLB_STRAP_nopcie) ∧ t.vtg = s.vtg ∧ t.seqs = s.seqs ∧ t.exec = s.exec
      ∧ RegsExcept s t [(F.TIM_CLK_STAT_on_fallback, []), (F.TIM_CLK_STAT_hostclk_good, []), (F.TIM_CLK_STAT_main_lock, [])] := by
  have hctl : ((s.clockBack.cellarDue.faultCleared 1).sendAllPending).ctl
      = { s.ctl with hostClk := true, faultsOpen := s.ctl.faultsOpen.filter fun c => c ≠ 1 } := by
    rw [State.sendAllPending_keeps State.ctl fun _ _ _ => rfl, State.faultCleared, State.cellarDue_keeps State.ctl fun _ _ => rfl]
    rfl
  have hregs : ((s.clockBack.cellarDue.faultCleared 1).sendAllPending).regs = s.clockBack.regs :=
    hostclkReturn_keeps State.regs (fun _ _ => rfl) (fun _ _ => rfl) (fun _ _ _ => rfl) s
  refine ⟨_, execHostclkReturn_next hb hf, ?_, ?_, ?_, ?_, ?_, ?_, ?_, ?_, ?_, s.clockBack_regsExcept.of_regs hregs⟩
  · rw [State.rd, hregs]
    exact (State.rd_wr_ne _ _ _ _ _ _ (by decide)).trans ((State.rd_wr_ne _ _ _ _ _ _ (by decide)).trans (State.rd_wr_self ..))
  · rw [State.rd, hregs]
    exact (State.rd_wr_ne _ _ _ _ _ _ (by decide)).trans (State.rd_wr_self ..)
  · simp [hctl]
  · rw [hctl]
  · rw [hctl]
  · rw [hostclkReturn_keeps (fun t => t.hif.linkUp) (fun _ _ => rfl) (fun _ _ => rfl) (fun _ _ h => h) s]
    have hstrap : s.clockBack.bit F.GLB_STRAP_nopcie = s.bit F.GLB_STRAP_nopcie := by
      rw [State.bit, s.clockBack_regsExcept _ _ (by decide), State.bit]
    rw [← hstrap]
    rfl
  · exact hostclkReturn_keeps State.vtg (fun _ _ => rfl) (fun _ _ => rfl) (fun _ _ _ => rfl) s
  · exact hostclkReturn_keeps State.seqs (fun _ _ => rfl) (fun _ _ => rfl) (fun _ _ _ => rfl) s
  · exact hostclkReturn_keeps State.exec (fun _ _ => rfl) (fun _ _ => rfl) (fun _ _ _ => rfl) s

/-- Settles O12: coasting, the release of NMI_N and the modulation period are their definitions; the failure is raised on the
fallback oscillator and is fatal outside DORMANT; the return is the domains on the host clock again. -/
theorem hostClock : Obligations.HostClock := by
  intro s
  refine ⟨fun hlock => ?_, fun hb hm hf hbusy => ?_, fun hb hd hr hf => hostclkFailDeclare_running hb hd hr hf,
    fun hb hf => hostclkReturn hb hf, ?_, rfl⟩
  · have hframe : RegsExcept s ((s.wr F.TIM_CLK_STAT_main_coast 1).wr F.TIM_CLK_STAT_main_lock 0)
        [(F.TIM_CLK_STAT_main_coast, []), (F.TIM_CLK_STAT_main_lock, [])] :=
      ((RegsExcept.refl s _).wr (by decide) 1).wr (by decide) 0
    refine ⟨_, congrArg Host.Outcome.next (if_pos hlock), ?_, State.rd_wr_self _ F.TIM_CLK_STAT_main_lock 0 [], rfl,
      hframe.of_regs rfl, rfl⟩
    exact (State.rd_wr_ne _ F.TIM_CLK_STAT_main_lock F.TIM_CLK_STAT_main_coast 0 [] [] (by decide)).trans
      (s.rd_wr_self F.TIM_CLK_STAT_main_coast 1 [])
  · obtain ⟨hfall, hfail, hlock⟩ := s.onFallback_reads
    have keep {f : Fld} (h : fldKey f [] ∉ eventKeys ∧ fldKey f [] / 32 < 0x100040) :
        (s.clockLost.raise 0x00 s.clockLost.mode).rd f = s.onFallback.rd f :=
      (State.raise_rd _ _ _ _ _ h.1).trans (s.clockLost_rd h.2)
    have hmode : (s.clockLost.raise 0x00 s.clockLost.mode).mode = s.mode := (keep (by decide)).trans (s.onFallback_rd (by decide))
    refine ⟨_, hostclkFailDeclare_dormant hb hm hf hbusy, ?_, (keep (by decide)).trans hfall, (keep (by decide)).trans hfail,
      (keep (by decide)).trans hlock, ?_, hmode.trans hm, State.raise_pends _ _ _ (by decide), s.clockLost_regsExcept.raise _ _, ?_⟩
    · rw [State.raise_ctl, State.clockLost_ctl]
    · have hbase : (s.clockLost.raise 0x00 s.clockLost.mode).base.rough = s.clockLost.base.rough := by rw [State.raise_base]
      rw [Base.linkUp_of_rough hbase, State.clockLost_linkUp]
    · rw [State.raise_noEvents, State.clockLost_noEvents]
  · have hframe : RegsExcept s (s.wr F.TIM_CLK_STAT_hostclk_fail 0) [(F.TIM_CLK_STAT_hostclk_fail, [])] :=
      (RegsExcept.refl s _).wr (by decide) 0
    exact ⟨_, rfl, s.rd_wr_self F.TIM_CLK_STAT_hostclk_fail 0 [], rfl, hframe.of_regs rfl, rfl⟩

end Sys2Proof.Machine
end

section
/-!
What the datapath, the cellar, events and the mirror of the twin leave of the programs: `State.desk` gathers the executive, the
queues and which sequencers are parked; a lemma `…_desk` says that an operation keeps them, or keeps all but the queue it works on.
-/

namespace Sys2Proof.Machine

/-- A sequencer in reset, with nothing that it waits for and no packet. -/
def Seq.parked (x : Seq) : Bool := decide (x.state = .inReset ∧ x.wait = none ∧ x.pktQ = none)

/-- Claims, in-flight entries and the rest of the executive, the queues but the one of the twin, and which sequencers are
    parked. -/
structure Desk where
  exec : Exec
  queues : Nat → Queue
  parked : Nat → Bool

def State.desk (s : State) : Desk :=
  ⟨s.exec, fun q => if q = 34 then Queue.empty else s.queue q, fun q => (s.seq q).parked⟩

/-- The desk but for queue k. -/
def Desk.off (d : Desk) (k : Nat) : Desk := { d with queues := fun q => if q = k then Queue.empty else d.queues q }

theorem Desk.off_twin (s : State) : s.desk.off 34 = s.desk := by
  unfold Desk.off State.desk
  congr 1
  funext q
  dsimp only
  split <;> rfl

theorem State.queue_of_desk {s t : State} {k q : Nat} (h : t.desk.off k = s.desk.off k) (hk : q ≠ k) (h34 : q ≠ 34) :
    t.queue q = s.queue q := by
  have := congrFun (congrArg Desk.queues h) q
  simpa [Desk.off, State.desk, hk, h34] using this

theorem State.exec_of_desk {s t : State} {k : Nat} (h : t.desk.off k = s.desk.off k) : t.exec = s.exec := congrArg Desk.exec h

theorem State.parked_of_desk {s t : State} {k : Nat} (h : t.desk.off k = s.desk.off k) (q : Nat) : (t.seq q).parked =
    (s.seq q).parked :=
  congrFun (congrArg Desk.parked h) q

@[simp] theorem State.desk_ite (c : Prop) [Decidable c] (s t : State) :
    (if c then s else t).desk = if c then s.desk else t.desk :=
  apply_ite _ _ _ _

@[simp] theorem Desk.off_ite (c : Prop) [Decidable c] (x y : Desk) (k : Nat) :
    (if c then x else y).off k = if c then x.off k else y.off k :=
  apply_ite (fun d : Desk => d.off k) _ _ _

@[simp] theorem forEach_desk {α : Type} {f : α → State → State} (h : ∀ a s, (f a s).desk = s.desk) (l : List α) (s : State) :
    (forEach f l s).desk = s.desk := forEach_keeps State.desk f h l s

/-- A state built from another's executive, queues and sequencers has its desk. -/
theorem State.desk_mk {s : State}
    (pending regs counters ctl vtg hif tim conv calEng capture rx tx pool align tdl lfr grid mems chans cip svcSol clients gfp
        lanes calendars cel pry mon cask free) :
    State.desk ⟨pending, regs, counters, ctl, s.exec, s.seqs, s.queues, vtg, hif, tim, conv, calEng, capture, rx, tx, pool, align,
      tdl, lfr, grid, mems, chans, cip, svcSol, clients, gfp, lanes, calendars, cel, pry, mon, cask, free⟩ = s.desk := by rfl

theorem State.setSeq_desk {s : State} {q : Nat} {x : Seq} (h : x.parked = (s.seq q).parked) : (s.setSeq q x).desk = s.desk := by
  simp only [State.desk, State.setSeq_exec, Desk.mk.injEq, true_and]
  refine ⟨rfl, ?_⟩
  funext k
  by_cases hk : k = q
  · subst hk; rw [State.seq_setSeq_self, h]
  · rw [State.seq_setSeq_ne _ _ _ _ hk]

@[simp] theorem State.wr_desk (s : State) (f : Fld) (v : Nat) (is : List Nat) : (s.wr f v is).desk = s.desk := by rfl




/-! ### Ops -/

@[simp] theorem State.addSat_desk (s : State) (f : Fld) (n max : Nat) (is : List Nat) : (s.addSat f n max is).desk = s.desk := by
  simp [State.addSat]
@[simp] theorem State.count_desk (s : State) (i n : Nat) : (s.count i n).desk = s.desk := by rfl
@[simp] theorem State.setConv_desk (s : State) (i : Nat) (x : Conv) : (s.setConv i x).desk = s.desk := by rfl
@[simp] theorem State.setRx_desk (s : State) (i : Nat) (x : Rx) : (s.setRx i x).desk = s.desk := by rfl
@[simp] theorem State.setTx_desk (s : State) (i : Nat) (x : Tx) : (s.setTx i x).desk = s.desk := by rfl
@[simp] theorem State.setAlign_desk (s : State) (i : Nat) (x : Align) : (s.setAlign i x).desk = s.desk := by rfl
@[simp] theorem State.setTdl_desk (s : State) (i : Nat) (x : Tdl) : (s.setTdl i x).desk = s.desk := by rfl
@[simp] theorem State.setLfr_desk (s : State) (i : Nat) (x : Lfr) : (s.setLfr i x).desk = s.desk := by rfl
@[simp] theorem State.signalVec_desk (s : State) (f v : Nat) : (s.signalVec f v).desk = s.desk := by
  unfold State.signalVec
  dsimp only
  repeat' split
  all_goals rfl
@[simp] theorem State.signalEvent_desk (s : State) (e : Nat) : (s.signalEvent e).desk = s.desk := by simp [State.signalEvent]
theorem Seq.parked_deliver (x : Seq) (e : Nat) (data : Word) : (x.deliver e data).parked = x.parked := by
  unfold Seq.deliver
  split <;> rfl
@[simp] theorem State.deliverSeqs_desk (s : State) (e : Nat) (data : Word) : (s.deliverSeqs e data).desk = s.desk :=
  forEach_desk (fun _ _ => State.setSeq_desk (Seq.parked_deliver ..)) _ s
@[simp] theorem State.setPort_desk (s : State) (p : Nat) (x : Port) : (s.setPort p x).desk = s.desk := by rfl
@[simp] theorem State.pryTx_desk (s : State) (p : Nat) (m : PryMsg) : (s.pryTx p m).desk = s.desk := by simp [State.pryTx]
@[simp] theorem State.forwardEvent_desk (s : State) (e data : Nat) : (s.forwardEvent e data).desk = s.desk := by
  simp [State.forwardEvent]
@[simp] theorem State.setInj_desk (s : State) (q : Nat) (x : Inj) : (s.setInj q x).desk = s.desk := by rfl
@[simp] theorem State.injTrigger_desk (s : State) (q : Nat) : (s.injTrigger q).desk = s.desk := by
  unfold State.injTrigger
  dsimp only
  split <;> simp
@[simp] theorem State.injEvent_desk (s : State) (e : Nat) : (s.injEvent e).desk = s.desk := by simp [State.injEvent]
@[simp] theorem State.fireCapture_desk (s : State) (i : Nat) : (s.fireCapture i).desk = s.desk := by simp [State.fireCapture]
@[simp] theorem State.stick_desk (s : State) (f : Fld) (i : Nat) : (s.stick f i).desk = s.desk := by simp [State.stick]
@[simp] theorem State.captureTrigger_desk (s : State) (kind n : Nat) : (s.captureTrigger kind n).desk = s.desk := by
  unfold State.captureTrigger
  split <;> simp
@[simp] theorem State.celAsk_desk (s : State) (k n : Nat) : (s.celAsk k n).desk = s.desk := by
  unfold State.celAsk
  dsimp only
  repeat' split
  all_goals rfl
@[simp] theorem State.celDrop_desk (s : State) (k : Nat) : (s.celDrop k).desk = s.desk := by rfl
@[simp] theorem State.raise_desk (s : State) (e : Nat) (data : Nat) : (s.raise e data).desk = s.desk := by simp [State.raise]
@[simp] theorem State.putRow_desk (s : State) (cls row : Nat) : (s.putRow cls row).desk = s.desk := by rfl
@[simp] theorem State.memWrite_desk (s : State) (cls row : Nat) (whole : Bool) : (s.memWrite cls row whole).2.desk = s.desk := by
  unfold State.memWrite
  split
  · simp
  · split <;> simp
@[simp] theorem State.memRead_desk (s : State) (cls row : Nat) : (s.memRead cls row).2.desk = s.desk := by
  unfold State.memRead
  dsimp only
  repeat' split
  all_goals simp [↓State.desk_mk]
@[simp] theorem State.vintSet_desk (s : State) (ds : List (Nat × Nat)) : (s.vintSet ds).desk = s.desk := by
  unfold State.vintSet
  dsimp only
  repeat' split
  all_goals rfl
@[simp] theorem State.vintRead_desk (s : State) (img : Nat) : (s.vintRead img).2.desk = s.desk := by
  unfold State.vintRead
  refine List.foldlRecOn (motive := fun r : Bool × State => r.2.desk = s.desk) _ _ ?_ fun r hr e _ =>
    (State.memRead_desk ..).trans hr
  simp [↓State.desk_mk]
@[simp] theorem State.sendNotice_desk (s : State) (q : Nat) : (s.sendNotice q).desk = s.desk := by simp [State.sendNotice]
@[simp] theorem State.queueMarks_desk (s : State) (q : Nat) : (s.queueMarks q).desk = s.desk := by
  unfold State.queueMarks
  split <;> simp
@[simp] theorem State.refuseWords_desk (s : State) (q pkts words : Nat) : (s.refuseWords q pkts words).desk = s.desk := by
  simp [State.refuseWords]
@[simp] theorem State.putScratch_desk (s : State) (q a : Nat) (w : Word) : (s.putScratch q a w).desk = s.desk := by
  unfold State.putScratch
  dsimp only
  split
  · exact (State.setSeq_desk (by rfl)).trans (s.memWrite_desk ..)
  · exact s.memWrite_desk ..
@[simp] theorem State.putWords_desk (s : State) (q a : Nat) (ws : List Word) : (s.putWords q a ws).desk = s.desk := by
  induction ws generalizing s a with
  | nil => rfl
  | cons w ws ih => exact (ih _ _).trans (State.putScratch_desk ..)
theorem State.parked_of_desk_eq {s t : State} (h : t.desk = s.desk) (q : Nat) : (t.seq q).parked = (s.seq q).parked :=
  State.parked_of_desk (k := 34) (congrArg (Desk.off · 34) h) q
@[simp] theorem State.takeWords_desk (s : State) (sq q : Nat) (ws : List Word) : (s.takeWords sq q ws).desk = s.desk := by
  unfold State.takeWords
  dsimp only
  split
  · exact (State.setSeq_desk (by rfl)).trans (s.putWords_desk ..)
  · split
    · next a base mx src got len b hw =>
      refine (State.setSeq_desk ?_).trans (s.putWords_desk ..)
      rw [State.parked_of_desk_eq (s.putWords_desk ..)]
      simp [Seq.parked, hw]
    · rfl
@[simp] theorem State.setQueue_desk (s : State) (q : Nat) (x : Queue) : (s.setQueue q x).desk.off q = s.desk.off q := by
  simp only [Desk.off, State.desk, State.setQueue_exec, Desk.mk.injEq, true_and]
  refine ⟨?_, rfl⟩
  funext k
  by_cases hk : k = q
  · simp [hk]
  · simp [hk, State.queue_setQueue_ne _ _ _ _ hk]
@[simp] theorem State.land_desk (s : State) (q : Nat) (x : Queue) (ps : List QPkt) :
    (s.land q x ps).desk.off q = s.desk.off q := by
  simp [State.land]
@[simp] theorem State.markNotice_desk (s : State) (q : Nat) : (s.markNotice q).desk.off q = s.desk.off q := by
  unfold State.markNotice
  dsimp only
  split <;> simp
@[simp] theorem State.notice_desk (s : State) (q : Nat) : (s.notice q).desk.off q = s.desk.off q := by
  unfold State.notice
  dsimp only
  repeat' split
  all_goals simp
@[simp] theorem State.arrive_desk (s : State) (q : Nat) (w : Word) (given : Nat) :
    (s.arrive q w given).desk.off q = s.desk.off q := by
  unfold State.arrive
  dsimp only
  repeat' split
  all_goals simp
@[simp] theorem State.deliverWord_desk (s : State) (q : Nat) (w : Word) : (s.deliverWord q w).2.desk = s.desk := by
  unfold State.deliverWord
  dsimp only
  repeat' split
  all_goals simp
theorem State.popWord_desk {s t : State} {q : Nat} {w : Word} {b : Bool} (h : s.popWord q = some (w, b, t)) :
    t.desk.off q = s.desk.off q := by
  unfold State.popWord at h
  dsimp only at h
  split at h
  · split at h
    · cases h; simp
    · cases h
  · cases h
@[simp] theorem State.popWords_desk (s : State) (q n : Nat) : (s.popWords q n).2.desk.off q = s.desk.off q := by
  induction n generalizing s with
  | zero => rfl
  | succ n ih =>
    unfold State.popWords
    split
    · rfl
    · next h => exact (ih _).trans (State.popWord_desk h)
@[simp] theorem State.feed_desk (s : State) (q : Nat) : (s.feed q).desk.off q = s.desk.off q := by
  unfold State.feed
  dsimp only
  split
  · split <;> simp
  · rfl
theorem Seq.parked_resume (x : Seq) : x.resume.parked = x.parked := by
  cases hw : x.wait with
  | none => simp [Seq.resume, hw]
  | some w =>
    have hx : x.parked = false := by simp [Seq.parked, hw]
    exact ((apply_ite Seq.parked _ _ _).trans ((ite_congr rfl (fun _ => rfl) fun _ => hx).trans (ite_self false))).trans hx.symm
@[simp] theorem State.push_desk (s : State) (q : Nat) (w : Word) (given : Nat) :
    (s.push q w given).desk.off q = s.desk.off q := by
  unfold State.push
  dsimp only
  split
  · rw [State.setSeq_desk (Seq.parked_resume _)]; simp
  · simp
@[simp] theorem State.pushAll_desk (s : State) (q : Nat) (ws : List Word) : (s.pushAll q ws).desk.off q = s.desk.off q :=
  forEach_keeps (fun t => t.desk.off q) _ (fun w t => t.push_desk q w _) ws s
@[simp] theorem State.pushTwin_desk (s : State) (ws : List Word) : (s.pushAll 34 ws).desk = s.desk := by
  rw [← Desk.off_twin, State.pushAll_desk, Desk.off_twin]
theorem State.setTwin_desk (s : State) (x : Queue) : (s.setQueue 34 x).desk = s.desk := by
  rw [← Desk.off_twin, State.setQueue_desk, Desk.off_twin]
@[simp] theorem State.mirrorDrain_desk (s : State) : s.mirrorDrain.desk = s.desk := by
  unfold State.mirrorDrain
  dsimp only
  repeat' split
  all_goals simp [State.setTwin_desk]
@[simp] theorem State.mirror_desk (s : State) (typ : Nat) (content : List Nat) : (s.mirror typ content).desk = s.desk := by
  unfold State.mirror
  dsimp only
  split
  · rw [State.mirrorDrain_desk]
    exact s.pushTwin_desk _
  · rfl

/-! ### Converters -/

@[simp] theorem State.dropAsk_desk (s : State) (i : Nat) : (s.dropAsk i).desk = s.desk := by rfl
@[simp] theorem State.calIdle_desk (s : State) (i : Nat) : (s.calIdle i).desk = s.desk := by simp [State.calIdle]
@[simp] theorem State.calLeaveLit_desk (s : State) (i : Nat) : (s.calLeaveLit i).desk = s.desk := by simp [State.calLeaveLit]
@[simp] theorem State.endCapture_desk (s : State) (i : Nat) : (s.endCapture i).desk = s.desk := by
  simp [State.endCapture, ↓State.desk_mk]
@[simp] theorem State.drainSegment_desk (s : State) (i : Nat) : (s.drainSegment i).desk = s.desk := by simp [State.drainSegment]
@[simp] theorem State.stopCapture_desk (s : State) (i : Nat) : (s.stopCapture i).desk = s.desk := by
  simp [State.stopCapture, ↓State.desk_mk]

/-! ### Blocks -/

@[simp] theorem State.putBlock_desk (s : State) (b : Nat) (w : List Nat) : (s.putBlock b w).desk = s.desk := by rfl
@[simp] theorem State.openLine_desk (s : State) (b : Nat) : (s.openLine b).desk = s.desk := by
  unfold State.openLine
  dsimp only
  repeat' split
  all_goals rfl
@[simp] theorem State.celCorrected_desk (s : State) (region ch loc : Nat) : (s.celCorrected region ch loc).desk = s.desk := by
  simp [State.celCorrected]
@[simp] theorem State.writeGroups_desk (s : State) (b : Nat) (bytes : List Nat) : (s.writeGroups b bytes).desk = s.desk := by
  simp [State.writeGroups]
@[simp] theorem State.writePart_desk (s : State) (b off : Nat) (bytes : List Nat) : (s.writePart b off bytes).desk = s.desk := by
  unfold State.writePart
  dsimp only
  split <;> simp

/-! ### Candidates -/

@[simp] theorem State.cmdFails_desk (s : State) : s.cmdFails.desk = s.desk := by simp [State.cmdFails]
@[simp] theorem State.candStep_desk (s : State) (i st : Nat) : (s.candStep i st).desk = s.desk := by simp [State.candStep]
@[simp] theorem State.candLost_desk (s : State) (i : Nat) : (s.candLost i).desk = s.desk := by simp [State.candLost]

/-! ### Receive -/

@[simp] theorem State.setDsp_desk (s : State) (i : Nat) (d : Dsp) : (s.setDsp i d).desk = s.desk := by simp [State.setDsp]
@[simp] theorem State.syncNone_desk (s : State) (i : Nat) : (s.syncNone i).desk = s.desk := by simp [State.syncNone]
@[simp] theorem State.frameOut_desk (s : State) (i : Nat) : (s.frameOut i).desk = s.desk := by simp [State.frameOut]
@[simp] theorem State.clearTaps_desk (s : State) (i : Nat) : (s.clearTaps i).desk = s.desk := by simp [State.clearTaps]
@[simp] theorem State.enterDsp_desk (s : State) (i st : Nat) : (s.enterDsp i st).desk = s.desk := by simp [State.enterDsp]
@[simp] theorem State.toAcq_desk (s : State) (i st : Nat) : (s.toAcq i st).desk = s.desk := by simp [State.toAcq]
@[simp] theorem State.acqRestart_desk (s : State) (i : Nat) : (s.acqRestart i).desk = s.desk := by simp [State.acqRestart]
@[simp] theorem State.newBlocks_desk (s : State) (i : Nat) : (s.newBlocks i).desk = s.desk := by simp [State.newBlocks]
@[simp] theorem State.rxdGo_desk (s : State) (img : RxImg) (i : Nat) : (s.rxdGo img i).desk = s.desk := by simp [State.rxdGo]
@[simp] theorem State.rxdNext_desk (s : State) (img : RxImg) (i : Nat) : (s.rxdNext img i).desk = s.desk := by
  simp [State.rxdNext]

/-! ### Coding -/

@[simp] theorem State.poolRecompute_desk (s : State) : s.poolRecompute.desk = s.desk := by simp [State.poolRecompute]

/-! ### Tendril -/

@[simp] theorem State.tdlQueue_desk (s : State) (i typ : Nat) (body : List Nat) : (s.tdlQueue i typ body).desk = s.desk := by
  simp [State.tdlQueue]

/-! ### Map -/

@[simp] theorem State.setMem_desk (s : State) (c i : Nat) (x : Mem) : (s.setMem c i x).desk = s.desk := by rfl
@[simp] theorem State.setChan_desk (s : State) (c : Nat) (x : Chan) : (s.setChan c x).desk = s.desk := by rfl
@[simp] theorem State.setCipCh_desk (s : State) (c : Nat) (x : CipCh) : (s.setCipCh c x).desk = s.desk := by rfl
@[simp] theorem State.reportDelay_desk (s : State) (c : Nat) : (s.reportDelay c).desk = s.desk := by simp [State.reportDelay]
@[simp] theorem State.declareSkew_desk (s : State) (c : Nat) (d : MemberDef) : (s.declareSkew c d).desk = s.desk := by
  simp [State.declareSkew]
@[simp] theorem State.judgeSkew_desk (s : State) (c : Nat) : (s.judgeSkew c).desk = s.desk := by simp [State.judgeSkew]
@[simp] theorem State.memsLost_desk (s : State) (i : Nat) : (s.memsLost i).desk = s.desk := by
  unfold State.memsLost
  refine forEach_desk (fun c t => ?_) _ _
  split
  · dsimp only
    split <;> simp
  · rfl
@[simp] theorem State.setCsf_desk (s : State) (c : Nat) (v : Bool) : (s.setCsf c v).desk = s.desk := by simp [State.setCsf]
@[simp] theorem State.measure_desk (s : State) (c : Nat) : (s.measure c).desk = s.desk := by simp [State.measure]
@[simp] theorem State.reportLegs_desk (s : State) (c : Nat) : (s.reportLegs c).desk = s.desk := by simp [State.reportLegs]
@[simp] theorem State.selectLeg_desk (s : State) (c : Nat) (b : Bool) : (s.selectLeg c b).desk = s.desk := by
  simp [State.selectLeg]
@[simp] theorem State.psMirror_desk (s : State) (was : List Nat) (c : Nat) : (s.psMirror was c).desk = s.desk := by
  simp [State.psMirror]
@[simp] theorem State.evalSelector_desk (s : State) (c : Nat) : (s.evalSelector c).desk = s.desk := by simp [State.evalSelector]
@[simp] theorem State.reportMembers_desk (s : State) (c : Nat) : (s.reportMembers c).desk = s.desk := by
  simp [State.reportMembers]
@[simp] theorem State.cipEpoch_desk (s : State) (c : Nat) : (s.cipEpoch c).desk = s.desk := by simp [State.cipEpoch]
@[simp] theorem State.mapChannel_desk (s : State) (old : Tab Nat) (img : RxImg) (c : Nat) :
    (s.mapChannel old img c).desk = s.desk := by
  simp [State.mapChannel]
@[simp] theorem State.turnChannel_desk (s : State) (c : Nat) : (s.turnChannel c).desk = s.desk := by simp [State.turnChannel]
@[simp] theorem State.rxFollow_desk (s : State) (img : RxImg) (i : Nat) : (s.rxFollow img i).desk = s.desk := by
  simp [State.rxFollow]

/-! ### Cellar -/

@[simp] theorem State.archiveWrite_desk (s : State) (a : Nat) (bytes : List Nat) : (s.archiveWrite a bytes).desk = s.desk := by
  simp [State.archiveWrite]
@[simp] theorem State.archivePut_desk (s : State) (a : Nat) (bytes : List Nat) : (s.archivePut a bytes).desk = s.desk := by
  simp [State.archivePut, ↓State.desk_mk]
@[simp] theorem State.archiveRecord_desk (s : State) (ws : List Word) : (s.archiveRecord ws).desk = s.desk := by
  simp [State.archiveRecord, ↓State.desk_mk]

/-! ### Slices -/

@[simp] theorem State.tdlStop_desk (s : State) (i : Nat) : (s.tdlStop i).desk = s.desk := by simp [State.tdlStop]
@[simp] theorem State.noDefects_desk (s : State) (i : Nat) : (s.noDefects i).desk = s.desk := by simp [State.noDefects]
@[simp] theorem State.leaveLit_desk (s : State) (i : Nat) : (s.leaveLit i).desk = s.desk := by simp [State.leaveLit]
@[simp] theorem State.roleUpdate_desk (s : State) : s.roleUpdate.desk = s.desk := by simp [State.roleUpdate]
@[simp] theorem State.drainOne_desk (s : State) (i : Nat) (short : Bool) : (s.drainOne i short).desk = s.desk := by
  simp [State.drainOne, ↓State.desk_mk]
@[simp] theorem State.loseSource_desk (s : State) : s.loseSource.desk = s.desk := by simp [State.loseSource]
@[simp] theorem State.sourceGone_desk (s : State) : s.sourceGone.desk = s.desk := by simp [State.sourceGone]

/-! ### VintageOps -/

@[simp] theorem State.toVt_desk (s : State) (n : Nat) : (s.toVt n).desk = s.desk := by simp [State.toVt]
@[simp] theorem State.rxReverts_desk (s : State) (i : Nat) : (s.rxReverts i).desk = s.desk := by simp [State.rxReverts]
@[simp] theorem State.dropAgreement_desk (s : State) (i : Nat) : (s.dropAgreement i).desk = s.desk := by
  simp [State.dropAgreement]
@[simp] theorem State.sendCancel_desk (s : State) (i : Nat) : (s.sendCancel i).desk = s.desk := by simp [State.sendCancel]
@[simp] theorem State.failCommit_desk (s : State) (code : Nat) : (s.failCommit code).desk = s.desk := by
  unfold State.failCommit
  split <;> simp [↓State.desk_mk]
@[simp] theorem State.announceReturn_desk (s : State) (i : Nat) : (s.announceReturn i).desk = s.desk := by
  unfold State.announceReturn
  dsimp only
  split <;> simp
@[simp] theorem State.startReturn_desk (s : State) (cause : Nat) : (s.startReturn cause).desk = s.desk := by
  simp [State.startReturn, ↓State.desk_mk]

/-! ### Vintage -/

@[simp] theorem State.setStaged_desk (s : State) (src : Nat) (m : Tab Nat) : (s.setStaged src m).desk = s.desk := by
  simp [State.setStaged, ↓State.desk_mk]

/-! ### Twins -/

@[simp] theorem State.sendPair_desk (s : State) (ws : List Nat) : (s.sendPair ws).desk = s.desk := by simp [State.sendPair]
@[simp] theorem State.mirrorGap_desk (s : State) : s.mirrorGap.desk = s.desk := by simp [State.mirrorGap, ↓State.desk_mk]

/-! ### Resets -/

@[simp] theorem State.setCrossing_desk (s : State) (x : Nat) (c : Crossing) : (s.setCrossing x c).desk = s.desk := by rfl
@[simp] theorem State.flushCrossing_desk (s : State) (x : Nat) (sideB : Bool) (items : Nat) :
    (s.flushCrossing x sideB items).desk = s.desk := by
  simp [State.flushCrossing]

end Sys2Proof.Machine
end

section
/-!
The journal ring and the end of a program (R77, R79, R81).
-/

namespace Sys2Proof.Machine

/-! ### The journal ring -/

/-- A packet of four words has begun with `ws`, and nothing else holds the queue. -/
def Queue.receiving (x : Queue) (ws : List Word) : Prop :=
  x.refuse = 0 ∧ x.discard = 0 ∧ x.taker = none ∧ x.pkts = [⟨4, ws.length, ws, false⟩]

theorem State.queue_of_desk_eq {s t : State} (h : t.desk = s.desk) {q : Nat} (hq : q ≠ 34) : t.queue q = s.queue q :=
  State.queue_of_desk (k := 34) (congrArg (Desk.off · 34) h) hq hq

/-- A word to a queue whose packet no program takes: the word arrives, and the marks of the queue follow. -/
theorem State.push_of_noTaker {s : State} {q : Nat} (ht : (s.queue q).taker = none) (w : Word) (given : Nat)
    (ha : (((s.arrive q w given).queueMarks q).queue q).taker = none) : s.push q w given = (s.arrive q w given).queueMarks q := by
  unfold State.push
  dsimp only
  rw [ht]
  dsimp only
  unfold State.feed
  dsimp only
  rw [ha]

theorem State.land_queue (s : State) (q : Nat) (x : Queue) (ps : List QPkt) :
    (s.land q x ps).queue q = { x with pkts := ps, written := x.written + 1 } := by
  rw [State.land, State.queue_setQueue_self]

theorem State.sendNotice_queue (s : State) (q : Nat) {k : Nat} (hk : k ≠ 34) : (s.sendNotice q).queue k = s.queue k :=
  State.queue_of_desk_eq (s.sendNotice_desk q) hk

/-- A notice marks a packet of the queue, and changes no word of it. -/
theorem State.notice_words (s : State) {q : Nat} (hq : q ≠ 34) : ((s.notice q).queue q).pkts.map QPkt.words =
    (s.queue q).pkts.map QPkt.words
    ∧ ((s.notice q).queue q).taker = (s.queue q).taker := by
  have hmark (t : State) : ((t.markNotice q).queue q).pkts.map QPkt.words = (t.queue q).pkts.map QPkt.words
      ∧ ((t.markNotice q).queue q).taker = (t.queue q).taker := by
    unfold State.markNotice
    dsimp only
    split
    · next p ps hp =>
      have hpk : (t.queue q).pkts = ps.reverse ++ [p] := by simpa using congrArg List.reverse hp
      rw [State.queue_setQueue_self, hpk]
      simp
    · exact ⟨rfl, rfl⟩
  unfold State.notice
  dsimp only
  split
  · split
    · exact hmark _
    · rw [State.sendNotice_queue _ _ hq]
      exact ⟨rfl, rfl⟩
  · exact ⟨rfl, rfl⟩

theorem State.push_first {s : State} (h : (s.queue 32).fresh) (w : Word) (given : Nat) :
    ((s.push 32 w given).queue 32).receiving [w] := by
  obtain ⟨hp, hr, hd, ht⟩ := h
  have hfree : 4 ≤ queueFree 32 (s.queue 32) := by
    simp [queueFree, Queue.held, Queue.reserved, hp, hd, queueDepth]
  have harr : s.arrive 32 w given = s.land 32 (s.queue 32) [⟨4, 1, [w], false⟩] := by
    have hlen : packetLen 32 w given = 4 := rfl
    have hopen : (s.queue 32).openPkt = none := by simp [Queue.openPkt, hp]
    unfold State.arrive
    simp [hd, hr, hopen, hlen, hfree, hp]
  have hq : ((s.arrive 32 w given).queueMarks 32).queue 32 = { s.queue 32 with pkts := [⟨4, 1, [w], false⟩], written :=
      (s.queue 32).written + 1 } := by
    rw [State.queue_of_desk_eq (State.queueMarks_desk ..) (by decide), harr, State.land_queue]
  rw [State.push_of_noTaker ht w given (by rw [hq]; exact ht), hq]
  exact ⟨hr, hd, ht, rfl⟩

/-- A word of a packet that has begun joins it; the fourth completes it. -/
theorem State.push_next {s : State} {ws : List Word} (h : (s.queue 32).receiving ws) (hn : ws.length < 4) (w : Word) (given : Nat) :
    ((s.push 32 w given).queue 32).pkts.map QPkt.words = [ws ++ [w]] ∧ ((s.push 32 w given).queue 32).taker = none
      ∧ (ws.length < 3 → ((s.push 32 w given).queue 32).receiving (ws ++ [w])) := by
  obtain ⟨hr, hd, ht, hp⟩ := h
  have hopen : (s.queue 32).openPkt = some ([], ⟨4, ws.length, ws, false⟩) := by simp [Queue.openPkt, hp, hn]
  let u := s.land 32 (s.queue 32) [⟨4, ws.length + 1, ws ++ [w], false⟩]
  have hu : u.queue 32 = { s.queue 32 with pkts := [⟨4, ws.length + 1, ws ++ [w], false⟩], written := (s.queue 32).written + 1 } :=
    State.land_queue ..
  have harr : s.arrive 32 w given = if ws.length + 1 = 4 then u.notice 32 else u := by
    unfold State.arrive
    simp only [hd, hr, hopen, ne_eq, not_true_eq_false, if_false]
    rfl
  have hmarks : ((s.arrive 32 w given).queueMarks 32).queue 32 = (s.arrive 32 w given).queue 32 :=
    State.queue_of_desk_eq (State.queueMarks_desk ..) (by decide)
  have hnote := u.notice_words (q := 32) (by decide)
  have hwords : ((s.arrive 32 w given).queue 32).pkts.map QPkt.words = [ws ++ [w]] ∧
      ((s.arrive 32 w given).queue 32).taker = none := by
    rw [harr]
    split
    · rw [hnote.1, hnote.2, hu]
      exact ⟨rfl, ht⟩
    · rw [hu]
      exact ⟨rfl, ht⟩
  rw [State.push_of_noTaker ht w given (by rw [hmarks]; exact hwords.2), hmarks]
  refine ⟨hwords.1, hwords.2, fun h3 => ?_⟩
  rw [harr, if_neg (by omega), hu]
  exact ⟨hr, hd, ht, by simp⟩

/-- The four words of a record are the one packet of a ring that held nothing (R79). -/
theorem State.pushAll_record {s : State} (h : (s.queue 32).fresh) (a b c d : Word) :
    ((s.pushAll 32 [a, b, c, d]).queue 32).pkts.map QPkt.words = [[a, b, c, d]]
      ∧ ((s.pushAll 32 [a, b, c, d]).queue 32).taker = none := by
  have h1 := State.push_first h a 4
  have h2 := (State.push_next h1 (by simp) b 4).2.2 (by simp)
  have h3 := (State.push_next h2 (by simp) c 4).2.2 (by simp)
  have h4 := State.push_next h3 (by simp) d 4
  exact ⟨h4.1, h4.2.1⟩

theorem State.record_queue {s : State} (h : (s.queue 32).fresh) (tag : Word) (program step status sq func fault : Nat) :
    ((s.record tag program step status sq func fault).queue 32).pkts.map QPkt.words
        = [recordWords tag program step status sq func fault s.time]
      ∧ ((s.record tag program step status sq func fault).queue 32).taker = none := by
  unfold State.record
  dsimp only
  rw [State.queue_of_desk_eq ((State.mirror_desk ..).trans (State.archiveRecord_desk ..)) (by decide)]
  exact State.pushAll_record h _ _ _ _

/-! ### The end of a program -/

theorem State.queue_of_off {s t : State} {k : Nat} (h : t.desk.off k = s.desk.off k) (hk : k ≠ 32) : t.queue 32 = s.queue 32 :=
  State.queue_of_desk h (Ne.symm hk) (by decide)

theorem State.dropTaken_queue {s : State} (h : (s.queue 32).taker = none) (sq q : Nat) :
    (s.dropTaken sq q).queue 32 = s.queue 32 := by
  by_cases hq : q = 32
  · subst hq
    unfold State.dropTaken
    dsimp only
    rw [h]
    split <;> rfl
  · unfold State.dropTaken
    dsimp only
    repeat' split
    · exact State.queue_setQueue_ne _ _ _ _ (Ne.symm hq)
    · rfl
    · rfl

theorem State.leaveWait_queue {s : State} (h : (s.queue 32).taker = none) (q : Nat) : (s.leaveWait q).queue 32 = s.queue 32 := by
  unfold State.leaveWait
  dsimp only
  split
  · rfl
  · exact State.dropTaken_queue h ..
  · rfl
  · rfl

theorem State.leavePacket_queue {s : State} (h : (s.queue 32).taker = none) (q : Nat) :
    (s.leavePacket q).queue 32 = s.queue 32 := by
  unfold State.leavePacket
  split
  · exact State.dropTaken_queue h ..
  · rfl

theorem State.releaseSeq_queue {s : State} (h : (s.queue 32).taker = none) (q : Nat) : (s.releaseSeq q).queue 32 = s.queue 32 := by
  have hw := State.leaveWait_queue h q
  unfold State.releaseSeq
  dsimp only
  exact (State.leavePacket_queue (by rw [hw]; exact h) q).trans hw

theorem State.dropTaken_exec (s : State) (sq q : Nat) : (s.dropTaken sq q).exec = s.exec := by
  unfold State.dropTaken
  dsimp only
  repeat' split
  all_goals rfl

theorem State.releaseSeq_inFlight (s : State) (q : Nat) : (s.releaseSeq q).exec.inFlight = s.exec.inFlight := by
  have hwait : (s.leaveWait q).exec.inFlight = s.exec.inFlight := by
    unfold State.leaveWait
    dsimp only
    split
    · rfl
    · exact congrArg Exec.inFlight (State.dropTaken_exec ..)
    · rfl
    · rfl
  have hpkt : ((s.leaveWait q).leavePacket q).exec.inFlight = (s.leaveWait q).exec.inFlight := by
    unfold State.leavePacket
    split
    · exact congrArg Exec.inFlight (State.dropTaken_exec ..)
    · rfl
  exact hpkt.trans hwait

/-- A claim once program q neither holds it nor waits for it. -/
def Claim.without (c : Claim) (q : Nat) : Claim :=
  { holder := if c.holder = some q then none else c.holder, waiters := c.waiters.filter fun w => w ≠ q }

theorem Claim.without_holder (c : Claim) (q : Nat) : (c.without q).holder ≠ some q := by
  unfold Claim.without
  dsimp only
  split
  · simp
  · assumption

theorem tabGet_without_holder (l : Tab Claim) (q n : Nat) :
    (tabGet Claim.free ((l.map fun e => (e.1, e.2.without q)).filter fun e => e.2 ≠ Claim.free) n).holder ≠ some q := by
  induction l with
  | nil => simp [tabGet, Claim.free]
  | cons e l ih =>
    rw [List.map_cons, List.filter_cons]
    split
    · rw [tabGet]
      split
      · exact e.2.without_holder q
      · exact ih
    · exact ih

/-- A program that ends holds no resource (R77). -/
theorem State.freeClaims_holds (s : State) (q n : Nat) : (s.freeClaims q).holds q n = false :=
  decide_eq_false (tabGet_without_holder s.exec.claims q n)

theorem State.releaseSeq_ended (s : State) (q : Fin 16) : Ended (s.releaseSeq q) q := by
  refine ⟨?_, fun n => ?_⟩
  · unfold State.releaseSeq
    dsimp only
    rw [State.seq_setSeq_self]
  · exact State.freeClaims_holds _ q n

theorem State.respond_desk (s : State) (func program : Nat) (tag : Word) (outcome fault sq step : Nat) (results : List Word) :
    (s.respond func program tag outcome fault sq step results).desk.off (16 + func) = s.desk.off (16 + func) := by
  unfold State.respond
  exact State.pushAll_desk ..

theorem State.dropInFlight_queue (s : State) (q k : Nat) : (s.dropInFlight q).queue k = s.queue k := rfl

theorem State.dropInFlight_get (s : State) (q : Nat) : tabGet none (s.dropInFlight q).exec.inFlight q = none :=
  tabGet_put_self none s.exec.inFlight q none

/-- A program whose end is no end of RECOVER: its record and its response, and what it holds is free. -/
theorem State.closeProgram_of_live {s : State} {q : Nat} (hl : (s.seq q).live = true) (hr : s.ctl.recoverRun = false)
    (st code : Nat)
    (ws : List Word) : s.closeProgram q st code ws =
      ((((s.record (s.seq q).tag (s.seq q).program (s.seq q).step st q (s.seq q).func code).dropInFlight q).respond (s.seq q).func
        (s.seq q).program (s.seq q).tag st code q (s.seq q).step ws).releaseSeq q) := by
  unfold State.closeProgram
  dsimp only
  rw [if_pos hl, if_neg]
  rw [State.runsRecover, Base.recoverRun_of_base (s := s) (by simp), hr]
  simp

/-- A program that ends leaves its record and frees what it holds (R77, R79, R81). -/
theorem State.closeProgram_endedBy {s : State} {q : Fin 16} (hl : (s.seq q).live = true) (hr : s.ctl.recoverRun = false)
    (status fault : Nat) :
    EndedBy s (s.closeProgram q status fault []) q status fault := by
  rw [State.closeProgram_of_live hl hr]
  refine ⟨State.releaseSeq_ended _ q, ?_, fun hf hfresh => ?_⟩
  · rw [State.releaseSeq_inFlight, State.exec_of_desk (State.respond_desk ..), State.dropInFlight_get]
  · obtain ⟨hwords, htaker⟩ := State.record_queue hfresh (s.seq q).tag (s.seq q).program (s.seq q).step status q
      (s.seq q).func fault
    rw [State.releaseSeq_queue, State.queue_of_off (State.respond_desk ..) (by omega), State.dropInFlight_queue, hwords]
    rw [State.queue_of_off (State.respond_desk ..) (by omega), State.dropInFlight_queue, htaker]

end Sys2Proof.Machine
end

section
/-!
Fabric instructions (R52, R98, R104 to R107).
-/

namespace Sys2Proof.Machine

/-! ### Issue -/

theorem State.memRead_of_sound {s : State} {cls row : Nat} (h : (s.memRead cls row).1 = false) :
    ∃ c k, (s.memRead cls row).2 = { s with cel := c, counters := k } := by
  unfold State.memRead at h ⊢
  dsimp only at h ⊢
  split at h
  · next hn => rw [if_pos hn]; exact ⟨s.cel, _, rfl⟩
  · next hn =>
    rw [if_neg hn]
    split at h
    · exact ⟨s.cel, s.counters, rfl⟩
    · exact ⟨_, _, rfl⟩
    · cases h

theorem State.fetchWord_of_some {s : State} {pc : BitVec 19} {w : Nat} (h : (s.fetchWord pc).1 = some w) :
    ∃ c k, (s.fetchWord pc).2 = { s with cel := c, counters := k } := by
  unfold State.fetchWord at h ⊢
  split at h
  · cases h
  · next hp =>
    rw [if_neg hp]
    refine State.memRead_of_sound ?_
    dsimp only at h
    split at h
    · cases h
    · next hbad => exact Bool.eq_false_of_not_eq_true hbad

/-- The fetch of an instruction reads its rows, and changes nothing but what reading them does (R411). -/
theorem State.fetch_of_some {s : State} {q : Nat} {i : Ins} (h : (s.fetch q).1 = some i) :
    ∃ c k, (s.fetch q).2 = { s with cel := c, counters := k } := by
  unfold State.fetch at h ⊢
  dsimp only at h ⊢
  cases hw : (s.fetchWord (s.seq q).pc).1 with
  | none => simp [hw] at h
  | some w =>
    obtain ⟨c, k, hs⟩ := State.fetchWord_of_some hw
    simp only [hw] at h ⊢
    split at h
    · cases h
    · next hlegal =>
      rw [if_neg hlegal]
      split at h
      · next hlong =>
        rw [if_pos hlong]
        obtain ⟨v, hv, -⟩ := Option.map_eq_some_iff.mp h
        obtain ⟨c', k', hs'⟩ := State.fetchWord_of_some hv
        exact ⟨c', k', by rw [hs', hs]⟩
      · next hlong => rw [if_neg hlong]; exact ⟨c, k, hs⟩

theorem atIssue_eq {s : State} {q : Fin 16} {i : Ins} (h : Fetches s q i) :
    ∃ c k, atIssue s q = ({ s with cel := c, counters := k } : State).setSeq q { s.seq q with slowUnits := 0 } := by
  obtain ⟨c, k, hs⟩ := State.fetch_of_some h.2
  exact ⟨c, k, by rw [atIssue, hs]; rfl⟩

theorem State.issue_of_fetches {s : State} {q : Fin 16} {i : Ins} (h : Fetches s q i) {op : Nat} (hop : i.op = op)
    (ht : (s.seq q).t = false) (tcheck : Bool) (body : Ins → State → State) : s.issue q op tcheck body = body i (atIssue s q) := by
  unfold State.issue
  dsimp only
  rw [if_pos h.1, h.2]
  dsimp only
  rw [if_pos hop, ht, Bool.and_false]
  rfl

theorem Fetches.live {s : State} {q : Fin 16} {i : Ins} (h : Fetches s q i) : (s.seq q).live = true := by rw [Seq.live, h.1]

theorem State.onSeq_of_live {s : State} {q : Nat} (h : (s.seq q).live = true) (f : Seq → Seq) :
    s.onSeq q f = s.setSeq q (f (s.seq q)) := if_pos h

/-! ### Accesses -/

theorem State.settleGate_keeps {β : Type} (g : State → β) (h : ∀ (t : State) l, g { t with ctl := { t.ctl with gates := l } } = g t)
    (s : State) (b : Nat) : g (s.settleGate b) = g s := by
  unfold State.settleGate
  split
  · exact h ..
  · rfl

/-- A read changes the register fields that reading changes, and the gate of its block (R7, R52). -/
theorem State.innerRead_keeps {β : Type} (g : State → β) (hgate : ∀ (t : State) l, g
    { t with ctl := { t.ctl with gates := l } } = g t)
    (hregs : ∀ (t : State) l, g { t with regs := l } = g t) (s : State) (a : Nat) : g (s.innerRead a).2 = g s := by
  have heffect (t : State) (addr : Nat) (is : List Nat) : g (t.readEffect addr is) = g t := by
    have hwr (t : State) (f : Fld) (v : Nat) (is : List Nat) : g (t.wr f v is) = g t := hregs t _
    unfold State.readEffect
    split
    · exact hwr ..
    split
    · exact hwr ..
    split
    · exact hwr ..
    split
    · exact (hwr ..).trans (hwr ..)
    · rfl
  unfold State.innerRead State.fabricRead
  dsimp only
  split
  · rfl
  split
  · rfl
  split
  · rfl
  · dsimp only
    split
    · exact State.settleGate_keeps g hgate ..
    · exact (heffect ..).trans (State.settleGate_keeps g hgate ..)

theorem State.innerRead_seqs (s : State) (a : Nat) : (s.innerRead a).2.seqs = s.seqs :=
  State.innerRead_keeps State.seqs (fun _ _ => rfl) (fun _ _ => rfl) s a

/-- What a fabric instruction finds once its read has been answered. -/
structure AfterRead (s : State) (q : Fin 16) (u : State) : Prop where
  seq : u.seq q = { s.seq q with slowUnits := 0 }
  vtg : u.vtg = s.vtg
  queue : u.queue 32 = s.queue 32
  time : u.time = s.time
  recover : u.ctl.recoverRun = s.ctl.recoverRun

theorem atIssue_afterRead {s : State} {q : Fin 16} {i : Ins} (h : Fetches s q i) : AfterRead s q (atIssue s q) := by
  obtain ⟨c, k, hs⟩ := atIssue_eq h
  rw [hs]
  exact ⟨State.seq_setSeq_self .., rfl, rfl, rfl, rfl⟩

theorem AfterRead.innerRead {s u u' : State} {q : Fin 16} {a : Nat} {r : Option Nat} (h : AfterRead s q u)
    (hr : u.innerRead a = (r, u')) :
    AfterRead s q u' := by
  obtain rfl : (u.innerRead a).2 = u' := congrArg Prod.snd hr
  refine ⟨?_, ?_, ?_, ?_, ?_⟩
  · exact (State.innerRead_keeps (fun t => t.seq q) (fun _ _ => rfl) (fun _ _ => rfl) u a).trans h.seq
  · exact (State.innerRead_keeps State.vtg (fun _ _ => rfl) (fun _ _ => rfl) u a).trans h.vtg
  · exact (State.innerRead_keeps (fun t => t.queue 32) (fun _ _ => rfl) (fun _ _ => rfl) u a).trans h.queue
  · exact (State.innerRead_keeps State.time (fun _ _ => rfl) (fun _ _ => rfl) u a).trans h.time
  · exact (State.innerRead_keeps (fun t => t.ctl.recoverRun) (fun _ _ => rfl) (fun _ _ => rfl) u a).trans h.recover

theorem AfterRead.live {s u : State} {q : Fin 16} (h : AfterRead s q u) (hl : (s.seq q).live = true) : (u.seq q).live = true := by
  rw [h.seq]
  exact hl

/-- A program that faults on the response to its read has ended as from the state before the instruction (R98). -/
theorem AfterRead.faultProgram {s u : State} {q : Fin 16} (h : AfterRead s q u) (hl : (s.seq q).live = true)
    (hr : s.ctl.recoverRun = false)
    (code : Nat) : EndedBy s (u.faultProgram q code) q stFault code := by
  obtain ⟨hend, hflight, hjournal⟩ := State.closeProgram_endedBy (h.live hl) (h.recover.trans hr) stFault code
  rw [h.seq, h.time] at hjournal
  refine ⟨hend, hflight, fun hf hfresh => hjournal hf ?_⟩
  rw [h.queue]
  exact hfresh

theorem State.accessDone_of_live {s : State} {q : Nat} (h : (s.seq q).live = true) (next : BitVec 19) (f : Seq → Seq) :
    s.accessDone q next f = s.setSeq q { (f (s.seq q)).goOn next with c := false } := State.onSeq_of_live h _

theorem State.errorResponse_goesOn {s : State} {q : Nat} (h : (s.seq q).live = true) (next : BitVec 19) (f : Seq → Seq) :
    s.errorResponse q true next f = s.setSeq q { (f (s.seq q)).goOn next with c := true } := by
  rw [State.errorResponse, if_pos rfl]
  exact State.onSeq_of_live h _

theorem Seq.reg_setReg (x : Seq) (r : Nat) (v : Word) : (x.setReg r v).reg r = v := tabGet_put_self ..

/-! ### The instructions -/

section Read

variable {s u' : State} {q : Fin 16} {i : Ins} (hf : Fetches s q i) (ht : (s.seq q).t = false)
include hf ht

theorem exec_frd_some (hop : i.op = 0x18) {v : Nat} (hr : (atIssue s q).innerRead (i.fabricAddr (s.seq q)) = (some v, u')) :
    exec (.frd q) s = .next (u'.accessDone q i.next fun x => x.put i.a (BitVec.ofNat 24 v)) := by
  refine congrArg Host.Outcome.next ((State.issue_of_fetches hf hop ht _ _).trans ?_)
  have hseq : i.fabricAddr ((atIssue s q).seq q) = i.fabricAddr (s.seq q) := by rw [(atIssue_afterRead hf).seq]; rfl
  rw [hseq, hr]

theorem exec_frd_none (hop : i.op = 0x18) (hr : (atIssue s q).innerRead (i.fabricAddr (s.seq q)) = (none, u')) :
    exec (.frd q) s = .next (u'.frdError q i) := by
  refine congrArg Host.Outcome.next ((State.issue_of_fetches hf hop ht _ _).trans ?_)
  have hseq : i.fabricAddr ((atIssue s q).seq q) = i.fabricAddr (s.seq q) := by rw [(atIssue_afterRead hf).seq]; rfl
  rw [hseq, hr]

theorem exec_frmw_none (hop : i.op = 0x1A) (hr : (atIssue s q).innerRead (i.fabricAddr (s.seq q)) = (none, u')) :
    exec (.frmw q) s = .next (u'.plainError q i) := by
  refine congrArg Host.Outcome.next ((State.issue_of_fetches hf hop ht _ _).trans ?_)
  have hseq : i.fabricAddr ((atIssue s q).seq q) = i.fabricAddr (s.seq q) := by rw [(atIssue_afterRead hf).seq]; rfl
  dsimp only
  rw [hseq, hr]

theorem exec_frmw_some (hop : i.op = 0x1A) {v : Nat} (hr : (atIssue s q).innerRead (i.fabricAddr (s.seq q)) = (some v, u')) :
    exec (.frmw q) s = .next (State.writeDone q i (State.innerWrite State.fabricWrite u' (i.fabricAddr (s.seq q))
      ((BitVec.ofNat 24 v &&& ~~~((s.seq q).reg i.b)) ||| ((s.seq q).reg i.a &&& (s.seq q).reg i.b)).toNat)) := by
  refine congrArg Host.Outcome.next ((State.issue_of_fetches hf hop ht _ _).trans ?_)
  have hseq : (atIssue s q).seq q = { s.seq q with slowUnits := 0 } := (atIssue_afterRead hf).seq
  have hx (r : Nat) : ({ s.seq q with slowUnits := 0 } : Seq).reg r = (s.seq q).reg r := rfl
  have haddr : i.fabricAddr ({ s.seq q with slowUnits := 0 } : Seq) = i.fabricAddr (s.seq q) := rfl
  dsimp only
  rw [hseq, haddr, hr]
  simp only [hx]

theorem exec_fwr (hop : i.op = 0x19) : exec (.fwr q) s = .next (State.writeDone q i
    (State.innerWrite State.fabricWrite (atIssue s q) (i.fabricAddr (s.seq q)) ((s.seq q).reg i.a).toNat)) := by
  refine congrArg Host.Outcome.next ((State.issue_of_fetches hf hop ht _ _).trans ?_)
  dsimp only
  rw [(atIssue_afterRead hf).seq]
  rfl

theorem exec_fpoll (hop : i.op = 0x1B) : exec (.fpoll q) s = .next ((atIssue s q).pollRead q (BitVec.ofNat 24 i.ext) i.a
    ((s.seq q).reg i.b) ((s.seq q).reg i.c) (i.mBit 4)) := by
  refine congrArg Host.Outcome.next ((State.issue_of_fetches hf hop ht _ _).trans ?_)
  dsimp only
  rw [(atIssue_afterRead hf).seq]
  rfl

end Read

/-- A write that is done clears C and goes on; one with an error response sets C and goes on with e = 1 (R98). -/
theorem writeDone_goesOn {u : State} {q : Fin 16} (i : Ins) (b : Bool) (hl : (u.seq q).live = true)
    (he : b = false → i.mBit 4 = true) :
    ((State.writeDone q i (b, u)).seq q).c = !b ∧ ((State.writeDone q i (b, u)).seq q).pc = i.next
      ∧ (State.writeDone q i (b, u)).regs = u.regs := by
  cases b with
  | true =>
    have hdone : State.writeDone q i (true, u) = u.setSeq q { (id (u.seq q)).goOn i.next with c := false } :=
      State.accessDone_of_live hl i.next id
    rw [hdone, State.seq_setSeq_self]
    exact ⟨rfl, rfl, rfl⟩
  | false =>
    have herr : State.writeDone q i (false, u) = u.setSeq q { (id (u.seq q)).goOn i.next with c := true } := by
      change u.plainError q i = _
      rw [State.plainError, he rfl]
      exact State.errorResponse_goesOn hl i.next id
    rw [herr, State.seq_setSeq_self]
    exact ⟨rfl, rfl, rfl⟩

/-- FRD (R104). -/
theorem frd_reads {s : State} {q : Fin 16} {i : Ins} (hf : Fetches s q i) (ht : (s.seq q).t = false) (hop : i.op = 0x18) :
    (∀ v u', (atIssue s q).innerRead (i.fabricAddr (s.seq q)) = (some v, u') →
      ∃ t, exec (.frd q) s = .next t ∧ (t.seq q).reg i.a = BitVec.ofNat 24 v ∧ (t.seq q).c = false
        ∧ (t.seq q).z = decide (BitVec.ofNat 24 v = 0) ∧ (t.seq q).pc = i.next ∧ t.regs = u'.regs ∧ t.vtg = s.vtg)
    ∧ (∀ u', (atIssue s q).innerRead (i.fabricAddr (s.seq q)) = (none, u') → i.mBit 4 = true →
      ∃ t, exec (.frd q) s = .next t ∧ (t.seq q).reg i.a = 0 ∧ (t.seq q).c = true ∧ (t.seq q).pc = i.next)
    ∧ (∀ u', (atIssue s q).innerRead (i.fabricAddr (s.seq q)) = (none, u') → i.mBit 4 = false → s.ctl.recoverRun = false →
      ∃ t, exec (.frd q) s = .next t ∧ EndedBy s t q stFault 5) := by
  refine ⟨fun v u' hr => ?_, fun u' hr he => ?_, fun u' hr he hrun => ?_⟩
  · have hu := (atIssue_afterRead hf).innerRead hr
    refine ⟨_, exec_frd_some hf ht hop hr, ?_⟩
    rw [State.accessDone_of_live (hu.live hf.live), State.seq_setSeq_self]
    exact ⟨Seq.reg_setReg .., rfl, rfl, rfl, rfl, hu.vtg⟩
  · have hu := (atIssue_afterRead hf).innerRead hr
    refine ⟨_, exec_frd_none hf ht hop hr, ?_⟩
    rw [State.frdError, he, State.errorResponse_goesOn (hu.live hf.live), State.seq_setSeq_self]
    exact ⟨Seq.reg_setReg (u'.seq q) i.a 0, rfl, rfl⟩
  · have hu := (atIssue_afterRead hf).innerRead hr
    refine ⟨_, exec_frd_none hf ht hop hr, ?_⟩
    rw [State.frdError, he]
    exact hu.faultProgram hf.live hrun 5

/-- A read of FPOLL whose word matches (R107). -/
theorem State.pollRead_match {s u : State} {q : Fin 16} {ad : Word} {v : Nat} (hl : (s.seq q).live = true)
    (hr : s.innerRead ad.toNat = (some v, u)) {mask cmp : Word} (hm : BitVec.ofNat 24 v &&& mask = cmp &&& mask) (a : Nat)
        (e : Bool) :
    s.pollRead q ad a mask cmp e = u.setSeq q
      { ({ (u.seq q).setReg a (BitVec.ofNat 24 v) with z := true } : Seq).goOn ((s.seq q).pc + 2) with c := false } := by
  have hseqs : u.seqs = s.seqs := (congrArg State.seqs (congrArg Prod.snd hr)).symm.trans (s.innerRead_seqs _)
  have hlu : (u.seq q).live = true := by rw [State.seq, hseqs]; exact hl
  unfold State.pollRead
  dsimp only
  rw [hr]
  dsimp only
  rw [if_pos hm]
  exact State.accessDone_of_live hlu ..

/-- A read of FPOLL whose word does not match waits for the next (R107). -/
theorem State.pollRead_waits {s u : State} {q : Fin 16} {ad : Word} {v : Nat} (hl : (s.seq q).live = true)
    (hr : s.innerRead ad.toNat = (some v, u)) {mask cmp : Word} (hm : BitVec.ofNat 24 v &&& mask ≠ cmp &&& mask) (a : Nat)
        (e : Bool) :
    s.pollRead q ad a mask cmp e = u.setSeq q
      { u.seq q with c := false, state := .blocked, wait := some (.poll ad a mask cmp e (BitVec.ofNat 24 v)) } := by
  have hseqs : u.seqs = s.seqs := (congrArg State.seqs (congrArg Prod.snd hr)).symm.trans (s.innerRead_seqs _)
  have hlu : (u.seq q).live = true := by rw [State.seq, hseqs]; exact hl
  unfold State.pollRead
  dsimp only
  rw [hr]
  dsimp only
  rw [if_neg hm]
  exact State.onSeq_of_live hlu _

/-- FPOLL (R107). -/
theorem fpoll_reads {s u' : State} {q : Fin 16} {i : Ins} {v : Nat} (hf : Fetches s q i) (ht : (s.seq q).t = false)
    (hop : i.op = 0x1B)
    (hr : (atIssue s q).innerRead (BitVec.ofNat 24 i.ext).toNat = (some v, u')) :
    (BitVec.ofNat 24 v &&& (s.seq q).reg i.b = (s.seq q).reg i.c &&& (s.seq q).reg i.b →
      ∃ t, exec (.fpoll q) s = .next t ∧ (t.seq q).z = true ∧ (t.seq q).c = false
        ∧ (t.seq q).reg i.a = BitVec.ofNat 24 v ∧ (t.seq q).pc = (s.seq q).pc + 2 ∧ t.regs = u'.regs)
    ∧ (BitVec.ofNat 24 v &&& (s.seq q).reg i.b ≠ (s.seq q).reg i.c &&& (s.seq q).reg i.b →
      ∃ t, exec (.fpoll q) s = .next t ∧ (t.seq q).state = .blocked ∧ (t.seq q).pc = (s.seq q).pc ∧ (t.seq q).w = (s.seq q).w) := by
  have hu := atIssue_afterRead hf
  have hl := hu.live hf.live
  have hseq := (hu.innerRead hr).seq
  refine ⟨fun hm => ⟨_, exec_fpoll hf ht hop, ?_⟩, fun hm => ⟨_, exec_fpoll hf ht hop, ?_⟩⟩
  · rw [State.pollRead_match hl hr hm, State.seq_setSeq_self, hu.seq]
    exact ⟨rfl, rfl, Seq.reg_setReg (u'.seq q) i.a _, rfl, rfl⟩
  · rw [State.pollRead_waits hl hr hm, State.seq_setSeq_self, hseq]
    exact ⟨rfl, rfl, rfl⟩

/-- A further read of a waiting FPOLL that finds a match ends it (R107). -/
theorem fpollRead_match {s u : State} {q : Fin 16} {ad : Word} {a v : Nat} {mask cmp last : Word} {e : Bool}
    (hl : (s.seq q).live = true) (hw : (s.seq q).wait = some (.poll ad a mask cmp e last))
    (hr : s.innerRead ad.toNat = (some v, u)) (hm : BitVec.ofNat 24 v &&& mask = cmp &&& mask) :
    ∃ t, exec (.fpollRead q) s = .next t ∧ (t.seq q).z = true ∧ (t.seq q).c = false ∧ (t.seq q).state = .running
      ∧ (t.seq q).reg a = BitVec.ofNat 24 v ∧ (t.seq q).pc = (s.seq q).pc + 2 ∧ t.regs = u.regs := by
  have hexec : exec (.fpollRead q) s = .next (s.pollRead q ad a mask cmp e) := by
    refine congrArg Host.Outcome.next ?_
    rw [hw]
  refine ⟨_, hexec, ?_⟩
  rw [State.pollRead_match hl hr hm, State.seq_setSeq_self]
  exact ⟨rfl, rfl, rfl, Seq.reg_setReg (u.seq q) a _, rfl, rfl⟩

/-- The fabric timeout ends a waiting FPOLL with e = 1 as an error response does (R52, R98, R107). -/
theorem fabricAccessTimeout_poll {s : State} {q b : Fin 16} {ad : Word} {a : Nat} {mask cmp last : Word}
    (hl : (s.seq q).live = true) (hw : (s.seq q).wait = some (.poll ad a mask cmp true last)) (hb : ad.toNat / 2 ^ 20 = b.val) :
    ∃ t, exec (.fabricAccessTimeout b 0 (.seq q)) s = .next t ∧ (t.seq q).z = false ∧ (t.seq q).c = true
      ∧ (t.seq q).reg a = 0 ∧ (t.seq q).state = .running := by
  let x : Seq := { (s.seq q).setReg a 0 with z := false }
  have hx : ((s.setSeq q x).seq q).live = true := by rw [State.seq_setSeq_self]; exact hl
  have htimed : s.accessTimedOut q b = (s.setSeq q x).setSeq q { (id x).goOn ((s.seq q).pc + 2) with c := true } := by
    unfold State.accessTimedOut
    rw [hw]
    dsimp only
    rw [if_pos hb, State.onSeq_of_live hl, State.errorResponse_goesOn hx, State.seq_setSeq_self]
  refine ⟨_, rfl, ?_⟩
  have hseqs : ((s.accessTimedOut q b).settleGate b).seqs = (s.accessTimedOut q b).seqs := State.settleGate_seqs ..
  have hseq : ((s.accessTimedOut q b).settleGate b).seq q = { (id x).goOn ((s.seq q).pc + 2) with c := true } := by
    rw [State.seq, hseqs, htimed]
    exact State.seq_setSeq_self ..
  dsimp only
  rw [hseq]
  exact ⟨rfl, rfl, Seq.reg_setReg (s.seq q) a 0, rfl⟩

theorem State.settleGate_gate {s : State} {b : Nat} (h : (s.gate b).closing = true) : (s.settleGate b).gate b = ⟨false, true⟩ := by
  rw [State.settleGate, if_pos h]
  exact State.gate_setGate_self ..

theorem State.hostError_addr {s : State} (h : s.bit F.HIF_ERR_STAT_fabric = false) (a : Addr) :
    (s.hostError a.toNat).rd F.HIF_ERR_ADDR_addr = a.toNat := by
  have hw : a.toNat % 2 ^ fldWidth F.HIF_ERR_ADDR_addr = a.toNat := Nat.mod_eq_of_lt a.isLt
  unfold State.hostError
  rw [State.raise_rd _ _ _ _ _ (by decide), State.rd_wr_ne _ _ _ _ _ _ (by decide), h, if_neg (by decide), State.rd_wr_self, hw]

theorem State.hostError_regsExcept (s : State) {a : Nat} :
    RegsExceptE s (s.hostError a) [(F.HIF_ERR_STAT_fabric, []), (F.HIF_ERR_ADDR_addr, [])] := fun f is hk hE =>
  s.hostError_rd a (fun e => hk (e ▸ by decide)) (fun e => hk (e ▸ by decide)) hE

theorem State.hostError_ctl (s : State) (a : Nat) : (s.hostError a).ctl = s.ctl := by
  unfold State.hostError
  dsimp only
  rw [State.raise_ctl]
  split <;> rfl

/-- The host's access that times out gets the error response, and a gate that waits closes (R52, R12). -/
theorem fabricAccessTimeout_host (s : State) {b : Fin 16} {ha : Addr} (hb : ha.toNat / 2 ^ 20 = b.val) :
    ∃ t, exec (.fabricAccessTimeout b ha .host) s = .next t ∧ t.rd F.HIF_ERR_STAT_fabric = 1 ∧ t.pends 0x07 = true
      ∧ (s.bit F.HIF_ERR_STAT_fabric = false → t.rd F.HIF_ERR_ADDR_addr = ha.toNat)
      ∧ ((s.gate b).closing = true → t.gate b = ⟨false, true⟩)
      ∧ RegsExceptE s t [(F.HIF_ERR_STAT_fabric, []), (F.HIF_ERR_ADDR_addr, [])] := by
  have hexec : exec (.fabricAccessTimeout b ha .host) s = .next ((s.hostError ha.toNat).settleGate b) := by
    refine congrArg Host.Outcome.next ?_
    dsimp only
    rw [if_pos hb]
  have hregs : ((s.hostError ha.toNat).settleGate b).regs = (s.hostError ha.toNat).regs := State.settleGate_regs ..
  refine ⟨_, hexec, ?_, ?_, fun hbit => ?_, fun hclose => ?_, ?_⟩
  · rw [State.settleGate_rd, State.hostError_rd_fabric]
  · rw [State.pends, State.settleGate_rd]
    exact s.hostError_pends _
  · rw [State.settleGate_rd, State.hostError_addr hbit]
  · refine State.settleGate_gate ?_
    rw [State.gate, State.hostError_ctl]
    exact hclose
  · exact s.hostError_regsExcept.of_regs hregs

/-- Settles O22: FRD, FWR, FRMW and FPOLL by what they do at issue and with the response; a waiting FPOLL by its further read and by
the fabric timeout; the host's access by its error response. -/
theorem tsuileFabric : Obligations.TsuileFabric := by
  refine ⟨fun s q i hf ht => ?_, fun s q ad a mask cmp e last hl hw =>
      ⟨fun v u hr hm => fpollRead_match hl hw hr hm, fun b hb he => ?_,
    fun b ha hb => fabricAccessTimeout_host s hb⟩⟩
  · refine ⟨fun v u' hop => (frd_reads hf ht hop).1 v u', fun u' hop => (frd_reads hf ht hop).2.1 u',
      fun u' hop => (frd_reads hf ht hop).2.2 u', ?_, ?_, ?_, ?_, ?_⟩
    · intro u' hop hwr hlive
      obtain ⟨hc, hpc, hregs⟩ := writeDone_goesOn i true hlive fun h => absurd h (by decide)
      exact ⟨_, (exec_fwr hf ht hop).trans (by rw [hwr]), hc, hpc, hregs⟩
    · intro u' hop hwr hlive he
      obtain ⟨hc, hpc, hregs⟩ := writeDone_goesOn i false hlive fun _ => he
      exact ⟨_, (exec_fwr hf ht hop).trans (by rw [hwr]), hc, hpc, hregs⟩
    · intro v u' u'' hop hr hwr hlive
      obtain ⟨hc, hpc, hregs⟩ := writeDone_goesOn i true hlive fun h => absurd h (by decide)
      exact ⟨_, (exec_frmw_some hf ht hop hr).trans (by rw [hwr]), hc, hpc, hregs⟩
    · intro u' hop hr he
      have hlive := ((atIssue_afterRead hf).innerRead hr).live hf.live
      obtain ⟨hc, hpc, hregs⟩ := writeDone_goesOn i false hlive fun _ => he
      exact ⟨_, exec_frmw_none hf ht hop hr, hc, hregs⟩
    · intro v u' hop hr
      exact fpoll_reads hf ht hop hr
  · subst he
    exact fabricAccessTimeout_poll hl hw hb

end Sys2Proof.Machine
end

section
/-!
What the cipher, the queues and events leave of the transmitters: `State.line` gathers what a frame of the grid reads of them; a lemma
`…_line` says that an operation keeps it.
-/

namespace Sys2Proof.Machine

/-! ### What a frame of the grid reads of the slices -/

/-- The keys of GLB_SLICE_STAT, of the fields at bit 23 of the transmitters, of LFR_TX_SFC, and of the pair and its mark. -/
def lineKey (k : Nat) : Bool :=
  decide (0x20 ≤ k / 32 ∧ k / 32 < 0x30) || decide (k % 32 = 23 ∧ 0x400000 ≤ k / 32 ∧ k / 32 < 0x500000)
    || decide (k % 32 = 0 ∧ 0x700000 ≤ k / 32 ∧ k / 32 < 0x800000 ∧ k / 32 % 0x20000 = 3)
    || decide (k = fldKey F.PRY_TWIN_STAT_pair []) || decide (k = fldKey F.PRY_TWIN_CFG_mark_en [])

theorem lineKey_eq_false_iff (k : Nat) : lineKey k = false ↔
    ¬(0x20 ≤ k / 32 ∧ k / 32 < 0x30) ∧ ¬(k % 32 = 23 ∧ 0x400000 ≤ k / 32 ∧ k / 32 < 0x500000)
      ∧ ¬(k % 32 = 0 ∧ 0x700000 ≤ k / 32 ∧ k / 32 < 0x800000 ∧ k / 32 % 0x20000 = 3)
      ∧ k ≠ 0xF00101 * 32 + 22 ∧ k ≠ 0xF00100 * 32 + 23 := by
  have e : fldKey F.PRY_TWIN_STAT_pair [] = 0xF00101 * 32 + 22 ∧ fldKey F.PRY_TWIN_CFG_mark_en [] = 0xF00100 * 32 + 23 := ⟨rfl, rfl⟩
  simp only [lineKey, e, Bool.or_eq_false_iff, decide_eq_false_iff_not, and_assoc]

/-- The fields of the blocks above the slices that are not at bits 22 and 23. -/
def Fld.beyond (f : Fld) : Bool := decide (0x800000 ≤ f.addr ∧ f.lo < 22)

theorem lineKey_of_beyond {f : Fld} (h : f.beyond = true) (is : List Nat) : lineKey (fldKey f is) = false := by
  have ha := fldAddr_ge f is
  have hf := of_decide_eq_true h
  rw [lineKey_eq_false_iff, fldKey]
  omega

/-- The lanes of the slices as the transmitter finds them: frames, chains, tendrils, the control part, the vintages, the grid, the
register fields that `lineKey` names, and the mark of the pair. -/
structure Line where
  regs : Nat → Nat → Nat
  lfr : Tab Lfr
  tx : Tab Tx
  tdl : Tab Tdl
  ctl : Ctl
  vtg : Vintages
  grid : Grid
  mark : Nat

def State.line (s : State) : Line :=
  ⟨fun d k => if lineKey k then tabGet d s.regs k else 0, s.lfr, s.tx, s.tdl, s.ctl, s.vtg, s.grid, s.pry.mark⟩

theorem State.wr_line_of {f : Fld} {is : List Nat} (h : lineKey (fldKey f is) = false) (s : State) (v : Nat) :
    (s.wr f v is).line = s.line := by
  simp only [State.line, State.wr, Line.mk.injEq, and_true]
  funext d k
  split
  · next hk => exact tabGet_put_ne _ _ _ _ (by rintro rfl; simp [h] at hk)
  · rfl

@[simp] theorem State.wr_line {f : Fld} (h : f.beyond = true) (s : State) (v : Nat) (is : List Nat) :
    (s.wr f v is).line = s.line :=
  s.wr_line_of (lineKey_of_beyond h is) v

theorem State.rd_of_line {s t : State} (h : t.line = s.line) {f : Fld} {is : List Nat} (hf : lineKey (fldKey f is) = true) :
    t.rd f is = s.rd f is := by
  have := congrFun (congrFun (congrArg Line.regs h) (f.reset is)) (fldKey f is)
  simpa [State.line, hf, State.rd] using this

@[simp] theorem State.line_ite (c : Prop) [Decidable c] (s t : State) :
    (if c then s else t).line = if c then s.line else t.line :=
  apply_ite _ _ _ _

@[simp] theorem forEach_line {α : Type} {f : α → State → State} (h : ∀ a s, (f a s).line = s.line) (l : List α) (s : State) :
    (forEach f l s).line = s.line := forEach_keeps State.line f h l s

@[simp] theorem beyondFields : F.HIF_Q_OVF_pkts.beyond = true ∧ F.HIF_Q_OVF_words.beyond = true ∧ F.HIF_Q_PEAK_peak.beyond = true
    ∧ F.HIF_Q_STAT_notice.beyond = true ∧ F.HIF_Q_STAT_wm_hit.beyond = true ∧ F.CIP_CH_MFC_H_count.beyond = true
    ∧ F.CIP_CH_MFC_L_count.beyond = true ∧ F.CIP_SLOT_KCV_kcv.beyond = true := by
  and_intros <;> rfl

/-- A state built from another's lanes has its lanes. -/
theorem State.line_mk {s : State} {pry : Pry} (hMark : pry.mark = s.pry.mark)
    (pending counters exec seqs queues hif tim conv calEng capture rx pool align mems chans cip svcSol clients gfp lanes
        calendars cel mon cask free) :
    State.line ⟨pending, s.regs, counters, s.ctl, exec, seqs, queues, s.vtg, hif, tim, conv, calEng, capture, rx, s.tx, pool, align,
      s.tdl, s.lfr, s.grid, mems, chans, cip, svcSol, clients, gfp, lanes, calendars, cel, pry, mon, cask, free⟩ = s.line := by
  simp only [State.line, hMark]

/-! Events. -/

@[simp] theorem State.pryTx_mark (s : State) (p : Nat) (m : PryMsg) : (s.pryTx p m).pry.mark = s.pry.mark := by
  unfold State.pryTx
  split <;> rfl

theorem State.captureTrigger_pry (s : State) (k n : Nat) : (s.captureTrigger k n).pry = s.pry := by
  have hfire (i : Nat) : (s.fireCapture i).pry = s.pry := by
    simp only [State.fireCapture, apply_ite State.pry, State.wr_pry, ite_self]
  unfold State.captureTrigger
  split
  · rfl
  · simp only [State.stick, apply_ite State.pry, State.wr_pry, hfire, ite_self]

theorem State.injEvent_pry (s : State) (e : Nat) : (s.injEvent e).pry = s.pry := by
  refine forEach_keeps State.pry _ (fun q t => ?_) _ s
  have htrig (t : State) : (t.injTrigger q).pry = t.pry := by
    unfold State.injTrigger
    dsimp only
    split <;> rfl
  split
  · exact htrig _
  · rfl

theorem State.deliverSeqs_pry (s : State) (e : Nat) (data : Word) : (s.deliverSeqs e data).pry = s.pry := by
  unfold State.deliverSeqs
  exact forEach_keeps State.pry _ (fun q t => t.setSeq_pry q _) _ s

theorem State.signalEvent_pry (s : State) (e : Nat) : (s.signalEvent e).pry = s.pry := by
  have hvec (f v : Nat) : (s.signalVec f v).pry = s.pry := by
    unfold State.signalVec
    dsimp only
    split <;> rfl
  simp only [State.signalEvent, apply_ite State.pry, hvec, ite_self]

theorem State.raise_mark (s : State) (e d : Nat) : (s.raise e d).pry.mark = s.pry.mark := by
  have hforward (t : State) : (t.forwardEvent e d).pry.mark = t.pry.mark := by
    unfold State.forwardEvent
    split
    · split
      · exact t.pryTx_mark ..
      · rfl
    · rfl
  unfold State.raise
  dsimp only
  rw [State.captureTrigger_pry, State.injEvent_pry, hforward, State.signalEvent_pry, State.deliverSeqs_pry]
  split <;> rfl

/-- A field with a given key. -/
def keyFld (k d : Nat) : Fld := ⟨k / 32, [], 0, k % 32, .live, fun _ => d⟩

theorem eventKeys_line {k : Nat} (h : lineKey k = true) : k ∉ eventKeys := by
  have hall : (eventKeys.all fun k => !lineKey k) = true := by decide
  intro hk
  simpa [h] using List.all_eq_true.mp hall k hk

theorem State.noEvents_grid (s : State) : s.noEvents.grid = s.grid := rfl

@[simp] theorem State.raise_line (s : State) (e d : Nat) : (s.raise e d).line = s.line := by
  have hgrid : (s.raise e d).grid = s.grid := by rw [← State.noEvents_grid, State.raise_noEvents, State.noEvents_grid]
  simp only [State.line, State.raise_lfr, State.raise_tx, State.raise_tdl, State.raise_ctl, State.raise_vtg, hgrid,
      State.raise_mark,
    Line.mk.injEq, and_true]
  funext x k
  split
  · next hk =>
    have hkey : fldKey (keyFld k x) [] = k := by
      change (k / 32 + 0) * 32 + k % 32 = k
      omega
    have h := s.raise_rd e d (keyFld k x) [] (by rw [hkey]; exact eventKeys_line hk)
    rw [State.rd, State.rd, hkey] at h
    exact h
  · rfl




/-! ### Ops -/

@[simp] theorem State.addSat_line {f : Fld} (h : f.beyond = true) (s : State) (n max : Nat) (is : List Nat) :
    (s.addSat f n max is).line = s.line := State.wr_line h ..
@[simp] theorem State.count_line (s : State) (i n : Nat) : (s.count i n).line = s.line := by rfl
@[simp] theorem State.setSeq_line (s : State) (q : Nat) (x : Seq) : (s.setSeq q x).line = s.line := by rfl
@[simp] theorem State.setQueue_line (s : State) (q : Nat) (x : Queue) : (s.setQueue q x).line = s.line := by rfl
@[simp] theorem State.signalVec_line (s : State) (f v : Nat) : (s.signalVec f v).line = s.line := by
  unfold State.signalVec
  dsimp only
  repeat' split
  all_goals rfl
@[simp] theorem State.setPort_line (s : State) (p : Nat) (x : Port) : (s.setPort p x).line = s.line := by rfl
@[simp] theorem State.pryTx_line (s : State) (p : Nat) (m : PryMsg) : (s.pryTx p m).line = s.line := by simp [State.pryTx]
@[simp] theorem State.putRow_line (s : State) (cls row : Nat) : (s.putRow cls row).line = s.line := by rfl
@[simp] theorem State.memWrite_line (s : State) (cls row : Nat) (whole : Bool) : (s.memWrite cls row whole).2.line = s.line := by
  unfold State.memWrite
  split
  · simp
  · split <;> simp
@[simp] theorem State.memRead_line (s : State) (cls row : Nat) : (s.memRead cls row).2.line = s.line := by
  unfold State.memRead
  dsimp only
  repeat' split
  all_goals simp [↓State.line_mk]
@[simp] theorem State.sendNotice_line (s : State) (q : Nat) : (s.sendNotice q).line = s.line := by simp [State.sendNotice]
@[simp] theorem State.markNotice_line (s : State) (q : Nat) : (s.markNotice q).line = s.line := by
  unfold State.markNotice
  dsimp only
  split <;> simp
@[simp] theorem State.notice_line (s : State) (q : Nat) : (s.notice q).line = s.line := by simp [State.notice]
@[simp] theorem State.queueMarks_line (s : State) (q : Nat) : (s.queueMarks q).line = s.line := by
  unfold State.queueMarks
  split <;> simp
@[simp] theorem State.refuseWords_line (s : State) (q pkts words : Nat) : (s.refuseWords q pkts words).line = s.line := by
  simp [State.refuseWords]
@[simp] theorem State.land_line (s : State) (q : Nat) (x : Queue) (ps : List QPkt) : (s.land q x ps).line = s.line := by
  simp [State.land]
@[simp] theorem State.arrive_line (s : State) (q : Nat) (w : Word) (given : Nat) : (s.arrive q w given).line = s.line := by
  unfold State.arrive
  dsimp only
  repeat' split
  all_goals simp
@[simp] theorem State.deliverWord_line (s : State) (q : Nat) (w : Word) : (s.deliverWord q w).2.line = s.line := by
  unfold State.deliverWord
  dsimp only
  repeat' split
  all_goals simp
theorem State.popWord_line {s t : State} {q : Nat} {w : Word} {b : Bool} (h : s.popWord q = some (w, b, t))
    : t.line = s.line := by
  unfold State.popWord at h
  dsimp only at h
  split at h
  · split at h
    · cases h; simp
    · cases h
  · cases h
@[simp] theorem State.popWords_line (s : State) (q n : Nat) : (s.popWords q n).2.line = s.line := by
  induction n generalizing s with
  | zero => rfl
  | succ n ih =>
    unfold State.popWords
    split
    · rfl
    · next h => exact (ih _).trans (State.popWord_line h)
@[simp] theorem State.putScratch_line (s : State) (q a : Nat) (w : Word) : (s.putScratch q a w).line = s.line := by
  simp [State.putScratch]
@[simp] theorem State.putWords_line (s : State) (q a : Nat) (ws : List Word) : (s.putWords q a ws).line = s.line := by
  induction ws generalizing s a with
  | nil => rfl
  | cons w ws ih => exact (ih _ _).trans (State.putScratch_line ..)
@[simp] theorem State.takeWords_line (s : State) (sq q : Nat) (ws : List Word) : (s.takeWords sq q ws).line = s.line := by
  unfold State.takeWords
  dsimp only
  repeat' split
  all_goals simp
@[simp] theorem State.feed_line (s : State) (q : Nat) : (s.feed q).line = s.line := by
  unfold State.feed
  dsimp only
  split <;> simp
@[simp] theorem State.push_line (s : State) (q : Nat) (w : Word) (given : Nat) : (s.push q w given).line = s.line := by
  unfold State.push
  dsimp only
  split <;> simp
@[simp] theorem State.pushAll_line (s : State) (q : Nat) (ws : List Word) : (s.pushAll q ws).line = s.line := by
  simp [State.pushAll]
@[simp] theorem State.mirrorDrain_line (s : State) : s.mirrorDrain.line = s.line := by
  unfold State.mirrorDrain
  dsimp only
  repeat' split
  all_goals simp
@[simp] theorem State.mirror_line (s : State) (typ : Nat) (content : List Nat) : (s.mirror typ content).line = s.line := by
  simp [State.mirror, ↓State.line_mk]

/-! ### Cipher -/

@[simp] theorem State.setCipTx_line (s : State) (c : Nat) (x : CipTx) : (s.setCipTx c x).line = s.line := by rfl
@[simp] theorem State.setMfc_line (s : State) (c d n : Nat) : (s.setMfc c d n).line = s.line := by simp [State.setMfc]
@[simp] theorem State.mirrorGrids_line (s : State) : s.mirrorGrids.line = s.line := by simp [State.mirrorGrids]

/-! ### Gfp -/

@[simp] theorem State.setGfp_line (s : State) (c : Nat) (x : Gfp) : (s.setGfp c x).line = s.line := by rfl
@[simp] theorem State.gfpTake_line (s : State) (c n : Nat) : (s.gfpTake c n).2.line = s.line := by rfl

/-! ### Encode -/

@[simp] theorem State.encryptFrame_line (s : State) : s.encryptFrame.line = s.line := by
  unfold State.encryptFrame
  refine forEach_line (fun c t => ?_) _ _
  split <;> simp

end Sys2Proof.Machine
end

section
/-!
The frame and superframe boundaries of the transmitters: the turn of the grid, the limiter and the amplitude, the frame that goes out and
the start of a superframe (R19, R37, R244, R248 to R250, R257, R309, R311, R335, R483).
-/

namespace Sys2Proof.Machine

/-! ### Frames of the grid -/

/-- The lanes without the enable of the pair's mark. -/
def Line.unmarked (l : Line) : Line :=
  { l with regs := fun d k => if k = fldKey F.PRY_TWIN_CFG_mark_en [] then 0 else l.regs d k }

theorem State.rd_of_unmarked {s t : State} (h : t.line.unmarked = s.line.unmarked) {f : Fld} {is : List Nat}
    (hf : lineKey (fldKey f is) = true) (hm : fldKey f is ≠ fldKey F.PRY_TWIN_CFG_mark_en []) : t.rd f is = s.rd f is := by
  have := congrFun (congrFun (congrArg Line.regs h) (f.reset is)) (fldKey f is)
  simpa [Line.unmarked, State.line, hf, hm, State.rd] using this

theorem Line.ctl_of_unmarked {s t : State} (h : t.line.unmarked = s.line.unmarked) : t.ctl = s.ctl := congrArg Line.ctl h
theorem Line.tx_of_unmarked {s t : State} (h : t.line.unmarked = s.line.unmarked) : t.tx = s.tx := congrArg Line.tx h
theorem Line.lfr_of_unmarked {s t : State} (h : t.line.unmarked = s.line.unmarked) : t.lfr = s.lfr := congrArg Line.lfr h
theorem Line.vtg_of_unmarked {s t : State} (h : t.line.unmarked = s.line.unmarked) : t.vtg = s.vtg := congrArg Line.vtg h
theorem Line.grid_of_unmarked {s t : State} (h : t.line.unmarked = s.line.unmarked) : t.grid = s.grid := congrArg Line.grid h
theorem Line.mark_of_unmarked {s t : State} (h : t.line.unmarked = s.line.unmarked) : t.pry.mark = s.pry.mark :=
    congrArg Line.mark h

theorem State.cipMultiframe_line (s : State) : s.cipMultiframe.line = s.line := by
  refine forEach_keeps_mem State.line _ _ (fun c hc t => ?_) s
  have hc512 : c < 512 := List.mem_range.mp hc
  have e : fldKey F.CIP_CH_STAT_tx_epoch [c] = (0x901800 + (1 * c + 0)) * 32 + 22 := rfl
  split
  · refine (State.wr_line_of ((lineKey_eq_false_iff _).2 ?_) _ _).trans (by simp)
    rw [e]
    omega
  · rfl

/-- The status of a key slot is at no key of the lanes but, past the last slot, the one of the mark's enable. -/
theorem State.wr_slotFull_unmarked (s : State) (n : Nat) : (s.wr F.CIP_SLOT_STAT_full 0 [n]).line.unmarked = s.line.unmarked := by
  have e : fldKey F.CIP_SLOT_STAT_full [n] = (0x904000 + (1 * n + 0)) * 32 + 23 := rfl
  have em : fldKey F.PRY_TWIN_CFG_mark_en [] = 0xF00100 * 32 + 23 := rfl
  by_cases hn : fldKey F.CIP_SLOT_STAT_full [n] = fldKey F.PRY_TWIN_CFG_mark_en []
  · simp only [Line.unmarked, State.line, State.wr, Line.mk.injEq, and_true]
    funext d k
    split
    · rfl
    · next hk => exact ite_congr rfl (fun _ => tabGet_put_ne _ _ _ _ (by rw [hn]; exact hk)) fun _ => rfl
  · rw [State.wr_line_of ((lineKey_eq_false_iff _).2 _)]
    rw [e] at hn ⊢
    omega

/-- A field whose reset value is not 0 is not cleared by an erased key. -/
theorem State.wr_slotFull_mark {s : State} (h : s.bit F.PRY_TWIN_CFG_mark_en = true) (n : Nat) :
    (s.wr F.CIP_SLOT_STAT_full 0 [n]).bit F.PRY_TWIN_CFG_mark_en = true := by
  by_cases hn : fldKey F.PRY_TWIN_CFG_mark_en [] = fldKey F.CIP_SLOT_STAT_full [n]
  · have hreset : F.CIP_SLOT_STAT_full.reset [n] = 0 := rfl
    have hput : tabPut (F.CIP_SLOT_STAT_full.reset [n]) s.regs (fldKey F.CIP_SLOT_STAT_full [n])
        (0 % 2 ^ fldWidth F.CIP_SLOT_STAT_full)
        = tabErase s.regs (fldKey F.CIP_SLOT_STAT_full [n]) := if_pos (by rw [hreset]; rfl)
    rw [State.bit, State.rd, State.wr, hput, hn, tabGet_erase_self]
    rfl
  · rw [State.bit, State.rd_wr_ne _ _ _ _ _ _ hn]
    exact h

/-- What reading a key, the messages and the frames of the grid keep: the lanes, and the enable of the mark where it is set. -/
structure Lanes (s t : State) : Prop where
  line : t.line.unmarked = s.line.unmarked
  mark : s.bit F.PRY_TWIN_CFG_mark_en = true → t.bit F.PRY_TWIN_CFG_mark_en = true

theorem Lanes.refl (s : State) : Lanes s s := ⟨rfl, id⟩

theorem Lanes.trans {s t u : State} (h : Lanes s t) (g : Lanes t u) : Lanes s u :=
    ⟨g.line.trans h.line, fun hm => g.mark (h.mark hm)⟩

theorem Lanes.of_line {s t : State} (h : t.line = s.line) : Lanes s t :=
  ⟨congrArg Line.unmarked h, fun hm => by rw [State.bit, State.rd_of_line h (by decide)]; exact hm⟩

theorem Lanes.forEach {α : Type} {f : α → State → State} (h : ∀ a t, Lanes t (f a t)) (l : List α) (s : State) :
    Lanes s (forEach f l s) := by
  induction l generalizing s with
  | nil => exact .refl s
  | cons a l ih => exact (h a s).trans (ih (f a s))

theorem State.keyRead_lanes (s : State) (n : Nat) : Lanes s (s.keyRead n).2.2 := by
  have hread : Lanes s (s.memRead 9 n).2 := .of_line (s.memRead_line 9 n)
  unfold State.keyRead
  dsimp only
  split
  · refine hread.trans ?_
    exact Lanes.trans ⟨State.wr_slotFull_unmarked _ n, fun hm => State.wr_slotFull_mark hm n⟩ (.of_line (State.wr_line rfl ..))
  · exact hread

theorem State.txMessages_lanes (s : State) : Lanes s s.txMessages := by
  unfold State.txMessages
  dsimp only
  refine (Lanes.of_line s.cipMultiframe_line).trans (Lanes.trans (Lanes.forEach (fun p t => ?_) _ _)
      (.of_line (State.mirrorGrids_line _)))
  exact (t.keyRead_lanes _).trans (.of_line (State.setCipTx_line ..))

theorem State.gridMark_line (s : State) : s.gridMark.lfr = s.lfr ∧ s.gridMark.tx = s.tx ∧ s.gridMark.ctl = s.ctl
    ∧ s.gridMark.vtg = s.vtg
    ∧ s.gridMark.regs = s.regs ∧ s.gridMark.grid = s.grid := by
  unfold State.gridMark
  split <;> exact ⟨rfl, rfl, rfl, rfl, rfl, rfl⟩

theorem State.gridMark_of_pair {s : State} (hpair : s.rd F.PRY_TWIN_STAT_pair = 2) (hmark : s.bit F.PRY_TWIN_CFG_mark_en = true) :
    s.gridMark.pry.mark = s.pry.mark + 1 ∧ s.gridMark.pry.hold = 50 := by
  rw [State.gridMark, if_pos ⟨hpair, hmark⟩]
  exact ⟨rfl, rfl⟩

/-- The grid's next frame before the pair's mark. -/
def State.gridNext (s : State) : State :=
  let t : State := { s with grid := ⟨0, (s.grid.frame + 1) % 4096⟩ }
  (if (s.grid.frame + 1) % 4096 % 256 = 0 then t.txMessages else t).encryptFrame

theorem State.gridFrame_eq (s : State) :
    s.gridFrame = if (s.grid.frame + 1) % 4096 = 0 then s.gridNext.gridMark else s.gridNext := by
  unfold State.gridFrame State.gridNext
  rfl

/-- The state with the grid at the start of its next frame. -/
def State.gridAhead (s : State) : State := { s with grid := ⟨0, (s.grid.frame + 1) % 4096⟩ }

theorem State.gridNext_lanes (s : State) : Lanes s.gridAhead s.gridNext := by
  unfold State.gridNext
  dsimp only
  split
  · exact (State.txMessages_lanes _).trans (.of_line (State.encryptFrame_line _))
  · exact .of_line (State.encryptFrame_line _)

/-- What a frame boundary of slice i reads of the state is kept by the turn of the grid. -/
structure Turned (s u : State) : Prop where
  lfr : u.lfr = s.lfr
  tx : u.tx = s.tx
  ctl : u.ctl = s.ctl
  vtg : u.vtg = s.vtg
  rd : ∀ f is, lineKey (fldKey f is) = true → fldKey f is ≠ fldKey F.PRY_TWIN_CFG_mark_en [] → u.rd f is = s.rd f is

theorem State.gridFrame_turned (s : State) : Turned s s.gridFrame := by
  have hl := s.gridNext_lanes.line
  have hahead : Turned s s.gridAhead := ⟨rfl, rfl, rfl, rfl, fun _ _ _ _ => rfl⟩
  have hnext : Turned s s.gridNext := ⟨(Line.lfr_of_unmarked hl).trans hahead.lfr, (Line.tx_of_unmarked hl).trans hahead.tx,
    (Line.ctl_of_unmarked hl).trans hahead.ctl, (Line.vtg_of_unmarked hl).trans hahead.vtg,
    fun f is hf hm => (State.rd_of_unmarked hl hf hm).trans (hahead.rd f is hf hm)⟩
  rw [State.gridFrame_eq]
  split
  · obtain ⟨hlfr, htx, hctl, hvtg, hregs, -⟩ := s.gridNext.gridMark_line
    exact ⟨hlfr.trans hnext.lfr, htx.trans hnext.tx, hctl.trans hnext.ctl, hvtg.trans hnext.vtg, fun f is hf hm => by
      rw [State.rd, hregs]
      exact hnext.rd f is hf hm⟩
  · exact hnext

theorem State.gridTurn_turned {s u : State} {i : Nat} (h : s.gridTurn i = some u) : Turned s u := by
  unfold State.gridTurn at h
  dsimp only at h
  split at h
  · cases h
    exact ⟨rfl, rfl, rfl, rfl, fun _ _ _ _ => rfl⟩
  · split at h
    · cases h
      exact s.gridFrame_turned
    · cases h

/-- At the end of a superframe of the grid a pair that marks its superframes does (R483). -/
theorem State.gridFrame_marks {s : State} (hframe : s.grid.frame = 4095) (hpair : s.rd F.PRY_TWIN_STAT_pair = 2)
    (hmark : s.bit F.PRY_TWIN_CFG_mark_en = true) :
    s.gridFrame.grid = ⟨0, 0⟩ ∧ s.gridFrame.pry.mark = s.pry.mark + 1 ∧ s.gridFrame.pry.hold = 50 := by
  have hn : (s.grid.frame + 1) % 4096 = 0 := by rw [hframe]
  have hnext := s.gridNext_lanes
  have hpair' : s.gridNext.rd F.PRY_TWIN_STAT_pair = 2 := (State.rd_of_unmarked (s := s.gridAhead) hnext.line (by decide)
      (by decide)).trans hpair
  have hgrid : s.gridNext.grid = ⟨0, 0⟩ := (Line.grid_of_unmarked hnext.line).trans (by rw [State.gridAhead, hn])
  have hm : s.gridNext.pry.mark = s.pry.mark := Line.mark_of_unmarked (s := s.gridAhead) hnext.line
  rw [State.gridFrame_eq, if_pos hn]
  obtain ⟨hmark', hhold⟩ := State.gridMark_of_pair hpair' (hnext.mark hmark)
  exact ⟨(State.gridMark_line _).2.2.2.2.2.trans hgrid, hmark'.trans (by rw [hm]), hhold⟩

/-! ### The limiter, the amplitude and the frame -/

/-- The fields that the limiter writes (R243 to R246). -/
def maskFields (i : Nat) : List (Fld × List Nat) :=
  [(F.TXD_STAT_muted, [i]), (F.TXD_STAT_limiting, [i]), (F.TXD_STAT_mask_alarm, [i])] ++ (List.range 64).map fun b =>
      (F.TXD_MASK_ATT_att, [i, b])

theorem RegsExceptE.mono {s t : State} {l m : List (Fld × List Nat)} (h : RegsExceptE s t l) (hl : ∀ p ∈ l, p ∈ m) :
    RegsExceptE s t m :=
  fun f is hk hE => h f is (fun hm => hk (by
    obtain ⟨p, hp, he⟩ := List.mem_map.mp hm
    exact List.mem_map.mpr ⟨p, hl p hp, he⟩)) hE

theorem mem_keysOf {f : Fld} {is : List Nat} {l : List (Fld × List Nat)} (h : (f, is) ∈ l) : fldKey f is ∈ keysOf l :=
  List.mem_map.mpr ⟨_, h, rfl⟩

theorem mem_maskFields {i b : Nat} (h : b ∈ List.range 64) : (F.TXD_MASK_ATT_att, [i, b]) ∈ maskFields i :=
  List.mem_append_right _ (List.mem_map.mpr ⟨b, h, rfl⟩)

/-- The limiter writes no state of a slice and no bit that forces a mute. -/
theorem line_maskFields {i k : Nat} (hi : i < 8) {f : Fld} (hf : f = F.GLB_SLICE_STAT_state ∧ k < 8 ∨ f = F.TXD_MUTE_force
    ∧ k = i) :
    fldKey f [k] ∉ keysOf (maskFields i) ∧ fldKey f [k] ∉ eventKeys := by
  have e0 : fldKey F.GLB_SLICE_STAT_state [k] = (0x000020 + (1 * k + 0)) * 32 + 22 := rfl
  have e1 : fldKey F.TXD_MUTE_force [k] = (0x400001 + (131072 * k + 0)) * 32 + 23 := rfl
  have e2 : fldKey F.TXD_STAT_muted [i] = (0x400000 + (131072 * i + 0)) * 32 + 23 := rfl
  have e3 : fldKey F.TXD_STAT_limiting [i] = (0x400000 + (131072 * i + 0)) * 32 + 17 := rfl
  have e4 : fldKey F.TXD_STAT_mask_alarm [i] = (0x400000 + (131072 * i + 0)) * 32 + 16 := rfl
  have e5 (b : Nat) : fldKey F.TXD_MASK_ATT_att [i, b] = (0x400080 + (131072 * i + (1 * b + 0))) * 32 + 17 := rfl
  constructor
  · intro hk
    obtain ⟨p, hp, he⟩ := List.mem_map.mp hk
    rcases List.mem_append.mp hp with hp | hp
    · obtain ⟨rfl, hk⟩ | ⟨rfl, rfl⟩ := hf <;> simp only [List.mem_cons, List.not_mem_nil, or_false] at hp <;>
        obtain rfl | rfl | rfl := hp <;> simp only [e0, e1, e2, e3, e4] at he <;> omega
    · obtain ⟨b, hb, rfl⟩ := List.mem_map.mp hp
      have hb' : b < 64 := List.mem_range.mp hb
      obtain ⟨rfl, hk⟩ | ⟨rfl, rfl⟩ := hf <;> simp only [e0, e1, e5] at he <;> omega
  · refine eventKeys_line ?_
    obtain ⟨rfl, hk⟩ | ⟨rfl, rfl⟩ := hf <;> simp only [lineKey, e0, e1, Bool.or_eq_true, decide_eq_true_eq] <;> omega

/-- What the limiter and the amplitude of slice i change: its chain, and the fields of the limiter. -/
structure Driven (i : Nat) (s t : State) : Prop where
  ctl : t.ctl = s.ctl
  vtg : t.vtg = s.vtg
  grid : t.grid = s.grid
  pool : t.pool = s.pool
  lfr : t.lfr = s.lfr
  regs : RegsExceptE s t (maskFields i)

theorem Driven.refl (i : Nat) (s : State) : Driven i s s := ⟨rfl, rfl, rfl, rfl, rfl, fun _ _ _ _ => rfl⟩

theorem Driven.setTx {i : Nat} {s t : State} (h : Driven i s t) (x : Tx) : Driven i s (t.setTx i x) :=
  ⟨h.ctl, h.vtg, h.grid, h.pool, h.lfr, h.regs.of_regs rfl⟩

theorem Driven.wr {i : Nat} {s t : State} (h : Driven i s t) {f : Fld} {is : List Nat} (hm : (f, is) ∈ maskFields i) (v : Nat) :
    Driven i s (t.wr f v is) :=
  ⟨h.ctl, h.vtg, h.grid, h.pool, h.lfr, h.regs.wr (mem_keysOf hm) v⟩

theorem State.grid_of_line {s t : State} (h : t.line = s.line) : t.grid = s.grid := congrArg Line.grid h

theorem State.raise_grid (s : State) (e d : Nat) : (s.raise e d).grid = s.grid := State.grid_of_line (s.raise_line e d)

theorem Driven.raise {i : Nat} {s t : State} (h : Driven i s t) (e d : Nat) : Driven i s (t.raise e d) :=
  ⟨(t.raise_ctl e d).trans h.ctl, (t.raise_vtg e d).trans h.vtg, (t.raise_grid e d).trans h.grid, (t.raise_pool e d).trans h.pool,
    (t.raise_lfr e d).trans h.lfr, h.regs.raise e d⟩

/-- The slice's chain but what the limiter remembers of the mask. -/
def Tx.unpast (x : Tx) : Tx := { x with past := [] }

theorem State.setTx_past (s : State) (i : Nat) (x : Tx) (p : Tab Nat) :
    ((s.setTx i { x with past := p }).tx1 i).unpast = x.unpast := by
  rw [State.tx1_setTx_self]
  rfl

theorem State.tx1_of_tx {s t : State} (h : t.tx = s.tx) (i : Nat) : t.tx1 i = s.tx1 i := by rw [State.tx1, h, State.tx1]

theorem Tx.amp_of_unpast {x y : Tx} (h : x.unpast = y.unpast) : x.amp = y.amp := by
  have hamp : x.unpast.amp = y.unpast.amp := by rw [h]
  exact hamp

theorem State.maskBin_driven {i : Nat} {s t : State} (h : Driven i s t) {b : Nat} (hb : b ∈ List.range 64) (level : Nat × Nat) :
    Driven i s (t.maskBin i b level) := by
  have hatt (v : Nat) := h.wr (mem_maskFields hb) v
  unfold State.maskBin
  dsimp only
  split
  · split
    · exact (((hatt _).setTx _).wr (List.mem_append_left _ (by simp)) 1).raise ..
    · exact (hatt _).setTx _
  · exact (hatt _).setTx _

theorem State.maskBin_tx1 (s : State) (i b : Nat) (level : Nat × Nat) :
    ((s.maskBin i b level).tx1 i).unpast = (s.tx1 i).unpast := by
  unfold State.maskBin
  dsimp only
  split
  · split
    · rw [State.tx1_of_tx (State.raise_tx ..), State.tx1_of_tx (State.wr_tx ..)]
      exact State.setTx_past ..
    · exact State.setTx_past ..
  · exact State.setTx_past ..

theorem Driven.bins {i : Nat} {s t : State} (h : Driven i s t) (psd : List (Nat × Nat)) {l : List Nat}
    (hl : ∀ b ∈ l, b ∈ List.range 64) :
    Driven i s (forEach (fun b t => t.maskBin i b (binLevel psd b)) l t) := by
  induction l generalizing t with
  | nil => exact h
  | cons b l ih => exact ih (State.maskBin_driven h (hl b List.mem_cons_self) _) fun c hc => hl c (List.mem_cons_of_mem b hc)

theorem State.maskFrame_driven (s : State) (i : Nat) (psd : List (Nat × Nat)) : Driven i s (s.maskFrame i psd) := by
  unfold State.maskFrame
  exact ((Driven.refl i s).bins psd fun _ => id).wr (List.mem_append_left _ (by simp)) _

theorem State.maskFrame_tx1 (s : State) (i : Nat) (psd : List (Nat × Nat)) :
    ((s.maskFrame i psd).tx1 i).unpast = (s.tx1 i).unpast := by
  unfold State.maskFrame
  rw [State.tx1_of_tx (State.wr_tx ..)]
  exact forEach_keeps (fun u => (u.tx1 i).unpast) _ (fun b t => t.maskBin_tx1 i b _) _ s

theorem State.maskFrame_amp (s : State) (i : Nat) (psd : List (Nat × Nat)) : ((s.maskFrame i psd).tx1 i).amp = (s.tx1 i).amp :=
  Tx.amp_of_unpast (s.maskFrame_tx1 i psd)

/-- The chain that the amplitude is set in: the rate cause clears here (R250). -/
def State.rateClear (s : State) (i : Nat) : State := if (s.tx1 i).rate = .locked then s.setTx i
    { s.tx1 i with rate := .none } else s

theorem State.rateClear_driven (s : State) (i : Nat) : Driven i s (s.rateClear i) := by
  unfold State.rateClear
  split
  · exact (Driven.refl i s).setTx _
  · exact .refl i s

theorem State.rateClear_amp (s : State) (i : Nat) : ((s.rateClear i).tx1 i).amp = (s.tx1 i).amp := by
  unfold State.rateClear
  split
  · rw [State.tx1_setTx_self]
  · rfl

/-- The amplitude at the end of the frame (R248). -/
def State.ampNext (s : State) (i : Nat) : Nat :=
  if s.held i then 0 else nextAmp (decide (s.sliceState i = slDraining)) (s.muteTarget i) (s.tx1 i).amp

theorem State.ampFrame_eq (s : State) (i : Nat) :
    s.ampFrame i = ((s.rateClear i).setTx i { (s.rateClear i).tx1 i with amp := (s.rateClear i).ampNext i }).wr F.TXD_STAT_muted
      (b2n (decide ((s.rateClear i).ampNext i = 0))) [i] := rfl

theorem Driven.ampFrame {i : Nat} {s t : State} (h : Driven i s t) : Driven i s (t.ampFrame i) := by
  have g := t.rateClear_driven i
  rw [State.ampFrame_eq]
  refine Driven.wr (Driven.setTx ⟨g.ctl.trans h.ctl, g.vtg.trans h.vtg, g.grid.trans h.grid, g.pool.trans h.pool, g.lfr.trans h.lfr,
    fun f is hk hE => (g.regs f is hk hE).trans (h.regs f is hk hE)⟩ _) (List.mem_append_left _ (by simp)) _

theorem State.ampFrame_amp (s : State) (i : Nat) : ((s.ampFrame i).tx1 i).amp = (s.rateClear i).ampNext i := by
  rw [State.ampFrame_eq]
  exact congrArg (fun x : Tx => x.amp) (State.tx1_setTx_self ..)

theorem State.ampFrame_muted (s : State) (i : Nat) :
    (s.ampFrame i).rd F.TXD_STAT_muted [i] = b2n (decide ((s.rateClear i).ampNext i = 0)) := by
  rw [State.ampFrame_eq, State.rd_wr_self]
  exact Nat.mod_eq_of_lt (by unfold b2n; split <;> decide)

theorem State.muteTarget_of_force {s : State} {i : Nat} (h : s.bit F.TXD_MUTE_force [i] = true) : s.muteTarget i = true := by
  simp [State.muteTarget, h]

theorem Driven.sliceState {i : Nat} {s t : State} (h : Driven i s t) (hi : i < 8) : t.sliceState i = s.sliceState i :=
  have hkeys := line_maskFields hi (.inl ⟨rfl, hi⟩)
  h.regs _ _ hkeys.1 hkeys.2

theorem Driven.force {i : Nat} {s t : State} (h : Driven i s t) (hi : i < 8) :
    t.bit F.TXD_MUTE_force [i] = s.bit F.TXD_MUTE_force [i] := by
  have hkeys := line_maskFields (k := i) hi (.inr ⟨rfl, rfl⟩)
  rw [State.bit, h.regs _ _ hkeys.1 hkeys.2, State.bit]

theorem Driven.held {i : Nat} {s t : State} (h : Driven i s t) (k : Nat) : t.held k = s.held k := by
  rw [State.held, h.ctl, State.held]

/-- A forced mute takes 250 from the amplitude a frame (R248, R249). -/
theorem State.rampDown_amp {s : State} {i : Nat} (hi : i < 8) (hlit : s.lit i = true) (hforce : s.bit F.TXD_MUTE_force [i] = true)
    (hheld : s.held i = false) (psd : List (Nat × Nat)) :
    (((s.maskFrame i psd).ampFrame i).tx1 i).amp = (s.tx1 i).amp - 250 := by
  have h : Driven i s (s.maskFrame i psd) := s.maskFrame_driven i psd
  have g : Driven i (s.maskFrame i psd) ((s.maskFrame i psd).rateClear i) := State.rateClear_driven ..
  have hstate : ((s.maskFrame i psd).rateClear i).sliceState i ≠ slDraining := by
    rw [g.sliceState hi, h.sliceState hi, of_decide_eq_true hlit]
    decide
  rw [State.ampFrame_amp, State.ampNext, g.held, h.held, hheld, State.muteTarget_of_force
      (((g.force hi).trans (h.force hi)).trans hforce),
    decide_eq_false hstate, State.rateClear_amp, State.maskFrame_amp]
  rfl

/-- The output of a draining slice falls by 16 a frame (R37, R248). -/
theorem State.drainDown_amp {s : State} {i : Nat} (hi : i < 8) (hdrain : s.sliceState i = slDraining)
    (hheld : s.held i = false) (psd : List (Nat × Nat)) :
    (((s.maskFrame i psd).rateClear i).ampNext i) = (s.tx1 i).amp - 16 := by
  have h : Driven i s (s.maskFrame i psd) := s.maskFrame_driven i psd
  have g : Driven i (s.maskFrame i psd) ((s.maskFrame i psd).rateClear i) := State.rateClear_driven ..
  rw [State.ampNext, g.held, h.held, hheld, g.sliceState hi, h.sliceState hi, decide_eq_true hdrain, State.rateClear_amp,
    State.maskFrame_amp]
  rfl

/-! ### The frame that goes out -/

/-- What building, encoding and sending a frame of slice i changes: two bits of its status, its frames and its chain. -/
structure Sent (i : Nat) (s t : State) : Prop where
  ctl : t.ctl = s.ctl
  vtg : t.vtg = s.vtg
  grid : t.grid = s.grid
  pool : t.pool = s.pool
  amp : (t.tx1 i).amp = (s.tx1 i).amp
  mfas : (t.lfr1 i).txMfas = ((s.lfr1 i).txMfas + 1) % 256
  regs : RegsExceptE s t [(F.LFR_STAT_rdi_tx, [i]), (F.CNV_STAT_dac_clip, [i])]

theorem State.txFrame_sent (s : State) (i : Nat) : Sent i s (s.txFrame i) := by
  have hregs : RegsExceptE s (s.txFrame i) [(F.LFR_STAT_rdi_tx, [i]), (F.CNV_STAT_dac_clip, [i])] := by
    unfold State.txFrame
    exact RegsExceptE.wr (RegsExceptE.of_regs (fun _ _ _ _ => rfl) (State.setLfr_regs s i _)) (mem_keysOf (by simp)) _
  exact ⟨rfl, rfl, rfl, rfl, rfl, congrArg Lfr.txMfas (State.lfr1_setLfr_self ..), hregs⟩

theorem State.setTx_amp (s : State) (i : Nat) (x : Tx) : ((s.setTx i x).tx1 i).amp = x.amp := by rw [State.tx1_setTx_self]

theorem Sent.setTx {i : Nat} {s t : State} (h : Sent i s t) {x : Tx} (hx : x.amp = (s.tx1 i).amp) : Sent i s (t.setTx i x) :=
  ⟨h.ctl, h.vtg, h.grid, h.pool, (t.setTx_amp i x).trans hx, h.mfas, h.regs.of_regs rfl⟩

theorem Sent.setLfr {i : Nat} {s t : State} (h : Sent i s t) {x : Lfr} (hx : x.txMfas = ((s.lfr1 i).txMfas + 1) % 256) :
    Sent i s (t.setLfr i x) :=
  ⟨h.ctl, h.vtg, h.grid, h.pool, h.amp, (congrArg Lfr.txMfas (t.lfr1_setLfr_self i x)).trans hx, h.regs.of_regs rfl⟩

theorem Sent.encodeFrame {i : Nat} {s t : State} (h : Sent i s t) : Sent i s (t.encodeFrame i) := by
  unfold State.encodeFrame
  dsimp only
  refine Sent.setLfr (Sent.setTx h ?_) ?_
  · exact h.amp
  · exact h.mfas

theorem Sent.setTdl {i : Nat} {s t : State} (h : Sent i s t) (x : Tdl) : Sent i s (t.setTdl i x) :=
  ⟨h.ctl, h.vtg, h.grid, h.pool, h.amp, h.mfas, h.regs.of_regs rfl⟩

theorem Sent.free {i : Nat} {s t : State} (h : Sent i s t) (n : Nat) : Sent i s { t with free := n } :=
  ⟨h.ctl, h.vtg, h.grid, h.pool, h.amp, h.mfas, h.regs.of_regs rfl⟩

theorem Sent.capture {i : Nat} {s t : State} (h : Sent i s t) (c : Capture) : Sent i s { t with capture := c } :=
  ⟨h.ctl, h.vtg, h.grid, h.pool, h.amp, h.mfas, h.regs.of_regs rfl⟩

theorem Sent.captureDacs {i : Nat} {s t : State} (h : Sent i s t) (dac : List (List Int)) : Sent i s (t.captureDacs i dac) := by
  unfold State.captureDacs
  split
  · exact h.capture _
  · exact h

theorem Sent.dacClips {i : Nat} {s t : State} (h : Sent i s t) (d : Nat) (codes : List (Int × Bool)) :
    Sent i s (t.dacClips i d codes) := by
  unfold State.dacClips
  dsimp only
  split
  · exact h
  · refine ⟨h.ctl, h.vtg, h.grid, h.pool, h.amp, h.mfas, ?_⟩
    exact RegsExceptE.wr (h.regs.of_regs (u := t.count (8 * i + 4 + d) (codes.countP Prod.snd)) rfl) (mem_keysOf (by simp)) _

theorem Sent.forEach {α : Type} {i : Nat} {s t : State} (h : Sent i s t) {f : α → State → State}
    (step : ∀ a u, Sent i s u → Sent i s (f a u)) (l : List α) : Sent i s (forEach f l t) := by
  induction l generalizing t with
  | nil => exact h
  | cons a l ih => exact ih (step a t h)

theorem Sent.txOutput {i : Nat} {s t : State} (h : Sent i s t) : Sent i s (t.txOutput i) := by
  unfold State.txOutput
  dsimp only
  exact ((((h.setTdl _).free _).captureDacs _).forEach (fun p u hu => hu.dacClips p.2 p.1) _).setTx h.amp

theorem State.sendFrame_sent (s : State) (i : Nat) : Sent i s (((s.txFrame i).encodeFrame i).txOutput i) :=
  (s.txFrame_sent i).encodeFrame.txOutput

/-! ### The superframe -/

/-- What the start of a new block stream changes: the slice's chain and frames. -/
structure Streamed (i : Nat) (s t : State) : Prop where
  regs : t.regs = s.regs
  vtg : t.vtg = s.vtg
  grid : t.grid = s.grid
  first : (t.tx1 i).first = (s.tx1 i).first
  mfas : (t.lfr1 i).txMfas = (s.lfr1 i).txMfas
  mfi : (t.lfr1 i).txMfi = (s.lfr1 i).txMfi

theorem State.newStream_eq (s : State) (i : Nat) (x : Tx) :
    ((s.setTx i x).newStream i).tx1 i = { x with info := [], labels := [], pos := 0 }
      ∧ ((s.setTx i x).newStream i).lfr1 i = { s.lfr1 i with txPhase := 0 } := by
  constructor
  · unfold State.newStream
    rw [State.tx1_of_tx (State.setLfr_tx ..), State.tx1_setTx_self, State.tx1_setTx_self]
  · unfold State.newStream
    rw [State.lfr1_setLfr_self]
    rfl

theorem State.streamStart_streamed (s : State) (i : Nat) : Streamed i s (s.streamStart i) := by
  unfold State.streamStart
  dsimp only
  split
  · obtain ⟨htx, hlfr⟩ := s.newStream_eq i { s.tx1 i with newStart := false, rate :=
      if (s.tx1 i).rate = .restart then .none else (s.tx1 i).rate }
    exact ⟨rfl, rfl, rfl, by rw [htx], by rw [hlfr], by rw [hlfr]⟩
  · exact ⟨rfl, rfl, rfl, rfl, by rw [State.lfr1_setLfr_self], by rw [State.lfr1_setLfr_self]⟩

/-- A new start begins a block stream at once where no rate change is under way (R257). -/
theorem State.streamStart_new {s : State} {i : Nat} (hnew : (s.tx1 i).newStart = true) (hrate : (s.tx1 i).rate = .none) :
    ((s.streamStart i).tx1 i).newStart = false ∧ ((s.streamStart i).tx1 i).labels = [] ∧ ((s.streamStart i).tx1 i).pos = 0
      ∧ ((s.streamStart i).lfr1 i).txPhase = 0 := by
  obtain ⟨htx, hlfr⟩ := s.newStream_eq i { s.tx1 i with newStart := false, rate :=
      if (s.tx1 i).rate = .restart then .none else (s.tx1 i).rate }
  rw [State.streamStart, if_pos ⟨hnew, .inl hrate⟩, htx, hlfr]
  exact ⟨rfl, rfl, rfl, rfl⟩

theorem State.streamStart_old {s : State} {i : Nat} (hnew : (s.tx1 i).newStart = false) :
    ((s.streamStart i).lfr1 i).txPhase = ((s.lfr1 i).txPhase + 1) % 3 := by
  have hnot : ¬((s.tx1 i).newStart = true ∧ ((s.tx1 i).rate = .none ∨ (s.tx1 i).rate = .locked ∨ (s.tx1 i).rate = .restart)) := by
    simp [hnew]
  rw [State.streamStart, if_neg hnot, State.lfr1_setLfr_self]

/-- The frames of a superframe that begins. -/
def State.framesRestart (s : State) (i : Nat) : State :=
  let n := s.rd F.LFR_TX_SFC_count [i]
  let t := s.setLfr i { s.lfr1 i with txMfas := 255, txMfi := 15 }
  let d := t.tdl1 i
  if d.agreed.any (fun b => decide (n = (b + 1) % 2 ^ 24)) then t.setTdl i { d with agreed := none } else t

theorem State.framesRestart_eq (s : State) (i : Nat) : (s.framesRestart i).tx = s.tx ∧ (s.framesRestart i).regs = s.regs
    ∧ (s.framesRestart i).vtg = s.vtg ∧ (s.framesRestart i).grid = s.grid
    ∧ (s.framesRestart i).lfr1 i = { s.lfr1 i with txMfas := 255, txMfi := 15 } := by
  unfold State.framesRestart
  dsimp only
  split
  · exact ⟨rfl, rfl, rfl, rfl, State.lfr1_setLfr_self ..⟩
  · exact ⟨rfl, rfl, rfl, rfl, State.lfr1_setLfr_self ..⟩

/-- The start of a superframe, and what it keeps. -/
structure Superframed (i : Nat) (s t : State) : Prop where
  regs : t.regs = s.regs
  vtg : t.vtg = s.vtg
  grid : t.grid = s.grid
  first : (t.tx1 i).first = (s.tx1 i).first
  mfas : (t.lfr1 i).txMfas = 255
  mfi : (t.lfr1 i).txMfi = 15
  new : (s.tx1 i).newStart = true → (s.tx1 i).rate = .none →
    (t.tx1 i).newStart = false ∧ (t.tx1 i).labels = [] ∧ (t.tx1 i).pos = 0 ∧ (t.lfr1 i).txPhase = 0
  old : (s.tx1 i).newStart = false → (t.lfr1 i).txPhase = ((s.lfr1 i).txPhase + 1) % 3

theorem State.superframe_begins (s : State) (i : Nat) : Superframed i s ((s.framesRestart i).streamStart i) := by
  obtain ⟨htx, hregs, hvtg, hgrid, hlfr⟩ := s.framesRestart_eq i
  have htx1 := State.tx1_of_tx htx i
  have h := (s.framesRestart i).streamStart_streamed i
  refine ⟨h.regs.trans hregs, h.vtg.trans hvtg, h.grid.trans hgrid, h.first.trans (by rw [htx1]), h.mfas.trans (by rw [hlfr]),
    h.mfi.trans (by rw [hlfr]), fun hnew hrate => ?_, fun hnew => ?_⟩
  · exact State.streamStart_new (htx1 ▸ hnew) (htx1 ▸ hrate)
  · rw [State.streamStart_old (htx1 ▸ hnew), hlfr]

/-- The first superframe of a slice is not counted, every later one is (R311). -/
def State.superCount (s : State) (first : Bool) (i : Nat) : State :=
  if first then s.setTx i { s.tx1 i with first := false } else s.wr F.LFR_TX_SFC_count (s.rd F.LFR_TX_SFC_count [i] + 1) [i]

theorem execTxSuperframeBoundary_eq (s : State) (i : Fin 8) : execTxSuperframeBoundary i s = .next (
    if s.lit i then
      match if (s.tx1 i).first then s.gridSuperframe else if s.txPlace i = 4095 then some s else none with
      | none => s
      | some u => ((u.superCount (s.tx1 i).first i).framesRestart i).streamStart i
    else s) := rfl

theorem execTxSuperframeBoundary_first {s u : State} {i : Fin 8} (hlit : s.lit i = true) (hfirst : (s.tx1 i).first = true)
    (hu : s.gridSuperframe = some u) :
    execTxSuperframeBoundary i s = .next (((u.setTx i { u.tx1 i with first := false }).framesRestart i).streamStart i) := by
  rw [execTxSuperframeBoundary_eq, if_pos hlit, if_pos hfirst, hu, hfirst]
  rfl

theorem execTxSuperframeBoundary_later {s : State} {i : Fin 8} (hlit : s.lit i = true) (hfirst : (s.tx1 i).first = false)
    (hplace : s.txPlace i = 4095) :
    execTxSuperframeBoundary i s
      = .next (((s.wr F.LFR_TX_SFC_count (s.rd F.LFR_TX_SFC_count [i] + 1) [i]).framesRestart i).streamStart i) := by
  rw [execTxSuperframeBoundary_eq, if_pos hlit, if_neg (by simp [hfirst]), if_pos hplace, hfirst]
  rfl

/-- The state in which the grid's first superframe begins: the messages of its frames are drawn (R313). -/
def State.gridDrawn (s : State) : State := forEach (fun _ (u : State) => u.txMessages) (List.range (15 - s.grid.frame / 256)) s

theorem State.gridSuperframe_drawn {s : State} (h : s.gridSlices = []) :
    s.gridSuperframe = some { s.gridDrawn with grid := ⟨0, 4095⟩ } := by
  rw [State.gridSuperframe, if_pos h]
  rfl

theorem State.gridDrawn_lanes (s : State) : Lanes s s.gridDrawn := Lanes.forEach (fun _ t => t.txMessages_lanes) _ s

/-! ### Keys -/

theorem lineKey_slice {i : Nat} (hi : i < 8) : lineKey (fldKey F.GLB_SLICE_STAT_state [i]) = true := by
  have e : fldKey F.GLB_SLICE_STAT_state [i] = (0x000020 + (1 * i + 0)) * 32 + 22 := rfl
  simp only [lineKey, e, Bool.or_eq_true, decide_eq_true_eq]
  omega

theorem lineKey_force {i : Nat} (hi : i < 8) : lineKey (fldKey F.TXD_MUTE_force [i]) = true := by
  have e : fldKey F.TXD_MUTE_force [i] = (0x400001 + (131072 * i + 0)) * 32 + 23 := rfl
  simp only [lineKey, e, Bool.or_eq_true, decide_eq_true_eq]
  omega

theorem line_ne_mark {i : Nat} (hi : i < 8) : fldKey F.GLB_SLICE_STAT_state [i] ≠ fldKey F.PRY_TWIN_CFG_mark_en []
    ∧ fldKey F.TXD_MUTE_force [i] ≠ fldKey F.PRY_TWIN_CFG_mark_en [] := by
  have e0 : fldKey F.GLB_SLICE_STAT_state [i] = (0x000020 + (1 * i + 0)) * 32 + 22 := rfl
  have e1 : fldKey F.TXD_MUTE_force [i] = (0x400001 + (131072 * i + 0)) * 32 + 23 := rfl
  have em : fldKey F.PRY_TWIN_CFG_mark_en [] = 0xF00100 * 32 + 23 := rfl
  rw [e0, e1, em]
  omega

theorem lineKey_count {i : Nat} (hi : i < 8) : lineKey (fldKey F.LFR_TX_SFC_count [i]) = true
    ∧ fldKey F.LFR_TX_SFC_count [i] ≠ fldKey F.PRY_TWIN_CFG_mark_en [] := by
  have e : fldKey F.LFR_TX_SFC_count [i] = (0x700003 + (131072 * i + 0)) * 32 + 0 := rfl
  have em : fldKey F.PRY_TWIN_CFG_mark_en [] = 0xF00100 * 32 + 23 := rfl
  simp only [lineKey, e, em, Bool.or_eq_true, decide_eq_true_eq, ne_eq]
  omega

theorem muted_not_sent {i : Nat} (hi : i < 8) :
    fldKey F.TXD_STAT_muted [i] ∉ keysOf [(F.LFR_STAT_rdi_tx, [i]), (F.CNV_STAT_dac_clip, [i])]
        ∧ fldKey F.TXD_STAT_muted [i] ∉ eventKeys := by
  have e0 : fldKey F.TXD_STAT_muted [i] = (0x400000 + (131072 * i + 0)) * 32 + 23 := rfl
  have e1 : fldKey F.LFR_STAT_rdi_tx [i] = (0x700000 + (131072 * i + 0)) * 32 + 10 := rfl
  have e2 : fldKey F.CNV_STAT_dac_clip [i] = (0x200000 + (131072 * i + 0)) * 32 + 3 := rfl
  constructor
  · simp only [keysOf, List.map_cons, List.map_nil, List.mem_cons, List.not_mem_nil, or_false, e0, e1, e2]
    omega
  · refine eventKeys_line ?_
    simp only [lineKey, e0, Bool.or_eq_true, decide_eq_true_eq]
    omega

/-! ### The clauses -/

theorem txFrameBoundary_waits {s : State} {i : Fin 8} (psd : List (Nat × Nat)) (hgrid : s.onGrid i = true)
    (h : s.gridTurn i = none) :
    exec (.txFrameBoundary i psd) s = .next s := by
  have hexec : exec (.txFrameBoundary i psd) s = execTxFrameBoundary i psd s := rfl
  rw [hexec, execTxFrameBoundary, if_pos hgrid, h]

theorem txFrameBoundary_turns {s u : State} {i : Fin 8} (psd : List (Nat × Nat)) (hgrid : s.onGrid i = true)
    (h : s.gridTurn i = some u) :
    exec (.txFrameBoundary i psd) s = .next (((((u.maskFrame i psd).ampFrame i).txFrame i).encodeFrame i).txOutput i) := by
  have hexec : exec (.txFrameBoundary i psd) s = execTxFrameBoundary i psd s := rfl
  rw [hexec, execTxFrameBoundary, if_pos hgrid, h]

theorem Driven.lfr1 {i : Nat} {s t : State} (h : Driven i s t) : t.lfr1 i = s.lfr1 i := by rw [State.lfr1, h.lfr, State.lfr1]

theorem State.maskAmp_driven (s : State) (i : Nat) (psd : List (Nat × Nat)) : Driven i s ((s.maskFrame i psd).ampFrame i) :=
  (s.maskFrame_driven i psd).ampFrame

theorem txFrameBoundary_onGrid {s : State} {i : Fin 8} (psd : List (Nat × Nat)) (hgrid : s.onGrid i = true) :
    (s.gridTurn i = none → exec (.txFrameBoundary i psd) s = .next s) ∧
    (∀ u, s.gridTurn i = some u →
      ∃ t, exec (.txFrameBoundary i psd) s = .next t ∧ (t.lfr1 i).txMfas = ((s.lfr1 i).txMfas + 1) % 256
        ∧ t.grid = u.grid ∧ t.vtg = s.vtg
        ∧ (s.bit F.TXD_MUTE_force [i] = true → s.held i = false → (t.tx1 i).amp = (s.tx1 i).amp - 250)) := by
  refine ⟨txFrameBoundary_waits psd hgrid, fun u hu => ?_⟩
  have hturn := State.gridTurn_turned hu
  have hdriven := u.maskAmp_driven i psd
  have hsent := ((u.maskFrame i psd).ampFrame i).sendFrame_sent i
  refine ⟨_, txFrameBoundary_turns psd hgrid hu, ?_, hsent.grid.trans hdriven.grid,
      (hsent.vtg.trans hdriven.vtg).trans hturn.vtg, fun hforce hheld => ?_⟩
  · rw [hsent.mfas, hdriven.lfr1, State.lfr1, hturn.lfr, State.lfr1]
  · have hlit : s.lit i = true := by
      have := hgrid
      simp only [State.onGrid, Bool.and_eq_true] at this
      exact this.1
    have hi := i.isLt
    have hstate : u.sliceState i = s.sliceState i := hturn.rd _ _ (lineKey_slice hi) (line_ne_mark hi).1
    have hforceU : u.bit F.TXD_MUTE_force [i] = true := by
      rw [State.bit, hturn.rd _ _ (lineKey_force hi) (line_ne_mark hi).2]
      exact hforce
    have hheldU : u.held i = false := by rw [State.held, hturn.ctl]; exact hheld
    rw [hsent.amp, State.rampDown_amp hi (by rw [State.lit, hstate]; exact hlit) hforceU hheldU, State.tx1_of_tx hturn.tx]

theorem State.gridTurn_last {s : State} {i : Nat} (hplace : s.txPlace i = 4095) (hframe : s.grid.frame = 4095)
    (hall : ∀ k, k ∈ s.gridSlices → s.txPlace k = 4095) : s.gridTurn i = some s.gridFrame := by
  have hslices : (s.gridSlices.all fun k => decide (k = i ∨ s.txPlace k = s.grid.frame)) = true := by
    rw [List.all_eq_true]
    intro k hk
    simp [hall k hk, hframe]
  rw [State.gridTurn, hplace, hframe]
  rw [if_neg (by decide), if_pos ⟨rfl, hframe ▸ hslices⟩]

/-- Before its first superframe a slice's chain is silent; the limiter and the amplitude go on (R244, R248). -/
theorem txFrameBoundary_unstarted {s : State} {i : Fin 8} (psd : List (Nat × Nat)) (hlit : s.lit i = true)
    (hfirst : (s.tx1 i).first = true) : exec (.txFrameBoundary i psd) s = .next ((s.maskFrame i psd).ampFrame i) := by
  have hgrid : ¬s.onGrid i = true := by simp [State.onGrid, hfirst]
  have hexec : exec (.txFrameBoundary i psd) s = execTxFrameBoundary i psd s := rfl
  rw [hexec, execTxFrameBoundary, if_neg hgrid, if_pos hlit]

theorem State.not_lit_of_draining {s : State} {i : Nat} (h : s.sliceState i = slDraining) : s.lit i = false := by
  rw [State.lit, h]
  rfl

theorem txFrameBoundary_draining {s : State} {i : Fin 8} (psd : List (Nat × Nat)) (hdrain : s.sliceState i = slDraining) :
    exec (.txFrameBoundary i psd) s = .next (if tabGet false s.ctl.drainShort i = false
      then ((((s.maskFrame i psd).ampFrame i).txFrame i).encodeFrame i).txOutput i else s) := by
  have hlit := State.not_lit_of_draining hdrain
  have hgrid : ¬s.onGrid i = true := by simp [State.onGrid, hlit]
  have hexec : exec (.txFrameBoundary i psd) s = execTxFrameBoundary i psd s := rfl
  rw [hexec, execTxFrameBoundary, if_neg hgrid, if_neg (by simp [hlit])]
  simp only [hdrain, true_and]

/-- The fields that a frame boundary of a draining slice writes. -/
def drainFields (i : Nat) : List (Fld × List Nat) :=
  [(F.TXD_STAT_muted, [i]), (F.TXD_STAT_limiting, [i]), (F.TXD_STAT_mask_alarm, [i]), (F.LFR_STAT_rdi_tx, [i]),
      (F.CNV_STAT_dac_clip, [i])]
    ++ (List.range 64).map fun b => (F.TXD_MASK_ATT_att, [i, b])

theorem maskFields_subset {i : Nat} : ∀ p ∈ maskFields i, p ∈ drainFields i := by
  intro p hp
  rcases List.mem_append.mp hp with hp | hp
  · refine List.mem_append_left _ ?_
    simp only [List.mem_cons, List.not_mem_nil, or_false] at hp ⊢
    tauto
  · exact List.mem_append_right _ hp

theorem sentFields_subset {i : Nat} : ∀ p ∈ [(F.LFR_STAT_rdi_tx, [i]), (F.CNV_STAT_dac_clip, [i])], p ∈ drainFields i := by
  intro p hp
  refine List.mem_append_left _ ?_
  simp only [List.mem_cons, List.not_mem_nil, or_false] at hp ⊢
  tauto

theorem txFrameBoundary_drains {s : State} {i : Fin 8} (psd : List (Nat × Nat)) (hdrain : s.sliceState i = slDraining)
    (hheld : s.held i = false) (hshort : tabGet false s.ctl.drainShort i = false) :
    ∃ t, exec (.txFrameBoundary i psd) s = .next t ∧ (t.tx1 i).amp = (s.tx1 i).amp - 16
      ∧ t.rd F.TXD_STAT_muted [i] = b2n (decide ((s.tx1 i).amp ≤ 16)) ∧ t.pool = s.pool ∧ t.vtg = s.vtg
      ∧ (t.lfr1 i).txMfas = ((s.lfr1 i).txMfas + 1) % 256 ∧ t.grid = s.grid ∧ RegsExceptE s t (drainFields i) := by
  have hi := i.isLt
  have hdriven := s.maskAmp_driven i psd
  have hsent := ((s.maskFrame i psd).ampFrame i).sendFrame_sent i
  have hamp := State.drainDown_amp hi hdrain hheld psd
  rw [txFrameBoundary_draining psd hdrain, if_pos hshort]
  refine ⟨_, rfl, ?_, ?_, hsent.pool.trans hdriven.pool, hsent.vtg.trans hdriven.vtg, ?_, hsent.grid.trans hdriven.grid, ?_⟩
  · rw [hsent.amp, State.ampFrame_amp, hamp]
  · obtain ⟨hk, hE⟩ := muted_not_sent hi
    rw [hsent.regs _ _ hk hE, State.ampFrame_muted, hamp]
    simp only [Nat.sub_eq_zero_iff_le]
  · rw [hsent.mfas, hdriven.lfr1]
  · intro f is hk hE
    exact (hsent.regs.mono sentFields_subset f is hk hE).trans (hdriven.regs.mono maskFields_subset f is hk hE)

theorem rateMuteStart_mutes {s : State} {i : Fin 8} {m : Tab Nat} (hm : s.nextImg = some m)
    (hbaud : imgGet m F.TXD_MODE_CFG_baud [i] ≠ s.cur F.TXD_MODE_CFG_baud [i]) (hlit : s.lit i = true) :
    exec (.rateMuteStart i) s = .next (s.setTx i { s.tx1 i with rate := .muting }) := by
  have hexec : exec (.rateMuteStart i) s = execRateMuteStart i s := rfl
  rw [hexec, execRateMuteStart, hm]
  dsimp only
  rw [if_pos ⟨hbaud, hlit⟩]

theorem State.setTx_twice (s : State) (i : Nat) (x : Tx) : ({ s.setTx i x with tx := s.tx } : State) = s := rfl

theorem State.muteTarget_of_muting (s : State) (i : Nat) : (s.setTx i { s.tx1 i with rate := .muting }).muteTarget i = true := by
  have hrate : (s.setTx i { s.tx1 i with rate := .muting }).muteRate i = true := by
    rw [State.muteRate, State.tx1_setTx_self]
    rfl
  simp [State.muteTarget, hrate]

theorem synthRelock_moves {s : State} {i : Fin 8} {a b : RatePhase}
    (hab : (a, b) ∈ [(RatePhase.relock, RatePhase.locked), (.restartRelock, .restart)]) (ha : (s.tx1 i).rate = a) :
    exec (.synthRelock i) s = .next (s.setTx i { s.tx1 i with rate := b }) := by
  have hexec : exec (.synthRelock i) s = execSynthRelock i s := rfl
  rw [hexec, execSynthRelock]
  dsimp only
  simp only [List.mem_cons, Prod.mk.injEq, List.not_mem_nil, or_false] at hab
  obtain ⟨rfl, rfl⟩ | ⟨rfl, rfl⟩ := hab <;> rw [ha]

theorem txSuperframeBoundary_later {s : State} {i : Fin 8} (hlit : s.lit i = true) (hfirst : (s.tx1 i).first = false)
    (hplace : s.txPlace i = 4095) :
    ∃ t, exec (.txSuperframeBoundary i) s = .next t ∧ (t.lfr1 i).txMfas = 255 ∧ (t.lfr1 i).txMfi = 15
      ∧ t.rd F.LFR_TX_SFC_count [i] = (s.rd F.LFR_TX_SFC_count [i] + 1) % 2 ^ 24
      ∧ ((s.tx1 i).newStart = true → (s.tx1 i).rate = .none →
          (t.tx1 i).newStart = false ∧ (t.tx1 i).labels = [] ∧ (t.tx1 i).pos = 0 ∧ (t.lfr1 i).txPhase = 0)
      ∧ ((s.tx1 i).newStart = false → (t.lfr1 i).txPhase = ((s.lfr1 i).txPhase + 1) % 3)
      ∧ RegsExcept s t [(F.LFR_TX_SFC_count, [i])] ∧ t.vtg = s.vtg ∧ t.grid = s.grid := by
  have h := State.superframe_begins (s.wr F.LFR_TX_SFC_count (s.rd F.LFR_TX_SFC_count [i] + 1) [i]) i
  have hwr : RegsExcept s (s.wr F.LFR_TX_SFC_count (s.rd F.LFR_TX_SFC_count [i] + 1) [i]) [(F.LFR_TX_SFC_count, [i.val])] :=
    (RegsExcept.refl s _).wr (mem_keysOf List.mem_cons_self) _
  refine ⟨_, execTxSuperframeBoundary_later hlit hfirst hplace, h.mfas, h.mfi, ?_, h.new, h.old, hwr.of_regs h.regs, h.vtg, h.grid⟩
  rw [State.rd, h.regs]
  exact State.rd_wr_self s F.LFR_TX_SFC_count _ [i]

theorem txSuperframeBoundary_joins {s u : State} {i : Fin 8} (hlit : s.lit i = true) (hfirst : (s.tx1 i).first = true)
    (hu : s.gridSuperframe = some u) :
    ∃ t, exec (.txSuperframeBoundary i) s = .next t ∧ (t.lfr1 i).txMfas = 255 ∧ (t.lfr1 i).txMfi = 15
      ∧ (t.tx1 i).first = false ∧ t.regs = u.regs ∧ t.vtg = u.vtg ∧ t.grid = u.grid := by
  have h := State.superframe_begins (u.setTx i { u.tx1 i with first := false }) i
  refine ⟨_, execTxSuperframeBoundary_first hlit hfirst hu, h.mfas, h.mfi, ?_, h.regs, h.vtg, h.grid⟩
  rw [h.first, State.tx1_setTx_self]

/-- Settles O43, by the lemma of each boundary. -/
theorem transmitBoundaries : Obligations.TransmitBoundaries := by
  unfold Obligations.TransmitBoundaries
  intro s i
  have hi := i.isLt
  refine ⟨fun psd hgrid => txFrameBoundary_onGrid psd hgrid, fun _ hplace hframe hpair hmark hall => ?_,
      fun psd hlit hfirst hforce hheld => ?_,
    fun psd hdrain hheld hshort => txFrameBoundary_drains psd hdrain hheld hshort, fun psd hdrain hshort => ?_,
    fun m hm hbaud hlit => ?_, fun a b hab ha => ?_, fun hlit hfirst hplace => ?_,
    fun hlit hfirst hplace => txSuperframeBoundary_later hlit hfirst hplace, fun hlit hfirst hslices =>
        ⟨fun hframe => ?_, fun hframe => ?_⟩,
    fun hlit hfirst hslices => ?_⟩
  · exact ⟨_, State.gridTurn_last hplace hframe hall, State.gridFrame_marks hframe hpair hmark⟩
  · have h := s.maskAmp_driven i psd
    exact ⟨_, txFrameBoundary_unstarted psd hlit hfirst, State.rampDown_amp hi hlit hforce hheld psd, h.lfr, h.grid, h.pool,
        h.vtg, h.regs⟩
  · rw [txFrameBoundary_draining psd hdrain, if_neg (by simp [hshort])]
  · exact ⟨_, rateMuteStart_mutes hm hbaud hlit, by rw [State.tx1_setTx_self], s.muteTarget_of_muting i, s.setTx_twice i _⟩
  · exact ⟨_, synthRelock_moves hab ha, by rw [State.tx1_setTx_self], s.setTx_twice i _⟩
  · have hexec : exec (.txSuperframeBoundary i) s = execTxSuperframeBoundary i s := rfl
    rw [hexec, execTxSuperframeBoundary_eq, if_pos hlit, if_neg (by simp [hfirst]), if_neg hplace]
  · have hnone : s.gridSuperframe = none := by
      rw [State.gridSuperframe, if_neg hslices, if_neg (by omega)]
    have hexec : exec (.txSuperframeBoundary i) s = execTxSuperframeBoundary i s := rfl
    rw [hexec, execTxSuperframeBoundary_eq, if_pos hlit, if_pos hfirst, hnone]
  · have hsome : s.gridSuperframe = some s := by rw [State.gridSuperframe, if_neg hslices, if_pos hframe]
    exact txSuperframeBoundary_joins hlit hfirst hsome
  · obtain ⟨t, ht, hmfas, hmfi, hfirst', hregs, hvtg, hgrid⟩ := txSuperframeBoundary_joins hlit hfirst
      (State.gridSuperframe_drawn hslices)
    have hl := s.gridDrawn_lanes.line
    have hdrawn : s.gridDrawn.vtg = s.vtg := Line.vtg_of_unmarked hl
    refine ⟨t, ht, hmfas, hmfi, hfirst', ?_, hgrid, fun hframe => ?_, hvtg.trans hdrawn⟩
    · rw [State.rd, hregs]
      exact State.rd_of_unmarked hl (lineKey_count hi).1 (lineKey_count hi).2
    · have hzero : 15 - s.grid.frame / 256 = 0 := by omega
      rw [hregs, State.gridDrawn, hzero]
      rfl

end Sys2Proof.Machine
end

section
/-!
The register file at chosen keys: `State.view`, the lock of the slices (`State.lock`) and the pending words (`State.pend`); a lemma
`…_lock` or `…_pend` says that an operation keeps them.
-/

namespace Sys2Proof.Machine

/-! ### The part of the register file with given keys -/

/-- The register file at the keys that p names. -/
def State.view (p : Nat → Bool) (s : State) : Nat → Nat → Nat := fun d k => if p k then tabGet d s.regs k else 0

theorem State.wr_view {p : Nat → Bool} {f : Fld} {is : List Nat} (h : p (fldKey f is) = false) (s : State) (v : Nat) :
    (s.wr f v is).view p = s.view p := by
  funext d k
  simp only [State.view, State.wr]
  split
  · next hk => exact tabGet_put_ne _ _ _ _ (by rintro rfl; simp [h] at hk)
  · rfl

theorem State.rd_of_view {p : Nat → Bool} {s t : State} (h : t.view p = s.view p) {f : Fld} {is : List Nat}
    (hf : p (fldKey f is) = true) : t.rd f is = s.rd f is := by
  have := congrFun (congrFun h (f.reset is)) (fldKey f is)
  simpa [State.view, hf, State.rd] using this

theorem State.view_of_regs {p : Nat → Bool} {s t : State} (h : t.regs = s.regs) : t.view p = s.view p := by
  funext d k
  simp only [State.view, h]

theorem State.raise_view {p : Nat → Bool} (h : ∀ k ∈ eventKeys, p k = false) (s : State) (e d : Nat) :
    (s.raise e d).view p = s.view p := by
  funext x k
  simp only [State.view]
  split
  · next hk =>
    have hkey : fldKey (keyFld k x) [] = k := by
      change (k / 32 + 0) * 32 + k % 32 = k
      omega
    have hrd := s.raise_rd e d (keyFld k x) [] (by rw [hkey]; intro hE; simp [h k hE] at hk)
    rw [State.rd, State.rd, hkey] at hrd
    exact hrd
  · rfl

theorem forEach_view {α : Type} {p : Nat → Bool} {f : α → State → State} {l : List α}
    (h : ∀ a ∈ l, ∀ s, (f a s).view p = s.view p) (s : State) : (forEach f l s).view p = s.view p :=
  forEach_keeps_mem (State.view p) f l h s

theorem forEach_holds {α : Type} (P : State → Prop) {f : α → State → State} (l : List α) (h : ∀ a ∈ l, ∀ s, P s → P (f a s))
    {s : State} (hs : P s) : P (forEach f l s) := by
  induction l generalizing s with
  | nil => exact hs
  | cons a l ih => exact ih (fun b hb => h b (List.mem_cons_of_mem a hb)) (h a List.mem_cons_self s hs)

/-! ### The acquisition state and the count of superframes -/

/-- The keys of RXD_ACQ_STAT.state and LFR_TX_SFC. -/
def lockKey (k : Nat) : Bool :=
  decide (k % 32 = 20 ∧ 0x300000 ≤ k / 32 ∧ k / 32 < 0x400000 ∧ k / 32 % 0x20000 = 0)
    || decide (k % 32 = 0 ∧ 0x700000 ≤ k / 32 ∧ k / 32 < 0x800000 ∧ k / 32 % 0x20000 = 3)

theorem lockKey_eq_false_iff (k : Nat) : lockKey k = false ↔
    ¬(k % 32 = 20 ∧ 0x300000 ≤ k / 32 ∧ k / 32 < 0x400000 ∧ k / 32 % 0x20000 = 0)
      ∧ ¬(k % 32 = 0 ∧ 0x700000 ≤ k / 32 ∧ k / 32 < 0x800000 ∧ k / 32 % 0x20000 = 3) := by
  simp only [lockKey, Bool.or_eq_false_iff, decide_eq_false_iff_not]

/-- Fields that have no key of the lock, by their lowest bit or their address. -/
def Fld.unlock (f : Fld) : Bool := decide (f.lo < 32 ∧ f.lo ≠ 0 ∧ (f.lo ≠ 20 ∨ 0x400000 ≤ f.addr))

theorem lockKey_of_unlock {f : Fld} (h : f.unlock = true) (is : List Nat) :
    lockKey (fldKey f is) = false := by
  have ha := fldAddr_ge f is
  have hf := of_decide_eq_true h
  rw [lockKey_eq_false_iff, fldKey]
  omega

/-- The lock of every slice: its acquisition state and its count of superframes. -/
def State.lock (s : State) : Nat → Nat → Nat := s.view lockKey

theorem State.wr_lock_of {f : Fld} {is : List Nat} (h : lockKey (fldKey f is) = false) (s : State) (v : Nat) :
    (s.wr f v is).lock = s.lock := s.wr_view h v

@[simp] theorem State.wr_lock {f : Fld} (h : f.unlock = true) (s : State) (v : Nat) (is : List Nat) :
    (s.wr f v is).lock = s.lock := s.wr_view (lockKey_of_unlock h is) v

@[simp] theorem State.raise_lock (s : State) (e d : Nat) : (s.raise e d).lock = s.lock := by
  have hall : (eventKeys.all fun k => !lockKey k) = true := by decide
  exact s.raise_view (fun k hk => by simpa using List.all_eq_true.mp hall k hk) e d

theorem State.lock_of_regs {s t : State} (h : t.regs = s.regs) : t.lock = s.lock := State.view_of_regs h

theorem State.acq_of_lock {s t : State} (h : t.lock = s.lock) {i : Nat} (hi : i < 8) : t.acq i = s.acq i := by
  have e : fldKey F.RXD_ACQ_STAT_state [i] = (0x300000 + (131072 * i + 0)) * 32 + 20 := rfl
  refine State.rd_of_view h ?_
  rw [← Bool.not_eq_false, lockKey_eq_false_iff, e]
  omega

theorem State.count_of_lock {s t : State} (h : t.lock = s.lock) {i : Nat} (hi : i < 8) :
    t.rd F.LFR_TX_SFC_count [i] = s.rd F.LFR_TX_SFC_count [i] := by
  have e : fldKey F.LFR_TX_SFC_count [i] = (0x700003 + (131072 * i + 0)) * 32 + 0 := rfl
  refine State.rd_of_view h ?_
  rw [← Bool.not_eq_false, lockKey_eq_false_iff, e]
  omega

@[simp] theorem State.lock_ite (c : Prop) [Decidable c] (s t : State) : (if c then s else t).lock = if c then s.lock else t.lock :=
  apply_ite _ _ _ _

@[simp] theorem unlockFields :
    F.TIM_CAND_STAT_state.unlock = true ∧ F.TIM_SEL_STAT_state.unlock = true ∧ F.TIM_SEL_STAT_cmd.unlock = true ∧
    F.TIM_SEL_CMD_refused.unlock = true ∧ F.TIM_CAND_STAT_lost.unlock = true ∧ F.RXD_ACQ_STAT_los.unlock = true ∧
    F.RXD_ACQ_STAT_fails.unlock = true ∧ F.FEC_STAT_sync.unlock = true ∧ F.LFR_STAT_state.unlock = true ∧ F.LFR_STAT_im.unlock =
    true ∧ F.LFR_STAT_sf_ok.unlock = true ∧ F.CNV_STAT_pending.unlock = true ∧ F.FEC_POOL_STAT_scale.unlock = true ∧
    F.FEC_POOL_STAT_scaled.unlock = true ∧ F.FEC_STAT_beta.unlock = true ∧ F.FEC_GEFF_geff.unlock = true ∧ F.TXD_STAT_muted.unlock
    = true := by
  simp only [Fld.unlock]
  decide

@[simp] theorem State.cmdFails_lock (s : State) : s.cmdFails.lock = s.lock := by simp [State.cmdFails]
@[simp] theorem State.candStep_lock (s : State) (i st : Nat) : (s.candStep i st).lock = s.lock := by simp [State.candStep]
theorem State.wr_candOff_lock {i : Nat} (hi : i < 16) (s : State) (v : Nat) : (s.wr F.TIM_CAND_OFF_off v [i]).lock = s.lock := by
  have e : fldKey F.TIM_CAND_OFF_off [i] = (0x100040 + (1 * i + 0)) * 32 + 0 := rfl
  refine s.wr_lock_of ?_ v
  rw [lockKey_eq_false_iff, e]
  omega
theorem State.candLost_lock {i : Nat} (hi : i < 16) (s : State) : (s.candLost i).lock = s.lock := by
  simp [State.candLost, State.wr_candOff_lock hi]
@[simp] theorem State.syncNone_lock (s : State) (i : Nat) : (s.syncNone i).lock = s.lock :=
  (State.lock_of_regs (State.setAlign_regs ..)).trans (by simp)
@[simp] theorem State.count_lock (s : State) (i n : Nat) : (s.count i n).lock = s.lock := by rfl
@[simp] theorem State.frameOut_lock (s : State) (i : Nat) : (s.frameOut i).lock = s.lock := by
  unfold State.frameOut
  exact (State.lock_of_regs (State.setLfr_regs ..)).trans (by simp)
@[simp] theorem State.enterDsp_lock (s : State) (i st : Nat) : (s.enterDsp i st).lock = s.lock := State.lock_of_regs rfl
@[simp] theorem State.setRx_lock (s : State) (i : Nat) (x : Rx) : (s.setRx i x).lock = s.lock := State.lock_of_regs rfl
@[simp] theorem State.setConv_lock (s : State) (i : Nat) (x : Conv) : (s.setConv i x).lock = s.lock := State.lock_of_regs rfl
@[simp] theorem State.askEngine_lock (s : State) (i e : Nat) : (s.askEngine i e).lock = s.lock := by
  unfold State.askEngine
  split
  · exact State.lock_of_regs rfl
  · exact State.lock_of_regs rfl
@[simp] theorem State.askRun_lock (s : State) (i : Nat) : (s.askRun i).lock = s.lock := by simp [State.askRun]
@[simp] theorem State.runCause_lock (s : State) (i c : Nat) : (s.runCause i c).lock = s.lock := by simp [State.runCause]
@[simp] theorem State.poolRecompute_lock (s : State) : s.poolRecompute.lock = s.lock := by
  have hmarks (t : State) (l : List Nat) : (forEach (fun i t => if t.lit i then
      (t.wr F.FEC_STAT_beta (16 * t.beta i / betaDen) [i]).wr F.FEC_GEFF_geff (6 * 256 + (t.guar i - 6) * s.poolScale) [i]
    else (t.wr F.FEC_STAT_beta 0 [i]).wr F.FEC_GEFF_geff 0 [i]) l t).lock = t.lock := forEach_view (fun _ _ u => by
      change (ite _ _ _ : State).lock = u.lock
      simp) t
  simp [State.poolRecompute, hmarks]

/-- The acquisition starts again. -/
theorem State.toAcq_signal {i : Nat} (hi : i < 8) (s : State) :
    (s.toAcq i acqSignal).lock = (s.wr F.RXD_ACQ_STAT_state acqSignal [i]).lock := by
  have hcand (t : State) := t.candLost_lock (i := 4 + i) (by omega)
  unfold State.toAcq
  simp [hcand, acqSignal, acqIdle, acqCd]

theorem State.toAcq_signal_acq {i : Nat} (hi : i < 8) (s : State) : (s.toAcq i acqSignal).acq i = acqSignal := by
  rw [State.acq_of_lock (s.toAcq_signal hi) hi, State.acq, State.rd_wr_self]
  rfl

/-! ### Events stay pending -/

/-- Fields that have no key of the pending words, by their lowest bit or their address. -/
def Fld.unpend (f : Fld) : Bool := decide (f.lo < 32 ∧ (f.lo ≠ 0 ∨ 0x46 ≤ f.addr))

/-- The keys of the pending words. -/
def pendKey (k : Nat) : Bool := decide (k % 32 = 0 ∧ 0x40 ≤ k / 32 ∧ k / 32 < 0x46)

/-- The pending words. -/
def State.pend (s : State) : Nat → Nat → Nat := s.view pendKey

@[simp] theorem State.wr_pend {f : Fld} (h : f.unpend = true) (s : State) (v : Nat) (is : List Nat) :
    (s.wr f v is).pend = s.pend := by
  have ha := fldAddr_ge f is
  have hf := of_decide_eq_true h
  refine s.wr_view (decide_eq_false ?_) v
  rw [fldKey]
  omega

@[simp] theorem State.pend_ite (c : Prop) [Decidable c] (s t : State) : (if c then s else t).pend = if c then s.pend else t.pend :=
  apply_ite _ _ _ _

theorem State.pend_of_regs {s t : State} (h : t.regs = s.regs) : t.pend = s.pend := State.view_of_regs h

@[simp] theorem forEach_pend {α : Type} {f : α → State → State} (h : ∀ a s, (f a s).pend = s.pend) (l : List α) (s : State) :
    (forEach f l s).pend = s.pend := forEach_keeps State.pend f h l s

theorem State.pends_of_pend {s t : State} (h : t.pend = s.pend) (e : Fin 128) : t.pends e = s.pends e := by
  have he := e.isLt
  have ek : fldKey F.GLB_EVT_PEND_bits [(e : Nat) / 24] = (0x000040 + (1 * ((e : Nat) / 24) + 0)) * 32 + 0 := rfl
  rw [State.pends, State.rd_of_view h, State.pends]
  simp only [pendKey, ek, decide_eq_true_eq]
  omega

theorem State.pends_iff_testBit (s : State) (e : Nat) :
    s.pends e = Nat.testBit (s.rd F.GLB_EVT_PEND_bits [e / 24]) (e % 24) := by
  rw [State.pends, Nat.testBit_eq_decide_div_mod_eq]

/-- An event that is pending stays so when another is raised. -/
theorem State.raise_keeps_pends {s : State} {e : Fin 128} (h : s.pends e = true) (x d : Nat) : (s.raise x d).pends e = true := by
  have he := e.isLt
  by_cases hx : x < 128
  · have hw : (s.wr F.GLB_EVT_PEND_bits (s.rd F.GLB_EVT_PEND_bits [x / 24] ||| 2 ^ (x % 24)) [x / 24]).pends e = true := by
      rw [State.pends_iff_testBit] at h ⊢
      by_cases hn : (e : Nat) / 24 = x / 24
      · have hb : (e : Nat) % 24 < 24 := Nat.mod_lt _ (by decide)
        have hwidth : fldWidth F.GLB_EVT_PEND_bits = 24 := rfl
        rw [hn] at h ⊢
        rw [State.rd_wr_self, hwidth, Nat.testBit_mod_two_pow, Nat.testBit_or, h]
        simp [hb]
      · rw [State.rd_wr_ne]
        · exact h
        · have ek (n : Nat) : fldKey F.GLB_EVT_PEND_bits [n] = (0x000040 + (1 * n + 0)) * 32 + 0 := rfl
          rw [ek, ek]
          omega
    rw [State.pends, State.raise, State.raise_tail_rd _ _ _ _ (by omega), if_pos hx]
    exact hw
  · rw [State.pends, State.raise, State.raise_tail_rd _ _ _ _ (by omega), if_neg hx]
    exact h

end Sys2Proof.Machine
end

section
/-!
WAKING and DRAINING of slices (R34, R35, R37 to R39, R180).
-/

namespace Sys2Proof.Machine

theorem State.memWrite_regs (s : State) (cls row : Nat) (whole : Bool) : (s.memWrite cls row whole).2.regs = s.regs := by
  unfold State.memWrite
  split
  · rfl
  · split <;> rfl

theorem State.celAsk_regs (s : State) (k n : Nat) : (s.celAsk k n).regs = s.regs := by
  unfold State.celAsk
  split <;> rfl

theorem State.withCapture_pend (s : State) (c : Capture) : ({ s with capture := c } : State).pend = s.pend := State.pend_of_regs rfl

@[simp] theorem unpendFields : F.CNV_CAP_STAT_state.unpend = true ∧ F.CNV_CAP_STAT_trunc.unpend = true
    ∧ F.TIM_CAND_STAT_state.unpend = true ∧ F.TIM_SEL_STAT_state.unpend = true ∧ F.TIM_SEL_STAT_cmd.unpend = true
    ∧ F.TIM_SEL_CMD_refused.unpend = true ∧ F.TIM_CAND_STAT_lost.unpend = true ∧ F.TIM_CAND_OFF_off.unpend = true
    ∧ F.CNV_STAT_run_active.unpend = true ∧ F.CNV_STAT_restore_active.unpend = true ∧ F.CNV_RECAL_STAT_stage.unpend = true
    ∧ F.CNV_RECAL_STAT_phase.unpend = true ∧ F.FEC_STAT_sync.unpend = true ∧ F.LFR_STAT_state.unpend = true
    ∧ F.LFR_STAT_im.unpend = true ∧ F.LFR_STAT_sf_ok.unpend = true ∧ F.RXD_ACQ_STAT_state.unpend = true
    ∧ F.RXD_ACQ_STAT_los.unpend = true ∧ F.RXD_MON_value.unpend = true ∧ F.TDL_MB_TX_CMD_busy.unpend = true
    ∧ F.TDL_RX_STAT_rx.unpend = true ∧ F.TDL_PROP_STAT_held.unpend = true ∧ F.LFR_STAT_dlos.unpend = true
    ∧ F.LFR_STAT_dlob.unpend = true ∧ F.LFR_STAT_dlof.unpend = true ∧ F.LFR_STAT_dlom.unpend = true
    ∧ F.LFR_STAT_dunc.unpend = true ∧ F.LFR_STAT_ddeg.unpend = true ∧ F.LFR_STAT_dbdi.unpend = true
    ∧ F.LFR_STAT_ssf.unpend = true ∧ F.LFR_STAT_sd.unpend = true ∧ F.MAP_MEM_STAT_ok_num.unpend = true
    ∧ F.FEC_POOL_STAT_scale.unpend = true ∧ F.FEC_POOL_STAT_scaled.unpend = true ∧ F.FEC_STAT_beta.unpend = true
    ∧ F.FEC_GEFF_geff.unpend = true ∧ F.PRY_TWIN_STAT_active.unpend = true ∧ F.GLB_SLICE_STAT_state.unpend = true
    ∧ F.GLB_SLICE_STAT_wake_step.unpend = true := by
  simp only [Fld.unpend]
  decide

/-! ### What a drain keeps of the pending events -/

@[simp] theorem State.drainSegment_pend (s : State) (i : Nat) : (s.drainSegment i).pend = s.pend := by
  rw [State.drainSegment, State.pend_of_regs (State.celAsk_regs ..), State.wr_pend (by simp), State.pend_of_regs
      (State.memWrite_regs ..)]
@[simp] theorem State.calLeaveLit_pend (s : State) (i : Nat) : (s.calLeaveLit i).pend = s.pend := by
  have hidle : (s.calIdle i).pend = s.pend := by simp [State.calIdle]
  exact (State.pend_of_regs rfl).trans hidle
@[simp] theorem State.candStep_pend (s : State) (i st : Nat) : (s.candStep i st).pend = s.pend := by
  simp [State.candStep, State.cmdFails]
@[simp] theorem State.syncNone_pend (s : State) (i : Nat) : (s.syncNone i).pend = s.pend :=
  (State.pend_of_regs (State.setAlign_regs ..)).trans (by simp)
@[simp] theorem State.count_pend (s : State) (i n : Nat) : (s.count i n).pend = s.pend := by rfl
@[simp] theorem State.frameOut_pend (s : State) (i : Nat) : (s.frameOut i).pend = s.pend := by
  unfold State.frameOut
  exact (State.pend_of_regs (State.setLfr_regs ..)).trans (by simp)
@[simp] theorem State.enterDsp_pend (s : State) (i st : Nat) : (s.enterDsp i st).pend = s.pend := State.pend_of_regs rfl
@[simp] theorem State.setRx_pend (s : State) (i : Nat) (x : Rx) : (s.setRx i x).pend = s.pend := State.pend_of_regs rfl
@[simp] theorem State.setTx_pend (s : State) (i : Nat) (x : Tx) : (s.setTx i x).pend = s.pend := State.pend_of_regs rfl
@[simp] theorem State.setLfr_pend (s : State) (i : Nat) (x : Lfr) : (s.setLfr i x).pend = s.pend := State.pend_of_regs rfl
@[simp] theorem State.clearTaps_pend (s : State) (i : Nat) : (s.clearTaps i).pend = s.pend := by simp [State.clearTaps]
@[simp] theorem State.setTdl_pend (s : State) (i : Nat) (x : Tdl) : (s.setTdl i x).pend = s.pend := State.pend_of_regs rfl
@[simp] theorem State.tdlStop_pend (s : State) (i : Nat) : (s.tdlStop i).pend = s.pend := by simp [State.tdlStop]
@[simp] theorem State.noDefects_pend (s : State) (i : Nat) : (s.noDefects i).pend = s.pend := by simp [State.noDefects, forEach]
@[simp] theorem State.setMem_pend (s : State) (c i : Nat) (x : Mem) : (s.setMem c i x).pend = s.pend := by rfl
@[simp] theorem State.memsLost_pend (s : State) (i : Nat) : (s.memsLost i).pend = s.pend := by
  unfold State.memsLost
  refine forEach_pend (fun c t => ?_) _ _
  split
  · dsimp only
    split <;> simp
  · rfl
@[simp] theorem State.roleUpdate_pend (s : State) : s.roleUpdate.pend = s.pend := by simp [State.roleUpdate]

/-- The first steps of a drain: the slice's own state. -/
def State.draining (s : State) (i : Nat) (short : Bool) : State :=
  let t := (s.wr F.GLB_SLICE_STAT_state slDraining [i]).wr F.GLB_SLICE_STAT_wake_step 0 [i]
  { t with ctl := { t.ctl with drainShort := tabPut false t.ctl.drainShort i short } }

theorem State.draining_regs (s : State) (i : Nat) (short : Bool) :
    (s.draining i short).regs = ((s.wr F.GLB_SLICE_STAT_state slDraining [i]).wr F.GLB_SLICE_STAT_wake_step 0 [i]).regs := rfl

theorem State.draining_pend (s : State) (i : Nat) (short : Bool) : (s.draining i short).pend = s.pend :=
  (State.pend_of_regs (s.draining_regs i short)).trans (by simp)

theorem State.drainOne_eq (s : State) (i : Nat) (short : Bool) : s.drainOne i short =
    if s.lit i then (((s.draining i short).leaveLit i).poolRecompute).roleUpdate else (s.draining i short).calLeaveLit i := rfl

section
variable {e : Fin 128}

theorem State.endCapture_pends {s : State} (h : s.pends e = true) (i : Nat) : (s.endCapture i).pends e = true := by
  have hpend : ((s.celDrop 5).wr F.CNV_CAP_STAT_state 0 [i]).pend = s.pend :=
      (State.wr_pend (by simp) ..).trans (State.pend_of_regs rfl)
  unfold State.endCapture
  refine State.raise_keeps_pends ?_ _ _
  exact (State.pends_of_pend (State.withCapture_pend ((s.celDrop 5).wr F.CNV_CAP_STAT_state 0 [i]) Capture.idle) e).trans
    ((State.pends_of_pend hpend e).trans h)

theorem State.stopCapture_pends {s : State} (h : s.pends e = true) (i : Nat) : (s.stopCapture i).pends e = true := by
  unfold State.stopCapture
  dsimp only
  split
  · split
    · exact State.endCapture_pends h i
    · split
      · exact (State.pends_of_pend (by simp [State.withCapture_pend]) e).trans h
      · exact (State.pends_of_pend (State.withCapture_pend ..) e).trans h
  · exact h

theorem State.candLost_pends {s : State} (h : s.pends e = true) (i : Nat) : (s.candLost i).pends e = true := by
  unfold State.candLost
  split
  · exact h
  · exact State.raise_keeps_pends ((State.pends_of_pend (by simp) e).trans h) _ _

theorem State.toAcqIdle_pends {s : State} (h : s.pends e = true) (i : Nat) : (s.toAcq i acqIdle).pends e = true := by
  unfold State.toAcq
  dsimp only
  split
  · rw [if_pos rfl]
    exact State.candLost_pends ((State.pends_of_pend (by simp) e).trans h) _
  · exact (State.pends_of_pend (by simp) e).trans h

theorem State.leaveLit_pends {s : State} (h : s.pends e = true) (i : Nat) : (s.leaveLit i).pends e = true := by
  have hcal : (s.calLeaveLit i).pends e = true := (State.pends_of_pend (by simp) e).trans h
  have hacq := State.toAcqIdle_pends (State.stopCapture_pends hcal i) i
  have hend : ((((((s.calLeaveLit i).stopCapture i).toAcq i acqIdle).tdlStop i).noDefects i).memsLost i).pends e = true :=
    (State.pends_of_pend (by simp) e).trans hacq
  unfold State.leaveLit
  dsimp only
  rw [State.pends_of_pend (State.setLfr_pend ..), State.pends_of_pend (State.setTx_pend ..)]
  exact hend

theorem State.poolRecompute_pends {s : State} (h : s.pends e = true) : s.poolRecompute.pends e = true := by
  unfold State.poolRecompute
  dsimp only
  split
  · exact State.raise_keeps_pends ((State.pends_of_pend (by simp) e).trans h) _ _
  · exact (State.pends_of_pend (by simp) e).trans h

theorem State.drainOne_pends {s : State} (h : s.pends e = true) (i : Nat) (short : Bool) : (s.drainOne i short).pends e = true := by
  have hstart : (s.draining i short).pends e = true := (State.pends_of_pend (s.draining_pend i short) e).trans h
  rw [State.drainOne_eq]
  split
  · exact (State.pends_of_pend (State.roleUpdate_pend _) e).trans (State.poolRecompute_pends (State.leaveLit_pends hstart i))
  · exact (State.pends_of_pend (State.calLeaveLit_pend ..) e).trans hstart

theorem State.sourceGone_pends {s : State} (h : s.pends e = true) : s.sourceGone.pends e = true := by
  unfold State.sourceGone State.loseSource
  split
  · split
    · refine forEach_holds (fun u : State => u.pends e = true) _ (fun i _ u hu => ?_) h
      split
      · exact State.drainOne_pends hu i false
      · exact hu
    · exact h
  · exact h

end

theorem State.startDrain_pends {s : State} {e : Nat} (he : e < 128) (h : s.pends e = true) (i : Nat) (short : Bool) :
    (s.startDrain i short).pends e = true := by
  have hone : (s.drainOne i short).pends e = true := State.drainOne_pends (e := ⟨e, he⟩) h i short
  rw [State.startDrain]
  exact State.sourceGone_pends (e := ⟨e, he⟩) hone

/-! ### A slice's own keys -/

/-- Fields at different bits never share a key. -/
theorem fldKey_ne_of_lo {f g : Fld} (hf : f.lo < 32) (hg : g.lo < 32) (h : f.lo ≠ g.lo) (is js : List Nat) :
    fldKey f is ≠ fldKey g js := by
  unfold fldKey
  omega

theorem State.rd_wr_of_lo {f g : Fld} (h : (decide (f.lo < 32 ∧ g.lo < 32 ∧ f.lo ≠ g.lo)) = true) (s : State) (v : Nat)
    (is js : List Nat) :
    (s.wr g v js).rd f is = s.rd f is := by
  obtain ⟨hf, hg, hne⟩ := of_decide_eq_true h
  exact State.rd_wr_ne _ _ _ _ _ _ (fldKey_ne_of_lo hf hg hne is js)

/-- The keys of GLB_SLICE_STAT of slice i. -/
def ownKey (i k : Nat) : Bool := decide (k / 32 = 0x20 + i)

theorem ownKey_slice (i k : Nat) (hi : i < 8) (h : ownKey i k = true) : sliceKey k = true := by
  have hk : k / 32 = 0x20 + i := of_decide_eq_true h
  simp only [sliceKey, decide_eq_true_eq]
  omega

theorem State.own_of_base {s t : State} {i : Nat} (hi : i < 8) (h : t.base = s.base) : t.view (ownKey i) = s.view (ownKey i) := by
  funext d k
  simp only [State.view]
  split
  · next hk =>
    have := congrFun (congrFun (congrArg Base.slices h) d) k
    simpa [State.base, ownKey_slice i k hi hk] using this
  · rfl

theorem State.drainOne_base (s : State) (k : Nat) (short : Bool) : (s.drainOne k short).base = (s.draining k short).base := by
  rw [State.drainOne_eq]
  split
  · rw [State.roleUpdate_base, State.poolRecompute_base, State.leaveLit_base]
  · exact State.calLeaveLit_base ..

/-- A drain of another slice keeps the slice's own state. -/
theorem State.drainOne_own {s : State} {i k : Nat} (hi : i < 8) (hk : k ≠ i) (short : Bool) :
    (s.drainOne k short).view (ownKey i) = s.view (ownKey i) := by
  have e0 : fldKey F.GLB_SLICE_STAT_state [k] = (0x000020 + (1 * k + 0)) * 32 + 22 := rfl
  have e1 : fldKey F.GLB_SLICE_STAT_wake_step [k] = (0x000020 + (1 * k + 0)) * 32 + 16 := rfl
  have hstart : ((s.wr F.GLB_SLICE_STAT_state slDraining [k]).wr F.GLB_SLICE_STAT_wake_step 0 [k]).view (ownKey i) = s.view
      (ownKey i) := by
    rw [State.wr_view (decide_eq_false (by rw [e1]; omega)), State.wr_view (decide_eq_false (by rw [e0]; omega))]
  exact (State.own_of_base hi (s.drainOne_base k short)).trans ((State.view_of_regs (s.draining_regs k short)).trans hstart)

theorem State.lit_of_own {s t : State} {i : Nat} (h : t.view (ownKey i) = s.view (ownKey i)) : t.lit i = s.lit i := by
  rw [State.lit, State.sliceState, State.rd_of_view h, State.lit, State.sliceState]
  have e : fldKey F.GLB_SLICE_STAT_state [i] = (0x000020 + (1 * i + 0)) * 32 + 22 := rfl
  rw [e]
  exact decide_eq_true (by omega)

/-- The loss of the source drains LIT slices alone. -/
theorem State.sourceGone_own {s : State} {i : Nat} (hi : i < 8) (hdark : s.lit i = false) :
    s.sourceGone.view (ownKey i) = s.view (ownKey i) := by
  unfold State.sourceGone State.loseSource
  split
  · split
    · refine forEach_holds (fun u : State => u.view (ownKey i) = s.view (ownKey i)) _ (fun k _ u hu => ?_) rfl
      split
      · next hlit =>
        have hk : k ≠ i := by
          rintro rfl
          rw [State.lit_of_own hu, hdark] at hlit
          exact Bool.noConfusion hlit
        exact (State.drainOne_own hi hk false).trans hu
      · exact hu
    · rfl
  · rfl

theorem ownKey_field {i : Nat} {f : Fld} (h : f ∈ [F.GLB_SLICE_STAT_state, F.GLB_SLICE_STAT_wake_step, F.GLB_SLICE_STAT_wake_fail,
    F.GLB_SLICE_STAT_wake_pending]) : ownKey i (fldKey f [i]) = true := by
  have hkey : ∀ f ∈ [F.GLB_SLICE_STAT_state, F.GLB_SLICE_STAT_wake_step, F.GLB_SLICE_STAT_wake_fail, F.GLB_SLICE_STAT_wake_pending],
      fldKey f [i] / 32 = 0x20 + i := by
    intro f hf
    simp only [List.mem_cons, List.not_mem_nil, or_false] at hf
    obtain rfl | rfl | rfl | rfl := hf
    · have e : fldKey F.GLB_SLICE_STAT_state [i] = (0x000020 + (1 * i + 0)) * 32 + 22 := rfl
      omega
    · have e : fldKey F.GLB_SLICE_STAT_wake_step [i] = (0x000020 + (1 * i + 0)) * 32 + 16 := rfl
      omega
    · have e : fldKey F.GLB_SLICE_STAT_wake_fail [i] = (0x000020 + (1 * i + 0)) * 32 + 20 := rfl
      omega
    · have e : fldKey F.GLB_SLICE_STAT_wake_pending [i] = (0x000020 + (1 * i + 0)) * 32 + 21 := rfl
      omega
  exact decide_eq_true (hkey f h)

/-- A drain that starts in a slice puts it in DRAINING, and the loss of the source leaves it there. -/
theorem State.startDrain_own {s : State} {i : Nat} (hi : i < 8) (short : Bool) :
    (s.startDrain i short).view (ownKey i) = (s.draining i short).view (ownKey i) := by
  have hone := State.own_of_base hi (s.drainOne_base i short)
  have hdark : (s.drainOne i short).lit i = false := by
    rw [State.lit_of_own hone, State.lit, State.sliceState, State.rd, State.draining_regs]
    exact decide_eq_false (by
      rw [← State.rd, State.rd_wr_of_lo (by decide), State.rd_wr_self]
      decide)
  exact (State.sourceGone_own hi hdark).trans hone

/-- After the timeout of WAKING (R35) the slice drains, and everything after its own keys leaves them. -/
theorem State.wakeTimeout_drains {s : State} {i : Nat} (hi : i < 8) (d : Nat) :
    let t := ((s.wr F.GLB_SLICE_STAT_wake_fail 1 [i]).raise 0x0B d).startDrain i false
    t.sliceState i = slDraining ∧ t.rd F.GLB_SLICE_STAT_wake_fail [i] = 1 ∧ t.rd F.GLB_SLICE_STAT_wake_step [i] = 0
      ∧ t.pends 0x0B = true ∧ t.mode = s.mode := by
  obtain ⟨u, hu⟩ : ∃ u, u = (s.wr F.GLB_SLICE_STAT_wake_fail 1 [i]).raise 0x0B d := ⟨_, rfl⟩
  have hown : (u.startDrain i false).view (ownKey i) = (u.draining i false).view (ownKey i) := State.startDrain_own hi false
  have hrd (f : Fld) (hf : f ∈ [F.GLB_SLICE_STAT_state, F.GLB_SLICE_STAT_wake_step, F.GLB_SLICE_STAT_wake_fail,
      F.GLB_SLICE_STAT_wake_pending]) :
      (u.startDrain i false).rd f [i] = ((u.wr F.GLB_SLICE_STAT_state slDraining [i]).wr F.GLB_SLICE_STAT_wake_step 0 [i]).rd f [i] :=
    (State.rd_of_view hown (ownKey_field hf)).trans (by rw [State.rd, State.draining_regs, State.rd])
  have hfail : u.rd F.GLB_SLICE_STAT_wake_fail [i] = 1 := by
    have hbase : u.base = (s.wr F.GLB_SLICE_STAT_wake_fail 1 [i]).base := by rw [hu, State.raise_base]
    rw [State.rd_of_view (State.own_of_base hi hbase) (ownKey_field (by simp)), State.rd_wr_self]
    rfl
  have hpends : u.pends 0x0B = true := by rw [hu]; exact State.raise_pends _ _ _ (by decide)
  have hmode : u.mode = s.mode := by
    have hlow : lowKey (fldKey F.GLB_SLICE_STAT_wake_fail [i]) = false := by
      have e : fldKey F.GLB_SLICE_STAT_wake_fail [i] = (0x000020 + (1 * i + 0)) * 32 + 20 := rfl
      rw [lowKey_eq_false_iff, e]
      omega
    rw [hu]
    exact State.mode_of_rough (by rw [State.raise_base, State.wr_rough hlow])
  rw [← hu]
  refine ⟨?_, ?_, ?_, ?_, ?_⟩
  · rw [State.sliceState, hrd _ (by simp), State.rd_wr_of_lo (by decide), State.rd_wr_self]
    rfl
  · rw [hrd _ (by simp), State.rd_wr_of_lo (by decide), State.rd_wr_of_lo (by decide), hfail]
  · rw [hrd _ (by simp), State.rd_wr_self]
    rfl
  · exact State.startDrain_pends (by decide) hpends i false
  · rw [State.mode_of_rough (u.startDrain_rough i false), hmode]

/-! ### WAKING -/

theorem State.wr_noRegs (s : State) (f : Fld) (v : Nat) (is : List Nat) : (s.wr f v is).noRegs = s.noRegs := rfl

theorem State.replaceSpare_noRegs (s : State) (i : Nat) (stats : List (List CodeStats)) (a : Nat) :
    (s.replaceSpare i stats a).noRegs = s.noRegs := by
  unfold State.replaceSpare
  split
  · split
    · rfl
    · exact (State.wr_noRegs ..).trans (State.wr_noRegs ..)
  · rfl

/-- The two fields in which a spare that replaces a failed slice of an ADC shows (R180). -/
def spareFields (i : Nat) : List (Fld × List Nat) :=
  [0, 1, 2, 3].flatMap fun a => [(F.CNV_ADC_STAT_spare_used, [i, a]), (F.CNV_ADC_STAT_failed_slice, [i, a])]

theorem RegsExcept.replaceSpare {s t : State} {i a : Nat} (h : RegsExcept s t (spareFields i)) (ha : a ∈ [0, 1, 2, 3])
    (stats : List (List CodeStats)) : RegsExcept s (t.replaceSpare i stats a) (spareFields i) := by
  have hmem (f : Fld) (hf : f ∈ [F.CNV_ADC_STAT_spare_used, F.CNV_ADC_STAT_failed_slice]) : (f, [i, a]) ∈ spareFields i :=
    List.mem_flatMap.mpr ⟨a, ha, by
      simp only [List.mem_cons, List.not_mem_nil, or_false] at hf
      obtain rfl | rfl := hf <;> simp⟩
  unfold State.replaceSpare
  split
  · split
    · exact h
    · exact (h.wr (mem_keysOf (hmem _ (by simp))) _).wr (mem_keysOf (hmem _ (by simp))) _
  · exact h

/-- The spares that the converter check of a slice takes into use (R180). -/
def State.spared (s : State) (i : Nat) (stats : List (List CodeStats)) : State :=
  forEach (fun a t => t.replaceSpare i stats a) [0, 1, 2, 3] s

theorem State.spared_noRegs (s : State) (i : Nat) (stats : List (List CodeStats)) : (s.spared i stats).noRegs = s.noRegs :=
  forEach_keeps State.noRegs _ (fun a t => t.replaceSpare_noRegs i stats a) _ s

theorem State.spared_regsExcept (s : State) (i : Nat) (stats : List (List CodeStats)) :
    RegsExcept s (s.spared i stats) (spareFields i) :=
  (RegsExcept.refl s _).forEach fun _ ha _ hu => hu.replaceSpare ha stats

theorem slice_not_spare {i : Nat} (hi : i < 8) {f : Fld} (hf : f = F.GLB_SLICE_STAT_state ∨ f = F.GLB_SLICE_STAT_wake_step) :
    fldKey f [i] ∉ keysOf (spareFields i) := by
  have e0 : fldKey F.GLB_SLICE_STAT_state [i] = (0x000020 + (1 * i + 0)) * 32 + 22 := rfl
  have e1 : fldKey F.GLB_SLICE_STAT_wake_step [i] = (0x000020 + (1 * i + 0)) * 32 + 16 := rfl
  have hlow : fldKey f [i] < 0x100000 * 32 := by
    obtain rfl | rfl := hf
    · omega
    · omega
  intro hk
  obtain ⟨p, hp, he⟩ := List.mem_map.mp hk
  obtain ⟨a, -, hp⟩ := List.mem_flatMap.mp hp
  have hhigh : 0x200000 ≤ p.1.addr := by
    simp only [List.mem_cons, List.not_mem_nil, or_false] at hp
    obtain rfl | rfl := hp
    · exact Nat.le_add_right 0x200000 0x10
    · exact Nat.le_add_right 0x200000 0x10
  have ha := fldAddr_ge p.1 p.2
  rw [fldKey] at he
  omega

theorem forEach_noRegs {α : Type} {f : α → State → State} (h : ∀ a s, (f a s).noRegs = s.noRegs) (l : List α) (s : State) :
    (forEach f l s).noRegs = s.noRegs := forEach_keeps State.noRegs f h l s

theorem State.loadGeneration_noRegs (s : State) (i : Nat) (g : Gen) : (s.loadGeneration i g).noRegs = s.noRegs := by
  have htrim (u : State) (m : Tab Nat) (f : Fld) (is : List Nat) : (u.applyTrim m f is).noRegs = u.noRegs := State.wr_noRegs ..
  have hadc (u : State) (m : Tab Nat) (a p : Nat) : (u.applyAdc m i a p).noRegs = u.noRegs := by
    rw [State.applyAdc, htrim, htrim, htrim]
  have hdacs (u : State) (m : Tab Nat) : (u.loadDacs m i).noRegs = u.noRegs := by
    unfold State.loadDacs
    refine forEach_noRegs (fun d t => ?_) _ u
    rw [forEach_noRegs fun k v => htrim v ..]
    simp only [htrim]
  have hpe (u : State) : (u.peCheck i).noRegs = u.noRegs := by
    unfold State.peCheck
    split
    · exact State.wr_noRegs ..
    · rfl
  rw [State.loadGeneration, hpe, State.loadTrims, hdacs]
  exact forEach_noRegs (fun a t => forEach_noRegs (fun p u => hadc u ..) _ t) _ s

theorem State.vtg_seqs_of_noRegs {s t : State} (h : t.noRegs = s.noRegs) : t.vtg = s.vtg ∧ t.seqs = s.seqs := by
  have hvtg : t.noRegs.vtg = s.noRegs.vtg := by rw [h]
  have hseqs : t.noRegs.seqs = s.noRegs.seqs := by rw [h]
  exact ⟨hvtg, hseqs⟩

theorem State.becomeLit_base (s : State) (i : Nat) :
    (s.becomeLit i).base = ((s.wr F.GLB_SLICE_STAT_state slLit [i]).wr F.GLB_SLICE_STAT_wake_step 0 [i]).base := by
  unfold State.becomeLit
  dsimp only
  simp only [State.poolRecompute_base, State.base_ite, State.runCause_base, State.askRun_base, ite_self, State.setConv_base,
    State.acqLit_base, State.wr_base (f := F.LFR_TX_SFC_count) (by decide), State.peCheck_base, State.txCheck_base,
        State.rxCheck_base, State.setLfr_base,
    State.setTx_base]

/-- A slice that becomes LIT begins its first superframe and its acquisition. -/
theorem State.becomeLit_lock (s : State) (i : Nat) : ∃ u : State, (s.becomeLit i).lock =
    ((u.wr F.LFR_TX_SFC_count 0 [i]).acqLit i).lock := by
  unfold State.becomeLit
  dsimp only
  simp only [State.poolRecompute_lock, State.lock_ite, State.runCause_lock, State.askRun_lock, ite_self, State.setConv_lock]
  exact ⟨_, rfl⟩

/-- The end of WAKING (R35, R311). -/
theorem State.becomeLit_lit {i : Nat} (hi : i < 8) (s : State) :
    (s.becomeLit i).sliceState i = slLit ∧ (s.becomeLit i).rd F.GLB_SLICE_STAT_wake_step [i] = 0
      ∧ (s.becomeLit i).rd F.LFR_TX_SFC_count [i] = 0 ∧ (s.becomeLit i).acq i = acqSignal := by
  have hown := State.own_of_base hi (s.becomeLit_base i)
  obtain ⟨u, hlock⟩ := s.becomeLit_lock i
  refine ⟨?_, ?_, ?_, ?_⟩
  · rw [State.sliceState, State.rd_of_view hown (ownKey_field (by simp)), State.rd_wr_of_lo (by decide), State.rd_wr_self]
    rfl
  · rw [State.rd_of_view hown (ownKey_field (by simp)), State.rd_wr_self]
    rfl
  · rw [State.count_of_lock hlock hi, State.acqLit, State.count_of_lock (State.toAcq_signal hi _) hi,
      State.rd_wr_of_lo (by decide), State.rd_wr_of_lo (by decide), State.setRx_rd, State.rd_wr_self]
    rfl
  · rw [State.acq_of_lock hlock hi, State.acqLit, State.toAcq_signal_acq hi]

/-! ### The clauses -/

theorem sliceEnableHeldWake_wakes {s : State} {i : Fin 8} (hpend : s.bit F.GLB_SLICE_STAT_wake_pending [i] = true)
    (hdark : s.sliceState i = slDark) (hen : s.enabled i = true) (hmode : s.wakeMode = true) :
    exec (.sliceEnableHeldWake i) s = .next (s.startWake i) := by
  have hexec : exec (.sliceEnableHeldWake i) s = execSliceEnableHeldWake i s := rfl
  rw [hexec, execSliceEnableHeldWake, if_pos hpend, State.wakeIfEnabled, if_pos ⟨hdark, hen, hmode⟩]

theorem State.startWake_slice (s : State) (i : Nat) :
    (s.startWake i).sliceState i = slWaking ∧ (s.startWake i).rd F.GLB_SLICE_STAT_wake_step [i] = 1
      ∧ (s.startWake i).bit F.GLB_SLICE_STAT_wake_pending [i] = false ∧ (s.startWake i).noRegs = s.noRegs
      ∧ RegsExcept s (s.startWake i) [(F.GLB_SLICE_STAT_state, [i]), (F.GLB_SLICE_STAT_wake_pending, [i]),
          (F.GLB_SLICE_STAT_wake_step, [i])] := by
  unfold State.startWake
  refine ⟨?_, ?_, ?_, rfl, ?_⟩
  · rw [State.sliceState, State.rd_wr_of_lo (by decide), State.rd_wr_of_lo (by decide), State.rd_wr_self]
    rfl
  · rw [State.rd_wr_of_lo (by decide), State.rd_wr_self]
    rfl
  · rw [State.bit, State.rd_wr_self]
    rfl
  · exact (((RegsExcept.refl s _).wr (mem_keysOf (by simp)) _).wr (mem_keysOf (by simp)) _).wr (mem_keysOf (by simp)) _

theorem wakingComplete_eq (s : State) (i : Fin 8) (w : WakeStep) : exec (.wakingComplete i w) s = execWakingComplete i w s := rfl

theorem wakingComplete_ramp {s : State} {i : Fin 8} {w : WakeStep} (hw : w = .powerRamp ∨ w = .synthLock)
    (hwaking : s.sliceState i = slWaking) (hstep : s.rd F.GLB_SLICE_STAT_wake_step [i] = w.code) :
    exec (.wakingComplete i w) s = .next (s.wr F.GLB_SLICE_STAT_wake_step (w.code + 1) [i]) := by
  rw [wakingComplete_eq]
  obtain rfl | rfl := hw <;>
  · unfold execWakingComplete
    rw [if_pos ⟨hwaking, hstep⟩]

theorem wakingComplete_trim {s : State} {i : Fin 8} (hwaking : s.sliceState i = slWaking)
    (hstep : s.rd F.GLB_SLICE_STAT_wake_step [i] = 3) :
    exec (.wakingComplete i .trimLoad) s = .next ((s.loadGeneration i (s.genInUse i)).wr F.GLB_SLICE_STAT_wake_step 4 [i]) := by
  rw [wakingComplete_eq]
  unfold execWakingComplete
  rw [if_pos ⟨hwaking, hstep⟩]

theorem wakingComplete_check {s : State} {i : Fin 8} (stats : List (List CodeStats)) (hwaking : s.sliceState i = slWaking)
    (hstep : s.rd F.GLB_SLICE_STAT_wake_step [i] = 4) :
    exec (.wakingComplete i (.converterCheck stats)) s = .next (if ([0, 1, 2, 3].all fun a => s.checkPasses i stats a) = true
      then (s.spared i stats).becomeLit i else s.spared i stats) := by
  rw [wakingComplete_eq]
  unfold execWakingComplete
  rw [if_pos ⟨hwaking, hstep⟩]
  rfl

theorem wakingComplete_early {s : State} {i : Fin 8} {w : WakeStep} (hstep : s.rd F.GLB_SLICE_STAT_wake_step [i] ≠ w.code) :
    exec (.wakingComplete i w) s = .next s := by
  rw [wakingComplete_eq]
  unfold execWakingComplete
  rw [if_neg fun h => hstep h.2]

theorem State.wr_wakeStep (s : State) (i v : Nat) (hv : v < 8) :
    (s.wr F.GLB_SLICE_STAT_wake_step v [i]).rd F.GLB_SLICE_STAT_wake_step [i] = v
      ∧ (s.wr F.GLB_SLICE_STAT_wake_step v [i]).sliceState i = s.sliceState i
      ∧ RegsExcept s (s.wr F.GLB_SLICE_STAT_wake_step v [i]) [(F.GLB_SLICE_STAT_wake_step, [i])] := by
  refine ⟨?_, ?_, (RegsExcept.refl s _).wr (mem_keysOf (by simp)) _⟩
  · rw [State.rd_wr_self]
    exact Nat.mod_eq_of_lt hv
  · exact State.rd_wr_of_lo (by decide) ..

theorem State.drainDark_regs (s : State) (i : Nat) (us : Nat) :
    RegsExcept s ((((((s.wr F.GLB_SLICE_STAT_state slDark [i]).wr F.GLB_SLICE_STAT_last_drain us [i]).wr F.TDL_MB_TX_CMD_busy 0 [i]).wr
      F.TDL_RX_STAT_rx 0 [i]).wr F.TDL_PROP_STAT_held 0 [i])) [(F.GLB_SLICE_STAT_state, [i]), (F.GLB_SLICE_STAT_last_drain, [i]),
        (F.TDL_MB_TX_CMD_busy, [i]), (F.TDL_RX_STAT_rx, [i]), (F.TDL_PROP_STAT_held, [i])] :=
  (((((RegsExcept.refl s _).wr (mem_keysOf (by simp)) _).wr (mem_keysOf (by simp)) _).wr (mem_keysOf (by simp)) _).wr
    (mem_keysOf (by simp)) _).wr (mem_keysOf (by simp)) _

/-- A slice that becomes DARK, after `us` µs of draining (R37, R39). -/
def State.drainDark (s : State) (i : Nat) (us : Nat) : State :=
  let t := (s.wr F.GLB_SLICE_STAT_state slDark [i]).wr F.GLB_SLICE_STAT_last_drain us [i]
  let t := (t.setTx i Tx.fresh).setLfr i Lfr.fresh
  let t := (t.setTdl i { t.tdl1 i with sending := none }).tdlStop i
  { t with ctl := { t.ctl with drainShort := tabPut false t.ctl.drainShort i false } }

theorem drainComplete_dark {s : State} {i : Fin 8} {us : BitVec 16} (hdrain : s.sliceState i = slDraining)
    (hdone : tabGet false s.ctl.drainShort i = true ∨ s.poolHolds i = false ∧ (s.tx1 i).amp = 0) :
    exec (.drainComplete i us) s = .next (s.drainDark i us.toNat) := by
  have hexec : exec (.drainComplete i us) s = execDrainComplete i us s := rfl
  rw [hexec, execDrainComplete]
  dsimp only
  rw [if_pos ⟨hdrain, hdone⟩]
  rfl

theorem State.drainDark_sending (s : State) (i us : Nat) : ((s.drainDark i us).tdl1 i).sending = none := by
  have hstop (u : State) : ((u.tdlStop i).tdl1 i).sending = (u.tdl1 i).sending := by
    unfold State.tdlStop
    dsimp only
    have htdl (v : State) (f : Fld) (n : Nat) (is : List Nat) : (v.wr f n is).tdl1 i = v.tdl1 i := rfl
    rw [htdl, htdl, htdl, State.tdl1_setTdl_self]
  exact (hstop _).trans (congrArg Tdl.sending (State.tdl1_setTdl_self ..))

theorem State.drainDark_frame (s : State) (i us : Nat) :
    ({ s.drainDark i us with regs := s.regs, tx := s.tx, tdl := s.tdl, lfr := s.lfr, ctl := s.ctl } : State) = s := by
  unfold State.drainDark State.tdlStop State.setTdl State.setLfr State.setTx
  rfl

theorem State.drainDark_wr (s : State) (i us : Nat) : (s.drainDark i us).regs
    = (((((s.wr F.GLB_SLICE_STAT_state slDark [i]).wr F.GLB_SLICE_STAT_last_drain us [i]).wr F.TDL_MB_TX_CMD_busy 0 [i]).wr
      F.TDL_RX_STAT_rx 0 [i]).wr F.TDL_PROP_STAT_held 0 [i]).regs := rfl

theorem State.drainDark_slice (s : State) (i us : Nat) (hus : us < 65536) :
    (s.drainDark i us).sliceState i = slDark ∧ (s.drainDark i us).rd F.GLB_SLICE_STAT_last_drain [i] = us := by
  constructor
  · have e0 : fldKey F.GLB_SLICE_STAT_state [i] = (0x000020 + (1 * i + 0)) * 32 + 22 := rfl
    have e1 : fldKey F.TDL_MB_TX_CMD_busy [i] = (F.TDL_MB_TX_CMD_busy.addr + (131072 * i + 0)) * 32 + 22 := rfl
    have hne : fldKey F.GLB_SLICE_STAT_state [i] ≠ fldKey F.TDL_MB_TX_CMD_busy [i] := by
      have haddr : 0x600000 ≤ F.TDL_MB_TX_CMD_busy.addr := by decide
      rw [e0, e1]
      omega
    rw [State.sliceState, State.rd, State.drainDark_wr, ← State.rd, State.rd_wr_of_lo (by decide), State.rd_wr_of_lo (by decide),
      State.rd_wr_ne _ _ _ _ _ _ hne, State.rd_wr_of_lo (by decide), State.rd_wr_self]
    rfl
  · rw [State.rd, State.drainDark_wr, ← State.rd, State.rd_wr_of_lo (by decide), State.rd_wr_of_lo (by decide), State.rd_wr_of_lo
      (by decide),
      State.rd_wr_self]
    exact Nat.mod_eq_of_lt hus

/-- Settles O14, by the step each command takes in the tables of WAKING and DRAINING. -/
theorem sliceStates : Obligations.SliceStates := by
  unfold Obligations.SliceStates
  refine ⟨fun s i => ⟨fun hpend hdark hen hmode => ?_, fun w n hw hwaking hstep => ?_, fun hwaking hstep => ?_,
      fun bad hwaking hstep hbad => ?_,
    fun w hwaking hstep => ?_, fun us hdrain hdone => ?_⟩, fun s i hwaking => ⟨fun bad hstep hgood => ?_, ?_⟩⟩
  · obtain ⟨hstate, hstep, hpending, hno, hregs⟩ := s.startWake_slice i
    exact ⟨_, sliceEnableHeldWake_wakes hpend hdark hen hmode, hstate, hstep, hpending, hregs, hno⟩
  · have hcode : (w = .powerRamp ∨ w = .synthLock) ∧ w.code = n ∧ n < 3 := by
      simp only [List.mem_cons, Prod.mk.injEq, List.not_mem_nil, or_false] at hw
      obtain ⟨rfl, rfl⟩ | ⟨rfl, rfl⟩ := hw
      · exact ⟨.inl rfl, rfl, by decide⟩
      · exact ⟨.inr rfl, rfl, by decide⟩
    obtain ⟨hramp, rfl, hn⟩ := hcode
    obtain ⟨hval, hstate, hregs⟩ := s.wr_wakeStep i (w.code + 1) (by omega)
    exact ⟨_, wakingComplete_ramp hramp hwaking hstep, hval, hstate.trans hwaking, hregs, rfl⟩
  · obtain ⟨hval, hstate, -⟩ := (s.loadGeneration i (s.genInUse i)).wr_wakeStep i 4 (by decide)
    obtain ⟨hvtg, hseqs⟩ := State.vtg_seqs_of_noRegs (s.loadGeneration_noRegs i (s.genInUse i))
    refine ⟨_, wakingComplete_trim hwaking hstep, hval, hstate.trans ?_, (State.wr_vtg ..).trans hvtg,
      (State.wr_seqs ..).trans hseqs⟩
    rw [State.sliceState, State.rd_of_view (State.own_of_base i.isLt (s.loadGeneration_base i _)) (ownKey_field (by simp))]
    exact hwaking
  · have hframe := s.spared_regsExcept i bad
    refine ⟨s.spared i bad, ?_, (hframe _ _ (slice_not_spare i.isLt (.inr rfl))).trans hstep,
      (hframe _ _ (slice_not_spare i.isLt (.inl rfl))).trans hwaking, hframe, s.spared_noRegs i bad⟩
    rw [wakingComplete_check bad hwaking hstep, if_neg (by rw [hbad]; decide)]
  · exact wakingComplete_early hstep
  · obtain ⟨hstate, hus⟩ := s.drainDark_slice i us.toNat us.isLt
    exact ⟨_, drainComplete_dark hdrain hdone, hstate, hus, s.drainDark_sending i _,
      (s.drainDark_regs i _).of_regs (s.drainDark_wr i _), s.drainDark_frame i _⟩
  · refine ⟨_, ?_, (s.spared i bad).becomeLit_lit i.isLt⟩
    rw [wakingComplete_check bad hwaking hstep, if_pos hgood]
  · refine ⟨_, ?_, State.wakeTimeout_drains i.isLt (i.val * 2 ^ 21 + s.rd F.GLB_SLICE_STAT_wake_step [i])⟩
    have hexec : exec (.wakeTimeout i) s = execWakeTimeout i s := rfl
    rw [hexec, execWakeTimeout, if_pos hwaking]

end Sys2Proof.Machine
end

section
/-!
Resets of a slice's datapath, its holds and watchdog, stalls, the shared supervisor and gates (R52, R57, R535 to R537).
-/

namespace Sys2Proof.Machine

/-! ### The end of a lock -/

@[simp] theorem unlockPool : F.FEC_POOL_CTX_value.unlock = true ∧ F.FEC_POOL_PEAK_value.unlock = true
    ∧ F.GLB_RST_CAUSE_slice.unlock = true
    ∧ F.GLB_RST_CMD_sel.unlock = true := by
  simp only [Fld.unlock]
  decide

theorem State.discardBlocks_lock (s : State) (i : Nat) : (s.discardBlocks i).lock = s.lock := by
  have hmarks (u : State) : u.poolMarks.lock = u.lock := by simp [State.poolMarks]
  exact (hmarks _).trans (State.lock_of_regs rfl)

theorem State.discardBlocks_holds (s : State) (i : Nat) : (s.discardBlocks i).poolHolds i = false := by
  have hmarks (u : State) : u.poolMarks.pool = u.pool := congrArg Stores.pool u.poolMarks_stores
  rw [State.poolHolds, State.discardBlocks, hmarks]
  simp

theorem State.poolHolds_of_stores {s t : State} (h : t.stores = s.stores) (i : Nat) : t.poolHolds i = s.poolHolds i := by
  have hpool : t.pool = s.pool := congrArg Stores.pool h
  rw [State.poolHolds, hpool, State.poolHolds]

/-- With a source for the clock nothing goes (R44). -/
theorem State.sourceGone_of_locked {s : State} (h : s.bit F.TIM_CLK_STAT_on_fallback = false) : s.sourceGone = s := by
  have hlose : s.loseSource = s := by rw [State.loseSource, h]; rfl
  rw [State.sourceGone, hlose, ite_self]

/-- A slice's lock before it starts again: its blocks are gone and its alignment and frames start over. -/
def State.unlocked (s : State) (i : Nat) : State := ((((s.discardBlocks i).acqRestart i).sourceGone).syncNone i).frameOut i

theorem State.relockSlice_eq (s : State) (i : Nat) :
    s.relockSlice i = ((s.unlocked i).setTx i { (s.unlocked i).tx1 i with amp := 0 }).wr F.TXD_STAT_muted 1 [i] := rfl

theorem State.unlocked_holds (s : State) (i : Nat) : (s.unlocked i).poolHolds i = false := by
  rw [State.unlocked, State.poolHolds_of_stores (State.frameOut_stores ..), State.poolHolds_of_stores (State.syncNone_stores ..),
    State.poolHolds_of_stores (State.sourceGone_stores ..), State.poolHolds_of_stores (State.acqRestart_stores ..),
        State.discardBlocks_holds]

theorem State.unlocked_acq {s : State} {i : Nat} (hi : i < 8) (hclk : s.bit F.TIM_CLK_STAT_on_fallback = false)
    (hacq : s.acq i ≠ acqIdle) :
    (s.unlocked i).acq i = acqSignal := by
  have hbase : ((s.discardBlocks i).acqRestart i).base = s.base := by rw [State.acqRestart_base, State.discardBlocks_base]
  have hclk' : ((s.discardBlocks i).acqRestart i).bit F.TIM_CLK_STAT_on_fallback = false := by
    rw [State.bit, State.rd_of_base hbase (by decide)]
    exact hclk
  have hrestart : ((s.discardBlocks i).acqRestart i).acq i = acqSignal := by
    rw [State.acqRestart, if_neg (by rw [State.acq_of_lock (s.discardBlocks_lock i) hi]; exact hacq), State.toAcq_signal_acq hi]
  rw [State.unlocked, State.sourceGone_of_locked hclk', State.acq_of_lock (State.frameOut_lock ..) hi,
    State.acq_of_lock (State.syncNone_lock ..) hi, hrestart]

theorem State.frameOut_state (s : State) (i : Nat) : (s.frameOut i).rd F.LFR_STAT_state [i] = 0 := by
  unfold State.frameOut
  dsimp only
  rw [State.setLfr_rd, State.rd_wr_of_lo (by decide), State.rd_wr_of_lo (by decide), State.rd_wr_self]
  rfl

theorem State.frameOut_sync (s : State) (i : Nat) : (s.frameOut i).rd F.FEC_STAT_sync [i] = s.rd F.FEC_STAT_sync [i] := by
  have hne : fldKey F.FEC_STAT_sync [i] ≠ fldKey F.LFR_STAT_state [i] := by
    have e0 : fldKey F.FEC_STAT_sync [i] = (0x500002 + (131072 * i + 0)) * 32 + 22 := rfl
    have e1 : fldKey F.LFR_STAT_state [i] = (0x700000 + (131072 * i + 0)) * 32 + 22 := rfl
    rw [e0, e1]
    omega
  unfold State.frameOut
  dsimp only
  rw [State.setLfr_rd, State.rd_wr_of_lo (by decide), State.rd_wr_of_lo (by decide), State.rd_wr_ne _ _ _ _ _ _ hne]
  split
  · rfl
  · rfl

theorem State.unlocked_state (s : State) (i : Nat) : (s.unlocked i).rd F.LFR_STAT_state [i] = 0 := State.frameOut_state ..

theorem State.unlocked_sync (s : State) (i : Nat) : (s.unlocked i).rd F.FEC_STAT_sync [i] = 0 := by
  rw [State.unlocked, State.frameOut_sync, State.syncNone]
  exact State.rd_wr_self _ F.FEC_STAT_sync 0 [i]

/-- What a slice's lock that starts again shows (R536). -/
structure Relocked (i : Nat) (s t : State) : Prop where
  muted : t.rd F.TXD_STAT_muted [i] = 1
  amp : (t.tx1 i).amp = 0
  holds : t.poolHolds i = false
  sync : t.rd F.FEC_STAT_sync [i] = 0
  frames : t.rd F.LFR_STAT_state [i] = 0
  acq : s.bit F.TIM_CLK_STAT_on_fallback = false → s.acq i ≠ acqIdle → t.acq i = acqSignal
  rough : t.base.rough = s.base.rough

theorem State.relockSlice_relocked {i : Nat} (hi : i < 8) (s : State) : Relocked i s (s.relockSlice i) := by
  rw [State.relockSlice_eq]
  refine ⟨?_, ?_, ?_, ?_, ?_, fun hclk hacq => ?_, ?_⟩
  · rw [State.rd_wr_self]
    rfl
  · rw [State.tx1_of_tx (State.wr_tx ..), State.setTx_amp]
  · rw [State.poolHolds_of_stores (State.wr_stores ..), State.poolHolds_of_stores (State.setTx_stores ..), State.unlocked_holds]
  · rw [State.rd_wr_of_lo (by decide), State.setTx_rd, State.unlocked_sync]
  · rw [State.rd_wr_of_lo (by decide), State.setTx_rd, State.unlocked_state]
  · refine (State.acq_of_lock (State.wr_lock (f := F.TXD_STAT_muted) (by decide) _ _ _) hi).trans ?_
    rw [State.acq, State.setTx_rd, ← State.acq]
    exact State.unlocked_acq hi hclk hacq
  · rw [← State.relockSlice_eq]
    exact s.relockSlice_rough i

/-! ### Resets of a slice -/

theorem State.resetCrossing_base (s : State) (i : Nat) : (s.resetCrossing i).regs = s.regs ∧ (s.resetCrossing i).pool = s.pool :=
    ⟨rfl, rfl⟩

theorem State.resetCrossing_flushed (s : State) (i : Nat) : ((s.resetCrossing i).crossing i).flushed = true := by
  have hset (u : State) (c : Crossing) : (u.setCrossing i c).crossing i = c := tabGet_put_self ..
  unfold State.resetCrossing
  dsimp only
  rw [hset, State.flushCrossing, hset]

/-- The state in which a LIT slice's lock starts again after a reset (R535). -/
def State.resetDone (s : State) (i : Nat) : State := (s.wr F.GLB_RST_CAUSE_slice 1).resetCrossing i

theorem State.resetSlice_lit {s : State} {i : Nat} (h : s.lit i = true) : s.resetSlice i = (s.resetDone i).relockSlice i := by
  rw [State.resetSlice, if_pos h]
  rfl

theorem State.resetDone_lock (s : State) (i : Nat) : (s.resetDone i).lock = s.lock :=
  (State.lock_of_regs (State.resetCrossing_base ..).1).trans (by simp)

theorem State.resetDone_rd (s : State) (i : Nat) (f : Fld) (is : List Nat) :
    (s.resetDone i).rd f is = (s.wr F.GLB_RST_CAUSE_slice 1).rd f is := by
  rw [State.rd, State.resetDone, (State.resetCrossing_base ..).1, State.rd]

theorem State.resetDone_ctl (s : State) (i : Nat) : (s.resetDone i).ctl.sliceHold = s.ctl.sliceHold := rfl

theorem State.resetDone_flushed (s : State) (i : Nat) : ((s.resetDone i).crossing i).flushed = true :=
    State.resetCrossing_flushed ..

theorem State.ctl_of_rough {s t : State} (h : t.base.rough = s.base.rough) :
    t.ctl.crossings = s.ctl.crossings ∧ t.ctl.sliceHold = s.ctl.sliceHold := by
  have hctl := Base.ctl_of_rough h
  exact ⟨(congrArg Ctl.crossings hctl :), (congrArg Ctl.sliceHold hctl :)⟩

/-- What a reset of a LIT slice shows (R535, R536). -/
theorem State.resetSlice_shows {i : Nat} (hi : i < 8) {s : State} (hlit : s.lit i = true) :
    Relocked i (s.resetDone i) (s.resetSlice i) ∧ (s.resetSlice i).rd F.GLB_RST_CAUSE_slice = 1
      ∧ ((s.resetSlice i).crossing i).flushed = true ∧ (s.resetSlice i).ctl.sliceHold = s.ctl.sliceHold := by
  rw [State.resetSlice_lit hlit]
  have h := State.relockSlice_relocked hi (s.resetDone i)
  obtain ⟨hcross, hhold⟩ := State.ctl_of_rough h.rough
  refine ⟨h, ?_, ?_, hhold.trans (s.resetDone_ctl i)⟩
  · rw [State.rd_of_rough h.rough (by decide), State.resetDone_rd, State.rd_wr_self]
    rfl
  · rw [State.crossing, hcross]
    exact s.resetDone_flushed i

theorem State.lit_wr {s : State} {f : Fld} (h : (decide (f.lo < 32 ∧ f.lo ≠ 22)) = true) (v : Nat) (is : List Nat) (i : Nat) :
    (s.wr f v is).lit i = s.lit i := by
  have hlo := of_decide_eq_true h
  have hne : (decide (F.GLB_SLICE_STAT_state.lo < 32 ∧ f.lo < 32 ∧ F.GLB_SLICE_STAT_state.lo ≠ f.lo)) = true :=
    decide_eq_true ⟨by decide, hlo.1, fun he => hlo.2 he.symm⟩
  rw [State.lit, State.sliceState, State.rd_wr_of_lo hne, State.lit, State.sliceState]

theorem sliceResetCmd_lit {s : State} {i : Fin 8} (hlit : s.lit i = true) :
    ∃ t, exec (.sliceResetCmd i) s = .next t ∧ t.rd F.TXD_STAT_muted [i] = 1 ∧ (t.tx1 i).amp = 0
      ∧ t.rd F.GLB_RST_CAUSE_slice = 1 ∧ (t.crossing i).flushed = true ∧ t.poolHolds i = false
      ∧ t.rd F.FEC_STAT_sync [i] = 0 ∧ t.rd F.LFR_STAT_state [i] = 0
      ∧ (s.bit F.TIM_CLK_STAT_on_fallback = false → s.acq i ≠ acqIdle → t.acq i = acqSignal) := by
  have hexec : exec (.sliceResetCmd i) s = .next ((s.wr F.GLB_RST_CMD_sel i).resetSlice i) := rfl
  have hlit' : (s.wr F.GLB_RST_CMD_sel i).lit i = true := by rw [State.lit_wr (by decide)]; exact hlit
  obtain ⟨h, hcause, hflushed, -⟩ := State.resetSlice_shows i.isLt hlit'
  refine ⟨_, hexec, h.muted, h.amp, hcause, hflushed, h.holds, h.sync, h.frames, fun hclk hacq => h.acq ?_ ?_⟩
  · rw [State.bit, State.resetDone_rd, State.rd_wr_of_lo (by decide), State.rd_wr_of_lo (by decide)]
    exact hclk
  · rw [State.acq_of_lock (State.resetDone_lock ..) i.isLt, State.acq_of_lock (State.wr_lock (by simp) ..) i.isLt]
    exact hacq

theorem sliceResetCmd_dark {s : State} {i : Fin 8} (hlit : s.lit i = false) :
    exec (.sliceResetCmd i) s = .next (s.wr F.GLB_RST_CMD_sel i) := by
  have hexec : exec (.sliceResetCmd i) s = .next ((s.wr F.GLB_RST_CMD_sel i).resetSlice i) := rfl
  rw [hexec, State.resetSlice, State.lit_wr (by decide), hlit]
  rfl

/-! ### Holds and the frame-pulse watchdog -/

/-- The slice is no longer held. -/
def State.unheld (s : State) (i : Nat) : State := { s with ctl := { s.ctl with sliceHold := tabPut false s.ctl.sliceHold i false } }

theorem State.unheld_held (s : State) (i : Nat) : (s.unheld i).held i = false :=
  tabGet_put_self false s.ctl.sliceHold i false

theorem State.held_of_rough {s t : State} (h : t.base.rough = s.base.rough) (i : Nat) : t.held i = s.held i := by
  rw [State.held, (State.ctl_of_rough h).2, State.held]

theorem dpSliceHoldEnd_relocks {s : State} {i : Fin 8} (hheld : s.held i = true) (hlit : s.lit i = true) :
    exec (.dpSliceHoldEnd i) s = .next ((s.unheld i).relockSlice i) := by
  have hexec : exec (.dpSliceHoldEnd i) s = execDpSliceHoldEnd i s := rfl
  have hlit' : (s.unheld i).lit i = true := hlit
  rw [hexec, execDpSliceHoldEnd, if_pos hheld]
  exact congrArg Host.Outcome.next (if_pos hlit')

/-- The count of a slice's firings, and whether it is held. -/
def State.withFires (s : State) (i n : Nat) : State := { s with ctl := { s.ctl with sliceFires := tabPut 0 s.ctl.sliceFires i n } }

def State.heldDown (s : State) (i : Nat) : State :=
  { s with ctl := { s.ctl with sliceFires := tabPut 0 s.ctl.sliceFires i 0, sliceHold := tabPut false s.ctl.sliceHold i true } }

theorem State.heldDown_held (s : State) (i : Nat) : (s.heldDown i).held i = true ∧ tabGet 0 (s.heldDown i).ctl.sliceFires i = 0 :=
  ⟨tabGet_put_self false s.ctl.sliceHold i true, tabGet_put_self 0 s.ctl.sliceFires i 0⟩

theorem State.withFires_held (s : State) (i n : Nat) : (s.withFires i n).held i = s.held i ∧ tabGet 0
    (s.withFires i n).ctl.sliceFires i = n :=
  ⟨rfl, tabGet_put_self 0 s.ctl.sliceFires i n⟩

theorem framePulseWatchdog_third {s : State} {i : Fin 8} (hwatched : s.watched i = true)
    (hfires : tabGet 0 s.ctl.sliceFires i = 2) :
    exec (.framePulseWatchdog i true) s = .next (((s.resetSlice i).heldDown i).raise 0x09 (i.val * 2 ^ 21)) := by
  have hexec : exec (.framePulseWatchdog i true) s = execFramePulseWatchdog i true s := rfl
  rw [hexec, execFramePulseWatchdog, if_pos hwatched, if_pos rfl, hfires]
  dsimp only
  rw [if_pos (by decide)]
  rfl

theorem framePulseWatchdog_first {s : State} {i : Fin 8} (hwatched : s.watched i = true) :
    exec (.framePulseWatchdog i false) s = .next ((s.resetSlice i).withFires i 1) := by
  have hexec : exec (.framePulseWatchdog i false) s = execFramePulseWatchdog i false s := rfl
  rw [hexec, execFramePulseWatchdog, if_pos hwatched]
  simp only [Bool.false_eq_true, if_false]
  rw [if_neg (by decide)]
  rfl

theorem State.lit_of_watched {s : State} {i : Nat} (h : s.watched i = true) : s.lit i = true ∧ s.held i = false := by
  simp only [State.watched, Bool.and_eq_true, Bool.not_eq_true'] at h
  exact h.1

/-! ### Stalls, the supervisor and gates -/

/-- The keys of GLB_DP_STAT. -/
def dpKey (k : Nat) : Bool := decide (k / 32 = 0x35)

theorem State.wr_dp {f : Fld} (h : (decide (0x36 ≤ f.addr ∧ f.lo < 32)) = true) (s : State) (v : Nat) (is : List Nat) :
    (s.wr f v is).view dpKey = s.view dpKey := by
  have ha := fldAddr_ge f is
  have hf := of_decide_eq_true h
  refine s.wr_view (decide_eq_false ?_) v
  rw [fldKey]
  omega

theorem State.raise_dp (s : State) (e d : Nat) : (s.raise e d).view dpKey = s.view dpKey := by
  have hall : (eventKeys.all fun k => !dpKey k) = true := by decide
  exact s.raise_view (fun k hk => by simpa using List.all_eq_true.mp hall k hk) e d

theorem State.setCsf_dp (s : State) (c : Nat) (v : Bool) : (s.setCsf c v).view dpKey = s.view dpKey := by
  unfold State.setCsf
  split
  · rfl
  · rw [State.raise_dp, State.wr_dp (by decide)]

theorem State.measure_dp (s : State) (c : Nat) : (s.measure c).view dpKey = s.view dpKey := by
  have hmem : (forEach (fun i t => t.setMem c i { t.mem c i with dskew := false }) (List.range 8) s).view dpKey = s.view dpKey := by
    refine forEach_view (fun i _ t => ?_) s
    exact State.view_of_regs rfl
  have hcip (u : State) (x : CipCh) : (u.setCipCh c x).view dpKey = u.view dpKey := State.view_of_regs rfl
  unfold State.measure
  dsimp only
  rw [State.setCsf_dp, State.wr_dp (by decide), hcip, hmem]

theorem State.mapMeasureAll_dp (s : State) : s.mapMeasureAll.view dpKey = s.view dpKey := by
  unfold State.mapMeasureAll
  refine forEach_view (fun c _ t => ?_) s
  split
  · rfl
  · exact t.measure_dp c

theorem State.markFrame_regs (s : State) (i : Nat) : (s.markFrame i).regs = s.regs ∧
    ({ s.markFrame i with lfr := s.lfr } : State) = s := by
  unfold State.markFrame State.setLfr
  exact ⟨rfl, rfl⟩

theorem State.stallDrops_dp (s : State) (b i : Nat) : (s.stallDrops b i).view dpKey = s.view dpKey := by
  unfold State.stallDrops
  split
  · exact State.view_of_regs (s.markFrame_regs i).1
  · split
    · refine forEach_view (fun c _ t => ?_) s
      split
      · exact t.setCsf_dp c true
      · rfl
    · rfl

theorem State.addSat_rd (s : State) (f : Fld) (n max : Nat) (is : List Nat) (h : max < 2 ^ fldWidth f) :
    (s.addSat f n max is).rd f is = min max (s.rd f is + n) := by
  rw [State.addSat, State.rd_wr_self]
  exact Nat.mod_eq_of_lt (Nat.lt_of_le_of_lt (Nat.min_le_left ..) h)

/-- A stall is counted and raises its event (R535). -/
def State.stalled (s : State) (b i data : Nat) : State := ((s.stallDrops b i).addSat F.GLB_DP_STAT_stalls 1 4095).raise 0x08 data

theorem dpStall_counts {s : State} {b : Fin 16} {i : Fin 8} {stage : BitVec 8} (hlo : 2 ≤ b.val) (hhi : b.val ≤ 10) :
    ∃ data, exec (.dpStall b i stage) s = .next (s.stalled b i data) := by
  have hexec : exec (.dpStall b i stage) s = execDpStall b i stage s := rfl
  rw [hexec, execDpStall, if_pos ⟨hlo, hhi⟩]
  exact ⟨_, rfl⟩

theorem State.stalled_count (s : State) (b i data : Nat) :
    (s.stalled b i data).rd F.GLB_DP_STAT_stalls = min 4095 (s.rd F.GLB_DP_STAT_stalls + 1) := by
  rw [State.stalled, State.raise_rd _ _ _ _ _ (by decide), State.addSat_rd _ _ _ _ _ (by decide),
    State.rd_of_view (s.stallDrops_dp b i) (by decide)]

/-- A receive stage marks the window of its slice's frames. -/
theorem State.stallDrops_of_lt {s : State} {b : Nat} (h : b < 8) (i : Nat) : (s.stallDrops b i).regs = s.regs
    ∧ ({ (s.stallDrops b i) with lfr := s.lfr } : State) = s := by
  unfold State.stallDrops
  split
  · exact s.markFrame_regs i
  · rw [if_neg (by omega)]
    exact ⟨rfl, rfl⟩

theorem State.markFrame_window (s : State) (i : Nat) :
    ((s.markFrame i).lfr1 i).window = (s.lfr1 i).window.map fun e => (e.1, true) := by
  unfold State.markFrame
  exact congrArg Lfr.window (State.lfr1_setLfr_self ..)

theorem State.noEvents_but_lfr {s t : State} (h : ({ t with lfr := s.lfr } : State) = s) :
    ({ t.noEvents with lfr := s.lfr } : State) = s.noEvents := congrArg State.noEvents h

theorem State.addSat_noEvents (s : State) (f : Fld) (n max : Nat) (is : List Nat) :
    (s.addSat f n max is).noEvents = s.noEvents := rfl

theorem State.stalled_frame {s : State} {b : Nat} (h : b < 8) (i data : Nat) :
    RegsExceptE s (s.stalled b i data) [(F.GLB_DP_STAT_stalls, [])] ∧
        ({ (s.stalled b i data).noEvents with lfr := s.lfr } : State) = s.noEvents := by
  obtain ⟨hregs, hrest⟩ := State.stallDrops_of_lt (s := s) h i
  constructor
  · exact RegsExcept.raise (((RegsExcept.refl s _).of_regs hregs).wr (mem_keysOf (by simp)) _) _ _
  · rw [State.stalled, State.raise_noEvents, State.addSat_noEvents]
    exact State.noEvents_but_lfr hrest

theorem State.stalled_window {s : State} {b : Nat} (h : b = 2 ∨ b = 3 ∨ b = 5 ∨ b = 7) (i data : Nat) :
    ((s.stalled b i data).lfr1 i).window = (s.lfr1 i).window.map fun e => (e.1, true) := by
  have hdrops : s.stallDrops b i = s.markFrame i := by rw [State.stallDrops, if_pos h]
  rw [State.stalled, State.lfr1, State.raise_lfr, hdrops]
  exact s.markFrame_window i

theorem State.pends_of_regs {s t : State} (h : t.regs = s.regs) (e : Nat) : t.pends e = s.pends e := by
  rw [State.pends, State.rd, h, State.pends, State.rd]

theorem State.stalled_pends (s : State) (b i data : Nat) : (s.stalled b i data).pends 0x08 = true :=
    State.raise_pends _ _ _ (by decide)

/-- The count of the resets of the shared stages within 10 s (R537). -/
def State.withShared (s : State) (n : Nat) : State := { s with ctl := { s.ctl with sharedResets := n } }

theorem State.withShared_regs (s : State) (n : Nat) : (s.withShared n).regs = s.regs := rfl

theorem State.withShared_rd (s : State) (n : Nat) (f : Fld) (is : List Nat) : (s.withShared n).rd f is = s.rd f is := rfl

/-- The firing of the shared supervisor that is the first within 10 s (R537). -/
def State.sharedFirst (s : State) (data : Nat) : State :=
  ((s.mapMeasureAll.addSat F.GLB_DP_STAT_shared 1 255).raise 0x0A data).withShared 1

theorem sharedStageWatchdog_first {s : State} {b : Fin 16} (hshared : sharedStage b = true) (hmode : s.mode ≠ modeDormant) :
    ∃ data, exec (.sharedStageWatchdog b false) s = .next (s.sharedFirst data) := by
  have hexec : exec (.sharedStageWatchdog b false) s = execSharedStageWatchdog b false s := rfl
  rw [hexec, execSharedStageWatchdog, if_pos ⟨hshared, hmode⟩]
  exact ⟨_, rfl⟩

theorem State.sharedFirst_shows (s : State) (data : Nat) : (s.sharedFirst data).ctl.sharedResets = 1 ∧
    (s.sharedFirst data).pends 0x0A = true
    ∧ (s.sharedFirst data).rd F.GLB_DP_STAT_shared = min 255 (s.rd F.GLB_DP_STAT_shared + 1) ∧
        (s.sharedFirst data).mode = s.mode := by
  have hbase : ((s.mapMeasureAll.addSat F.GLB_DP_STAT_shared 1 255).raise 0x0A data).base = s.base := by
    rw [State.raise_base, State.addSat_base (by decide), State.mapMeasureAll_base]
  refine ⟨rfl, ?_, ?_, ?_⟩
  · rw [State.sharedFirst, State.pends_of_regs (State.withShared_regs ..)]
    exact State.raise_pends _ 0x0A _ (by decide)
  · rw [State.sharedFirst, State.withShared_rd, State.raise_rd _ _ _ _ _ (by decide), State.addSat_rd _ _ _ _ _ (by decide),
      State.rd_of_view s.mapMeasureAll_dp (by decide)]
  · rw [State.mode, State.sharedFirst, State.withShared_rd, ← State.mode]
    exact State.mode_of_rough (congrArg Base.rough hbase)

theorem State.setGate_gate (s : State) (b c : Nat) (g : Gate) : (s.setGate b g).gate c = if c = b then g else s.gate c := by
  unfold State.setGate State.gate
  split
  · next h => rw [h]; exact tabGet_put_self ..
  · next h => exact tabGet_put_ne _ _ _ _ h

/-- Settles O15, by what a reset, a stall, a firing of a watchdog and the closing of a gate each do. -/
theorem datapathFaults : Obligations.DatapathFaults := by
  unfold Obligations.DatapathFaults
  intro s
  refine ⟨fun i hlit => sliceResetCmd_lit hlit, fun i hlit => ?_, fun i hheld hlit => ?_, fun i hwatched hfires => ?_,
      fun i hwatched => ?_,
    fun i b stage hlo hhi => ?_, fun b hshared hmode => ?_, fun b busy => ?_⟩
  · refine ⟨_, sliceResetCmd_dark hlit, ?_, (RegsExcept.refl s _).wr (mem_keysOf (by simp)) _, rfl⟩
    rw [State.rd_wr_self]
    exact Nat.mod_eq_of_lt i.isLt
  · have h := State.relockSlice_relocked i.isLt (s.unheld i)
    exact ⟨_, dpSliceHoldEnd_relocks hheld hlit, h.muted, h.amp, (State.held_of_rough h.rough i).trans (s.unheld_held i),
        h.holds, h.sync⟩
  · obtain ⟨h, hcause, -, -⟩ := State.resetSlice_shows i.isLt (State.lit_of_watched hwatched).1
    obtain ⟨hheld, hcount⟩ := (s.resetSlice i).heldDown_held i
    refine ⟨_, framePulseWatchdog_third hwatched hfires, ?_, State.raise_pends _ _ _ (by decide), ?_, ?_, ?_⟩
    · rw [State.held, State.raise_ctl]
      exact hheld
    · rw [State.tx1_of_tx (State.raise_tx ..)]
      exact h.amp
    · rw [State.raise_rd _ _ _ _ _ (by decide)]
      exact hcause
    · rw [State.raise_ctl]
      exact hcount
  · obtain ⟨hlit, hheld⟩ := State.lit_of_watched hwatched
    obtain ⟨h, -, -, hhold⟩ := State.resetSlice_shows i.isLt hlit
    obtain ⟨hkeep, hcount⟩ := (s.resetSlice i).withFires_held i 1
    refine ⟨_, framePulseWatchdog_first hwatched, ?_, hcount, h.amp, h.muted⟩
    rw [hkeep, State.held, hhold]
    exact hheld
  · obtain ⟨data, hexec⟩ := dpStall_counts hlo hhi
    refine ⟨_, hexec, ?_, ?_, fun hb => ?_, fun hb => ?_⟩
    · exact s.stalled_count b i data
    · exact s.stalled_pends b i data
    · exact State.stalled_frame hb i data
    · exact State.stalled_window hb i data
  · obtain ⟨data, hexec⟩ := sharedStageWatchdog_first hshared hmode
    exact ⟨_, hexec, s.sharedFirst_shows data⟩
  · have hexec : exec (.gateCloseRequest b busy) s = execGateCloseRequest b busy s := rfl
    refine ⟨_, hexec, fun hb => ?_, fun hb => ?_, fun c hc => ?_, rfl⟩
    · rw [State.setGate_gate, if_pos rfl, hb]
      rfl
    · rw [State.setGate_gate, if_pos rfl, hb]
      rfl
    · rw [State.setGate_gate, if_neg hc]

end Sys2Proof.Machine
end

section
/-!
The steps of power-up (R40, R41, R54 to R56, R547, R549, R552, R554).
-/

namespace Sys2Proof.Machine

theorem RegsExcept.mono {s t : State} {l m : List (Fld × List Nat)} (h : RegsExcept s t l) (hl : ∀ k ∈ keysOf l, k ∈ keysOf m) :
    RegsExcept s t m := fun f is hk => h f is fun hm => hk (hl _ hm)

/-! ### What a reset keeps and clears beside the register file -/

/-- The parts of the state that the clauses on resets name. -/
structure Rest where
  seqs : Tab Seq
  queues : Tab Queue
  exec : Exec
  cask : Tab Nat
  hostMem : Tab (BitVec 32)
  otpOwner : Option (BitVec 384)
  otpSerial : Word
  pending : List Instr
  now : BitVec 64
  lastSerial : Word

def State.rest (s : State) : Rest :=
  ⟨s.seqs, s.queues, s.exec, s.cask, s.hif.hostMem, s.ctl.otpOwner, s.ctl.otpSerial, s.pending, s.tim.now, s.vtg.lastSerial⟩

theorem State.wr_rest (s : State) (f : Fld) (v : Nat) (is : List Nat) : (s.wr f v is).rest = s.rest := rfl

theorem State.carry_rest (old : State) (fs : List (Fld × List Nat)) (s : State) : (old.carry fs s).rest = s.rest :=
  forEach_keeps State.rest _ (fun _ t => t.wr_rest ..) fs s

/-- What unbooting a state writes beside its fields. -/
def State.unbootedParts (s : State) (ph : BootPhase) : State :=
  let m := imgPut [] F.SEQ_PSET_CFG_id 0
  { s with ctl := { s.ctl with boot := ph, hostClk := false }, hif := { s.hif with linkUp := false },
           vtg := { s.vtg with current := m, staged := m, rescue := m } }

/-- What unbooting a state writes of its fields. -/
def State.unbootedFields (s : State) : State :=
  (((s.wr F.GLB_MODE_boot_done 0).wr F.SEQ_PSET_ID_id 0).wr F.TIM_CLK_STAT_hostclk_good 0).wr F.TIM_CLK_STAT_on_fallback 1

theorem State.unbooted_eq (s : State) (ph : BootPhase) : s.unbooted ph = s.unbootedFields.unbootedParts ph := rfl

theorem State.unbootedParts_parts (s : State) (ph : BootPhase) : (s.unbootedParts ph).rest = s.rest ∧
    (s.unbootedParts ph).regs = s.regs
    ∧ (s.unbootedParts ph).ctl.boot = ph := ⟨rfl, rfl, rfl⟩

/-- The fields that unbooting a state writes. -/
def unbootFields : List (Fld × List Nat) :=
  [(F.GLB_MODE_boot_done, []), (F.SEQ_PSET_ID_id, []), (F.TIM_CLK_STAT_hostclk_good, []), (F.TIM_CLK_STAT_on_fallback, [])]

theorem RegsExcept.unbooted {s t : State} {l : List (Fld × List Nat)} (h : RegsExcept s t l) (hl : ∀ e ∈ unbootFields, e ∈ l)
    (ph : BootPhase) :
    RegsExcept s (t.unbooted ph) l := by
  have hboot : fldKey F.GLB_MODE_boot_done [] ∈ keysOf l := mem_keysOf (hl _ (by simp [unbootFields]))
  have hpset : fldKey F.SEQ_PSET_ID_id [] ∈ keysOf l := mem_keysOf (hl _ (by simp [unbootFields]))
  have hgood : fldKey F.TIM_CLK_STAT_hostclk_good [] ∈ keysOf l := mem_keysOf (hl _ (by simp [unbootFields]))
  have hfall : fldKey F.TIM_CLK_STAT_on_fallback [] ∈ keysOf l := mem_keysOf (hl _ (by simp [unbootFields]))
  have hfields : RegsExcept s t.unbootedFields l := (((h.wr hboot _).wr hpset _).wr hgood _).wr hfall _
  rw [State.unbooted_eq]
  exact hfields.of_regs (State.unbootedParts_parts ..).2.1

theorem RegsExcept.carry {s t : State} {l fs : List (Fld × List Nat)} (h : RegsExcept s t l) (hl : ∀ e ∈ fs, e ∈ l) (old : State) :
    RegsExcept s (old.carry fs t) l :=
  h.forEach fun e he _ hu => hu.wr (mem_keysOf (hl e he)) _

theorem State.unbooted_rest (s : State) (ph : BootPhase) : (s.unbooted ph).rest = s.rest := by
  rw [State.unbooted_eq, (State.unbootedParts_parts ..).1]
  rfl

theorem State.unbooted_rd (s : State) (ph : BootPhase) (f : Fld) (is : List Nat) :
    (s.unbooted ph).rd f is = s.unbootedFields.rd f is := by
  rw [State.rd, State.unbooted_eq, (State.unbootedParts_parts ..).2.1, State.rd]

theorem State.unbooted_boot (s : State) (ph : BootPhase) : (s.unbooted ph).ctl.boot = ph
    ∧ (s.unbooted ph).rd F.GLB_MODE_boot_done = 0 ∧ (s.unbooted ph).rd F.TIM_CLK_STAT_on_fallback = 1 := by
  refine ⟨(State.unbootedParts_parts ..).2.2, ?_, ?_⟩
  · rw [State.unbooted_rd, State.unbootedFields, State.rd_wr_ne _ _ _ _ _ _ (by decide), State.rd_wr_ne _ _ _ _ _ _ (by decide),
      State.rd_wr_ne _ _ _ _ _ _ (by decide), State.rd_wr_self]
    rfl
  · rw [State.unbooted_rd, State.unbootedFields, State.rd_wr_self]
    rfl

/-! ### Cold starts and fundamental resets -/

/-- What a cold start leaves before the fuses are read. -/
def State.coldBase (s : State) : State :=
  { State.reset with
    pending := s.pending, cask := s.cask, free := s.free, hif := { Hif.reset with hostMem := s.hif.hostMem },
    ctl := { Ctl.reset with otpSerial := s.ctl.otpSerial, otpOwner := s.ctl.otpOwner, otpRefused := s.ctl.otpRefused,
                            otpKcv := s.ctl.otpKcv },
    cip := { Cip.fresh with devKek := s.cip.devKek }, mon := { Mon.fresh with vddSent := 800 },
    cel := { Cel.fresh with hard := s.cel.hard } }

theorem State.cold_eq (s : State) (ph : BootPhase) : s.cold ph = (s.carry fuseFields s.coldBase).unbooted ph := rfl

theorem State.coldBase_parts (s : State) : s.coldBase.regs = [] ∧ s.coldBase.seqs = [] ∧ s.coldBase.queues = []
    ∧ s.coldBase.exec = Exec.reset ∧ s.coldBase.cask = s.cask ∧ s.coldBase.hif.hostMem = s.hif.hostMem
    ∧ s.coldBase.ctl.otpOwner = s.ctl.otpOwner ∧ s.coldBase.ctl.otpSerial = s.ctl.otpSerial ∧ s.coldBase.pending = s.pending :=
  ⟨rfl, rfl, rfl, rfl, rfl, rfl, rfl, rfl, rfl⟩

/-- A state whose register file is empty reads every field at its reset value. -/
theorem State.rd_of_empty {s : State} (h : s.regs = []) (f : Fld) (is : List Nat) : s.rd f is = f.reset is := by
  rw [State.rd, h]
  rfl

theorem State.cold_regs (s : State) (ph : BootPhase) : RegsExcept s.coldBase (s.cold ph) (fuseFields ++ unbootFields) := by
  rw [State.cold_eq]
  exact ((RegsExcept.refl _ _).carry (fun e he => List.mem_append_left _ he) s).unbooted (fun e he => List.mem_append_right _ he) ph

theorem State.cold_rest (s : State) (ph : BootPhase) : (s.cold ph).rest = s.coldBase.rest := by
  rw [State.cold_eq, State.unbooted_rest, State.carry_rest]

/-- A state that keeps what a cold start leaves. -/
theorem State.coldParts_of_rest {s t : State} (h : t.rest = s.coldBase.rest) : t.seqs = [] ∧ t.queues = [] ∧ t.exec = Exec.reset
    ∧ t.cask = s.cask ∧ t.hif.hostMem = s.hif.hostMem ∧ t.ctl.otpOwner = s.ctl.otpOwner ∧ t.ctl.otpSerial = s.ctl.otpSerial
    ∧ t.pending = s.pending := by
  obtain ⟨-, hseqs, hqueues, hexec, hcask, hmem, howner, hserial, hpending⟩ := s.coldBase_parts
  exact ⟨(congrArg Rest.seqs h).trans hseqs, (congrArg Rest.queues h).trans hqueues, (congrArg Rest.exec h).trans hexec,
    (congrArg Rest.cask h).trans hcask, (congrArg Rest.hostMem h).trans hmem, (congrArg Rest.otpOwner h).trans howner,
    (congrArg Rest.otpSerial h).trans hserial, (congrArg Rest.pending h).trans hpending⟩

theorem State.cold_boot (s : State) (ph : BootPhase) : (s.cold ph).ctl.boot = ph
    ∧ (s.cold ph).rd F.GLB_MODE_boot_done = 0 ∧ (s.cold ph).rd F.TIM_CLK_STAT_on_fallback = 1 := by
  rw [State.cold_eq]
  exact State.unbooted_boot ..

/-! ### The straps -/

/-- The fields that latching the straps writes. -/
def latchFields : List (Fld × List Nat) :=
  [(F.GLB_STRAP_oscdly, []), (F.TIM_CLK_STAT_oscdly, []), (F.GLB_STRAP_role, []), (F.GLB_STRAP_twin_side, []),
      (F.PRY_TWIN_STAT_side, []),
    (F.GLB_STRAP_nopcie, [])]

/-- The registers once the straps are latched. -/
def State.latchedFields (s : State) (st : Straps) : State :=
  (((((s.wr F.GLB_STRAP_oscdly st.oscdly).wr F.TIM_CLK_STAT_oscdly st.oscdly).wr F.GLB_STRAP_role st.role).wr F.GLB_STRAP_twin_side
    (b2n st.twinSide)).wr F.PRY_TWIN_STAT_side (b2n st.twinSide)).wr F.GLB_STRAP_nopcie (b2n (st.noPcie && decide (st.role = 1)))

/-- The test mode that the straps set. -/
def State.withTmode (s : State) (b : Bool) : State := { s with ctl := { s.ctl with tmode := b } }

theorem State.latch_eq (s : State) (st : Straps) : s.latch st = (s.latchedFields st).withTmode st.tmode := rfl

theorem State.withTmode_parts (s : State) (b : Bool) : (s.withTmode b).rest = s.rest ∧ (s.withTmode b).regs = s.regs
    ∧ (s.withTmode b).ctl = { s.ctl with tmode := b } ∧ ({ s.withTmode b with ctl := s.ctl } : State) = s := ⟨rfl, rfl, rfl, rfl⟩

theorem State.latch_regs_eq (s : State) (st : Straps) : (s.latch st).regs = (s.latchedFields st).regs := by
  rw [State.latch_eq, (State.withTmode_parts ..).2.1]

theorem RegsExcept.latch {s t : State} {l : List (Fld × List Nat)} (h : RegsExcept s t l) (hl : ∀ e ∈ latchFields, e ∈ l)
    (st : Straps) :
    RegsExcept s (t.latch st) l := by
  have hosc : fldKey F.GLB_STRAP_oscdly [] ∈ keysOf l := mem_keysOf (hl _ (by simp [latchFields]))
  have htim : fldKey F.TIM_CLK_STAT_oscdly [] ∈ keysOf l := mem_keysOf (hl _ (by simp [latchFields]))
  have hrole : fldKey F.GLB_STRAP_role [] ∈ keysOf l := mem_keysOf (hl _ (by simp [latchFields]))
  have htwin : fldKey F.GLB_STRAP_twin_side [] ∈ keysOf l := mem_keysOf (hl _ (by simp [latchFields]))
  have hside : fldKey F.PRY_TWIN_STAT_side [] ∈ keysOf l := mem_keysOf (hl _ (by simp [latchFields]))
  have hpcie : fldKey F.GLB_STRAP_nopcie [] ∈ keysOf l := mem_keysOf (hl _ (by simp [latchFields]))
  have hfields : RegsExcept s (t.latchedFields st) l :=
    (((((h.wr hosc _).wr htim _).wr hrole _).wr htwin _).wr hside _).wr hpcie _
  exact hfields.of_regs (t.latch_regs_eq st)

theorem State.latch_rd (s : State) (st : Straps) (f : Fld) (is : List Nat) :
    (s.latch st).rd f is = (s.latchedFields st).rd f is := by
  rw [State.rd, State.latch_regs_eq, State.rd]

theorem b2n_lt (b : Bool) : b2n b < 2 := by cases b <;> decide

/-- What the straps show once they are latched (R547). -/
theorem State.latch_straps (s : State) (st : Straps) : (s.latch st).rd F.GLB_STRAP_oscdly = st.oscdly ∧
    (s.latch st).rd F.GLB_STRAP_role = st.role
    ∧ (s.latch st).rd F.GLB_STRAP_twin_side = b2n st.twinSide
    ∧ (s.latch st).rd F.GLB_STRAP_nopcie = b2n (st.noPcie && decide (st.role = 1)) := by
  refine ⟨?_, ?_, ?_, ?_⟩
  · rw [State.latch_rd, State.latchedFields, State.rd_wr_ne _ _ _ _ _ _ (by decide), State.rd_wr_ne _ _ _ _ _ _ (by decide),
      State.rd_wr_ne _ _ _ _ _ _ (by decide), State.rd_wr_ne _ _ _ _ _ _ (by decide), State.rd_wr_ne _ _ _ _ _ _ (by decide),
          State.rd_wr_self]
    exact Nat.mod_eq_of_lt st.oscdly.isLt
  · rw [State.latch_rd, State.latchedFields, State.rd_wr_ne _ _ _ _ _ _ (by decide), State.rd_wr_ne _ _ _ _ _ _ (by decide),
      State.rd_wr_ne _ _ _ _ _ _ (by decide), State.rd_wr_self]
    exact Nat.mod_eq_of_lt st.role.isLt
  · rw [State.latch_rd, State.latchedFields, State.rd_wr_ne _ _ _ _ _ _ (by decide), State.rd_wr_ne _ _ _ _ _ _ (by decide),
      State.rd_wr_self]
    exact Nat.mod_eq_of_lt (b2n_lt _)
  · rw [State.latch_rd, State.latchedFields, State.rd_wr_self]
    exact Nat.mod_eq_of_lt (b2n_lt _)

theorem State.latch_parts (s : State) (st : Straps) : (s.latch st).rest = s.rest ∧ (s.latch st).ctl =
    { s.ctl with tmode := st.tmode } := by
  rw [State.latch_eq]
  exact ⟨(State.withTmode_parts ..).1, rfl⟩

theorem State.latch_frame (s : State) (st : Straps) (ph : BootPhase) :
    ({ (s.latch st).toBoot ph with regs := s.regs, ctl := s.ctl } : State) = s := rfl

/-- The straps are latched at t0, and the delay of the oscillator starts (R54, R547). -/
theorem State.latch_starts (s : State) (st : Straps) :
    ((s.latch st).toBoot .oscdly).ctl = { s.ctl with boot := .oscdly, tmode := st.tmode }
      ∧ (∀ f is, ((s.latch st).toBoot .oscdly).rd f is = (s.latch st).rd f is)
      ∧ RegsExcept s ((s.latch st).toBoot .oscdly) latchFields :=
  ⟨rfl, fun _ _ => rfl, ((RegsExcept.refl s _).latch (fun _ => id) st).of_regs rfl⟩

/-! ### The clauses on resets -/

/-- The fields that a cold start writes. -/
def coldFields : List (Fld × List Nat) := fuseFields ++ (((F.GLB_RST_CAUSE_cold, []) :: latchFields) ++ unbootFields)

theorem coldStart_restarts (s : State) (st : Straps) :
    ∃ t, exec (.coldStart st) s = .next t ∧ t.ctl.boot = .perst ∧ t.rd F.GLB_RST_CAUSE_cold = 1
      ∧ t.rd F.GLB_STRAP_oscdly = st.oscdly ∧ t.rd F.GLB_STRAP_role = st.role ∧ t.rd F.GLB_STRAP_twin_side = b2n st.twinSide
      ∧ t.rd F.GLB_STRAP_nopcie = b2n (st.noPcie && decide (st.role = 1)) ∧ t.ctl.tmode = st.tmode
      ∧ t.rd F.GLB_MODE_boot_done = 0 ∧ t.rd F.TIM_CLK_STAT_on_fallback = 1 ∧ t.mode = modeDormant
      ∧ t.seqs = [] ∧ t.queues = [] ∧ t.exec = Exec.reset ∧ t.cask = s.cask ∧ t.hif.hostMem = s.hif.hostMem
      ∧ t.ctl.otpOwner = s.ctl.otpOwner ∧ t.ctl.otpSerial = s.ctl.otpSerial ∧ t.pending = s.pending
      ∧ ∀ f is, fldKey f is ∉ keysOf coldFields → t.rd f is = f.reset is := by
  obtain ⟨u, hu⟩ : ∃ u, u = (s.cold .perst).wr F.GLB_RST_CAUSE_cold 1 := ⟨_, rfl⟩
  have hexec : exec (.coldStart st) s = .next (u.latch st) := by rw [hu]; rfl
  obtain ⟨hboot, hdone, hfall⟩ := s.cold_boot .perst
  obtain ⟨hosc, hrole, htwin, hpcie⟩ := u.latch_straps st
  obtain ⟨hrest, hctl⟩ := u.latch_parts st
  have hkeep : RegsExcept u (u.latch st) latchFields := (RegsExcept.refl u _).latch (fun _ => id) st
  have hparts : (u.latch st).rest = s.coldBase.rest := by rw [hrest, hu, State.wr_rest, State.cold_rest]
  obtain ⟨hseqs, hqueues, hexecs, hcask, hmem, howner, hserial, hpending⟩ := State.coldParts_of_rest hparts
  have hboot' : u.ctl.boot = .perst := by rw [hu, State.wr_ctl]; exact hboot
  have hcause : u.rd F.GLB_RST_CAUSE_cold = 1 := by rw [hu, State.rd_wr_self]; rfl
  have hframe : RegsExcept s.coldBase (u.latch st) coldFields := by
    have hcold : RegsExcept s.coldBase u coldFields := by
      rw [hu]
      exact ((s.cold_regs .perst).mono (by decide)).wr (by decide) _
    exact hcold.latch (fun e he => List.mem_append_right _ (List.mem_append_left _ (List.mem_cons_of_mem _ he))) st
  have hreset : ∀ f is, fldKey f is ∉ keysOf coldFields → (u.latch st).rd f is = f.reset is := fun f is hk =>
    (hframe f is hk).trans (State.rd_of_empty s.coldBase_parts.1 f is)
  refine ⟨_, hexec, (congrArg Ctl.boot hctl).trans hboot', (hkeep _ _ (by decide)).trans hcause, hosc, hrole, htwin, hpcie,
    congrArg Ctl.tmode hctl, (hkeep _ _ (by decide)).trans ?_, (hkeep _ _ (by decide)).trans ?_, hreset _ _ (by decide),
    hseqs, hqueues, hexecs, hcask, hmem, howner, hserial, hpending, hreset⟩
  · rw [hu, State.rd_wr_ne _ _ _ _ _ _ (by decide)]
    exact hdone
  · rw [hu, State.rd_wr_ne _ _ _ _ _ _ (by decide)]
    exact hfall

theorem vddaonLow_holds (s : State) :
    ∃ t, exec .vddaonLow s = .next t ∧ t.ctl.boot = .held ∧ t.rd F.GLB_MODE_boot_done = 0 ∧ t.mode = modeDormant
      ∧ t.rd F.TIM_CLK_STAT_on_fallback = 1 ∧ t.seqs = [] ∧ t.queues = [] ∧ t.exec = Exec.reset ∧ t.cask = s.cask
      ∧ t.hif.hostMem = s.hif.hostMem ∧ t.ctl.otpOwner = s.ctl.otpOwner ∧ t.ctl.otpSerial = s.ctl.otpSerial
      ∧ t.pending = s.pending ∧ ∀ f is, fldKey f is ∉ keysOf (fuseFields ++ unbootFields) → t.rd f is = f.reset is := by
  have hexec : exec .vddaonLow s = .next (s.cold .held) := rfl
  obtain ⟨hboot, hdone, hfall⟩ := s.cold_boot .held
  obtain ⟨hseqs, hqueues, hexecs, hcask, hmem, howner, hserial, hpending⟩ := State.coldParts_of_rest (s.cold_rest .held)
  have hreset : ∀ f is, fldKey f is ∉ keysOf (fuseFields ++ unbootFields) → (s.cold .held).rd f is = f.reset is := fun f is hk =>
    (s.cold_regs .held f is hk).trans (State.rd_of_empty s.coldBase_parts.1 f is)
  exact ⟨_, hexec, hboot, hdone, hreset _ _ (by decide), hfall, hseqs, hqueues, hexecs, hcask, hmem, howner, hserial,
      hpending, hreset⟩

/-- What a fundamental reset leaves before the always-on fields are carried over. -/
def State.fundBase (s : State) : State :=
  forEach (fun i t => t.setConv i { Conv.fresh with lastIssued := (s.conv1 i).lastIssued }) slices8 { State.reset with
    pending := s.pending, cask := s.cask, free := s.free,
    hif := { Hif.reset with hostMem := s.hif.hostMem, sent := s.hif.sent },
    ctl := { Ctl.reset with otpSerial := s.ctl.otpSerial, otpOwner := s.ctl.otpOwner, otpRefused := s.ctl.otpRefused,
                            otpKcv := s.ctl.otpKcv, tmode := s.ctl.tmode, restarts := s.ctl.restarts },
    exec := { Exec.reset with inFlight := s.exec.inFlight }, queues := tabPut Queue.empty [] 32 (s.queue 32),
    vtg := { Vintages.reset with lastSerial := s.vtg.lastSerial }, tim := { Tim.fresh with now := s.tim.now },
    cip := { Cip.fresh with devKek := s.cip.devKek }, mon := { Mon.fresh with vddSent := s.mon.vddSent },
    cel := { Cel.fresh with rows := s.cel.rows.filter (fun e => isAlwaysOnRow e.1),
                            bad := s.cel.bad.filter (fun e => isAlwaysOnRow e.1), hard := s.cel.hard } }

theorem State.fundamental_eq (s : State) : s.fundamental = (s.carry alwaysOnFields s.fundBase).unbooted .perst := rfl

theorem State.fundBase_regs (s : State) : s.fundBase.regs = [] :=
  forEach_keeps State.regs _ (fun _ _ => rfl) slices8 _

theorem State.fundBase_rest (s : State) : s.fundBase.rest = ⟨[], tabPut Queue.empty [] 32 (s.queue 32),
    { Exec.reset with inFlight := s.exec.inFlight },
    s.cask, s.hif.hostMem, s.ctl.otpOwner, s.ctl.otpSerial, s.pending, s.tim.now, s.vtg.lastSerial⟩ :=
  forEach_keeps State.rest _ (fun _ _ => rfl) slices8 _

theorem State.fundamental_rest (s : State) : s.fundamental.rest = s.fundBase.rest := by
  rw [State.fundamental_eq, State.unbooted_rest, State.carry_rest]

theorem State.fundamental_regs (s : State) : RegsExcept s.fundBase s.fundamental (alwaysOnFields ++ unbootFields) := by
  rw [State.fundamental_eq]
  exact ((RegsExcept.refl _ _).carry (fun e he => List.mem_append_left _ he) s).unbooted
      (fun e he => List.mem_append_right _ he) .perst

theorem State.queue_of_queues {s : State} {x : Queue} (h : s.queues = tabPut Queue.empty [] 32 x) :
    s.queue 32 = x ∧ ∀ q, q ≠ 32 → s.queue q = Queue.empty := by
  constructor
  · rw [State.queue, h]
    exact tabGet_put_self ..
  · intro q hq
    rw [State.queue, h]
    exact tabGet_put_ne _ _ _ _ hq

theorem perstNAssert_restarts {s : State} (hpcie : s.bit F.GLB_STRAP_nopcie = false) (hheld : s.ctl.boot ≠ .held) :
    ∃ t, exec .perstNAssert s = .next t ∧ t.ctl.boot = .perst ∧ t.rd F.GLB_RST_CAUSE_fund = 1
      ∧ t.rd F.GLB_MODE_boot_done = 0 ∧ t.rd F.TIM_CLK_STAT_on_fallback = 1 ∧ t.mode = modeDormant ∧ t.seqs = []
      ∧ t.exec.inFlight = s.exec.inFlight ∧ t.exec.store = [] ∧ t.queue 32 = s.queue 32
      ∧ (∀ q, q ≠ 32 → t.queue q = Queue.empty) ∧ t.tim.now = s.tim.now ∧ t.vtg.lastSerial = s.vtg.lastSerial
      ∧ t.cask = s.cask ∧ t.hif.hostMem = s.hif.hostMem ∧ t.ctl.otpOwner = s.ctl.otpOwner ∧ t.pending = s.pending
      ∧ ∀ f is, fldKey f is ∉ keysOf (alwaysOnFields ++ unbootFields) → t.rd f is = f.reset is := by
  obtain ⟨t, ht⟩ : ∃ t, t = s.fundamental.wr F.GLB_RST_CAUSE_fund 1 := ⟨_, rfl⟩
  have hexec : exec .perstNAssert s = .next t := by
    have hnot : ¬(s.bit F.GLB_STRAP_nopcie = true ∨ s.ctl.boot = .held) := by simp [hpcie, hheld]
    have h : exec .perstNAssert s = execPerstNAssert s := rfl
    rw [h, execPerstNAssert, if_neg hnot, ht]
  obtain ⟨hboot, hdone, hfall⟩ := (s.carry alwaysOnFields s.fundBase).unbooted_boot .perst
  rw [← State.fundamental_eq] at hboot hdone hfall
  have hrest : t.rest = s.fundBase.rest := by rw [ht, State.wr_rest, State.fundamental_rest]
  rw [State.fundBase_rest] at hrest
  have hframe : RegsExcept s.fundBase t (alwaysOnFields ++ unbootFields) := by
    rw [ht]
    exact s.fundamental_regs.wr (by decide) _
  have hreset : ∀ f is, fldKey f is ∉ keysOf (alwaysOnFields ++ unbootFields) → t.rd f is = f.reset is := fun f is hk =>
    (hframe f is hk).trans (State.rd_of_empty s.fundBase_regs f is)
  have hexecs : t.exec = { Exec.reset with inFlight := s.exec.inFlight } := congrArg Rest.exec hrest
  obtain ⟨hq32, hq⟩ := State.queue_of_queues (congrArg Rest.queues hrest)
  refine ⟨t, hexec, by rw [ht, State.wr_ctl]; exact hboot, by rw [ht, State.rd_wr_self]; rfl, ?_, ?_, hreset _ _ (by decide),
    congrArg Rest.seqs hrest, by rw [hexecs], by rw [hexecs]; rfl, hq32, hq, congrArg Rest.now hrest,
        congrArg Rest.lastSerial hrest,
    congrArg Rest.cask hrest, congrArg Rest.hostMem hrest, congrArg Rest.otpOwner hrest, congrArg Rest.pending hrest, hreset⟩
  · rw [ht, State.rd_wr_ne _ _ _ _ _ _ (by decide)]
    exact hdone
  · rw [ht, State.rd_wr_ne _ _ _ _ _ _ (by decide)]
    exact hfall

/-! ### The steps of power-up -/

theorem perstNAssert_ignored {s : State} (hpcie : s.bit F.GLB_STRAP_nopcie = true) : exec .perstNAssert s = .next s := by
  have h : exec .perstNAssert s = execPerstNAssert s := rfl
  rw [h, execPerstNAssert, if_pos (.inl hpcie)]

theorem perstNDeassert_latches {s : State} (st : Straps) (hboot : s.ctl.boot = .perst) (hpcie : s.bit F.GLB_STRAP_nopcie = false) :
    exec (.perstNDeassert st) s = .next ((s.latch st).toBoot .oscdly) := by
  have hperst : s.inPerst = true := decide_eq_true hboot
  have h : exec (.perstNDeassert st) s = execPerstNDeassert st s := rfl
  rw [h, execPerstNDeassert, if_pos ⟨hperst, hpcie⟩]

theorem upReceiverFirstLock_latches {s : State} (st : Straps) (hboot : s.ctl.boot = .perst)
    (hpcie : s.bit F.GLB_STRAP_nopcie = true) :
    exec (.upReceiverFirstLock st) s = .next ((s.latch st).toBoot .oscdly) := by
  have hperst : s.inPerst = true := decide_eq_true hboot
  have h : exec (.upReceiverFirstLock st) s = execUpReceiverFirstLock st s := rfl
  rw [h, execUpReceiverFirstLock, if_pos ⟨hperst, hpcie⟩]

theorem State.latch_oscdly (s : State) (st : Straps) : ((s.latch st).toBoot .oscdly).rd F.GLB_STRAP_oscdly = st.oscdly
    ∧ ((s.latch st).toBoot .oscdly).rd F.GLB_STRAP_role = st.role
    ∧ ((s.latch st).toBoot .oscdly).rd F.GLB_STRAP_twin_side = b2n st.twinSide
    ∧ ((s.latch st).toBoot .oscdly).rd F.GLB_STRAP_nopcie = b2n (st.noPcie && decide (st.role = 1)) := by
  obtain ⟨-, hrd, -⟩ := s.latch_starts st
  simpa only [hrd] using s.latch_straps st

theorem oscdlyExpiry_found {s : State} (hboot : s.ctl.boot = .oscdly) :
    ∃ t, exec (.oscdlyExpiry true) s = .next t ∧ t.ctl = { s.ctl with boot := .mainLoop, hostClk := true }
      ∧ t.rd F.TIM_CLK_STAT_hostclk_good = 1 ∧ t.rd F.TIM_CLK_STAT_on_fallback = 0
      ∧ RegsExcept s t [(F.TIM_CLK_STAT_hostclk_good, []), (F.TIM_CLK_STAT_on_fallback, [])]
      ∧ ({ t with regs := s.regs, ctl := s.ctl } : State) = s := by
  have hregs : RegsExcept s ((s.wr F.TIM_CLK_STAT_hostclk_good 1).wr F.TIM_CLK_STAT_on_fallback 0)
      [(F.TIM_CLK_STAT_hostclk_good, []), (F.TIM_CLK_STAT_on_fallback, [])] :=
    ((RegsExcept.refl s _).wr (by decide) _).wr (by decide) _
  have hgood : ((s.wr F.TIM_CLK_STAT_hostclk_good 1).wr F.TIM_CLK_STAT_on_fallback 0).rd F.TIM_CLK_STAT_hostclk_good = 1 := by
    rw [State.rd_wr_ne _ _ _ _ _ _ (by decide), State.rd_wr_self]
    rfl
  have hfall : ((s.wr F.TIM_CLK_STAT_hostclk_good 1).wr F.TIM_CLK_STAT_on_fallback 0).rd F.TIM_CLK_STAT_on_fallback = 0 := by
    rw [State.rd_wr_self]
    rfl
  have h : exec (.oscdlyExpiry true) s = execOscdlyExpiry true s := rfl
  rw [h, execOscdlyExpiry, if_pos hboot]
  exact ⟨_, rfl, rfl, hgood, hfall, hregs.of_regs rfl, rfl⟩

theorem oscdlyExpiry_waits {s : State} (hboot : s.ctl.boot = .oscdly) :
    ∃ t, exec (.oscdlyExpiry false) s = .next t ∧ t.ctl = { s.ctl with boot := .waitClock }
      ∧ t.rd F.TIM_CLK_STAT_hostclk_good = 0 ∧ RegsExcept s t [(F.TIM_CLK_STAT_hostclk_good, [])]
      ∧ ({ t with regs := s.regs, ctl := s.ctl } : State) = s := by
  have hregs : RegsExcept s (s.wr F.TIM_CLK_STAT_hostclk_good 0) [(F.TIM_CLK_STAT_hostclk_good, [])] :=
    (RegsExcept.refl s _).wr (by decide) _
  have hgood : (s.wr F.TIM_CLK_STAT_hostclk_good 0).rd F.TIM_CLK_STAT_hostclk_good = 0 := by
    rw [State.rd_wr_self]
    rfl
  have h : exec (.oscdlyExpiry false) s = execOscdlyExpiry false s := rfl
  rw [h, execOscdlyExpiry, if_pos hboot]
  exact ⟨_, rfl, rfl, hgood, hregs.of_regs rfl, rfl⟩

theorem mainLoopLock_goes {s : State} (hboot : s.ctl.boot = .mainLoop) :
    ∃ t, exec .mainLoopLock s = .next t ∧ t.ctl = { s.ctl with boot := .image, powerDown := false }
      ∧ t.rd F.TIM_CLK_STAT_main_lock = b2n (!s.bit F.TIM_CLK_STAT_on_fallback)
      ∧ t.hif = { s.hif with linkUp := !s.bit F.TIM_CLK_STAT_on_fallback && !s.bit F.GLB_STRAP_nopcie }
      ∧ t.mon = { s.mon with vddDue := some (vddOf []), vddTry := 0 } ∧ RegsExcept s t [(F.TIM_CLK_STAT_main_lock, [])]
      ∧ ({ t with regs := s.regs, ctl := s.ctl, hif := s.hif, mon := s.mon } : State) = s := by
  have hregs : RegsExcept s (s.wr F.TIM_CLK_STAT_main_lock
      (b2n (!s.bit F.TIM_CLK_STAT_on_fallback))) [(F.TIM_CLK_STAT_main_lock, [])] :=
    (RegsExcept.refl s _).wr (by decide) _
  have hlock : (s.wr F.TIM_CLK_STAT_main_lock (b2n (!s.bit F.TIM_CLK_STAT_on_fallback))).rd F.TIM_CLK_STAT_main_lock
      = b2n (!s.bit F.TIM_CLK_STAT_on_fallback) := by
    rw [State.rd_wr_self]
    exact Nat.mod_eq_of_lt (b2n_lt _)
  have hpcie : (s.wr F.TIM_CLK_STAT_main_lock (b2n (!s.bit F.TIM_CLK_STAT_on_fallback))).bit F.GLB_STRAP_nopcie
      = s.bit F.GLB_STRAP_nopcie := by
    rw [State.bit, State.rd_wr_ne _ _ _ _ _ _ (by decide), State.bit]
  have h : exec .mainLoopLock s = execMainLoopLock s := rfl
  rw [h, execMainLoopLock, if_pos hboot]
  refine ⟨_, rfl, rfl, hlock, ?_, rfl, hregs.of_regs rfl, rfl⟩
  rw [← hpcie]
  rfl

/-! ### The bootstrap image -/

/-- What the images of the bootstrap code are read and checked by: the cask and its status, and the owner's key. -/
structure SameImages (s t : State) : Prop where
  cask : t.cask = s.cask
  owner : t.ctl.otpOwner = s.ctl.otpOwner
  present : t.rd F.GLB_CASK_STAT_present = s.rd F.GLB_CASK_STAT_present
  size : t.rd F.GLB_CASK_STAT_size = s.rd F.GLB_CASK_STAT_size

theorem SameImages.refl (s : State) : SameImages s s := ⟨rfl, rfl, rfl, rfl⟩

theorem SameImages.wr {s t : State} (h : SameImages s t) {f : Fld} {is : List Nat}
    (hf : fldKey F.GLB_CASK_STAT_present [] ≠ fldKey f is ∧ fldKey F.GLB_CASK_STAT_size [] ≠ fldKey f is) (v : Nat) :
        SameImages s (t.wr f v is) :=
  ⟨h.cask, h.owner, (State.rd_wr_ne _ _ _ _ _ _ hf.1).trans h.present, (State.rd_wr_ne _ _ _ _ _ _ hf.2).trans h.size⟩

theorem SameImages.caskByte {s t : State} (h : SameImages s t) (a : Nat) : t.caskByte a = s.caskByte a := by
  rw [State.caskByte, h.cask, State.caskByte]

theorem SameImages.caskWord {s t : State} (h : SameImages s t) (a : Nat) : t.caskWord a = s.caskWord a := by
  rw [State.caskWord, h.caskByte, h.caskByte, h.caskByte, State.caskWord]

theorem SameImages.dirValid {s t : State} (h : SameImages s t) : t.dirValid = s.dirValid := by
  have hstarts : t.dirStarts = s.dirStarts := by simp only [State.dirStarts, h.caskWord]
  have hbytes (a n : Nat) : t.caskBytes a n = s.caskBytes a n := by simp only [State.caskBytes, h.caskByte]
  have hsize : t.caskSize = s.caskSize := by rw [State.caskSize, h.size, State.caskSize]
  simp only [State.dirValid, hstarts, hbytes, hsize, h.caskWord, h.caskByte]

theorem SameImages.bootWord {s t : State} (h : SameImages s t) (k j : Nat) : t.bootWord k j = s.bootWord k j := by
  have hstarts : t.dirStarts = s.dirStarts := by simp only [State.dirStarts, h.caskWord]
  simp only [State.bootWord, State.areaStart, h.dirValid, hstarts, h.caskWord]

theorem SameImages.bootGood {s t : State} (h : SameImages s t) (k : Nat) : t.bootGood k = s.bootGood k := by
  have hwords : t.bootWord k = s.bootWord k := funext fun j => h.bootWord k j
  have hpresent : t.bit F.GLB_CASK_STAT_present = s.bit F.GLB_CASK_STAT_present := by rw [State.bit, h.present, State.bit]
  simp only [State.bootGood, hwords, hpresent, h.owner]

/-- The status of the cask (R552). -/
def State.caskStatus (s : State) (present dtr size : Nat) : State :=
  ((s.wr F.GLB_CASK_STAT_present present).wr F.GLB_CASK_STAT_dtr dtr).wr F.GLB_CASK_STAT_size size

/-- The directory of a cask that is there is checked. -/
def State.dirChecked (s : State) : State :=
  if s.bit F.GLB_CASK_STAT_present && !s.dirValid then s.wr F.GLB_CASK_STAT_dir_bad 1 else s

/-- The cask as it is discovered. -/
def State.discovered (s : State) (present dtr size : Nat) : State := (s.caskStatus present dtr size).dirChecked.toBoot .loading

/-- The first good image is loaded (R54, R55, R553). -/
def State.imageLoaded (s : State) : State :=
  if s.bootGood 0 then (s.bootLoad 0).wr F.GLB_MODE_boot_img 0
  else if s.bootGood 1 then (s.bootLoad 1).wr F.GLB_MODE_boot_img 1
  else (s.wr F.GLB_MODE_boot_img 1).wr F.GLB_MODE_no_image 1

theorem bootstrapImageVerify_loads {s : State} (cask : Option (Bool × Fin 65)) (hboot : s.ctl.boot = .image) :
    ∃ dtr size, exec (.bootstrapImageVerify cask) s = .next (s.discovered (b2n cask.isSome) dtr size).imageLoaded := by
  have h : exec (.bootstrapImageVerify cask) s = execBootstrapImageVerify cask s := rfl
  rw [h]
  cases cask with
  | none =>
    refine ⟨0, 0, ?_⟩
    unfold execBootstrapImageVerify
    rw [if_pos hboot]
    rfl
  | some c =>
    refine ⟨b2n c.1, c.2, ?_⟩
    unfold execBootstrapImageVerify
    rw [if_pos hboot]
    rfl

/-- The fields of the cask's discovery. -/
def caskFields : List (Fld × List Nat) :=
  [(F.GLB_CASK_STAT_present, []), (F.GLB_CASK_STAT_dtr, []), (F.GLB_CASK_STAT_size, []), (F.GLB_CASK_STAT_dir_bad, [])]

theorem State.caskStatus_shows (s : State) {p : Nat} (hp : p < 2) (d z : Nat) : (s.caskStatus p d z).noRegs = s.noRegs
    ∧ (s.caskStatus p d z).rd F.GLB_CASK_STAT_present = p ∧ RegsExcept s (s.caskStatus p d z) caskFields := by
  refine ⟨rfl, ?_, (((RegsExcept.refl s _).wr (by decide) _).wr (by decide) _).wr (by decide) _⟩
  rw [State.caskStatus, State.rd_wr_ne _ _ _ _ _ _ (by decide), State.rd_wr_ne _ _ _ _ _ _ (by decide), State.rd_wr_self]
  exact Nat.mod_eq_of_lt hp

theorem State.dirChecked_shows (s : State) : s.dirChecked.noRegs = s.noRegs
    ∧ s.dirChecked.rd F.GLB_CASK_STAT_present = s.rd F.GLB_CASK_STAT_present ∧ RegsExcept s s.dirChecked caskFields := by
  unfold State.dirChecked
  split
  · exact ⟨rfl, State.rd_wr_ne _ _ _ _ _ _ (by decide), (RegsExcept.refl s _).wr (by decide) _⟩
  · exact ⟨rfl, rfl, .refl s _⟩

theorem RegsExcept.trans {s t u : State} {l : List (Fld × List Nat)} (h : RegsExcept s t l) (g : RegsExcept t u l) :
    RegsExcept s u l :=
  fun f is hk => (g f is hk).trans (h f is hk)

theorem State.parts_of_noRegs {s t : State} (h : t.noRegs = s.noRegs) :
    t.ctl = s.ctl ∧ t.exec = s.exec ∧ t.cel = s.cel ∧ t.cask = s.cask := by
  have hctl : t.noRegs.ctl = s.noRegs.ctl := by rw [h]
  have hexec : t.noRegs.exec = s.noRegs.exec := by rw [h]
  have hcel : t.noRegs.cel = s.noRegs.cel := by rw [h]
  have hcask : t.noRegs.cask = s.noRegs.cask := by rw [h]
  exact ⟨hctl, hexec, hcel, hcask⟩

/-- A state but for its registers, its control part, its executive and its cellar. -/
def State.outside (s : State) : State := { s with regs := [], ctl := Ctl.reset, exec := Exec.reset, cel := Cel.fresh }

theorem State.outside_of_noRegs {s t : State} (h : t.noRegs = s.noRegs) : t.outside = s.outside := by
  have houtside : t.noRegs.outside = s.noRegs.outside := by rw [h]
  exact houtside

theorem State.eq_of_outside {s t : State} (h : t.outside = s.outside) :
    ({ t with regs := s.regs, ctl := s.ctl, exec := s.exec, cel := s.cel } : State) = s := by
  have hback : ({ t.outside with regs := s.regs, ctl := s.ctl, exec := s.exec, cel := s.cel } : State)
      = { s.outside with regs := s.regs, ctl := s.ctl, exec := s.exec, cel := s.cel } := by rw [h]
  exact hback

/-- What the discovery of the cask shows. -/
structure Discovered (s t : State) (present : Nat) : Prop where
  ctl : t.ctl = { s.ctl with boot := .loading }
  exec : t.exec = s.exec
  outside : t.outside = s.outside
  present : t.rd F.GLB_CASK_STAT_present = present
  regs : RegsExcept s t caskFields

theorem State.toBoot_parts (s : State) (ph : BootPhase) : (s.toBoot ph).regs = s.regs ∧ (s.toBoot ph).ctl =
    { s.ctl with boot := ph }
    ∧ (s.toBoot ph).exec = s.exec ∧ (s.toBoot ph).outside = s.outside := ⟨rfl, rfl, rfl, rfl⟩

theorem State.discovered_shows (s : State) {p : Nat} (hp : p < 2) (d z : Nat) : Discovered s (s.discovered p d z) p := by
  obtain ⟨hno, hpresent, hregs⟩ := s.caskStatus_shows hp d z
  obtain ⟨hno', hpresent', hregs'⟩ := (s.caskStatus p d z).dirChecked_shows
  have hdone := hno'.trans hno
  obtain ⟨hctl, hexec, -, -⟩ := State.parts_of_noRegs hdone
  obtain ⟨hr, hc, he, ho⟩ := (s.caskStatus p d z).dirChecked.toBoot_parts .loading
  refine ⟨hc.trans (by rw [hctl]), he.trans hexec, ho.trans (State.outside_of_noRegs hdone), ?_, (hregs.trans hregs').of_regs hr⟩
  rw [State.discovered, State.rd, hr, ← State.rd, hpresent', hpresent]

/-- The fields of the boot image. -/
def imageFields : List (Fld × List Nat) := [(F.GLB_MODE_boot_img, []), (F.GLB_MODE_no_image, []), (F.SEQ_PSET_ID_id, [])]

/-- The words of image k stand in the instruction store. -/
def State.holdsImage (t : State) (k : Nat) : Prop :=
  t.rd F.GLB_MODE_boot_img = k ∧ t.rd F.SEQ_PSET_ID_id = t.bootWord k 1 % 2 ^ 24
    ∧ ∀ j, j < t.bootWord k 2 → tabGet none t.exec.store j = some (BitVec.ofNat 24 (t.bootWord k (3 + j)))

theorem tabGet_map_of_mem {α : Type} (d : α) (f : Nat → α) {l : List Nat} {j : Nat} (h : j ∈ l) :
    tabGet d (l.map fun j => (j, f j)) j = f j := by
  induction l with
  | nil => simp at h
  | cons k l ih =>
    rw [List.map_cons, tabGet]
    split
    · next hk => rw [hk]
    · next hk => exact ih ((List.mem_cons.mp h).resolve_left fun he => hk he.symm)

/-- Image k loaded, and its number. -/
def State.imageIn (s : State) (k : Nat) : State := (s.bootLoad k).wr F.GLB_MODE_boot_img k

theorem State.bootLoad_parts (s : State) (k : Nat) : (s.bootLoad k).regs = (s.wr F.SEQ_PSET_ID_id (s.bootWord k 1)).regs
    ∧ (s.bootLoad k).ctl = s.ctl ∧ (s.bootLoad k).outside = s.outside
    ∧ (s.bootLoad k).exec.store = (List.range (s.bootWord k 2)).map fun j =>
        (j, some (BitVec.ofNat 24 ((s.wr F.SEQ_PSET_ID_id (s.bootWord k 1)).bootWord k (3 + j)))) := ⟨rfl, rfl, rfl, rfl⟩

theorem State.imageIn_same (s : State) (k : Nat) : SameImages s (s.imageIn k) := by
  obtain ⟨hregs, hctl, hout, -⟩ := s.bootLoad_parts k
  have hwr : SameImages s (s.wr F.SEQ_PSET_ID_id (s.bootWord k 1)) := (SameImages.refl s).wr (by decide) _
  have hload : SameImages s (s.bootLoad k) := ⟨(congrArg State.cask hout :), by rw [hctl], by
    rw [State.rd, hregs, ← State.rd]; exact hwr.present, by rw [State.rd, hregs, ← State.rd]; exact hwr.size⟩
  exact hload.wr (by decide) _

theorem State.imageIn_shows (s : State) {k : Nat} (hk : k < 2) : (s.imageIn k).holdsImage k ∧ (s.imageIn k).ctl = s.ctl
    ∧ (s.imageIn k).outside = s.outside ∧ RegsExcept s (s.imageIn k) imageFields := by
  obtain ⟨hregs, hctl, hout, hstore⟩ := s.bootLoad_parts k
  have hsame := s.imageIn_same k
  have hwr : SameImages s (s.wr F.SEQ_PSET_ID_id (s.bootWord k 1)) := (SameImages.refl s).wr (by decide) _
  have hframe : RegsExcept s (s.bootLoad k) imageFields := ((RegsExcept.refl s imageFields).wr (by decide) _).of_regs hregs
  refine ⟨⟨?_, ?_, fun j hj => ?_⟩, hctl, hout, hframe.wr (by decide) _⟩
  · rw [State.imageIn, State.rd_wr_self]
    exact Nat.mod_eq_of_lt hk
  · rw [hsame.bootWord, State.imageIn, State.rd_wr_ne _ _ _ _ _ _ (by decide), State.rd, hregs, ← State.rd, State.rd_wr_self]
    rfl
  · rw [hsame.bootWord] at hj ⊢
    rw [State.imageIn, State.wr_exec, hstore, tabGet_map_of_mem none (fun j => some
        (BitVec.ofNat 24 ((s.wr F.SEQ_PSET_ID_id (s.bootWord k 1)).bootWord k (3 + j))))
      (List.mem_range.mpr hj),
      hwr.bootWord]

/-- No image is good. -/
def State.imageless (s : State) : State := (s.wr F.GLB_MODE_boot_img 1).wr F.GLB_MODE_no_image 1

theorem State.imageless_same (s : State) : SameImages s s.imageless := ((SameImages.refl s).wr (by decide) _).wr (by decide) _

theorem State.imageless_shows (s : State) : s.imageless.noRegs = s.noRegs ∧ s.imageless.rd F.GLB_MODE_no_image = 1
    ∧ s.imageless.rd F.GLB_MODE_boot_img = 1 ∧ s.imageless.rd F.SEQ_PSET_ID_id = s.rd F.SEQ_PSET_ID_id
        ∧ RegsExcept s s.imageless imageFields := by
  refine ⟨rfl, ?_, ?_, ?_, ((RegsExcept.refl s _).wr (by decide) _).wr (by decide) _⟩
  · rw [State.imageless, State.rd_wr_self]
    rfl
  · rw [State.imageless, State.rd_wr_ne _ _ _ _ _ _ (by decide), State.rd_wr_self]
    rfl
  · rw [State.imageless, State.rd_wr_ne _ _ _ _ _ _ (by decide), State.rd_wr_ne _ _ _ _ _ _ (by decide)]

/-- What the load of the first good image shows (R54, R55, R553). -/
structure Loaded (s t : State) : Prop where
  same : SameImages s t
  ctl : t.ctl = s.ctl
  outside : t.outside = s.outside
  regs : RegsExcept s t imageFields
  first : s.bootGood 0 = true → t.holdsImage 0
  second : s.bootGood 0 = false → s.bootGood 1 = true → t.holdsImage 1
  none : s.bootGood 0 = false → s.bootGood 1 = false → t.rd F.GLB_MODE_no_image = 1 ∧ t.rd F.GLB_MODE_boot_img = 1
    ∧ t.rd F.SEQ_PSET_ID_id = s.rd F.SEQ_PSET_ID_id ∧ t.exec = s.exec

theorem State.imageLoaded_loaded (s : State) : Loaded s s.imageLoaded := by
  by_cases h0 : s.bootGood 0 = true
  · have heq : s.imageLoaded = s.imageIn 0 := if_pos h0
    obtain ⟨hholds, hctl, hout, hregs⟩ := s.imageIn_shows (k := 0) (by decide)
    rw [heq]
    exact ⟨s.imageIn_same 0, hctl, hout, hregs, fun _ => hholds, fun h => by simp [h0] at h, fun h => by simp [h0] at h⟩
  · by_cases h1 : s.bootGood 1 = true
    · have heq : s.imageLoaded = s.imageIn 1 := (if_neg h0).trans (if_pos h1)
      obtain ⟨hholds, hctl, hout, hregs⟩ := s.imageIn_shows (k := 1) (by decide)
      rw [heq]
      exact ⟨s.imageIn_same 1, hctl, hout, hregs, fun h => absurd h h0, fun _ _ => hholds, fun _ h => by simp [h1] at h⟩
    · have heq : s.imageLoaded = s.imageless := (if_neg h0).trans (if_neg h1)
      obtain ⟨hno, hnone, himg, hpset, hregs⟩ := s.imageless_shows
      obtain ⟨hctl, hexec, -, -⟩ := State.parts_of_noRegs hno
      rw [heq]
      exact ⟨s.imageless_same, hctl, State.outside_of_noRegs hno, hregs, fun h => absurd h h0, fun _ h => absurd h h1,
        fun _ _ => ⟨hnone, himg, hpset, hexec⟩⟩

/-- The clause on the verification of the bootstrap image. -/
theorem bootstrapImageVerify_shows {s : State} (cask : Option (Bool × Fin 65)) (hboot : s.ctl.boot = .image) :
    ∃ u t, Discovered s u (b2n cask.isSome) ∧ Loaded u t ∧ exec (.bootstrapImageVerify cask) s = .next t := by
  obtain ⟨d, z, hexec⟩ := bootstrapImageVerify_loads cask hboot
  exact ⟨_, _, s.discovered_shows (b2n_lt _) d z, State.imageLoaded_loaded _, hexec⟩

/-! ### The end of power-up -/

/-- RESCUE is CURRENT, STAGED and itself (R55). -/
def State.rescued (s : State) (m : Tab Nat) : State := { s with vtg := { s.vtg with rescue := m, current := m, staged := m } }

/-- Calibration and ageing are loaded, and the blocks take CURRENT. -/
def State.blocksLoaded (s : State) : State :=
  ((forEach (fun i t => t.loadRecords i) slices8 s).loadAgeing).switchBlocks [] .current (fun _ => false) fun _ => none

/-- The UP port of a worker without PCIe is in P-QUIET. -/
def State.upQuiet (s : State) : State := if s.upClocked then s.wr F.PRY_PORT_STAT_pwr 1 [1] else s

def State.poweredDown (s : State) : State := ({ s with ctl := { s.ctl with powerDown := true } } : State).toBoot .done

theorem powerUpComplete_loads {s : State} (rescue : Option (List (Addr × Word))) (hboot : s.ctl.boot = .loading) :
    ∃ r, (s.bit F.GLB_CASK_STAT_present = false → r = none) ∧ exec (.powerUpComplete rescue) s = .next
      ((((((s.wr F.GLB_CASK_STAT_rescue_rom (b2n r.isNone)).rescued ((s.wr F.GLB_CASK_STAT_rescue_rom
          (b2n r.isNone)).rescueImage r)).blocksLoaded).wr
        F.GLB_MODE_boot_done 1).wr F.TIM_CLK_STAT_main_lock 0).upQuiet.poweredDown) := by
  have h : exec (.powerUpComplete rescue) s = execPowerUpComplete rescue s := rfl
  refine ⟨if s.bit F.GLB_CASK_STAT_present then rescue else none, fun hp => by rw [hp]; rfl, ?_⟩
  rw [h]
  unfold execPowerUpComplete
  rw [if_pos hboot]
  unfold State.upQuiet State.poweredDown State.blocksLoaded State.rescued
  rfl

theorem State.blocksLoaded_rough (s : State) : s.blocksLoaded.base.rough = s.base.rough := by
  have hrecords : (forEach (fun i t => t.loadRecords i) slices8 s).base = s.base :=
      forEach_base (fun i t => t.loadRecords_base i) _ s
  rw [State.blocksLoaded, State.switchBlocks_rough, State.loadAgeing_base, hrecords]

theorem State.cask_of_part {s t : State} (h : t.stores.get .cask = s.stores.get .cask) : t.cask = s.cask := h

theorem State.blocksLoaded_cask (s : State) : s.blocksLoaded.cask = s.cask := by
  have hrecords : (forEach (fun i t => t.loadRecords i) slices8 s).stores = s.stores :=
      forEach_stores (fun i t => t.loadRecords_stores i) _ s
  have hswitch (u : State) : (u.switchBlocks [] .current (fun _ => false) fun _ => none).cask = u.cask :=
    State.cask_of_part (State.switchBlocks_part (p := .cask) nofun nofun u [] .current (fun _ => false) fun _ => none)
  rw [State.blocksLoaded, hswitch]
  exact State.cask_of_part (by rw [State.loadAgeing_stores, hrecords])

theorem State.rescued_parts (s : State) (m : Tab Nat) : (s.rescued m).regs = s.regs ∧ (s.rescued m).cask = s.cask
    ∧ (s.rescued m).pending = s.pending ∧ (s.rescued m).vtg.rescue = m ∧ (s.rescued m).vtg.current = m ∧
        (s.rescued m).vtg.staged = m :=
  ⟨rfl, rfl, rfl, rfl, rfl, rfl⟩

theorem State.upQuiet_noRegs (s : State) : s.upQuiet.noRegs = s.noRegs := by
  unfold State.upQuiet
  split <;> rfl

theorem State.upQuiet_rd (s : State) {f : Fld} (h : fldKey f [] ≠ fldKey F.PRY_PORT_STAT_pwr [1]) : s.upQuiet.rd f = s.rd f := by
  unfold State.upQuiet
  split
  · exact State.rd_wr_ne _ _ _ _ _ _ h
  · rfl

theorem State.poweredDown_parts (s : State) : s.poweredDown.regs = s.regs ∧ s.poweredDown.cask = s.cask
    ∧ s.poweredDown.pending = s.pending
    ∧ s.poweredDown.vtg = s.vtg ∧ s.poweredDown.ctl.boot = .done ∧ s.poweredDown.ctl.powerDown = true :=
        ⟨rfl, rfl, rfl, rfl, rfl, rfl⟩

theorem State.imagePending_of_noRegs {s t : State} (h : t.noRegs = s.noRegs) :
    t.pending = s.pending ∧ t.cask = s.cask ∧ t.vtg = s.vtg := by
  have hpending : t.noRegs.pending = s.noRegs.pending := by rw [h]
  have hcask : t.noRegs.cask = s.noRegs.cask := by rw [h]
  have hvtg : t.noRegs.vtg = s.noRegs.vtg := by rw [h]
  exact ⟨hpending, hcask, hvtg⟩

/-- The images of the vintages and what is still to come are in the base. -/
theorem State.images_of_rough {s t : State} (h : t.base.rough = s.base.rough) :
    t.vtg.current = s.vtg.current ∧ t.vtg.staged = s.vtg.staged
    ∧ t.vtg.rescue = s.vtg.rescue ∧ t.pending = s.pending := by
  have hvtg : ({ t.vtg with loading := none } : Vintages) = { s.vtg with loading := none } := congrArg Base.vtg h
  exact ⟨(congrArg Vintages.current hvtg :), (congrArg Vintages.staged hvtg :), (congrArg Vintages.rescue hvtg :),
      congrArg Base.pending h⟩

theorem State.rescueImage_wr (s : State) (v : Nat) (r : Option (List (Addr × Word))) :
    (s.wr F.GLB_CASK_STAT_rescue_rom v).rescueImage r = s.rescueImage r := by
  unfold State.rescueImage
  rw [State.rd_wr_ne _ _ _ _ _ _ (by decide), State.rd_wr_ne _ _ _ _ _ _ (by decide)]

/-- The last steps of power-up: the mode is in force and the clocks stop (R54). -/
def State.bootEnded (s : State) : State := ((s.wr F.GLB_MODE_boot_done 1).wr F.TIM_CLK_STAT_main_lock 0).upQuiet.poweredDown

theorem State.bootEnded_shows (s : State) : s.bootEnded.ctl.boot = .done ∧ s.bootEnded.ctl.powerDown = true
    ∧ s.bootEnded.rd F.TIM_CLK_STAT_main_lock = 0 ∧ s.bootEnded.rd F.GLB_MODE_boot_done = 1
    ∧ (s.upClocked = true → s.bootEnded.rd F.PRY_PORT_STAT_pwr [1] = 1)
    ∧ s.bootEnded.pending = s.pending ∧ s.bootEnded.cask = s.cask ∧ s.bootEnded.vtg = s.vtg := by
  obtain ⟨u, hu⟩ : ∃ u, u = (s.wr F.GLB_MODE_boot_done 1).wr F.TIM_CLK_STAT_main_lock 0 := ⟨_, rfl⟩
  have heq : s.bootEnded = u.upQuiet.poweredDown := by rw [hu]; rfl
  obtain ⟨hregs, hcask, hpending, hvtg, hboot, hdown⟩ := u.upQuiet.poweredDown_parts
  obtain ⟨hp, hc, hv⟩ := State.imagePending_of_noRegs u.upQuiet_noRegs
  have hrd (f : Fld) (is : List Nat) : s.bootEnded.rd f is = u.upQuiet.rd f is := by rw [heq, State.rd, hregs, State.rd]
  have hup : u.upClocked = s.upClocked := by
    rw [hu, State.upClocked, State.rd_wr_ne _ _ _ _ _ _ (by decide), State.rd_wr_ne _ _ _ _ _ _ (by decide),
      State.rd_wr_ne _ _ _ _ _ _ (by decide), State.rd_wr_ne _ _ _ _ _ _ (by decide), State.upClocked]
  have hsame : u.pending = s.pending ∧ u.cask = s.cask ∧ u.vtg = s.vtg := by rw [hu]; exact ⟨rfl, rfl, rfl⟩
  refine ⟨by rw [heq]; exact hboot, by rw [heq]; exact hdown, ?_, ?_, fun hclk => ?_, ?_, ?_, ?_⟩
  · rw [hrd, State.upQuiet_rd _ (by decide), hu, State.rd_wr_self]
    rfl
  · rw [hrd, State.upQuiet_rd _ (by decide), hu, State.rd_wr_ne _ _ _ _ _ _ (by decide), State.rd_wr_self]
    rfl
  · rw [hrd, State.upQuiet, if_pos (hup.trans hclk), State.rd_wr_self]
    rfl
  · rw [heq, hpending, hp, hsame.1]
  · rw [heq, hcask, hc, hsame.2.1]
  · rw [heq, hvtg, hv, hsame.2.2]

theorem powerUpComplete_shows {s : State} (rescue : Option (List (Addr × Word))) (hboot : s.ctl.boot = .loading) :
    ∃ t, exec (.powerUpComplete rescue) s = .next t ∧ t.ctl.boot = .done
      ∧ t.ctl.powerDown = true ∧ t.rd F.TIM_CLK_STAT_main_lock = 0 ∧ t.rd F.GLB_MODE_boot_done = 1
      ∧ t.vtg.current = t.vtg.rescue ∧ t.vtg.staged = t.vtg.rescue
      ∧ (s.bit F.GLB_CASK_STAT_present = false → t.vtg.rescue = s.rescueImage none)
      ∧ (s.upClocked = true → t.rd F.PRY_PORT_STAT_pwr [1] = 1) ∧ t.cask = s.cask ∧ t.pending = s.pending := by
  obtain ⟨r, hr, hexec⟩ := powerUpComplete_loads rescue hboot
  rw [State.rescueImage_wr] at hexec
  obtain ⟨w, hw⟩ : ∃ w, w = s.wr F.GLB_CASK_STAT_rescue_rom (b2n r.isNone) := ⟨_, rfl⟩
  rw [← hw] at hexec
  have hwparts : w.cask = s.cask ∧ w.pending = s.pending := by rw [hw]; exact ⟨rfl, rfl⟩
  obtain ⟨hvregs, hvcask, hvpending, hvrescue, hvcurrent, hvstaged⟩ := w.rescued_parts (s.rescueImage r)
  have hrough := (w.rescued (s.rescueImage r)).blocksLoaded_rough
  obtain ⟨hcurrent, hstaged, hrescue, hpending⟩ := State.images_of_rough hrough
  have hup : (w.rescued (s.rescueImage r)).blocksLoaded.upClocked = s.upClocked := by
    have hstrap (f : Fld) (hf : lowKey (fldKey f []) = true) (hne : fldKey f [] ≠ fldKey F.GLB_CASK_STAT_rescue_rom []) :
        (w.rescued (s.rescueImage r)).blocksLoaded.rd f = s.rd f := by
      rw [State.rd_of_rough hrough hf, State.rd, hvregs, ← State.rd, hw, State.rd_wr_ne _ _ _ _ _ _ hne]
    rw [State.upClocked, hstrap _ (by decide) (by decide), hstrap _ (by decide) (by decide), State.upClocked]
  obtain ⟨hdone, hdown, hlock, hbootd, hquiet, hp, hc, hv⟩ := (w.rescued (s.rescueImage r)).blocksLoaded.bootEnded_shows
  refine ⟨_, hexec, hdone, hdown, hlock, hbootd, ?_, ?_, fun hpresent => ?_, fun hclk => hquiet (hup.trans hclk), ?_, ?_⟩
  · exact (congrArg Vintages.current hv).trans ((hcurrent.trans (hvcurrent.trans (hvrescue.symm.trans hrescue.symm))).trans
      (congrArg Vintages.rescue hv).symm)
  · exact (congrArg Vintages.staged hv).trans ((hstaged.trans (hvstaged.trans (hvrescue.symm.trans hrescue.symm))).trans
      (congrArg Vintages.rescue hv).symm)
  · rw [← hr hpresent]
    exact (congrArg Vintages.rescue hv).trans (hrescue.trans hvrescue)
  · exact hc.trans ((State.blocksLoaded_cask _).trans (hvcask.trans hwparts.1))
  · exact hp.trans (hpending.trans (hvpending.trans hwparts.2))

/-- Settles O9, by what each phase of power-up writes. -/
theorem powerUp : Obligations.PowerUp := by
  unfold Obligations.PowerUp
  refine ⟨fun s => ⟨fun st => coldStart_restarts s st, vddaonLow_holds s, fun hpcie hheld => perstNAssert_restarts hpcie hheld,
    fun hpcie => perstNAssert_ignored hpcie, fun st hboot hpcie => ?_, fun st hboot hpcie => ?_, fun hboot =>
        oscdlyExpiry_found hboot,
    fun hboot => oscdlyExpiry_waits hboot, fun hboot => ?_, fun hboot => mainLoopLock_goes hboot⟩,
    fun s => ⟨fun cask hboot => ?_, fun hboot => ?_, fun rescue hboot => powerUpComplete_shows rescue hboot⟩⟩
  · obtain ⟨hctl, -, hregs⟩ := s.latch_starts st
    obtain ⟨hosc, hrole, htwin, hnopcie⟩ := s.latch_oscdly st
    exact ⟨_, perstNDeassert_latches st hboot hpcie, hctl, hosc, hrole, htwin, hnopcie, hregs, s.latch_frame st .oscdly⟩
  · obtain ⟨hctl, -, hregs⟩ := s.latch_starts st
    obtain ⟨hosc, hrole, -, -⟩ := s.latch_oscdly st
    exact ⟨_, upReceiverFirstLock_latches st hboot hpcie, hctl, hosc, hrole, hregs, s.latch_frame st .oscdly⟩
  · have h : exec .hostClockFound s = execHostClockFound s := rfl
    rw [h, execHostClockFound, if_pos hboot]
    rfl
  · obtain ⟨u, t, hu, ht, hexec⟩ := bootstrapImageVerify_shows cask hboot
    have hpresent : t.rd F.GLB_CASK_STAT_present = b2n cask.isSome := ht.same.present.trans hu.present
    refine ⟨t, hexec, ht.ctl.trans hu.ctl, hpresent, fun h0 => ?_, fun h0 h1 => ?_, fun h0 h1 => ?_, ?_, State.eq_of_outside
        (ht.outside.trans hu.outside)⟩
    · exact ht.first (by rw [← ht.same.bootGood]; exact h0)
    · exact ht.second (by rw [← ht.same.bootGood]; exact h0) (by rw [← ht.same.bootGood]; exact h1)
    · obtain ⟨hnone, himg, hpset, hexecs⟩ := ht.none (by rw [← ht.same.bootGood]; exact h0) (by rw [← ht.same.bootGood]; exact h1)
      exact ⟨hnone, himg, hpset.trans (hu.regs _ _ (by decide)), hexecs.trans hu.exec⟩
    · exact (hu.regs.mono (m := caskFields ++ imageFields) (by decide)).trans (ht.regs.mono (by decide))
  · obtain ⟨u, t, hu, ht, hexec⟩ := bootstrapImageVerify_shows none hboot
    have hbad (k : Nat) : u.bootGood k = false := by
      rw [State.bootGood, State.bit, hu.present]
      simp [b2n]
    obtain ⟨hnone, -, -, hexecs⟩ := ht.none (hbad 0) (hbad 1)
    exact ⟨t, hexec, ht.same.present.trans hu.present, hnone, congrArg Ctl.boot (ht.ctl.trans hu.ctl), hexecs.trans hu.exec⟩

end Sys2Proof.Machine
end

section
/-!
PROOF. The control-complex reset. The statement is about every state, and a state may name a sequencer that does not exist.
-/

namespace Sys2Proof.Machine

/-- A restart is due. The entry of a program on sequencer 1 is in flight, and the journal queue is being taken by a sequencer 8192
that the device does not have: its scratch row 0 is row 2^24 of memory class 5, whose key is that of row 0 of image 0 of the vintage
store. The next row of class 5 that is stored takes an injected error. -/
def strayTaker : State :=
  { State.reset with
    ctl := { Ctl.reset with ccPending := true }
    exec := { Exec.reset with inFlight := [(1, some ⟨0, 0, 0, 0⟩)] }
    seqs := [(8192, { Seq.idle with pktQ := some 32 })]
    queues := [(32, { Queue.empty with taker := some 8192 })]
    cel := { State.reset.cel with inj := some ⟨5, 0, 1, true⟩ } }

/-- The image of CURRENT has no bad row before the restart. -/
theorem strayTaker_sound : Sound strayTaker 0 := fun _ h => (nomatch h)

/-- Whether CURRENT is valid after a command; true where it answers no next state. -/
def validAfter : Out → Bool
  | .next t => t.vtg.curValid
  | _ => true

theorem strayTaker_invalid {t : State} (h : exec .executiveRestart strayTaker = .next t) : t.vtg.curValid = false := by
  have hrun : validAfter (exec .executiveRestart strayTaker) = false := by decide +kernel
  rwa [h] at hrun

/-- Refutes O10: the restart closes the entries in flight before it reads CURRENT, and over every state their records may be stored
in a row that the vintage store reads as its own, which leaves CURRENT invalid though its image was sound. -/
theorem not_controlComplexReset : ¬ Obligations.ControlComplexReset := by
  unfold Obligations.ControlComplexReset
  intro h
  obtain ⟨-, -, hrestart, -⟩ := h.1 strayTaker
  obtain ⟨t, ht, hvalid, -⟩ := hrestart rfl rfl rfl rfl strayTaker_sound
  rw [strayTaker_invalid ht] at hvalid
  exact Bool.false_ne_true hvalid

end Sys2Proof.Machine
end


section
/-!
The invariants of every command: the memories are in canonical form (O4), and a sequencer that runs no program is named by no claim
(O5). `State.Inv` holds either of them, by `Watch`; a lemma `State.Inv.f` says that the operation `State.f` keeps both. They stand in
the order of the model's definitions; one case per command then puts them together.
-/

namespace Sys2Proof.Machine

/-! ### What is watched -/

/-- Which invariant is meant: the canonical form of the memories, or that sequencer q runs a program unless no claim names it. -/
inductive Watch where
  | memories
  | claims (q : Nat)

/-- Sequencer q holds the resource or waits for it. -/
def Claim.Names (x : Claim) (q : Nat) : Prop := x.holder = some q ∨ q ∈ x.waiters

def Claim.NoneNames (l : Tab Claim) (q : Nat) : Prop := ∀ e ∈ l, ¬ e.2.Names q

def State.Inv (ω : Watch) (s : State) : Prop :=
  match ω with
  | .memories => s.memWf = true
  | .claims q => (s.seq q).live = true ∨ Claim.NoneNames s.exec.claims q

def Out.Inv (ω : Watch) (o : Out) : Prop := ∀ t, o = .next t → t.Inv ω

theorem Out.Inv.next {ω : Watch} {s : State} (h : s.Inv ω) : Out.Inv ω (.next s) := by
  rintro t ⟨⟩
  exact h

/-- What the invariants read of the executive. -/
def Exec.tables (x : Exec) : Tab (Option Word) × Tab (Option Word) × Tab Claim := (x.store, x.loadBuf, x.claims)

/-- What they read of the cellar and of the on-chip memories. -/
def Cel.tables (x : Cel) : Tab Bool × Tab (List Nat) × Tab (List Nat) × Tab Bool × Tab (List Nat) :=
  (x.rows, x.bad, x.blocks, x.lines, x.hard)

theorem Cel.wf_of_tables {x y : Cel} (h : x.tables = y.tables) : x.wf = y.wf := by
  simp only [Cel.tables, Prod.mk.injEq] at h
  obtain ⟨hr, hb, hk, hl, hh⟩ := h
  simp only [Cel.wf, hr, hb, hk, hl, hh]

/-- A change of a sequencer that goes on with its program, if it ran one, and leaves its scratch in canonical form. -/
structure Seq.Keeps (x y : Seq) : Prop where
  live : x.live = true → y.live = true
  scratch : tabWf 0 x.scratch = true → tabWf 0 y.scratch = true

variable {ω : Watch} {s t : State}

/-- The invariants survive what leaves the stores, the claims and the sequencers alone. -/
theorem State.Inv.updTables (h : s.Inv ω) {pending regs counters ctl exec queues vtg hif tim conv calEng capture rx tx pool align tdl
    lfr grid mems chans cip svcSol clients gfp lanes calendars cel pry mon free} (he : exec.tables = s.exec.tables)
    (hh : hif.hostMem = s.hif.hostMem) (hc : cel.tables = s.cel.tables) :
    State.Inv ω ⟨pending, regs, counters, ctl, exec, s.seqs, queues, vtg, hif, tim, conv, calEng, capture, rx, tx, pool, align, tdl,
      lfr, grid, mems, chans, cip, svcSol, clients, gfp, lanes, calendars, cel, pry, mon, s.cask, free⟩ := by
  simp only [Exec.tables, Prod.mk.injEq] at he
  obtain ⟨hs, hb, hk⟩ := he
  cases ω with
  | memories => simpa only [State.Inv, State.memWf, hs, hb, hh, Cel.wf_of_tables hc] using h
  | claims q => simpa only [State.Inv, State.seq, hk] using h

theorem State.Inv.upd (h : s.Inv ω) {pending regs counters ctl exec queues vtg hif tim conv calEng capture rx tx pool align tdl lfr
    grid mems chans cip svcSol clients gfp lanes calendars cel pry mon free}
    (hk : (exec.tables, hif.hostMem, cel.tables) = (s.exec.tables, s.hif.hostMem, s.cel.tables)) :
    State.Inv ω ⟨pending, regs, counters, ctl, exec, s.seqs, queues, vtg, hif, tim, conv, calEng, capture, rx, tx, pool, align, tdl,
      lfr, grid, mems, chans, cip, svcSol, clients, gfp, lanes, calendars, cel, pry, mon, s.cask, free⟩ := by
  simp only [Prod.mk.injEq] at hk
  obtain ⟨he, hh, hc⟩ := hk
  exact h.updTables he hh hc

theorem State.Inv.ite {c : Prop} {_ : Decidable c} (hs : s.Inv ω) (ht : t.Inv ω) : (if c then s else t).Inv ω := by
  split <;> assumption

/-- Something more is done where a condition holds. -/
theorem State.Inv.iteL {c : Prop} {_ : Decidable c} (hs : s.Inv ω) (ht : s.Inv ω → t.Inv ω) : (if c then t else s).Inv ω :=
  .ite (ht hs) hs

/-- Something more is done where a condition does not hold. -/
theorem State.Inv.iteR {c : Prop} {_ : Decidable c} (hs : s.Inv ω) (ht : s.Inv ω → t.Inv ω) : (if c then s else t).Inv ω :=
  .ite hs (ht hs)

/-- One of two things more is done where a condition holds. -/
theorem State.Inv.iteTwice {u : State} {c d : Prop} {_ : Decidable c} {_ : Decidable d} (hs : s.Inv ω) (ht : s.Inv ω → t.Inv ω)
    (hu : s.Inv ω → u.Inv ω) : (if c then t else if d then u else s).Inv ω :=
  .ite (ht hs) (.ite (hu hs) hs)

/-- One of two things is done that answer with something more than the state. -/
theorem State.Inv.iteSnd {α : Type} {c : Prop} {_ : Decidable c} {x y : α × State} (hx : x.2.Inv ω) (hy : y.2.Inv ω) :
    (if c then x else y).2.Inv ω := by
  split <;> assumption

theorem State.Inv.forEach {α : Type} {f : α → State → State} {l : List α} (hf : ∀ a s, s.Inv ω → (f a s).Inv ω) (h : s.Inv ω) :
    (Machine.forEach f l s).Inv ω := by
  induction l generalizing s with
  | nil => exact h
  | cons a l ih => exact ih (hf a s h)

/-- A fold whose accumulator carries the state. -/
theorem State.Inv.foldl {α β : Type} {f : β × State → α → β × State} {l : List α} {r : β × State}
    (hf : ∀ r a, r.2.Inv ω → (f r a).2.Inv ω) (h : r.2.Inv ω) : (l.foldl f r).2.Inv ω := by
  induction l generalizing r with
  | nil => exact h
  | cons a l ih => exact ih (hf r a h)

/-! ### The sequencers and the claims -/

theorem mem_tabErase {α : Type} {t : Tab α} {n : Nat} {e : Nat × α} (h : e ∈ tabErase t n) : e ∈ t := by
  induction t with
  | nil => exact h
  | cons a t ih =>
    obtain ⟨k, v⟩ := a
    rw [tabErase] at h
    split at h
    · exact List.mem_cons_of_mem _ (ih h)
    · obtain rfl | h := List.mem_cons.mp h
      · exact List.mem_cons_self
      · exact List.mem_cons_of_mem _ (ih h)

theorem mem_tabIns {α : Type} {t : Tab α} {n : Nat} {v : α} {e : Nat × α} (h : e ∈ tabIns t n v) : e = (n, v) ∨ e ∈ t := by
  induction t with
  | nil => simpa [tabIns] using h
  | cons a t ih =>
    obtain ⟨k, w⟩ := a
    rw [tabIns] at h
    split at h
    · simp only [List.mem_cons] at h ⊢; tauto
    · split at h
      · simpa only [List.mem_cons] using h
      · simp only [List.mem_cons] at h ⊢; tauto

theorem mem_tabPut {α : Type} [DecidableEq α] {d : α} {t : Tab α} {n : Nat} {v : α} {e : Nat × α} (h : e ∈ tabPut d t n v) :
    e = (n, v) ∨ e ∈ t := by
  rw [tabPut] at h
  split at h
  · exact .inr (mem_tabErase h)
  · exact mem_tabIns h

theorem tabGet_mem {α : Type} (d : α) (t : Tab α) (n : Nat) : tabGet d t n = d ∨ (n, tabGet d t n) ∈ t := by
  induction t with
  | nil => exact .inl rfl
  | cons a t ih =>
    obtain ⟨k, v⟩ := a
    rw [tabGet]
    split
    · next hk => exact .inr (hk ▸ List.mem_cons_self)
    · exact ih.imp id (List.mem_cons_of_mem _)

/-- A claim that the table lists or leaves free does not name a sequencer that no claim names. -/
theorem Claim.NoneNames.get {l : Tab Claim} {q : Nat} (h : Claim.NoneNames l q) (n : Nat) : ¬ (tabGet Claim.free l n).Names q := by
  obtain hf | hm := tabGet_mem Claim.free l n
  · rw [hf]; simp [Claim.Names, Claim.free]
  · exact h _ hm

theorem State.Inv.setSeq {q : Nat} {x : Seq} (h : s.Inv ω) (hx : (s.seq q).Keeps x) :
    (s.setSeq q x).Inv ω := by
  cases ω with
  | memories => exact State.setSeq_memWf s q x h (hx.scratch (State.seq_scratch_wf s q h))
  | claims p =>
    refine h.imp_left fun hl => ?_
    by_cases hp : p = q
    · subst hp; rw [State.seq_setSeq_self]; exact hx.live hl
    · rw [State.seq_setSeq_ne _ _ _ _ hp]; exact hl

/-- A claim may come to name those sequencers alone that it names already or that run a program. -/
theorem State.Inv.setClaim {n : Nat} {x : Claim} (h : s.Inv ω)
    (hx : ∀ q, x.Names q → (s.claim n).Names q ∨ (s.seq q).live = true) : (s.setClaim n x).Inv ω := by
  cases ω with
  | memories => exact h
  | claims q =>
    obtain hl | hn := h
    · exact .inl hl
    by_cases hq : (s.seq q).live = true
    · exact .inl hq
    refine .inr fun e he hname => ?_
    obtain rfl | he := mem_tabPut he
    · exact (hx q hname).elim (hn.get n) hq
    · exact hn e he hname

/-- A sequencer that runs its program. -/
theorem Seq.Keeps.of_live {x y : Seq} (hl : y.live = true) (hs : y.scratch = x.scratch) : x.Keeps y :=
  ⟨fun _ => hl, fun hx => hs.symm ▸ hx⟩

theorem Seq.deliver_keeps (x : Seq) (e : Nat) (data : Word) : x.Keeps (x.deliver e data) := by
  unfold Seq.deliver
  split <;> exact ⟨id, id⟩

/-- A sequencer that waits for packet words and has them runs again. -/
theorem Seq.resume_keeps (x : Seq) : x.Keeps x.resume := by
  have hr : x.resume = { x with wait := none, state := .running } ∨ x.resume = x := ite_eq_or_eq ..
  obtain hr | hr := hr <;> rw [hr]
  · exact ⟨fun _ => rfl, id⟩
  · exact ⟨id, id⟩

theorem Seq.setMem_keeps (x : Seq) (a : Nat) (v : Word) : x.Keeps (x.setMem a v) := ⟨id, tabWf_put _ _ _ _⟩

/-! ### The memories -/

/-- An operation that keeps the form of the memories, and leaves the sequencers and the claims alone. -/
theorem State.Inv.of_memWf (h : s.Inv ω) (hm : s.memWf = true → t.memWf = true) (hs : t.seqs = s.seqs)
    (hc : t.exec.claims = s.exec.claims) : t.Inv ω := by
  cases ω with
  | memories => exact hm h
  | claims q => simpa only [State.Inv, State.seq, hs, hc] using h

theorem State.Inv.withCel {c : Cel} (h : s.Inv ω) (hc : s.cel.wf = true → c.wf = true) : ({ s with cel := c } : State).Inv ω :=
  h.of_memWf (fun hm => State.withCel_memWf s c hm (hc (State.memWf_cel hm))) rfl rfl

theorem State.Inv.withHif {x : Hif} (h : s.Inv ω) (hx : tabWf 0 s.hif.hostMem = true → tabWf 0 x.hostMem = true) :
    ({ s with hif := x } : State).Inv ω :=
  h.of_memWf (fun hm => by
    obtain ⟨hst, hlb, hca, hhm, hce, hsq⟩ := (State.memWf_iff s).mp hm
    exact (State.memWf_iff _).mpr ⟨hst, hlb, hca, hx hhm, hce, hsq⟩) rfl rfl

theorem Cel.wf_putBad (c : Cel) (n : Nat) (v : List Nat) (h : c.wf = true) :
    ({ c with bad := tabPut [] c.bad n v } : Cel).wf = true := by
  obtain ⟨hr, hb, hk, hl, hh⟩ := (Cel.wf_iff c).mp h
  exact (Cel.wf_iff _).mpr ⟨hr, tabWf_put _ _ _ _ hb, hk, hl, hh⟩

theorem Cel.wf_filterBad (c : Cel) (p : Nat × List Nat → Bool) (h : c.wf = true) :
    ({ c with bad := c.bad.filter p } : Cel).wf = true := by
  obtain ⟨hr, hb, hk, hl, hh⟩ := (Cel.wf_iff c).mp h
  exact (Cel.wf_iff _).mpr ⟨hr, tabWf_filter _ _ _ hb, hk, hl, hh⟩

theorem Cel.wf_filterBlocks (c : Cel) (p : Nat × List Nat → Bool) (h : c.wf = true) :
    ({ c with blocks := c.blocks.filter p } : Cel).wf = true := by
  obtain ⟨hr, hb, hk, hl, hh⟩ := (Cel.wf_iff c).mp h
  exact (Cel.wf_iff _).mpr ⟨hr, hb, tabWf_filter _ _ _ hk, hl, hh⟩

theorem Cel.wf_putLine (c : Cel) (n : Nat) (h : c.wf = true) : ({ c with lines := tabPut false c.lines n true } : Cel).wf = true := by
  obtain ⟨hr, hb, hk, hl, hh⟩ := (Cel.wf_iff c).mp h
  exact (Cel.wf_iff _).mpr ⟨hr, hb, hk, by dsimp only; exact tabWf_put _ _ _ _ hl, hh⟩

theorem Cel.wf_foldRows {β : Type} (c : Cel) (f : β → Nat) (l : List β) (h : c.wf = true) :
    ({ c with rows := l.foldl (fun r e => tabPut false r (f e) true) c.rows } : Cel).wf = true := by
  obtain ⟨hr, hb, hk, hl, hh⟩ := (Cel.wf_iff c).mp h
  exact (Cel.wf_iff _).mpr ⟨tabWf_foldl _ _ _ _ _ hr, hb, hk, hl, hh⟩

theorem Cel.wf_foldBad (c : Cel) (l : Tab (List Nat)) (h : c.wf = true) :
    ({ c with bad := l.foldl (fun b e => tabPut [] b e.1 e.2) c.bad } : Cel).wf = true := by
  obtain ⟨hr, hb, hk, hl, hh⟩ := (Cel.wf_iff c).mp h
  exact (Cel.wf_iff _).mpr ⟨hr, tabWf_foldl _ _ _ _ _ hb, hk, hl, hh⟩

theorem State.Inv.of_snd {α : Type} {r : α × State} {a : α} (hr : r = (a, t)) (h : r.2.Inv ω) : t.Inv ω := by subst hr; exact h

end Sys2Proof.Machine
end

section
/-!
The operations of the state, the converters and the receive path keep both invariants, in the order of the model's files.
-/

namespace Sys2Proof.Machine

variable {ω : Watch} {s t : State}

/-! ### Ops -/

theorem State.Inv.wr {f v is} (h : s.Inv ω) : (s.wr f v is).Inv ω := .upd h rfl
theorem State.Inv.addSat {f n max is} (h : s.Inv ω) : (s.addSat f n max is).Inv ω := .wr h
theorem State.Inv.count {i n} (h : s.Inv ω) : (s.count i n).Inv ω := .upd h rfl
theorem State.Inv.setQueue {q x} (h : s.Inv ω) : (s.setQueue q x).Inv ω := .upd h rfl
theorem State.Inv.setConv {i x} (h : s.Inv ω) : (s.setConv i x).Inv ω := .upd h rfl
theorem State.Inv.setRx {i x} (h : s.Inv ω) : (s.setRx i x).Inv ω := .upd h rfl
theorem State.Inv.setTx {i x} (h : s.Inv ω) : (s.setTx i x).Inv ω := .upd h rfl
theorem State.Inv.setAlign {i x} (h : s.Inv ω) : (s.setAlign i x).Inv ω := .upd h rfl
theorem State.Inv.setTdl {i x} (h : s.Inv ω) : (s.setTdl i x).Inv ω := .upd h rfl
theorem State.Inv.setLfr {i x} (h : s.Inv ω) : (s.setLfr i x).Inv ω := .upd h rfl
theorem State.Inv.signalVec {f v} (h : s.Inv ω) : (s.signalVec f v).Inv ω := .ite (.upd h rfl) (.upd h rfl)
theorem State.Inv.sendPending {f v} (h : s.Inv ω) : (s.sendPending f v).Inv ω := .ite (.upd h rfl) h
theorem State.Inv.sendAllPending (h : s.Inv ω) : (s.sendAllPending).Inv ω := .forEach (fun _ _ h => .sendPending h) h
theorem State.Inv.signalEvent {e} (h : s.Inv ω) : (s.signalEvent e).Inv ω := .ite (.ite (.signalVec h) h) h
theorem State.Inv.deliverSeqs {e data} (h : s.Inv ω) : (s.deliverSeqs e data).Inv ω :=
  .forEach (fun _ _ h => .setSeq h (Seq.deliver_keeps ..)) h
theorem State.Inv.setPort {p x} (h : s.Inv ω) : (s.setPort p x).Inv ω := .upd h rfl
theorem State.Inv.portOff {p} (h : s.Inv ω) : (s.portOff p).Inv ω := .wr (.wr (.setPort h))
theorem State.Inv.pryTx {p m} (h : s.Inv ω) : (s.pryTx p m).Inv ω := .ite (.setPort h) h
theorem State.Inv.forwardEvent {e data} (h : s.Inv ω) : (s.forwardEvent e data).Inv ω := .ite (.ite (.pryTx h) (.count h)) h
theorem State.Inv.takeWord (h : s.Inv ω) : (s.takeWord).2.Inv ω := .upd h rfl
theorem State.Inv.roundFree {num den} (h : s.Inv ω) : (s.roundFree num den).2.Inv ω := by
  unfold State.roundFree
  dsimp only
  split
  · exact h
  · exact .upd h rfl
theorem State.Inv.setInj {q x} (h : s.Inv ω) : (s.setInj q x).Inv ω := .upd h rfl
theorem State.Inv.injTrigger {q} (h : s.Inv ω) : (s.injTrigger q).Inv ω := by
  unfold State.injTrigger
  dsimp only
  split
  · exact .addSat h
  · exact .wr (.setInj h)
theorem State.Inv.injEvent {e} (h : s.Inv ω) : (s.injEvent e).Inv ω :=
  .forEach (fun _ _ h => .ite (.injTrigger (.setInj h)) h) h
theorem State.Inv.fireCapture {i} (h : s.Inv ω) : (s.fireCapture i).Inv ω :=
  .iteL (.iteL (.iteL (.wr h) (fun h => .wr h)) (fun h => .wr h)) (fun h => .wr (.wr (.wr h)))
theorem State.Inv.stick {f i} (h : s.Inv ω) : (s.stick f i).Inv ω := .ite h (.wr h)
theorem State.Inv.captureTrigger {kind n} (h : s.Inv ω) : (s.captureTrigger kind n).Inv ω := by
  unfold State.captureTrigger
  split
  · exact h
  · exact .ite (.ite (.fireCapture h) (.stick h)) h
theorem State.Inv.celAsk {k n} (h : s.Inv ω) : (s.celAsk k n).Inv ω := .ite h (.upd h rfl)
theorem State.Inv.celDrop {k} (h : s.Inv ω) : (s.celDrop k).Inv ω := .upd h rfl
theorem State.Inv.peCheck {i} (h : s.Inv ω) : (s.peCheck i).Inv ω := .ite (.wr h) h
theorem State.Inv.raise {e data} (h : s.Inv ω) : (s.raise e data).Inv ω := by
  unfold State.raise
  exact .captureTrigger (.injEvent (.forwardEvent (.signalEvent (.deliverSeqs (.ite (.wr h) h)))))
theorem State.Inv.putRow {cls row} (h : s.Inv ω) : (s.putRow cls row).Inv ω := h.of_memWf (State.putRow_memWf _ _ _) rfl rfl
theorem State.Inv.memWrite {cls row whole} (h : s.Inv ω) : (s.memWrite cls row whole).2.Inv ω := by
  unfold State.memWrite
  split
  · exact .putRow h
  · split
    · exact .putRow h
    · exact .putRow (.count h)
    · exact .count h
theorem State.Inv.memRead {cls row} (h : s.Inv ω) : (s.memRead cls row).2.Inv ω := by
  unfold State.memRead
  dsimp only
  split
  · exact .count h
  · split
    · exact h
    · exact .count (.withCel h (Cel.wf_putBad _ _ _))
    · dsimp only
      exact .raise (.count h)
theorem State.Inv.vintSet {ds} (h : s.Inv ω) : (s.vintSet ds).Inv ω := by
  unfold State.vintSet
  exact .iteL (.withCel h fun hc => Cel.wf_foldRows _ _ _ (Cel.wf_foldBad _ _ (Cel.wf_filterBad _ _ hc))) (fun h => .putRow h)
theorem State.Inv.vintRead {img} (h : s.Inv ω) : (s.vintRead img).2.Inv ω :=
  .foldl (fun _ _ h => .memRead h) (.withCel h (Cel.wf_foldRows _ _ _))
theorem State.Inv.sendNotice {q} (h : s.Inv ω) : (s.sendNotice q).Inv ω :=
  .ite (.raise h) (.ite (.signalVec h) (.ite (.signalVec h) (.ite (.signalVec h) (.ite h (.raise h)))))
theorem State.Inv.markNotice {q} (h : s.Inv ω) : (s.markNotice q).Inv ω := by
  unfold State.markNotice
  dsimp only
  split
  · exact .setQueue h
  · exact h
theorem State.Inv.notice {q} (h : s.Inv ω) : (s.notice q).Inv ω := .ite (.ite (.markNotice (.wr h)) (.sendNotice (.wr h))) h
theorem State.Inv.queueMarks {q} (h : s.Inv ω) : (s.queueMarks q).Inv ω := by
  unfold State.queueMarks
  dsimp only
  refine .iteL (.ite (.wr h) h) (fun h => ?_)
  split
  · exact .iteR (.wr h) (fun h => .signalVec h)
  · exact .wr h
theorem State.Inv.refuseWords {q pkts words} (h : s.Inv ω) : (s.refuseWords q pkts words).Inv ω := .addSat (.addSat h)
theorem State.Inv.land {q x ps} (h : s.Inv ω) : (s.land q x ps).Inv ω := .setQueue (.memWrite h)
theorem State.Inv.arrive {q w given} (h : s.Inv ω) : (s.arrive q w given).Inv ω := by
  unfold State.arrive
  dsimp only
  refine .ite (.setQueue h) (.ite (.refuseWords (.setQueue h)) ?_)
  split
  · exact .iteL (.land h) (fun h => .notice h)
  · exact .ite (.iteL (.land h) (fun h => .notice h)) (.refuseWords (.setQueue h))
theorem State.Inv.deliverWord {q w} (h : s.Inv ω) : (s.deliverWord q w).2.Inv ω := by
  unfold State.deliverWord
  dsimp only
  split
  · split
    · exact .memRead h
    · exact .refuseWords (.memRead h)
  · exact .memRead h
theorem State.Inv.popWord {q w last} (h : s.Inv ω) (hp : s.popWord q = some (w, last, t)) : t.Inv ω := by
  unfold State.popWord at hp
  dsimp only at hp
  split at hp
  · split at hp
    · obtain ⟨-, -, rfl⟩ := hp
      exact .setQueue (.deliverWord h)
    · cases hp
  · cases hp
theorem State.Inv.popWords {q n} (h : s.Inv ω) : (s.popWords q n).2.Inv ω := by
  induction n generalizing s with
  | zero => exact h
  | succ n ih =>
    unfold State.popWords
    split
    · exact h
    · next hp => exact ih (.popWord h hp)
theorem State.Inv.putScratch {q a w} (h : s.Inv ω) : (s.putScratch q a w).Inv ω :=
  .iteL (.memWrite h) (fun h => .setSeq h (Seq.setMem_keeps ..))
theorem State.Inv.putWords {q a ws} (h : s.Inv ω) : (s.putWords q a ws).Inv ω := by
  induction ws generalizing s a with
  | nil => exact h
  | cons w ws ih => exact ih (.putScratch h)
theorem State.Inv.takeWords {sq q ws} (h : s.Inv ω) : (s.takeWords sq q ws).Inv ω := by
  unfold State.takeWords
  dsimp only
  refine .ite (.setSeq (.putWords h) ⟨id, id⟩) ?_
  split
  · exact .setSeq (.putWords h) ⟨id, id⟩
  · exact h
theorem State.Inv.feed {q} (h : s.Inv ω) : (s.feed q).Inv ω := by
  unfold State.feed
  dsimp only
  split
  · exact .iteL (.takeWords (.popWords h)) (fun h => .setQueue h)
  · exact h
theorem State.Inv.dropTaken {sq q} (h : s.Inv ω) : (s.dropTaken sq q).Inv ω := by
  unfold State.dropTaken
  dsimp only
  split
  · exact .ite (.setQueue h) h
  · exact h
theorem State.Inv.push {q w given} (h : s.Inv ω) : (s.push q w given).Inv ω := by
  unfold State.push
  dsimp only
  split
  · exact .setSeq (.feed (.queueMarks (.arrive h))) (Seq.resume_keeps _)
  · exact .feed (.queueMarks (.arrive h))
theorem State.Inv.pushAll {q ws} (h : s.Inv ω) : (s.pushAll q ws).Inv ω := .forEach (fun _ _ h => .push h) h
theorem State.Inv.setPlanner {x} (h : s.Inv ω) : (s.setPlanner x).Inv ω := .upd h rfl
theorem State.Inv.watchRun {i} (h : s.Inv ω) : (s.watchRun i).Inv ω := .setPlanner h
theorem State.Inv.watchProposal {i} (h : s.Inv ω) : (s.watchProposal i).Inv ω := .setPlanner h
theorem State.Inv.msixReset {f} (h : s.Inv ω) : (s.msixReset f).Inv ω := .upd h rfl
theorem State.Inv.linkDown (h : s.Inv ω) : (s.linkDown).Inv ω := .upd (.forEach (fun _ _ h => .msixReset h) h) rfl
theorem State.Inv.setGate {b g} (h : s.Inv ω) : (s.setGate b g).Inv ω := .upd h rfl
theorem State.Inv.settleGate {b} (h : s.Inv ω) : (s.settleGate b).Inv ω := .ite (.setGate h) h
theorem State.Inv.whenOpen {b f} (hf : ∀ s, s.Inv ω → (f s).Inv ω) (h : s.Inv ω) : (s.whenOpen b f).Inv ω := .ite h (hf _ h)
theorem State.Inv.mirrorDrain (h : s.Inv ω) : (s.mirrorDrain).Inv ω := by
  unfold State.mirrorDrain
  refine .ite ?_ h
  dsimp only
  split
  · exact h
  · exact .ite h (.pryTx (.setQueue h))
theorem State.Inv.mirror {typ content} (h : s.Inv ω) : (s.mirror typ content).Inv ω :=
  .ite (.mirrorDrain (.upd (.pushAll h) rfl)) h
theorem State.Inv.mirrorDomain (h : s.Inv ω) : (s.mirrorDomain).Inv ω := .ite (.mirror h) h

/-! ### Converters -/

theorem State.Inv.applyTrim {m f is} (h : s.Inv ω) : (s.applyTrim m f is).Inv ω := .wr h
theorem State.Inv.applyAdc {m i a p} (h : s.Inv ω) : (s.applyAdc m i a p).Inv ω := .applyTrim (.applyTrim (.applyTrim h))
theorem State.Inv.loadDacs {m i} (h : s.Inv ω) : (s.loadDacs m i).Inv ω :=
  .forEach (fun _ _ h => .forEach (fun _ _ h => .applyTrim h) (.applyTrim (.applyTrim (.applyTrim h)))) h
theorem State.Inv.applyDacs {m i} (h : s.Inv ω) : (s.applyDacs m i).Inv ω := .peCheck (.loadDacs h)
theorem State.Inv.loadTrims {i g} (h : s.Inv ω) : (s.loadTrims i g).Inv ω :=
  .loadDacs (.forEach (fun _ _ h => .forEach (fun _ _ h => .applyAdc h) h) h)
theorem State.Inv.loadGeneration {i g} (h : s.Inv ω) : (s.loadGeneration i g).Inv ω := .peCheck (.loadTrims h)
theorem State.Inv.askEngine {i e} (h : s.Inv ω) : (s.askEngine i e).Inv ω := .ite (.upd h rfl) (.upd h rfl)
theorem State.Inv.dropAsk {i} (h : s.Inv ω) : (s.dropAsk i).Inv ω := .upd h rfl
theorem State.Inv.askRun {i} (h : s.Inv ω) : (s.askRun i).Inv ω := .ite (.askEngine (.setConv h)) h
theorem State.Inv.runCause {i c} (h : s.Inv ω) : (s.runCause i c).Inv ω := .askRun (.wr (.setConv h))
theorem State.Inv.askRestore {i} (h : s.Inv ω) : (s.askRestore i).Inv ω := .askEngine (.setConv h)
theorem State.Inv.captureHandBack {i} (h : s.Inv ω) : (s.captureHandBack i).Inv ω := .ite (.ite (.wr h) (.ite (.upd h rfl) h)) h
theorem State.Inv.calIdle {i} (h : s.Inv ω) : (s.calIdle i).Inv ω := .wr (.wr (.wr (.wr h)))
theorem State.Inv.abortRun {i} (h : s.Inv ω) : (s.abortRun i).Inv ω :=
  .ite (.askRestore (.setConv (.calIdle (.ite (.captureHandBack h) h)))) h
theorem State.Inv.calLeaveLit {i} (h : s.Inv ω) : (s.calLeaveLit i).Inv ω := .setConv (.dropAsk (.calIdle h))
theorem State.Inv.beginMatch {i p} (h : s.Inv ω) : (s.beginMatch i p).Inv ω := .setConv (.wr (.wr h))
theorem State.Inv.startCal {i} (h : s.Inv ω) : (s.startCal i).Inv ω :=
  .ite (.beginMatch (.wr (.setConv (.dropAsk h)))) (.beginMatch (.wr (.wr (.wr (.setConv (.dropAsk h))))))
theorem execRecalRunCmd_inv {i} (h : s.Inv ω) : (execRecalRunCmd i s).Inv ω := .next (.ite h (.ite (.wr h) (.runCause h)))
theorem execRecalAbortCmd_inv {i} (h : s.Inv ω) : (execRecalAbortCmd i s).Inv ω := .next (.abortRun h)
theorem execConverterTempReading_inv {i temp} (h : s.Inv ω) : (execConverterTempReading i temp s).Inv ω :=
  .next (.iteL (.wr h) (fun h => .runCause h))
theorem execRecalIntervalExpiry_inv {i} (h : s.Inv ω) : (execRecalIntervalExpiry i s).Inv ω := .next (.ite h (.runCause h))
theorem State.Inv.skipPhase {i a p} (h : s.Inv ω) : (s.skipPhase i a p).Inv ω := .raise (.wr h)
theorem State.Inv.trimSpare {i a m} (h : s.Inv ω) : (s.trimSpare i a m).Inv ω :=
  .applyAdc (.iteL (.ite (.wr h) h) (fun h => .setConv h))
theorem execSpareMatchEnd_inv {i adcs} (h : s.Inv ω) : (execSpareMatchEnd i adcs s).Inv ω :=
  .next (.ite (.ite (.setConv (.forEach (fun _ _ h => .ite h (.trimSpare h)) h))
    (.wr (.forEach (fun _ _ h => .ite (.skipPhase h) h) (.setConv (.forEach (fun _ _ h => .ite h (.trimSpare h)) h))))) h)
theorem State.Inv.measurePhase {i p adc taps} (h : s.Inv ω) : (s.measurePhase i p adc taps).Inv ω :=
  .iteL (.forEach (fun _ _ h => .ite h (.setConv (.ite (.wr h) h))) h) (fun h => .forEach
    (fun _ _ h => .setConv (.ite (.wr h) h)) h)
theorem State.Inv.handBack {i p} (h : s.Inv ω) : (s.handBack i p).Inv ω :=
  .ite (.beginMatch (.iteR (.forEach (fun _ _ h => .ite h (.applyAdc h)) h) (fun h => .captureHandBack h)))
    (.setConv (.wr (.iteR (.forEach (fun _ _ h => .ite h (.applyAdc h)) h) (fun h => .captureHandBack h))))
theorem execRunStepHandBack_inv {i measured} (h : s.Inv ω) : (execRunStepHandBack i measured s).Inv ω := by
  refine .next ?_
  dsimp only
  refine .ite ?_ h
  split
  · exact .ite (.wr (.ite (.measurePhase h) h)) h
  · exact .ite (.handBack h) h
theorem State.Inv.afterCal {i} (h : s.Inv ω) : (s.afterCal i).Inv ω := .askRun (.wr (.setConv h))
theorem execRunComplete_inv {i dac} (h : s.Inv ω) : (execRunComplete i dac s).Inv ω :=
  .next (.ite (.afterCal (.watchRun (.raise (.wr (.wr (.setConv (.calIdle
    (.applyDacs (.forEach (fun _ _ h => .setConv (.ite (.wr h) h)) h))))))))) h)
theorem execRestoreRotationComplete_inv {i} (h : s.Inv ω) : (execRestoreRotationComplete i s).Inv ω :=
  .next (.ite (.afterCal (.setConv (.calIdle (.applyDacs h)))) h)
theorem State.Inv.caskProgram {a bs} (h : s.Inv ω) : (s.caskProgram a bs).Inv ω := by
  induction bs generalizing s a with
  | nil => exact h
  | cons b bs ih => exact ih (h.of_memWf (State.caskProgram_memWf [b] s a) rfl rfl)
theorem State.Inv.caskErase {a} (h : s.Inv ω) : (s.caskErase a).Inv ω := h.of_memWf (State.caskErase_memWf _ _) rfl rfl
theorem State.Inv.failedSector {sec} (h : s.Inv ω) : (s.failedSector sec).Inv ω :=
  .upd (.ite (.caskErase h) (.caskProgram (.caskErase h))) rfl
theorem State.Inv.saveGeneration {i verified} (h : s.Inv ω) : (s.saveGeneration i verified).Inv ω := by
  unfold State.saveGeneration
  dsimp only
  split
  · exact h
  · exact .ite (.setConv (.caskProgram (.caskErase h))) (.ite (.raise (.stick (.setConv (.failedSector h))))
      (.setConv (.failedSector h)))
theorem execClipWindow_inv {i codes} (h : s.Inv ω) : (execClipWindow i codes s).Inv ω :=
  .next (.ite (.iteL (.setTx (.forEach (fun _ _ h => .ite h (.wr (.count h))) h)) (fun h => .raise h)) h)
theorem State.Inv.endCapture {i} (h : s.Inv ω) : (s.endCapture i).Inv ω := by
  unfold State.endCapture
  exact .raise (.upd (.wr (.celDrop h)) rfl)
theorem State.Inv.armCapture {i} (h : s.Inv ω) : (s.armCapture i).Inv ω := .iteL (.upd (.wr h) rfl) (fun h => .fireCapture h)
theorem execCaptureGo_inv {i} (h : s.Inv ω) : (execCaptureGo i s).Inv ω :=
  .next (.ite h (.ite (.wr h) (.armCapture (.wr (.upd h rfl)))))
theorem execCaptureTrigger_inv {trig} (h : s.Inv ω) : (execCaptureTrigger trig s).Inv ω := by
  refine .next ?_
  split
  · exact .captureTrigger h
  · exact .captureTrigger h
theorem State.Inv.drainSegment {i} (h : s.Inv ω) : (s.drainSegment i).Inv ω := .celAsk (.wr (.memWrite h))
theorem execCaptureSegmentFilled_inv (h : s.Inv ω) : (execCaptureSegmentFilled s).Inv ω := by
  refine .next ?_
  split
  · exact h
  · exact .ite (.drainSegment h) h
theorem State.Inv.stopCapture {i} (h : s.Inv ω) : (s.stopCapture i).Inv ω :=
  .ite (.ite (.endCapture h) (.iteL (.upd h rfl) (fun h => .wr (.drainSegment h)))) h
theorem execCaptureStop_inv {i} (h : s.Inv ω) : (execCaptureStop i s).Inv ω := .next (.stopCapture h)

/-! ### Blocks -/

theorem State.Inv.putBlock {b w} (h : s.Inv ω) : (s.putBlock b w).Inv ω := h.of_memWf (State.putBlock_memWf _ _ _) rfl rfl
theorem State.Inv.openLine {b} (h : s.Inv ω) : (s.openLine b).Inv ω :=
  .ite h (.count (.withCel h fun hc => Cel.wf_putLine _ _ (Cel.wf_filterBlocks _ _ hc)))
theorem State.Inv.celCorrected {region ch loc} (h : s.Inv ω) : (s.celCorrected region ch loc).Inv ω :=
  .wr (.wr (.wr (.count h)))
theorem State.Inv.celPoisoned {region ch loc} (h : s.Inv ω) : (s.celPoisoned region ch loc).Inv ω := by
  unfold State.celPoisoned
  exact .raise (.wr (.wr (.wr (.count h))))
theorem State.Inv.writeGroups {b bytes} (h : s.Inv ω) : (s.writeGroups b bytes).Inv ω := .forEach (fun _ _ h => .putBlock h) h
theorem State.Inv.readBlock {b errs} (h : s.Inv ω) : (s.readBlock b errs).2.2.2.Inv ω := by
  unfold State.readBlock
  dsimp only
  split
  · exact .count h
  · split
    · exact h
    · exact .celCorrected (.putBlock h)
    · dsimp only
      exact .celPoisoned (.putBlock h)
theorem State.Inv.readBlocks {errs bs} (h : s.Inv ω) : (s.readBlocks errs bs).2.2.2.Inv ω := by
  induction bs generalizing s with
  | nil => exact h
  | cons b bs ih => exact ih (.readBlock h)
theorem State.Inv.writeRing {b off bytes} (h : s.Inv ω) : (s.writeRing b off bytes).Inv ω :=
  .withCel (.putBlock h) (Cel.wf_putLine _ _)
theorem State.Inv.writeRings {a bytes} (h : s.Inv ω) : (s.writeRings a bytes).Inv ω :=
  .iteR (.writeRing h) (fun h => .writeRing h)
theorem State.Inv.writeBlock {b data} (h : s.Inv ω) : (s.writeBlock b data).Inv ω := .putBlock (.openLine h)
theorem State.Inv.writePart {b off bytes} (h : s.Inv ω) : (s.writePart b off bytes).Inv ω := by
  unfold State.writePart
  dsimp only
  split
  · exact .putBlock (.openLine h)
  · exact .putBlock (.celCorrected (.openLine h))
  · exact .count (.openLine h)

/-! ### Candidates -/

theorem State.Inv.unmeasured (h : s.Inv ω) : (s.unmeasured).Inv ω := .forEach (fun _ _ h => .ite (.wr h) h) h
theorem State.Inv.cmdFails (h : s.Inv ω) : (s.cmdFails).Inv ω := .wr (.wr h)
theorem State.Inv.candStep {i st} (h : s.Inv ω) : (s.candStep i st).Inv ω :=
  .iteL (.wr h) (fun h => .ite (.ite (.wr h) (.ite (.wr h) (.ite (.wr h) h)))
    (.ite (.ite (.wr h) h) (.iteR (.ite (.cmdFails h) h) (fun h => .wr h))))
theorem State.Inv.candLost {i} (h : s.Inv ω) : (s.candLost i).Inv ω := .ite h (.raise (.candStep (.wr (.wr h))))

/-! ### Receive -/

theorem State.Inv.setDsp {i d} (h : s.Inv ω) : (s.setDsp i d).Inv ω := .setRx h
theorem State.Inv.syncNone {i} (h : s.Inv ω) : (s.syncNone i).Inv ω := .setAlign (.wr h)
theorem State.Inv.frameOut {i} (h : s.Inv ω) : (s.frameOut i).Inv ω := .setLfr (.wr (.wr (.wr (.ite (.count h) h))))
theorem State.Inv.clearTaps {i} (h : s.Inv ω) : (s.clearTaps i).Inv ω := .forEach (fun _ _ h => .wr h) h
theorem State.Inv.enterDsp {i st} (h : s.Inv ω) : (s.enterDsp i st).Inv ω := .setDsp h
theorem State.Inv.toAcq {i st} (h : s.Inv ω) : (s.toAcq i st).Inv ω :=
  .iteL (.iteL (.enterDsp (.iteL (.iteL (.wr (.wr h)) (fun h => .setRx h)) (fun h => .setRx h))) (fun h => .clearTaps h))
    (fun h => .iteR (.candLost (.frameOut (.syncNone h))) (fun h => .raise h))
theorem State.Inv.acqLit {i} (h : s.Inv ω) : (s.acqLit i).Inv ω := .toAcq (.wr (.setRx h))
theorem State.Inv.acqRestart {i} (h : s.Inv ω) : (s.acqRestart i).Inv ω := .ite h (.toAcq h)
theorem State.Inv.enterCd {i} (h : s.Inv ω) : (s.enterCd i).Inv ω := .setRx (.toAcq h)
theorem State.Inv.acqFail {i} (h : s.Inv ω) : (s.acqFail i).Inv ω := .iteL (.enterCd (.wr (.addSat h))) (fun h => .setRx h)
theorem State.Inv.acqMove {i frm dest} (h : s.Inv ω) : (s.acqMove i frm dest).Inv ω := .ite (.toAcq h) h
theorem State.Inv.syncSearch {i} (h : s.Inv ω) : (s.syncSearch i).Inv ω := .setAlign (.wr (.wr h))
theorem State.Inv.rxMode {i} (h : s.Inv ω) : (s.rxMode i).Inv ω := .ite (.wr h) h
theorem State.Inv.rxCheck {i} (h : s.Inv ω) : (s.rxCheck i).Inv ω := .rxMode (.ite (.wr h) h)
theorem State.Inv.resizeEq {i} (h : s.Inv ω) : (s.resizeEq i).Inv ω := .setDsp h
theorem State.Inv.rxCommit {old i} (h : s.Inv ω) : (s.rxCommit old i).Inv ω :=
  .ite h (.ite (.rxCheck (.ite (.resizeEq h) h)) (.rxMode (.ite (.resizeEq h) h)))
theorem State.Inv.newBlocks {i} (h : s.Inv ω) : (s.newBlocks i).Inv ω := .setAlign (.wr h)
theorem State.Inv.rxdGo {img i} (h : s.Inv ω) : (s.rxdGo img i).Inv ω :=
  .ite (.acqRestart (.setRx h)) (.iteL (.setRx h) (fun h => .newBlocks h))
theorem State.Inv.rxdNext {img i} (h : s.Inv ω) : (s.rxdNext img i).Inv ω :=
  .ite (.ite (.setRx h) (.iteL (.rxdGo h) (fun h => .toAcq h))) (.rxdGo h)

/-! ### Chain -/

theorem State.Inv.frontEnd {i own samples} (h : s.Inv ω) : (s.frontEnd i own samples).2.Inv ω := .setDsp h
theorem State.Inv.countSat {i n} (h : s.Inv ω) : (s.countSat i n).Inv ω := .ite h (.wr (.count h))
theorem State.Inv.countSlips {i n} (h : s.Inv ω) : (s.countSlips i n).Inv ω := .ite h (.wr (.count h))
theorem State.Inv.rxdWrap {i} (h : s.Inv ω) : (s.rxdWrap i).Inv ω := .iteR (.setAlign h) (fun h => .rxdGo h)
theorem State.Inv.rxBlock {i samples} (h : s.Inv ω) : (s.rxBlock i samples).2.2.Inv ω :=
  .countSlips (.countSat (.memRead (.memWrite (.iteL (.upd (.setDsp (.frontEnd h)) rfl) (fun h => .rxdWrap h)))))
theorem State.Inv.blindFrame {i n timed} (h : s.Inv ω) : (s.blindFrame i n timed).Inv ω := .countSat (.setDsp h)
theorem State.Inv.offsetFrame {i n timed} (h : s.Inv ω) : (s.offsetFrame i n timed).Inv ω := .ite h (.setDsp h)
theorem State.Inv.acquireFrame {i samples} (h : s.Inv ω) : (s.acquireFrame i samples).Inv ω :=
  .ite (.setDsp h) (.ite h (.ite (.countSat (.frontEnd h)) (.ite (.blindFrame (.frontEnd h))
    (.countSlips (.countSat (.setDsp (.iteL (.frontEnd h) (fun h => .offsetFrame h))))))))

/-! ### Coding -/

theorem State.Inv.poolRecompute (h : s.Inv ω) : (s.poolRecompute).Inv ω :=
  .iteL (.forEach (fun _ _ h => .ite (.wr (.wr h)) (.wr (.wr h))) (.wr (.wr h))) (fun h => .raise h)
theorem State.Inv.poolMarks (h : s.Inv ω) : (s.poolMarks).Inv ω := .iteL (.wr h) (fun h => .wr h)
theorem State.Inv.leavePool {b why} (h : s.Inv ω) : (s.leavePool b why).Inv ω := by
  unfold State.leavePool
  dsimp only
  refine .iteR (.memWrite (.upd (.iteTwice ?_ (fun h => .setAlign h) (fun h => .setAlign h)) rfl)) (fun h => .count h)
  split
  · exact .iteL (.wr (.count (.iteL (.iteL (.count h) (fun h => .count h)) (fun h => .wr (.count h))))) (fun h => .upd h rfl)
  · exact .wr (.count (.iteL (.iteL (.count h) (fun h => .count h)) (fun h => .wr (.count h))))
  · exact .wr (.count (.iteL (.iteL (.count h) (fun h => .count h)) (fun h => .wr (.count h))))
  · exact .iteL (.iteL (.count h) (fun h => .count h)) (fun h => .wr (.count h))
theorem State.Inv.takeGuar {i} (h : s.Inv ω) : (s.takeGuar i).2.Inv ω := .upd h rfl
theorem State.Inv.alignBlock {i} (h : s.Inv ω) : (s.alignBlock i).Inv ω := .setDsp h
theorem State.Inv.addBlock {b} (h : s.Inv ω) : (s.addBlock b).Inv ω := .upd h rfl
theorem execBlockArrival_inv {i samples} (h : s.Inv ω) : (execBlockArrival i samples s).Inv ω := by
  refine .next ?_
  refine .ite ?_ h
  split
  · next hr =>
      dsimp only
      refine .ite (.poolMarks (.addBlock (.memWrite (.upd (.rxBlock (.setAlign (.of_snd hr (.takeGuar h)))) rfl)))) ?_
      split
      · exact .poolMarks (.addBlock (.memWrite (.leavePool (.upd (.rxBlock (.setAlign (.of_snd hr (.takeGuar h)))) rfl))))
      · exact .leavePool (.upd (.rxBlock (.setAlign (.of_snd hr (.takeGuar h)))) rfl)
theorem State.Inv.readContexts {bs} (h : s.Inv ω) : (s.readContexts bs).2.Inv ω := by
  induction bs generalizing s with
  | nil => exact h
  | cons b bs ih => exact ih (.iteR (.memRead h) (fun h => .memWrite h))
theorem execIterationSlot_inv (h : s.Inv ω) : (execIterationSlot s).Inv ω := by
  refine .next ?_
  split
  · split
    · next hr =>
        dsimp only
        refine .poolMarks (.wr (.forEach (fun _ _ h => ?_) (.upd (.forEach (fun _ _ h => .count h)
          (.forEach (fun _ _ h => .leavePool h) (.of_snd hr (.readContexts h)))) rfl)))
        split
        · exact .leavePool h
        · exact h
theorem execReorderRelease_inv {i} (h : s.Inv ω) : (execReorderRelease i s).Inv ω := by
  refine .next ?_
  split
  · exact h
  · exact .iteL (.memRead (.upd h rfl)) (fun h => .setAlign (.iteL (.setLfr h) (fun h => .count h)))
theorem execBlockSyncTrial_inv {i} (h : s.Inv ω) : (execBlockSyncTrial i s).Inv ω :=
  .next (.ite (.ite (.raise (.setAlign (.wr h))) (.alignBlock (.setAlign (.wr h)))) h)
theorem State.Inv.syncLost {i} (h : s.Inv ω) : (s.syncLost i).Inv ω := .raise (.wr (.alignBlock (.syncSearch h)))
theorem execOuterGroupDecode_inv {i} (h : s.Inv ω) : (execOuterGroupDecode i s).Inv ω := by
  refine .next ?_
  dsimp only
  split
  · exact h
  · exact .ite (.setAlign (.setLfr (.iteL (.iteL (.iteL (.count (.count (.count h))) (fun h => .wr h)) (fun h => .wr h))
      (fun h => .upd h rfl)))) h
theorem State.Inv.lowMargin {i m} (h : s.Inv ω) : (s.lowMargin i m).Inv ω := .upd h rfl
theorem execMarginInterval_inv {i} (h : s.Inv ω) : (execMarginInterval i s).Inv ω :=
  .next (.iteL (.upd h rfl) (fun h => .ite (.wr h) (.lowMargin (.wr (.wr h)))))

/-! ### Tendril -/

theorem State.Inv.tdlQueue {i typ body} (h : s.Inv ω) : (s.tdlQueue i typ body).Inv ω := .ite (.setTdl h) h
theorem execTendrilPacketStart_inv {i} (h : s.Inv ω) : (execTendrilPacketStart i s).Inv ω := by
  refine .next ?_
  dsimp only
  split
  · exact .ite (.setTdl h) h
  · exact h
theorem execHelloInterval_inv {i} (h : s.Inv ω) : (execHelloInterval i s).Inv ω := .next (.ite (.tdlQueue h) h)
theorem State.Inv.reportOne {i sf t} (h : s.Inv ω) : (s.reportOne i sf t).Inv ω := .ite (.setDsp h) (.setDsp h)
theorem State.Inv.report {i decided} (h : s.Inv ω) : (s.report i decided).Inv ω := by
  unfold State.report
  split
  · exact .setTdl (.forEach (fun _ _ h => .reportOne h) h)
  · exact h
theorem State.Inv.startReception {i d} (h : s.Inv ω) : (s.startReception i d).Inv ω :=
  .wr (.wr (.wr (.wr (.setTdl (.setDsp h)))))
theorem State.Inv.detect {i d} (h : s.Inv ω) : (s.detect i d).Inv ω := by
  unfold State.detect
  split
  · exact .startReception h
  · exact .ite h (.ite (.startReception (.wr (.count h))) (.wr (.count h)))
theorem execTendrilDetection_inv {i cands} (h : s.Inv ω) : (execTendrilDetection i cands s).Inv ω := by
  refine .next ?_
  refine .ite ?_ h
  dsimp only
  split
  · exact .detect (.ite h (.count h))
  · exact .ite h (.count h)
theorem State.Inv.endReception {i} (h : s.Inv ω) : (s.endReception i).Inv ω := .wr (.setTdl h)
theorem State.Inv.badHeader {i} (h : s.Inv ω) : (s.badHeader i).Inv ω := .wr (.count h)
theorem State.Inv.takeHeader {i r} (h : s.Inv ω) : (s.takeHeader i r).Inv ω := by
  unfold State.takeHeader
  split
  · exact .badHeader (.endReception h)
  · exact .ite (.badHeader (.endReception h)) (.setTdl h)
theorem execTendrilHeaderDecode_inv {i decided} (h : s.Inv ω) : (execTendrilHeaderDecode i decided s).Inv ω := by
  refine .next ?_
  dsimp only
  split
  · exact .iteL (.report h) (fun h => .takeHeader h)
  · exact .report h
theorem State.Inv.goodPacket {i x payload} (h : s.Inv ω) : (s.goodPacket i x payload).Inv ω :=
  .ite (.badHeader (.setTdl h)) (.iteR (.count (.setTdl h)) (fun h => .setTdl h))
theorem State.Inv.takeBody {i x got} (h : s.Inv ω) : (s.takeBody i x got).Inv ω :=
  .ite (.goodPacket (.endReception h)) (.wr (.count (.endReception h)))
theorem execTendrilReceptionEnd_inv {i decided} (h : s.Inv ω) : (execTendrilReceptionEnd i decided s).Inv ω := by
  refine .next ?_
  dsimp only
  split
  · split
    · exact .iteL (.report h) (fun h => .takeBody h)
    · exact .report h
  · exact .report h
theorem State.Inv.tdlPop {i} (h : s.Inv ω) : (s.tdlPop i).Inv ω := .setTdl h
theorem execHello_inv {i} (h : s.Inv ω) : (execHello i s).Inv ω := by
  refine .next ?_
  split
  · exact .tdlPop h
  · exact h
theorem execSwitch_inv {i} (h : s.Inv ω) : (execSwitch i s).Inv ω := by
  refine .next ?_
  split
  · exact .raise (.tdlPop h)
  · exact h
theorem execMailboxGo_inv {i} (h : s.Inv ω) : (execMailboxGo i s).Inv ω := .next (.ite h (.ite (.wr h) (.wr (.setTdl h))))
theorem execMailboxRelease_inv {i} (h : s.Inv ω) : (execMailboxRelease i s).Inv ω := .next (.ite h (.wr h))
theorem execMailboxPacketRx_inv {i} (h : s.Inv ω) : (execMailboxPacketRx i s).Inv ω := by
  refine .next ?_
  split
  · exact .ite (.wr (.tdlPop h)) (.raise (.wr (.wr (.wr (.wr (.forEach (fun _ _ h => .wr h) (.tdlPop h)))))))
  · exact h

end Sys2Proof.Machine
end

section
/-!
The operations of the transmit path, the ciphers and the clients keep both invariants, in the order of the model's files.
-/

namespace Sys2Proof.Machine

variable {ω : Watch} {s t : State}

/-! ### Transmit -/

theorem State.Inv.maskBin {i b level} (h : s.Inv ω) : (s.maskBin i b level).Inv ω :=
  .iteL (.setTx (.wr h)) (fun h => .ite (.raise (.wr h)) (.setTx (.wr h)))
theorem State.Inv.maskFrame {i psd} (h : s.Inv ω) : (s.maskFrame i psd).Inv ω := .wr (.forEach (fun _ _ h => .maskBin h) h)
theorem State.Inv.ampFrame {i} (h : s.Inv ω) : (s.ampFrame i).Inv ω := .wr (.setTx (.ite (.setTx h) h))
theorem State.Inv.txCheck {i} (h : s.Inv ω) : (s.txCheck i).Inv ω := .ite (.wr h) h
theorem State.Inv.txCommit {i} (h : s.Inv ω) : (s.txCommit i).Inv ω := .ite h (.peCheck (.txCheck h))
theorem State.Inv.newStream {i} (h : s.Inv ω) : (s.newStream i).Inv ω := .setLfr (.setTx h)
theorem execRateMuteStart_inv {i} (h : s.Inv ω) : (execRateMuteStart i s).Inv ω := by
  refine .next ?_
  split
  · exact .ite (.setTx h) h
  · exact h
theorem execSynthRelock_inv {i} (h : s.Inv ω) : (execSynthRelock i s).Inv ω := by
  refine .next ?_
  dsimp only
  split
  · exact .setTx h
  · exact .setTx h
  · exact h

/-! ### Frame -/

theorem State.Inv.txFrame {i} (h : s.Inv ω) : (s.txFrame i).Inv ω := .wr (.setLfr h)
theorem execBlockSyncLost_inv {i} (h : s.Inv ω) : (execBlockSyncLost i s).Inv ω :=
  .next (.ite (.setLfr (.frameOut (.syncLost h))) h)
theorem State.Inv.fasSearch {i} (h : s.Inv ω) : (s.fasSearch i).Inv ω := by
  unfold State.fasSearch
  dsimp only
  split
  · exact .wr (.setLfr h)
  · exact .setLfr h
theorem State.Inv.frameIn {i} (h : s.Inv ω) : (s.frameIn i).Inv ω := .wr (.setLfr h)
theorem State.Inv.fasTest {i cand} (h : s.Inv ω) : (s.fasTest i cand).Inv ω :=
  .ite h (.ite (.ite (.frameIn (.setLfr h)) (.setLfr h)) (.wr (.setLfr h)))
theorem execFasCandidateCheck_inv {i} (h : s.Inv ω) : (execFasCandidateCheck i s).Inv ω := by
  refine .next ?_
  refine .ite ?_ h
  split
  · exact .ite (.fasTest h) h
  · exact .ite (.fasSearch h) h
theorem State.Inv.frameDone {i} (h : s.Inv ω) : (s.frameDone i).Inv ω := .setLfr (.memRead (.memWrite h))
theorem execOutOfFrame_inv {i} (h : s.Inv ω) : (execOutOfFrame i s).Inv ω :=
  .next (.ite (.ite (.setLfr (.frameDone h)) (.ite (.frameOut (.frameDone h)) (.setLfr (.frameDone h)))) h)
theorem State.Inv.rxCount {i} (h : s.Inv ω) : (s.rxCount i).Inv ω := .ite (.wr h) h
theorem State.Inv.multiOut {i mf} (h : s.Inv ω) : (s.multiOut i mf).Inv ω := .wr (.wr (.setLfr h))
theorem State.Inv.setSymbols {i mf} (h : s.Inv ω) : (s.setSymbols i mf).Inv ω := by
  unfold State.setSymbols
  dsimp only
  split
  · exact .setDsp h
  · exact h
theorem execMultiframeAlign_inv {i} (h : s.Inv ω) : (execMultiframeAlign i s).Inv ω := by
  refine .next ?_
  dsimp only
  refine .ite ?_ h
  split
  · exact .setLfr h
  · exact .ite (.ite (.rxCount (.setLfr h)) (.ite (.multiOut (.setLfr h)) (.rxCount (.setLfr h))))
      (.ite (.wr (.setSymbols (.setRx (.setLfr h)))) (.setLfr h))
theorem execFalseLock_inv {i} (h : s.Inv ω) : (execFalseLock i s).Inv ω :=
  .next (.ite (.setLfr (.frameOut (.raise (.wr (.count h))))) h)
theorem execSfcAdopt_inv {i} (h : s.Inv ω) : (execSfcAdopt i s).Inv ω :=
  .next (.ite (.ite (.ite (.iteR (.setLfr (.setLfr h)) (fun h => .ite (.wr (.wr h)) (.setLfr (.setLfr h))))
    (.iteL (.setLfr h) (fun h => .wr (.wr (.setLfr h))))) (.setLfr h)) h)
theorem execDelayBlockRx_inv {i rxRef} (h : s.Inv ω) : (execDelayBlockRx i rxRef s).Inv ω :=
  .next (.ite (.ite (.wr (.setLfr h)) (.wr (.setLfr h))) h)
theorem execSsfHoldoffExpiry_inv {i} (h : s.Inv ω) : (execSsfHoldoffExpiry i s).Inv ω := .next (.ite (.setLfr h) h)

/-! ### Map -/

theorem State.Inv.setMem {c i x} (h : s.Inv ω) : (s.setMem c i x).Inv ω := .upd h rfl
theorem State.Inv.setChan {c x} (h : s.Inv ω) : (s.setChan c x).Inv ω := .upd h rfl
theorem State.Inv.setCipCh {c x} (h : s.Inv ω) : (s.setCipCh c x).Inv ω := .upd h rfl
theorem State.Inv.reportDelay {c} (h : s.Inv ω) : (s.reportDelay c).Inv ω := .forEach (fun _ _ h => .ite (.wr h) h) (.wr h)
theorem State.Inv.declareSkew {c d} (h : s.Inv ω) : (s.declareSkew c d).Inv ω := .wr (.setMem h)
theorem State.Inv.placeMember {c d} (h : s.Inv ω) : (s.placeMember c d).Inv ω := .ite (.declareSkew h) (.setMem h)
theorem State.Inv.judgeSkew {c} (h : s.Inv ω) : (s.judgeSkew c).Inv ω := .forEach (fun _ _ h => .ite (.declareSkew h) h) h
theorem State.Inv.adoptNumber {c d ctr arr} (h : s.Inv ω) : (s.adoptNumber c d ctr arr).Inv ω :=
  .ite (.iteL (.wr (.setMem h)) (fun h => .reportDelay (.placeMember h))) (.setMem h)
theorem execMemberNumberingAdopt_inv {c m arr} (h : s.Inv ω) : (execMemberNumberingAdopt c m arr s).Inv ω := by
  refine .next ?_
  split
  · exact h
  · split
    · exact .ite (.adoptNumber h) h
    · exact h
theorem State.Inv.newRing {i k n} (h : s.Inv ω) : (s.newRing i k n).1.Inv ω := .upd h rfl
theorem State.Inv.ringOf {i k n} (h : s.Inv ω) : (s.ringOf i k n).1.Inv ω := by
  unfold State.ringOf
  dsimp only
  split
  · exact h
  · exact .newRing h
theorem State.Inv.writeSpill {i c m ks f} (h : s.Inv ω) : (s.writeSpill i c m ks f).2.Inv ω := by
  unfold State.writeSpill
  dsimp only
  split
  · exact .celAsk (.writeRings (.foldl (fun _ _ h => .writeRings (.ringOf h)) h))
  · exact h
theorem State.Inv.storeMember {i c m d ks} (h : s.Inv ω) : (s.storeMember i c m d ks).Inv ω := by
  unfold State.storeMember
  dsimp only
  refine .ite (.iteL (.setMem h) (fun h => .setMem ?_)) h
  split
  · exact .writeSpill h
  · exact .memWrite h
theorem State.Inv.storeFrame {i} (h : s.Inv ω) : (s.storeFrame i).Inv ω := by
  unfold State.storeFrame
  dsimp only
  refine .forEach (fun _ _ h => ?_) h
  split
  · exact .storeMember h
  · exact h
theorem State.Inv.memsLost {i} (h : s.Inv ω) : (s.memsLost i).Inv ω := by
  unfold State.memsLost
  refine .forEach (fun _ _ h => .ite ?_ h) h
  dsimp only
  split
  · exact .wr (.setMem h)
  · exact .setMem h
theorem State.Inv.coverAll {c ds kept} (h : s.Inv ω) : (s.coverAll c ds kept).Inv ω := by
  induction ds generalizing s kept with
  | nil => exact h
  | cons d ds ih =>
    unfold State.coverAll
    exact .ite (ih (.setChan h)) (ih (.declareSkew h))
theorem State.Inv.setCsf {c v} (h : s.Inv ω) : (s.setCsf c v).Inv ω := .ite h (.raise (.wr h))
theorem State.Inv.measure {c} (h : s.Inv ω) : (s.measure c).Inv ω :=
  .setCsf (.wr (.setCipCh (.forEach (fun _ _ h => .setMem h) h)))
theorem execMeasuringEnd_inv {c late} (h : s.Inv ω) : (execMeasuringEnd c late s).Inv ω :=
  .next (.ite (.reportDelay (.wr (.setChan (.coverAll (.setChan h))))) h)
theorem execDcGrowthStep_inv {c} (h : s.Inv ω) : (execDcGrowthStep c s).Inv ω :=
  .next (.ite (.ite (.reportDelay (.judgeSkew (.count (.setChan (.judgeSkew h))))) (.reportDelay (.judgeSkew h))) h)
theorem State.Inv.reportLegs {c} (h : s.Inv ω) : (s.reportLegs c).Inv ω :=
  .wr (.wr (.wr (.wr (.forEach (fun _ _ h => .wr h) h))))
theorem State.Inv.readMember {c d errs} (h : s.Inv ω) : (s.readMember c d errs).2.Inv ω := by
  unfold State.readMember
  split
  · exact h
  · split
    · split
      · exact .celAsk (.celAsk (.readBlocks h))
      · exact h
    · exact .memRead h
theorem State.Inv.readMembers {c errs ds} (h : s.Inv ω) : (s.readMembers c errs ds).2.Inv ω := by
  induction ds generalizing s with
  | nil => exact h
  | cons d ds ih => exact ih (.readMember h)
theorem State.Inv.renumber {c} (h : s.Inv ω) : (s.renumber c).Inv ω := by
  unfold State.renumber
  split
  · exact h
  · exact .ite (.setChan (.setCipCh (.forEach (fun _ _ h => .setMem h) h))) h
theorem State.Inv.outputFrame {c errs} (h : s.Inv ω) : (s.outputFrame c errs).2.Inv ω := by
  unfold State.outputFrame
  split
  · exact .setCsf (.iteL (.iteR (.setChan (.forEach (fun _ _ h => .setMem h) (.upd (.readMembers h) rfl))) (fun h => .count h))
      (fun h => .count h))
  · exact h
theorem State.Inv.selectLeg {c b} (h : s.Inv ω) : (s.selectLeg c b).Inv ω := .ite h (.raise (.count (.wr h)))
theorem State.Inv.psMirror {was c} (h : s.Inv ω) : (s.psMirror was c).Inv ω := .ite h (.mirror h)
theorem State.Inv.evalSelector {c} (h : s.Inv ω) : (s.evalSelector c).Inv ω :=
  .selectLeg (.psMirror (.iteR (.wr (.iteL (.reportLegs h) (fun h => .setChan h))) (fun h => .wr h)))
theorem execSelectorEvaluation_inv {c} (h : s.Inv ω) : (execSelectorEvaluation c s).Inv ω :=
  .next (.ite h (.iteL (.evalSelector h) (fun h => .measure h)))
theorem State.Inv.psCommand {c code} (h : s.Inv ω) : (s.psCommand c code).Inv ω := .ite (.wr h) (.psMirror (.setChan h))
theorem State.Inv.psGo {c code} (h : s.Inv ω) : (s.psGo c code).Inv ω := .whenOpen (fun _ h => .psCommand (.wr h)) h
theorem execPsClear_inv {c} (h : s.Inv ω) : (execPsClear c s).Inv ω := .next (.psGo h)
theorem execPsLockout_inv {c} (h : s.Inv ω) : (execPsLockout c s).Inv ω := .next (.psGo h)
theorem execPsForcedSwitch_inv {c} (h : s.Inv ω) : (execPsForcedSwitch c s).Inv ω := .next (.psGo h)
theorem execPsManualA_inv {c} (h : s.Inv ω) : (execPsManualA c s).Inv ω := .next (.psGo h)
theorem execPsManualB_inv {c} (h : s.Inv ω) : (execPsManualB c s).Inv ω := .next (.psGo h)
theorem State.Inv.psMirrored {c code wtr} (h : s.Inv ω) : (s.psMirrored c code wtr).Inv ω := .wr (.setChan h)
theorem execRealign_inv {c} (h : s.Inv ω) : (execRealign c s).Inv ω := .next (.whenOpen (fun _ h => .ite h (.measure h)) h)
theorem execWtrExpiry_inv {c} (h : s.Inv ω) : (execWtrExpiry c s).Inv ω := .next (.ite (.selectLeg (.psMirror (.wr (.wr h)))) h)
theorem State.Inv.judgeRecord {c d r} (h : s.Inv ω) : (s.judgeRecord c d r).Inv ω :=
  .ite (.iteL (.setMem (.ite (.wr (.wr (.wr h))) h)) (fun h => .raise (.wr h))) (.setMem (.ite (.wr (.wr (.wr h))) h))
theorem execMemberMismatch_inv {c m} (h : s.Inv ω) : (execMemberMismatch c m s).Inv ω := by
  refine .next ?_
  split
  · exact h
  · split
    · exact .ite (.judgeRecord h) h
    · exact h
theorem State.Inv.reportMembers {c} (h : s.Inv ω) : (s.reportMembers c).Inv ω := .forEach (fun _ _ h => .wr (.wr (.wr h))) h
theorem State.Inv.cipEpoch {c} (h : s.Inv ω) : (s.cipEpoch c).Inv ω := .ite (.wr h) (.setCipCh h)
theorem State.Inv.mapChannel {old img c} (h : s.Inv ω) : (s.mapChannel old img c).Inv ω :=
  .ite (.iteR (.reportMembers (.cipEpoch (.forEach (fun _ _ h => .ite (.setMem h) h) (.setChan h))))
    (fun h => .forEach (fun _ _ h => .wr h) (.reportMembers (.setChan (.forEach (fun _ _ h => .setMem h) (.setCsf h))))))
      (.ite (.measure (.reportMembers (.cipEpoch (.forEach (fun _ _ h => .ite (.setMem h) h) (.setChan h)))))
        (.evalSelector (.iteL (.iteL (.iteL (.reportMembers (.cipEpoch (.forEach (fun _ _ h => .ite (.setMem h) h)
          (.setChan h)))) (fun h => .psMirror (.setChan h))) (fun h => .selectLeg h)) (fun h => .reportDelay (.judgeSkew h)))))
theorem State.Inv.turnChannel {c} (h : s.Inv ω) : (s.turnChannel c).Inv ω := .ite (.mapChannel h) h
theorem State.Inv.rxFollow {img i} (h : s.Inv ω) : (s.rxFollow img i).Inv ω :=
  .forEach (fun _ _ h => .ite (.setChan h) (.ite (.turnChannel (.setChan h)) h)) h
theorem State.Inv.mapCommit {old early} (h : s.Inv ω) : (s.mapCommit old early).Inv ω :=
  .wr (.wr (.forEach (fun _ _ h => .ite (.setChan h) (.ite (.setChan h) (.ite (.turnChannel (.setChan h)) (.mapChannel h)))) h))
theorem State.Inv.mapMeasureAll (h : s.Inv ω) : (s.mapMeasureAll).Inv ω := .forEach (fun _ _ h => .ite h (.measure h)) h

/-! ### Cipher -/

theorem State.Inv.setSlot {n x} (h : s.Inv ω) : (s.setSlot n x).Inv ω := .upd h rfl
theorem State.Inv.setCipTx {c x} (h : s.Inv ω) : (s.setCipTx c x).Inv ω := .upd h rfl
theorem State.Inv.setSvc {f x} (h : s.Inv ω) : (s.setSvc f x).Inv ω := .upd h rfl
theorem State.Inv.keyRead {n} (h : s.Inv ω) : (s.keyRead n).2.2.Inv ω := by
  unfold State.keyRead
  dsimp only
  split
  · exact .wr (.wr (.memRead h))
  · exact .memRead h
theorem State.Inv.keyStatus {f code} (h : s.Inv ω) : (s.keyStatus f code).Inv ω := .wr h
theorem State.Inv.fillSlot {n use f key} (h : s.Inv ω) : (s.fillSlot n use f key).Inv ω :=
  .wr (.wr (.wr (.wr (.setSlot (.memWrite h)))))
theorem State.Inv.mirrorSlot {n} (h : s.Inv ω) : (s.mirrorSlot n).Inv ω := by
  unfold State.mirrorSlot
  split
  · exact .mirror h
  · exact h
theorem State.Inv.clearSlot {n} (h : s.Inv ω) : (s.clearSlot n).Inv ω := .wr (.wr (.wr (.wr (.setSlot (.memWrite h)))))
theorem execKeyLoadSlot_inv {f} (h : s.Inv ω) : (execKeyLoadSlot f s).Inv ω := by
  refine .next ?_
  refine .whenOpen (fun _ h => ?_) h
  dsimp only
  refine .ite (.keyStatus h) (.ite (.keyStatus h) (.iteR (.keyStatus h) (fun h => ?_)))
  split
  · exact h
  · refine .iteR (.keyStatus h) (fun h => ?_)
    split
    · exact h
    · exact .keyStatus (.mirrorSlot (.fillSlot h))
theorem execKeyEraseSlot_inv {f} (h : s.Inv ω) : (execKeyEraseSlot f s).Inv ω :=
  .next (.whenOpen (fun _ h => .ite (.keyStatus h) (.ite (.keyStatus h) (.keyStatus (.clearSlot h)))) h)
theorem State.Inv.setKek {g k} (h : s.Inv ω) : (s.setKek g k).Inv ω := .wr (.upd h rfl)
theorem execKekLoad_inv {f} (h : s.Inv ω) : (execKekLoad f s).Inv ω := by
  refine .next ?_
  refine .whenOpen (fun _ h => ?_) h
  dsimp only
  refine .ite (.keyStatus h) ?_
  split
  · exact .keyStatus h
  · split
    · exact .keyStatus h
    · exact .ite (.keyStatus h) (.keyStatus (.setKek h))
theorem execKekErase_inv {f} (h : s.Inv ω) : (execKekErase f s).Inv ω :=
  .next (.whenOpen (fun _ h => .ite (.keyStatus h) (.ite (.keyStatus h) (.keyStatus (.setKek h)))) h)
theorem State.Inv.setMfc {c d n} (h : s.Inv ω) : (s.setMfc c d n).Inv ω := .wr (.wr h)
theorem State.Inv.cipMultiframe (h : s.Inv ω) : (s.cipMultiframe).Inv ω :=
  .forEach (fun _ _ h => .ite (.wr (.count (.setMfc h))) h) h
theorem State.Inv.mirrorGrids (h : s.Inv ω) : (s.mirrorGrids).Inv ω := .mirror h
theorem State.Inv.cipTakeover (h : s.Inv ω) : (s.cipTakeover).Inv ω := .forEach (fun _ _ h => .setMfc h) h
theorem State.Inv.setAuth {c v} (h : s.Inv ω) : (s.setAuth c v).Inv ω := .ite h (.raise (.wr h))
theorem State.Inv.authFails {c} (h : s.Inv ω) : (s.authFails c).Inv ω :=
  .iteL (.wr (.count (.setCipCh h))) (fun h => .setAuth h)
theorem State.Inv.authOk {c ctr} (h : s.Inv ω) : (s.authOk c ctr).Inv ω := .iteL (.setMfc (.setCipCh h)) (fun h => .setAuth h)
theorem State.Inv.rxBegin {c n} (h : s.Inv ω) : (s.rxBegin c n).2.Inv ω := .keyRead h
theorem State.Inv.cipFrame {c f csf} (h : s.Inv ω) : (s.cipFrame c f csf).Inv ω := by
  unfold State.cipFrame
  dsimp only
  refine .setCipCh ?_
  split
  · exact .rxBegin h
  · exact h
theorem State.Inv.judgeMessage {c n r} (h : s.Inv ω) : (s.judgeMessage c n r).Inv ω :=
  .ite (.ite (.setChan (.setCipCh (.authFails (.wr (.count (.ite (.wr (.count h)) h))))))
    (.setCipCh (.authFails (.wr (.count (.ite (.wr (.count h)) h)))))) (.ite (.authFails (.setCipCh (.ite (.wr (.count h)) h)))
      (.authOk (.setCipCh (.ite (.wr (.count h)) h))))
theorem execChannelMessageVerify_inv {c} (h : s.Inv ω) : (execChannelMessageVerify c s).Inv ω := by
  refine .next ?_
  refine .ite h ?_
  dsimp only
  split
  · exact .ite (.judgeMessage (.setCipCh (.count h))) (.count (.setCipCh (.count h)))
  · exact .count (.setCipCh (.count h))
theorem State.Inv.askSvc {f} (h : s.Inv ω) : (s.askSvc f).Inv ω := .ite h (.upd h rfl)
theorem execMsgQueueGo_inv {f} (h : s.Inv ω) : (execMsgQueueGo f s).Inv ω :=
  .next (.whenOpen (fun _ h => .ite (.wr h) (.askSvc (.wr (.setSvc h)))) h)
theorem State.Inv.svcStart {f d} (h : s.Inv ω) : (s.svcStart f d).2.Inv ω := by
  unfold State.svcStart
  extract_lets +lift n s1 why
  have h1 : s1.Inv ω := .iteL h (fun h => .keyRead h)
  split
  · exact h1
  · split
    · exact h1
    · exact .setSlot h1
theorem State.Inv.svcBlock {f d r x} (h : s.Inv ω) : (s.svcBlock f d r x).2.Inv ω := by
  unfold State.svcBlock
  dsimp only
  split
  · exact h
  · exact .withHif h (Hif.dmaWrite_wf _ _ _)
theorem State.Inv.svcBlocks {f d r n} (h : s.Inv ω) : (s.svcBlocks f d r n).2.Inv ω := by
  induction n generalizing s r with
  | zero => exact h
  | succ n ih => exact ih (.svcBlock h)
theorem State.Inv.svcTick {ticks} (h : s.Inv ω) : (s.svcTick ticks).Inv ω := .upd h rfl
theorem Hif.foldDmaWrite_wf {f : Nat} {host : List (BitVec 58 × BitVec 32)} {x : Hif} (h : tabWf 0 x.hostMem = true) :
    tabWf 0 (host.foldl (fun (h : Hif) e => h.dmaWrite (f * 2 ^ 60 + e.1.toNat) [e.2]) x).hostMem = true := by
  induction host generalizing x with
  | nil => exact h
  | cons e l ih => exact ih (Hif.dmaWrite_wf _ _ _ h)
theorem execMsgServiceGrant_inv {host err} (h : s.Inv ω) : (execMsgServiceGrant host err s).Inv ω := by
  unfold execMsgServiceGrant
  refine .next ?_
  split
  · exact h
  · next q sol _ =>
    extract_lets +lift s1 f s2 x
    have h2 : s2.Inv ω := .withHif (s := s1) (.upd h rfl) Hif.foldDmaWrite_wf
    clear_value s2
    split
    · exact h2
    · next d _ _ =>
      split
      case' h_2 =>
        generalize hs : s2.svcStart f d = p
        obtain ⟨r, s3⟩ := p
        replace h2 : s3.Inv ω := .of_snd hs (.svcStart h2)
      all_goals
        dsimp only
        refine .iteR (.setSvc ?_) (fun h => .askSvc h)
        split
        · exact h2
        · split
          · exact h2
          · exact .svcBlocks h2
theorem execMsgServiceEnd_inv {f err} (h : s.Inv ω) : (execMsgServiceEnd f err s).Inv ω := by
  unfold execMsgServiceEnd
  refine .next ?_
  dsimp only
  split
  · exact .ite (.iteR (.pushAll (.wr (.setSvc h))) (fun h => .askSvc h)) h
  · exact h
theorem State.Inv.cipFlr {f} (h : s.Inv ω) : (s.cipFlr f).Inv ω :=
  .wr (.setSvc (.upd (.forEach (fun _ _ h => .clearSlot h) h) rfl))
theorem State.Inv.cipCommit (h : s.Inv ω) : (s.cipCommit).Inv ω := .forEach (fun _ _ h => .ite h (.setCipTx h)) h

/-! ### Gfp -/

theorem State.Inv.setGfp {c x} (h : s.Inv ω) : (s.setGfp c x).Inv ω := .upd h rfl
theorem State.Inv.gfpSend {c pti upi payload} (h : s.Inv ω) : (s.gfpSend c pti upi payload).Inv ω := .setGfp h
theorem State.Inv.gfpTake {c n} (h : s.Inv ω) : (s.gfpTake c n).2.Inv ω := .setGfp h
theorem State.Inv.gfpRx {c bytes} (h : s.Inv ω) : (s.gfpRx c bytes).2.Inv ω := .setGfp h
theorem State.Inv.gfpHunt {c} (h : s.Inv ω) : (s.gfpHunt c).Inv ω := .setGfp h

/-! ### Clients -/

theorem State.Inv.setClient {k x} (h : s.Inv ω) : (s.setClient k x).Inv ω := .upd h rfl
theorem State.Inv.setLane {l x} (h : s.Inv ω) : (s.setLane l x).Inv ω := .upd h rfl
theorem State.Inv.codewordsIn {p corr unc} (h : s.Inv ω) : (s.codewordsIn p corr unc).Inv ω :=
  .iteL (.ite (.count h) h) (fun h => .wr (.count h))
theorem State.Inv.frameIn1 {k f err} (h : s.Inv ω) : (s.frameIn1 k f err).Inv ω := by
  unfold State.frameIn1
  dsimp only
  refine .iteR (.ite (.count (.count (.count h))) (.iteR (.count (.count h)) (fun h => .count h))) (fun h => ?_)
  split
  · exact .gfpSend h
  · exact .gfpSend h
theorem execClientFrameRx_inv {k frame err fecCorr fecUnc} (h : s.Inv ω) :
    (execClientFrameRx k frame err fecCorr fecUnc s).Inv ω :=
  .next (.iteL (.ite (.codewordsIn h) h) (fun h => .frameIn1 h))
theorem State.Inv.gfpFrame {k f} (h : s.Inv ω) : (s.gfpFrame k f).Inv ω :=
  .ite (.setClient h) (.ite (.ite (.forEach (fun _ _ h => .wr h) (.count h)) (.setClient h)) h)
theorem State.Inv.cliFrame {c plain csf} (h : s.Inv ω) : (s.cliFrame c plain csf).Inv ω := by
  unfold State.cliFrame
  refine .ite (.gfpHunt h) ?_
  dsimp only
  split
  · exact .forEach (fun _ _ h => .gfpFrame h) (.gfpRx h)
  · exact .gfpRx h
theorem State.Inv.sendFrameOut {k upi bs} (h : s.Inv ω) : (s.sendFrameOut k upi bs).Inv ω := by
  unfold State.sendFrameOut
  dsimp only
  split
  · exact .ite (.setClient (.count (.count (.count h)))) (.setClient (.count (.count (.count h))))
  · exact .setClient (.count (.count h))
theorem execClientFrameEgress_inv {k} (h : s.Inv ω) : (execClientFrameEgress k s).Inv ω := by
  refine .next ?_
  refine .ite ?_ h
  split
  · exact .sendFrameOut h
  · exact h
theorem execClientMgmtPeriod_inv {k} (h : s.Inv ω) : (execClientMgmtPeriod k s).Inv ω :=
  .next (.ite (.forEach (fun _ _ h => .gfpSend h) h) h)
theorem execClientIndicationExpiry_inv {k upi} (h : s.Inv ω) : (execClientIndicationExpiry k upi s).Inv ω :=
  .next (.setClient h)
theorem State.Inv.endFrames {k e} (h : s.Inv ω) : (s.endFrames k e).Inv ω := .setClient h
theorem execEgressReplacement_inv {k} (h : s.Inv ω) : (execEgressReplacement k s).Inv ω :=
  .next (.ite (.iteL (.ite (.setClient h) (.ite (.endFrames h) (.setClient h))) (fun h => .wr h)) h)
theorem State.Inv.calendarCommit {old g} (h : s.Inv ω) : (s.calendarCommit old g).Inv ω := .ite h (.wr (.upd h rfl))
theorem State.Inv.fxOverhead {g ohLock mismatch} (h : s.Inv ω) : (s.fxOverhead g ohLock mismatch).Inv ω :=
  .iteL (.wr h) (fun h => .wr h)
theorem execCalendarSwitch_inv {g tx rx ohLock mismatch} (h : s.Inv ω) : (execCalendarSwitch g tx rx ohLock mismatch s).Inv ω :=
  .next (.ite (.iteL (.iteL (.iteL (.fxOverhead h) (fun h => .wr h)) (fun h => .wr h)) (fun h => .wr h))
    (.iteL (.fxOverhead h) (fun h => .wr h)))
theorem State.Inv.laneAsk {l want} (h : s.Inv ω) : (s.laneAsk l want).Inv ω :=
  .ite (.ite h (.wr (.setLane h))) (.ite h (.ite (.wr (.setLane h)) (.wr h)))
theorem State.Inv.unlockPort {p} (h : s.Inv ω) : (s.unlockPort p).Inv ω := .ite (.wr h) h
theorem State.Inv.lanesAsk (h : s.Inv ω) : (s.lanesAsk).Inv ω :=
  .forEach (fun _ _ h => .unlockPort h) (.forEach (fun _ _ h => .laneAsk h) h)
theorem execLaneDeepExit_inv {l} (h : s.Inv ω) : (execLaneDeepExit l s).Inv ω := by
  refine .next ?_
  refine .ite ?_ h
  dsimp only
  split
  · exact .laneAsk (.setLane (.wr (.wr h)))
  · exact .setLane (.wr (.wr h))
theorem State.Inv.idleClients (h : s.Inv ω) : (s.idleClients).Inv ω :=
  .ite h (.forEach (fun _ _ h => .iteL (.endFrames h) (fun h => .wr h)) h)
theorem State.Inv.clientGone {k c} (h : s.Inv ω) : (s.clientGone k c).Inv ω := .endFrames (.setGfp h)
theorem State.Inv.cliCommit {old} (h : s.Inv ω) : (s.cliCommit old).Inv ω :=
  .lanesAsk (.forEach (fun _ _ h => .calendarCommit h) (.forEach (fun _ _ h => .clientGone h) h))

/-! ### Cellar -/

theorem Cel.granted_tables (c : Cel) (k : Nat) (req : Req) (again : List Req) :
    (c.granted k req again).1.tables = c.tables := by
  unfold Cel.granted
  dsimp only
  split
  · rfl
  · split <;> rfl
theorem Cel.serveUpTo_tables (u : Use) (req : Nat → Req) (n : Nat) (again : List Req) (c : Cel) :
    (Cel.serveUpTo u req n again c).1.tables = c.tables := by
  induction n generalizing again c with
  | zero => rfl
  | succ n ih =>
    unfold Cel.serveUpTo
    split
    · rfl
    · exact (ih _ _).trans (Cel.granted_tables _ _ _ _)
theorem Cel.round_tables (u : Use) (req : Nat → Req) (c : Cel) : (c.round u req).tables = c.tables := by
  have hsol (c : Cel) (x : Solera) : ({ c with sol := x } : Cel).tables = c.tables := rfl
  have hask (c : Cel) (m d : Nat) (w : Tab Nat) (x : Solera) :
      ({ c with maint := m, demand := d, work := w, sol := x } : Cel).tables = c.tables := rfl
  exact (hsol _ _).trans ((Cel.serveUpTo_tables ..).trans (hask ..))
theorem Cel.rounds_tables (u : Use) (req : Nat → Req) (n : Nat) (c : Cel) : (Cel.rounds u req n c).tables = c.tables := by
  induction n generalizing c with
  | zero => rfl
  | succ n ih =>
    rw [Cel.rounds]
    exact (ih _).trans (Cel.round_tables ..)
theorem Cel.roundsFor_tables (u : Use) (req : Nat → Req) (k n : Nat) (c : Cel) :
    (Cel.roundsFor u req k n c).tables = c.tables := by
  induction n generalizing c with
  | zero => rfl
  | succ n ih =>
    unfold Cel.roundsFor
    split
    · rfl
    · exact (ih _).trans (Cel.round_tables ..)
theorem State.Inv.celTick {ticks} (h : s.Inv ω) : (s.celTick ticks).Inv ω := by
  unfold State.celTick
  dsimp only
  generalize s.cel.frac + ticks * celRate (s.cur F.CEL_CFG_rate) = n
  generalize n / 20 = r
  exact .ite (.updTables h rfl rfl (Cel.rounds_tables (s.celUse (cellarContexts s.vtg.current)) s.celReq r s.cel)) h
theorem State.Inv.celFinish {k} (h : s.Inv ω) : (s.celFinish k).Inv ω := by
  unfold State.celFinish
  dsimp only
  generalize s.celBound k * tabGet 0 s.cel.work k = n
  exact .celDrop (.updTables h rfl rfl (Cel.roundsFor_tables ..))
theorem State.Inv.archiveWrite {a bytes} (h : s.Inv ω) : (s.archiveWrite a bytes).Inv ω :=
  .ite (.writeGroups (.celAsk h)) (.writePart (.celAsk h))
theorem State.Inv.archivePut {a bytes} (h : s.Inv ω) : (s.archivePut a bytes).Inv ω := .ite (.upd h rfl) (.archiveWrite h)
theorem State.Inv.archiveResume (h : s.Inv ω) : (s.archiveResume).Inv ω :=
  .forEach (fun _ _ h => .ite (.archiveWrite h) (.ite (.wr h) (.wr h))) (.upd h rfl)
theorem State.Inv.archiveRecord {ws} (h : s.Inv ω) : (s.archiveRecord ws).Inv ω := .ite (.upd (.archivePut h) rfl) (.wr h)
theorem State.Inv.celLimits (h : s.Inv ω) : (s.celLimits).Inv ω := .wr (.wr h)
theorem State.Inv.celDown (h : s.Inv ω) : (s.celDown).Inv ω :=
  .iteL (.archiveResume (.wr (.wr (.wr h)))) (fun h => .wr (.upd h rfl))
theorem State.Inv.celSleep (h : s.Inv ω) : (s.celSleep).Inv ω := .upd (.celDown h) rfl
theorem State.Inv.celTrain (h : s.Inv ω) : (s.celTrain).Inv ω := .upd (.celDown h) rfl
theorem execCellarTrain_inv (h : s.Inv ω) : (execCellarTrain s).Inv ω := .next (.ite (.celTrain h) h)
theorem execCellarRetrain_inv (h : s.Inv ω) : (execCellarRetrain s).Inv ω :=
  .next (.whenOpen (fun _ h => .ite (.wr h) (.ite h (.celTrain h))) h)
theorem State.Inv.accGo {no eff} (heff : ∀ s, s.Inv ω → (eff s).Inv ω) (h : s.Inv ω) : (s.accGo no eff).Inv ω :=
  .ite (.wr h) (.wr (heff _ h))
theorem execAccRead_inv {errs} (h : s.Inv ω) : (execAccRead errs s).Inv ω :=
  .next (.whenOpen (fun _ h => .accGo (fun _ h => .celAsk (.wr (.wr (.forEach (fun _ _ h => .wr h) (.readBlock h))))) h) h)
theorem execAccWrite_inv (h : s.Inv ω) : (execAccWrite s).Inv ω :=
  .next (.whenOpen (fun _ h => .accGo (fun _ h => .celAsk (.writeBlock h)) h) h)
theorem execAccRawWrite_inv (h : s.Inv ω) : (execAccRawWrite s).Inv ω :=
  .next (.whenOpen (fun _ h => .accGo (fun _ h => .celAsk (.putBlock (.openLine h))) h) h)
theorem execAccDone_inv (h : s.Inv ω) : (execAccDone s).Inv ω := .next (.ite h (.wr (.ite (.celFinish h) (.celDrop h))))
theorem execCaptureSegmentDrained_inv {codes} (h : s.Inv ω) : (execCaptureSegmentDrained codes s).Inv ω := by
  refine .next ?_
  split
  · exact h
  · exact .ite (.ite (.endCapture (.stick h)) (.ite (.endCapture (.wr (.celDrop
      (.writeGroups (.iteL (.memRead h) (fun h => .stick h)))))) (.armCapture
        (.wr (.celDrop (.writeGroups (.iteL (.memRead h) (fun h => .stick h)))))))) h
theorem execTouchGo_inv {errs} (h : s.Inv ω) : (execTouchGo errs s).Inv ω :=
  .next (.whenOpen (fun _ h => .ite (.wr h) (.celAsk (.wr (.readBlocks h)))) h)
theorem execCelTouchDone_inv (h : s.Inv ω) : (execCelTouchDone s).Inv ω := .next (.ite (.raise (.wr (.celDrop h))) h)
theorem execPprGo_inv {resource} (h : s.Inv ω) : (execPprGo resource s).Inv ω :=
  .next (.whenOpen (fun _ h => .ite h (.ite (.wr h) (.ite (.wr (.readBlocks h)) (.wr h)))) h)
theorem State.Inv.deliverFrame {c f} (h : s.Inv ω) : (s.deliverFrame c f).Inv ω := .cliFrame (.cipFrame h)
theorem execOutputFrameRead_inv {c errs} (h : s.Inv ω) : (execOutputFrameRead c errs s).Inv ω := by
  refine .next ?_
  dsimp only
  split
  · next hr =>
      exact .deliverFrame (.of_snd hr (.outputFrame (.turnChannel (.renumber h))))
  · next hr =>
      exact .of_snd hr (.outputFrame (.turnChannel (.renumber h)))
theorem execMemInjArm_inv (h : s.Inv ω) : (execMemInjArm s).Inv ω := .next (.whenOpen (fun _ h => .ite (.upd h rfl) h) h)
theorem State.Inv.celCommit {old} (h : s.Inv ω) : (s.celCommit old).Inv ω := .celLimits (.ite (.upd h rfl) h)

/-! ### Slices -/

theorem State.Inv.startWake {i} (h : s.Inv ω) : (s.startWake i).Inv ω := .wr (.wr (.wr h))
theorem State.Inv.wakeIfEnabled {i} (h : s.Inv ω) : (s.wakeIfEnabled i).Inv ω := .ite (.startWake h) h
theorem State.Inv.tdlStop {i} (h : s.Inv ω) : (s.tdlStop i).Inv ω := .wr (.wr (.wr (.setTdl h)))
theorem State.Inv.noDefects {i} (h : s.Inv ω) : (s.noDefects i).Inv ω := .forEach (fun _ _ h => .wr h) h
theorem State.Inv.leaveLit {i} (h : s.Inv ω) : (s.leaveLit i).Inv ω :=
  .setLfr (.setTx (.memsLost (.noDefects (.tdlStop (.toAcq (.stopCapture (.calLeaveLit h)))))))
theorem State.Inv.roleUpdate (h : s.Inv ω) : (s.roleUpdate).Inv ω := .ite (.ite h (.wr h)) (.ite (.wr h) h)
theorem State.Inv.drainOne {i short} (h : s.Inv ω) : (s.drainOne i short).Inv ω :=
  .ite (.roleUpdate (.poolRecompute (.leaveLit (.upd (.wr (.wr h)) rfl)))) (.calLeaveLit (.upd (.wr (.wr h)) rfl))
theorem State.Inv.loseSource (h : s.Inv ω) : (s.loseSource).Inv ω := .ite (.forEach (fun _ _ h => .ite (.drainOne h) h) h) h
theorem State.Inv.sourceGone (h : s.Inv ω) : (s.sourceGone).Inv ω := .ite (.loseSource h) h
theorem State.Inv.startDrain {i short} (h : s.Inv ω) : (s.startDrain i short).Inv ω := .sourceGone (.drainOne h)
theorem State.Inv.drain {i} (h : s.Inv ω) : (s.drain i).Inv ω := .ite (.startDrain h) (.ite (.startDrain h) h)
theorem State.Inv.drainAll (h : s.Inv ω) : (s.drainAll).Inv ω := .forEach (fun _ _ h => .wr (.drain h)) h
theorem State.Inv.applyEnable {old i} (h : s.Inv ω) : (s.applyEnable old i).Inv ω :=
  .ite (.ite (.wr h) (.wakeIfEnabled h)) (.ite (.wr (.drain h)) h)
theorem State.Inv.applyEnables {old} (h : s.Inv ω) : (s.applyEnables old).Inv ω := .forEach (fun _ _ h => .applyEnable h) h
theorem State.Inv.wakeAll (h : s.Inv ω) : (s.wakeAll).Inv ω := .forEach (fun _ _ h => .wakeIfEnabled h) h
theorem execSliceEnableHeldWake_inv {i} (h : s.Inv ω) : (execSliceEnableHeldWake i s).Inv ω := .next (.ite (.wakeIfEnabled h) h)
theorem State.Inv.replaceSpare {i stats a} (h : s.Inv ω) : (s.replaceSpare i stats a).Inv ω := by
  unfold State.replaceSpare
  split
  · exact .ite h (.wr (.wr h))
  · exact h
theorem State.Inv.becomeLit {i} (h : s.Inv ω) : (s.becomeLit i).Inv ω := by
  unfold State.becomeLit
  exact .poolRecompute (.ite (.runCause (.setConv (.acqLit (.wr (.peCheck
    (.txCheck (.rxCheck (.setLfr (.setTx (.wr (.wr h))))))))))) (.askRun
      (.setConv (.acqLit (.wr (.peCheck (.txCheck (.rxCheck (.setLfr (.setTx (.wr (.wr h))))))))))))
theorem execWakingComplete_inv {i done} (h : s.Inv ω) : (execWakingComplete i done s).Inv ω := by
  refine .next ?_
  refine .ite ?_ h
  split
  · exact .wr h
  · exact .wr h
  · exact .wr (.loadGeneration h)
  · exact .iteL (.forEach (fun _ _ h => .replaceSpare h) h) (fun h => .becomeLit h)
theorem execWakeTimeout_inv {i} (h : s.Inv ω) : (execWakeTimeout i s).Inv ω := .next (.ite (.startDrain (.raise (.wr h))) h)
theorem execDrainComplete_inv {i us} (h : s.Inv ω) : (execDrainComplete i us s).Inv ω :=
  .next (.ite (.upd (.tdlStop (.setTdl (.setLfr (.setTx (.wr (.wr h)))))) rfl) h)
theorem State.Inv.refLanes (h : s.Inv ω) : (s.refLanes).Inv ω := .sourceGone (.forEach (fun _ _ h => .ite h (.candLost h)) h)
theorem execHostSideConditionChange_inv {p x} (h : s.Inv ω) : (execHostSideConditionChange p x s).Inv ω :=
  .next (.ite (.refLanes (.forEach (fun _ _ h => .ite (.wr (.wr h)) h) (.wr (.wr (.wr (.wr h)))))) h)

end Sys2Proof.Machine
end

section
/-!
The operations of acquisition, the vintages, the monitor and the boundaries keep both invariants, in the order of the model's
files.
-/

namespace Sys2Proof.Machine

variable {ω : Watch} {s t : State}

/-! ### Acquire -/

theorem execAcqSignalDetect_inv {i} (h : s.Inv ω) : (execAcqSignalDetect i s).Inv ω := .next (.ite (.enterCd h) h)
theorem execCdScanEnd_inv {i coarse fine peak} (h : s.Inv ω) : (execCdScanEnd i coarse fine peak s).Inv ω :=
  .next (.ite (.toAcq (.wr h)) h)
theorem execClockLock_inv {i off} (h : s.Inv ω) : (execClockLock i off s).Inv ω :=
  .next (.ite (.iteL (.setDsp h) (fun h => .toAcq h)) h)
theorem execSingularityCheck_inv {i corrMilli} (h : s.Inv ω) : (execSingularityCheck i corrMilli s).Inv ω :=
  .next (.ite (.iteL (.wr (.setRx h)) (fun h => .acqFail h)) h)
theorem execBlindConverged_inv {i dgd cd} (h : s.Inv ω) : (execBlindConverged i dgd cd s).Inv ω := .next (.ite (.toAcq h) h)
theorem execPilotSyncFound_inv {i samples} (h : s.Inv ω) : (execPilotSyncFound i samples s).Inv ω := by
  refine .next ?_
  refine .ite ?_ h
  dsimp only
  split
  · exact .toAcq (.setDsp (.countSat (.setDsp (.frontEnd h))))
  · exact .countSat (.setDsp (.frontEnd h))
theorem execCarrierLock_inv {i} (h : s.Inv ω) : (execCarrierLock i s).Inv ω :=
  .next (.ite (.raise (.alignBlock (.syncSearch (.toAcq h)))) h)
theorem execAcqStateLimit_inv {i} (h : s.Inv ω) : (execAcqStateLimit i s).Inv ω := .next (.ite (.acqFail h) h)
theorem execInputLoss_inv {i} (h : s.Inv ω) : (execInputLoss i s).Inv ω := .next (.ite (.sourceGone (.toAcq h)) h)
theorem execInputReturn_inv {i} (h : s.Inv ω) : (execInputReturn i s).Inv ω := .next (.acqMove h)
theorem execHoldExpiry_inv {i} (h : s.Inv ω) : (execHoldExpiry i s).Inv ω := .next (.ite (.acqMove h) h)
theorem execTrackSnrLoss_inv {i} (h : s.Inv ω) : (execTrackSnrLoss i s).Inv ω := .next (.ite (.sourceGone (.acqMove h)) h)
theorem execAcqRestart_inv {i} (h : s.Inv ω) : (execAcqRestart i s).Inv ω := .next (.sourceGone (.acqRestart h))
theorem execCycleSlip_inv {i y err} (h : s.Inv ω) : (execCycleSlip i y err s).Inv ω := .next (.ite (.countSlips (.setDsp h)) h)

/-! ### Links -/

theorem State.Inv.sendIdent {p} (h : s.Inv ω) : (s.sendIdent p).Inv ω := .setPort h
theorem State.Inv.sendFrame {p k} (h : s.Inv ω) : (s.sendFrame p k).Inv ω := by
  unfold State.sendFrame
  dsimp only
  split
  · exact h
  · exact .wr (.count (.setPort h))
theorem State.Inv.pryRound {p} (h : s.Inv ω) : (s.pryRound p).Inv ω := by
  unfold State.pryRound
  refine .ite ?_ h
  dsimp only
  split
  · exact .iteL (.setPort (.ite (.mirrorDrain h) h)) (fun h => .sendFrame (.wr h))
  · split
    · exact .setPort (.ite (.mirrorDrain h) h)
    · exact .ite (.setPort (.ite (.mirrorDrain h) h)) (.sendFrame (.setPort (.ite (.mirrorDrain h) h)))
theorem State.pryRounds_succ (s : State) (n : Nat) :
    s.pryRounds (n + 1) = (forEach (fun p t => t.pryRound p) allPorts s).pryRounds n := by
  delta State.pryRounds
  dsimp only
theorem State.Inv.pryRounds {n} (h : s.Inv ω) : (s.pryRounds n).Inv ω := by
  induction n generalizing s with
  | zero => exact h
  | succ n ih =>
    rw [State.pryRounds_succ]
    exact ih (.forEach (fun _ _ h => .pryRound h) h)
theorem State.Inv.identTick {ticks p} (h : s.Inv ω) : (s.identTick ticks p).Inv ω :=
  .ite (.ite (.setPort h) (.sendIdent (.setPort h))) h
theorem State.Inv.pryTick {ticks} (h : s.Inv ω) : (s.pryTick ticks).Inv ω :=
  .forEach (fun _ _ h => .identTick h) (.pryRounds (.upd h rfl))

/-! ### VintageOps -/

theorem State.Inv.toVt {n} (h : s.Inv ω) : (s.toVt n).Inv ω := .wr h
theorem State.Inv.mirrorArchive (h : s.Inv ω) : (s.mirrorArchive).Inv ω := .mirror h
theorem State.Inv.archiveImage {serial failed m} (h : s.Inv ω) : (s.archiveImage serial failed m).Inv ω :=
  .ite (.mirrorArchive (.upd (.archivePut h) rfl)) (.wr h)
theorem State.Inv.mirrorImage {which serial m} (h : s.Inv ω) : (s.mirrorImage which serial m).Inv ω := by
  unfold State.mirrorImage
  dsimp only
  split
  · exact h
  · exact .forEach (fun _ _ h => .mirror h) h
theorem State.Inv.rxReverts {i} (h : s.Inv ω) : (s.rxReverts i).Inv ω := .sourceGone (.rxFollow (.setRx (.rxdNext h)))
theorem State.Inv.dropAgreement {i} (h : s.Inv ω) : (s.dropAgreement i).Inv ω :=
  .setTdl (.iteL (.ite (.rxReverts h) (.ite (.rxdNext h) h)) (fun h => .setTx h))
theorem State.Inv.sendCancel {i} (h : s.Inv ω) : (s.sendCancel i).Inv ω := .ite (.tdlQueue h) h
theorem State.Inv.failCommit {code} (h : s.Inv ω) : (s.failCommit code).Inv ω := by
  unfold State.failCommit
  split
  · exact h
  · exact .raise (.mirror (.wr (.wr (.wr (.toVt (.vintSet (.upd (.forEach (fun _ _ h => .dropAgreement h)
      (.ite (.forEach (fun _ _ h => .sendCancel h) h) h)) rfl)))))))
theorem State.Inv.mirrorCommit (h : s.Inv ω) : (s.mirrorCommit).Inv ω := by
  unfold State.mirrorCommit
  split
  · exact h
  · exact .mirror (.mirrorImage h)
theorem State.Inv.arm (h : s.Inv ω) : (s.arm).Inv ω := by
  unfold State.arm
  split
  · exact h
  · exact .toVt (.mirrorCommit (.upd h rfl))
theorem State.Inv.holdOrArm (h : s.Inv ω) : (s.holdOrArm).Inv ω := .ite (.toVt h) (.arm h)
theorem State.Inv.sendRefuse {i id reason} (h : s.Inv ω) : (s.sendRefuse i id reason).Inv ω := .tdlQueue h
theorem State.Inv.dropHeld {i} (h : s.Inv ω) : (s.dropHeld i).Inv ω := .wr h
theorem State.Inv.answer {i id farB summary} (h : s.Inv ω) : (s.answer i id farB summary).Inv ω :=
  .ite h (.ite (.tdlQueue (.ite h (.setTdl h))) (.failCommit (.sendRefuse h)))
theorem State.Inv.noteAgreed {i} (h : s.Inv ω) : (s.noteAgreed i).Inv ω := by
  unfold State.noteAgreed
  dsimp only
  split
  · exact .ite (.setTdl (.wr h)) h
  · exact h
theorem State.Inv.checkAgreed {i} (h : s.Inv ω) : (s.checkAgreed i).Inv ω := by
  unfold State.checkAgreed
  dsimp only
  split
  · exact .iteL (.noteAgreed h) (fun h => .holdOrArm h)
  · exact .noteAgreed h
theorem State.Inv.sendPropose {i} (h : s.Inv ω) : (s.sendPropose i).Inv ω := .tdlQueue h
theorem State.Inv.proposeOn {m d i} (h : s.Inv ω) : (s.proposeOn m d i).Inv ω :=
  .iteL (.iteL (.setTdl (.wr h)) (fun h => .answer (.dropHeld h))) (fun h => .sendPropose h)
theorem State.Inv.negotiate {c ahead} (h : s.Inv ω) : (s.negotiate c ahead).Inv ω :=
  .forEach (fun _ _ h => .ite (.proposeOn h) h) (.toVt (.upd h rfl))
theorem State.Inv.acceptCommit {bd target} (h : s.Inv ω) : (s.acceptCommit bd target).Inv ω :=
  .toVt (.wr (.wr (.wr (.wr (.upd (.forEach (fun _ _ h => .dropAgreement h) h) rfl)))))
theorem State.Inv.announceReturn {i} (h : s.Inv ω) : (s.announceReturn i).Inv ω := by
  unfold State.announceReturn
  dsimp only
  split
  · exact .tdlQueue (.setTdl h)
  · exact .setTdl h
theorem State.Inv.startReturn {cause} (h : s.Inv ω) : (s.startReturn cause).Inv ω :=
  .ite h (.iteR (.vintRead h) (fun h => .mirror (.forEach (fun _ _ h => .announceReturn h)
    (.toVt (.upd (.ite (.failCommit h) h) rfl)))))
theorem State.Inv.failProbation {cause} (h : s.Inv ω) : (s.failProbation cause).Inv ω := .ite (.startReturn h) h

/-! ### Vintage -/

theorem State.Inv.txSwitch {old restart i} (h : s.Inv ω) : (s.txSwitch old restart i).Inv ω :=
  .ite (.wr (.setTx h)) (.ite (.setTx h) (.ite (.newStream h) h))
theorem State.Inv.rxLocal {old restart at' i} (h : s.Inv ω) : (s.rxLocal old restart at' i).Inv ω := by
  unfold State.rxLocal
  dsimp only
  refine .ite (.setTdl (.acqRestart (.setRx h))) (.ite (.setTdl (.rxdNext (.setRx h))) ?_)
  split
  · exact .setTdl (.setRx h)
  · exact .setTdl (.rxdNext (.setRx h))
theorem State.Inv.calCommit {old i} (h : s.Inv ω) : (s.calCommit old i).Inv ω :=
  .iteL (.ite (.askRestore (.abortRun h)) (.ite (.runCause (.setConv h)) h)) (fun h => .runCause h)
theorem State.Inv.pryCommit {old} (h : s.Inv ω) : (s.pryCommit old).Inv ω :=
  .iteL (.forEach (fun _ _ h => .ite (.portOff h) h) h) (fun h => .wr (.wr (.wr h)))
theorem State.Inv.vddCommit {old} (h : s.Inv ω) : (s.vddCommit old).Inv ω := .ite (.upd h rfl) h
theorem State.Inv.switchBlocks {old early restart at'} (h : s.Inv ω) : (s.switchBlocks old early restart at').Inv ω :=
  .vddCommit (.poolRecompute (.applyEnables (.sourceGone (.pryCommit (.celCommit
    (.refLanes (.cliCommit (.cipCommit (.mapCommit (.forEach (fun _ _ h => .calCommit
      (.rxCommit (.txCommit (.ite (.rxLocal (.txSwitch h)) h)))) h))))))))))
theorem State.Inv.agreementTaken {c i} (h : s.Inv ω) : (s.agreementTaken c i).Inv ω := .setTdl h
theorem State.Inv.takeEffect {c} (h : s.Inv ω) : (s.takeEffect c).Inv ω :=
  .iteL (.raise (.mirror (.switchBlocks (.toVt (.wr (.iteL (.wr (.wr (.wr
    (.wr (.wr (.upd (.vintSet (.forEach (fun _ _ h => .agreementTaken h) (.ite (.archiveImage h) h))) rfl))))))
      (fun h => .wr h))))))) (fun h => .startReturn h)
theorem execCommitTakeEffect_inv {bnd} (h : s.Inv ω) : (execCommitTakeEffect bnd s).Inv ω := by
  refine .next ?_
  split
  · exact .ite (.takeEffect h) h
  · exact h
theorem execValidationDone_inv (h : s.Inv ω) : (execValidationDone s).Inv ω := by
  refine .next ?_
  split
  · exact .ite (.ite (.toVt h) (.failCommit h)) h
  · exact h
theorem execLoadingDone_inv {memErr ahead} (h : s.Inv ω) : (execLoadingDone memErr ahead s).Inv ω := by
  refine .next ?_
  split
  · exact .ite (.ite (.failCommit (.iteL (.vintRead h) (fun h => .raise (.count h))))
      (.ite (.holdOrArm (.iteL (.vintRead h) (fun h => .raise (.count h))))
        (.negotiate (.iteL (.vintRead h) (fun h => .raise (.count h)))))) h
  · exact h
theorem execDomainReleaseDeadline_inv (h : s.Inv ω) : (execDomainReleaseDeadline s).Inv ω := by
  refine .next ?_
  split
  · exact .ite (.failCommit h) h
  · exact h
theorem State.Inv.stage {a d m} (h : s.Inv ω) (hst : s.stage a d m = some t) : t.Inv ω := by
  unfold State.stage at hst
  split at hst
  · obtain rfl := Option.some.inj hst
    exact .iteL (.memWrite h) fun h => .upd h rfl
  · simp at hst
theorem State.Inv.stageGo (h : s.Inv ω) : (s.stageGo).Inv ω := by
  unfold State.stageGo
  split
  · next hr =>
    split at hr
    · simp at hr
    · exact h.stage hr
  · exact .wr h
theorem State.Inv.stageRead (h : s.Inv ω) : (s.stageRead).Inv ω := .ite (.wr h) (.wr h)
theorem execStageGo_inv {andRead} (h : s.Inv ω) : (execStageGo andRead s).Inv ω :=
  .next (.iteL (.stageGo h) (fun h => .stageRead h))
theorem execStageRead_inv (h : s.Inv ω) : (execStageRead s).Inv ω := .next (.stageRead h)
theorem State.Inv.vtgNomatch (h : s.Inv ω) : (s.vtgNomatch).Inv ω := .wr h
theorem State.Inv.hostVtg {f} (hf : ∀ s, s.Inv ω → (f s).Inv ω) (h : s.Inv ω) : (s.hostVtg f).Inv ω := .ite h (hf _ h)
theorem State.Inv.vtgReturn {cause} (h : s.Inv ω) : (s.vtgReturn cause).Inv ω :=
  .hostVtg (fun _ h => .ite (.vtgNomatch h) (.iteR (.startReturn h) (fun h => .vtgNomatch h))) h
theorem State.Inv.endProbation (h : s.Inv ω) : (s.endProbation).Inv ω := .ite (.wr (.toVt h)) h
theorem State.Inv.vtgFail (h : s.Inv ω) : (s.vtgFail).Inv ω := .hostVtg (fun _ h => .ite (.failProbation h) h) h
theorem State.Inv.withdraw (h : s.Inv ω) : (s.withdraw).Inv ω := .ite (.failCommit h) h
theorem State.Inv.setStaged {src m} (h : s.Inv ω) : (s.setStaged src m).Inv ω := .vintSet (.upd h rfl)
theorem State.Inv.loadStaged {f} (hf : ∀ s, s.Inv ω → (f s).Inv ω) (h : s.Inv ω) : (s.loadStaged f).Inv ω :=
  .hostVtg (fun _ h => .ite (.vtgNomatch h) (hf _ h)) h
theorem State.Inv.readImage {a} (h : s.Inv ω) : (s.readImage a).2.Inv ω := .celAsk (.readBlocks h)
theorem State.Inv.loadSerial {serial} (h : s.Inv ω) : (s.loadSerial serial).Inv ω := by
  unfold State.loadSerial
  split
  · exact .vtgNomatch h
  · refine .ite (.upd h rfl) ?_
    split
    · next hr =>
        exact .setStaged (.of_snd hr (.readImage h))
    · next hr =>
        exact .vtgNomatch (.of_snd hr (.readImage h))
theorem State.Inv.loadRescue (h : s.Inv ω) : (s.loadRescue).Inv ω := .ite (.vtgNomatch (.vintRead h)) (.setStaged (.vintRead h))
theorem State.Inv.celResume (h : s.Inv ω) : (s.celResume).Inv ω := by
  unfold State.celResume
  dsimp only
  split
  · exact .archiveResume h
  · exact .ite (.vtgNomatch (.upd (.archiveResume h) rfl)) (.loadSerial (.upd (.archiveResume h) rfl))
theorem State.Inv.vtgRelease (h : s.Inv ω) : (s.vtgRelease).Inv ω := .ite (.arm h) h
theorem execVtgRet_inv (h : s.Inv ω) : (execVtgRet s).Inv ω := .next (.vtgReturn h)
theorem execVtgDomRet_inv (h : s.Inv ω) : (execVtgDomRet s).Inv ω := .next (.vtgReturn h)
theorem execVtgAccept_inv (h : s.Inv ω) : (execVtgAccept s).Inv ω := .next (.endProbation h)
theorem execVtgFail_inv (h : s.Inv ω) : (execVtgFail s).Inv ω := .next (.vtgFail h)
theorem execVtgWithdraw_inv (h : s.Inv ω) : (execVtgWithdraw s).Inv ω := .next (.withdraw h)
theorem State.Inv.resetStaged (h : s.Inv ω) : (s.resetStaged).Inv ω := .loadStaged (fun _ h => .setStaged h) h
theorem State.Inv.loadArch (h : s.Inv ω) : (s.loadArch).Inv ω := .loadStaged (fun _ h => .loadSerial h) h
theorem State.Inv.loadStore (h : s.Inv ω) : (s.loadStore).Inv ω := .loadStaged (fun _ h => .loadRescue h) h
theorem execVtgResetStaged_inv (h : s.Inv ω) : (execVtgResetStaged s).Inv ω := .next (.resetStaged h)
theorem execVtgLoadArch_inv (h : s.Inv ω) : (execVtgLoadArch s).Inv ω := .next (.loadArch h)
theorem execVtgLoadRescue_inv (h : s.Inv ω) : (execVtgLoadRescue s).Inv ω := .next (.loadStore h)
theorem execVtgRelease_inv (h : s.Inv ω) : (execVtgRelease s).Inv ω := .next (.vtgRelease h)
theorem execProbationCheckInterval_inv (h : s.Inv ω) : (execProbationCheckInterval s).Inv ω :=
  .next (.ite (.ite (.startReturn (.wr (.upd h rfl))) (.iteL (.wr (.upd h rfl)) (fun h => .startReturn h))) h)
theorem execProbationEnd_inv (h : s.Inv ω) : (execProbationEnd s).Inv ω := .next (.ite (.endProbation h) h)
theorem State.Inv.agreementLeft {i} (h : s.Inv ω) : (s.agreementLeft i).Inv ω := .setTdl h
theorem State.Inv.reportReturn {serial} (h : s.Inv ω) : (s.reportReturn serial).Inv ω := .ite (.pryTx h) h
theorem State.Inv.returnEffect (h : s.Inv ω) : (s.returnEffect).Inv ω := by
  unfold State.returnEffect
  exact .raise (.mirror (.upd (.raise (.reportReturn (.switchBlocks (.toVt
    (.wr (.wr (.wr (.wr (.wr (.wr (.upd (.vintSet (.forEach (fun _ _ h => .agreementLeft h) (.archiveImage h))) rfl)))))))))))
      rfl))
theorem execReturnTakeEffect_inv {superframe} (h : s.Inv ω) : (execReturnTakeEffect superframe s).Inv ω :=
  .next (.ite (.returnEffect h) h)
theorem execCellarTrainDone_inv {ok dense} (h : s.Inv ω) : (execCellarTrainDone ok dense s).Inv ω :=
  .next (.ite (.iteR (.celResume (.celLimits (.iteL (.wr (.wr (.wr (.upd h rfl)))) (fun h => .wr h)))) (fun h => .raise h)) h)
theorem execCelPprDone_inv {clean} (h : s.Inv ω) : (execCelPprDone clean s).Inv ω :=
  .next (.ite (.raise (.celResume (.wr h))) h)

/-! ### Agreement -/

theorem State.Inv.holdProposal {i id b kinds summary} (h : s.Inv ω) : (s.holdProposal i id b kinds summary).Inv ω :=
  .watchProposal (.raise (.wr (.wr (.wr (.wr (.wr h))))))
theorem State.Inv.onPropose {i id b kinds summary} (h : s.Inv ω) : (s.onPropose i id b kinds summary).Inv ω := by
  unfold State.onPropose
  exact .ite (.holdProposal h) (.ite (.sendRefuse h) (.ite (.answer h) (.ite (.iteL (.sendRefuse h) (fun h => .failCommit h))
    (.ite (.tdlQueue h) (.holdProposal h)))))
theorem execPropose_inv {i} (h : s.Inv ω) : (execPropose i s).Inv ω := by
  refine .next ?_
  split
  · exact .onPropose (.tdlPop h)
  · exact h
theorem execAccept_inv {i} (h : s.Inv ω) : (execAccept i s).Inv ω := by
  refine .next ?_
  split
  · exact .iteL (.tdlPop h) (fun h => .checkAgreed (.setTdl h))
  · exact h
theorem execRefuse_inv {i} (h : s.Inv ω) : (execRefuse i s).Inv ω := by
  refine .next ?_
  split
  · exact .iteL (.wr (.tdlPop h)) (fun h => .failCommit h)
  · exact h
theorem State.Inv.onCancel {i id} (h : s.Inv ω) : (s.onCancel i id).Inv ω :=
  .ite (.ite (.failCommit (.ite (.dropHeld h) h)) (.iteL (.ite (.dropHeld h) h) (fun h => .setTdl h)))
    (.iteL (.ite (.dropHeld h) h) (fun h => .startReturn h))
theorem execCancel_inv {i} (h : s.Inv ω) : (execCancel i s).Inv ω := by
  refine .next ?_
  split
  · exact .onCancel (.tdlPop h)
  · exact h
theorem State.Inv.onReturn {i id b} (h : s.Inv ω) : (s.onReturn i id b).Inv ω :=
  .ite (.iteL (.startReturn h) (fun h => .setTdl h)) h
theorem execReturnMsg_inv {i} (h : s.Inv ω) : (execReturnMsg i s).Inv ω := by
  refine .next ?_
  split
  · exact .onReturn (.tdlPop h)
  · exact h
theorem execProposalHoldExpiry_inv {i} (h : s.Inv ω) : (execProposalHoldExpiry i s).Inv ω :=
  .next (.ite (.sendRefuse (.dropHeld h)) h)
theorem execProposeRetry_inv {i} (h : s.Inv ω) : (execProposeRetry i s).Inv ω := .next (.ite (.sendPropose h) h)
theorem execAgreementCutoff_inv (h : s.Inv ω) : (execAgreementCutoff s).Inv ω := .next (.ite (.failCommit h) h)
theorem execTendrilPacketSent_inv {i} (h : s.Inv ω) : (execTendrilPacketSent i s).Inv ω := by
  refine .next ?_
  split
  · exact h
  · exact .iteL (.ite (.wr (.count (.setTdl h))) (.iteL (.count (.setTdl h)) (fun h => .wr h)))
      (fun h => .checkAgreed (.setTdl h))

/-! ### Encode -/

theorem State.Inv.newMsg {c} (h : s.Inv ω) : (s.newMsg c).2.Inv ω := .keyRead h
theorem State.Inv.txMessages (h : s.Inv ω) : (s.txMessages).Inv ω :=
  .mirrorGrids (.forEach (fun _ _ h => .setCipTx (.newMsg h)) (.cipMultiframe h))
theorem State.Inv.encryptFrame (h : s.Inv ω) : (s.encryptFrame).Inv ω := by
  unfold State.encryptFrame
  refine .forEach (fun _ _ h => ?_) h
  split
  · exact .setCipTx (.gfpTake h)
  · exact h
theorem State.Inv.encodeFrame {i} (h : s.Inv ω) : (s.encodeFrame i).Inv ω := .setLfr (.setTx h)
theorem State.Inv.dacClips {i d codes} (h : s.Inv ω) : (s.dacClips i d codes).Inv ω := .ite h (.wr (.count h))
theorem State.Inv.captureDacs {i dac} (h : s.Inv ω) : (s.captureDacs i dac).Inv ω := .ite (.upd h rfl) h
theorem State.Inv.txOutput {i} (h : s.Inv ω) : (s.txOutput i).Inv ω :=
  .setTx (.forEach (fun _ _ h => .dacClips h) (.captureDacs (.upd (.setTdl h) rfl)))

/-! ### Monitor -/

theorem State.Inv.setAcc {n x} (h : s.Inv ω) : (s.setAcc n x).Inv ω := .upd h rfl
theorem State.Inv.ditherTurn (h : s.Inv ω) : (s.ditherTurn).Inv ω := .upd h rfl
theorem State.Inv.setDc {c x} (h : s.Inv ω) : (s.setDc c x).Inv ω := .upd h rfl
theorem State.Inv.resetChain {c} (h : s.Inv ω) : (s.resetChain c).Inv ω := .wr (.setDc h)
theorem State.Inv.dcHeld {c} (h : s.Inv ω) : (s.dcHeld c).Inv ω := .wr h
theorem State.Inv.detectors {c y} (h : s.Inv ω) : (s.detectors c y).Inv ω :=
  .ite (.setDc (.wr (.roundFree (.ite (.wr h) h)))) (.wr (.setDc (.upd (.wr (.roundFree (.ite (.wr h) h))) rfl)))
theorem State.Inv.signedOpen {v} (h : s.Inv ω) : (s.signedOpen v).2.Inv ω := by
  unfold State.signedOpen
  split
  · exact h
  · exact .takeWord h
theorem State.Inv.chainOutput {c v} (h : s.Inv ω) : (s.chainOutput c v).Inv ω := by
  unfold State.chainOutput
  extract_lets y0 sat s1 x line r fading k o f g y s2 unsettled seq held s3 s4 s5
  have h1 : s1.Inv ω := .iteL h fun h => .wr h
  have hf : f.2.Inv ω := .iteSnd (.roundFree h1) (.roundFree h1)
  have h5 : s5.Inv ω := .iteR (.dcHeld (.wr (.wr (.wr (.setDc (.signedOpen hf)))))) fun h => .detectors h
  exact .iteL h5 fun h => .pushAll h
theorem State.Inv.chainInput {c v held} (h : s.Inv ω) : (s.chainInput c v held).Inv ω :=
  .iteR (.dcHeld (.setDc h)) (fun h => .chainOutput (.setDc h))
theorem State.Inv.feedChains {n v held} (h : s.Inv ω) : (s.feedChains n v held).Inv ω :=
  .forEach (fun _ _ h => .ite (.chainInput h) h) h
theorem State.Inv.feedTaps {i} (h : s.Inv ω) : (s.feedTaps i).Inv ω :=
  .forEach (fun _ _ h => .ite (.ite (.chainInput h) (.chainInput (.setDc h))) h) h
theorem State.Inv.requestResp {c r fade} (h : s.Inv ω) : (s.requestResp c r fade).Inv ω :=
  .ite (.dcHeld (.setDc h)) (.ite h (.wr (.wr (.setDc h))))
theorem execDcRespRequest_inv {c r fade} (h : s.Inv ω) : (execDcRespRequest c r fade s).Inv ω :=
  .next (.whenOpen (fun _ h => .requestResp (.wr (.wr h))) h)
theorem execDcFadeEnd_inv {c} (h : s.Inv ω) : (execDcFadeEnd c s).Inv ω := by
  refine .next (.ite (.dcHeld ?_) h)
  split
  · exact .requestResp (.wr (.setDc h))
  · exact .wr (.setDc h)
theorem State.Inv.convertInput {a n code} (h : s.Inv ω) : (s.convertInput a n code).2.2.Inv ω :=
  .upd (.iteL (.iteL (.setAcc h) (fun h => .wr h)) (fun h => .wr h)) rfl
theorem State.Inv.sampleRegular {a n code} (h : s.Inv ω) : (s.sampleRegular a n code).Inv ω :=
  .ite (.feedChains (.convertInput h)) (.feedChains (.upd (.iteL (.setAcc (.convertInput h)) (fun h => .wr h)) rfl))
theorem State.Inv.sampleInjected {a q code} (h : s.Inv ω) : (s.sampleInjected a q code).Inv ω :=
  .ite (.setInj (.convertInput h)) (.setInj (.convertInput h))
theorem State.Inv.convertEdge {a code} (h : s.Inv ω) : (s.convertEdge a code).Inv ω := by
  unfold State.convertEdge
  refine .ite h ?_
  split
  · exact .sampleInjected h
  · split
    · exact .sampleRegular (.upd h rfl)
    · exact h
theorem State.Inv.startSequences (h : s.Inv ω) : (s.startSequences).Inv ω := .upd (.wr h) rfl
theorem State.Inv.fgBegin (h : s.Inv ω) : (s.fgBegin).Inv ω := by
  unfold State.fgBegin
  split
  · exact .ite h (.upd h rfl)
  · exact h
theorem execConversionClockEdge_inv {codes} (h : s.Inv ω) : (execConversionClockEdge codes s).Inv ω := by
  refine .next ?_
  dsimp only
  refine .forEach (fun _ _ h => .convertEdge h) (.fgBegin (.iteL ?_ (fun h => .startSequences h)))
  split
  · exact .iteL (.ditherTurn (.upd h rfl)) (fun h => .forEach (fun _ _ h => .resetChain h) (.upd h rfl))
  · exact .ditherTurn (.upd h rfl)
theorem State.Inv.monGo (h : s.Inv ω) : (s.monGo).Inv ω := .upd h rfl
theorem execMonSeqGo_inv (h : s.Inv ω) : (execMonSeqGo s).Inv ω := .next (.whenOpen (fun _ h => .monGo h) h)
theorem State.Inv.monStop (h : s.Inv ω) : (s.monStop).Inv ω := .upd (.wr h) rfl
theorem execMonSeqStop_inv (h : s.Inv ω) : (execMonSeqStop s).Inv ω := .next (.whenOpen (fun _ h => .monStop h) h)
theorem State.Inv.accSnap (h : s.Inv ω) : (s.accSnap).Inv ω := by
  unfold State.accSnap
  exact .raise (.upd h rfl)
theorem execAccSnap_inv (h : s.Inv ω) : (execAccSnap s).Inv ω := .next (.whenOpen (fun _ h => .accSnap h) h)
theorem State.Inv.injGo {q} (h : s.Inv ω) : (s.injGo q).Inv ω := .ite (.injTrigger h) (.ite (.setInj h) h)
theorem execInjectionTrigger_inv {q} (h : s.Inv ω) : (execInjectionTrigger q s).Inv ω :=
  .next (.whenOpen (fun _ h => .injGo h) h)
theorem execInjectionDone_inv {q} (h : s.Inv ω) : (execInjectionDone q s).Inv ω :=
  .next (.ite (.raise (.wr (.wr (.wr (.setInj (.upd h rfl)))))) h)
theorem execInjectionMissed_inv {q} (h : s.Inv ω) : (execInjectionMissed q s).Inv ω := by
  refine .next ?_
  dsimp only
  split
  · exact .ite (.wr (.setInj h)) h
  · exact h
theorem State.Inv.bgTurn {a} (h : s.Inv ω) : (s.bgTurn a).Inv ω := .ite (.upd (.wr h) rfl) (.upd (.wr h) rfl)
theorem execBgCalTurn_inv (h : s.Inv ω) : (execBgCalTurn s).Inv ω := .next (.ite (.upd h rfl) (.bgTurn h))
theorem State.Inv.fgRequest {mask} (h : s.Inv ω) : (s.fgRequest mask).Inv ω :=
  .ite (.upd h rfl) (.fgBegin (.upd (.wr (.ite (.bgTurn h) h)) rfl))
theorem execFgCalStart_inv (h : s.Inv ω) : (execFgCalStart s).Inv ω := .next (.whenOpen (fun _ h => .fgRequest h) h)
theorem execFgCalEnd_inv (h : s.Inv ω) : (execFgCalEnd s).Inv ω := by
  refine .next ?_
  refine .ite ?_ h
  dsimp only
  split
  · exact .fgRequest (.upd (.wr h) rfl)
  · exact .upd (.wr h) rfl
theorem State.Inv.msyncFall (h : s.Inv ω) : (s.msyncFall).Inv ω := .upd h rfl
theorem execMsyncFall_inv (h : s.Inv ω) : (execMsyncFall s).Inv ω := .next (.msyncFall h)
theorem State.Inv.syncGo (h : s.Inv ω) : (s.syncGo).Inv ω := .upd (.msyncFall h) rfl
theorem execSyncGo_inv (h : s.Inv ω) : (execSyncGo s).Inv ω := .next (.whenOpen (fun _ h => .syncGo h) h)
theorem State.Inv.windowBoundary (h : s.Inv ω) : (s.windowBoundary).Inv ω := .iteL (.upd h rfl) (fun h => .accSnap h)
theorem execCounterWindowBoundary_inv (h : s.Inv ω) : (execCounterWindowBoundary s).Inv ω := .next (.ite (.windowBoundary h) h)
theorem State.Inv.bandwidths {old new} (h : s.Inv ω) : (s.bandwidths old new).Inv ω :=
  .forEach (fun _ _ h => .forEach (fun _ _ h => .wr h) (.forEach (fun _ _ h => .wr h)
    (.forEach (fun _ _ h => .wr h) (.forEach (fun _ _ h => .wr h) h)))) h
theorem State.Inv.mirrorCounters {bank} (h : s.Inv ω) : (s.mirrorCounters bank).Inv ω := by
  unfold State.mirrorCounters
  split
  · exact h
  · exact .forEach (fun _ _ h => .mirror h) h
theorem execMonSnap_inv (h : s.Inv ω) : (execMonSnap s).Inv ω := by
  refine .next ?_
  split
  · exact h
  · exact .mirrorCounters (.raise (.bandwidths (.wr (.upd h rfl))))
theorem State.Inv.counterSelect {v} (h : s.Inv ω) : (s.counterSelect v).Inv ω := .wr (.wr (.wr h))
theorem execCounterSelect_inv {v} (h : s.Inv ω) : (execCounterSelect v s).Inv ω :=
  .next (.whenOpen (fun _ h => .counterSelect h) h)
theorem State.Inv.monTimer {n} (h : s.Inv ω) : (s.monTimer n).Inv ω := by
  unfold State.monTimer
  exact .iteL (.iteL (.forEach (fun _ _ h => .ite (.injTrigger h) h) (.ite (.monGo h) h)) (fun h => .msyncFall h))
    (fun h => .windowBoundary (.upd h rfl))

/-! ### Boundary -/

theorem State.Inv.noteSince {i} (h : s.Inv ω) : (s.noteSince i).Inv ω := .setLfr h
theorem State.Inv.uncWindow {i} (h : s.Inv ω) : (s.uncWindow i).Inv ω := .ite h (.setLfr h)
theorem State.Inv.degInterval {i} (h : s.Inv ω) : (s.degInterval i).Inv ω := .ite h (.setLfr h)
theorem State.Inv.countFrame {i} (h : s.Inv ω) : (s.countFrame i).Inv ω :=
  .ite (.setLfr (.iteL (.count (.count h)) (fun h => .count h))) h
theorem State.Inv.noteSnr {i} (h : s.Inv ω) : (s.noteSnr i).Inv ω := .setDsp h
theorem State.Inv.deliverTaps {i tendril} (h : s.Inv ω) : (s.deliverTaps i tendril).Inv ω :=
  .noteSnr (.forEach (fun _ _ h => .wr h) h)
theorem State.Inv.checkTsm {i} (h : s.Inv ω) : (s.checkTsm i).Inv ω := .ite (.ite h (.raise (.wr h))) h
theorem State.Inv.rxGoes {i img} (h : s.Inv ω) : (s.rxGoes i img).Inv ω :=
  .setLfr (.sourceGone (.rxFollow (.setRx (.rxdNext h))))
theorem State.Inv.rxBoundary {i} (h : s.Inv ω) : (s.rxBoundary i).Inv ω := by
  unfold State.rxBoundary
  dsimp only
  split
  · refine .iteL ?_ (fun h => .setTdl (.rxGoes h))
    split
    · exact .ite (.ite (.setTdl (.rxGoes h)) (.ite (.setTdl (.rxGoes h)) h)) h
    · exact h
  · split
    · exact .ite (.ite (.setTdl (.rxGoes h)) (.ite (.setTdl (.rxGoes h)) h)) h
    · exact h
theorem State.Inv.consequent {i} (h : s.Inv ω) : (s.consequent i).Inv ω := .setLfr (.wr (.wr h))
theorem State.Inv.evaluate {i} (h : s.Inv ω) : (s.evaluate i).Inv ω :=
  .iteL (.forEach (fun _ _ h => .raise h) (.consequent (.forEach (fun _ _ h => .wr h) h))) (fun h => .failProbation h)
theorem execDefectEvaluation_inv {i fr} (h : s.Inv ω) : (execDefectEvaluation i fr s).Inv ω :=
  .next (.ite (.feedTaps (.deliverTaps (.rxBoundary (.storeFrame (.evaluate
    (.degInterval (.uncWindow (.noteSince (.checkTsm (.countFrame (.acquireFrame h)))))))))))
      (.feedTaps (.clearTaps (.noDefects h))))
theorem State.Inv.gridMark (h : s.Inv ω) : (s.gridMark).Inv ω := .ite (.upd h rfl) h
theorem State.Inv.gridFrame (h : s.Inv ω) : (s.gridFrame).Inv ω :=
  .iteL (.encryptFrame (.iteL (.upd h rfl) (fun h => .txMessages h))) (fun h => .gridMark h)
theorem State.Inv.gridSuperframe (h : s.Inv ω) (ht : s.gridSuperframe = some t) : t.Inv ω := by
  unfold State.gridSuperframe at ht
  split at ht
  · exact Option.some.inj ht ▸ .upd (.forEach (fun _ _ h => .txMessages h) h) rfl
  · split at ht
    · exact Option.some.inj ht ▸ h
    · simp at ht
theorem State.Inv.gridTurn {i} (h : s.Inv ω) (ht : s.gridTurn i = some t) : t.Inv ω := by
  unfold State.gridTurn at ht
  dsimp only at ht
  split at ht
  · exact Option.some.inj ht ▸ h
  · split at ht
    · exact Option.some.inj ht ▸ .gridFrame h
    · simp at ht
theorem execTxFrameBoundary_inv {i psd} (h : s.Inv ω) : (execTxFrameBoundary i psd s).Inv ω := by
  refine .next (.ite ?_ (.ite (.ampFrame (.maskFrame h)) (.ite (.txOutput (.encodeFrame (.txFrame (.ampFrame (.maskFrame h)))))
    h)))
  split
  · next ht => exact .txOutput (.encodeFrame (.txFrame (.ampFrame (.maskFrame (.gridTurn h ht)))))
  · exact h
theorem State.Inv.streamStart {i} (h : s.Inv ω) : (s.streamStart i).Inv ω := .ite (.newStream (.setTx h)) (.setLfr h)
theorem execTxSuperframeBoundary_inv {i} (h : s.Inv ω) : (execTxSuperframeBoundary i s).Inv ω := by
  refine .next (.ite ?_ h)
  extract_lets x
  split
  · exact h
  · next u hu =>
    have hu : u.Inv ω := by
      split at hu
      · exact h.gridSuperframe hu
      · split at hu
        · exact Option.some.inj hu ▸ h
        · simp at hu
    exact .streamStart (.iteL (.setLfr (.ite (.setTx hu) (.wr hu))) fun h => .setTdl h)

end Sys2Proof.Machine
end

section
/-!
The operations of the programs, the modes, the time and the twins keep both invariants, in the order of the model's files.
-/

namespace Sys2Proof.Machine

variable {ω : Watch} {s t : State}

/-! ### ModeOps -/

theorem State.Inv.goDormant (h : s.Inv ω) : (s.goDormant).Inv ω :=
  .upd (.wr (.celSleep (.forEach (fun _ _ h => .ite (.wr h) (.portOff h)) (.wr (.wr (.wr h)))))) rfl
theorem State.Inv.leaveDormant (h : s.Inv ω) : (s.leaveDormant).Inv ω := .upd (.wr (.wr (.wr (.wr h)))) rfl
theorem State.Inv.enterMode {new} (h : s.Inv ω) : (s.enterMode new).Inv ω :=
  .roleUpdate (.idleClients (.refLanes (.lanesAsk (.forEach (fun _ _ h => .askRun h)
    (.iteL (.ite (.goDormant (.iteL (.iteR (.wr (.wr h)) (fun h => .wr h)) (fun h => .upd h rfl)))
      (.iteL (.iteL (.iteR (.wr (.wr h)) (fun h => .wr h)) (fun h => .upd h rfl)) (fun h => .leaveDormant h)))
        (fun h => .wakeAll h))))))
theorem State.Inv.exitDrain {i} (h : s.Inv ω) : (s.exitDrain i).Inv ω := .ite (.drain h) h
theorem State.Inv.exitWake {i} (h : s.Inv ω) : (s.exitWake i).Inv ω := .ite (.wr h) h
theorem State.Inv.exitRecovery {want} (h : s.Inv ω) : (s.exitRecovery want).Inv ω := by
  unfold State.exitRecovery
  exact .raise (.enterMode (.upd (.forEach (fun _ _ h => .exitWake h) (.ite (.forEach (fun _ _ h => .exitDrain h) h) h)) rfl))

/-! ### Programs -/

theorem State.Inv.record {tag program step status sq func fault} (h : s.Inv ω) :
    (s.record tag program step status sq func fault).Inv ω :=
  .mirror (.archiveRecord (.pushAll h))
theorem State.Inv.respond {func program tag outcome fault sq step results} (h : s.Inv ω) :
    (s.respond func program tag outcome fault sq step results).Inv ω :=
  .pushAll h
theorem State.Inv.unqueue {q n} (h : s.Inv ω) : (s.unqueue q n).Inv ω :=
  .setClaim h fun _ hp => .inl (hp.imp_right List.mem_of_mem_filter)
theorem Claim.noneNames_freeClaims (s : State) (q : Nat) : Claim.NoneNames (s.freeClaims q).exec.claims q := by
  intro e he
  obtain ⟨f, -, rfl⟩ := List.mem_map.mp (List.mem_of_mem_filter he)
  simp [Claim.Names]
theorem State.Inv.freeClaims {q} (h : s.Inv ω) : (s.freeClaims q).Inv ω := by
  cases ω with
  | memories => exact h
  | claims p =>
    refine h.imp_right fun hn e he => ?_
    obtain ⟨f, hf, rfl⟩ := List.mem_map.mp (List.mem_of_mem_filter he)
    refine mt (fun hp => ?_) (hn f hf)
    refine hp.imp (fun hh => ?_) List.mem_of_mem_filter
    dsimp only at hh
    split at hh
    · simp at hh
    · exact hh
theorem State.Inv.setReceivers {src l} (h : s.Inv ω) : (s.setReceivers src l).Inv ω := .upd h rfl
theorem State.Inv.unreceive {q src} (h : s.Inv ω) : (s.unreceive q src).Inv ω := .setReceivers h
theorem State.Inv.leaveWait {q} (h : s.Inv ω) : (s.leaveWait q).Inv ω := by
  unfold State.leaveWait
  dsimp only
  refine .setSeq ?_ ⟨id, id⟩
  split
  · exact .unqueue h
  · exact .dropTaken h
  · exact .unreceive h
  · exact h
theorem State.Inv.leavePacket {q} (h : s.Inv ω) : (s.leavePacket q).Inv ω := by
  unfold State.leavePacket
  split
  · exact .setSeq (.dropTaken h) ⟨id, id⟩
  · exact h
/-- A sequencer that no claim names any more may end its program. -/
theorem State.Inv.endSeq {q : Nat} {x : Seq} (h : s.Inv ω) (hn : Claim.NoneNames s.exec.claims q)
    (hx : x.scratch = (s.seq q).scratch) : (s.setSeq q x).Inv ω := by
  cases ω with
  | memories => exact State.setSeq_memWf s q x h (hx ▸ State.seq_scratch_wf s q h)
  | claims p =>
    by_cases hp : p = q
    · exact .inr (hp ▸ hn)
    · exact h.imp_left fun hl => by rw [State.seq_setSeq_ne _ _ _ _ hp]; exact hl
theorem State.Inv.releaseSeq {q} (h : s.Inv ω) : (s.releaseSeq q).Inv ω :=
  .endSeq (.freeClaims (.leavePacket (.leaveWait h))) (Claim.noneNames_freeClaims _ q) rfl
theorem State.Inv.dropInFlight {q} (h : s.Inv ω) : (s.dropInFlight q).Inv ω := .upd h rfl
theorem State.Inv.recoverEnded {done} (h : s.Inv ω) : (s.recoverEnded done).Inv ω :=
  .iteL (.upd h rfl) (fun h => .exitRecovery h)
theorem State.Inv.closeProgram {q status fault results} (h : s.Inv ω) : (s.closeProgram q status fault results).Inv ω :=
  .ite (.iteL (.releaseSeq (.respond (.dropInFlight (.record h)))) (fun h => .recoverEnded h)) h
theorem State.Inv.faultProgram {q code} (h : s.Inv ω) : (s.faultProgram q code).Inv ω := .closeProgram h
theorem State.Inv.preempt {which code} (h : s.Inv ω) : (s.preempt which code).Inv ω :=
  .forEach (fun _ _ h => .ite (.closeProgram h) h) h

/-! ### Modes -/

theorem State.Inv.refuseMode {v} (h : s.Inv ω) : (s.refuseMode v).Inv ω := .raise (.wr (.wr h))
theorem State.Inv.startTransition {v} (h : s.Inv ω) : (s.startTransition v).Inv ω :=
  .iteL (.upd (.wr h) rfl) (fun h => .drainAll (.preempt h))
theorem State.Inv.actRequest {v} (h : s.Inv ω) : (s.actRequest v).Inv ω := by
  unfold State.actRequest
  exact .ite (.refuseMode h) (.ite (.wr h) (.ite (.startTransition h) (.refuseMode h)))
theorem State.Inv.reqMode {v} (h : s.Inv ω) : (s.reqMode v).Inv ω := .ite (.upd (.wr h) rfl) (.actRequest (.wr h))
theorem execReqDormant_inv (h : s.Inv ω) : (execReqDormant s).Inv ω := .next (.reqMode h)
theorem execReqPrepare_inv (h : s.Inv ω) : (execReqPrepare s).Inv ω := .next (.reqMode h)
theorem execReqService_inv (h : s.Inv ω) : (execReqService s).Inv ω := .next (.reqMode h)
theorem execReqShadow_inv (h : s.Inv ω) : (execReqShadow s).Inv ω := .next (.reqMode h)
theorem execReqProving_inv (h : s.Inv ω) : (execReqProving s).Inv ω := .next (.reqMode h)
theorem execReqRecovery_inv (h : s.Inv ω) : (execReqRecovery s).Inv ω := .next (.reqMode h)
theorem execReqPreviousMode_inv (h : s.Inv ω) : (execReqPreviousMode s).Inv ω := .next (.reqMode h)
theorem State.Inv.closeEntry {q} (h : s.Inv ω) : (s.closeEntry q).Inv ω := by
  unfold State.closeEntry
  split
  · exact h
  · exact .respond (.dropInFlight (.record (.memRead h)))
theorem State.Inv.closeInFlight (h : s.Inv ω) : (s.closeInFlight).Inv ω := .forEach (fun _ _ h => .closeEntry h) h
theorem State.Inv.actHeld (h : s.Inv ω) : (s.actHeld).Inv ω := .ite (.actRequest (.upd h rfl)) h
theorem State.Inv.completeTransition {v} (h : s.Inv ω) : (s.completeTransition v).Inv ω :=
  .actHeld (.iteL (.ite (.exitRecovery (.iteL (.upd (.wr h) rfl) (fun h => .preempt h)))
    (.enterMode (.iteL (.upd (.wr h) rfl) (fun h => .preempt h)))) (fun h => .closeInFlight h))
theorem execModeTransitionEnd_inv (h : s.Inv ω) : (execModeTransitionEnd s).Inv ω := by
  refine .next ?_
  split
  · exact h
  · exact .ite (.completeTransition h) h
theorem State.Inv.abandonTransition (h : s.Inv ω) : (s.abandonTransition).Inv ω := .ite (.upd (.wr (.wr h)) rfl) h
theorem State.Inv.faultSlice {code i} (h : s.Inv ω) : (s.faultSlice code i).Inv ω := .ite (.drain h) (.ite (.drain h) h)
theorem State.Inv.faultEffects {code} (h : s.Inv ω) : (s.faultEffects code).Inv ω :=
  .roleUpdate (.iteL (.iteL (.iteL (.forEach (fun _ _ h => .faultSlice h) h) (fun h => .upd h rfl)) (fun h => .upd h rfl))
    (fun h => .celSleep h))
theorem State.Inv.enterRecovery {code} (h : s.Inv ω) : (s.enterRecovery code).Inv ω := by
  unfold State.enterRecovery
  exact .raise (.faultEffects (.forEach (fun _ _ h => .abortRun h) (.preempt (.addSat (.wr (.enterMode (.upd h rfl)))))))
theorem State.Inv.fatal {code} (h : s.Inv ω) : (s.fatal code).Inv ω :=
  .iteR (.abandonTransition h) (fun h => .ite (.faultEffects (.ite (.wr h) h)) (.enterRecovery h))
theorem State.Inv.faultCleared {code} (h : s.Inv ω) : (s.faultCleared code).Inv ω := .upd h rfl
theorem execHostclkCoast_inv (h : s.Inv ω) : (execHostclkCoast s).Inv ω := .next (.ite (.upd (.wr (.wr h)) rfl) h)
theorem execHostclkFailDeclare_inv (h : s.Inv ω) : (execHostclkFailDeclare s).Inv ω :=
  .next (.ite h (.fatal (.raise (.linkDown (.upd (.unmeasured (.wr (.wr (.wr (.wr h))))) rfl)))))
theorem execHostclkReturn_inv (h : s.Inv ω) : (execHostclkReturn s).Inv ω :=
  .next (.ite (.sendAllPending (.faultCleared (.iteL (.upd (.wr (.wr (.wr h))) rfl) (fun h => .upd h rfl))))
    (.ite (.sendAllPending (.upd (.wr h) rfl)) h))
theorem State.Inv.clearHostclkFail (h : s.Inv ω) : (s.clearHostclkFail).Inv ω := .upd (.wr h) rfl
theorem execHostclkFailClear_inv (h : s.Inv ω) : (execHostclkFailClear s).Inv ω := .next (.clearHostclkFail h)
theorem execThermalFault_inv (h : s.Inv ω) : (execThermalFault s).Inv ω := .next (.fatal h)
theorem execThermalClear_inv (h : s.Inv ω) : (execThermalClear s).Inv ω := .next (.faultCleared h)
theorem execRecoveryRestart_inv {aged} (h : s.Inv ω) : (execRecoveryRestart aged s).Inv ω :=
  .next (.ite (.ite (.upd (.wr h) rfl) (.upd h rfl)) h)
theorem State.Inv.clearGivenUp (h : s.Inv ω) : (s.clearGivenUp).Inv ω := .upd (.wr h) rfl
theorem execGivenUpClear_inv (h : s.Inv ω) : (execGivenUpClear s).Inv ω := .next (.clearGivenUp h)
theorem execHostSilenceExpiry_inv (h : s.Inv ω) : (execHostSilenceExpiry s).Inv ω := .next (.ite h (.raise (.wr h)))
theorem State.Inv.hostActive (h : s.Inv ω) : (s.hostActive).Inv ω := .ite (.raise (.wr h)) h
theorem execHostActivity_inv (h : s.Inv ω) : (execHostActivity s).Inv ω := .next (.hostActive h)
theorem State.Inv.sscTake (h : s.Inv ω) : (s.sscTake).Inv ω := .upd h rfl
theorem execSscPeriodEnd_inv (h : s.Inv ω) : (execSscPeriodEnd s).Inv ω := .next (.sscTake h)

/-! ### Time -/

theorem State.Inv.switchTo {i} (h : s.Inv ω) : (s.switchTo i).Inv ω := by
  unfold State.switchTo
  exact .raise (.upd (.addSat (.wr (.wr (.wr h)))) rfl)
theorem State.Inv.freeRun (h : s.Inv ω) : (s.freeRun).Inv ω := .loseSource (.upd (.wr h) rfl)
theorem State.Inv.takeBest (h : s.Inv ω) : (s.takeBest).Inv ω := by
  unfold State.takeBest
  split
  · exact .ite (.wr h) (.switchTo h)
  · exact .freeRun h
theorem State.Inv.selectAuto (h : s.Inv ω) : (s.selectAuto).Inv ω := by
  unfold State.selectAuto
  refine .ite h ?_
  dsimp only
  refine .ite ?_ (.ite (.takeBest h) (.ite ?_ h))
  · split
    · exact .switchTo h
    · exact h
  · split
    · exact .ite h (.switchTo h)
    · exact h
theorem State.Inv.selectGate (h : s.Inv ω) : (s.selectGate).Inv ω := .ite (.selectAuto h) (.ite h (.cmdFails h))
theorem State.Inv.candMove {i st} (h : s.Inv ω) : (s.candMove i st).Inv ω := .iteL (.candStep h) (fun h => .sourceGone h)
theorem State.Inv.candQualify {i} (h : s.Inv ω) : (s.candQualify i).Inv ω := .iteL (.candMove h) (fun h => .selectAuto h)
theorem execCandGate100ms_inv {i off} (h : s.Inv ω) : (execCandGate100ms i off s).Inv ω :=
  .next (.ite (.ite (.ite (.candMove (.raise (.wr (.upd (.wr h) rfl))))
    (.iteL (.raise (.wr (.upd (.wr h) rfl))) (fun h => .candMove h))) (.ite (.candQualify (.upd (.wr h) rfl))
      (.iteL (.upd (.wr h) rfl) (fun h => .candMove h)))) (.wr h))
theorem State.Inv.hardGate {i off} (h : s.Inv ω) : (s.hardGate i off).Inv ω := .ite (.iteR (.wr h) (fun h => .candMove h)) h
theorem execCandGate1ms_inv {offs} (h : s.Inv ω) : (execCandGate1ms offs s).Inv ω :=
  .next (.selectGate (.forEach (fun _ _ h => .hardGate h) h))
theorem execCandWtrExpiry_inv {i} (h : s.Inv ω) : (execCandWtrExpiry i s).Inv ω := .next (.ite (.candQualify h) h)
theorem execCandidateAvailable_inv {i} (h : s.Inv ω) : (execCandidateAvailable i s).Inv ω :=
  .next (.ite (.candMove (.upd h rfl)) h)
theorem execCandAvailLoss_inv {i} (h : s.Inv ω) : (execCandAvailLoss i s).Inv ω := .next (.ite (.sourceGone (.candLost h)) h)
theorem execSelHoldoffExpiry_inv (h : s.Inv ω) : (execSelHoldoffExpiry s).Inv ω := .next (.ite (.takeBest h) h)
theorem State.Inv.selCommand {code cand} (h : s.Inv ω) : (s.selCommand code cand).Inv ω :=
  .ite (.wr (.mirror h)) (.ite (.ite (.iteL (.upd (.wr (.mirror h)) rfl) (fun h => .wr h))
    (.switchTo (.upd (.wr (.mirror h)) rfl))) (.cmdFails (.mirror h)))
theorem execSelForce_inv (h : s.Inv ω) : (execSelForce s).Inv ω := .next (.selCommand h)
theorem execSelManual_inv (h : s.Inv ω) : (execSelManual s).Inv ω := .next (.selCommand h)
theorem execSelClear_inv (h : s.Inv ω) : (execSelClear s).Inv ω := .next (.selCommand h)
theorem execSelLocked_inv (h : s.Inv ω) : (execSelLocked s).Inv ω := .next (.ite (.wr h) h)
theorem State.Inv.setPhase {r} (h : s.Inv ω) : (s.setPhase r).Inv ω := .wr (.wr h)
theorem State.Inv.phaseGo (h : s.Inv ω) : (s.phaseGo).Inv ω := .setPhase (.ite h (.wr h))
theorem execPhaseStepGo_inv (h : s.Inv ω) : (execPhaseStepGo s).Inv ω := .next (.phaseGo h)
theorem execPhaseSlewDone_inv (h : s.Inv ω) : (execPhaseSlewDone s).Inv ω := .next (.setPhase h)

/-! ### Timers -/

theorem State.Inv.setNow {t} (h : s.Inv ω) : (s.setNow t).Inv ω := .upd h rfl
theorem State.Inv.tickStep (h : s.Inv ω) : (s.tickStep).2.Inv ω := by
  unfold State.tickStep
  dsimp only
  split
  · exact h
  · split
    · exact .takeWord h
    · exact h
theorem State.Inv.tick (h : s.Inv ω) : (s.tick).Inv ω := .iteL (.setNow (.tickStep h)) (fun h => .raise h)
theorem State.Inv.slewTick (h : s.Inv ω) : (s.slewTick).Inv ω := .ite h (.ite (.upd h rfl) (.setPhase (.upd h rfl)))
theorem State.Inv.setTarget {n t} (h : s.Inv ω) : (s.setTarget n t).Inv ω := .wr (.wr h)
theorem State.Inv.timerAction {n late} (h : s.Inv ω) : (s.timerAction n late).Inv ω :=
  .ite (.upd h rfl) (.ite (.upd h rfl) (.ite (.ite (.acceptCommit h) (.wr h)) h))
theorem State.Inv.fireOnce {n late} (h : s.Inv ω) : (s.fireOnce n late).Inv ω := by
  unfold State.fireOnce
  exact .timerAction (.captureTrigger (.monTimer (.raise (.iteL (.wr h) (fun h => .wr h)))))
theorem State.Inv.fire {n k late} (h : s.Inv ω) : (s.fire n k late).Inv ω := by
  induction k generalizing s late with
  | zero => exact h
  | succ k ih =>
    unfold State.fire
    extract_lets s1 per s2
    have h1 : s1.Inv ω := .fireOnce h
    have h2 : s2.Inv ω := .wr (.setTarget h1)
    exact .ite (.wr h1) (.ite (ih h2) h2)
theorem State.Inv.armTimer {n} (h : s.Inv ω) : (s.armTimer n).Inv ω := .ite (.fire h) (.wr h)
theorem execTimerArm_inv {n} (h : s.Inv ω) : (execTimerArm n s).Inv ω := .next (.armTimer h)
theorem execTimerDisarm_inv {n} (h : s.Inv ω) : (execTimerDisarm n s).Inv ω := .next (.wr h)
theorem execTimerFire_inv {n} (h : s.Inv ω) : (execTimerFire n s).Inv ω := .next (.ite (.fire h) h)
theorem State.Inv.recompute (h : s.Inv ω) : (s.recompute).Inv ω := .forEach (fun _ _ h => .ite (.fire h) h) h
theorem State.Inv.todLoad (h : s.Inv ω) : (s.todLoad).Inv ω := .setNow h
theorem State.Inv.todAdd {ns} (h : s.Inv ω) : (s.todAdd ns).Inv ω := .setNow h
theorem State.Inv.todCommand {set adj} (h : s.Inv ω) : (s.todCommand set adj).Inv ω :=
  .iteL (.iteL (.ite (.todLoad h) h) (fun h => .todAdd h)) (fun h => .recompute h)
theorem execTodSet_inv (h : s.Inv ω) : (execTodSet s).Inv ω := .next (.todCommand h)
theorem execTodAdj_inv (h : s.Inv ω) : (execTodAdj s).Inv ω := .next (.todCommand h)
theorem execTodWrap_inv (h : s.Inv ω) : (execTodWrap s).Inv ω := .next (.iteL (.setNow h) (fun h => .raise h))
theorem State.Inv.trimFor {off} (h : s.Inv ω) : (s.trimFor off).Inv ω := .ite (.upd h rfl) (.upd (.takeWord h) rfl)
theorem State.Inv.follow {off thr} (h : s.Inv ω) : (s.follow off thr).1.Inv ω := by
  unfold State.follow
  split
  · dsimp only
    exact .trimFor (.recompute (.todAdd h))
  · dsimp only
    exact .trimFor h
theorem State.Inv.ltcMissed (h : s.Inv ω) : (s.ltcMissed).Inv ω := .iteL (.upd h rfl) (fun h => .wr h)
theorem State.Inv.ltcResult {off} (h : s.Inv ω) : (s.ltcResult off).Inv ω :=
  .ite (.wr (.upd (.iteL (.follow (.wr h)) (fun h => .addSat h)) rfl)) (.iteL
    (.upd (.iteL (.follow (.wr h)) (fun h => .addSat h)) rfl) (fun h => .wr h))
theorem execLtcMultiframe_inv (h : s.Inv ω) : (execLtcMultiframe s).Inv ω := by
  refine .next ?_
  refine .ite ?_ h
  dsimp only
  split
  · exact .ite (.ltcResult (.roundFree (.setLfr h))) (.ltcMissed (.setLfr h))
  · exact .ltcMissed (.setLfr h)

/-! ### Twins -/

theorem State.Inv.startAttempt {p probe} (h : s.Inv ω) : (s.startAttempt p probe).Inv ω := .sendIdent (.wr (.wr (.setPort h)))
theorem execLinkAttemptStart_inv {p} (h : s.Inv ω) : (execLinkAttemptStart p s).Inv ω := .next (.ite (.startAttempt h) h)
theorem execLinkBackoffExpiry_inv {p} (h : s.Inv ω) : (execLinkBackoffExpiry p s).Inv ω := .next (.ite (.startAttempt h) h)
theorem execAbsentProbe_inv {p} (h : s.Inv ω) : (execAbsentProbe p s).Inv ω := .next (.ite (.startAttempt h) h)
theorem execMismatchRetry_inv {p} (h : s.Inv ω) : (execMismatchRetry p s).Inv ω := .next (.ite (.startAttempt h) h)
theorem State.Inv.attemptFails {p} (h : s.Inv ω) : (s.attemptFails p).Inv ω :=
  .ite (.wr (.wr h)) (.ite (.raise (.wr (.wr (.wr h)))) (.wr (.wr (.wr h))))
theorem execLinkAttemptTimeout_inv {p} (h : s.Inv ω) : (execLinkAttemptTimeout p s).Inv ω := .next (.ite (.attemptFails h) h)
theorem execAttemptSignalLoss_inv {p} (h : s.Inv ω) : (execAttemptSignalLoss p s).Inv ω :=
  .next (.ite (.ite (.attemptFails (.wr h)) (.sendIdent (.setPort (.wr h)))) h)
theorem execPortIdleTimeout_inv {p} (h : s.Inv ω) : (execPortIdleTimeout p s).Inv ω := .next (.ite (.wr h) h)
theorem State.Inv.toSolo (h : s.Inv ω) : (s.toSolo).Inv ω := .roleUpdate (.wr (.wr (.wr (.upd h rfl))))
theorem State.Inv.roleMode {m} (h : s.Inv ω) : (s.roleMode m).Inv ω := .ite (.enterMode (.abandonTransition h)) h
theorem State.Inv.rescueStore (h : s.Inv ω) : (s.rescueStore).Inv ω :=
  .wr (.wr (.wr (.wr (.wr (.toVt (.vintSet (.upd h rfl)))))))
theorem State.Inv.joinFails (h : s.Inv ω) : (s.joinFails).Inv ω :=
  .ite (.toSolo (.setQueue h)) (.roleMode (.toSolo (.switchBlocks (.rescueStore
    (.upd (.forEach (fun _ _ h => .clearSlot h) h) rfl)))))
theorem State.Inv.partnerLost (h : s.Inv ω) : (s.partnerLost).Inv ω := by
  have h1 : ((s.wr F.PRY_TWIN_STAT_lost 1).raise 0x44 (b2n (!s.isActive) * 2 ^ 23)).Inv ω := .raise (.wr h)
  unfold State.partnerLost
  exact .ite (.toSolo h1) (.ite (.roleMode (.wr (.cipTakeover (.wr (.upd h1 rfl))))) (.toSolo h1))
theorem execTwinHeartbeatLoss_inv (h : s.Inv ω) : (execTwinHeartbeatLoss s).Inv ω := .next (.ite (.partnerLost h) h)
theorem execTakeoverFullAmplitude_inv (h : s.Inv ω) : (execTakeoverFullAmplitude s).Inv ω := .next (.ite (.toSolo h) h)
theorem execPeerActiveAssert_inv (h : s.Inv ω) : (execPeerActiveAssert s).Inv ω :=
  .next (.iteL (.wr h) (fun h => .toSolo (.raise (.roleMode (.wr (.wr h))))))
theorem State.Inv.sendPair {ws} (h : s.Inv ω) : (s.sendPair ws).Inv ω := .pryTx h
theorem State.Inv.pairRefuse {reason} (h : s.Inv ω) : (s.pairRefuse reason).Inv ω := .wr (.wr h)
theorem State.Inv.twinRelease (h : s.Inv ω) : (s.twinRelease).Inv ω :=
  .ite (.forEach (fun _ _ h => .tdlQueue h) (.sendPair (.upd h rfl))) (.pairRefuse h)
theorem execTwinRelease_inv (h : s.Inv ω) : (execTwinRelease s).Inv ω := .next (.whenOpen (fun _ h => .twinRelease h) h)
theorem execReleaseAckTimeout_inv (h : s.Inv ω) : (execReleaseAckTimeout s).Inv ω := .next (.ite (.pairRefuse (.upd h rfl)) h)
theorem execReleaseBoundary_inv (h : s.Inv ω) : (execReleaseBoundary s).Inv ω :=
  .next (.ite (.ite (.roleMode (.wr (.wr (.upd h rfl)))) (.ite (.roleMode (.wr (.wr (.cipTakeover (.upd h rfl))))) h)) h)
theorem State.Inv.detached (h : s.Inv ω) : (s.detached).Inv ω := .ite (.joinFails h) (.ite (.toSolo h) h)
theorem State.Inv.twinDetach (h : s.Inv ω) : (s.twinDetach).Inv ω := .ite (.detached (.sendPair h)) h
theorem execTwinDetach_inv (h : s.Inv ω) : (execTwinDetach s).Inv ω := .next (.whenOpen (fun _ h => .twinDetach h) h)
theorem execJoinTimeout_inv (h : s.Inv ω) : (execJoinTimeout s).Inv ω := .next (.ite (.joinFails h) h)
theorem State.Inv.mirrorSet (h : s.Inv ω) : (s.mirrorSet).Inv ω :=
  .mirrorGrids (.mirrorDomain (.forEach (fun _ _ h => .ite (.mirrorSlot h) h)
    (.mirror (.mirrorCounters (.mirror (.mirror (.forEach (fun _ _ h => .mirror h)
      (.mirror (.mirror (.mirror (.ite (.mirrorCommit (.mirrorArchive (.iteL (.mirrorImage h) (fun h => .mirrorImage h))))
        (.mirror (.mirrorArchive (.iteL (.mirrorImage h) (fun h => .mirrorImage h)))))))))))))))
theorem State.Inv.twinResync (h : s.Inv ω) : (s.twinResync).Inv ω := .ite (.mirrorSet h) h
theorem execTwinResync_inv (h : s.Inv ω) : (execTwinResync s).Inv ω := .next (.whenOpen (fun _ h => .twinResync h) h)
theorem State.Inv.sendJoin {op slot peer} (h : s.Inv ω) : (s.sendJoin op slot peer).Inv ω := .sendPair h
theorem State.Inv.askJoin (h : s.Inv ω) : (s.askJoin).Inv ω := by
  unfold State.askJoin
  split
  · exact .ite (.sendJoin h) h
  · exact h
theorem State.Inv.onJoin {asks peer ident pset side mode check} (h : s.Inv ω) :
    (s.onJoin asks peer ident pset side mode check).Inv ω := by
  unfold State.onJoin
  split
  · exact .ite (.ite (.pairRefuse (.ite (.sendJoin h) h)) (.twinResync (.wr
      (.wr (.wr (.wr (.upd (.ite (.sendJoin h) h) rfl))))))) h
  · exact h
theorem State.Inv.onMsg {p ok f} (hf : ∀ m s, s.Inv ω → (f m s).Inv ω) (h : s.Inv ω) : (s.onMsg p ok f).Inv ω := by
  unfold State.onMsg
  split
  · exact hf _ _ (.setPort h)
  · exact h
theorem State.Inv.mirrorGap (h : s.Inv ω) : (s.mirrorGap).Inv ω := .sendPair (.wr (.wr (.upd h rfl)))
theorem State.Inv.dropMsg {p cls} (h : s.Inv ω) : (s.dropMsg p cls).Inv ω := .iteL (.count (.setPort h)) (fun h => .mirrorGap h)
theorem State.Inv.onTime {p ws} (h : s.Inv ω) : (s.onTime p ws).Inv ω :=
  .ite (.iteL (.upd h rfl) (fun h => .follow (.roundFree h))) h
theorem State.Inv.sendTime {p} (h : s.Inv ω) : (s.sendTime p).Inv ω := .pryTx h
theorem State.Inv.msgDone {p m} (h : s.Inv ω) : (s.msgDone p m).Inv ω := .ite (.onTime h) (.setPort h)
theorem State.Inv.frameJoins {p bits} (h : s.Inv ω) : (s.frameJoins p bits).Inv ω := by
  unfold State.frameJoins
  dsimp only
  split
  · exact .iteL (.setPort (.count h)) (fun h => .dropMsg h)
  · exact .ite (.msgDone (.setPort (.iteL (.setPort (.count h)) (fun h => .dropMsg h))))
      (.setPort (.iteL (.setPort (.count h)) (fun h => .dropMsg h)))
theorem execPoryonFrameRx_inv {p content codes} (h : s.Inv ω) : (execPoryonFrameRx p content codes s).Inv ω :=
  .next (.ite (.iteR (.count h) (fun h => .ite (.ite (.dropMsg h) h) (.frameJoins h))) h)
theorem execMessage_inv {p} (h : s.Inv ω) : (execMessage p s).Inv ω :=
  .next (.onMsg (fun _ _ h => .iteR (.pushAll h) (fun h => .count h)) h)
theorem State.Inv.countMembers (h : s.Inv ω) : (s.countMembers).Inv ω := .wr h
theorem State.Inv.sendDomain {p ws} (h : s.Inv ω) : (s.sendDomain p ws).Inv ω := .pryTx h
theorem State.Inv.domainDown {ws} (h : s.Inv ω) : (s.domainDown ws).Inv ω := .forEach (fun _ _ h => .sendDomain h) h
theorem State.Inv.noteRoute {serial d} (h : s.Inv ω) : (s.noteRoute serial d).Inv ω := .upd h rfl
theorem State.Inv.noteBelow {serial p} (h : s.Inv ω) : (s.noteBelow serial p).Inv ω := .upd h rfl
theorem State.Inv.assignNumber {serial parent dn depth} (h : s.Inv ω) : (s.assignNumber serial parent dn depth).Inv ω := by
  unfold State.assignNumber
  split
  · exact .raise (.wr h)
  · exact .mirrorDomain (.domainDown (.noteRoute (.countMembers (.wr (.wr (.wr (.wr (.wr h))))))))
theorem State.Inv.releaseNumber {k d} (h : s.Inv ω) : (s.releaseNumber k d).Inv ω := by
  induction k generalizing s d with
  | zero => exact h
  | succ k ih =>
    unfold State.releaseNumber
    exact .forEach (fun _ _ h => .wr h) (.forEach (fun _ _ h => .ite (ih h) h) h)
theorem State.Inv.workerLeft {serial} (h : s.Inv ω) : (s.workerLeft serial).Inv ω := by
  unfold State.workerLeft
  split
  · exact .mirrorDomain (.countMembers (.releaseNumber h))
  · exact h
theorem State.Inv.workerLinked {p serial} (h : s.Inv ω) : (s.workerLinked p serial).Inv ω :=
  .ite (.assignNumber (.noteBelow h)) (.sendDomain (.noteBelow h))
theorem State.Inv.reportWorkers (h : s.Inv ω) : (s.reportWorkers).Inv ω := .forEach (fun _ _ h => .ite (.workerLinked h) h) h
theorem State.Inv.onDomain {p ws} (h : s.Inv ω) : (s.onDomain p ws).Inv ω :=
  .ite (.ite (.reportWorkers (.wr h)) (.domainDown (.noteRoute h))) (.ite
    (.ite (.assignNumber (.ite (.noteBelow h) h)) (.iteL (.ite (.noteBelow h) h) (fun h => .workerLeft h)))
      (.sendDomain (.ite (.noteBelow h) h)))
theorem execDomain_inv {p} (h : s.Inv ω) : (execDomain p s).Inv ω := .next (.onMsg (fun _ _ h => .onDomain h) h)
theorem State.Inv.failHeldDomain (h : s.Inv ω) : (s.failHeldDomain).Inv ω := .ite (.failCommit h) h
theorem State.Inv.managerLost (h : s.Inv ω) : (s.managerLost).Inv ω := .failHeldDomain (.upd (.raise (.wr (.wr h))) rfl)
theorem execManagerLoss_inv (h : s.Inv ω) : (execManagerLoss s).Inv ω := .next (.ite (.managerLost h) h)
theorem State.Inv.sendBeat {p} (h : s.Inv ω) : (s.sendBeat p).Inv ω := .sendTime (.pryTx h)
theorem execManagerHeartbeatSend_inv (h : s.Inv ω) : (execManagerHeartbeatSend s).Inv ω :=
  .next (.ite (.forEach (fun _ _ h => .sendBeat h) (.upd h rfl)) h)
theorem State.Inv.onTelem {m} (h : s.Inv ω) : (s.onTelem m).Inv ω :=
  .ite (.ite (.pushAll h) (.pushAll h)) (.ite (.pryTx h) (.count h))
theorem execEvent_inv {p} (h : s.Inv ω) : (execEvent p s).Inv ω := .next (.onMsg (fun _ _ h => .onTelem h) h)
theorem State.Inv.becomeLinked {p w0 w2} (h : s.Inv ω) : (s.becomeLinked p w0 w2).Inv ω :=
  .iteL (.iteL (.raise (.wr (.wr h))) (fun h => .wr h)) (fun h => .workerLinked h)
theorem State.Inv.onIdent {p ws} (h : s.Inv ω) : (s.onIdent p ws).Inv ω :=
  .iteL (.wr (.wr h)) (fun h => .ite (.ite (.becomeLinked h) (.sendIdent h)) (.raise (.wr h)))
theorem execIdent_inv {p} (h : s.Inv ω) : (execIdent p s).Inv ω := .next (.onMsg (fun _ _ h => .onIdent h) h)
theorem State.Inv.afterLinkLoss {p} (h : s.Inv ω) : (s.afterLinkLoss p).Inv ω :=
  .ite (.ite (.partnerLost (.upd h rfl)) (.iteL (.upd h rfl) (fun h => .joinFails h)))
    (.ite (.ite (.wr h) h) (.ite (.workerLeft h) (.sendDomain h)))
theorem execLinkLoss_inv {p} (h : s.Inv ω) : (execLinkLoss p s).Inv ω :=
  .next (.ite (.afterLinkLoss (.startAttempt (.wr (.raise (.wr (.wr h)))))) h)
theorem State.Inv.readiness (h : s.Inv ω) : (s.readiness).Inv ω := .ite (.iteL (.ite (.wr h) h) (fun h => .wr h)) h
theorem execHeartbeatSend_inv (h : s.Inv ω) : (execHeartbeatSend s).Inv ω :=
  .next (.ite (.sendBeat (.upd (.askJoin (.readiness h)) rfl)) h)
theorem State.Inv.twinBeat {w2} (h : s.Inv ω) : (s.twinBeat w2).Inv ω :=
  .iteL (.wr (.upd h rfl)) (fun h => .iteL (.wr h) (fun h => .wr h))
theorem State.Inv.managerBeat {m} (h : s.Inv ω) : (s.managerBeat m).Inv ω :=
  .ite (.ite h (.managerLost h)) (.forEach (fun _ _ h => .sendTime (.pryTx h)) (.upd (.wr h) rfl))
theorem execHeartbeat_inv {p} (h : s.Inv ω) : (execHeartbeat p s).Inv ω :=
  .next (.onMsg (fun _ _ h => .ite (.twinBeat h) (.ite (.managerBeat h) h)) h)
theorem State.Inv.onPair {ws} (h : s.Inv ω) : (s.onPair ws).Inv ω :=
  .ite (.onJoin h) (.ite (.ite (.sendPair (.upd h rfl)) h) (.ite (.ite (.upd h rfl) h)
    (.ite (.twinResync h) (.ite (.detached h) h))))
theorem execPair_inv (h : s.Inv ω) : (execPair s).Inv ω := .next (.onMsg (fun _ _ h => .onPair h) h)
theorem State.Inv.mirImage {c} (h : s.Inv ω) : (s.mirImage c).Inv ω :=
  .ite (.switchBlocks (.wr (.vintSet (.upd h rfl)))) (.ite (.wr (.wr (.vintSet (.upd h rfl))))
    (.ite (.iteR (.upd h rfl) (fun h => .wr (.wr (.upd h rfl)))) (.upd h rfl)))
theorem State.Inv.mirCommit {c} (h : s.Inv ω) : (s.mirCommit c).Inv ω := by
  unfold State.mirCommit
  split
  · exact .ite (.toVt (.wr (.forEach (fun _ _ h => .setTdl (.wr (.wr h))) (.wr (.wr (.upd h rfl)))))) h
  · exact h
theorem State.Inv.mirOutcome {c} (h : s.Inv ω) : (s.mirOutcome c).Inv ω := by
  unfold State.mirOutcome
  dsimp only
  refine .ite (.failCommit h) (.ite ?_ (.ite (.ite (.returnEffect h) h)
    (.ite (.forEach (fun _ _ h => .setTdl h) (.startReturn h)) h)))
  split
  · exact .ite (.takeEffect h) h
  · exact h
theorem State.Inv.mirGrids {l} (h : s.Inv ω) : (s.mirGrids l).Inv ω := by
  fun_induction State.mirGrids s l with
  | case1 s k n a b ws ih => exact ih (.ite (.wr h) (.setMfc h))
  | case2 => exact h
theorem State.Inv.mirKey {c} (h : s.Inv ω) : (s.mirKey c).Inv ω := by
  unfold State.mirKey
  split
  · split
    · exact .upd (.fillSlot h) rfl
    · exact h
  · exact h
theorem State.Inv.mirDomain {c} (h : s.Inv ω) : (s.mirDomain c).Inv ω :=
  .countMembers (.forEach (fun _ _ h => .wr (.wr (.wr (.wr (.wr h))))) (.forEach (fun _ _ h => .forEach (fun _ _ h => .wr h) h)
    (.wr h)))
theorem State.Inv.mirItem {typ c} (h : s.Inv ω) : (s.mirItem typ c).Inv ω :=
  .ite (.mirImage h) (.ite (.mirCommit h) (.ite (.mirOutcome h) (.ite (.ite (.archiveRecord (.pushAll h)) h)
    (.ite (.ite (.psMirrored h) h) (.ite (.selCommand (.ite (.wr h) h))
      (.ite (.upd h rfl) (.ite (.ite (.mirKey h) h) (.ite (.mirDomain h)
        (.mirGrids (.forEach (fun _ _ h => .setMfc h) h))))))))))
theorem State.Inv.onMirror {ws} (h : s.Inv ω) : (s.onMirror ws).Inv ω :=
  .mirItem (.iteL (.upd (.iteL (.upd h rfl) (fun h => .mirrorGap h)) rfl) (fun h => .wr h))
theorem execMirror_inv (h : s.Inv ω) : (execMirror s).Inv ω := .next (.onMsg (fun _ _ h => .ite (.onMirror h) h) h)

end Sys2Proof.Machine
end

section
/-!
The operations of the host, the executive, the resets and the fabric keep both invariants, in the order of the model's files.
-/

namespace Sys2Proof.Machine

variable {ω : Watch} {s t : State}

/-! ### Ageing -/

theorem execSentinelPassStart_inv (h : s.Inv ω) : (execSentinelPassStart s).Inv ω := .next (.ite (.upd h rfl) h)
theorem State.Inv.siteShift {k prot stress} (h : s.Inv ω) : (s.siteShift k prot stress).2.Inv ω := by
  unfold State.siteShift
  dsimp only
  split
  · exact .roundFree h
  · exact .takeWord (.roundFree h)
theorem State.Inv.siteEnd {k v} (h : s.Inv ω) : (s.siteEnd k v).Inv ω := by
  unfold State.siteEnd
  split
  · exact .ite (.wr h) (.wr (.wr (.siteShift h)))
  · exact .wr h
theorem State.Inv.eyeEnd {l mv} (h : s.Inv ω) : (s.eyeEnd l mv).Inv ω := .ite (.wr (.wr h)) (.wr h)
theorem State.Inv.ageStat (h : s.Inv ω) : (s.ageStat).Inv ω := by
  unfold State.ageStat
  split
  · exact h
  · exact .ite (.wr (.wr h)) (.wr (.wr (.takeWord h)))
theorem execSentinelPassEnd_inv {sites eyes} (h : s.Inv ω) : (execSentinelPassEnd sites eyes s).Inv ω :=
  .next (.ite (.raise (.ageStat (.forEach (fun _ _ h => .eyeEnd h) (.forEach (fun _ _ h => .siteEnd h) (.upd h rfl))))) h)
theorem execAgeingRecordWrite_inv {hours ok1 ok2} (h : s.Inv ω) : (execAgeingRecordWrite hours ok1 ok2 s).Inv ω :=
  .next (.ite h (.upd (.iteR (.caskProgram (.ite (.caskErase h) h)) (fun h => .wr h)) rfl))
theorem execAvsVout_inv {ok} (h : s.Inv ω) : (execAvsVout ok s).Inv ω := by
  refine .next ?_
  split
  · exact h
  · exact .ite h (.ite (.upd h rfl) (.ite (.raise (.wr (.upd h rfl))) (.upd h rfl)))

/-! ### Package -/

theorem execCaskSave_inv {i verified} (h : s.Inv ω) : (execCaskSave i verified s).Inv ω := .next (.ite h (.saveGeneration h))
theorem State.Inv.caskGo {op} (h : s.Inv ω) : (s.caskGo op).Inv ω := .ite (.wr (.wr h)) (.upd (.wr (.wr h)) rfl)
theorem execCaskWinRead_inv (h : s.Inv ω) : (execCaskWinRead s).Inv ω := .next (.caskGo h)
theorem execCaskWinProgram_inv (h : s.Inv ω) : (execCaskWinProgram s).Inv ω := .next (.caskGo h)
theorem execCaskWinErase_inv (h : s.Inv ω) : (execCaskWinErase s).Inv ω := .next (.caskGo h)
theorem State.Inv.winNext {a} (h : s.Inv ω) : (s.winNext a).Inv ω := .wr (.wr h)
theorem State.Inv.caskFailed {op a d} (h : s.Inv ω) : (s.caskFailed op a d).Inv ω :=
  .ite (.caskProgram (.takeWord h)) (.iteL (.upd h rfl) (fun h => .caskErase h))
theorem execCaskWinDone_inv {err} (h : s.Inv ω) : (execCaskWinDone err s).Inv ω := by
  refine .next ?_
  split
  · exact h
  · exact .ite (.winNext (.wr (.upd (.wr h) rfl))) (.iteL (.ite (.wr (.caskFailed (.upd (.wr h) rfl)))
      (.ite (.caskProgram (.upd (.wr h) rfl)) (.caskErase (.upd (.wr h) rfl)))) (fun h => .winNext h))
theorem execOtpProg_inv {field value vpp tck} (h : s.Inv ω) : (execOtpProg field value vpp tck s).Inv ω :=
  .next (.ite (.wr (.upd h rfl)) (.ite (.upd h rfl) (.upd h rfl)))
theorem State.Inv.fesGo {i read} (h : s.Inv ω) : (s.fesGo i read).Inv ω := .ite (.wr (.wr h)) (.upd (.wr (.wr h)) rfl)
theorem execFesWrite_inv {i} (h : s.Inv ω) : (execFesWrite i s).Inv ω := .next (.fesGo h)
theorem execFesRead_inv {i} (h : s.Inv ω) : (execFesRead i s).Inv ω := .next (.fesGo h)
theorem execFesFrameDone_inv {i tries} (h : s.Inv ω) : (execFesFrameDone i tries s).Inv ω := by
  refine .next ?_
  split
  · exact h
  · dsimp only
    split
    · exact .iteL (.upd (.wr h) rfl) (fun h => .wr h)
    · exact .ite (.wr (.upd (.wr h) rfl)) h

/-! ### Host -/

theorem State.Inv.hostRequest {f} (h : s.Inv ω) : (s.hostRequest f).Inv ω := .ite (.hostActive h) h
theorem State.Inv.answer32 {dws} (h : s.Inv ω) : (s.answer32 dws).Inv ω := .upd h rfl
theorem State.Inv.pushDw {f d} (h : s.Inv ω) : (s.pushDw f d).Inv ω := .ite (.push h) (.refuseWords h)
theorem execPushWindowWrite_inv {f dws} (h : s.Inv ω) : (execPushWindowWrite f dws s).Inv ω :=
  .next (.ite (.forEach (fun _ _ h => .pushDw h) (.hostRequest h)) h)
theorem State.Inv.popDw {f} (h : s.Inv ω) : (s.popDw f).2.Inv ω := by
  unfold State.popDw
  split
  · exact h
  · split
    · next hr =>
        exact .popWord h hr
    · exact h
theorem State.Inv.popDws {f n} (h : s.Inv ω) : (s.popDws f n).2.Inv ω := by
  induction n generalizing s with
  | zero => exact h
  | succ n ih => exact ih (.popDw h)
theorem execPopWindowRead_inv {f n} (h : s.Inv ω) : (execPopWindowRead f n s).Inv ω :=
  .next (.ite (.answer32 (.popDws (.hostRequest h))) h)
theorem execQueuePush_inv {q w len withPop} (h : s.Inv ω) : (execQueuePush q w len withPop s).Inv ω := by
  refine .next (.ite ?_ (.push h))
  extract_lets s1
  split
  · next hr => exact .queueMarks (.popWord (.arrive h) hr)
  · exact .queueMarks (.arrive h)
theorem State.Inv.peakReset {q} (h : s.Inv ω) : (s.peakReset q).Inv ω := .wr h
theorem execPeakRead_inv {q} (h : s.Inv ω) : (execPeakRead q s).Inv ω := .next (.peakReset (.answer32 h))
theorem State.Inv.queueReset {q} (h : s.Inv ω) : (s.queueReset q).Inv ω :=
  .setQueue (.forEach (fun _ _ h => .closeProgram h) (.wr (.wr (.wr (.setQueue h)))))
theorem execQueueReset_inv {q} (h : s.Inv ω) : (execQueueReset q s).Inv ω := .next (.queueReset h)
theorem State.Inv.dmaEnable {d} (h : s.Inv ω) : (s.dmaEnable d).Inv ω := .ite h (.upd (.wr (.wr (.wr h))) rfl)
theorem execDmaEnable_inv {d} (h : s.Inv ω) : (execDmaEnable d s).Inv ω := .next (.dmaEnable h)
theorem execDmaPacketWrite_inv {d err} (h : s.Inv ω) : (execDmaPacketWrite d err s).Inv ω := by
  refine .next ?_
  dsimp only
  split
  · exact h
  · exact .ite (.ite (.signalVec (.wr (.wr h)))
      (.iteL (.wr (.withHif (.popWords h) (Hif.ringWrite_wf _ _ _ _ _))) (fun h => .sendNotice h))) h
theorem execEventOccurrence_inv {e data} (h : s.Inv ω) : (execEventOccurrence e data s).Inv ω :=
  .next (.raise (.ite (.upd h rfl) h))
theorem State.Inv.msixChange {f v l} (h : s.Inv ω) : (s.msixChange f v l).Inv ω := by
  unfold State.msixChange
  split
  · exact .upd h rfl
  · exact .upd h rfl
  · exact .upd h rfl
  · exact .upd h rfl
theorem execMsixPendingSend_inv {f v why} (h : s.Inv ω) : (execMsixPendingSend f v why s).Inv ω :=
  .next (.ite (.sendAllPending (.msixChange h)) h)
theorem State.Inv.resetFunction {f} (h : s.Inv ω) : (s.resetFunction f).Inv ω := by
  unfold State.resetFunction
  extract_lets c s1 s2 s3 s4 x s5
  have h1 : s1.Inv ω := .ite (.upd h rfl) h
  have h4 : s4.Inv ω := .wr (.queueReset (.queueReset (.preempt h1)))
  clear_value s4
  have h5 : s5.Inv ω := .upd h4 rfl
  clear_value s5
  exact .msixReset (.iteR h5 fun h => .cipFlr h)
theorem execFunctionLevelReset_inv {f} (h : s.Inv ω) : (execFunctionLevelReset f s).Inv ω :=
  .next (.forEach (fun _ _ h => .resetFunction h) h)

/-! ### Executive -/

theorem State.Inv.takeInner (h : s.Inv ω) : (s.takeInner).Inv ω := by
  unfold State.takeInner
  split
  · exact .upd h rfl
  · split
    · exact .upd h rfl
    · exact .setPlanner h
theorem State.Inv.seqTick {ticks} (h : s.Inv ω) : (s.seqTick ticks).Inv ω := .upd h rfl
theorem State.Inv.clearScratch {q} (h : s.Inv ω) : (s.clearScratch q).Inv ω :=
  .of_memWf h (State.clearScratch_memWf s q) rfl rfl
theorem State.Inv.started {q} (h : s.Inv ω) : (s.started q).Inv ω := .upd (.memWrite (.record h)) rfl
theorem State.Inv.startProgram {f q len ws} (h : s.Inv ω) : (s.startProgram f q len ws).Inv ω := by
  have hstart (t : State) (src : Option Nat) : (t.seq q).Keeps (t.dispatched f len ws src) := ⟨fun _ => rfl, fun _ => rfl⟩
  unfold State.startProgram
  dsimp only
  split
  · exact .iteL (.setSeq (.putWords (.takeInner (.started (.setSeq (.clearScratch h) (hstart ..))))) ⟨id, id⟩)
      (fun h => .upd h rfl)
  · exact .feed (.setQueue (.started (.setSeq (.clearScratch h) (hstart ..))))
theorem State.Inv.rejectPkt {f len ws reason} (h : s.Inv ω) : (s.rejectPkt f len ws reason).Inv ω := by
  unfold State.rejectPkt
  refine .iteL (.respond (.record (.addSat ?_))) (fun h => .recoverEnded h)
  split
  · exact .takeInner h
  · dsimp only
    split
    · exact .setQueue h
    · exact h
theorem execPacketDispatch_inv (h : s.Inv ω) : (execPacketDispatch s).Inv ω := by
  refine .next (.ite ?_ h)
  extract_lets x
  split
  · exact .upd h rfl
  · extract_lets s1
    have h1 : s1.Inv ω := .upd h rfl
    clear_value s1
    split
    · exact h1
    · refine .ite (.rejectPkt h1) ?_
      split
      · exact .startProgram h1
      · exact h1
theorem execPacketTimeout_inv {q} (h : s.Inv ω) : (execPacketTimeout q s).Inv ω := .next (.ite (.closeProgram h) h)
theorem execBudgetExpiry_inv {q} (h : s.Inv ω) : (execBudgetExpiry q s).Inv ω := .next (.closeProgram h)
theorem execSqWatchdogExpiry_inv {q} (h : s.Inv ω) : (execSqWatchdogExpiry q s).Inv ω :=
  .next (.ite (.closeProgram (.raise (.wr h))) h)
theorem State.Inv.hostAbort {func} (h : s.Inv ω) : (s.hostAbort func).Inv ω := by
  unfold State.hostAbort
  dsimp only
  split
  · exact .closeProgram (.wr h)
  · exact .wr (.wr h)
theorem execHostAbort_inv {func} (h : s.Inv ω) : (execHostAbort func s).Inv ω := .next (.hostAbort h)
theorem State.Inv.clearStore (h : s.Inv ω) : (s.clearStore).Inv ω := .of_memWf h (State.clearStore_memWf s) rfl rfl
theorem State.Inv.loadRefused (h : s.Inv ω) : (s.loadRefused).Inv ω := .wr h
theorem State.Inv.loadBegin {withVerify} (h : s.Inv ω) : (s.loadBegin withVerify).Inv ω :=
  .ite (.loadRefused h) (.upd (.wr (.wr (.wr (.wr (.clearStore h))))) rfl)
theorem execLoadBegin_inv {withVerify} (h : s.Inv ω) : (execLoadBegin withVerify s).Inv ω := .next (.loadBegin h)
theorem State.Inv.keepStore {n} (h : s.Inv ω) : (s.keepStore n).Inv ω := .of_memWf h (State.keepStore_memWf s n) rfl rfl
theorem State.Inv.loadWord {a w} (h : s.Inv ω) : (s.loadWord a w).Inv ω := by
  cases ω with
  | memories => exact State.loadWord_memWf s a w h
  | claims q =>
    unfold State.loadWord
    split
    · exact .ite (.iteL (.memWrite h) id) h
    · exact h
theorem State.Inv.loadData {w} (h : s.Inv ω) : (s.loadData w).Inv ω := .ite (.wr (.loadWord h)) (.loadRefused h)
theorem execLoadData_inv {w} (h : s.Inv ω) : (execLoadData w s).Inv ω := .next (.loadData h)
theorem State.Inv.loadVerify {withBegin} (h : s.Inv ω) : (s.loadVerify withBegin).Inv ω :=
  .ite (.loadRefused h) (.upd (.wr (.wr h)) rfl)
theorem execLoadVerify_inv {withBegin} (h : s.Inv ω) : (execLoadVerify withBegin s).Inv ω := .next (.loadVerify h)
theorem execLoadVerifyDone_inv (h : s.Inv ω) : (execLoadVerifyDone s).Inv ω :=
  .next (.ite (.ite (.wr (.wr (.keepStore (.wr (.wr h))))) (.wr (.clearStore (.wr (.wr h))))) h)

/-! ### Resets -/

theorem State.Inv.carry {old : State} {fs} (h : s.Inv ω) : (old.carry fs s).Inv ω := .forEach (fun _ _ h => .wr h) h
theorem State.Inv.unbooted {ph} (h : s.Inv ω) : (s.unbooted ph).Inv ω := .upd (.wr (.wr (.wr (.wr h)))) rfl
theorem State.Inv.cold {ph} (h : s.Inv ω) : (s.cold ph).Inv ω := by
  unfold State.cold
  refine .unbooted (.carry ?_)
  cases ω with
  | memories =>
    obtain ⟨-, -, hca, hhm, hce, -⟩ := (State.memWf_iff s).mp h
    obtain ⟨-, -, -, -, hhard⟩ := (Cel.wf_iff _).mp hce
    exact (State.memWf_iff _).mpr ⟨rfl, rfl, hca, hhm, (Cel.wf_iff _).mpr ⟨rfl, rfl, rfl, rfl, hhard⟩, rfl⟩
  | claims q => exact .inr fun e he => nomatch he
theorem State.Inv.fundamental (h : s.Inv ω) : (s.fundamental).Inv ω := by
  unfold State.fundamental
  refine .unbooted (.carry (.forEach (fun _ _ h => .setConv h) ?_))
  cases ω with
  | memories =>
    obtain ⟨-, -, hca, hhm, hce, -⟩ := (State.memWf_iff s).mp h
    obtain ⟨hr, hb, -, -, hhard⟩ := (Cel.wf_iff _).mp hce
    exact (State.memWf_iff _).mpr
      ⟨rfl, rfl, hca, hhm, (Cel.wf_iff _).mpr ⟨tabWf_filter _ _ _ hr, tabWf_filter _ _ _ hb, rfl, rfl, hhard⟩, rfl⟩
  | claims q => exact .inr fun e he => nomatch he
theorem State.Inv.latch {st} (h : s.Inv ω) : (s.latch st).Inv ω := .upd (.wr (.wr (.wr (.wr (.wr (.wr h)))))) rfl
theorem State.Inv.toBoot {ph} (h : s.Inv ω) : (s.toBoot ph).Inv ω := .upd h rfl
theorem execColdStart_inv {st} (h : s.Inv ω) : (execColdStart st s).Inv ω := .next (.latch (.wr (.cold h)))
theorem execVddaonLow_inv (h : s.Inv ω) : (execVddaonLow s).Inv ω := .next (.cold h)
theorem execPerstNAssert_inv (h : s.Inv ω) : (execPerstNAssert s).Inv ω := .next (.ite h (.wr (.fundamental h)))
theorem execPerstNDeassert_inv {st} (h : s.Inv ω) : (execPerstNDeassert st s).Inv ω := .next (.ite (.toBoot (.latch h)) h)
theorem execUpReceiverFirstLock_inv {st} (h : s.Inv ω) : (execUpReceiverFirstLock st s).Inv ω :=
  .next (.ite (.toBoot (.latch h)) h)
theorem execOscdlyExpiry_inv {present} (h : s.Inv ω) : (execOscdlyExpiry present s).Inv ω :=
  .next (.ite (.ite (.upd (.toBoot (.wr (.wr h))) rfl) (.toBoot (.wr h))) h)
theorem execHostClockFound_inv (h : s.Inv ω) : (execHostClockFound s).Inv ω := .next (.ite (.toBoot h) h)
theorem execMainLoopLock_inv (h : s.Inv ω) : (execMainLoopLock s).Inv ω := .next (.ite (.upd (.toBoot (.wr h)) rfl) h)
theorem tabWfFrom_range {α : Type} [DecidableEq α] (d : α) (f : Nat → α) (hf : ∀ j, f j ≠ d) (n lo : Nat) :
    tabWfFrom d lo ((List.range' lo n).map fun j => (j, f j)) = true := by
  induction n generalizing lo with
  | zero => rfl
  | succ n ih =>
    rw [List.range'_succ, List.map_cons, tabWfFrom, ih]
    simp [hf]
theorem State.Inv.bootLoad {k} (h : s.Inv ω) : (s.bootLoad k).Inv ω := by
  refine .of_memWf (State.Inv.wr h) (fun hm => ?_) rfl rfl
  obtain ⟨-, hlb, hca, hhm, hce, hsq⟩ := (State.memWf_iff _).mp hm
  obtain ⟨hr, hb, hk, hl, hh⟩ := (Cel.wf_iff _).mp hce
  refine (State.memWf_iff _).mpr ⟨?_, hlb, hca, hhm, (Cel.wf_iff _).mpr ⟨tabWf_foldl _ _ _ _ _ hr, hb, hk, hl, hh⟩, hsq⟩
  simp only [State.bootLoad, List.range_eq_range', tabWf]
  exact tabWfFrom_range none _ (fun _ => Option.some_ne_none _) _ 0
theorem execBootstrapImageVerify_inv {cask} (h : s.Inv ω) : (execBootstrapImageVerify cask s).Inv ω := by
  refine .next ?_
  refine .ite ?_ h
  dsimp only
  refine .ite (.wr (.bootLoad (.toBoot (.iteL ?_ (fun h => .wr h))))) (.ite
    (.wr (.bootLoad (.toBoot (.iteL ?_ (fun h => .wr h))))) (.wr (.wr (.toBoot (.iteL ?_ (fun h => .wr h))))))
  · split
    · exact .wr (.wr (.wr h))
    · exact .wr (.wr (.wr h))
  · split
    · exact .wr (.wr (.wr h))
    · exact .wr (.wr (.wr h))
  · split
    · exact .wr (.wr (.wr h))
    · exact .wr (.wr (.wr h))
theorem State.Inv.newestOf {rs} (h : s.Inv ω) : (s.newestOf rs).2.Inv ω := by
  unfold State.newestOf
  split
  · exact h
  · split
    · exact h
    · exact .takeWord h
theorem State.Inv.loadRecords {i} (h : s.Inv ω) : (s.loadRecords i).Inv ω := by
  unfold State.loadRecords
  dsimp only
  split
  · exact .wr (.setConv (.newestOf h))
  · exact .loadTrims (.wr (.wr (.setConv (.newestOf (.newestOf h)))))
theorem State.Inv.loadAgeing (h : s.Inv ω) : (s.loadAgeing).Inv ω := by
  unfold State.loadAgeing
  refine .ite ?_ h
  dsimp only
  split
  · exact .upd h rfl
  · exact h
theorem execPowerUpComplete_inv {rescue} (h : s.Inv ω) : (execPowerUpComplete rescue s).Inv ω :=
  .next (.ite (.toBoot (.upd (.iteL (.wr (.wr (.switchBlocks (.loadAgeing
    (.forEach (fun _ _ h => .loadRecords h) (.upd (.wr h) rfl)))))) (fun h => .wr h)) rfl)) h)
theorem State.Inv.setCrossing {x c} (h : s.Inv ω) : (s.setCrossing x c).Inv ω := .upd h rfl
theorem State.Inv.flushCrossing {x sideB items} (h : s.Inv ω) : (s.flushCrossing x sideB items).Inv ω := .setCrossing h
theorem execCrossingReset_inv {x sideB items} (h : s.Inv ω) : (execCrossingReset x sideB items s).Inv ω :=
  .next (.flushCrossing h)
theorem execCrossingReq_inv {x} (h : s.Inv ω) : (execCrossingReq x s).Inv ω := .next (.ite (.setCrossing h) h)
theorem execCrossingAck_inv {x} (h : s.Inv ω) : (execCrossingAck x s).Inv ω := .next (.ite (.setCrossing h) h)
theorem execCrossingReqResend_inv {x} (h : s.Inv ω) : (execCrossingReqResend x s).Inv ω := .next (.ite (.setCrossing h) h)
theorem State.Inv.stopSeq {q} (h : s.Inv ω) : (s.stopSeq q).Inv ω := by
  have hidle : ((s.releaseSeq q).seq q).live = false := by
    unfold State.releaseSeq
    rw [State.seq_setSeq_self]
    rfl
  exact .setSeq (.releaseSeq h) ⟨fun hl => absurd hl (by rw [hidle]; decide), id⟩
theorem State.Inv.ccReset {byWdog} (h : s.Inv ω) : (s.ccReset byWdog).Inv ω := by
  unfold State.ccReset
  extract_lets s1 u c x s2 s3 s4 s5 s6
  have h1 : s1.Inv ω := .forEach (fun _ _ h => .stopSeq h) h
  clear_value s1
  have h2 : s2.Inv ω := .upd (.wr h1) rfl
  clear_value s2
  have h4 : s4.Inv ω := .forEach (fun _ _ h => .flushCrossing (.takeWord h)) (.forEach (fun _ _ h => .queueReset h) h2)
  have h6 : s6.Inv ω := .iteL (.iteL h4 fun h => .mirrorGap h) fun h => .failCommit h
  exact .setStaged h6
theorem execCcResetCmd_inv (h : s.Inv ω) : (execCcResetCmd s).Inv ω := .next (.ccReset h)
theorem execCcWatchdogExpiry_inv {within60s} (h : s.Inv ω) : (execCcWatchdogExpiry within60s s).Inv ω :=
  .next (.iteL (.upd (.ccReset h) rfl) (fun h => .startReturn h))
theorem State.Inv.releaseCrossing {x} (h : s.Inv ω) : (s.releaseCrossing x).Inv ω := .setCrossing h
theorem State.Inv.resetCrossing {i} (h : s.Inv ω) : (s.resetCrossing i).Inv ω := .setCrossing (.flushCrossing (.takeWord h))
theorem State.Inv.reapplyCurrent (h : s.Inv ω) : (s.reapplyCurrent).Inv ω := .iteL (.upd (.vintRead h) rfl) (fun h => .fatal h)
theorem State.Inv.executiveRestart (h : s.Inv ω) : (s.executiveRestart).Inv ω := by
  have hrestart (q : Nat) (t : State) (h : t.Inv ω) :
      (if (t.seq q).state = .inReset then t.setSeq q { t.seq q with state := .idle } else t).Inv ω := by
    split
    · next hq => exact .setSeq h ⟨fun hl => by simp [Seq.live, hq] at hl, id⟩
    · exact h
  unfold State.executiveRestart
  extract_lets c s1 s2 s3 s4 s5 s6 x s7 s8
  have h4 : s4.Inv ω := .closeInFlight (.wr (.wr (.forEach (fun _ _ h => .releaseCrossing h) (.forEach hrestart h))))
  have h6 : s6.Inv ω := .raise (.wr (.iteL h4 fun h => .recoverEnded h))
  clear_value s6
  have h7 : s7.Inv ω := .upd h6 rfl
  exact .iteR (.iteL h7 fun h => .fatal h) fun h => .reapplyCurrent h
theorem execExecutiveRestart_inv (h : s.Inv ω) : (execExecutiveRestart s).Inv ω := .next (.ite (.executiveRestart h) h)

/-! ### Faults -/

theorem State.Inv.discardBlocks {i} (h : s.Inv ω) : (s.discardBlocks i).Inv ω := .poolMarks (.upd h rfl)
theorem State.Inv.relockSlice {i} (h : s.Inv ω) : (s.relockSlice i).Inv ω :=
  .wr (.setTx (.frameOut (.syncNone (.sourceGone (.acqRestart (.discardBlocks h))))))
theorem State.Inv.resetSlice {i} (h : s.Inv ω) : (s.resetSlice i).Inv ω := .ite (.relockSlice (.resetCrossing (.wr h))) h
theorem State.Inv.sliceResetCmd {i} (h : s.Inv ω) : (s.sliceResetCmd i).Inv ω := .resetSlice (.wr h)
theorem execSliceResetCmd_inv {i} (h : s.Inv ω) : (execSliceResetCmd i s).Inv ω := .next (.sliceResetCmd h)
theorem execFramePulseWatchdog_inv {i within1s} (h : s.Inv ω) : (execFramePulseWatchdog i within1s s).Inv ω :=
  .next (.ite (.ite (.raise (.upd (.resetSlice h) rfl)) (.upd (.resetSlice h) rfl)) h)
theorem execDpSliceHoldEnd_inv {i} (h : s.Inv ω) : (execDpSliceHoldEnd i s).Inv ω :=
  .next (.ite (.iteL (.upd h rfl) (fun h => .relockSlice h)) h)
theorem State.Inv.markFrame {i} (h : s.Inv ω) : (s.markFrame i).Inv ω := .setLfr h
theorem State.Inv.stallDrops {b i} (h : s.Inv ω) : (s.stallDrops b i).Inv ω :=
  .ite (.markFrame h) (.ite (.forEach (fun _ _ h => .ite (.setCsf h) h) h) h)
theorem execDpStall_inv {b i stage} (h : s.Inv ω) : (execDpStall b i stage s).Inv ω :=
  .next (.ite (.raise (.addSat (.stallDrops h))) h)
theorem execSharedStageWatchdog_inv {b within10s} (h : s.Inv ω) : (execSharedStageWatchdog b within10s s).Inv ω :=
  .next (.ite (.iteL (.upd (.raise (.addSat (.mapMeasureAll h))) rfl) (fun h => .fatal h)) h)
theorem State.Inv.engineTick {ticks} (h : s.Inv ω) : (s.engineTick ticks).Inv ω := .upd h rfl
theorem execCalEngineGrant_inv (h : s.Inv ω) : (execCalEngineGrant s).Inv ω := by
  refine .next ?_
  refine .ite h ?_
  split
  · exact h
  · exact .startCal (.upd h rfl)

/-! ### Fabric -/

theorem execGateCloseRequest_inv {b busy} (h : s.Inv ω) : (execGateCloseRequest b busy s).Inv ω := .next (.setGate h)
theorem State.Inv.readEffect {addr is} (h : s.Inv ω) : (s.readEffect addr is).Inv ω :=
  .ite (.peakReset h) (.ite (.wr h) (.ite (.wr h) (.ite (.wr (.wr h)) h)))
theorem State.Inv.fabricRead {a} (h : s.Inv ω) : (s.fabricRead a).2.Inv ω := by
  unfold State.fabricRead
  dsimp only
  split
  · exact h
  · split
    · exact h
    · exact .iteR (.settleGate h) (fun h => .readEffect h)
theorem State.Inv.fieldWrite {is w f} (h : s.Inv ω) : (s.fieldWrite is w f).Inv ω := by
  unfold State.fieldWrite
  split
  · exact .ite h (.wr h)
  · exact .wr h
  · exact h
theorem State.Inv.tdacMoved (h : s.Inv ω) : (s.tdacMoved old).Inv ω := .forEach (fun _ _ h => .ite h (.upd h rfl)) h
theorem State.Inv.chainMoved {c} (h : s.Inv ω) : (s.chainMoved old c).Inv ω := .ite (.resetChain h) h
theorem State.Inv.run {f : State → Out} (h : s.Inv ω) (hf : (f s).Inv ω) : (s.run f).Inv ω := by
  unfold State.run
  split
  · next t ht => exact hf t ht
  · exact h
theorem State.Inv.vtgCommand {w} (h : s.Inv ω) : (s.vtgCommand w).Inv ω := by
  unfold State.vtgCommand
  split
  · exact .vtgReturn h
  · exact .endProbation h
  · exact .vtgFail h
  · exact .withdraw h
  · exact .resetStaged h
  · exact .loadArch h
  · exact .loadStore h
  · exact .vtgRelease h
  · exact .vtgReturn h
  · exact .vtgNomatch h
theorem State.Inv.liveEffect {old addr is w} (h : s.Inv ω) : (s.liveEffect old addr is w).Inv ω := by
  unfold State.liveEffect
  exact .ite (.reqMode h) <| .ite (.iteL h fun h => .clearGivenUp h) <| .ite (.iteL h fun h => .clearHostclkFail h) <|
    .ite (.iteR h fun h => .sscTake h) <| .ite (.mirror h) <| .ite (.refLanes (.lanesAsk h)) <| .ite (.mirrorDomain h) <|
    .ite (.loadData h) <| .ite (.iteR h fun h => .queueMarks h) <| .ite (.queueMarks h) <|
    .ite (.ite (.dmaEnable (.wr h)) h) <| .ite (.tdacMoved h) <| .ite (.chainMoved h) <| .ite (.requestResp h) <|
    .ite (.ite h (.upd h rfl)) <| .ite (.counterSelect h) h
theorem State.Inv.keyCommand {f} (h : s.Inv ω) : (s.keyCommand f).Inv ω := by
  unfold State.keyCommand
  split
  · exact .run h (execKeyLoadSlot_inv h)
  · exact .run h (execKeyEraseSlot_inv h)
  · exact .run h (execKekLoad_inv h)
  · exact .run h (execKekErase_inv h)
theorem State.Inv.accCommand (h : s.Inv ω) : (s.accCommand).Inv ω := by
  unfold State.accCommand
  split
  · exact .run h (execAccRead_inv h)
  · exact .run h (execAccWrite_inv h)
  · exact .run h (execAccRawWrite_inv h)
  · exact .wr h
theorem State.Inv.pprCommand (h : s.Inv ω) : (s.pprCommand).Inv ω :=
  have h1 : ({ s with free := s.free + 1 } : State).Inv ω := .upd h rfl
  .run h1 (execPprGo_inv h1)
theorem State.Inv.command {rfw addr is w} (hrfw : ∀ s w, s.Inv ω → (rfw s w).Inv ω) (h : s.Inv ω) :
    (State.command rfw s addr is w).Inv ω := by
  unfold State.command
  extract_lets i b23 b22 hi lo
  have hhi {s : State} {f : State → State} (h : s.Inv ω) (hf : s.Inv ω → (f s).Inv ω) : (hi f s).Inv ω := .iteL h hf
  have hlo {s : State} {f : State → State} (h : s.Inv ω) (hf : s.Inv ω → (f s).Inv ω) : (lo f s).Inv ω := .iteL h hf
  clear_value hi lo
  exact .ite (hlo (hhi h fun h => .ccReset h) fun h => .resetSlice h) <| .ite (hhi h fun h => .caskGo h) <|
    .ite (hhi h fun h => .fesGo h) <| .ite (hhi h fun h => .selCommand h) <| .ite (hhi h fun h => .phaseGo h) <|
    .ite (.todCommand h) <| .ite (hlo (hhi h fun h => .armTimer h) fun h => .wr h) <|
    .ite (hlo (hhi h fun h => .run h (execRecalRunCmd_inv h)) fun h => .abortRun h) <|
    .ite (hlo (hhi h fun h => .run h (execCaptureGo_inv h)) fun h => .stopCapture h) <|
    .ite (hhi h fun h => .sourceGone (.acqRestart h)) <| .ite (hhi h fun h => .run h (execMailboxGo_inv h)) <|
    .ite (hlo h fun h => .run h (execMailboxRelease_inv h)) <|
    .ite (.iteL (hhi h fun h => .psCommand h) fun h => .run h (execRealign_inv h)) <|
    .ite (hhi h fun h => .keyCommand h) <| .ite (hhi h fun h => .run h (execMsgQueueGo_inv h)) <|
    .ite (hhi h fun h => .run h (execCellarRetrain_inv h)) <| .ite (hhi h fun h => .accCommand h) <|
    .ite (hhi h fun h => .run h (execTouchGo_inv h)) <| .ite (hhi h fun h => .pprCommand h) <|
    .ite (hhi h fun h => .run h (execMemInjArm_inv h)) <| .ite (hhi h fun h => .hostAbort h) <| .ite (.vtgCommand h) <|
    .ite (hlo (hhi h fun h => .stageGo h) fun h => .stageRead h) <|
    .ite (.ite (.loadBegin h) (hlo h fun h => .loadVerify h)) <| .ite (.queueReset h) <|
    .ite (hlo (hhi h fun h => .monGo h) fun h => .monStop h) <| .ite (hhi h fun h => .fgRequest h) <|
    .ite (hhi h fun h => .injGo h) <| .ite (hhi h fun h => .accSnap h) <| .ite (hhi h fun h => .syncGo h) <|
    .ite (.iteL (hlo (hhi h fun h => .twinRelease h) fun h => .twinDetach h) fun h => .twinResync h) <|
    .ite (hhi h fun h => hrfw _ _ h) h
theorem State.Inv.regWrite {rfw gated r is w} (hrfw : ∀ s w, s.Inv ω → (rfw s w).Inv ω) (h : s.Inv ω) :
    (State.regWrite rfw s gated r is w).2.Inv ω :=
  .iteL (.iteL (.forEach (fun _ _ h => .fieldWrite h) h) (fun h => .liveEffect h)) (fun h => .command hrfw h)
theorem State.Inv.fabricWriteWith {rfw a w} (hrfw : ∀ s w, s.Inv ω → (rfw s w).Inv ω) (h : s.Inv ω) :
    (State.fabricWriteWith rfw s a w).2.Inv ω := by
  unfold State.fabricWriteWith
  dsimp only
  split
  · exact h
  · split
    · exact h
    · exact .regWrite hrfw (.settleGate h)
theorem State.Inv.rfwEnd {w status} (h : s.Inv ω) : (s.rfwEnd w status).Inv ω := .upd (.wr (.wr h)) rfl
theorem State.Inv.innerRead {a} (h : s.Inv ω) : (s.innerRead a).2.Inv ω := by
  unfold State.innerRead
  split
  · exact h
  · exact .fabricRead h
theorem State.Inv.innerWrite {wr a w} (hwr : ∀ s a w, s.Inv ω → (wr s a w).2.Inv ω) (h : s.Inv ω) :
    (State.innerWrite wr s a w).2.Inv ω := by
  unfold State.innerWrite
  split
  · exact h
  · exact hwr _ _ _ h
theorem State.Inv.rfwOwn {wr w} (hwr : ∀ s a w, s.Inv ω → (wr s a w).2.Inv ω) (h : s.Inv ω) : (State.rfwOwn wr s w).Inv ω := by
  unfold State.rfwOwn
  refine .ite (.rfwEnd (.innerWrite hwr h)) ?_
  split
  · next hr => exact .rfwEnd (.wr (.of_snd hr (.innerRead h)))
  · next hr => exact .rfwEnd (.of_snd hr (.innerRead h))
theorem State.Inv.rfwStart {wr w} (hwr : ∀ s a w, s.Inv ω → (wr s a w).2.Inv ω) (h : s.Inv ω) : (State.rfwStart wr s w).Inv ω :=
  .ite (.wr h) (.ite (.rfwOwn hwr (.wr h)) (.ite (.rfwEnd (.wr h)) (.pryTx (.upd (.wr h) rfl))))
theorem State.Inv.writeDepth {n a w} (h : s.Inv ω) : (State.writeDepth n s a w).2.Inv ω := by
  induction n generalizing s a w with
  | zero => exact .fabricWriteWith (fun _ _ h => .wr h) h
  | succ n ih => exact .fabricWriteWith (fun _ _ h => .rfwStart (fun _ _ _ h => ih h) h) h
theorem State.Inv.fabricWrite {a w} (h : s.Inv ω) : (s.fabricWrite a w).2.Inv ω := .writeDepth h
theorem execFabricWrite_inv {addr value} (h : s.Inv ω) : (execFabricWrite addr value s).Inv ω := .next (.fabricWrite h)
theorem State.Inv.hostError {a} (h : s.Inv ω) : (s.hostError a).Inv ω := by
  unfold State.hostError
  exact .raise (.wr (.ite h (.wr h)))
theorem State.Inv.barRead {a} (h : s.Inv ω) : (s.barRead a).2.Inv ω := by
  unfold State.barRead
  split
  · next hr => exact .of_snd hr (.fabricRead h)
  · next hr =>
    dsimp only
    exact .hostError (.of_snd hr (.fabricRead h))
theorem State.Inv.barWrite {a d} (h : s.Inv ω) : (s.barWrite a d).Inv ω :=
  .ite (.iteR (.fabricWrite h) (fun h => .hostError h)) (.wr h)
theorem State.Inv.barReads {a n} (h : s.Inv ω) : (s.barReads a n).2.Inv ω := by
  induction n generalizing s a with
  | zero => exact h
  | succ n ih => exact ih (.barRead h)
theorem State.Inv.barWrites {a l} (h : s.Inv ω) : (s.barWrites a l).Inv ω := by
  induction l generalizing s a with
  | nil => exact h
  | cons d ds ih => exact ih (.barWrite h)
theorem State.Inv.pcieError {f bit} (h : s.Inv ω) : (s.pcieError f bit).Inv ω := .upd h rfl
theorem State.Inv.bar0Request {write a dws} (h : s.Inv ω) : (s.bar0Request write a dws).Inv ω :=
  .ite (.ite (.barWrites (.hostActive h)) (.pcieError h)) (.ite (.answer32 (.pcieError (.hostActive h)))
    (.answer32 (.barReads (.hostActive h))))
theorem State.Inv.userRead {f o} (h : s.Inv ω) : (s.userRead f o).2.Inv ω := by
  unfold State.userRead
  split
  · exact .popDw h
  · split
    · exact h
    · split
      · exact h
      · split
        · exact h
        · split
          · split
            · next hr =>
                exact .of_snd hr (.fabricRead h)
            · next hr =>
                exact .of_snd hr (.fabricRead h)
          · exact h
theorem State.Inv.userWrite {f o d} (h : s.Inv ω) : (s.userWrite f o d).Inv ω := by
  unfold State.userWrite
  refine .ite (.pushDw h) ?_
  split
  · next k _ =>
    dsimp only
    refine .sendAllPending (.upd ?_ rfl)
    split
    · exact h
    · exact .takeWord h
  · refine .ite (.ite (.ite (.upd h rfl) ?_) (.wr h)) h
    split
    · exact .fabricWrite h
    · exact h
theorem State.Inv.userReads {f o n} (h : s.Inv ω) : (s.userReads f o n).2.Inv ω := by
  induction n generalizing s o with
  | zero => exact h
  | succ n ih => exact ih (.userRead h)
theorem State.Inv.userWrites {f o l} (h : s.Inv ω) : (s.userWrites f o l).Inv ω := by
  induction l generalizing s o with
  | nil => exact h
  | cons d ds ih => exact ih (.userWrite h)
theorem State.Inv.userRequest {f write o dws} (h : s.Inv ω) : (s.userRequest f write o dws).Inv ω :=
  .ite (.ite (.userWrites (.hostRequest h)) (.pcieError (.hostRequest h))) (.answer32 (.userReads (.hostRequest h)))
theorem State.Inv.configWrite {f r d} (h : s.Inv ω) : (s.configWrite f r d).Inv ω := by
  unfold State.configWrite
  dsimp only
  split
  · exact .ite (.upd h rfl) h
  · exact .ite (.upd h rfl) h
  · exact .ite (.upd h rfl) h
  · exact .ite (.upd h rfl) h
  · exact .ite (.upd h rfl) (.ite (.upd h rfl) h)
  · exact .sendAllPending (.upd h rfl)
  · exact .upd h rfl
  · exact .upd h rfl
  · exact h
  · exact h
  · exact h
  · exact h
  · exact h
  · exact h
  · exact h
  · exact h
  · exact h
  · exact h
theorem State.Inv.configRequest {f r write dws} (h : s.Inv ω) : (s.configRequest f r write dws).Inv ω := by
  unfold State.configRequest
  split
  · exact .ite (.configWrite h) (.answer32 h)
  · exact .pcieError h
theorem execBar0Access_inv {space write addr dws} (h : s.Inv ω) : (execBar0Access space write addr dws s).Inv ω := by
  refine .next ?_
  split
  · exact .ite (.bar0Request h) h
  · exact .ite (.userRequest h) h
  · exact .ite (.configRequest h) h

end Sys2Proof.Machine
end

section
/-!
The operations of remote fabrics, Tsuile, the planner and the tick keep both invariants, in the order of the model's files.
-/

namespace Sys2Proof.Machine

variable {ω : Watch} {s t : State}

/-! ### Remote -/

theorem State.Inv.rfwGo {w op} (h : s.Inv ω) : (s.rfwGo w op).Inv ω := .rfwStart (fun _ _ _ h => .fabricWrite h) (.wr h)
theorem execRfwRead_inv {w} (h : s.Inv ω) : (execRfwRead w s).Inv ω := .next (.whenOpen (fun _ h => .rfwGo h) h)
theorem execRfwWrite_inv {w} (h : s.Inv ω) : (execRfwWrite w s).Inv ω := .next (.whenOpen (fun _ h => .rfwGo h) h)
theorem execRfwTimeout_inv {w} (h : s.Inv ω) : (execRfwTimeout w s).Inv ω := .next (.ite (.rfwEnd h) h)
theorem State.Inv.rfwResponse {w0 data} (h : s.Inv ω) : (s.rfwResponse w0 data).Inv ω := by
  unfold State.rfwResponse
  split
  · exact h
  · exact .rfwEnd (.ite (.wr h) h)
theorem State.Inv.tunnelOn {p m} (h : s.Inv ω) : (s.tunnelOn p m).Inv ω := .ite h (.pryTx h)
theorem execResponse_inv {p} (h : s.Inv ω) : (execResponse p s).Inv ω :=
  .next (.onMsg (fun _ _ h => .ite (.rfwResponse h) (.tunnelOn h)) h)
theorem State.Inv.tunnelWrite {src a v} (h : s.Inv ω) : (s.tunnelWrite src a v).2.Inv ω := by
  unfold State.tunnelWrite
  dsimp only
  split
  · exact .fabricWrite (.failCommit h)
  · exact .innerWrite (fun _ _ _ h => .fabricWrite h) h
theorem State.Inv.tunnelServe {p m} (h : s.Inv ω) : (s.tunnelServe p m).Inv ω := by
  unfold State.tunnelServe
  dsimp only
  refine .ite (.pryTx (.tunnelWrite (.ite (.hostActive h) h))) ?_
  split
  · next hr =>
      exact .pryTx (.of_snd hr (.innerRead (.ite (.hostActive h) h)))
  · next hr =>
      exact .pryTx (.of_snd hr (.innerRead (.ite (.hostActive h) h)))
theorem execTunnelRequestRx_inv {p} (h : s.Inv ω) : (execTunnelRequestRx p s).Inv ω :=
  .next (.onMsg (fun _ _ h => .ite (.tunnelServe h) (.tunnelOn h)) h)

/-! ### Tsuile -/

theorem State.Inv.fetchWord {pc} (h : s.Inv ω) : (s.fetchWord pc).2.Inv ω := by
  unfold State.fetchWord
  split
  · exact h
  · exact .memRead h
theorem State.Inv.fetch {q} (h : s.Inv ω) : (s.fetch q).2.Inv ω := by
  unfold State.fetch
  dsimp only
  split
  · exact .fetchWord h
  · split
    · exact .fetchWord h
    · split
      · exact .fetchWord (.fetchWord h)
      · exact .fetchWord h
/-- An instruction that issues: its sequencer runs a program. -/
theorem State.Inv.issueLive {q op tcheck body} (hbody : ∀ i t, (t.seq q).live = true → t.Inv ω → (body i t).Inv ω)
  (h : s.Inv ω) :
    (s.issue q op tcheck body).Inv ω := by
  unfold State.issue
  dsimp only
  split
  · next hrun =>
    split
    · exact h
    · next i hi =>
      refine .ite (.ite (.closeProgram (.fetch h)) (hbody _ _ ?_ (.setSeq (.fetch h) ⟨id, id⟩))) h
      obtain ⟨c, k, hs⟩ := State.fetch_of_some hi
      rw [State.seq_setSeq_self, hs]
      simp [Seq.live, State.seq] at hrun ⊢
      simp [hrun]
  · exact h
theorem State.Inv.issue {q op tcheck body} (hbody : ∀ i t, t.Inv ω → (body i t).Inv ω) (h : s.Inv ω) :
    (s.issue q op tcheck body).Inv ω :=
  .issueLive (fun i t _ => hbody i t) h
theorem State.Inv.onSeq {q f} (h : s.Inv ω) (hf : ∀ x, Seq.Keeps x (f x)) :
    (s.onSeq q f).Inv ω := .ite (.setSeq h (hf _)) h
theorem Out.Inv.alone {q op f} (h : s.Inv ω) (hf : ∀ i x, (f i x).scratch = x.scratch) :
    (State.alone q op f s).Inv ω :=
  .next (.issue (fun i _ h => .onSeq h fun x => ⟨fun _ => rfl, fun hx => (hf i x).symm ▸ hx⟩) h)
theorem execTrap_inv {q} (h : s.Inv ω) : (execTrap q s).Inv ω := .next (.issue (fun _ _ h => .faultProgram h) h)
theorem execIllegalOpcode_inv {q} (h : s.Inv ω) : (execIllegalOpcode q s).Inv ω :=
  .next (.ite (.ite (.faultProgram (.fetch h)) h) h)
theorem execAdd_inv {q} (h : s.Inv ω) : (execAdd q s).Inv ω := .alone h (fun _ _ => rfl)
theorem execAddi_inv {q} (h : s.Inv ω) : (execAddi q s).Inv ω := .alone h (fun _ _ => rfl)
theorem execSub_inv {q} (h : s.Inv ω) : (execSub q s).Inv ω := .alone h (fun _ _ => rfl)
theorem execSubi_inv {q} (h : s.Inv ω) : (execSubi q s).Inv ω := .alone h (fun _ _ => rfl)
theorem execMull_inv {q} (h : s.Inv ω) : (execMull q s).Inv ω := .alone h (fun _ _ => rfl)
theorem execMulh_inv {q} (h : s.Inv ω) : (execMulh q s).Inv ω := .alone h (fun _ _ => rfl)
theorem execAnd_inv {q} (h : s.Inv ω) : (execAnd q s).Inv ω := .alone h (fun _ _ => rfl)
theorem execOr_inv {q} (h : s.Inv ω) : (execOr q s).Inv ω := .alone h (fun _ _ => rfl)
theorem execXor_inv {q} (h : s.Inv ω) : (execXor q s).Inv ω := .alone h (fun _ _ => rfl)
theorem execNot_inv {q} (h : s.Inv ω) : (execNot q s).Inv ω := .alone h (fun _ _ => rfl)
theorem execShl_inv {q} (h : s.Inv ω) : (execShl q s).Inv ω := .alone h (fun _ _ => rfl)
theorem execShr_inv {q} (h : s.Inv ω) : (execShr q s).Inv ω := .alone h (fun _ _ => rfl)
theorem execSar_inv {q} (h : s.Inv ω) : (execSar q s).Inv ω := .alone h (fun _ _ => rfl)
theorem execRot_inv {q} (h : s.Inv ω) : (execRot q s).Inv ω := .alone h (fun _ _ => rfl)
theorem execCmp_inv {q} (h : s.Inv ω) : (execCmp q s).Inv ω := .alone h (fun _ _ => rfl)
theorem execCmpi_inv {q} (h : s.Inv ω) : (execCmpi q s).Inv ω := .alone h (fun _ _ => rfl)
theorem execMin_inv {q} (h : s.Inv ω) : (execMin q s).Inv ω := .alone h (fun _ _ => rfl)
theorem execMax_inv {q} (h : s.Inv ω) : (execMax q s).Inv ω := .alone h (fun _ _ => rfl)
theorem execMov_inv {q} (h : s.Inv ω) : (execMov q s).Inv ω := .alone h (fun _ _ => rfl)
theorem execLdi_inv {q} (h : s.Inv ω) : (execLdi q s).Inv ω := .alone h (fun _ _ => rfl)
theorem State.Inv.block {q w} (h : s.Inv ω) : (s.block q w).Inv ω := .setSeq h (.of_live rfl rfl)
theorem execLdl_inv {q} (h : s.Inv ω) : (execLdl q s).Inv ω :=
  .next (.issue (fun _ _ h => .ite (.faultProgram h) (.ite (.ite (.faultProgram (.memRead h))
    (.onSeq (.memRead h) (fun _ => .of_live rfl rfl))) (.block h))) h)
theorem execStl_inv {q} (h : s.Inv ω) : (execStl q s).Inv ω :=
  .next (.issue (fun _ _ h => .ite (.faultProgram h) (.ite (.onSeq (.putScratch h) (fun _ => .of_live rfl rfl)) (.block h))) h)
theorem Out.Inv.branch {q op cond} (h : s.Inv ω) : Out.Inv ω (State.branch q op cond s) :=
  .next (.issue (fun _ _ h => .onSeq h (fun _ => .of_live rfl rfl)) h)
theorem execBr_inv {q} (h : s.Inv ω) : (execBr q s).Inv ω := .branch h
theorem execBz_inv {q} (h : s.Inv ω) : (execBz q s).Inv ω := .branch h
theorem execBnz_inv {q} (h : s.Inv ω) : (execBnz q s).Inv ω := .branch h
theorem execBn_inv {q} (h : s.Inv ω) : (execBn q s).Inv ω := .branch h
theorem execBc_inv {q} (h : s.Inv ω) : (execBc q s).Inv ω := .branch h
theorem execBt_inv {q} (h : s.Inv ω) : (execBt q s).Inv ω := by
  refine .next (.issue (fun _ _ h => .onSeq h fun x => ?_) h)
  split
  · exact .of_live rfl rfl
  · exact .of_live rfl rfl
theorem execCall_inv {q} (h : s.Inv ω) : (execCall q s).Inv ω :=
  .next (.issue (fun _ _ h => .onSeq h (fun _ => .of_live rfl rfl)) h)
theorem execRet_inv {q} (h : s.Inv ω) : (execRet q s).Inv ω :=
  .next (.issue (fun _ _ h => .onSeq h (fun _ => .of_live rfl rfl)) h)
theorem execLoop_inv {q} (h : s.Inv ω) : (execLoop q s).Inv ω :=
  .next (.issue (fun _ _ h => .onSeq h (fun _ => .of_live rfl rfl)) h)
theorem execHalt_inv {q} (h : s.Inv ω) : (execHalt q s).Inv ω := .next (.issue (fun _ _ h => .closeProgram h) h)

/-! ### TsuileWaits -/

theorem State.Inv.errorResponse {q e next f} (h : s.Inv ω) (hf : ∀ x, (f x).scratch = x.scratch) :
    (s.errorResponse q e next f).Inv ω :=
  .ite (.onSeq h fun x => ⟨fun _ => rfl, fun hx => (hf x).symm ▸ hx⟩) (.faultProgram h)
theorem State.Inv.accessDone {q next f} (h : s.Inv ω) (hf : ∀ x, (f x).scratch = x.scratch) :
    (s.accessDone q next f).Inv ω :=
  .onSeq h fun x => ⟨fun _ => rfl, fun hx => (hf x).symm ▸ hx⟩
theorem State.Inv.frdError {q i} (h : s.Inv ω) : (s.frdError q i).Inv ω := .errorResponse h (fun _ => rfl)
theorem State.Inv.plainError {q i} (h : s.Inv ω) : (s.plainError q i).Inv ω := .errorResponse h (fun _ => rfl)
theorem execFrd_inv {q} (h : s.Inv ω) : (execFrd q s).Inv ω := by
  refine .next (.issue (fun _ _ h => ?_) h)
  split
  · next hr => exact .accessDone (.of_snd hr (.innerRead h)) (fun _ => rfl)
  · next hr => exact .frdError (.of_snd hr (.innerRead h))
theorem State.Inv.writeDone {q i} {r : Bool × State} (h : r.2.Inv ω) : (State.writeDone q i r).Inv ω :=
  .ite (.accessDone h (fun _ => rfl)) (.plainError h)
theorem execFwr_inv {q} (h : s.Inv ω) : (execFwr q s).Inv ω :=
  .next (.issue (fun _ _ h => .writeDone (.innerWrite (fun _ _ _ h => .fabricWrite h) h)) h)
theorem execFrmw_inv {q} (h : s.Inv ω) : (execFrmw q s).Inv ω := by
  refine .next (.issue (fun _ _ h => ?_) h)
  dsimp only
  split
  · next hr => exact .writeDone (.innerWrite (fun _ _ _ h => .fabricWrite h) (.of_snd hr (.innerRead h)))
  · next hr => exact .plainError (.of_snd hr (.innerRead h))
theorem State.Inv.pollRead {q ad a mask cmp e} (h : s.Inv ω) : (s.pollRead q ad a mask cmp e).Inv ω := by
  unfold State.pollRead
  dsimp only
  split
  · next hr =>
    exact .ite (.accessDone (.of_snd hr (.innerRead h)) fun _ => rfl)
      (.onSeq (.of_snd hr (.innerRead h)) fun _ => .of_live rfl rfl)
  · next hr => exact .errorResponse (.onSeq (.of_snd hr (.innerRead h)) fun _ => ⟨id, id⟩) fun _ => rfl
theorem execFpoll_inv {q} (h : s.Inv ω) : (execFpoll q s).Inv ω := .next (.issue (fun _ _ h => .pollRead h) h)
theorem execFpollRead_inv {q} (h : s.Inv ω) : (execFpollRead q s).Inv ω := by
  refine .next ?_
  split
  · exact .pollRead h
  · exact h
theorem State.Inv.accessTimedOut {q b} (h : s.Inv ω) : (s.accessTimedOut q b).Inv ω := by
  unfold State.accessTimedOut
  split
  · exact .ite (.errorResponse (.onSeq h fun _ => ⟨id, id⟩) (fun _ => rfl)) h
  · split
    · exact h
    · exact .ite h (.ite (.issue (fun _ _ h => .frdError h) h) (.ite (.issue (fun _ _ h => .plainError h) h)
        (.ite (.issue (fun _ _ h => .plainError h) h)
          (.issue (fun _ _ h => .errorResponse (.onSeq h fun _ => ⟨id, id⟩) (fun _ => rfl)) h))))
theorem State.Inv.tunnelTimedOut {p b} (h : s.Inv ω) : (s.tunnelTimedOut p b).Inv ω :=
  .onMsg (fun _ _ h => .ite (.pryTx (.ite (.hostActive h) h)) (.tunnelOn h)) h
theorem execFabricAccessTimeout_inv {b addr requester} (h : s.Inv ω) : (execFabricAccessTimeout b addr requester s).Inv ω := by
  refine .next ?_
  dsimp only
  refine .settleGate ?_
  split
  · exact .ite (.hostError h) h
  · exact .accessTimedOut h
  · exact .tunnelTimedOut h
  · exact .ite (.rfwEnd h) h
theorem execClaim_inv {q} (h : s.Inv ω) : (execClaim q s).Inv ω := by
  refine .next (.issueLive (fun _ t hl h => ?_) h)
  refine .ite (.faultProgram h) (.ite (.onSeq (.setClaim h fun p hp => ?_) (fun _ => .of_live rfl rfl))
    (.block (.setClaim h fun p hp => ?_)))
  · obtain hp | hp := hp
    · exact .inr (Option.some.inj hp ▸ hl)
    · exact .inl (.inr hp)
  · obtain hp | hp := hp
    · exact .inl (.inl hp)
    · obtain hp | hp := List.mem_append.mp hp
      · exact .inl (.inr hp)
      · exact .inr (List.mem_singleton.mp hp ▸ hl)
theorem State.Inv.grantClaim {n} (h : s.Inv ω) : (s.grantClaim n).Inv ω := by
  unfold State.grantClaim
  dsimp only
  split
  · next w ws hw =>
    refine .ite (.onSeq (.setClaim h fun p hp => .inl (.inr ?_)) fun x => ?_) h
    · rw [hw]
      obtain hp | hp := hp
      · exact Option.some.inj hp ▸ List.mem_cons_self
      · exact List.mem_cons_of_mem _ hp
    · split
      · exact ⟨fun _ => rfl, id⟩
      · exact ⟨id, id⟩
  · exact h
theorem execClaimGrant_inv {n} (h : s.Inv ω) : (execClaimGrant n s).Inv ω := .next (.grantClaim h)
theorem execFree_inv {q} (h : s.Inv ω) : (execFree q s).Inv ω :=
  .next (.issue (fun _ _ h => .ite (.onSeq (.setClaim h fun _ hp => .inl (.inr (hp.resolve_left (by simp))))
    (fun _ => .of_live rfl rfl)) (.faultProgram h)) h)
theorem execYield_inv {q} (h : s.Inv ω) : (execYield q s).Inv ω :=
  .next (.issue (fun _ _ h => .onSeq h (fun _ => .of_live rfl rfl)) h)
theorem execWaite_inv {q} (h : s.Inv ω) : (execWaite q s).Inv ω := by
  refine .next (.issue (fun i t h => ?_) h)
  have h1 : (if i.mBit 5 then t.onSeq q fun x => x.setEv i.num { x.ev i.num with pend := false, merged := false } else t).Inv ω
    :=
    .ite (.onSeq h fun _ => ⟨id, id⟩) h
  exact .ite (.onSeq h1 (fun _ => .of_live rfl rfl)) (.block h1)
theorem State.Inv.completeEvent {q} (h : s.Inv ω) : (s.completeEvent q).Inv ω := by
  unfold State.completeEvent
  split
  · exact .ite (.onSeq h (fun _ => .of_live rfl rfl)) h
  · exact h
theorem execWaiteComplete_inv {q} (h : s.Inv ω) : (execWaiteComplete q s).Inv ω := .next (.completeEvent h)
theorem execWaitt_inv {q} (h : s.Inv ω) : (execWaitt q s).Inv ω :=
  .next (.issue (fun _ _ h => .ite (.onSeq h (fun _ => .of_live rfl rfl)) (.block h)) h)
theorem State.Inv.completeTime {q} (h : s.Inv ω) : (s.completeTime q).Inv ω := by
  unfold State.completeTime
  split
  · exact .ite (.onSeq h (fun _ => .of_live rfl rfl)) h
  · exact h
theorem execWaittComplete_inv {q} (h : s.Inv ω) : (execWaittComplete q s).Inv ω := .next (.completeTime h)
theorem execSignal_inv {q} (h : s.Inv ω) : (execSignal q s).Inv ω :=
  .next (.issue (fun _ _ h => .ite (.faultProgram h) (.onSeq (.raise h) (fun _ => .of_live rfl rfl))) h)
theorem State.Inv.noteStep {q n} (h : s.Inv ω) : (s.noteStep q n).Inv ω := by
  unfold State.noteStep
  split
  · exact .iteL (.memWrite h) (fun h => .upd h rfl)
  · exact h
theorem execStep_inv {q} (h : s.Inv ω) : (execStep q s).Inv ω :=
  .next (.issue (fun _ _ h => .onSeq (.noteStep (.record h)) (fun _ => .of_live rfl rfl)) h)
theorem execJrec_inv {q} (h : s.Inv ω) : (execJrec q s).Inv ω :=
  .next (.issue (fun _ _ h => .onSeq (.record h) (fun _ => .of_live rfl rfl)) h)
theorem State.Inv.readScratch {q a} (h : s.Inv ω) : (s.readScratch q a).2.Inv ω := .memRead h
theorem State.Inv.readWords {q a n} (h : s.Inv ω) : (s.readWords q a n).2.Inv ω := by
  induction n generalizing s a with
  | zero => exact h
  | succ n ih =>
    unfold State.readWords
    split
    · next hr => exact .of_snd hr (.readScratch h)
    · next hr => exact ih (.of_snd hr (.readScratch h))
theorem execDone_inv {q} (h : s.Inv ω) : (execDone q s).Inv ω := by
  refine .next (.issue (fun _ _ h => .ite (.faultProgram h) (.ite (.block h) ?_)) h)
  split
  · next hr => exact .closeProgram (.of_snd hr (.readWords h))
  · next hr => exact .faultProgram (.of_snd hr (.readWords h))
theorem execVstg_inv {q} (h : s.Inv ω) : (execVstg q s).Inv ω := by
  refine .next (.issue (fun _ _ h => ?_) h)
  dsimp only
  split
  · next hr => exact .accessDone (.stage h hr) (fun _ => rfl)
  · exact .plainError h
theorem execVcmt_inv {q} (h : s.Inv ω) : (execVcmt q s).Inv ω :=
  .next (.issue (fun _ _ h => .ite (.onSeq h (fun _ => .of_live rfl rfl))
    (.onSeq (.acceptCommit h) (fun _ => .of_live rfl rfl))) h)
theorem execVabt_inv {q} (h : s.Inv ω) : (execVabt q s).Inv ω :=
  .next (.issue (fun _ _ h => .onSeq (.ite h (.ite (.withdraw h) (.setStaged h))) (fun _ => .of_live rfl rfl)) h)
theorem State.Inv.sendPacket {q dst ws} (h : s.Inv ω) : (s.sendPacket q dst ws).Inv ω := .ite (.pushAll h) (.pryTx h)
theorem State.Inv.trySend {q a n dst} (h : s.Inv ω) : (s.trySend q a n dst).Inv ω := by
  unfold State.trySend
  refine .ite ?_ (.block h)
  split
  · next hr => exact .faultProgram (.of_snd hr (.readWords h))
  · next hr => exact .ite (.onSeq (.sendPacket (.of_snd hr (.readWords h))) (fun _ => .of_live rfl rfl)) (.block h)
theorem execSend_inv {q} (h : s.Inv ω) : (execSend q s).Inv ω :=
  .next (.issue (fun _ _ h => .ite (.faultProgram h) (.ite (.faultProgram h) (.trySend h))) h)
theorem State.Inv.retrySend {q} (h : s.Inv ω) : (s.retrySend q).Inv ω := by
  unfold State.retrySend
  split
  · exact .trySend h
  · exact h
theorem execSendRoom_inv {q} (h : s.Inv ω) : (execSendRoom q s).Inv ω := .next (.retrySend h)
theorem State.Inv.beginRecv {q} (h : s.Inv ω) : (s.beginRecv q).Inv ω := by
  unfold State.beginRecv
  split
  · dsimp only
    split
    · exact .ite (.ite (.feed (.setQueue (.setSeq (.unreceive h) ⟨id, id⟩)))
        (.faultProgram (.setQueue (.setSeq (.unreceive h) ⟨id, id⟩)))) h
    · exact h
  · exact h
theorem execRecv_inv {q} (h : s.Inv ω) : (execRecv q s).Inv ω :=
  .next (.issue (fun _ _ h => .beginRecv (.block (.setReceivers h))) h)
theorem State.Inv.completeRecv {q} (h : s.Inv ω) : (s.completeRecv q).Inv ω := by
  unfold State.completeRecv
  dsimp only
  split
  · exact .iteL (.beginRecv h) (fun h => .onSeq h (fun _ => .of_live rfl rfl))
  · exact .beginRecv h
theorem execRecvComplete_inv {q} (h : s.Inv ω) : (execRecvComplete q s).Inv ω := .next (.completeRecv h)
theorem execTnow_inv {q} (h : s.Inv ω) : (execTnow q s).Inv ω := by
  refine .next (.issue (fun _ _ h => .onSeq (.ite (.upd h rfl) h) fun x => .of_live rfl ?_) h)
  dsimp only [Seq.goOn]
  split <;> rfl
theorem State.Inv.timedOut {q n f} (h : s.Inv ω) (hf : ∀ x, (f x).scratch = x.scratch) :
    (s.timedOut q n f).Inv ω :=
  .onSeq h fun x => ⟨fun _ => rfl, fun hx => (hf x).symm ▸ hx⟩
theorem State.Inv.settleWait {q} (h : s.Inv ω) : (s.settleWait q).Inv ω := by
  unfold State.settleWait
  split
  · exact .ite (.grantClaim h) h
  · exact .completeEvent h
  · exact .completeTime h
  · exact .retrySend h
  · exact .completeRecv h
  · exact h
theorem State.Inv.expire {q} (h : s.Inv ω) : (s.expire q).Inv ω := by
  unfold State.expire
  split
  · exact .timedOut (.unqueue h) fun _ => rfl
  · exact .timedOut h fun _ => rfl
  · exact .timedOut h fun _ => rfl
  · exact .timedOut h fun _ => rfl
  · exact .ite (.timedOut h fun _ => rfl) h
  · refine .ite h (.timedOut (.leaveWait h) fun _ => ?_)
    split <;> rfl
  · exact h
theorem execBlockingTimeout_inv {q} (h : s.Inv ω) : (execBlockingTimeout q s).Inv ω := .next (.expire (.settleWait h))

/-! ### Planner -/

theorem State.Inv.noteMargin {i} (h : s.Inv ω) : (s.noteMargin i).Inv ω := .setPlanner h
theorem State.Inv.noteCounts {i} (h : s.Inv ω) : (s.noteCounts i).Inv ω := .setPlanner h
theorem State.Inv.planOutcome (h : s.Inv ω) : (s.planOutcome).Inv ω := .ite h (.ite (.wr (.setPlanner h)) (.ite (.wr h) h))
theorem State.Inv.planPart2 (h : s.Inv ω) : (s.planPart2).Inv ω := .iteL (.planOutcome h) (fun h => .vtgFail h)
theorem State.Inv.barsPass {is} (h : s.Inv ω) : (s.barsPass is).Inv ω := .setPlanner h
theorem State.Inv.planHeldRuns {mask} (h : s.Inv ω) : (s.planHeldRuns mask).Inv ω := .forEach (fun _ _ h => .ite (.wr h) h) h
theorem State.Inv.planReferences {refs} (h : s.Inv ω) : (s.planReferences refs).Inv ω :=
  .forEach (fun _ _ h => .wr (.wr (.wr h))) h
theorem State.Inv.planStart {q mask} (h : s.Inv ω) : (s.planStart q mask).Inv ω := by
  unfold State.planStart
  dsimp only
  exact .setPlanner (.iteR (.forEach (fun _ _ h => .noteCounts h)
    (.barsPass (.planHeldRuns (.forEach (fun _ _ h => .noteMargin h) (.planOutcome h))))) fun h => .raise (.wr h))
theorem State.Inv.planDone {q t results} (h : s.Inv ω) : (s.planDone q t results).Inv ω :=
  .closeProgram (.setPlanner (.planReferences h))
theorem State.Inv.planDeferred {q t} (h : s.Inv ω) : (s.planDeferred q t).Inv ω := .planDone (.wr (.wr h))
theorem State.Inv.planIds {is} (h : s.Inv ω) : (s.planIds is).Inv ω := .forEach (fun _ _ h => .wr (.takeWord h)) h
theorem State.Inv.followOn {i} (h : s.Inv ω) : (s.followOn i).Inv ω := .setStaged (.wr h)
theorem State.Inv.planCommit {q t} (h : s.Inv ω) : (s.planCommit q t).Inv ω :=
  .ite (.planDeferred h) (.ite (.ite (.planDeferred (.forEach (fun _ _ h => .followOn h) h))
    (.planDone (.acceptCommit (.forEach (fun _ _ h => .followOn h) h))))
      (.ite (.planDone h) (.ite (.planDeferred (.setStaged (.ite (.planIds h) h)))
        (.planDone (.wr (.wr (.wr (.wr (.iteL (.acceptCommit (.setStaged (.ite (.planIds h) h)))
          (fun h => .forEach (fun _ _ h => .wr h) h))))))))))
theorem State.Inv.planClaims {q l} (hl : (s.seq q).live = true) (h : s.Inv ω) : (s.planClaims q l).2.Inv ω := by
  induction l generalizing s with
  | nil => exact h
  | cons n ns ih =>
    unfold State.planClaims
    dsimp only
    split
    · exact ih hl h
    · split
      · exact ih hl (.setClaim h fun p hp => hp.elim (fun hp => .inr (Option.some.inj hp ▸ hl)) fun hp => .inl (.inr hp))
      · refine .ite h (.setClaim h fun p hp => ?_)
        obtain hp | hp := hp
        · exact .inl (.inl hp)
        · obtain hp | hp := List.mem_append.mp hp
          · exact .inl (.inr hp)
          · exact .inr (List.mem_singleton.mp hp ▸ hl)
theorem State.Inv.planStep {q} (hl : (s.seq q).live = true) (h : s.Inv ω) : (s.planStep q).Inv ω := by
  unfold State.planStep
  dsimp only
  split
  · exact .ite (.planStart h) (.ite (.closeProgram (.planPart2 h)) (.closeProgram h))
  · exact .ite (.planCommit (.planClaims hl h))
      (.ite (.planDeferred (.unqueue (.planClaims hl h))) (.setPlanner (.planClaims hl h)))
theorem State.Inv.watchTick {ticks} (h : s.Inv ω) : (s.watchTick ticks).Inv ω := .setPlanner h
theorem State.Inv.planTick {ticks} (h : s.Inv ω) : (s.planTick ticks).Inv ω := by
  unfold State.planTick
  dsimp only
  split
  · exact .setPlanner (.watchTick h)
  · next q hq =>
    refine .iteL (.setPlanner (.watchTick h)) fun h => .planStep ?_ h
    have hlive := List.find?_some hq
    exact (Bool.and_eq_true_iff.mp hlive).1

/-! ### Tick -/

theorem State.Inv.tempTick {before} (h : s.Inv ω) : (s.tempTick before).Inv ω := .ite h (.wr (.wr (.takeWord h)))
theorem State.Inv.gridTick {ticks} (h : s.Inv ω) : (s.gridTick ticks).Inv ω :=
  .ite h (.ite (.upd h rfl) (.upd (.gridFrame h) rfl))
theorem State.Inv.useTick {ticks} (h : s.Inv ω) : (s.useTick ticks).Inv ω := .svcTick (.engineTick (.seqTick h))
theorem State.Inv.idleTick (h : s.Inv ω) : (s.idleTick).Inv ω :=
  .tempTick (.gridTick (.planTick (.useTick (.celTick (.pryTick (.slewTick (.tick h)))))))

end Sys2Proof.Machine
end

section
/-!
Every command and every step keep both invariants: O4 and O5.
-/

namespace Sys2Proof.Machine

variable {ω : Watch} {s : State}

theorem exec_inv {c : Instr} (h : s.Inv ω) : Out.Inv ω (exec c s) := by
  cases c with
  | coldStart st => exact execColdStart_inv h
  | vddaonLow => exact execVddaonLow_inv h
  | perstNAssert => exact execPerstNAssert_inv h
  | perstNDeassert st => exact execPerstNDeassert_inv h
  | oscdlyExpiry present => exact execOscdlyExpiry_inv h
  | mainLoopLock => exact execMainLoopLock_inv h
  | bootstrapImageVerify cask => exact execBootstrapImageVerify_inv h
  | powerUpComplete rescue => exact execPowerUpComplete_inv h
  | reqDormant => exact execReqDormant_inv h
  | reqPrepare => exact execReqPrepare_inv h
  | reqService => exact execReqService_inv h
  | reqShadow => exact execReqShadow_inv h
  | reqProving => exact execReqProving_inv h
  | reqRecovery => exact execReqRecovery_inv h
  | reqPreviousMode => exact execReqPreviousMode_inv h
  | modeTransitionEnd => exact execModeTransitionEnd_inv h
  | sliceEnableHeldWake sl => exact execSliceEnableHeldWake_inv h
  | wakingComplete sl done => exact execWakingComplete_inv h
  | wakeTimeout sl => exact execWakeTimeout_inv h
  | drainComplete sl us => exact execDrainComplete_inv h
  | hostclkCoast => exact execHostclkCoast_inv h
  | hostclkFailDeclare => exact execHostclkFailDeclare_inv h
  | hostclkReturn => exact execHostclkReturn_inv h
  | hostclkFailClear => exact execHostclkFailClear_inv h
  | sscPeriodEnd => exact execSscPeriodEnd_inv h
  | gateCloseRequest b busy => exact execGateCloseRequest_inv h
  | fabricAccessTimeout b addr requester => exact execFabricAccessTimeout_inv h
  | fabricWrite addr value => exact execFabricWrite_inv h
  | crossingReset x sideB items => exact execCrossingReset_inv h
  | crossingReq x => exact execCrossingReq_inv h
  | crossingAck x => exact execCrossingAck_inv h
  | crossingReqResend x => exact execCrossingReqResend_inv h
  | ccResetCmd => exact execCcResetCmd_inv h
  | ccWatchdogExpiry within60s => exact execCcWatchdogExpiry_inv h
  | executiveRestart => exact execExecutiveRestart_inv h
  | sliceResetCmd sl => exact execSliceResetCmd_inv h
  | framePulseWatchdog sl within1s => exact execFramePulseWatchdog_inv h
  | dpStall b sl stage => exact execDpStall_inv h
  | sharedStageWatchdog b within10s => exact execSharedStageWatchdog_inv h
  | dpSliceHoldEnd sl => exact execDpSliceHoldEnd_inv h
  | thermalFault => exact execThermalFault_inv h
  | thermalClear => exact execThermalClear_inv h
  | recoveryRestart aged => exact execRecoveryRestart_inv h
  | givenUpClear => exact execGivenUpClear_inv h
  | hostSilenceExpiry => exact execHostSilenceExpiry_inv h
  | hostActivity => exact execHostActivity_inv h
  | packetDispatch => exact execPacketDispatch_inv h
  | packetTimeout q => exact execPacketTimeout_inv h
  | budgetExpiry q => exact execBudgetExpiry_inv h
  | sqWatchdogExpiry q => exact execSqWatchdogExpiry_inv h
  | hostAbort func => exact execHostAbort_inv h
  | loadBegin withVerify => exact execLoadBegin_inv h
  | loadData w => exact execLoadData_inv h
  | loadVerify withBegin => exact execLoadVerify_inv h
  | loadVerifyDone => exact execLoadVerifyDone_inv h
  | trap q => exact execTrap_inv h
  | illegalOpcode q => exact execIllegalOpcode_inv h
  | add q => exact execAdd_inv h
  | addi q => exact execAddi_inv h
  | sub q => exact execSub_inv h
  | subi q => exact execSubi_inv h
  | mull q => exact execMull_inv h
  | mulh q => exact execMulh_inv h
  | and q => exact execAnd_inv h
  | or q => exact execOr_inv h
  | xor q => exact execXor_inv h
  | not q => exact execNot_inv h
  | shl q => exact execShl_inv h
  | shr q => exact execShr_inv h
  | sar q => exact execSar_inv h
  | rot q => exact execRot_inv h
  | cmp q => exact execCmp_inv h
  | cmpi q => exact execCmpi_inv h
  | min q => exact execMin_inv h
  | max q => exact execMax_inv h
  | mov q => exact execMov_inv h
  | ldi q => exact execLdi_inv h
  | ldl q => exact execLdl_inv h
  | stl q => exact execStl_inv h
  | frd q => exact execFrd_inv h
  | fwr q => exact execFwr_inv h
  | frmw q => exact execFrmw_inv h
  | fpoll q => exact execFpoll_inv h
  | fpollRead q => exact execFpollRead_inv h
  | br q => exact execBr_inv h
  | bz q => exact execBz_inv h
  | bnz q => exact execBnz_inv h
  | bn q => exact execBn_inv h
  | bc q => exact execBc_inv h
  | bt q => exact execBt_inv h
  | call q => exact execCall_inv h
  | ret q => exact execRet_inv h
  | loop q => exact execLoop_inv h
  | halt q => exact execHalt_inv h
  | claim q => exact execClaim_inv h
  | claimGrant n => exact execClaimGrant_inv h
  | free q => exact execFree_inv h
  | yield q => exact execYield_inv h
  | waite q => exact execWaite_inv h
  | waiteComplete q => exact execWaiteComplete_inv h
  | waitt q => exact execWaitt_inv h
  | waittComplete q => exact execWaittComplete_inv h
  | signal q => exact execSignal_inv h
  | blockingTimeout q => exact execBlockingTimeout_inv h
  | step q => exact execStep_inv h
  | jrec q => exact execJrec_inv h
  | done q => exact execDone_inv h
  | vstg q => exact execVstg_inv h
  | vcmt q => exact execVcmt_inv h
  | vabt q => exact execVabt_inv h
  | send q => exact execSend_inv h
  | sendRoom q => exact execSendRoom_inv h
  | recv q => exact execRecv_inv h
  | recvComplete q => exact execRecvComplete_inv h
  | tnow q => exact execTnow_inv h
  | stageGo andRead => exact execStageGo_inv h
  | stageRead => exact execStageRead_inv h
  | vtgRet => exact execVtgRet_inv h
  | vtgAccept => exact execVtgAccept_inv h
  | vtgFail => exact execVtgFail_inv h
  | vtgWithdraw => exact execVtgWithdraw_inv h
  | vtgResetStaged => exact execVtgResetStaged_inv h
  | vtgLoadArch => exact execVtgLoadArch_inv h
  | vtgLoadRescue => exact execVtgLoadRescue_inv h
  | vtgRelease => exact execVtgRelease_inv h
  | vtgDomRet => exact execVtgDomRet_inv h
  | validationDone => exact execValidationDone_inv h
  | loadingDone memErr ahead => exact execLoadingDone_inv h
  | domainReleaseDeadline => exact execDomainReleaseDeadline_inv h
  | commitTakeEffect bnd => exact execCommitTakeEffect_inv h
  | probationCheckInterval => exact execProbationCheckInterval_inv h
  | probationEnd => exact execProbationEnd_inv h
  | returnTakeEffect superframe => exact execReturnTakeEffect_inv h
  | pushWindowWrite f dws => exact execPushWindowWrite_inv h
  | popWindowRead f n => exact execPopWindowRead_inv h
  | queuePush q w len withPop => exact execQueuePush_inv h
  | queueReset q => exact execQueueReset_inv h
  | peakRead q => exact execPeakRead_inv h
  | bar0Access space write addr dws => exact execBar0Access_inv h
  | functionLevelReset f => exact execFunctionLevelReset_inv h
  | dmaEnable d => exact execDmaEnable_inv h
  | dmaPacketWrite d err => exact execDmaPacketWrite_inv h
  | eventOccurrence e data => exact execEventOccurrence_inv h
  | msixPendingSend f v why => exact execMsixPendingSend_inv h
  | recalRunCmd sl => exact execRecalRunCmd_inv h
  | recalAbortCmd sl => exact execRecalAbortCmd_inv h
  | converterTempReading sl temp => exact execConverterTempReading_inv h
  | recalIntervalExpiry sl => exact execRecalIntervalExpiry_inv h
  | calEngineGrant => exact execCalEngineGrant_inv h
  | spareMatchEnd sl adcs => exact execSpareMatchEnd_inv h
  | runStepHandBack sl measured => exact execRunStepHandBack_inv h
  | runComplete sl dac => exact execRunComplete_inv h
  | restoreRotationComplete sl => exact execRestoreRotationComplete_inv h
  | caskSave sl verified => exact execCaskSave_inv h
  | clipWindow sl codes => exact execClipWindow_inv h
  | captureGo sl => exact execCaptureGo_inv h
  | captureStop sl => exact execCaptureStop_inv h
  | captureTrigger trig => exact execCaptureTrigger_inv h
  | captureSegmentDrained codes => exact execCaptureSegmentDrained_inv h
  | acqSignalDetect sl => exact execAcqSignalDetect_inv h
  | cdScanEnd sl coarse fine peak => exact execCdScanEnd_inv h
  | clockLock sl off => exact execClockLock_inv h
  | singularityCheck sl corrMilli => exact execSingularityCheck_inv h
  | blindConverged sl dgd cd => exact execBlindConverged_inv h
  | pilotSyncFound sl samples => exact execPilotSyncFound_inv h
  | carrierLock sl => exact execCarrierLock_inv h
  | acqStateLimit sl => exact execAcqStateLimit_inv h
  | inputLoss sl => exact execInputLoss_inv h
  | inputReturn sl => exact execInputReturn_inv h
  | holdExpiry sl => exact execHoldExpiry_inv h
  | trackSnrLoss sl => exact execTrackSnrLoss_inv h
  | acqRestart sl => exact execAcqRestart_inv h
  | cycleSlip sl y err => exact execCycleSlip_inv h
  | txFrameBoundary sl psd => exact execTxFrameBoundary_inv h
  | rateMuteStart sl => exact execRateMuteStart_inv h
  | synthRelock sl => exact execSynthRelock_inv h
  | blockArrival sl samples => exact execBlockArrival_inv h
  | iterationSlot => exact execIterationSlot_inv h
  | reorderRelease sl => exact execReorderRelease_inv h
  | blockSyncTrial sl => exact execBlockSyncTrial_inv h
  | blockSyncLost sl => exact execBlockSyncLost_inv h
  | outerGroupDecode sl => exact execOuterGroupDecode_inv h
  | marginInterval sl => exact execMarginInterval_inv h
  | tendrilPacketStart sl => exact execTendrilPacketStart_inv h
  | tendrilPacketSent sl => exact execTendrilPacketSent_inv h
  | helloInterval sl => exact execHelloInterval_inv h
  | tendrilDetection sl cands => exact execTendrilDetection_inv h
  | tendrilHeaderDecode sl decided => exact execTendrilHeaderDecode_inv h
  | tendrilReceptionEnd sl decided => exact execTendrilReceptionEnd_inv h
  | hello sl => exact execHello_inv h
  | propose sl => exact execPropose_inv h
  | accept sl => exact execAccept_inv h
  | refuse sl => exact execRefuse_inv h
  | cancel sl => exact execCancel_inv h
  | returnMsg sl => exact execReturnMsg_inv h
  | switch sl => exact execSwitch_inv h
  | mailboxPacketRx sl => exact execMailboxPacketRx_inv h
  | proposalHoldExpiry sl => exact execProposalHoldExpiry_inv h
  | proposeRetry sl => exact execProposeRetry_inv h
  | agreementCutoff => exact execAgreementCutoff_inv h
  | mailboxGo sl => exact execMailboxGo_inv h
  | mailboxRelease sl => exact execMailboxRelease_inv h
  | fasCandidateCheck sl => exact execFasCandidateCheck_inv h
  | outOfFrame sl => exact execOutOfFrame_inv h
  | multiframeAlign sl => exact execMultiframeAlign_inv h
  | falseLock sl => exact execFalseLock_inv h
  | sfcAdopt sl => exact execSfcAdopt_inv h
  | delayBlockRx sl rxRef => exact execDelayBlockRx_inv h
  | defectEvaluation sl fr => exact execDefectEvaluation_inv h
  | ssfHoldoffExpiry sl => exact execSsfHoldoffExpiry_inv h
  | txSuperframeBoundary sl => exact execTxSuperframeBoundary_inv h
  | memberNumberingAdopt c m arr => exact execMemberNumberingAdopt_inv h
  | measuringEnd c late => exact execMeasuringEnd_inv h
  | dcGrowthStep c => exact execDcGrowthStep_inv h
  | outputFrameRead c errs => exact execOutputFrameRead_inv h
  | selectorEvaluation c => exact execSelectorEvaluation_inv h
  | psClear c => exact execPsClear_inv h
  | psLockout c => exact execPsLockout_inv h
  | psForcedSwitch c => exact execPsForcedSwitch_inv h
  | psManualA c => exact execPsManualA_inv h
  | psManualB c => exact execPsManualB_inv h
  | realign c => exact execRealign_inv h
  | wtrExpiry c => exact execWtrExpiry_inv h
  | memberMismatch c m => exact execMemberMismatch_inv h
  | channelMessageVerify c => exact execChannelMessageVerify_inv h
  | keyLoadSlot f => exact execKeyLoadSlot_inv h
  | keyEraseSlot f => exact execKeyEraseSlot_inv h
  | kekLoad f => exact execKekLoad_inv h
  | kekErase f => exact execKekErase_inv h
  | msgQueueGo f => exact execMsgQueueGo_inv h
  | msgServiceGrant host err => exact execMsgServiceGrant_inv h
  | msgServiceEnd f err => exact execMsgServiceEnd_inv h
  | clientFrameRx k frame err fecCorr fecUnc => exact execClientFrameRx_inv h
  | clientFrameEgress k => exact execClientFrameEgress_inv h
  | clientMgmtPeriod k => exact execClientMgmtPeriod_inv h
  | clientIndicationExpiry k upi => exact execClientIndicationExpiry_inv h
  | egressReplacement k => exact execEgressReplacement_inv h
  | calendarSwitch g tx rx ohLock mismatch => exact execCalendarSwitch_inv h
  | laneDeepExit l => exact execLaneDeepExit_inv h
  | cellarTrain => exact execCellarTrain_inv h
  | cellarRetrain => exact execCellarRetrain_inv h
  | cellarTrainDone ok dense => exact execCellarTrainDone_inv h
  | accRead errs => exact execAccRead_inv h
  | accWrite => exact execAccWrite_inv h
  | accRawWrite => exact execAccRawWrite_inv h
  | accDone => exact execAccDone_inv h
  | touchGo errs => exact execTouchGo_inv h
  | celTouchDone => exact execCelTouchDone_inv h
  | pprGo resource => exact execPprGo_inv h
  | celPprDone clean => exact execCelPprDone_inv h
  | memInjArm => exact execMemInjArm_inv h
  | candGate100ms sl off => exact execCandGate100ms_inv h
  | candGate1ms offs => exact execCandGate1ms_inv h
  | candWtrExpiry sl => exact execCandWtrExpiry_inv h
  | candAvailLoss sl => exact execCandAvailLoss_inv h
  | selHoldoffExpiry => exact execSelHoldoffExpiry_inv h
  | selForce => exact execSelForce_inv h
  | selManual => exact execSelManual_inv h
  | selClear => exact execSelClear_inv h
  | selLocked => exact execSelLocked_inv h
  | phaseStepGo => exact execPhaseStepGo_inv h
  | phaseSlewDone => exact execPhaseSlewDone_inv h
  | todSet => exact execTodSet_inv h
  | todAdj => exact execTodAdj_inv h
  | todWrap => exact execTodWrap_inv h
  | timerArm n => exact execTimerArm_inv h
  | timerDisarm n => exact execTimerDisarm_inv h
  | timerFire n => exact execTimerFire_inv h
  | ltcMultiframe => exact execLtcMultiframe_inv h
  | linkAttemptStart p => exact execLinkAttemptStart_inv h
  | ident p => exact execIdent_inv h
  | linkAttemptTimeout p => exact execLinkAttemptTimeout_inv h
  | attemptSignalLoss p => exact execAttemptSignalLoss_inv h
  | linkBackoffExpiry p => exact execLinkBackoffExpiry_inv h
  | absentProbe p => exact execAbsentProbe_inv h
  | mismatchRetry p => exact execMismatchRetry_inv h
  | linkLoss p => exact execLinkLoss_inv h
  | poryonFrameRx p content codes => exact execPoryonFrameRx_inv h
  | message p => exact execMessage_inv h
  | heartbeatSend => exact execHeartbeatSend_inv h
  | heartbeat p => exact execHeartbeat_inv h
  | twinHeartbeatLoss => exact execTwinHeartbeatLoss_inv h
  | peerActiveAssert => exact execPeerActiveAssert_inv h
  | takeoverFullAmplitude => exact execTakeoverFullAmplitude_inv h
  | twinRelease => exact execTwinRelease_inv h
  | releaseAckTimeout => exact execReleaseAckTimeout_inv h
  | releaseBoundary => exact execReleaseBoundary_inv h
  | twinDetach => exact execTwinDetach_inv h
  | twinResync => exact execTwinResync_inv h
  | pair => exact execPair_inv h
  | joinTimeout => exact execJoinTimeout_inv h
  | mirror => exact execMirror_inv h
  | domain p => exact execDomain_inv h
  | managerHeartbeatSend => exact execManagerHeartbeatSend_inv h
  | managerLoss => exact execManagerLoss_inv h
  | event p => exact execEvent_inv h
  | rfwRead w => exact execRfwRead_inv h
  | rfwWrite w => exact execRfwWrite_inv h
  | response p => exact execResponse_inv h
  | rfwTimeout w => exact execRfwTimeout_inv h
  | tunnelRequestRx p => exact execTunnelRequestRx_inv h
  | monSeqGo => exact execMonSeqGo_inv h
  | monSeqStop => exact execMonSeqStop_inv h
  | accSnap => exact execAccSnap_inv h
  | injectionTrigger q => exact execInjectionTrigger_inv h
  | injectionDone q => exact execInjectionDone_inv h
  | injectionMissed q => exact execInjectionMissed_inv h
  | bgCalTurn => exact execBgCalTurn_inv h
  | fgCalStart => exact execFgCalStart_inv h
  | fgCalEnd => exact execFgCalEnd_inv h
  | msyncFall => exact execMsyncFall_inv h
  | syncGo => exact execSyncGo_inv h
  | dcRespRequest c r fade => exact execDcRespRequest_inv h
  | dcFadeEnd c => exact execDcFadeEnd_inv h
  | counterWindowBoundary => exact execCounterWindowBoundary_inv h
  | monSnap => exact execMonSnap_inv h
  | counterSelect v => exact execCounterSelect_inv h
  | sentinelPassStart => exact execSentinelPassStart_inv h
  | sentinelPassEnd sites eyes => exact execSentinelPassEnd_inv h
  | ageingRecordWrite hours ok1 ok2 => exact execAgeingRecordWrite_inv h
  | avsVout ok => exact execAvsVout_inv h
  | caskWinRead => exact execCaskWinRead_inv h
  | caskWinProgram => exact execCaskWinProgram_inv h
  | caskWinErase => exact execCaskWinErase_inv h
  | fesWrite sl => exact execFesWrite_inv h
  | fesRead sl => exact execFesRead_inv h
  | otpProg field value vpp tck => exact execOtpProg_inv h
  | upReceiverFirstLock st => exact execUpReceiverFirstLock_inv h
  | hostClockFound => exact execHostClockFound_inv h
  | candidateAvailable sl => exact execCandidateAvailable_inv h
  | hostSideConditionChange p side => exact execHostSideConditionChange_inv h
  | portIdleTimeout p => exact execPortIdleTimeout_inv h
  | conversionClockEdge codes => exact execConversionClockEdge_inv h
  | caskWinDone err => exact execCaskWinDone_inv h
  | fesFrameDone sl tries => exact execFesFrameDone_inv h
  | captureSegmentFilled => exact execCaptureSegmentFilled_inv h

/-- A step is the first command of the queue, or the passage of time. -/
theorem step_inv (h : s.Inv ω) : Out.Inv ω (step s) := by
  unfold step
  split
  · exact .next (.idleTick h)
  · exact exec_inv (.upd h rfl)

/-- Settles O4: `State.Inv` for the memories. -/
theorem memoriesKeepTheirForm : Obligations.MemoriesKeepTheirForm := by
  rintro s t hs (⟨c, hc⟩ | hstep)
  · exact exec_inv (ω := .memories) hs t hc
  · exact step_inv (ω := .memories) hs t hstep

/-- Settles O5: `State.Inv` for the claims of the sequencer. -/
theorem claimsEndWithTheProgram : Obligations.ClaimsEndWithTheProgram := by
  intro c s t q hc _ hlive hended n
  have hinv : t.Inv (.claims q) := exec_inv (ω := .claims q) (.inl hlive) t hc
  have hnone : Claim.NoneNames t.exec.claims q := hinv.resolve_left (by rw [hended]; decide)
  have hnot : ¬ (t.claim n).Names q := hnone.get n
  exact decide_eq_false fun hh => hnot (.inl hh)

end Sys2Proof.Machine
end


section
/-!
What packet words, events, reads of memory and journal records leave of the programs: each goes on where it was, and the vintages
stay (R70, R79, R111).
-/

namespace Sys2Proof.Machine

/-- What a sequencer has of its own: its registers, its flags, its program counter and what it runs for. -/
def Seq.own (x : Seq) : Seq := { x with state := .idle, scratch := [], events := [], wait := none, pktGot := 0, slowUnits := 0 }

/-- The program of a sequencer goes on: it stays live, a running one is not stopped, and one that waits for nothing takes no word of
its packet while the words come to no command queue. -/
structure Seq.GoesOn (x y : Seq) : Prop where
  own : y.own = x.own
  live : x.live = true → y.live = true
  running : x.state = .running → y.state = .running
  got : (∀ c, x.pktQ = some c → c < 16) → x.wait = none → y.pktGot = x.pktGot ∧ y.wait = none

/-- Every program that o runs goes on in s, the vintages and the last abort are those of o, and what is pending stays so. -/
structure State.GoesOn (o s : State) : Prop where
  vtg : s.vtg = o.vtg
  seqs : ∀ q, (o.seq q).GoesOn (s.seq q)
  pends : ∀ e : Fin 128, o.pends e = true → s.pends e = true
  abort : s.rd F.SEQ_ABORT_CMD_func = o.rd F.SEQ_ABORT_CMD_func

theorem Seq.GoesOn.refl (x : Seq) : x.GoesOn x := ⟨rfl, id, id, fun _ hw => ⟨rfl, hw⟩⟩

theorem Seq.GoesOn.trans {x y z : Seq} (h : x.GoesOn y) (h' : y.GoesOn z) : x.GoesOn z := by
  have hpkt : y.pktQ = x.pktQ := show y.own.pktQ = x.own.pktQ from congrArg Seq.pktQ h.own
  refine ⟨h'.own.trans h.own, fun hl => h'.live (h.live hl), fun hr => h'.running (h.running hr), fun hp hw => ?_⟩
  obtain ⟨hgot, hwait⟩ := h.got hp hw
  obtain ⟨hgot', hwait'⟩ := h'.got (hpkt ▸ hp) hwait
  exact ⟨hgot'.trans hgot, hwait'⟩

/-- A change of the scratch, the events and the slow units alone. -/
theorem Seq.GoesOn.of_eq {x y : Seq} (h : y.own = x.own) (hs : y.state = x.state) (hg : y.pktGot = x.pktGot)
    (hw : y.wait = x.wait) : x.GoesOn y :=
  ⟨h, fun hl => by rwa [Seq.live, hs], hs.trans, fun _ hn => ⟨hg, hw.trans hn⟩⟩

theorem Seq.GoesOn.slowUnits (x : Seq) (n : Nat) : x.GoesOn { x with slowUnits := n } := .of_eq rfl rfl rfl rfl

theorem Seq.deliver_goesOn (x : Seq) (e : Nat) (data : Word) : x.GoesOn (x.deliver e data) := by
  unfold Seq.deliver
  split <;> exact .of_eq rfl rfl rfl rfl

theorem Seq.resume_goesOn (x : Seq) : x.GoesOn x.resume := by
  by_cases hw : x.wait = none
  · rw [Seq.resume, hw]
    exact .refl x
  · have hr : x.resume = { x with wait := none, state := .running } ∨ x.resume = x := ite_eq_or_eq ..
    obtain hr | hr := hr <;> rw [hr]
    · exact ⟨rfl, fun _ => rfl, fun _ => rfl, fun _ hn => absurd hn hw⟩
    · exact .refl x

theorem State.GoesOn.refl (s : State) : s.GoesOn s := ⟨rfl, fun _ => .refl _, fun _ => id, rfl⟩

variable {o s t : State}

theorem State.rd_of_regs (h : t.regs = s.regs) (f : Fld) : t.rd f = s.rd f := by
  rw [State.rd, h, State.rd]

/-- A change elsewhere. -/
theorem State.GoesOn.keep (h : o.GoesOn s) (hs : t.seqs = s.seqs) (hv : t.vtg = s.vtg) (hr : t.regs = s.regs) :
    o.GoesOn t :=
  ⟨hv.trans h.vtg, fun q => by simpa only [State.seq, hs] using h.seqs q,
    fun e he => (State.pends_of_pend (State.pend_of_regs hr) e).trans (h.pends e he),
    (State.rd_of_regs hr _).trans h.abort⟩

theorem State.GoesOn.trans (h : o.GoesOn s) (h' : s.GoesOn t) : o.GoesOn t :=
  ⟨h'.vtg.trans h.vtg, fun q => (h.seqs q).trans (h'.seqs q), fun e he => h'.pends e (h.pends e he),
    h'.abort.trans h.abort⟩

theorem State.GoesOn.setSeq_of {q : Nat} {x : Seq} (h : o.GoesOn s) (hx : (o.seq q).GoesOn x) : o.GoesOn (s.setSeq q x) := by
  refine ⟨h.vtg, fun p => ?_, h.pends, h.abort⟩
  by_cases hp : p = q
  · subst hp; rw [State.seq_setSeq_self]; exact hx
  · rw [State.seq_setSeq_ne _ _ _ _ hp]; exact h.seqs p

theorem State.GoesOn.setSeq {q : Nat} {x : Seq} (h : o.GoesOn s) (hx : (s.seq q).GoesOn x) : o.GoesOn (s.setSeq q x) :=
  h.setSeq_of ((h.seqs q).trans hx)

theorem State.GoesOn.ite {c : Prop} {_ : Decidable c} (hs : o.GoesOn s) (ht : o.GoesOn t) : o.GoesOn (if c then s else t) := by
  split <;> assumption

theorem State.GoesOn.iteL {c : Prop} {_ : Decidable c} (hs : o.GoesOn s) (ht : o.GoesOn s → o.GoesOn t) :
    o.GoesOn (if c then t else s) := .ite (ht hs) hs

theorem State.GoesOn.iteR {c : Prop} {_ : Decidable c} (hs : o.GoesOn s) (ht : o.GoesOn s → o.GoesOn t) :
    o.GoesOn (if c then s else t) := .ite hs (ht hs)

theorem State.GoesOn.of_snd {α : Type} {r : α × State} {a : α} (hr : r = (a, t)) (h : o.GoesOn r.2) : o.GoesOn t := by
  subst hr
  exact h

theorem State.GoesOn.forEach {α : Type} {f : α → State → State} {l : List α} (hf : ∀ a s, o.GoesOn s → o.GoesOn (f a s))
    (h : o.GoesOn s) : o.GoesOn (Machine.forEach f l s) := by
  induction l generalizing s with
  | nil => exact h
  | cons a l ih => exact ih (hf a s h)

/-- Fields that have no key of the pending words and none of SEQ_ABORT_CMD.func, by their lowest bit or their address. -/
def Fld.aloof (f : Fld) : Bool := f.unpend && decide (f.lo < 32 ∧ (f.lo ≠ 19 ∨ 0xC00002 < f.addr))

theorem Fld.aloof_ne {f : Fld} (h : f.aloof = true) (is : List Nat) : fldKey F.SEQ_ABORT_CMD_func [] ≠ fldKey f is := by
  obtain ⟨-, h⟩ := Bool.and_eq_true_iff.mp h
  have hf := of_decide_eq_true h
  have ha := fldAddr_ge f is
  have ek : fldKey F.SEQ_ABORT_CMD_func [] = 0xC00002 * 32 + 19 := rfl
  rw [ek, fldKey]
  omega

theorem State.GoesOn.wr_ne {f v is} (hf : f.unpend = true) (hk : fldKey F.SEQ_ABORT_CMD_func [] ≠ fldKey f is) (h : o.GoesOn s) :
    o.GoesOn (s.wr f v is) :=
  ⟨h.vtg, h.seqs, fun e he => (State.pends_of_pend (State.wr_pend hf ..) e).trans (h.pends e he),
    (State.rd_wr_ne _ _ _ _ _ _ hk).trans h.abort⟩
theorem State.GoesOn.wr {f v is} (hf : f.aloof = true) (h : o.GoesOn s) : o.GoesOn (s.wr f v is) :=
  .wr_ne (Bool.and_eq_true_iff.mp hf).1 (Fld.aloof_ne hf is) h
theorem State.GoesOn.addSat {f n max is} (hf : f.aloof = true) (h : o.GoesOn s) : o.GoesOn (s.addSat f n max is) := .wr hf h
theorem State.GoesOn.count {i n} (h : o.GoesOn s) : o.GoesOn (s.count i n) := .keep h rfl rfl rfl
theorem State.GoesOn.setQueue {q x} (h : o.GoesOn s) : o.GoesOn (s.setQueue q x) := .keep h rfl rfl rfl
theorem State.GoesOn.signalVec {f v} (h : o.GoesOn s) : o.GoesOn (s.signalVec f v) := .ite (.keep h rfl rfl rfl) (.keep h rfl rfl rfl)
theorem State.GoesOn.signalEvent {e} (h : o.GoesOn s) : o.GoesOn (s.signalEvent e) := .ite (.ite (.signalVec h) h) h
theorem State.GoesOn.deliverSeqs {e data} (h : o.GoesOn s) : o.GoesOn (s.deliverSeqs e data) :=
  .forEach (fun _ _ h => .setSeq h (Seq.deliver_goesOn ..)) h
theorem State.GoesOn.setPort {p x} (h : o.GoesOn s) : o.GoesOn (s.setPort p x) := .keep h rfl rfl rfl
theorem State.GoesOn.pryTx {p m} (h : o.GoesOn s) : o.GoesOn (s.pryTx p m) := .ite (.setPort h) h
theorem State.GoesOn.forwardEvent {e data} (h : o.GoesOn s) : o.GoesOn (s.forwardEvent e data) :=
  .ite (.ite (.pryTx h) (.count h)) h
theorem State.GoesOn.setInj {q x} (h : o.GoesOn s) : o.GoesOn (s.setInj q x) := .keep h rfl rfl rfl
theorem State.GoesOn.injTrigger {q} (h : o.GoesOn s) : o.GoesOn (s.injTrigger q) := by
  unfold State.injTrigger
  dsimp only
  split
  · exact .addSat (by decide) h
  · exact .wr (by decide) (.setInj h)
theorem State.GoesOn.injEvent {e} (h : o.GoesOn s) : o.GoesOn (s.injEvent e) :=
  .forEach (fun _ _ h => .ite (.injTrigger (.setInj h)) h) h
theorem hb_ne_abort (i : Nat) : fldKey F.SEQ_ABORT_CMD_func [] ≠ fldKey F.CNV_CAP_STAT_hb [i] := by
  have ek : fldKey F.CNV_CAP_STAT_hb [i] = (0x200803 + (131072 * i + 0)) * 32 + 19 := rfl
  have ea : fldKey F.SEQ_ABORT_CMD_func [] = 0xC00002 * 32 + 19 := rfl
  rw [ea, ek]
  omega
theorem State.GoesOn.fireCapture {i} (h : o.GoesOn s) : o.GoesOn (s.fireCapture i) :=
  .iteL (.iteL (.iteL (.wr (by decide) h) (fun h => .wr (by decide) h)) (fun h => .wr_ne (by decide) (hb_ne_abort i) h))
    (fun h => .wr (by decide) (.wr (by decide) (.wr (by decide) h)))
theorem State.GoesOn.stick {f i} (hf : f.aloof = true) (h : o.GoesOn s) : o.GoesOn (s.stick f i) := .ite h (.wr hf h)
theorem State.GoesOn.captureTrigger {kind n} (h : o.GoesOn s) : o.GoesOn (s.captureTrigger kind n) := by
  unfold State.captureTrigger
  split
  · exact h
  · exact .ite (.ite (.fireCapture h) (.stick (by decide) h)) h
theorem State.GoesOn.celAsk {k n} (h : o.GoesOn s) : o.GoesOn (s.celAsk k n) := .ite h (.keep h rfl rfl rfl)
/-- The pending bit of an event, the first thing that it changes. -/
def State.pendBit (s : State) (e : Nat) : State :=
  if e < 128 then s.wr F.GLB_EVT_PEND_bits (s.rd F.GLB_EVT_PEND_bits [e / 24] ||| 2 ^ (e % 24)) [e / 24] else s

theorem State.raise_eq (s : State) (e data : Nat) : s.raise e data =
    ((((((s.pendBit e).deliverSeqs e (BitVec.ofNat 24 data)).signalEvent e).forwardEvent e data).injEvent e).captureTrigger 2 e) :=
  rfl

theorem State.GoesOn.raise {e data} (h : o.GoesOn s) : o.GoesOn (s.raise e data) := by
  have hraise : (s.pendBit e).GoesOn (s.raise e data) := by
    rw [State.raise_eq]
    exact .captureTrigger (.injEvent (.forwardEvent (.signalEvent (.deliverSeqs (.refl _)))))
  have hseq (q : Nat) : (s.pendBit e).seq q = s.seq q := by
    unfold State.pendBit
    split <;> rfl
  have hvtg : (s.pendBit e).vtg = s.vtg := by
    unfold State.pendBit
    split <;> rfl
  refine ⟨hraise.vtg.trans (hvtg.trans h.vtg), fun q => ?_, fun x hx => State.raise_keeps_pends (h.pends x hx) e data,
    (State.raise_rd _ _ _ _ _ (by decide)).trans h.abort⟩
  have hq := hraise.seqs q
  rw [hseq q] at hq
  exact (h.seqs q).trans hq
theorem State.GoesOn.putRow {cls row} (h : o.GoesOn s) : o.GoesOn (s.putRow cls row) := .keep h rfl rfl rfl
theorem State.GoesOn.memWrite {cls row whole} (h : o.GoesOn s) : o.GoesOn (s.memWrite cls row whole).2 := by
  unfold State.memWrite
  split
  · exact .putRow h
  · split
    · exact .putRow h
    · exact .putRow (.count h)
    · exact .count h
theorem State.GoesOn.memRead {cls row} (h : o.GoesOn s) : o.GoesOn (s.memRead cls row).2 := by
  unfold State.memRead
  dsimp only
  split
  · exact .count h
  · split
    · exact h
    · exact .count (.keep h rfl rfl rfl)
    · dsimp only
      exact .raise (.count h)
theorem State.GoesOn.sendNotice {q} (h : o.GoesOn s) : o.GoesOn (s.sendNotice q) :=
  .ite (.raise h) (.ite (.signalVec h) (.ite (.signalVec h) (.ite (.signalVec h) (.ite h (.raise h)))))
theorem State.GoesOn.markNotice {q} (h : o.GoesOn s) : o.GoesOn (s.markNotice q) := by
  unfold State.markNotice
  dsimp only
  split
  · exact .setQueue h
  · exact h
theorem State.GoesOn.notice {q} (h : o.GoesOn s) : o.GoesOn (s.notice q) :=
  .ite (.ite (.markNotice (.wr (by decide) h)) (.sendNotice (.wr (by decide) h))) h
theorem State.GoesOn.queueMarks {q} (h : o.GoesOn s) : o.GoesOn (s.queueMarks q) := by
  unfold State.queueMarks
  dsimp only
  refine .iteL (.ite (.wr (by decide) h) h) (fun h => ?_)
  split
  · exact .iteR (.wr (by decide) h) (fun h => .signalVec h)
  · exact .wr (by decide) h
theorem State.GoesOn.refuseWords {q pkts words} (h : o.GoesOn s) : o.GoesOn (s.refuseWords q pkts words) :=
  .addSat (by decide) (.addSat (by decide) h)
theorem State.GoesOn.land {q x ps} (h : o.GoesOn s) : o.GoesOn (s.land q x ps) := .setQueue (.memWrite h)
theorem State.GoesOn.arrive {q w given} (h : o.GoesOn s) : o.GoesOn (s.arrive q w given) := by
  unfold State.arrive
  dsimp only
  refine .ite (.setQueue h) (.ite (.refuseWords (.setQueue h)) ?_)
  split
  · exact .iteL (.land h) (fun h => .notice h)
  · exact .ite (.iteL (.land h) (fun h => .notice h)) (.refuseWords (.setQueue h))
theorem State.GoesOn.deliverWord {q w} (h : o.GoesOn s) : o.GoesOn (s.deliverWord q w).2 := by
  unfold State.deliverWord
  dsimp only
  split
  · split
    · exact .memRead h
    · exact .refuseWords (.memRead h)
  · exact .memRead h
theorem State.GoesOn.popWord {q w last} (h : o.GoesOn s) (hp : s.popWord q = some (w, last, t)) : o.GoesOn t := by
  unfold State.popWord at hp
  dsimp only at hp
  split at hp
  · split at hp
    · obtain ⟨-, -, rfl⟩ := hp
      exact .setQueue (.deliverWord h)
    · cases hp
  · cases hp
theorem State.GoesOn.popWords {q n} (h : o.GoesOn s) : o.GoesOn (s.popWords q n).2 := by
  induction n generalizing s with
  | zero => exact h
  | succ n ih =>
    unfold State.popWords
    split
    · exact h
    · next hp => exact ih (.popWord h hp)
theorem State.GoesOn.putScratch {q a w} (h : o.GoesOn s) : o.GoesOn (s.putScratch q a w) :=
  .iteL (.memWrite h) (fun h => .setSeq h (.of_eq rfl rfl rfl rfl))
theorem State.GoesOn.putWords {q a ws} (h : o.GoesOn s) : o.GoesOn (s.putWords q a ws) := by
  induction ws generalizing s a with
  | nil => exact h
  | cons w ws ih => exact ih (.putScratch h)
theorem State.GoesOn.takeWords {sq q ws} (hq : 16 ≤ q) (h : o.GoesOn s) : o.GoesOn (s.takeWords sq q ws) := by
  unfold State.takeWords
  dsimp only
  split
  · next hx =>
    have hput : s.GoesOn (s.putWords sq (s.seq sq).pktGot ws) := .putWords (.refl s)
    have hseq := hput.seqs sq
    exact h.trans (hput.setSeq_of ⟨hseq.own, hseq.live, hseq.running, fun hp _ => absurd (hp q hx) (by omega)⟩)
  · split
    · next a base mx src got len _ hw =>
      have hput : s.GoesOn (s.putWords sq (base + min got mx) (ws.take (mx - min got mx))) := .putWords (.refl s)
      have hseq := hput.seqs sq
      refine h.trans (hput.setSeq_of ⟨hseq.own, hseq.live, hseq.running, fun _ hn => ?_⟩)
      rw [hw] at hn
      cases hn
    · exact h
theorem State.GoesOn.feed {q} (hq : 16 ≤ q) (h : o.GoesOn s) : o.GoesOn (s.feed q) := by
  unfold State.feed
  dsimp only
  split
  · exact .iteL (.takeWords hq (.popWords h)) (fun h => .setQueue h)
  · exact h
theorem State.GoesOn.push {q w given} (hq : 16 ≤ q) (h : o.GoesOn s) : o.GoesOn (s.push q w given) := by
  unfold State.push
  dsimp only
  split
  · exact .setSeq (.feed hq (.queueMarks (.arrive h))) (Seq.resume_goesOn _)
  · exact .feed hq (.queueMarks (.arrive h))
theorem State.GoesOn.pushAll {q ws} (hq : 16 ≤ q) (h : o.GoesOn s) : o.GoesOn (s.pushAll q ws) :=
  .forEach (fun _ _ h => .push hq h) h
theorem State.GoesOn.mirrorDrain (h : o.GoesOn s) : o.GoesOn (s.mirrorDrain) := by
  unfold State.mirrorDrain
  refine .ite ?_ h
  dsimp only
  split
  · exact h
  · exact .ite h (.pryTx (.setQueue h))
theorem State.GoesOn.mirror {typ content} (h : o.GoesOn s) : o.GoesOn (s.mirror typ content) :=
  .ite (.mirrorDrain (.keep (.pushAll (by omega) h) rfl rfl rfl)) h
theorem State.GoesOn.putBlock {b w} (h : o.GoesOn s) : o.GoesOn (s.putBlock b w) := .keep h rfl rfl rfl
theorem State.GoesOn.openLine {b} (h : o.GoesOn s) : o.GoesOn (s.openLine b) :=
  .ite h (.count (.keep h rfl rfl rfl))
theorem State.GoesOn.celCorrected {region ch loc} (h : o.GoesOn s) : o.GoesOn (s.celCorrected region ch loc) :=
  .wr (by decide) (.wr (by decide) (.wr (by decide) (.count h)))
theorem State.GoesOn.writeGroups {b bytes} (h : o.GoesOn s) : o.GoesOn (s.writeGroups b bytes) :=
  .forEach (fun _ _ h => .putBlock h) h
theorem State.GoesOn.writePart {b off bytes} (h : o.GoesOn s) : o.GoesOn (s.writePart b off bytes) := by
  unfold State.writePart
  dsimp only
  split
  · exact .putBlock (.openLine h)
  · exact .putBlock (.celCorrected (.openLine h))
  · exact .count (.openLine h)
theorem State.GoesOn.archiveWrite {a bytes} (h : o.GoesOn s) : o.GoesOn (s.archiveWrite a bytes) :=
  .ite (.writeGroups (.celAsk h)) (.writePart (.celAsk h))
theorem State.GoesOn.archivePut {a bytes} (h : o.GoesOn s) : o.GoesOn (s.archivePut a bytes) :=
  .ite (.keep h rfl rfl rfl) (.archiveWrite h)
theorem State.GoesOn.archiveRecord {ws} (h : o.GoesOn s) : o.GoesOn (s.archiveRecord ws) :=
  .ite (.keep (.archivePut h) rfl rfl rfl) (.wr (by decide) h)
theorem State.GoesOn.record {tag program step status sq func fault} (h : o.GoesOn s) :
    o.GoesOn (s.record tag program step status sq func fault) :=
  .mirror (.archiveRecord (.pushAll (by omega) h))
theorem State.GoesOn.respond {func program tag outcome fault sq step results} (h : o.GoesOn s) :
    o.GoesOn (s.respond func program tag outcome fault sq step results) :=
  .pushAll (by omega) h
theorem State.GoesOn.clearScratch {q} (h : o.GoesOn s) : o.GoesOn (s.clearScratch q) := .keep h rfl rfl rfl
theorem State.GoesOn.started {q} (h : o.GoesOn s) : o.GoesOn (s.started q) := by
  unfold State.started
  extract_lets x u
  have hu : o.GoesOn u := .memWrite (.record h)
  clear_value u
  exact .keep hu rfl rfl rfl
theorem State.GoesOn.noteStep {q n} (h : o.GoesOn s) : o.GoesOn (s.noteStep q n) := by
  unfold State.noteStep
  split
  · exact .iteL (.memWrite h) (fun h => .keep h rfl rfl rfl)
  · exact h
theorem State.GoesOn.readScratch {q a} (h : o.GoesOn s) : o.GoesOn (s.readScratch q a).2 := .memRead h
theorem State.GoesOn.readWords {q a n} (h : o.GoesOn s) : o.GoesOn (s.readWords q a n).2 := by
  induction n generalizing s a with
  | zero => exact h
  | succ n ih =>
    unfold State.readWords
    split
    · next hr => exact .of_snd hr (.readScratch h)
    · next hr => exact ih (.of_snd hr (.readScratch h))

end Sys2Proof.Machine
end


section
/-!
The journal of a program: STEP and JREC (R79, R80, R115).
-/

namespace Sys2Proof.Machine

theorem Seq.GoesOn.w {x y : Seq} (h : x.GoesOn y) : y.w = x.w := show y.own.w = x.own.w from congrArg Seq.w h.own

theorem Seq.GoesOn.pc {x y : Seq} (h : x.GoesOn y) : y.pc = x.pc := show y.own.pc = x.own.pc from congrArg Seq.pc h.own

theorem Seq.GoesOn.step {x y : Seq} (h : x.GoesOn y) : y.step = x.step := show y.own.step = x.own.step from congrArg Seq.step h.own

theorem State.noteStep_queue (s : State) (q n k : Nat) (hk : k ≠ 34) : (s.noteStep q n).queue k = s.queue k := by
  have hw : (s.memWrite 7 (inFlightRow q) false).2.queue k = s.queue k := State.queue_of_desk_eq (State.memWrite_desk ..) hk
  unfold State.noteStep
  split
  · dsimp only
    split
    · exact hw
    · exact hw
  · rfl

/-- A running program, from the state in which its instruction acts to one that it has left its record in. -/
structure Recorded (s : State) (q : Fin 16) (ws : List Word) (v : State) : Prop where
  goesOn : (s.seq q).GoesOn (v.seq q)
  vtg : v.vtg = s.vtg
  journal : JournalGets s v ws

theorem AfterRead.record {s u : State} {q : Fin 16} (h : AfterRead s q u) (n st : Nat) :
    Recorded s q (recordWords (s.seq q).tag (s.seq q).program n st q (s.seq q).func 0 s.time)
      (u.record (s.seq q).tag (s.seq q).program n st q (s.seq q).func 0) := by
  have hgo : u.GoesOn (u.record (s.seq q).tag (s.seq q).program n st q (s.seq q).func 0) := .record (.refl u)
  refine ⟨?_, hgo.vtg.trans h.vtg, fun hfresh => ?_⟩
  · have hq := hgo.seqs q
    rw [h.seq] at hq
    exact (Seq.GoesOn.slowUnits _ 0).trans hq
  · rw [← h.queue] at hfresh
    rw [← h.time]
    exact (State.record_queue hfresh ..).1

/-- The program goes on after its record, with its step or with another. -/
theorem Recorded.goOn {s v : State} {q : Fin 16} {ws : List Word} (h : Recorded s q ws v) (hl : (s.seq q).live = true)
    {pc : BitVec 19} {n : Nat} {f : Seq → Seq} (hpc : ∀ x, (f x).pc = pc) (hw : ∀ x, (f x).w = x.w)
    (hstep : ∀ x, x.step = (s.seq q).step → (f x).step = n) :
    ((v.onSeq q f).seq q).pc = pc ∧ ((v.onSeq q f).seq q).step = n ∧ ((v.onSeq q f).seq q).w = (s.seq q).w
      ∧ (v.onSeq q f).vtg = s.vtg ∧ JournalGets s (v.onSeq q f) ws := by
  rw [State.onSeq_of_live (h.goesOn.live hl), State.seq_setSeq_self]
  exact ⟨hpc _, hstep _ h.goesOn.step, (hw _).trans h.goesOn.w, h.vtg, h.journal⟩

/-- The in-flight entry takes the number of the step. -/
theorem Recorded.noteStep {s v : State} {q : Fin 16} {ws : List Word} (h : Recorded s q ws v) (n : Nat) :
    Recorded s q ws (v.noteStep q n) := by
  have hgo : v.GoesOn (v.noteStep q n) := .noteStep (.refl v)
  refine ⟨h.goesOn.trans (hgo.seqs q), hgo.vtg.trans h.vtg, fun hfresh => ?_⟩
  rw [State.noteStep_queue _ _ _ _ (by decide)]
  exact h.journal hfresh

section

variable {s : State} {q : Fin 16} {i : Ins} (hf : Fetches s q i) (ht : (s.seq q).t = false)
include hf ht

theorem exec_step (hop : i.op = 0x38) : exec (.step q) s = .next ((((atIssue s q).record (s.seq q).tag (s.seq q).program i.stepNum 0
    q (s.seq q).func 0).noteStep q i.stepNum).onSeq q fun x => { x.goOn i.next with step := i.stepNum }) := by
  refine congrArg Host.Outcome.next ((State.issue_of_fetches hf hop ht _ _).trans ?_)
  dsimp only
  rw [(atIssue_afterRead hf).seq]

theorem exec_jrec (hop : i.op = 0x39) : exec (.jrec q) s = .next (((atIssue s q).record (s.seq q).tag (s.seq q).program
    (if i.mBit 5 then ((s.seq q).reg i.b).toNat % 4096 else i.stepNum) 2 q (s.seq q).func 0).onSeq q fun x => x.goOn i.next) := by
  refine congrArg Host.Outcome.next ((State.issue_of_fetches hf hop ht _ _).trans ?_)
  dsimp only
  rw [(atIssue_afterRead hf).seq]
  rfl

end

/-- Settles O25: each leaves its record and goes on, STEP with its number as the step. -/
theorem tsuileJournal : Obligations.TsuileJournal := by
  intro s q i hf ht x
  have hu := atIssue_afterRead hf
  refine ⟨fun hop => ⟨_, exec_step hf ht hop, ?_⟩, fun hop => ⟨_, exec_jrec hf ht hop, ?_⟩⟩
  · obtain ⟨hpc, hstep, hrest⟩ := ((hu.record i.stepNum 0).noteStep i.stepNum).goOn hf.live
      (f := fun x => { x.goOn i.next with step := i.stepNum }) (fun _ => rfl) (fun _ => rfl) fun _ _ => rfl
    exact ⟨hstep, hpc, hrest⟩
  · exact (hu.record (if i.mBit 5 then (x.reg i.b).toNat % 4096 else i.stepNum) 2).goOn hf.live
      (fun _ => rfl) (fun _ => rfl) fun _ hstep => hstep

end Sys2Proof.Machine
end


section
/-!
The end of a program by its own instruction: what it finds, its record, its response and what it frees (R77, R79, R81, R83).
-/

namespace Sys2Proof.Machine

/-! ### A packet in a ring that held nothing -/

/-- The packet of n words that has begun with `ws` is all that the queue holds; while it is not whole, the next word joins it. -/
structure Queue.Takes (n : Nat) (ws : List Word) (x : Queue) : Prop where
  words : x.pkts.map QPkt.words = [ws]
  taker : x.taker = none
  begun : ws.length < n → x.refuse = 0 ∧ x.discard = 0 ∧ x.pkts = [⟨n, ws.length, ws, false⟩]

section Words

variable {s : State} {q n : Nat} (hq : q ≠ 34)
include hq

theorem State.push_of_takes {w : Word} {given : Nat} {ws : List Word} (ht : (s.queue q).taker = none)
    (h : ((s.arrive q w given).queue q).Takes n ws) : ((s.push q w given).queue q).Takes n ws := by
  have hmarks : ((s.arrive q w given).queueMarks q).queue q = (s.arrive q w given).queue q :=
    State.queue_of_desk_eq (State.queueMarks_desk ..) hq
  rwa [State.push_of_noTaker ht w given (by rw [hmarks]; exact h.taker), hmarks]

theorem State.notice_takes {ws : List Word} (h : (s.queue q).Takes n ws) (hn : ws.length = n) :
    ((s.notice q).queue q).Takes n ws := by
  obtain ⟨hwords, htaker⟩ := s.notice_words hq
  exact ⟨hwords.trans h.words, htaker.trans h.taker, fun hlt => by omega⟩

/-- The first word of a packet that fits (R163). -/
theorem State.push_begins {w : Word} {given : Nat} (h : (s.queue q).fresh) (hlen : packetLen q w given = n) (h2 : 2 ≤ n)
    (hdepth : n ≤ queueDepth q) : ((s.push q w given).queue q).Takes n [w] := by
  obtain ⟨hp, hr, hd, ht⟩ := h
  have hfree : n ≤ queueFree q (s.queue q) := by simpa [queueFree, Queue.held, Queue.reserved, hp, hd] using hdepth
  have hopen : (s.queue q).openPkt = none := by simp [Queue.openPkt, hp]
  have harr : s.arrive q w given = s.land q (s.queue q) [⟨n, 1, [w], false⟩] := by
    have h1 : ¬ n ≤ 1 := by omega
    unfold State.arrive
    simp [hd, hr, hopen, hlen, hfree, hp, h1]
  refine State.push_of_takes hq ht ?_
  rw [harr, State.land_queue]
  exact ⟨rfl, ht, fun _ => ⟨hr, hd, rfl⟩⟩

/-- A further word. -/
theorem State.push_joins {ws : List Word} (h : (s.queue q).Takes n ws) (hn : ws.length < n) (w : Word) (given : Nat) :
    ((s.push q w given).queue q).Takes n (ws ++ [w]) := by
  obtain ⟨hr, hd, hp⟩ := h.begun hn
  have hopen : (s.queue q).openPkt = some ([], ⟨n, ws.length, ws, false⟩) := by simp [Queue.openPkt, hp, hn]
  have harr : s.arrive q w given =
      if ws.length + 1 = n then (s.land q (s.queue q) [⟨n, ws.length + 1, ws ++ [w], false⟩]).notice q
      else s.land q (s.queue q) [⟨n, ws.length + 1, ws ++ [w], false⟩] := by
    unfold State.arrive
    simp only [hd, hr, hopen, ne_eq, not_true_eq_false, if_false]
    rfl
  have hland : ((s.land q (s.queue q) [⟨n, ws.length + 1, ws ++ [w], false⟩]).queue q).Takes n (ws ++ [w]) := by
    rw [State.land_queue]
    exact ⟨rfl, h.taker, fun _ => ⟨hr, hd, by simp⟩⟩
  refine State.push_of_takes hq h.taker ?_
  rw [harr]
  split
  · next hlast => exact State.notice_takes hq hland (by simpa using hlast)
  · exact hland

theorem State.forEach_push_joins (given : Nat) (us ws : List Word) (h : (s.queue q).Takes n ws)
    (hn : ws.length + us.length = n) : ((forEach (fun w t => t.push q w given) us s).queue q).Takes n (ws ++ us) := by
  induction us generalizing s ws with
  | nil => rwa [List.append_nil]
  | cons u us ih =>
    rw [List.length_cons] at hn
    have hjoin := ih _ (State.push_joins hq h (by omega) u given) (by simp; omega)
    rwa [List.append_assoc] at hjoin

/-- The words of a packet are the one packet of a ring that held nothing. -/
theorem State.pushAll_takes (w : Word) (ws : List Word) (h : (s.queue q).fresh) (hws : ws ≠ [])
    (hlen : packetLen q w (ws.length + 1) = ws.length + 1) (hdepth : ws.length + 1 ≤ queueDepth q) :
    ((s.pushAll q (w :: ws)).queue q).Takes (ws.length + 1) (w :: ws) :=
  State.forEach_push_joins hq _ ws [w]
    (State.push_begins hq h hlen (by have := List.length_pos_of_ne_nil hws; omega) hdepth) (Nat.add_comm ..)

end Words

/-! ### What is freed -/

theorem State.dropTaken_queue_of_noTaker {s : State} {k : Nat} (h : (s.queue k).taker = none) (sq q : Nat) :
    (s.dropTaken sq q).queue k = s.queue k := by
  unfold State.dropTaken
  dsimp only
  split
  · split
    · next ht =>
      refine State.queue_setQueue_ne _ _ _ _ fun hk => ?_
      rw [← hk, h] at ht
      simp at ht
    · rfl
  · rfl

theorem State.leaveWait_queue_of_noTaker {s : State} {k : Nat} (h : (s.queue k).taker = none) (q : Nat) :
    (s.leaveWait q).queue k = s.queue k := by
  unfold State.leaveWait
  dsimp only
  split
  · rfl
  · exact State.dropTaken_queue_of_noTaker h ..
  · rfl
  · rfl

theorem State.releaseSeq_queue_of_noTaker {s : State} {k : Nat} (h : (s.queue k).taker = none) (q : Nat) :
    (s.releaseSeq q).queue k = s.queue k := by
  have hw := State.leaveWait_queue_of_noTaker h q
  have hp : ((s.leaveWait q).leavePacket q).queue k = (s.leaveWait q).queue k := by
    unfold State.leavePacket
    split
    · exact State.dropTaken_queue_of_noTaker (by rw [hw]; exact h) ..
    · rfl
  exact hp.trans hw

theorem State.dropTaken_vtg (s : State) (sq q : Nat) : (s.dropTaken sq q).vtg = s.vtg := by
  unfold State.dropTaken
  dsimp only
  repeat' split
  all_goals rfl

theorem State.releaseSeq_vtg (s : State) (q : Nat) : (s.releaseSeq q).vtg = s.vtg := by
  have hw : (s.leaveWait q).vtg = s.vtg := by
    unfold State.leaveWait
    dsimp only
    split
    · rfl
    · exact State.dropTaken_vtg ..
    · rfl
    · rfl
  have hp : ((s.leaveWait q).leavePacket q).vtg = (s.leaveWait q).vtg := by
    unfold State.leavePacket
    split
    · exact State.dropTaken_vtg ..
    · rfl
  exact hp.trans hw

/-! ### The state in which a program ends -/

/-- From s to u memory has been read, on behalf of sequencer q (R411, R413). -/
structure Reached (s : State) (q : Fin 16) (u : State) : Prop where
  seq : (s.seq q).GoesOn (u.seq q)
  vtg : u.vtg = s.vtg
  queue : ∀ k, k ≠ 34 → u.queue k = s.queue k
  time : u.time = s.time
  recover : u.ctl.recoverRun = s.ctl.recoverRun

theorem Reached.refl (s : State) (q : Fin 16) : Reached s q s := ⟨.refl _, rfl, fun _ _ => rfl, rfl, rfl⟩

theorem State.memRead_tim (s : State) (cls row : Nat) : (s.memRead cls row).2.tim = s.tim := by
  unfold State.memRead
  dsimp only
  repeat' split
  all_goals simp

section Reached

variable {s u : State} {q : Fin 16}

theorem Reached.memRead (h : Reached s q u) (cls row : Nat) : Reached s q (u.memRead cls row).2 := by
  have hgo : u.GoesOn (u.memRead cls row).2 := .memRead (.refl u)
  exact ⟨h.seq.trans (hgo.seqs q), hgo.vtg.trans h.vtg,
    fun k hk => (State.queue_of_desk_eq (State.memRead_desk ..) hk).trans (h.queue k hk),
    (congrArg (fun t : Tim => t.now.extractLsb' 32 32) (State.memRead_tim ..)).trans h.time,
    (Base.recoverRun_of_base (State.memRead_base ..)).trans h.recover⟩

theorem Reached.setSeq (h : Reached s q u) {x : Seq} (hx : (u.seq q).GoesOn x) : Reached s q (u.setSeq q x) :=
  ⟨by rw [State.seq_setSeq_self]; exact h.seq.trans hx, h.vtg, h.queue, h.time, h.recover⟩

theorem Reached.fetchWord (h : Reached s q u) (pc : BitVec 19) : Reached s q (u.fetchWord pc).2 := by
  unfold State.fetchWord
  split
  · exact h
  · exact h.memRead ..

theorem Reached.fetch (h : Reached s q u) : Reached s q (u.fetch q).2 := by
  unfold State.fetch
  dsimp only
  split
  · exact h.fetchWord _
  · split
    · exact h.fetchWord _
    · split
      · exact (h.fetchWord _).fetchWord _
      · exact h.fetchWord _

theorem Reached.readWords (h : Reached s q u) (a n : Nat) : Reached s q (u.readWords q a n).2 := by
  induction n generalizing u a with
  | zero => exact h
  | succ n ih =>
    have hread : Reached s q (u.readScratch q a).2 := h.memRead ..
    unfold State.readWords
    split
    · next hr => rwa [hr] at hread
    · next hr =>
      rw [hr] at hread
      exact ih hread _

theorem reached_atIssue (s : State) (q : Fin 16) : Reached s q (atIssue s q) :=
  (Reached.refl s q).fetch.setSeq (.of_eq rfl rfl rfl rfl)

theorem Seq.GoesOn.func {x y : Seq} (h : x.GoesOn y) : y.func = x.func := show y.own.func = x.own.func from congrArg Seq.func h.own

theorem Seq.GoesOn.tag {x y : Seq} (h : x.GoesOn y) : y.tag = x.tag := show y.own.tag = x.own.tag from congrArg Seq.tag h.own

theorem Seq.GoesOn.program {x y : Seq} (h : x.GoesOn y) : y.program = x.program :=
  show y.own.program = x.own.program from congrArg Seq.program h.own

end Reached

/-! ### Its end -/

/-- The packet of a response (R83). -/
def respondWords (x : Seq) (st code q : Nat) (ws : List Word) : List Word :=
  [BitVec.ofNat 24 (x.program % 4096 * 4096 + (3 + ws.length)), x.tag,
    BitVec.ofNat 24 (st * 2 ^ 20 + code * 2 ^ 16 + q * 2 ^ 12 + x.step % 4096)] ++ ws

section Ends

variable {s u : State} {q : Fin 16}

theorem State.record_vtg (s : State) (tag : Word) (program step st sq func fault : Nat) :
    (s.record tag program step st sq func fault).vtg = s.vtg := (State.GoesOn.record (.refl s)).vtg

theorem State.respond_vtg (s : State) (func program : Nat) (tag : Word) (st code sq step : Nat) (ws : List Word) :
    (s.respond func program tag st code sq step ws).vtg = s.vtg := (State.GoesOn.respond (.refl s)).vtg

theorem State.dropInFlight_vtg (s : State) (q : Nat) : (s.dropInFlight q).vtg = s.vtg := rfl

/-- A program that ends, its record and its response written, before it frees what it holds. -/
def State.closing (s : State) (q st code : Nat) (ws : List Word) : State :=
  ((s.record (s.seq q).tag (s.seq q).program (s.seq q).step st q (s.seq q).func code).dropInFlight q).respond (s.seq q).func
    (s.seq q).program (s.seq q).tag st code q (s.seq q).step ws

theorem State.closing_vtg (s : State) (q st code : Nat) (ws : List Word) : (s.closing q st code ws).vtg = s.vtg := by
  rw [State.closing, State.respond_vtg, State.dropInFlight_vtg, State.record_vtg]

theorem State.closing_inFlight (s : State) (q st code : Nat) (ws : List Word) :
    tabGet none (s.closing q st code ws).exec.inFlight q = none := by
  rw [State.closing, State.exec_of_desk (State.respond_desk ..), State.dropInFlight_get]

/-- The journal ring, where the response goes elsewhere. -/
theorem State.closing_journal {s : State} {q : Nat} (hf : (s.seq q).func < 16) (h : (s.queue 32).fresh) (st code : Nat)
    (ws : List Word) :
    ((s.closing q st code ws).queue 32).pkts.map QPkt.words
        = [recordWords (s.seq q).tag (s.seq q).program (s.seq q).step st q (s.seq q).func code s.time]
      ∧ ((s.closing q st code ws).queue 32).taker = none := by
  rw [State.closing, State.queue_of_off (State.respond_desk ..) (by omega), State.dropInFlight_queue]
  exact State.record_queue h ..

theorem State.closeProgram_closing (hl : (u.seq q).live = true) (hr : u.ctl.recoverRun = false) (st code : Nat) (ws : List Word) :
    u.closeProgram q st code ws = (u.closing q st code ws).releaseSeq q := State.closeProgram_of_live hl hr st code ws

/-- A program that ends leaves its record, frees what it holds, and keeps the vintages (R77, R79, R81). -/
theorem Reached.closeProgram (h : Reached s q u) (hl : (s.seq q).live = true) (hr : s.ctl.recoverRun = false) (st code : Nat)
    (ws : List Word) : EndedBy s (u.closeProgram q st code ws) q st code ∧ (u.closeProgram q st code ws).vtg = s.vtg := by
  rw [State.closeProgram_closing (h.seq.live hl) (h.recover.trans hr)]
  refine ⟨⟨State.releaseSeq_ended _ q, ?_, fun hf hfresh => ?_⟩, ?_⟩
  · rw [State.releaseSeq_inFlight, State.closing_inFlight]
  · rw [← h.queue 32 (by decide)] at hfresh
    obtain ⟨hwords, htaker⟩ := State.closing_journal (h.seq.func.symm ▸ hf) hfresh st code ws
    rw [State.releaseSeq_queue_of_noTaker htaker, hwords, h.seq.tag, h.seq.program, h.seq.step, h.seq.func, h.time]
  · rw [State.releaseSeq_vtg, State.closing_vtg, h.vtg]

/-- The response goes to the ring of the program's function, which its record leaves alone. -/
theorem State.closing_eq (s : State) (q st code : Nat) (ws : List Word) {k : Nat} (hk : 16 + (s.seq q).func = k) (h32 : k ≠ 32)
    (h34 : k ≠ 34) :
    ∃ r : State, r.queue k = s.queue k ∧ s.closing q st code ws = r.pushAll k (respondWords (s.seq q) st code q ws) := by
  subst hk
  refine ⟨_, ?_, rfl⟩
  rw [State.dropInFlight_queue]
  exact State.queue_of_desk (k := 32) (by simp [State.record]) h32 h34

theorem packetLen_respondWords {k n : Nat} (h32 : k < 32) (hn : n < 1000) (p : Nat) :
    packetLen k (BitVec.ofNat 24 (p % 4096 * 4096 + (3 + n))) (n + 2 + 1) = n + 2 + 1 := by
  have h1 : k ≠ 32 := by omega
  have h2 : ¬ 35 ≤ k := by omega
  have h3 : (BitVec.ofNat 24 (p % 4096 * 4096 + (3 + n))).toNat % 4096 = n + 2 + 1 := by
    rw [BitVec.toNat_ofNat]
    omega
  rw [packetLen, if_neg h1, if_neg h2, lenField, h3, if_neg (by omega)]

/-- The response to a ring that held nothing (R83). -/
theorem Reached.closeProgram_response (h : Reached s q u) (hl : (s.seq q).live = true) (hr : s.ctl.recoverRun = false)
    (st code : Nat) {ws : List Word} (hws : ws.length < 1000) (hf : (s.seq q).func < 16)
    (hfresh : (s.queue (16 + (s.seq q).func)).fresh) :
    ((u.closeProgram q st code ws).queue (16 + (s.seq q).func)).pkts.map QPkt.words = [respondWords (s.seq q) st code q ws] := by
  rw [State.closeProgram_closing (h.seq.live hl) (h.recover.trans hr)]
  generalize hk : 16 + (s.seq q).func = k at hfresh ⊢
  obtain ⟨r, hr, hclosing⟩ := State.closing_eq u q st code ws (k := k) (by rw [h.seq.func, hk]) (by omega) (by omega)
  have hsame : respondWords (u.seq q) st code q ws = respondWords (s.seq q) st code q ws := by
    rw [respondWords, h.seq.tag, h.seq.program, h.seq.step, respondWords]
  have hdepth : ws.length + 2 + 1 ≤ queueDepth k := by
    rw [queueDepth, if_neg (by omega), if_pos (by omega)]
    omega
  rw [← h.queue k (by omega), ← hr] at hfresh
  have htakes : ((u.closing q st code ws).queue k).Takes (ws.length + 2 + 1) (respondWords (s.seq q) st code q ws) := by
    rw [hclosing, hsame]
    exact State.pushAll_takes (by omega) _ (_ :: _ :: ws) hfresh (List.cons_ne_nil _ _)
      (packetLen_respondWords (by omega) hws _) hdepth
  rw [State.releaseSeq_queue_of_noTaker htakes.taker]
  exact htakes.words

end Ends

/-! ### The instructions -/

section Issue

variable {s : State} {q : Fin 16} {i : Ins} {op : Nat} (h : Fetches s q i) (hop : i.op = op)
include h hop

/-- An instruction that does not look at T acts, whatever T is. -/
theorem State.issue_unchecked (body : Ins → State → State) : s.issue q op false body = body i (atIssue s q) := by
  unfold State.issue
  dsimp only
  rw [if_pos h.1, h.2]
  dsimp only
  rw [if_pos hop]
  rfl

/-- A T-check instruction that starts with T = 1 ends the program (R97). -/
theorem State.issue_ends (ht : (s.seq q).t = true) (body : Ins → State → State) :
    s.issue q op true body = (s.fetch q).2.closeProgram q stTimeout 7 [] := by
  unfold State.issue
  dsimp only
  rw [if_pos h.1, h.2]
  dsimp only
  rw [if_pos hop, ht]
  rfl

end Issue

theorem State.readWords_length {s : State} {q a n : Nat} {ws : List Word} {u : State} (h : s.readWords q a n = (some ws, u)) :
    ws.length = n := by
  induction n generalizing s a ws u with
  | zero =>
    obtain rfl := Option.some.inj (Prod.mk.inj h).1
    rfl
  | succ n ih =>
    unfold State.readWords at h
    split at h
    · simp at h
    · next w t _ =>
      obtain ⟨us, hus, rfl⟩ := Option.map_eq_some_iff.mp (congrArg Prod.fst h)
      exact congrArg (· + 1) (ih (u := (t.readWords q (a + 1) n).2) (Prod.ext hus rfl))

section Done

variable {s : State} {q : Fin 16} {i : Ins} (hf : Fetches s q i) (ht : (s.seq q).t = false)
include hf ht

theorem exec_done_outside (hop : i.op = 0x3A) (hin : inScratch ((s.seq q).reg i.b).toNat i.m = false) :
    exec (.done q) s = .next ((atIssue s q).faultProgram q 6) := by
  refine congrArg Host.Outcome.next ((State.issue_of_fetches hf hop ht _ _).trans ?_)
  dsimp only
  rw [(atIssue_afterRead hf).seq]
  exact if_pos (by rw [Bool.not_eq_true']; exact hin)

theorem exec_done_read (hop : i.op = 0x3A) (hin : inScratch ((s.seq q).reg i.b).toNat i.m = true)
    (harr : (s.seq q).allArrived ((s.seq q).reg i.b).toNat i.m = true) {ws : List Word} {u : State}
    (hr : (atIssue s q).readWords q ((s.seq q).reg i.b).toNat i.m = (some ws, u)) :
    exec (.done q) s = .next (u.closeProgram q stComplete 0 ws) := by
  refine congrArg Host.Outcome.next ((State.issue_of_fetches hf hop ht _ _).trans ?_)
  have hreg : ({ s.seq q with slowUnits := 0 } : Seq).reg i.b = (s.seq q).reg i.b := rfl
  have hall (a n : Nat) : ({ s.seq q with slowUnits := 0 } : Seq).allArrived a n = (s.seq q).allArrived a n := rfl
  dsimp only
  rw [(atIssue_afterRead hf).seq, hreg, hall, hin, harr, hr]
  rfl

end Done

/-- The T-check instructions (R97). -/
theorem exec_tcheck {q : Fin 16} {c : Instr} {op : Nat} (h : (c, op) ∈ [(Instr.frd q, 0x18), (.fwr q, 0x19), (.frmw q, 0x1A),
      (.fpoll q, 0x1B), (.halt q, 0x29), (.claim q, 0x30), (.waite q, 0x33), (.waitt q, 0x34), (.step q, 0x38), (.jrec q, 0x39),
      (.done q, 0x3A), (.vstg q, 0x3B), (.vcmt q, 0x3C), (.vabt q, 0x3D), (.send q, 0x2C), (.recv q, 0x2D)]) :
    ∃ body, ∀ s, exec c s = .next (s.issue q op true body) := by
  simp only [List.mem_cons, List.not_mem_nil, or_false, Prod.mk.injEq] at h
  rcases h with ⟨rfl, rfl⟩ | ⟨rfl, rfl⟩ | ⟨rfl, rfl⟩ | ⟨rfl, rfl⟩ | ⟨rfl, rfl⟩ | ⟨rfl, rfl⟩ | ⟨rfl, rfl⟩ | ⟨rfl, rfl⟩ |
    ⟨rfl, rfl⟩ | ⟨rfl, rfl⟩ | ⟨rfl, rfl⟩ | ⟨rfl, rfl⟩ | ⟨rfl, rfl⟩ | ⟨rfl, rfl⟩ | ⟨rfl, rfl⟩ | ⟨rfl, rfl⟩
  all_goals exact ⟨_, fun _ => rfl⟩

theorem exec_illegalOpcode {s : State} {q : Fin 16} (hrun : (s.seq q).state = .running) (hf : (s.fetch q).1 = none) :
    exec (.illegalOpcode q) s = .next ((s.fetch q).2.faultProgram q 2) := by
  refine congrArg Host.Outcome.next ?_
  rw [if_pos hrun]
  dsimp only
  rw [hf]
  rfl

theorem inScratch_iff (a n : Nat) : inScratch a n = true ↔ n = 0 ∨ a + n ≤ 0x4000 := decide_eq_true_iff

/-- Settles O21: in each case the program ends in a state that reads of memory alone separate from the one before. -/
theorem tsuileEnds : Obligations.TsuileEnds := by
  refine ⟨fun s q hrun hrec => ⟨fun i hi => ?_, fun hnone => ?_⟩, fun s q i hf ht hrec c hc => ?_⟩
  · have hf : Fetches s q i := ⟨hrun, hi⟩
    have hissue := reached_atIssue s q
    refine ⟨fun hop => ⟨_, congrArg Host.Outcome.next (State.issue_unchecked hf hop _),
        hissue.closeProgram hf.live hrec stFault 1 []⟩,
      fun hop ht => ⟨_, congrArg Host.Outcome.next (State.issue_of_fetches hf hop ht _ _),
        hissue.closeProgram hf.live hrec stComplete 0 []⟩,
      fun ws u hop ht hin harr hr => ?_, fun hop ht hm hout => ?_⟩
    · have hu : Reached s q u := by
        have := hissue.readWords ((s.seq q).reg i.b).toNat i.m
        rwa [hr] at this
      have hlen : ws.length < 1000 := by
        rw [State.readWords_length hr, Ins.m, bitsOf]
        omega
      obtain ⟨hend, hvtg⟩ := hu.closeProgram hf.live hrec stComplete 0 ws
      exact ⟨_, exec_done_read hf ht hop ((inScratch_iff ..).mpr hin) harr hr, hend, hvtg,
        fun hfunc hfresh => hu.closeProgram_response hf.live hrec stComplete 0 hlen hfunc hfresh⟩
    · have hin : inScratch ((s.seq q).reg i.b).toNat i.m = false := by
        rw [← Bool.not_eq_true, inScratch_iff]
        omega
      exact ⟨_, exec_done_outside hf ht hop hin, (hissue.closeProgram hf.live hrec stFault 6 []).1⟩
  · have hlive : (s.seq q).live = true := by rw [Seq.live, hrun]
    exact ⟨_, exec_illegalOpcode hrun hnone, (Reached.refl s q).fetch.closeProgram hlive hrec stFault 2 []⟩
  · obtain ⟨body, hexec⟩ := exec_tcheck hc
    exact ⟨_, (hexec s).trans (congrArg Host.Outcome.next (State.issue_ends hf rfl ht body)),
      (Reached.refl s q).fetch.closeProgram hf.live hrec stTimeout 7 []⟩

end Sys2Proof.Machine
end


section
/-!
Claims, events and yields (R75, R76, R110 to R113, R432).
-/

namespace Sys2Proof.Machine

/-! ### Changes of one sequencer -/

theorem SeqFrame.setSeq (s : State) (q : Fin 16) (x : Seq) : SeqFrame s (s.setSeq q x) q :=
  ⟨fun _ hp => State.seq_setSeq_ne _ _ _ _ hp, rfl, rfl, rfl, rfl, rfl, rfl, rfl, rfl, rfl, rfl⟩

theorem SeqFrame.setSeq_atIssue {s : State} {q : Fin 16} {i : Ins} (hf : Fetches s q i) (x : Seq) :
    SeqFrame s ((atIssue s q).setSeq q x) q := by
  obtain ⟨c, k, hs⟩ := atIssue_eq hf
  rw [hs]
  refine ⟨fun p hp => ?_, rfl, rfl, rfl, rfl, rfl, rfl, rfl, rfl, rfl, rfl⟩
  rw [State.seq_setSeq_ne _ _ _ _ hp, State.seq_setSeq_ne _ _ _ _ hp]
  rfl

theorem SeqFrame.onSeq {s : State} {q : Fin 16} (hl : (s.seq q).live = true) (f : Seq → Seq) : SeqFrame s (s.onSeq q f) q := by
  rw [State.onSeq_of_live hl]
  exact .setSeq s q _

theorem atIssue_live {s : State} {q : Fin 16} {i : Ins} (hf : Fetches s q i) : ((atIssue s q).seq q).live = true :=
  (atIssue_afterRead hf).live hf.live

theorem atIssue_keeps_live {s : State} {q : Fin 16} {i : Ins} (hf : Fetches s q i) {p : Nat} (hl : (s.seq p).live = true) :
    ((atIssue s q).seq p).live = true := by
  by_cases h : p = q
  · exact h ▸ atIssue_live hf
  · have hframe := (SeqFrame.setSeq_atIssue hf Seq.idle).1 p h
    rw [State.seq_setSeq_ne _ _ _ _ h] at hframe
    rw [hframe, hl]

/-- What an instruction that changes its own sequencer alone makes of it. -/
theorem atIssue_onSeq {s : State} {q : Fin 16} {i : Ins} (hf : Fetches s q i) (f : Seq → Seq) :
    (atIssue s q).onSeq q f = (atIssue s q).setSeq q (f { s.seq q with slowUnits := 0 }) := by
  rw [State.onSeq_of_live (atIssue_live hf), (atIssue_afterRead hf).seq]

theorem atIssue_claim {s : State} {q : Fin 16} {i : Ins} (hf : Fetches s q i) (n : Nat) :
    (atIssue s q).claim n = s.claim n ∧ (atIssue s q).freeClaim n = s.freeClaim n ∧ (atIssue s q).regs = s.regs := by
  obtain ⟨c, k, hs⟩ := atIssue_eq hf
  rw [hs]
  exact ⟨rfl, rfl, rfl⟩

theorem atIssue_holds {s : State} {q : Fin 16} {i : Ins} (hf : Fetches s q i) (p n : Nat) :
    (atIssue s q).holds p n = s.holds p n := by
  rw [State.holds, (atIssue_claim hf n).1, State.holds]

theorem Seq.goOn_pc (x : Seq) (pc : BitVec 19) : (x.goOn pc).pc = pc := rfl
theorem Seq.goOn_w (x : Seq) (pc : BitVec 19) : (x.goOn pc).w = x.w := rfl
theorem Seq.goOn_ev (x : Seq) (pc : BitVec 19) (e : Nat) : (x.goOn pc).ev e = x.ev e := rfl

theorem State.block_seq (s : State) (q : Nat) (w : Wait) :
    (s.block q w).seq q = { s.seq q with state := .blocked, wait := some w } := State.seq_setSeq_self ..

theorem SeqFrame.block {s t : State} {q : Fin 16} (h : SeqFrame s t q) (w : Wait) : SeqFrame s (t.block q w) q := by
  obtain ⟨hseq, hrest⟩ := h
  exact ⟨fun p hp => (State.seq_setSeq_ne _ _ _ _ hp).trans (hseq p hp), hrest⟩

/-! ### Claims -/

/-- A program that goes on with one claim changed. -/
theorem claimStep {s u : State} {q : Nat} {n : Nat} {c : Claim} (hl : (u.seq q).live = true)
    (hclaim : ∀ k, u.claim k = s.claim k) (f : Seq → Seq) :
    ((u.setClaim n c).onSeq q f).claim n = c ∧ ((u.setClaim n c).onSeq q f).seq q = f (u.seq q)
      ∧ (∀ k, k ≠ n → ((u.setClaim n c).onSeq q f).claim k = s.claim k) ∧ ((u.setClaim n c).onSeq q f).regs = u.regs
      ∧ ((u.setClaim n c).onSeq q f).vtg = u.vtg := by
  have hl' : ((u.setClaim n c).seq q).live = true := hl
  rw [State.onSeq_of_live hl', State.seq_setSeq_self]
  refine ⟨State.claim_setClaim_self .., rfl, fun k hk => ?_, rfl, rfl⟩
  exact (State.claim_setClaim_ne _ _ _ _ hk).trans (hclaim k)

/-- Some resource that is not before n is held. -/
def State.holdsFrom (s : State) (q n : Nat) : Bool := resources.any fun k => decide (n ≤ k) && s.holds q k

theorem State.holdsFrom_iff (s : State) (q n : Nat) :
    s.holdsFrom q n = true ↔ ∃ k, n ≤ k ∧ k < 256 ∧ s.holds q k = true := by
  simp only [State.holdsFrom, resources, List.any_eq_true, List.mem_range, Bool.and_eq_true, decide_eq_true_eq]
  exact exists_congr fun k => ⟨fun ⟨hk, hn, hh⟩ => ⟨hn, hk, hh⟩, fun ⟨hn, hk, hh⟩ => ⟨hk, hn, hh⟩⟩

section Claims

variable {s : State} {q : Fin 16} {i : Ins} (hf : Fetches s q i)
include hf

theorem atIssue_number : i.number ((atIssue s q).seq q) = i.number (s.seq q) := by
  rw [(atIssue_afterRead hf).seq]
  rfl

theorem exec_claim (ht : (s.seq q).t = false) (hop : i.op = 0x30) : exec (.claim q) s = .next (
    if s.holdsFrom q (i.number (s.seq q)) then (atIssue s q).faultProgram q 3
    else if s.freeClaim (i.number (s.seq q)) && (s.claim (i.number (s.seq q))).waiters.isEmpty then
      ((atIssue s q).setClaim (i.number (s.seq q)) { s.claim (i.number (s.seq q)) with holder := some q.val }).onSeq q
        fun x => x.goOn i.next
    else ((atIssue s q).setClaim (i.number (s.seq q))
      { s.claim (i.number (s.seq q)) with waiters := (s.claim (i.number (s.seq q))).waiters ++ [q.val] }).block q
        (.claim (i.number (s.seq q)))) := by
  refine congrArg Host.Outcome.next ((State.issue_of_fetches hf hop ht _ _).trans ?_)
  obtain ⟨hc, hfree, -⟩ := atIssue_claim hf (i.number (s.seq q))
  have hheld (n : Nat) : (resources.any fun k => decide (n ≤ k) && (atIssue s q).holds q k) = s.holdsFrom q n := by
    simp only [State.holdsFrom, atIssue_holds hf]
  dsimp only
  rw [atIssue_number hf, hheld, hc, hfree]

theorem exec_free (hop : i.op = 0x31) : exec (.free q) s = .next (
    if s.holds q (i.number (s.seq q)) then
      ((atIssue s q).setClaim (i.number (s.seq q)) { s.claim (i.number (s.seq q)) with holder := none }).onSeq q
        fun x => x.goOn i.next
    else (atIssue s q).faultProgram q 4) := by
  refine congrArg Host.Outcome.next ((State.issue_unchecked hf hop _).trans ?_)
  dsimp only
  rw [atIssue_number hf, atIssue_holds hf, (atIssue_claim hf _).1]

theorem claim_takes (ht : (s.seq q).t = false) (hop : i.op = 0x30) (hnone : s.holdsFrom q (i.number (s.seq q)) = false)
    (hfree : s.freeClaim (i.number (s.seq q)) = true) (hw : (s.claim (i.number (s.seq q))).waiters = []) :
    ∃ t, exec (.claim q) s = .next t ∧ t.holds q (i.number (s.seq q)) = true ∧ (t.seq q).pc = i.next
      ∧ (t.seq q).w = (s.seq q).w ∧ (∀ k, k ≠ i.number (s.seq q) → t.claim k = s.claim k) ∧ t.regs = s.regs
      ∧ t.vtg = s.vtg := by
  have hu := atIssue_afterRead hf
  have hexec : exec (.claim q) s = .next (((atIssue s q).setClaim (i.number (s.seq q)) ⟨some q.val, []⟩).onSeq q
      fun x => x.goOn i.next) := by
    rw [exec_claim hf ht hop, hnone, if_neg Bool.false_ne_true, hfree, if_pos (by rw [hw]; rfl), ← hw]
  obtain ⟨hc, hq, hk, hr, hv⟩ := claimStep (n := i.number (s.seq q)) (c := ⟨some q.val, []⟩) (atIssue_live hf)
    (fun k => (atIssue_claim hf k).1) fun x => x.goOn i.next
  refine ⟨_, hexec, ?_, ?_, ?_, hk, hr.trans (atIssue_claim hf 0).2.2, hv.trans hu.vtg⟩
  · exact decide_eq_true (congrArg Claim.holder hc)
  · rw [hq, Seq.goOn_pc]
  · rw [hq, hu.seq, Seq.goOn_w]

theorem claim_waits (ht : (s.seq q).t = false) (hop : i.op = 0x30) (hnone : s.holdsFrom q (i.number (s.seq q)) = false)
    (hheld : s.claimed (i.number (s.seq q)) = true) :
    ∃ t, exec (.claim q) s = .next t ∧ (t.seq q).state = .blocked ∧ (t.seq q).pc = (s.seq q).pc
      ∧ (t.claim (i.number (s.seq q))).waiters = (s.claim (i.number (s.seq q))).waiters ++ [q.val]
      ∧ (t.claim (i.number (s.seq q))).holder = (s.claim (i.number (s.seq q))).holder := by
  have hfree : s.freeClaim (i.number (s.seq q)) = false := by rw [State.freeClaim, hheld]; rfl
  rw [exec_claim hf ht hop, hnone, hfree]
  refine ⟨_, rfl, ?_⟩
  generalize hn : i.number (s.seq q) = n
  have hc (u : State) (c : Claim) (w : Wait) : ((u.setClaim n c).block q w).claim n = c := State.claim_setClaim_self u n c
  have hq (u : State) (c : Claim) (w : Wait) :
      ((u.setClaim n c).block q w).seq q = { u.seq q with state := .blocked, wait := some w } := State.seq_setSeq_self ..
  rw [Bool.false_and, if_neg Bool.false_ne_true, if_neg Bool.false_ne_true, hc, hq, (atIssue_afterRead hf).seq]
  exact ⟨rfl, rfl, rfl, rfl⟩

theorem free_releases (hop : i.op = 0x31) (hheld : s.holds q (i.number (s.seq q)) = true) :
    ∃ t, exec (.free q) s = .next t ∧ t.claimed (i.number (s.seq q)) = false
      ∧ (t.claim (i.number (s.seq q))).waiters = (s.claim (i.number (s.seq q))).waiters ∧ (t.seq q).pc = i.next
      ∧ (∀ k, k ≠ i.number (s.seq q) → t.claim k = s.claim k) ∧ t.regs = s.regs := by
  have hexec : exec (.free q) s = .next (((atIssue s q).setClaim (i.number (s.seq q))
      ⟨none, (s.claim (i.number (s.seq q))).waiters⟩).onSeq q fun x => x.goOn i.next) := by
    rw [exec_free hf hop, if_pos hheld]
  obtain ⟨hc, hq, hk, hr, -⟩ := claimStep (n := i.number (s.seq q)) (c := ⟨none, (s.claim (i.number (s.seq q))).waiters⟩)
    (atIssue_live hf) (fun k => (atIssue_claim hf k).1) fun x => x.goOn i.next
  refine ⟨_, hexec, ?_, ?_, ?_, hk, hr.trans (atIssue_claim hf 0).2.2⟩
  · exact congrArg (fun c : Claim => c.holder.isSome) hc
  · rw [hc]
  · rw [hq, Seq.goOn_pc]

theorem claim_faults (ht : (s.seq q).t = false) (hop : i.op = 0x30) (hheld : s.holdsFrom q (i.number (s.seq q)) = true)
    (hrec : s.ctl.recoverRun = false) : ∃ t, exec (.claim q) s = .next t ∧ EndedBy s t q stFault 3 := by
  rw [exec_claim hf ht hop, if_pos hheld]
  exact ⟨_, rfl, ((reached_atIssue s q).closeProgram hf.live hrec _ _ _).1⟩

theorem free_faults (hop : i.op = 0x31) (hheld : s.holds q (i.number (s.seq q)) = false) (hrec : s.ctl.recoverRun = false) :
    ∃ t, exec (.free q) s = .next t ∧ EndedBy s t q stFault 4 := by
  rw [exec_free hf hop, hheld, if_neg Bool.false_ne_true]
  exact ⟨_, rfl, ((reached_atIssue s q).closeProgram hf.live hrec _ _ _).1⟩

end Claims

/-- A freed resource goes to the waiter that arrived first (R76, R432). -/
theorem claimGrant_first {s : State} {n : Fin 256} {w : Nat} {ws : List Nat} (hw : (s.claim n).waiters = w :: ws)
    (hfree : s.freeClaim n = true) (hl : (s.seq w).live = true) (hwait : (s.seq w).wait = some (.claim n)) :
    ∃ t, exec (.claimGrant n) s = .next t ∧ t.claim n = ⟨some w, ws⟩ ∧ (t.seq w).state = .running
      ∧ (t.seq w).pc = (s.seq w).pc + 1 ∧ (∀ k, k ≠ n.val → t.claim k = s.claim k) ∧ t.regs = s.regs
      ∧ t.vtg = s.vtg := by
  have hexec : exec (.claimGrant n) s = .next ((s.setClaim n ⟨some w, ws⟩).onSeq w fun x =>
      if x.wait = some (.claim n) then x.goOn (x.pc + 1) else x) := by
    refine congrArg Host.Outcome.next ?_
    unfold State.grantClaim
    dsimp only
    rw [hw]
    dsimp only
    rw [if_pos hfree]
  obtain ⟨hc, hq, hk, hr, hv⟩ := claimStep (n := n) (c := ⟨some w, ws⟩) hl (fun _ => rfl) fun x =>
    if x.wait = some (.claim n) then x.goOn (x.pc + 1) else x
  rw [if_pos hwait] at hq
  exact ⟨_, hexec, hc, congrArg Seq.state hq, congrArg Seq.pc hq, hk, hr, hv⟩

/-! ### Yields and events -/

theorem Seq.ev_setEv (x : Seq) (e : Nat) (v : EvSlot) : (x.setEv e v).ev e = v := tabGet_put_self ..

theorem Seq.takeEvent_ev (x : Seq) (ev a : Nat) : ((x.takeEvent ev a).ev ev).pend = false :=
  congrArg EvSlot.pend (Seq.ev_setEv (x.setReg a (x.ev ev).data) ev _)

theorem Seq.takeEvent_reg (x : Seq) (ev a : Nat) : (x.takeEvent ev a).reg a = (x.ev ev).data := Seq.reg_setReg ..

section Events

variable {s : State} {q : Fin 16} {i : Ins} (hf : Fetches s q i)
include hf

theorem exec_yield (hop : i.op = 0x32) : exec (.yield q) s = .next ((atIssue s q).setSeq q
    { ({ s.seq q with slowUnits := 0 } : Seq).goOn i.next with slowUnits := i.m + 1 }) :=
  congrArg Host.Outcome.next ((State.issue_unchecked hf hop _).trans (atIssue_onSeq hf _))

theorem exec_waite (ht : (s.seq q).t = false) (hop : i.op = 0x33) (hclr : i.mBit 5 = false) : exec (.waite q) s = .next (
    if ((s.seq q).ev i.num).pend then
      (atIssue s q).setSeq q ((({ s.seq q with slowUnits := 0 } : Seq).takeEvent i.num i.a).goOn i.next)
    else (atIssue s q).setSeq q { s.seq q with slowUnits := 0, state := .blocked, wait := some (.event i.num i.a) }) := by
  refine congrArg Host.Outcome.next ((State.issue_of_fetches hf hop ht _ _).trans ?_)
  dsimp only
  rw [hclr, if_neg Bool.false_ne_true, atIssue_onSeq hf, State.block, (atIssue_afterRead hf).seq]
  rfl

/-- With clr = 1 no occurrence is pending any more, and the program waits for the next one. -/
theorem exec_waite_clears (ht : (s.seq q).t = false) (hop : i.op = 0x33) (hclr : i.mBit 5 = true) :
    ∃ e : EvSlot, e.pend = false ∧ exec (.waite q) s = .next (((atIssue s q).setSeq q
      (({ s.seq q with slowUnits := 0 } : Seq).setEv i.num e)).block q (.event i.num i.a)) := by
  refine ⟨{ (s.seq q).ev i.num with pend := false, merged := false }, rfl, ?_⟩
  refine congrArg Host.Outcome.next ((State.issue_of_fetches hf hop ht _ _).trans ?_)
  dsimp only
  rw [hclr, if_pos rfl, atIssue_onSeq hf, State.seq_setSeq_self, Seq.ev_setEv, if_neg Bool.false_ne_true]
  rfl

theorem waite_clears (ht : (s.seq q).t = false) (hop : i.op = 0x33) (hclr : i.mBit 5 = true) :
    ∃ t, exec (.waite q) s = .next t ∧ (t.seq q).state = .blocked ∧ ((t.seq q).ev i.num).pend = false ∧ SeqFrame s t q := by
  obtain ⟨e, he, hexec⟩ := exec_waite_clears hf ht hop hclr
  refine ⟨_, hexec, ?_, ?_, (SeqFrame.setSeq_atIssue hf _).block _⟩
  · rw [State.block_seq]
  · rw [State.block_seq, State.seq_setSeq_self]
    exact (congrArg EvSlot.pend (Seq.ev_setEv ..)).trans he

theorem waite_takes (ht : (s.seq q).t = false) (hop : i.op = 0x33) (hclr : i.mBit 5 = false)
    (hp : ((s.seq q).ev i.num).pend = true) :
    ∃ t, exec (.waite q) s = .next t ∧ (t.seq q).reg i.a = ((s.seq q).ev i.num).data
      ∧ (t.seq q).c = ((s.seq q).ev i.num).merged ∧ ((t.seq q).ev i.num).pend = false ∧ (t.seq q).pc = i.next
      ∧ SeqFrame s t q := by
  have hexec := exec_waite hf ht hop hclr
  rw [if_pos hp] at hexec
  refine ⟨_, hexec, ?_, ?_, ?_, ?_, .setSeq_atIssue hf _⟩ <;> rw [State.seq_setSeq_self]
  · exact Seq.takeEvent_reg ..
  · rfl
  · exact Seq.takeEvent_ev ..
  · rfl

theorem waite_blocks (ht : (s.seq q).t = false) (hop : i.op = 0x33) (hclr : i.mBit 5 = false)
    (hp : ((s.seq q).ev i.num).pend = false) :
    ∃ t, exec (.waite q) s = .next t ∧ (t.seq q).state = .blocked ∧ (t.seq q).pc = (s.seq q).pc ∧ SeqFrame s t q := by
  have hexec := exec_waite hf ht hop hclr
  rw [hp, if_neg Bool.false_ne_true] at hexec
  exact ⟨_, hexec, by rw [State.seq_setSeq_self], by rw [State.seq_setSeq_self], .setSeq_atIssue hf _⟩

end Events

/-- A program that waits for an event goes on when the event is pending. -/
theorem waitComplete_takes {s : State} {q : Fin 16} {ev a : Nat} (hl : (s.seq q).live = true)
    (hwait : (s.seq q).wait = some (.event ev a)) (hp : ((s.seq q).ev ev).pend = true) :
    ∃ t, exec (.waiteComplete q) s = .next t ∧ (t.seq q).reg a = ((s.seq q).ev ev).data
      ∧ ((t.seq q).ev ev).pend = false ∧ (t.seq q).state = .running ∧ (t.seq q).pc = (s.seq q).pc + 1 ∧ SeqFrame s t q := by
  have hexec : exec (.waiteComplete q) s = .next (s.setSeq q (((s.seq q).takeEvent ev a).goOn ((s.seq q).pc + 1))) := by
    refine congrArg Host.Outcome.next ?_
    unfold State.completeEvent
    rw [hwait]
    dsimp only
    rw [if_pos hp, State.onSeq_of_live hl]
  refine ⟨_, hexec, ?_, ?_, ?_, ?_, .setSeq s q _⟩ <;> rw [State.seq_setSeq_self]
  · exact Seq.takeEvent_reg ..
  · exact Seq.takeEvent_ev ..
  · rfl
  · rfl

/-! ### Signals -/

theorem State.signalVec_seqs (s : State) (f v : Nat) : (s.signalVec f v).seqs = s.seqs := by
  unfold State.signalVec
  dsimp only
  split <;> rfl

theorem State.signalEvent_seqs (s : State) (e : Nat) : (s.signalEvent e).seqs = s.seqs := by
  unfold State.signalEvent
  dsimp only
  generalize (if e < 128 then 0 else s.rd F.HIF_EVT_MAP_func [e]) = f
  split
  · split
    · exact State.signalVec_seqs ..
    · rfl
  · rfl

theorem State.pryTx_seqs (s : State) (p : Nat) (m : PryMsg) : (s.pryTx p m).seqs = s.seqs := by
  unfold State.pryTx
  split <;> rfl

theorem State.forwardEvent_seqs (s : State) (e d : Nat) : (s.forwardEvent e d).seqs = s.seqs := by
  unfold State.forwardEvent
  split
  · split
    · exact State.pryTx_seqs ..
    · rfl
  · rfl

theorem State.injEvent_seqs (s : State) (e : Nat) : (s.injEvent e).seqs = s.seqs := by
  have htrigger (u : State) (q : Nat) : (u.injTrigger q).seqs = u.seqs := by
    unfold State.injTrigger
    dsimp only
    split <;> rfl
  refine forEach_keeps State.seqs _ (fun q u => ?_) _ s
  split
  · exact htrigger ..
  · rfl

theorem State.fireCapture_seqs (s : State) (i : Nat) : (s.fireCapture i).seqs = s.seqs := by
  have hite (c : Prop) [Decidable c] (a b : State) (ha : a.seqs = s.seqs) (hb : b.seqs = s.seqs) :
      (if c then a else b).seqs = s.seqs := by split <;> assumption
  unfold State.fireCapture
  dsimp only
  refine hite _ _ _ ?_ ?_ <;> refine hite _ _ _ ?_ ?_ <;> exact hite _ _ _ rfl rfl

theorem State.captureTrigger_seqs (s : State) (k n : Nat) : (s.captureTrigger k n).seqs = s.seqs := by
  unfold State.captureTrigger
  split
  · rfl
  · dsimp only
    generalize (if k = 1 then s.capture.timer else s.capture.event) = want
    split
    · split
      · exact State.fireCapture_seqs ..
      · unfold State.stick
        split <;> rfl
    · rfl

/-- The delivery of an event to one sequencer after another. -/
theorem deliverEach_seq (e : Nat) (d : Word) (p : Nat) (l : List Nat) (hl : l.Nodup) (s : State) :
    (forEach (fun q u => u.setSeq q ((u.seq q).deliver e d)) l s).seq p = if p ∈ l then (s.seq p).deliver e d else s.seq p := by
  induction l generalizing s with
  | nil => rfl
  | cons q l ih =>
    obtain ⟨hq, hl⟩ := List.nodup_cons.mp hl
    refine (ih hl _).trans ?_
    by_cases h : p = q
    · rw [h, if_neg hq, if_pos List.mem_cons_self, State.seq_setSeq_self]
    · rw [State.seq_setSeq_ne _ _ _ _ h]
      simp only [List.mem_cons, h, false_or]

theorem State.seq_congr {s t : State} (h : t.seqs = s.seqs) (p : Nat) : t.seq p = s.seq p := by
  rw [State.seq, h, State.seq]

/-- An event reaches every sequencer that runs a program (R112). -/
theorem State.raise_seq (s : State) (e d : Nat) {p : Nat} (hp : p ∈ programSqs) :
    (s.raise e d).seq p = (s.seq p).deliver e (BitVec.ofNat 24 d) := by
  unfold State.raise
  dsimp only
  generalize hu : (if e < 128 then
    s.wr F.GLB_EVT_PEND_bits (s.rd F.GLB_EVT_PEND_bits [e / 24] ||| 2 ^ (e % 24)) [e / 24] else s) = u
  have hseqs : u.seqs = s.seqs := by
    rw [← hu]
    split <;> rfl
  have hlast : (((((u.deliverSeqs e (BitVec.ofNat 24 d)).signalEvent e).forwardEvent e d).injEvent e).captureTrigger 2 e).seqs
      = (u.deliverSeqs e (BitVec.ofNat 24 d)).seqs := by
    rw [State.captureTrigger_seqs, State.injEvent_seqs, State.forwardEvent_seqs, State.signalEvent_seqs]
  rw [State.seq_congr hlast, State.deliverSeqs, deliverEach_seq _ _ _ _ (by decide), if_pos hp, State.seq_congr hseqs]

theorem Seq.deliver_ev {x : Seq} (hl : x.live = true) (e : Nat) (d : Word) :
    (x.deliver e d).ev e = ⟨true, (x.ev e).pend || (x.ev e).merged, d⟩ := by
  rw [Seq.deliver, if_pos hl, Seq.ev_setEv]

theorem State.onSeq_goOn_ev {s : State} {q : Nat} (hl : (s.seq q).live = true) (pc : BitVec 19) (p e : Nat) :
    ((s.onSeq q fun x => x.goOn pc).seq p).ev e = (s.seq p).ev e := by
  rw [State.onSeq_of_live hl]
  by_cases h : p = q
  · rw [h, State.seq_setSeq_self, Seq.goOn_ev]
  · rw [State.seq_setSeq_ne _ _ _ _ h]

theorem signal_reaches {s : State} {q : Fin 16} {i : Ins} (hf : Fetches s q i) (hop : i.op = 0x35) (hm : i.mBit 5 = false)
    (hnum : 128 ≤ i.num) : ∃ t, exec (.signal q) s = .next t ∧ (t.seq q).pc = i.next
      ∧ ∀ p, p ∈ programSqs → (s.seq p).live = true →
          ((t.seq p).ev i.num).pend = true ∧ ((t.seq p).ev i.num).data = (s.seq q).reg i.a := by
  have hu := atIssue_afterRead hf
  have hnumber : i.number ((atIssue s q).seq q) = i.num := if_neg (by rw [hm]; exact Bool.false_ne_true)
  have hexec : exec (.signal q) s = .next (((atIssue s q).raise i.num ((s.seq q).reg i.a).toNat).onSeq q
      fun x => x.goOn i.next) := by
    refine congrArg Host.Outcome.next ((State.issue_unchecked hf hop _).trans ?_)
    dsimp only
    rw [hnumber, if_neg (by omega), hu.seq]
    rfl
  generalize hd : ((s.seq q).reg i.a).toNat = d at hexec
  have hgo : (atIssue s q).GoesOn ((atIssue s q).raise i.num d) := .raise (.refl _)
  have hlive := (hgo.seqs q).live (atIssue_live hf)
  refine ⟨_, hexec, ?_, fun p hp hl => ?_⟩
  · rw [State.onSeq_of_live hlive, State.seq_setSeq_self, Seq.goOn_pc]
  · rw [State.onSeq_goOn_ev hlive, State.raise_seq _ _ _ hp, Seq.deliver_ev (atIssue_keeps_live hf hl), ← hd, BitVec.ofNat_toNat,
      BitVec.setWidth_eq]
    exact ⟨rfl, rfl⟩

/-! ### The statement -/

/-- The words in which the statement gives the number of a resource. -/
theorem Ins.number_eq (i : Ins) (x : Seq) : (if i.mBit 5 then (x.reg i.b).toNat % 256 else i.num) = i.number x := rfl

/-- Settles O23: each instruction acts on the state at its issue, where its own sequencer, the claims and the registers are
those of the state before it. -/
theorem tsuileCoordination : Obligations.TsuileCoordination := by
  refine ⟨⟨fun s q i hf ht => ?_, fun s n w ws hw hfree hl hwait => claimGrant_first hw hfree hl hwait⟩, fun s q => ?_⟩
  · simp only [Ins.number_eq]
    have hfrom (h : ∀ k, i.number (s.seq q) ≤ k → k < 256 → s.holds q k = false) :
        s.holdsFrom q (i.number (s.seq q)) = false := by
      rw [← Bool.not_eq_true, State.holdsFrom_iff]
      rintro ⟨k, hn, hk, hh⟩
      exact Bool.false_ne_true ((h k hn hk).symm.trans hh)
    exact ⟨fun hop h hfree hw => claim_takes hf ht hop (hfrom h) hfree hw, fun hop h hheld => claim_waits hf ht hop (hfrom h) hheld,
      fun hop h hrec => claim_faults hf ht hop ((State.holdsFrom_iff ..).mpr h) hrec, fun hop hheld => free_releases hf hop hheld,
      fun hop hheld hrec => free_faults hf hop hheld hrec⟩
  · refine ⟨fun i hf hop => ?_, fun i hf ht hop hclr => ⟨fun hp => ?_, fun hp => ?_⟩, fun i hf ht hop hclr =>
      waite_clears hf ht hop hclr, fun ev a hl hwait hp => waitComplete_takes hl hwait hp, fun i hf hop hm hnum =>
      signal_reaches hf hop hm hnum⟩
    · exact ⟨_, exec_yield hf hop, by rw [State.seq_setSeq_self], by rw [State.seq_setSeq_self]; rfl,
        by rw [State.seq_setSeq_self]; rfl, .setSeq_atIssue hf _⟩
    · exact waite_takes hf ht hop hclr hp
    · exact waite_blocks hf ht hop hclr hp

end Sys2Proof.Machine
end


section
/-!
The executive's ends of programs (R67, R71 to R73, R84).
-/

namespace Sys2Proof.Machine

/-! ### What the end of a program leaves of the registers -/

theorem State.dropTaken_regs (s : State) (sq q : Nat) : (s.dropTaken sq q).regs = s.regs := by
  unfold State.dropTaken
  dsimp only
  split
  · split <;> rfl
  · rfl

theorem State.releaseSeq_regs (s : State) (q : Nat) : (s.releaseSeq q).regs = s.regs := by
  have hwait : (s.leaveWait q).regs = s.regs := by
    unfold State.leaveWait
    dsimp only
    split
    · rfl
    · exact State.dropTaken_regs ..
    · rfl
    · rfl
  have hpacket : ((s.leaveWait q).leavePacket q).regs = (s.leaveWait q).regs := by
    unfold State.leavePacket
    split
    · exact State.dropTaken_regs ..
    · rfl
  exact hpacket.trans hwait

theorem State.closing_goesOn (s : State) (q st code : Nat) (ws : List Word) : s.GoesOn (s.closing q st code ws) := by
  have hdrop (u : State) : u.GoesOn (u.dropInFlight q) := .keep (.refl u) rfl rfl rfl
  rw [State.closing]
  exact .respond ((State.GoesOn.record (.refl s)).trans (hdrop _))

/-- A program that ends leaves pending what is, and the last abort. -/
theorem Reached.closeProgram_keeps {s u : State} {q : Fin 16} (h : Reached s q u) (hl : (s.seq q).live = true)
    (hr : s.ctl.recoverRun = false) (st code : Nat) (ws : List Word) :
    (∀ e : Fin 128, u.pends e = true → (u.closeProgram q st code ws).pends e = true)
      ∧ (u.closeProgram q st code ws).rd F.SEQ_ABORT_CMD_func = u.rd F.SEQ_ABORT_CMD_func := by
  rw [State.closeProgram_closing (h.seq.live hl) (h.recover.trans hr)]
  have hregs := State.releaseSeq_regs (u.closing q st code ws) q
  have hgo := u.closing_goesOn q st code ws
  exact ⟨fun e he => (State.pends_of_regs hregs e).trans (hgo.pends e he),
    (State.rd_of_regs hregs _).trans hgo.abort⟩

section Aborts

variable {s : State} {q : Fin 16} (hrec : s.ctl.recoverRun = false) (hl : (s.seq q).live = true)
include hrec hl

theorem packetTimeout_ends (hq : (s.seq q).pktQ ≠ none) (hgot : (s.seq q).pktGot < (s.seq q).pktLen) :
    ∃ t, exec (.packetTimeout q) s = .next t ∧ EndedBy s t q stTimeout 9 ∧ t.vtg = s.vtg :=
  ⟨_, congrArg Host.Outcome.next (if_pos ⟨hl, hq, hgot⟩), (Reached.refl s q).closeProgram hl hrec stTimeout 9 []⟩

theorem budgetExpiry_ends : ∃ t, exec (.budgetExpiry q) s = .next t ∧ EndedBy s t q stTimeout 8 ∧ t.vtg = s.vtg :=
  ⟨_, rfl, (Reached.refl s q).closeProgram hl hrec stTimeout 8 []⟩

theorem sqWatchdogExpiry_ends : ∃ t, exec (.sqWatchdogExpiry q) s = .next t ∧ EndedBy s t q stReset 0xA
    ∧ t.rd F.GLB_RST_CAUSE_sq = 1 ∧ t.pends 0x05 = true ∧ t.vtg = s.vtg := by
  obtain ⟨u, hu⟩ : ∃ u, u = (s.wr F.GLB_RST_CAUSE_sq 1).raise 0x05 q := ⟨_, rfl⟩
  have hexec : exec (.sqWatchdogExpiry q) s = .next (u.closeProgram q stReset 0xA []) := by
    rw [hu]
    exact congrArg Host.Outcome.next (if_pos hl)
  have hgo : s.GoesOn u := by
    rw [hu]
    exact .raise (.wr (by decide) (.refl s))
  have hctl : u.ctl.recoverRun = s.ctl.recoverRun := by rw [hu, State.raise_ctl, State.wr_ctl]
  have hreach : Reached s q u := by
    refine ⟨hgo.seqs q, hgo.vtg, fun k _ => ?_, ?_, hctl⟩
    · rw [State.queue, hu, State.raise_queues, State.wr_queues, State.queue]
    · rw [State.time, hu, State.raise_tim, State.wr_tim, State.time]
  have hcause : u.rd F.GLB_RST_CAUSE_sq = 1 := by
    rw [hu, State.raise_rd _ _ _ _ _ (by decide), State.rd_wr_self]
    rfl
  have hpends : u.pends (5 : Fin 128) = true := by
    rw [hu]
    exact State.raise_pends _ _ _ (by decide)
  obtain ⟨hend, hvtg⟩ := hreach.closeProgram hl hrec stReset 0xA []
  exact ⟨_, hexec, hend, (State.rd_of_base (State.closeProgram_base (hctl.trans hrec) ..) (by decide)).trans hcause,
    (hreach.closeProgram_keeps hl hrec ..).1 5 hpends, hvtg⟩

end Aborts

/-- The program that a host abort of function f finds (R84). -/
def State.abortFinds (s : State) (f : Nat) : Option Nat := programSqs.find? fun p => (s.seq p).live
  && decide ((s.seq p).func = f ∧ (s.seq p).tag.toNat = s.rd F.SEQ_ABORT_TAG_tag)

theorem exec_hostAbort (s : State) (f : Fin 16) : exec (.hostAbort f) s = .next (match s.abortFinds f with
    | some q => (s.wr F.SEQ_ABORT_CMD_func f).closeProgram q stPreempted 0xC []
    | none => (s.wr F.SEQ_ABORT_CMD_func f).wr F.SEQ_ABORT_CMD_nomatch 1) := by
  have htag : (s.wr F.SEQ_ABORT_CMD_func f).rd F.SEQ_ABORT_TAG_tag = s.rd F.SEQ_ABORT_TAG_tag :=
    State.rd_wr_ne _ _ _ _ _ _ (by decide)
  refine congrArg Host.Outcome.next ?_
  unfold State.hostAbort
  dsimp only
  rw [htag]
  rfl

theorem hostAbort_ends {s : State} {q f : Fin 16} (hrec : s.ctl.recoverRun = false) (hfind : s.abortFinds f = some q.val) :
    ∃ t, exec (.hostAbort f) s = .next t ∧ EndedBy s t q stPreempted 0xC ∧ t.vtg = s.vtg ∧ t.rd F.SEQ_ABORT_CMD_func = f := by
  have hl : (s.seq q).live = true := by
    have h := List.find?_some hfind
    exact (Bool.and_eq_true_iff.mp h).1
  have hreach : Reached s q (s.wr F.SEQ_ABORT_CMD_func f) := ⟨.refl _, rfl, fun _ _ => rfl, rfl, rfl⟩
  have hexec := exec_hostAbort s f
  rw [hfind] at hexec
  obtain ⟨hend, hvtg⟩ := hreach.closeProgram hl hrec stPreempted 0xC []
  refine ⟨_, hexec, hend, hvtg, ((hreach.closeProgram_keeps hl hrec ..).2).trans ?_⟩
  rw [State.rd_wr_self]
  exact Nat.mod_eq_of_lt f.isLt

theorem hostAbort_noMatch {s : State} {f : Fin 16} (hfind : s.abortFinds f = none) :
    ∃ t, exec (.hostAbort f) s = .next t ∧ t.rd F.SEQ_ABORT_CMD_nomatch = 1 ∧ t.noRegs = s.noRegs
      ∧ RegsExcept s t [(F.SEQ_ABORT_CMD_func, []), (F.SEQ_ABORT_CMD_nomatch, [])] := by
  have hexec := exec_hostAbort s f
  rw [hfind] at hexec
  exact ⟨_, hexec, State.rd_wr_self .., rfl, ((RegsExcept.refl s _).wr (by decide) _).wr (by decide) _⟩

/-! ### The solera arbiter with one request -/

theorem nextClass_single (k cur given : Nat) (weight : Nat → Nat) : nextClass [k] cur given weight = some k := by
  rw [nextClass]
  split
  · next h => rw [List.mem_singleton.mp h.1]
  · by_cases hk : cur < k <;> simp [hk]

theorem topTier_single (r : Req) : topTier [r] 3 = some r.tier := by
  have hle : r.tier ≤ 3 := Nat.min_le_left ..
  generalize ht : r.tier = t at hle
  interval_cases t <;> simp [topTier, ht]

/-- The only request is granted, once it is eligible, where no class has a credit (R421). -/
theorem Solera.grant_single {x : Solera} {r : Req} {weight : Nat → Nat} {ok : Req → Bool} (hreqs : x.reqs = [r])
    (hcredit : x.credit = []) (hok : ok r = true) (hw : weight r.cls ≠ 0) :
    ∃ y, x.grant weight ok = some (r, y) := by
  have hfilter : x.reqs.filter ok = [r] := by rw [hreqs, List.filter_cons_of_pos hok, List.filter_nil]
  have hnone : [r].filter (fun r => decide (65536 ≤ tabGet 0 x.credit r.cls)) = [] := by
    rw [hcredit]
    exact List.filter_cons_of_neg (by simp [tabGet])
  have hall : [r].filter (fun r => decide (weight r.cls ≠ 0)) = [r] :=
    List.filter_cons_of_pos (by rw [decide_eq_true_eq]; exact hw)
  have htier : [r].filter (fun q => decide (q.tier = r.tier)) = [r] := List.filter_cons_of_pos (by simp)
  unfold Solera.grant
  dsimp only
  rw [hfilter, hnone, hall, topTier_single]
  simp only [List.map_nil, List.min?_nil]
  rw [htier]
  simp only [List.map_cons, List.map_nil]
  rw [nextClass_single]
  dsimp only
  rw [List.find?_cons_of_pos (by simp)]
  exact ⟨_, rfl⟩

/-! ### The packet that is offered -/

/-- What the state must be for the head of queue f to be the one packet on offer. -/
structure Offers (s : State) (f : Fin 16) (p : QPkt) : Prop where
  inner : s.innerPkt = none
  pkts : (s.queue f).pkts = [p]
  taker : (s.queue f).taker = none
  whole : p.arrived = p.len
  others : ∀ g : Fin 16, g ≠ f → (s.queue g).pkts = []

section Offers

variable {s : State} {f : Fin 16} {p : QPkt} (h : Offers s f p)
include h

theorem Offers.offered_eq (g : Nat) : s.offered g = s.headPkt g := by
  unfold State.offered
  rw [h.inner]
  dsimp only
  split
  · next hg => rw [hg]
  · rfl

theorem Offers.offered : s.offered f = some (p.len, p.words) := by
  rw [h.offered_eq, State.headPkt, if_pos h.taker, State.ready, h.pkts]
  dsimp only
  rw [if_pos (.inl h.whole)]
  rfl

theorem Offers.offered_other {g : Fin 16} (hg : g ≠ f) : s.offered g = none := by
  rw [h.offered_eq, State.headPkt, State.ready, h.others g hg]
  dsimp only [Option.map_none]
  exact ite_self _

theorem Offers.offered_isSome (g : Fin 16) : (s.offered g).isSome = decide (g = f) := by
  by_cases hg : g = f
  · rw [hg, h.offered]
    simp
  · rw [h.offered_other hg]
    simp [hg]

/-- The request that the queue has of the arbiter. -/
def State.request (s : State) (f : Nat) : Req :=
  ⟨f, f, s.rd F.SEQ_SOL_CFG_entry [f], 0, 1000 * max 1 (s.rd F.SEQ_SOL_RES_age)⟩

theorem Offers.seqUse (hsol : s.exec.sol = Solera.empty) : s.seqUse = { Solera.empty with reqs := [s.request f] } := by
  have hnew : commandQueues.filter (fun g => (s.offered g).isSome
      && ([] : List Req).all fun r => decide (r.cls ≠ g)) = [f.val] := by
    have hpred : ∀ g ∈ commandQueues, ((s.offered g).isSome
        && ([] : List Req).all fun r => decide (r.cls ≠ g)) = decide (g = f.val) := by
      intro g hg
      rw [List.all_nil, Bool.and_true]
      exact (h.offered_isSome ⟨g, List.mem_range.mp hg⟩).trans (by simp [Fin.ext_iff])
    rw [List.filter_congr hpred]
    clear hpred h
    revert f
    decide
  unfold State.seqUse
  rw [hsol]
  dsimp only [Solera.empty, List.filter_nil]
  rw [hnew]
  rfl

theorem Offers.servable (hok : s.rejectReason f p.len p.words = 0) (hidle : ∀ k, k ∈ programSqs → (s.seq k).state = .idle)
    (hres : s.rd F.SEQ_SOL_RES_res ≤ 1) : s.servable f = true := by
  have hcount : s.idleSqs = 15 := by
    rw [State.idleSqs, List.filter_eq_self.mpr fun k hk => decide_eq_true (hidle k hk)]
    rfl
  unfold State.servable
  rw [h.offered]
  dsimp only
  rw [hok, hcount]
  have hlt : s.rd F.SEQ_SOL_RES_res - s.pfRunning < 15 := by omega
  simp [hlt]

end Offers

/-! ### The words of the packet -/

section Words

variable {s : State} {k q : Nat}

theorem State.popWord_whole {len : Nat} {note : Bool} {w : Word} {ws : List Word}
    (hp : (s.queue k).pkts = [⟨len, len, w :: ws, note⟩]) : ∃ v t, s.popWord k = some (v, decide (ws = []), t)
      ∧ (t.queue k).pkts = if ws = [] then [] else [⟨len, len, ws, note⟩] := by
  refine ⟨(s.deliverWord k w).1, (s.deliverWord k w).2.setQueue k
    { s.queue k with pkts := if ws = [] then [] else [⟨len, len, ws, note⟩] }, ?_, by rw [State.queue_setQueue_self]⟩
  unfold State.popWord
  dsimp only
  rw [hp]
  simp only [and_true, decide_eq_true_eq]

/-- A queue whose only packet has arrived whole gives all its words (R70). -/
theorem State.popWords_whole {len : Nat} {note : Bool} {ws : List Word} (hp : (s.queue k).pkts = [⟨len, len, ws, note⟩])
    (hws : ws ≠ []) : (s.popWords k ws.length).1.length = ws.length ∧ ((s.popWords k ws.length).2.queue k).pkts = [] := by
  induction ws generalizing s with
  | nil => exact absurd rfl hws
  | cons w ws ih =>
    obtain ⟨v, t, hpop, ht⟩ := State.popWord_whole hp
    have hrest : (t.popWords k ws.length).1.length = ws.length ∧ ((t.popWords k ws.length).2.queue k).pkts = [] := by
      by_cases hn : ws = []
      · rw [if_pos hn] at ht
        rw [hn]
        exact ⟨rfl, ht⟩
      · rw [if_neg hn] at ht
        exact ih ht hn
    rw [List.length_cons, State.popWords, hpop]
    exact ⟨congrArg (· + 1) hrest.1, hrest.2⟩

/-- Sequencer q takes the words of its packet. -/
theorem State.takeWords_own (hq : (s.seq q).pktQ = some k) (ws : List Word) : s.takeWords q k ws =
    (s.putWords q (s.seq q).pktGot ws).setSeq q
      { (s.putWords q (s.seq q).pktGot ws).seq q with pktGot := (s.seq q).pktGot + ws.length } := if_pos hq

/-- What the head of a queue, a packet that has arrived whole, makes of a running sequencer that takes it. -/
structure Fed (s : State) (k q n : Nat) (t : State) : Prop where
  own : (t.seq q).own = (s.seq q).own
  running : (t.seq q).state = .running
  got : (t.seq q).pktGot = (s.seq q).pktGot + n
  pkts : (t.queue k).pkts = []
  vtg : t.vtg = s.vtg
  exec : t.exec = s.exec

theorem State.feed_whole {p : QPkt} (hp : (s.queue k).pkts = [p]) (ht : (s.queue k).taker = some q) (hwhole : p.arrived = p.len)
    (hws : p.words ≠ []) (hq : (s.seq q).pktQ = some k) (hk : k < 16) (hrun : (s.seq q).state = .running)
    (hwait : (s.seq q).wait = none) : Fed s k q p.words.length (s.feed k) := by
  obtain ⟨len, arrived, words, note⟩ := p
  dsimp only at hwhole hws
  subst hwhole
  obtain ⟨hlen, hpkts⟩ := State.popWords_whole hp hws
  have hpop : s.GoesOn (s.popWords k words.length).2 := .popWords (.refl s)
  have hexec : (s.popWords k words.length).2.exec = s.exec := State.exec_of_desk (State.popWords_desk ..)
  have hfeed : s.feed k = (((s.popWords k words.length).2).takeWords q k (s.popWords k words.length).1).setQueue k
      { (((s.popWords k words.length).2).takeWords q k (s.popWords k words.length).1).queue k with taker := none } := by
    unfold State.feed
    dsimp only
    rw [ht, hp]
    exact if_pos rfl
  rw [hfeed]
  generalize (s.popWords k words.length).1 = ws at hlen
  generalize (s.popWords k words.length).2 = u at hpop hpkts hexec
  have hown := (hpop.seqs q).own
  have hpktQ : (u.seq q).pktQ = some k := (show (u.seq q).own.pktQ = (s.seq q).own.pktQ from congrArg Seq.pktQ hown).trans hq
  have hgot := ((hpop.seqs q).got (fun c hc => by rw [hq] at hc; cases hc; exact hk) hwait).1
  rw [State.takeWords_own hpktQ]
  have hput : u.GoesOn (u.putWords q (u.seq q).pktGot ws) := .putWords (.refl u)
  have hdesk : (u.putWords q (u.seq q).pktGot ws).desk = u.desk := State.putWords_desk ..
  generalize u.putWords q (u.seq q).pktGot ws = v at hput hdesk
  have hqueue (x : Seq) (y : Queue) : ((v.setSeq q x).setQueue k y).queue k = y := State.queue_setQueue_self ..
  have hseq (x : Seq) (y : Queue) : ((v.setSeq q x).setQueue k y).seq q = x := State.seq_setSeq_self ..
  have hvq : ((v.setSeq q { v.seq q with pktGot := (u.seq q).pktGot + ws.length }).queue k).pkts = [] := by
    refine (congrArg Queue.pkts ?_).trans hpkts
    exact State.queue_of_desk_eq hdesk (by omega)
  refine ⟨?_, ?_, ?_, ?_, hput.vtg.trans hpop.vtg, ?_⟩
  · rw [hseq]
    exact (hput.seqs q).own.trans hown
  · rw [hseq]
    exact (hput.seqs q).running ((hpop.seqs q).running hrun)
  · rw [hseq, hgot, hlen]
  · rw [hqueue]
    exact hvq
  · exact (congrArg Desk.exec hdesk).trans hexec

end Words

/-! ### The start of a program -/

section Start

variable {s : State}

theorem State.started_goesOn (s : State) (q : Nat) : s.GoesOn (s.started q) := .started (.refl s)

def State.enterInFlight (s : State) (q : Nat) (x : InFlight) : State :=
  { s with exec := { s.exec with inFlight := tabPut none s.exec.inFlight q (some x) } }

theorem State.enterInFlight_get (s : State) (q : Nat) (x : InFlight) :
    tabGet none (s.enterInFlight q x).exec.inFlight q = some x := by
  rw [State.enterInFlight]
  exact tabGet_put_self none s.exec.inFlight q (some x)

theorem State.enterInFlight_queue (s : State) (q : Nat) (x : InFlight) (k : Nat) : (s.enterInFlight q x).queue k = s.queue k := rfl

theorem State.started_eq (s : State) (q : Nat) : s.started q =
    (((s.record (s.seq q).tag (s.seq q).program 0 1 q (s.seq q).func 0).memWrite 7 (inFlightRow q) true).2).enterInFlight q
      ⟨(s.seq q).tag, (s.seq q).program, (s.seq q).func, 0⟩ := rfl

/-- The record and the in-flight entry of a start leave the command queues alone (R79, R81). -/
theorem State.started_queue (s : State) (q : Nat) {k : Nat} (hk : k < 16) : (s.started q).queue k = s.queue k := by
  have hrecord : (s.record (s.seq q).tag (s.seq q).program 0 1 q (s.seq q).func 0).queue k = s.queue k :=
    State.queue_of_desk (k := 32) (by simp [State.record]) (by omega) (by omega)
  rw [State.started_eq, State.enterInFlight_queue, State.queue_of_desk_eq (State.memWrite_desk ..) (by omega), hrecord]

theorem State.started_inFlight (s : State) (q : Nat) : tabGet none (s.started q).exec.inFlight q
    = some ⟨(s.seq q).tag, (s.seq q).program, (s.seq q).func, 0⟩ := by
  rw [State.started_eq, State.enterInFlight_get]

/-- A program on the sequencer, its packet's words still in queue f. -/
def State.starting (s : State) (f q len : Nat) (ws : List Word) : State :=
  ((s.clearScratch q).setSeq q ((s.clearScratch q).dispatched f len ws (some f))).started q

/-- Sequencer q takes the head of queue f. -/
def State.taking (s : State) (f q : Nat) : State := s.setQueue f { s.queue f with taker := some q }

theorem State.startProgram_queue (h : s.innerPkt = none) (f q len : Nat) (ws : List Word) :
    s.startProgram f q len ws = ((s.starting f q len ws).taking f q).feed f := by
  have hnone : (if f = 0 then (s.clearScratch q).innerPkt else none) = none := by
    split
    · exact h
    · rfl
  unfold State.startProgram
  dsimp only
  rw [hnone]
  rfl

theorem State.starting_facts (s : State) (f q len : Nat) (ws : List Word) (hf : f < 16) :
    (s.dispatched f len ws (some f)).GoesOn ((s.starting f q len ws).seq q) ∧ (s.starting f q len ws).vtg = s.vtg
      ∧ (s.starting f q len ws).queue f = s.queue f
      ∧ tabGet none (s.starting f q len ws).exec.inFlight q = some ⟨ws.getD 1 0, pktProgram ws, f, 0⟩ := by
  unfold State.starting
  obtain ⟨u, hu, hseq, hvtg, hqueue⟩ : ∃ u, u = (s.clearScratch q).setSeq q ((s.clearScratch q).dispatched f len ws (some f))
      ∧ u.seq q = s.dispatched f len ws (some f) ∧ u.vtg = s.vtg ∧ u.queue f = s.queue f :=
    ⟨_, rfl, State.seq_setSeq_self .., rfl, rfl⟩
  rw [← hu]
  have hgo := u.started_goesOn q
  have hs := hgo.seqs q
  rw [hseq] at hs
  refine ⟨hs, hgo.vtg.trans hvtg, (u.started_queue q hf).trans hqueue, ?_⟩
  rw [State.started_inFlight, hseq]
  rfl

/-- W0 to W2 at dispatch: the length, the tag and the function (R87). -/
theorem State.dispatched_regs (s : State) (f len : Nat) (ws : List Word) (src : Option Nat) :
    (s.dispatched f len ws src).reg 0 = BitVec.ofNat 24 len ∧ (s.dispatched f len ws src).reg 1 = ws.getD 1 0
      ∧ (s.dispatched f len ws src).reg 2 = BitVec.ofNat 24 f := by
  have ne {a b : Nat} (t : Tab Word) (v : Word) (h : a ≠ b) : tabGet 0 (tabPut 0 t b v) a = tabGet 0 t a := tabGet_put_ne 0 0 t v h
  refine ⟨?_, ?_, tabGet_put_self ..⟩
  · exact (ne _ _ (by decide)).trans ((ne _ _ (by decide)).trans (tabGet_put_self ..))
  · exact (ne _ _ (by decide)).trans (tabGet_put_self ..)

end Start

/-! ### Dispatch -/

theorem idle_first {s : State} (h : ∀ k, k ∈ programSqs → (s.seq k).state = .idle) :
    (programSqs.find? fun q => decide ((s.seq q).state = .idle)) = some 1 :=
  List.find?_cons_of_pos (decide_eq_true (h 1 (by decide)))

/-- The state once the arbiter has granted the queue a sequencer. -/
def State.granted (s : State) (x : Solera) : State := { s with exec := { s.exec with sol := x } }

section Dispatch

variable {s : State} {f : Fin 16} {p : QPkt} (h : Offers s f p)
include h

/-- The only packet on offer starts on SQ1 when every sequencer is idle (R68 to R70, R431). -/
theorem Offers.exec_packetDispatch (halive : s.bit F.SEQ_EXEC_STAT_alive = true) (hto : s.ctl.transTo ≠ some modeDormant)
    (hsol : s.exec.sol = Solera.empty) (hok : s.rejectReason f p.len p.words = 0)
    (hidle : ∀ k, k ∈ programSqs → (s.seq k).state = .idle) (hres : s.rd F.SEQ_SOL_RES_res ≤ 1) :
    ∃ y, exec .packetDispatch s = .next ((s.granted y).startProgram f 1 p.len p.words) := by
  obtain ⟨y, hy⟩ := Solera.grant_single (x := { Solera.empty with reqs := [s.request f] }) (r := s.request f)
    (weight := fun g => max 1 (s.rd F.SEQ_SOL_CFG_weight [g])) (ok := fun r => s.servable r.cls) rfl rfl
    (h.servable hok hidle hres) (by omega)
  have hoffered : (s.granted y).offered (s.request f).cls = some (p.len, p.words) := h.offered
  have hreason : (s.granted y).rejectReason (s.request f).cls p.len p.words = 0 := hok
  have hfirst := idle_first (s := s.granted y) hidle
  refine ⟨y, congrArg Host.Outcome.next ((if_pos ⟨halive, hto⟩).trans ?_)⟩
  dsimp only
  rw [h.seqUse hsol, hy]
  unfold State.granted at hoffered hreason hfirst ⊢
  dsimp only
  rw [hoffered]
  dsimp only
  rw [if_neg (not_not.mpr hreason), hfirst]
  rfl

end Dispatch

theorem packetDispatch_starts {s : State} {f : Fin 16} {p : QPkt} (h : Offers s f p)
    (halive : s.bit F.SEQ_EXEC_STAT_alive = true) (hto : s.ctl.transTo ≠ some modeDormant)
    (hsol : s.exec.sol = Solera.empty) (hok : s.rejectReason f p.len p.words = 0)
    (hidle : ∀ k, k ∈ programSqs → (s.seq k).state = .idle) (hres : s.rd F.SEQ_SOL_RES_res ≤ 1)
    (hwords : p.words.length = p.len) (hlen : 2 ≤ p.len) :
    ∃ t, exec .packetDispatch s = .next t ∧ (t.seq 1).state = .running ∧ (t.seq 1).func = f.val
      ∧ (t.seq 1).reg 0 = BitVec.ofNat 24 p.len ∧ (t.seq 1).reg 1 = p.words.getD 1 0 ∧ ((t.seq 1).reg 2).toNat = f.val
      ∧ (t.seq 1).pc = BitVec.ofNat 19 (s.dirEntry (pktProgram p.words)) ∧ (t.seq 1).pktGot = p.len
      ∧ (t.queue f).pkts = [] ∧ t.vtg = s.vtg
      ∧ tabGet none t.exec.inFlight 1 = some ⟨p.words.getD 1 0, pktProgram p.words, f.val, 0⟩ := by
  obtain ⟨y, hexec⟩ := h.exec_packetDispatch halive hto hsol hok hidle hres
  rw [State.startProgram_queue (s := s.granted y) h.inner] at hexec
  obtain ⟨hseq, hvtg, hqueue, hflight⟩ := (s.granted y).starting_facts f 1 p.len p.words f.isLt
  generalize (s.granted y).starting f 1 p.len p.words = u at hexec hseq hvtg hqueue hflight
  have hpkts : (u.queue f).pkts = [p] := (congrArg Queue.pkts hqueue).trans h.pkts
  have hd : (s.granted y).dispatched f p.len p.words (some f) = s.dispatched f p.len p.words (some f) := rfl
  rw [hd] at hseq
  have hown := hseq.own
  have hpktQ : (u.seq 1).pktQ = some f.val := (show (u.seq 1).own.pktQ = _ from congrArg Seq.pktQ hown)
  obtain ⟨hgot, hwait⟩ := hseq.got (fun c hc => by cases hc; exact f.isLt) rfl
  have htaker : ((u.taking f 1).queue f).taker = some 1 := by rw [State.taking, State.queue_setQueue_self]
  have hpkts' : ((u.taking f 1).queue f).pkts = [p] := by rw [State.taking, State.queue_setQueue_self, hpkts]
  have hfed : Fed (u.taking f 1) f 1 p.words.length ((u.taking f 1).feed f) :=
    State.feed_whole hpkts' htaker h.whole (List.ne_nil_of_length_pos (by omega)) hpktQ f.isLt (hseq.running rfl) hwait
  generalize (u.taking f 1).feed f = t at hexec hfed
  have howns : (t.seq 1).own = (s.dispatched f p.len p.words (some f)).own := hfed.own.trans hown
  have hreg (r : Nat) : (t.seq 1).reg r = (s.dispatched f p.len p.words (some f)).reg r :=
    show (t.seq 1).own.reg r = (s.dispatched f p.len p.words (some f)).own.reg r from congrArg (Seq.reg · r) howns
  obtain ⟨hlenReg, htagReg, hfuncReg⟩ := s.dispatched_regs f p.len p.words (some f)
  refine ⟨t, hexec, hfed.running, ?_, ?_, ?_, ?_, ?_, ?_, hfed.pkts, hfed.vtg.trans hvtg, ?_⟩
  · exact show (t.seq 1).own.func = _ from congrArg Seq.func howns
  · rw [hreg, hlenReg]
  · rw [hreg, htagReg]
  · rw [hreg, hfuncReg, BitVec.toNat_ofNat]
    have hlt := f.isLt
    exact Nat.mod_eq_of_lt (by omega)
  · exact show (t.seq 1).own.pc = _ from congrArg Seq.pc howns
  · rw [hfed.got]
    exact (congrArg (· + p.words.length) hgot).trans ((Nat.zero_add _).trans hwords)
  · rw [hfed.exec]
    exact hflight

/-! ### The statement -/

theorem State.innerPkt_none {s : State} (hr : s.ctl.recoverWord = none) (ht : s.exec.timerPkts = [])
    (hp : s.mon.planner.pkts = []) : s.innerPkt = none := by
  rw [State.innerPkt, hr, ht, hp]

/-- Settles O28: dispatch grants the one request there is and feeds the whole packet to SQ1; each abort is an end of a program. -/
theorem programDispatchAndAbort : Obligations.ProgramDispatchAndAbort := by
  refine ⟨fun s f p halive hsol hrec htmr hplan hto hpkts htaker hwhole hwords hlen _ hothers hidle hres hok => ?_,
    fun s q hrec => ⟨fun hl => ⟨fun hq hgot => packetTimeout_ends hrec hl hq hgot, budgetExpiry_ends hrec hl,
      sqWatchdogExpiry_ends hrec hl⟩, fun f hfind => hostAbort_ends hrec hfind, fun f hfind => hostAbort_noMatch hfind⟩⟩
  exact packetDispatch_starts ⟨State.innerPkt_none hrec htmr hplan, hpkts, htaker, hwhole, hothers⟩ halive hto hsol hok hidle hres
    hwords hlen

end Sys2Proof.Machine
end


section
/-!
A load session: begin, data, verify and the end of the check (R63, R64).
-/

namespace Sys2Proof.Machine

/-- A table read at an index, once the entries of other indexes may be gone. -/
theorem tabGet_filter_key {α : Type} (d : α) (keep : Nat → Bool) (t : Tab α) (n : Nat) :
    tabGet d (t.filter fun e => keep e.1) n = if keep n then tabGet d t n else d := by
  induction t with
  | nil => exact (ite_self _).symm
  | cons e t ih =>
    obtain ⟨k, v⟩ := e
    by_cases hk : k = n
    · subst hk
      cases hkeep : keep k
      · rw [List.filter_cons_of_neg (by simp [hkeep]), ih, hkeep]
        rfl
      · simp [List.filter_cons_of_pos, hkeep, tabGet]
    · cases hkeep : keep k <;> simp [hkeep, tabGet, hk, ih]

/-! ### A session opens and closes -/

def State.withSession (s : State) (b : Bool) : State := { s with exec := { s.exec with session := b } }

theorem State.withSession_regs (s : State) (b : Bool) : (s.withSession b).regs = s.regs := rfl

theorem State.clearStore_regs (s : State) : s.clearStore.regs = s.regs := rfl

theorem State.keepStore_regs (s : State) (n : Nat) : (s.keepStore n).regs = s.regs := rfl

theorem State.rd_wr_other (s : State) {f g : Fld} (h : fldKey g [] ≠ fldKey f []) (v : Nat) : (s.wr f v).rd g = s.rd g :=
  State.rd_wr_ne s f g v [] [] h

/-- The registers that a begin writes (R64). -/
def State.beginRegs (s : State) : State :=
  (((s.wr F.SEQ_PSET_ID_id 0).wr F.GLB_MODE_no_image 1).wr F.SEQ_LOAD_ADDR_addr 0).wr F.SEQ_LOAD_CMD_result 0

theorem State.beginRegs_reads (s : State) : s.beginRegs.rd F.SEQ_LOAD_ADDR_addr = 0 ∧ s.beginRegs.rd F.SEQ_PSET_ID_id = 0
    ∧ s.beginRegs.rd F.GLB_MODE_no_image = 1 := by
  unfold State.beginRegs
  refine ⟨?_, ?_, ?_⟩
  · rw [State.rd_wr_other _ (by decide), State.rd_wr_self]
    rfl
  · rw [State.rd_wr_other _ (by decide), State.rd_wr_other _ (by decide), State.rd_wr_other _ (by decide), State.rd_wr_self]
    rfl
  · rw [State.rd_wr_other _ (by decide), State.rd_wr_other _ (by decide), State.rd_wr_self]
    rfl

theorem State.beginRegs_regsExcept (s : State) : RegsExcept s s.beginRegs [(F.SEQ_PSET_ID_id, []), (F.GLB_MODE_no_image, []),
    (F.SEQ_LOAD_ADDR_addr, []), (F.SEQ_LOAD_CMD_result, [])] :=
  ((((RegsExcept.refl s _).wr (by decide) 0).wr (by decide) 1).wr (by decide) 0).wr (by decide) 0

theorem loadBegin_refused (s : State) : ∃ t, exec (.loadBegin true) s = .next t ∧ t.rd F.SEQ_LOAD_CMD_result = 5
    ∧ t.noRegs = s.noRegs
    ∧ RegsExcept s t [(F.SEQ_LOAD_CMD_result, [])] :=
  ⟨s.loadRefused, rfl, State.rd_wr_self .., rfl, (RegsExcept.refl s _).wr (by decide) 5⟩

/-! ### Where a data word goes -/

def State.buffered (s : State) (a : Nat) (w : Word) : State :=
  { s with exec := { s.exec with loadBuf := tabPut none s.exec.loadBuf a (some w) } }

def State.storeWritten (s : State) (a : Nat) (w : Word) : State :=
  { s with exec := { s.exec with store := tabPut none s.exec.store a (some w) } }

theorem State.buffered_get (s : State) (a : Nat) (w : Word) : tabGet none (s.buffered a w).exec.loadBuf a = some w := by
  rw [State.buffered]
  exact tabGet_put_self none s.exec.loadBuf a (some w)

theorem State.storeWritten_get (s : State) (a : Nat) (w : Word) : tabGet none (s.storeWritten a w).exec.store a = some w := by
  rw [State.storeWritten]
  exact tabGet_put_self none s.exec.store a (some w)

theorem State.buffered_regs (s : State) (a : Nat) (w : Word) : (s.buffered a w).regs = s.regs := rfl

theorem State.storeWritten_regs (s : State) (a : Nat) (w : Word) : (s.storeWritten a w).regs = s.regs := rfl

theorem State.loadWord_header (s : State) {a : Nat} (ha : a < 3) (w : Word) : s.loadWord a w = s.buffered a w := by
  rw [State.loadWord, if_neg (by omega)]
  rfl

theorem State.loadWord_store {s : State} {a n : Nat} (hn : s.loadN = some n) (ha : 3 ≤ a) (han : a < n + 3)
    (hm : (s.memWrite 4 (storeRow (a - 3)) false).1 = true) (w : Word) :
    s.loadWord a w = (s.memWrite 4 (storeRow (a - 3)) false).2.storeWritten (a - 3) w := by
  unfold State.loadWord
  rw [if_pos ha, hn]
  dsimp only
  rw [if_pos han, if_pos hm]
  rfl

section Session

variable {s : State} (hd : s.mode = modeDormant) (hb : s.bit F.SEQ_LOAD_CMD_busy = false)
include hd hb

theorem State.mayLoad_of_dormant : s.mayLoad = true := by
  rw [State.mayLoad, hb, hd]
  rfl

theorem loadBegin_opens : ∃ t, exec (.loadBegin false) s = .next t ∧ t.exec.session = true ∧ t.exec.store = []
    ∧ t.rd F.SEQ_LOAD_ADDR_addr = 0 ∧ t.rd F.SEQ_PSET_ID_id = 0 ∧ t.rd F.GLB_MODE_no_image = 1 ∧ t.vtg = s.vtg
    ∧ t.seqs = s.seqs
    ∧ RegsExcept s t [(F.SEQ_PSET_ID_id, []), (F.GLB_MODE_no_image, []), (F.SEQ_LOAD_ADDR_addr, []),
      (F.SEQ_LOAD_CMD_result, [])] := by
  have hexec : exec (.loadBegin false) s = .next (s.clearStore.beginRegs.withSession true) := by
    refine congrArg Host.Outcome.next ?_
    unfold State.loadBegin
    rw [State.mayLoad_of_dormant hd hb]
    rfl
  obtain ⟨haddr, hid, himage⟩ := s.clearStore.beginRegs_reads
  have hregs := s.clearStore.beginRegs.withSession_regs true
  exact ⟨_, hexec, rfl, rfl, (State.rd_of_regs hregs _).trans haddr, (State.rd_of_regs hregs _).trans hid,
    (State.rd_of_regs hregs _).trans himage, rfl, rfl, .of_regs s.clearStore.beginRegs_regsExcept hregs⟩

theorem loadVerify_closes (hs : s.exec.session = true) : ∃ t, exec (.loadVerify false) s = .next t
    ∧ t.bit F.SEQ_LOAD_CMD_busy = true ∧ t.exec.session = false ∧ t.exec.store = s.exec.store ∧ t.vtg = s.vtg
    ∧ RegsExcept s t [(F.SEQ_LOAD_CMD_busy, []), (F.SEQ_LOAD_CMD_result, [])] := by
  have hexec : exec (.loadVerify false) s
      = .next (((s.wr F.SEQ_LOAD_CMD_busy 1).wr F.SEQ_LOAD_CMD_result 0).withSession false) := by
    refine congrArg Host.Outcome.next ?_
    unfold State.loadVerify
    rw [State.mayLoad_of_dormant hd hb, hs]
    rfl
  have hregs := ((s.wr F.SEQ_LOAD_CMD_busy 1).wr F.SEQ_LOAD_CMD_result 0).withSession_regs false
  refine ⟨_, hexec, ?_, rfl, rfl, rfl, .of_regs (((RegsExcept.refl s _).wr (by decide) 1).wr (by decide) 0) hregs⟩
  rw [State.bit, State.rd_of_regs hregs, State.rd_wr_other _ (by decide), State.rd_wr_self]
  rfl

/-! ### Data words -/

/-- A data word goes to its place, and the address to the next (R64). -/
theorem exec_loadData (hs : s.exec.session = true) (w : Word)
    (hplace : ∀ n, s.loadN = some n → s.rd F.SEQ_LOAD_ADDR_addr ≤ n + 66)
    (hfirst : s.loadN = none → s.rd F.SEQ_LOAD_ADDR_addr < 3) : exec (.loadData w) s
      = .next ((s.loadWord (s.rd F.SEQ_LOAD_ADDR_addr) w).wr F.SEQ_LOAD_ADDR_addr (s.rd F.SEQ_LOAD_ADDR_addr + 1)) := by
  refine congrArg Host.Outcome.next ?_
  unfold State.loadData
  dsimp only
  rw [State.mayLoad_of_dormant hd hb, hs]
  cases hn : s.loadN with
  | none => exact if_pos (decide_eq_true (hfirst hn))
  | some n => exact if_pos (decide_eq_true (hplace n hn))

theorem loadData_buffers (w : Word) (hs : s.exec.session = true) (ha : s.rd F.SEQ_LOAD_ADDR_addr < 3) :
    ∃ t, exec (.loadData w) s = .next t ∧ tabGet none t.exec.loadBuf (s.rd F.SEQ_LOAD_ADDR_addr) = some w
      ∧ t.rd F.SEQ_LOAD_ADDR_addr = s.rd F.SEQ_LOAD_ADDR_addr + 1 ∧ t.exec.store = s.exec.store
      ∧ RegsExcept s t [(F.SEQ_LOAD_ADDR_addr, [])] := by
  have hexec := exec_loadData hd hb hs w (fun n _ => by omega) fun _ => ha
  generalize s.rd F.SEQ_LOAD_ADDR_addr = a at ha hexec ⊢
  rw [s.loadWord_header ha] at hexec
  have hget := s.buffered_get a w
  have hregs := s.buffered_regs a w
  have hstore : (s.buffered a w).exec.store = s.exec.store := rfl
  generalize s.buffered a w = u at hexec hget hregs hstore
  refine ⟨_, hexec, hget, ?_, hstore, .wr (.of_regs (RegsExcept.refl s _) hregs) (by decide) _⟩
  have hwidth : fldWidth F.SEQ_LOAD_ADDR_addr = 20 := rfl
  rw [State.rd_wr_self, hwidth]
  exact Nat.mod_eq_of_lt (by omega)

theorem loadData_stores (w : Word) {n : Nat} (hs : s.exec.session = true) (hn : s.loadN = some n)
    (hlo : 3 ≤ s.rd F.SEQ_LOAD_ADDR_addr) (hhi : s.rd F.SEQ_LOAD_ADDR_addr < n + 3)
    (hm : (s.memWrite 4 (storeRow (s.rd F.SEQ_LOAD_ADDR_addr - 3)) false).1 = true) :
    ∃ t, exec (.loadData w) s = .next t ∧ tabGet none t.exec.store (s.rd F.SEQ_LOAD_ADDR_addr - 3) = some w
      ∧ t.exec.loadBuf = s.exec.loadBuf ∧ RegsExcept s t [(F.SEQ_LOAD_ADDR_addr, [])] := by
  have hexec := exec_loadData hd hb hs w
    (fun m hm => by rw [hn] at hm; cases hm; omega) fun hnone => by rw [hn] at hnone; cases hnone
  generalize s.rd F.SEQ_LOAD_ADDR_addr = a at hlo hhi hm hexec ⊢
  rw [State.loadWord_store hn hlo hhi hm] at hexec
  have hbuf := congrArg Exec.loadBuf (congrArg Desk.exec (s.memWrite_desk 4 (storeRow (a - 3)) false))
  have hregs := s.memWrite_regs 4 (storeRow (a - 3)) false
  generalize (s.memWrite 4 (storeRow (a - 3)) false).2 = u at hexec hbuf hregs
  exact ⟨_, hexec, u.storeWritten_get (a - 3) w, hbuf,
    .wr (.of_regs (RegsExcept.refl s _) ((u.storeWritten_regs (a - 3) w).trans hregs)) (by decide) _⟩

end Session

/-! ### The end of the check -/

theorem verifyImage_le (w : Nat → Nat) (n : Nat) (owner : Option (BitVec 384)) : verifyImage w n owner ≤ 3 := by
  unfold verifyImage
  dsimp only
  split
  · decide
  · split <;> decide

theorem State.loadResult_le (s : State) : s.loadResult ≤ 4 := by
  unfold State.loadResult
  split
  · exact Nat.le_refl 4
  · dsimp only
    split
    · exact Nat.le_refl 4
    · exact (verifyImage_le ..).trans (by decide)

/-- What the end of the check writes whatever its result (R64). -/
def State.checked (s : State) : State := (s.wr F.SEQ_LOAD_CMD_busy 0).wr F.SEQ_LOAD_CMD_result s.loadResult

theorem State.checked_reads (s : State) : s.checked.rd F.SEQ_LOAD_CMD_busy = 0
    ∧ s.checked.rd F.SEQ_LOAD_CMD_result = s.loadResult := by
  have hle := s.loadResult_le
  have hwidth : fldWidth F.SEQ_LOAD_CMD_result = 3 := rfl
  unfold State.checked
  refine ⟨?_, ?_⟩
  · rw [State.rd_wr_other _ (by decide), State.rd_wr_self]
    rfl
  · rw [State.rd_wr_self, hwidth]
    exact Nat.mod_eq_of_lt (by omega)

theorem State.checked_regsExcept (s : State) (l : List (Fld × List Nat)) :
    RegsExcept s s.checked ((F.SEQ_LOAD_CMD_busy, []) :: (F.SEQ_LOAD_CMD_result, []) :: l) :=
  ((RegsExcept.refl s _).wr List.mem_cons_self 0).wr (List.mem_cons_of_mem _ List.mem_cons_self) _

/-- The program-set identifier that the image gives. -/
def State.imageId (s : State) : Nat := ((tabGet none s.exec.loadBuf 1).getD 0).toNat

/-- A good image is kept, its identifier set. -/
def State.accepted (s : State) : State :=
  ((s.checked.keepStore (s.loadN.getD 0)).wr F.SEQ_PSET_ID_id s.imageId).wr F.GLB_MODE_no_image 0

/-- A bad image is cleared. -/
def State.discarded (s : State) : State := s.checked.clearStore.wr F.SEQ_LOAD_ADDR_addr 0

theorem exec_loadVerifyDone {s : State} (hb : s.bit F.SEQ_LOAD_CMD_busy = true) :
    exec .loadVerifyDone s = .next (if s.loadResult = 1 then s.accepted else s.discarded) :=
  congrArg Host.Outcome.next (if_pos hb)

theorem State.accepted_reads (s : State) : s.accepted.rd F.SEQ_LOAD_CMD_busy = 0
    ∧ s.accepted.rd F.SEQ_LOAD_CMD_result = s.loadResult ∧ s.accepted.rd F.SEQ_PSET_ID_id = s.imageId
    ∧ s.accepted.rd F.GLB_MODE_no_image = 0 := by
  obtain ⟨hbusy, hresult⟩ := s.checked_reads
  have hregs := s.checked.keepStore_regs (s.loadN.getD 0)
  have hwidth : fldWidth F.SEQ_PSET_ID_id = 24 := rfl
  unfold State.accepted
  refine ⟨?_, ?_, ?_, ?_⟩
  · rw [State.rd_wr_other _ (by decide), State.rd_wr_other _ (by decide), State.rd_of_regs hregs, hbusy]
  · rw [State.rd_wr_other _ (by decide), State.rd_wr_other _ (by decide), State.rd_of_regs hregs, hresult]
  · rw [State.rd_wr_other _ (by decide), State.rd_wr_self, hwidth]
    exact Nat.mod_eq_of_lt ((tabGet none s.exec.loadBuf 1).getD 0).isLt
  · rw [State.rd_wr_self]
    rfl

theorem State.accepted_store {s : State} {n : Nat} (hn : s.loadN = some n) (j : Nat) :
    tabGet none s.accepted.exec.store j = if j < n then tabGet none s.exec.store j else none := by
  have hstore : s.accepted.exec.store = s.exec.store.filter fun e => decide (e.1 < s.loadN.getD 0) := rfl
  rw [hstore, hn, Option.getD_some, tabGet_filter_key none (fun k => decide (k < n))]
  simp only [decide_eq_true_eq]

theorem State.accepted_regsExcept (s : State) : RegsExcept s s.accepted [(F.SEQ_LOAD_CMD_busy, []), (F.SEQ_LOAD_CMD_result, []),
    (F.SEQ_PSET_ID_id, []), (F.GLB_MODE_no_image, [])] :=
  ((RegsExcept.of_regs (s.checked_regsExcept _) (s.checked.keepStore_regs (s.loadN.getD 0))).wr (by decide) _).wr (by decide) 0

theorem State.discarded_reads (s : State) : s.discarded.rd F.SEQ_LOAD_CMD_busy = 0
    ∧ s.discarded.rd F.SEQ_LOAD_CMD_result = s.loadResult := by
  obtain ⟨hbusy, hresult⟩ := s.checked_reads
  unfold State.discarded
  rw [State.rd_wr_other _ (by decide), State.rd_wr_other _ (by decide), State.rd_of_regs s.checked.clearStore_regs,
    State.rd_of_regs s.checked.clearStore_regs]
  exact ⟨hbusy, hresult⟩

theorem State.discarded_regsExcept (s : State) : RegsExcept s s.discarded [(F.SEQ_LOAD_CMD_busy, []), (F.SEQ_LOAD_CMD_result, []),
    (F.SEQ_LOAD_ADDR_addr, [])] :=
  (RegsExcept.of_regs (s.checked_regsExcept _) s.checked.clearStore_regs).wr (by decide) 0

theorem State.bit_of_rd {s : State} {f : Fld} (h : s.rd f = 0) : s.bit f = false := by
  rw [State.bit, h]
  rfl

/-! ### The statement -/

/-- Settles O29: each step of a session as the registers it writes and the place of its word; the end of the check by its result. -/
theorem loadSession : Obligations.LoadSession := by
  refine ⟨fun s hd hb => ⟨loadBegin_opens hd hb, loadBegin_refused s, fun w hs ha => loadData_buffers hd hb w hs ha,
    fun w n hs hn hlo hhi hm => loadData_stores hd hb w hs hn hlo hhi hm, loadVerify_closes hd hb⟩, fun s hb => ?_⟩
  have hexec := exec_loadVerifyDone hb
  by_cases hr : s.loadResult = 1
  · rw [if_pos hr] at hexec
    obtain ⟨hbusy, hresult, hid, himage⟩ := s.accepted_reads
    exact ⟨_, hexec, State.bit_of_rd hbusy, hresult, rfl, fun _ => ⟨hid, himage, rfl, fun n j hn => State.accepted_store hn j,
      rfl, s.accepted_regsExcept⟩, fun h => absurd hr h⟩
  · rw [if_neg hr] at hexec
    obtain ⟨hbusy, hresult⟩ := s.discarded_reads
    exact ⟨_, hexec, State.bit_of_rd hbusy, hresult, rfl, fun h => absurd h hr, fun _ => ⟨rfl, s.discarded_regsExcept⟩⟩

end Sys2Proof.Machine
end
